-- ==== Sys2Proof/Word.lean ====
section
/-! DEFINITION. The word types of the module: bytes, 32-bit register words, 64-bit register words, the 64-byte descriptor
(R56) and the 32-byte entries the module writes to host memory (R57, R58). -/

namespace Sys2Proof

/-- A byte. -/
abbrev Byte := BitVec 8
/-- A 32-bit word (R4). -/
abbrev Word32 := BitVec 32
/-- A 64-bit register value. -/
abbrev Word := BitVec 64
/-- A 64-byte descriptor, byte 0 in the low bits (R56). -/
abbrev Desc := BitVec 512
/-- A 32-byte completion, event or status entry, byte 0 in the low bits (R55, R57, R58). -/
abbrev Entry := BitVec 256

end Sys2Proof
end

