-- ==== Sys2Proof/Syntax.lean ====
section
/-! DEFINITION. The commands the module takes: one constructor per row of spec/opcode_table.json, with what the outside
supplies at that step (the descriptor read, the doorbell values, the received block, a sensor reading, a timer's expiry). -/

namespace Sys2Proof

/-- The doorbell reads of one ring's poll: the value read, the re-read of R63 step 1 and the read of step 3; none where the
read ends in a PCIe error (R61). -/
structure DoorbellRead where
  ring : Nat
  value : Option Word32
  reread : Option Word32
  last : Option Word32
  deriving DecidableEq, Repr

/-- What the table reads of one walk answer, top table first (R77); none where a read ends in a PCIe error. -/
structure WalkReads where
  l2 : Option Word := none
  l1 : Option Word := none
  l0 : Option Word := none
  deriving DecidableEq, Repr

/-- What the outside shows while a release sequence runs (R438, R450, R456, R495): the ECC self-test's first wrong vector as
(channel, vector, expected, result), the axes whose motion-link test fails with the cause of R320, the cell voltage in mV, and
the relay feedback. -/
structure ReleaseIn where
  eccFail : Option (Nat × Nat × Nat × Nat) := none
  linkBad : List (Nat × Nat) := []
  cellMv : Nat := 3000
  relayClosed : Bool := false
  deriving DecidableEq, Repr

/-- What the measurement of a calibration item gives (R477, R478): internal writes of registers as (address, value), entries of
the inactive bank as (beamlet, entry), and writes of a camera context's page as (offset, bytes). -/
structure CalResult where
  writes : List (Nat × Nat) := []
  entries : List (Nat × Word) := []
  context : Nat := 0
  page : List (Nat × List Byte) := []
  deriving DecidableEq, Repr

/-- A line packet of a camera port (R324, R331): port, virtual channel, data type, the packet's errors as the cause bits 0 to 4
of PORT_ERROR, its payload length in bytes, and the samples unpacked by the CSI-2 rule of its data type. -/
structure CsiLine where
  port : Nat
  vc : Nat
  dataType : Nat
  errors : Nat := 0
  bytes : Nat
  samples : List Nat
  deriving DecidableEq, Repr

/-- What the head chip shows at a usage flush (R515): its two copies of the usage area, none where a copy does not check, and
whether the written copy verifies. -/
structure UsageIn where
  copyA : Option (List Byte) := none
  copyB : Option (List Byte) := none
  verify : Bool := true
  deriving DecidableEq, Repr

/-- What the identity chip shows while the head is authenticated (R510 to R512): it answers, a bus time-out occurs, its identity
and certificate, its signature over the challenge, and its geometry table with the CRC. -/
structure HeadIn where
  chip : Bool
  timeout : Bool := false
  identity : List Byte := []
  certificate : List Byte := []
  signature : List Byte := []
  geometry : List Byte := []
  geomCrc : Nat := 0
  deriving DecidableEq, Repr

/-- What one attempt of the fuse load reads (R457): whether the array's CRC-32C matches, the CRC computed, and the shadow
registers it gives (R465, R520): flags, reach, the pin-map words, the words of the three key hashes, and the rollback counter. -/
structure FuseIn where
  ok : Bool
  crc : Nat := 0
  flags : Nat := 0
  reach : Nat := 0
  pinMap : List Nat := []
  keys : List Nat := []
  rollback : Nat := 0
  deriving DecidableEq, Repr


/-- A verdict record of an ACK block (R255): row, verdict byte, pass, line, echo. -/
structure AckRec where
  row : Nat
  verdict : Nat
  pass : Nat
  line : Nat
  echo : Nat
  deriving DecidableEq, Repr
/-- The commands of the module, one per row of spec/opcode_table.json. -/
inductive Instr where
  /-- REGISTER_WRITE (R10). -/
  | registerWrite (fw : Bool) (addr : Nat) (size : Nat) (value : Word)
  /-- REG_WRITE_LOW_HALF (R12). -/
  | regWriteLowHalf (addr : Nat) (value : Word32)
  /-- REG_WRITE_HIGH_HALF (R12). -/
  | regWriteHighHalf (fw : Bool) (addr : Nat) (value : Word32)
  /-- REG_READ_LOW_HALF (R12). -/
  | regReadLowHalf (addr : Nat)
  /-- RC_READ (R10). -/
  | rcRead (addr : Nat) (size : Nat)
  /-- TT_WRAP (R413). -/
  | ttWrap
  /-- SET_MODE (R25). -/
  | setMode (ring : Nat) (d : Desc) (usage : UsageIn)
  /-- HOLD_STANDSTILL (R28). -/
  | holdStandstill (usage : UsageIn)
  /-- HOLD_CAUSE_CLEAR (R27). -/
  | holdCauseClear (fw : Bool) (value : Word32)
  /-- READY_ENTRY_AT_REST (R24). -/
  | readyEntryAtRest
  /-- BRINGUP_DONE_TIMEOUT (R497). -/
  | bringupDoneTimeout
  /-- BUS_MASTER_ENABLE_CLEAR (R44). -/
  | busMasterEnableClear
  /-- BUS_MASTER_ENABLE_SET (R44). -/
  | busMasterEnableSet
  /-- PCIE_LINK_DOWN (R44). -/
  | pcieLinkDown
  /-- PCIE_LINK_CHANGE (R44). -/
  | pcieLinkChange (speed : Nat) (width : Nat)
  /-- PCIE_HOT_RESET (R45). -/
  | pcieHotReset
  /-- PCIE_ERROR (R46). -/
  | pcieError (uncorrectable : Word32) (correctable : Word32) (ring : Option Nat)
  /-- HIF_APERTURE_BASE_WRITE (R47). -/
  | hifApertureBaseWrite (value : Word)
  /-- APERTURE_READ (R48). -/
  | apertureRead (offset : Nat) (len : Nat)
  /-- APERTURE_WRITE (R48). -/
  | apertureWrite (offset : Nat) (data : List Byte)
  /-- HIF_NUDGE (R62). -/
  | hifNudge (reads : List DoorbellRead)
  /-- DOORBELL_POLL (R62). -/
  | doorbellPoll (read : DoorbellRead)
  /-- RING_ENABLE (R53). -/
  | ringEnable (ring : Nat) (doorbell : Option Word32)
  /-- RING_DISABLE (R54). -/
  | ringDisable (ring : Nat)
  /-- RING_DISABLE_DONE (R54). -/
  | ringDisableDone (ring : Nat)
  /-- RING_RESET (R81). -/
  | ringReset (ring : Nat)
  /-- RING_RESUME_RETRY (R81). -/
  | ringResumeRetry (ring : Nat) (walk : WalkReads)
  /-- RING_RESUME_SKIP (R81). -/
  | ringResumeSkip (ring : Nat)
  /-- RING_RESUME_ABORT (R81). -/
  | ringResumeAbort (ring : Nat) (rest : List Desc)
  /-- EVENT_RING_SPACE_POLL (R557). -/
  | eventRingSpacePoll (ring : Nat) (doorbell : Option Word32)
  /-- TLB_INVAL_ALL (R79). -/
  | tlbInvalAll
  /-- TLB_INVAL_SPACE (R79). -/
  | tlbInvalSpace (asid : Nat)
  /-- TLB_INVAL_PAGE (R79). -/
  | tlbInvalPage (asid : Nat)
  /-- TLB_INVAL_DONE (R79). -/
  | tlbInvalDone
  /-- HOST_DMA_CHANNEL_GRANT (R72). -/
  | hostDmaChannelGrant (walk : WalkReads)
  /-- HOST_DMA_BREAK_POINT (R74). -/
  | hostDmaBreakPoint (ring : Nat) (walk : WalkReads)
  /-- HOST_DMA_TRANSFER_DONE (R57). -/
  | hostDmaTransferDone (ring : Nat) (data : List Byte)
  /-- HELLO (R65). -/
  | hello (ring : Nat) (d : Desc)
  /-- LOAD_CONTEXT (R559). -/
  | loadContext (ring : Nat) (d : Desc)
  /-- LOAD_BEAM_TABLE (R171). -/
  | loadBeamTable (ring : Nat) (d : Desc)
  /-- SET_GEOMETRY (R164). -/
  | setGeometry (ring : Nat) (d : Desc)
  /-- RESUME_RING (R82). -/
  | resumeRing (ring : Nat) (d : Desc) (walk : WalkReads) (rest : List Desc)
  /-- HOME (R294). -/
  | home (ring : Nat) (d : Desc)
  /-- MOVE (R295). -/
  | move (ring : Nat) (d : Desc)
  /-- CAL_REQUEST (R479). -/
  | calRequest (ring : Nat) (d : Desc)
  /-- LOAD_FIRMWARE (R496). -/
  | loadFirmware (ring : Nat) (d : Desc)
  /-- POLICY_SET (R506). -/
  | policySet (ring : Nat) (d : Desc)
  /-- READ_LOG (R68). -/
  | readLog (ring : Nat) (d : Desc)
  /-- CAM_PROGRAM (R333). -/
  | camProgram (ring : Nat) (d : Desc)
  /-- TIME_CTRL_SET (R429). -/
  | timeCtrlSet (ring : Nat) (d : Desc)
  /-- TIME_CTRL_STEP (R429). -/
  | timeCtrlStep (ring : Nat) (d : Desc)
  /-- TIME_CTRL_SOURCE (R429). -/
  | timeCtrlSource (ring : Nat) (d : Desc)
  /-- TIME_CTRL_INCREMENT (R429). -/
  | timeCtrlIncrement (ring : Nat) (d : Desc)
  /-- TIME_CTRL_COMPARE (R429). -/
  | timeCtrlCompare (ring : Nat) (d : Desc)
  /-- TIME_CTRL_READ (R429). -/
  | timeCtrlRead (ring : Nat) (d : Desc)
  /-- LAYER_BEGIN (R109). -/
  | layerBegin (ring : Nat) (d : Desc)
  /-- SWATH (R111). -/
  | swath (ring : Nat) (d : Desc) (head : List Byte)
  /-- LAYER_END (R115). -/
  | layerEnd (ring : Nat) (d : Desc)
  /-- MEND_PASS (R284). -/
  | mendPass (ring : Nat) (d : Desc) (head : List Byte)
  /-- CRC_JOB (R402). -/
  | crcJob (ring : Nat) (d : Desc)
  /-- COMPRESS (R403). -/
  | compress (ring : Nat) (d : Desc)
  /-- DECOMPRESS (R402). -/
  | decompress (ring : Nat) (d : Desc)
  /-- FILL (R402). -/
  | fill (ring : Nat) (d : Desc)
  /-- COPY (R402). -/
  | copy (ring : Nat) (d : Desc)
  /-- SCRUB (R402). -/
  | scrub (ring : Nat) (d : Desc)
  /-- UTILITY_JOB_DONE (R405). -/
  | utilityJobDone (ring : Nat) (index : Nat)
  /-- UPLOAD_BUFFER (R68). -/
  | uploadBuffer (ring : Nat) (d : Desc)
  /-- UPLOAD_BUFFER_TIMEOUT (R68). -/
  | uploadBufferTimeout (stream : Nat)
  /-- SWATH_EXECUTION_START (R113). -/
  | swathExecutionStart (damaged : List Nat)
  /-- GROUP_DECODE (R97). -/
  | groupDecode
  /-- INTAKE_START_WAIT_EXPIRY (R121). -/
  | intakeStartWaitExpiry
  /-- POSITION_SAMPLE (R196). -/
  | positionSample (axis : Nat) (up : Bool) (z : Bool)
  /-- STEP_INPUT_EDGE (R311). -/
  | stepInputEdge (dir : Bool) (setupBad : Bool)
  /-- LAYER_BOUNDARY (R115). -/
  | layerBoundary (usage : UsageIn)
  /-- LINE_WINDOW_ENTRY (R127). -/
  | lineWindowEntry (line : Nat) (dFault : Option Nat) (kFaults : List Nat)
  /-- MAP_SLOT_FILL_DONE (R138). -/
  | mapSlotFillDone (usage : UsageIn)
  /-- THE_ENABLE (R139). -/
  | theEnable (value : Word32)
  /-- ASSIM_MAP_APPLY (R156). -/
  | assimMapApply (strips : List (Nat × Nat))
  /-- FRAME_BUILD (R182). -/
  | frameBuild (faults : List (Nat × Nat × Nat)) (strips : List (Nat × Nat))
  /-- BANK_SWAP_CANCEL (R172). -/
  | bankSwapCancel
  /-- BEAM_TABLE_WINDOW_WRITE (R194). -/
  | beamTableWindowWrite (bank : Nat) (entry : Nat) (value : Word)
  /-- FRAME_SEND (R213). -/
  | frameSend (port : Nat) (found : Nat) (strips : List (Nat × Nat))
  /-- FRAME_LATE (R215). -/
  | frameLate (port : Nat) (event : Nat) (strips : List (Nat × Nat))
  /-- ANCHOR_LATCH (R210). -/
  | anchorLatch
  /-- TURN_ENTRY (R218). -/
  | turnEntry
  /-- TURN_DWELL_EXPIRY (R218). -/
  | turnDwellExpiry
  /-- AX1_SETTLE (R218). -/
  | ax1Settle
  /-- RUNUP_START (R218). -/
  | runupStart
  /-- EXPOSE_ENTRY (R218). -/
  | exposeEntry
  /-- LINK_DETECT_POLL (R239). -/
  | linkDetectPoll (port : Nat) (clock : Bool) (lanes : Nat) (shorts : Nat)
  /-- RETURN_CLOCK_LOCK (R239). -/
  | returnClockLock (port : Nat) (lanes : Nat)
  /-- LINK_TRAIN_TIMEOUT (R239). -/
  | linkTrainTimeout (port : Nat)
  /-- LINK_RETRY_DELAY (R239). -/
  | linkRetryDelay (port : Nat)
  /-- TRAIN_BLOCK_RX (R240). -/
  | trainBlockRx (port : Nat) (lane : Nat) (block : List Byte) (bitLock : Bool) (headers : Nat)
  /-- ALIGN_BLOCK_RX (R242). -/
  | alignBlockRx (port : Nat) (lane : Nat) (seq : Nat) (skew : Nat)
  /-- CAPABILITY_RX (R243). -/
  | capabilityRx (port : Nat) (body : List Byte)
  /-- TICK_REPLY_RX (R244). -/
  | tickReplyRx (port : Nat) (kind : Nat) (number : Nat) (t2 : Nat) (t3 : Nat)
  /-- TICK_CHECK_TIMER (R245). -/
  | tickCheckTimer (port : Nat)
  /-- RETURN_IDLE_RX (R252). -/
  | returnIdleRx (port : Nat) (version : Nat)
  /-- ACK_BLOCK_RX (R256). -/
  | ackBlockRx (port : Nat) (recs : List AckRec) (strips : List (Nat × Nat))
  /-- TELEMETRY_RX (R259). -/
  | telemetryRx (port : Nat) (block : List Byte)
  /-- LANE_LOCK_LOSS (R237). -/
  | laneLockLoss (port : Nat) (lane : Nat) (back : Bool)
  /-- FAST_RETRAIN_TIMEOUT (R246). -/
  | fastRetrainTimeout (port : Nat) (strips : List (Nat × Nat))
  /-- LINK_RETRAIN_REQUEST (R246). -/
  | linkRetrainRequest (port : Nat)
  /-- LINK_ENABLE_WRITE (R261). -/
  | linkEnableWrite (port : Nat) (on : Bool)
  /-- LINK_IDLE_ENTRY (R247). -/
  | linkIdleEntry (port : Nat)
  /-- ACK_TIMEOUT (R256). -/
  | ackTimeout (port : Nat) (strips : List (Nat × Nat))
  /-- ACK_DEFER_END (R256). -/
  | ackDeferEnd (port : Nat)
  /-- LINK_CLOCK_STOP_TIMEOUT (R261). -/
  | linkClockStopTimeout (port : Nat) (strips : List (Nat × Nat))
  /-- MEND_LOG_DISCARD (R281). -/
  | mendLogDiscard (value : Word32)
  /-- MOTION_LINK_FRAME (R301). -/
  | motionLinkFrame
  /-- MOVE_COMPLETE (R299). -/
  | moveComplete (axis : Nat)
  /-- RUN_HOLD_EXPIRY (R304). -/
  | runHoldExpiry (axis : Nat)
  /-- MOT_STOP (R300). -/
  | motStop (axis : Nat)
  /-- MOT_FLUSH (R300). -/
  | motFlush (axis : Nat)
  /-- MOT_DECLARE_HOMED (R311). -/
  | motDeclareHomed (axis : Nat)
  /-- MOT_CLEAR_HOMED (R319). -/
  | motClearHomed (axis : Nat)
  /-- MOT_FAULT_CLEAR (R323). -/
  | motFaultClear (axis : Nat) (value : Word32) (healthy : Bool)
  /-- MOT_SOURCE_CHANGE (R308). -/
  | motSourceChange (axis : Nat) (value : Word32)
  /-- STANDSTILL_DELAY_EXPIRY (R303). -/
  | standstillDelayExpiry (axis : Nat)
  /-- MOTION_LINK_RETEST (R307). -/
  | motionLinkRetest (axis : Nat) (cause : Nat)
  /-- ENCODER_FAULT (R309). -/
  | encoderFault (axis : Nat) (cause : Nat) (channels : Nat)
  /-- SWITCH_CLASSIFY (R312). -/
  | switchClassify (axis : Nat) (rNeg : Nat) (rPos : Nat) (rHome : Nat)
  /-- SWITCH_RAW_EDGE (R314). -/
  | switchRawEdge (axis : Nat) (input : Nat) (closed : Bool)
  /-- SWITCH_DEBOUNCE_ACCEPT (R314). -/
  | switchDebounceAccept (axis : Nat) (input : Nat)
  /-- CSI_FRAME_START (R328). -/
  | csiFrameStart (port : Nat) (vc : Nat)
  /-- CSI_LINE_PACKET (R331). -/
  | csiLinePacket (line : CsiLine)
  /-- CSI_FRAME_END (R331). -/
  | csiFrameEnd (port : Nat) (vc : Nat)
  /-- CAM_FRAME_TIMEOUT (R331). -/
  | camFrameTimeout (context : Nat)
  /-- CAM_LINE_PROCESS (R338). -/
  | camLineProcess (ecc : Nat)
  /-- POSITION_WAIT_TIMEOUT (R341). -/
  | positionWaitTimeout (context : Nat)
  /-- CAM_TRIG_SW (R330). -/
  | camTrigSw (position : Nat) (value : Word32)
  /-- TRIGGER_PULSE_END (R330). -/
  | triggerPulseEnd (position : Nat)
  /-- CAM_BUS_CMD (R326). -/
  | camBusCmd (position : Nat) (value : Word32)
  /-- CAM_BUS_TRANSACTION_DONE (R326). -/
  | camBusTransactionDone (position : Nat) (result : Nat) (data : List Byte)
  /-- CAM_COMMIT (R332). -/
  | camCommit (context : Nat)
  /-- CAM_CTX_ENABLE (R329). -/
  | camCtxEnable (context : Nat) (value : Word32)
  /-- CAM_CTX_DISABLE (R329). -/
  | camCtxDisable (context : Nat)
  /-- CAM_BUFFER_RELEASE (R344). -/
  | camBufferRelease (context : Nat) (value : Word32)
  /-- CAM_PWR_CTRL_WRITE (R327). -/
  | camPwrCtrlWrite (value : Word32)
  /-- CAM_POWER_FAULT (R327). -/
  | camPowerFault (position : Nat) (cause : Nat) (current : Nat)
  /-- DRAM_REFRESH (R360). -/
  | dramRefresh
  /-- DRAM_TEMP_POLL (R360). -/
  | dramTempPoll (hot : Nat)
  /-- SR_IDLE_ENTRY (R361). -/
  | srIdleEntry
  /-- SR_ENTRY_COMPLETE (R361). -/
  | srEntryComplete
  /-- ARB_REQUEST (R378). -/
  | arbRequest (requester : Nat) (afterSre : Bool)
  /-- ARB_GRANT_END (R377). -/
  | arbGrantEnd (dropAt : Option Nat)
  /-- ARB_SLOT_ADVANCE (R375). -/
  | arbSlotAdvance
  /-- ARB_WAIT_BREAK (R382). -/
  | arbWaitBreak (waiter : Nat)
  /-- ARB_BANK_SWITCH (R383). -/
  | arbBankSwitch (value : Word32)
  /-- DRAM_READ_COMPLETE (R364). -/
  | dramReadComplete (requester : Nat) (addr : Nat) (found : Nat) (device : Nat) (context : Nat)
  /-- DRAM_CMD_ALERT (R367). -/
  | dramCmdAlert (requester : Nat) (addr : Nat) (kind : Nat) (replays : Nat) (failed : Bool) (context : Nat)
  /-- MEMC_RANK_MAP_WRITE (R356). -/
  | memcRankMapWrite (value : Word32)
  /-- MAP_LOCK (R356). -/
  | mapLock
  /-- RANK_RETIRE (R370). -/
  | rankRetire (value : Word32)
  /-- RANK_MIGRATE_DONE (R370). -/
  | rankMigrateDone
  /-- PATROL_SCRUB_READ (R372). -/
  | patrolScrubRead (found : Nat) (device : Nat)
  /-- SRAM_SCRUB (R373). -/
  | sramScrub (region : Nat) (offset : Nat) (found : Nat)
  /-- ECC_LOG_CLEAR (R368). -/
  | eccLogClear (value : Word32)
  /-- ECC_INJECT_ARM (R388). -/
  | eccInjectArm (value : Word32)
  /-- DRAM_TRAINING_DONE (R357). -/
  | dramTrainingDone (channel : Nat) (fails : List (Nat × Nat)) (retuneFailed : Bool) (us : Nat)
  /-- UDMA_START (R390). -/
  | udmaStart (channel : Nat)
  /-- UDMA_STOP (R397). -/
  | udmaStop (channel : Nat) (beats : Nat) (level : Nat)
  /-- UDMA_APPEND (R395). -/
  | udmaAppend (value : Word)
  /-- UDMA_DESCRIPTOR_DONE (R394). -/
  | udmaDescriptorDone (channel : Nat) (level : Nat)
  /-- UDMA_PACE_RESUME (R392). -/
  | udmaPaceResume (channel : Nat) (level : Nat)
  /-- CRC_START (R399). -/
  | crcStart (unit : Nat)
  /-- CRC_LOAD_INIT (R398). -/
  | crcLoadInit (unit : Nat)
  /-- CRC_STOP (R399). -/
  | crcStop (unit : Nat) (bytes : Nat)
  /-- CRC_UNIT_DONE (R399). -/
  | crcUnitDone (unit : Nat)
  /-- SERVO_SAMPLE (R416). -/
  | servoSample (theta : Word)
  /-- SERVO_NO_SAMPLE (R418). -/
  | servoNoSample
  /-- HOLDOVER_EXPIRY (R418). -/
  | holdoverExpiry
  /-- TIME_SOURCE_CHANGE (R415). -/
  | timeSourceChange (value : Word32)
  /-- PPS_INPUT_EDGE (R426). -/
  | ppsInputEdge
  /-- PPS_MISSING (R426). -/
  | ppsMissing
  /-- TIME_COMPARE_FIRE (R427). -/
  | timeCompareFire (c : Nat)
  /-- TIME_COMPARE_ARM (R427). -/
  | timeCompareArm (c : Nat) (value : Word32)
  /-- PTP_MESSAGE_RX (R423). -/
  | ptpMessageRx (port : Nat) (isPtp : Bool) (kind : Nat) (seq : Nat) (correction : Word) (residence : Nat)
  /-- PTP_MESSAGE_TX (R422). -/
  | ptpMessageTx (port : Nat) (kind : Nat) (seq : Nat) (correction : Word) (turnaround : Nat)
  /-- SFP_CAGE_FAULT (R424). -/
  | sfpCageFault (port : Nat) (cause : Nat)
  /-- SFP_FAULT_CLEAR_DELAY (R424). -/
  | sfpFaultClearDelay (port : Nat)
  /-- WIDE_TIME_READ (R433). -/
  | wideTimeRead
  /-- POWER_UP (R436). -/
  | powerUp (lnSwapped : Bool) (cellLost : Bool) (inp : ReleaseIn)
  /-- MAINS_HALF_CYCLE (R437). -/
  | mainsHalfCycle (rms : Nat) (freq : Nat)
  /-- MAINS_LOSS (R437). -/
  | mainsLoss
  /-- SUPPLY_WARN (R440). -/
  | supplyWarn (bulk : Nat) (bus : Nat)
  /-- SUPPLY_WARN_EXIT (R440). -/
  | supplyWarnExit (bulk : Nat) (bus : Nat)
  /-- SUPPLY_RECOVER (R440). -/
  | supplyRecover (bulk : Nat) (bus : Nat)
  /-- SUPPLY_HOLD_EXPIRY (R440). -/
  | supplyHoldExpiry
  /-- BROWNOUT_ASSERT (R442). -/
  | brownoutAssert (bulk : Nat) (bus : Nat)
  /-- BROWNOUT_RELEASE (R442). -/
  | brownoutRelease (bulk : Nat) (bus : Nat) (inp : ReleaseIn)
  /-- DORMANT_ENTRY (R443). -/
  | dormantEntry
  /-- RAIL_FAULT (R435). -/
  | railFault (rail : Nat) (cause : Nat) (mv : Nat)
  /-- RESET_ASSERT (R449). -/
  | resetAssert (source : Nat)
  /-- RESET_RELEASE (R450). -/
  | resetRelease (mask : Nat) (inp : ReleaseIn)
  /-- RESET_PIN_PULSE (R445). -/
  | resetPinPulse
  /-- RESET_PIN_HOLD (R445). -/
  | resetPinHold
  /-- WATCHDOG_KICK (R447). -/
  | watchdogKick
  /-- WATCHDOG_HALF (R517). -/
  | watchdogHalf
  /-- WATCHDOG_EXPIRY (R447). -/
  | watchdogExpiry
  /-- RST_CMD (R446). -/
  | rstCmd (value : Word32)
  /-- RST_BLOCK (R452). -/
  | rstBlock (value : Word32)
  /-- THERMTRIP (R448). -/
  | thermtrip
  /-- THERMTRIP_COOL (R448). -/
  | thermtripCool (inp : ReleaseIn)
  /-- BACKUP_CELL_CHECK (R456). -/
  | backupCellCheck (mv : Nat)
  /-- FUSE_LOAD_ATTEMPT (R457). -/
  | fuseLoadAttempt (fuses : FuseIn)
  /-- BEZEL_RESET_RELEASE (R491). -/
  | bezelResetRelease (inp : ReleaseIn)
  /-- STANDING_REQUEST (R467). -/
  | standingRequest
  /-- THM_REQ (R467). -/
  | thmReq (fw : Bool) (value : Word32)
  /-- THM_CONVERSION_DONE (R468). -/
  | thmConversionDone (reading : Int) (fault : Nat) (raw : Nat)
  /-- THM_CAL_RUN (R481). -/
  | thmCalRun (value : Word32)
  /-- CAL_ITEM_DONE (R481). -/
  | calItemDone (ok : Bool) (result : CalResult)
  /-- SAF_LOCK (R486). -/
  | safLock
  /-- ENVELOPE_CHECK (R490). -/
  | envelopeCheck (speeds : List Nat)
  /-- ESTOP_OPEN (R493). -/
  | estopOpen (channel : Nat)
  /-- ESTOP_CLOSE (R493). -/
  | estopClose (channel : Nat)
  /-- ESTOP_DISCREPANCY (R493). -/
  | estopDiscrepancy
  /-- ESTOP_STOP_TIMEOUT (R493). -/
  | estopStopTimeout
  /-- ESTOP_TEST_PULSE (R533). -/
  | estopTestPulse (channel : Nat) (cross : Bool)
  /-- BEAM_PERMIT_CHANGE (R18). -/
  | beamPermitChange (active : Bool)
  /-- ENABLE_FEEDBACK_FAULT (R494). -/
  | enableFeedbackFault (port : Nat) (active : Bool)
  /-- RELAY_FEEDBACK_FAULT (R495). -/
  | relayFeedbackFault (closed : Bool)
  /-- ROLLBACK_COMMIT (R501). -/
  | rollbackCommit (value : Word32)
  /-- CTL_BRINGUP_DONE_WRITE (R497). -/
  | ctlBringupDoneWrite
  /-- CTL_HOLD_REQ (R507). -/
  | ctlHoldReq
  /-- DBG_REQUEST (R508). -/
  | dbgRequest (value : Word32)
  /-- DBG_RESPONSE (R508). -/
  | dbgResponse (value : Word32)
  /-- DBG_RELOCK (R508). -/
  | dbgRelock
  /-- DBG_RESET (R509). -/
  | dbgReset
  /-- HEAD_REAUTH (R512). -/
  | headReauth
  /-- HEAD_AUTH_COMPLETE (R512). -/
  | headAuthComplete (head : HeadIn) (usage : UsageIn)
  /-- HEAD_IDENTITY_POLL (R513). -/
  | headIdentityPoll (serial : Option Nat)
  /-- USAGE_MERGE (R514). -/
  | usageMerge
  /-- HSV_FLUSH (R515). -/
  | hsvFlush (usage : UsageIn)
  /-- HSV_USAGE_DISCARD (R516). -/
  | hsvUsageDiscard (value : Word32)
  /-- IO_OUTPUT_FAULT (R532). -/
  | ioOutputFault (cls : Nat) (index : Nat) (cause : Nat) (measured : Nat)
  /-- PIN_FAULT_CLEAR (R532). -/
  | pinFaultClear (value : Word32) (idGone : Bool)
  /-- IO_SUPPLY_ACCEPT (R534). -/
  | ioSupplyAccept (mv : Nat) (inputs : Nat)
  /-- IO_SUPPLY_LOSS (R534). -/
  | ioSupplyLoss (cause : Nat) (mv : Nat)
  /-- COOLANT_WINDOW (R535). -/
  | coolantWindow (edges : Nat)
  /-- COOLANT_CHANGE (R535). -/
  | coolantChange (level : Bool)
  /-- GPIN_EDGE_ACCEPT (R538). -/
  | gpinEdgeAccept (input : Nat) (level : Bool)
  /-- PIN_OUT_WRITE (R460). -/
  | pinOutWrite (value : Word32)
  /-- EVT_PENDING_CLEAR (R552). -/
  | evtPendingClear (w : Nat) (value : Word32)
  /-- VECTOR_HOLDOFF_EXPIRY (R551). -/
  | vectorHoldoffExpiry (v : Nat)
  /-- MSIX_UNMASK (R551). -/
  | msixUnmask (v : Nat)
  /-- FAST_EXIT_TIMEOUT (R239). -/
  | fastExitTimeout (port : Nat)
  /-- RETURN_BLOCK_INVALID (R234). -/
  | returnBlockInvalid (port : Nat) (lane : Nat) (kind : Nat) (headers : Nat)
  /-- CORE_HALT (R447). -/
  | coreHalt (debug : Bool)
  /-- SFP_CAGE_FAULT_CLEAR (R424). -/
  | sfpCageFaultClear (port : Nat)
  /-- PPS_OUTPUT_PULSE_START (R425). -/
  | ppsOutputPulseStart
  /-- PPS_OUTPUT_PULSE_END (R425). -/
  | ppsOutputPulseEnd
  deriving DecidableEq, Repr

end Sys2Proof
end

