-- ==== Sys2Proof/Machine/Bits.lean ====
section
/-! DEFINITION. Bit fields, sign extension, byte order and the rounding rules of R4 to R7. -/

namespace Sys2Proof.Machine

/-- Field of `len` bits at bit `lo`. -/
def bits (lo len v : Nat) : Nat := v / 2 ^ lo % 2 ^ len
/-- Bit `n` of `v`. -/
def bit (n v : Nat) : Bool := v / 2 ^ n % 2 == 1
/-- `v` with the field of `len` bits at `lo` replaced by `x`. -/
def setBits (lo len x v : Nat) : Nat :=
  v / 2 ^ (lo + len) * 2 ^ (lo + len) + (x % 2 ^ len) * 2 ^ lo + v % 2 ^ lo
/-- `v` with bit `n` set to `b`. -/
def setBit (n : Nat) (b : Bool) (v : Nat) : Nat := setBits n 1 b.toNat v
/-- The two's complement reading of an `n`-bit value. -/
def sext (n v : Nat) : Int :=
  let w := v % 2 ^ n
  if w < 2 ^ (n - 1) then (w : Int) else (w : Int) - (2 ^ n : Nat)
/-- The `n`-bit two's complement encoding of an integer. -/
def toBits (n : Nat) (x : Int) : Nat := (x % (2 ^ n : Nat)).toNat
/-- `clamp(x, lo, hi)` of R7. -/
def clampN (lo hi x : Nat) : Nat := if x < lo then lo else if hi < x then hi else x
/-- `clamp(x, lo, hi)` of R7 on integers. -/
def clampI (lo hi x : Int) : Int := if x < lo then lo else if hi < x then hi else x
/-- `x >> k` of R7: rounds toward minus infinity. -/
def sar (x : Int) (k : Nat) : Int := x / (2 ^ k : Nat)
/-- The signed difference a − b of two `n`-bit wrapping counters (R15). -/
def sdiff (n a b : Nat) : Int := sext n (a % 2 ^ n + 2 ^ n - b % 2 ^ n)
/-- A 48-bit position counter holds a position, wrapped (R15, R195). -/
def wrap48 (x : Int) : Int := sext 48 (toBits 48 x)
/-- The difference a − b of two positions, by 48-bit signed difference (R15, R195). -/
def pdiff (a b : Int) : Int := sdiff 48 (toBits 48 a) (toBits 48 b)
/-- Ceiling of a / b. -/
def cdiv (a b : Nat) : Nat := (a + b - 1) / b

/-- The bytes of `v`, low byte first (R4). -/
def leBytes : (n : Nat) → (v : Nat) → List Byte
  | 0, _ => []
  | n + 1, v => BitVec.ofNat 8 v :: leBytes n (v / 256)
/-- The number whose bytes are `bs`, low byte first. -/
def ofBytes : List Byte → Nat
  | [] => 0
  | b :: r => b.toNat + 256 * ofBytes r
/-- `len` bytes of `bs` from byte `off`, as a number, low byte first; missing bytes are 0. -/
def bytesAt (bs : List Byte) (off len : Nat) : Nat := ofBytes ((bs.drop off).take len)

/-- `len` bytes of a value from byte `off` (a descriptor, an entry, a detail). -/
def byteFld (off len v : Nat) : Nat := bits (8 * off) (8 * len) v
/-- A value laid out from (byte offset, byte length, content) triples that do not overlap. -/
def layout : List (Nat × Nat × Int) → Nat
  | [] => 0
  | (off, len, v) :: r => toBits (8 * len) v * 2 ^ (8 * off) + layout r

/-- `List.range n` under a test. -/
def rangeP (n : Nat) (p : Nat → Bool) : List Nat := (List.range n).filter p
/-- A mask from the numbers whose bits are set. -/
def maskOf : List Nat → Nat
  | [] => 0
  | n :: r => maskOf r ||| 2 ^ n
/-- The numbers below `n` whose bits are set in `m`. -/
def onesOf (n m : Nat) : List Nat := rangeP n (fun i => bit i m)
/-- 0 or 1. -/
def b2n (b : Bool) : Nat := if b then 1 else 0

end Sys2Proof.Machine
end

