-- ==== Sys2Proof/Machine/Facet.lean ====
section
/-! DEFINITION. Facet streams (R84 to R108): the CRCs, the header and tag checks, and the group decoder of R97. -/

namespace Sys2Proof.Machine

/-- `v` with its low `n` bits in reverse order. -/
def reflect : (n : Nat) → (v : Nat) → Nat
  | 0, _ => 0
  | n + 1, v => v % 2 * 2 ^ n + reflect n (v / 2)
/-- One message bit through a CRC register of `w` bits, high bit first. -/
def crcBit (w poly : Nat) (c : Nat) (b : Nat) : Nat :=
  let top := c / 2 ^ (w - 1) % 2
  let s := c * 2 % 2 ^ w
  if top ^^^ b = 1 then s ^^^ poly else s
/-- One byte through a CRC register, its high bit first, or its low bit first where the input is reflected. -/
def crcByte (w poly : Nat) (refin : Bool) (c : Nat) (b : Byte) : Nat :=
  let v := if refin then reflect 8 b.toNat else b.toNat
  (List.range 8).foldl (fun c i => crcBit w poly c (v / 2 ^ (7 - i) % 2)) c
/-- The running value after a byte string (R398). -/
def crcRun (w poly : Nat) (refin : Bool) (c : Nat) (bs : List Byte) : Nat := bs.foldl (crcByte w poly refin) c
/-- A CRC of `w` bits as R398 forms it. -/
def crcOf (w poly init xorout : Nat) (refin refout : Bool) (bs : List Byte) : Nat :=
  let c := crcRun w poly refin init bs
  ((if refout then reflect w c else c) ^^^ xorout) % 2 ^ w
/-- The CRC-32C of R96. -/
def crc32c (bs : List Byte) : Nat := crcOf 32 0x1EDC6F41 0xFFFFFFFF 0xFFFFFFFF true true bs

/-- A tag record (R102). -/
structure Tag where
  line : Nat
  type : Nat
  value : Nat
  deriving DecidableEq, Repr

/-- A stream header that passed its checks (R88), with its tags. -/
structure StreamHead where
  rc : Nat
  tiles : Nat
  groups : Nat
  lines : Nat
  baseOff : Nat
  ovfOff : Nat
  ovfLen : Nat
  tags : List Tag
  deriving DecidableEq, Repr

/-- The slot size of a ratio class (R89). -/
def slotSize (rc : Nat) : Nat := 256 / 2 ^ rc
/-- The bytes of one group: its slots and its trailer (R89). -/
def groupStride (tiles rc : Nat) : Nat := tiles * slotSize rc + 16

/-- Format causes (R100). -/
def fmtMagic : Nat := 1
def fmtHeaderCrc : Nat := 2
def fmtReservedMode : Nat := 3
def fmtReservedBits : Nat := 4
def fmtCopyRange : Nat := 5
def fmtRunTotal : Nat := 6
def fmtBitmapClass : Nat := 7
def fmtEscapeRange : Nat := 8
def fmtEscapeIndex : Nat := 9
def fmtTrailer : Nat := 10
def fmtTag : Nat := 11
def fmtGeometry : Nat := 12

/-- The first failing byte offset within a tag record (R104, R107), in ascending offset: `place` says whether its line stands
wrongly among the records before it, `dir` and `pass` are the descriptor's. -/
def tagFault (lines dir pass : Nat) (place : Bool) (bs : List Byte) : Option Nat :=
  let line := bytesAt bs 0 4
  let ty := bytesAt bs 4 1
  let v := bytesAt bs 8 8
  if decide (line ≥ lines) || place || (ty == 2 && line != 0) then some 0
  else if ty = 0 ∨ ty > 7 then some 4
  else if bytesAt bs 5 3 ≠ 0 then some 5
  else
    let bad : List (Nat × Bool) := match ty with
      | 1 => [(8, v % 256 == 0 || v % 256 > 127), (9, v / 256 != 0)]
      | 2 => [(8, v % 256 > 1 || v % 256 != dir), (9, v / 256 % 256 != 0), (10, v / 2 ^ 16 % 2 ^ 16 != pass), (12, v / 2 ^ 32 != 0)]
      | 3 => [(10, v / 2 ^ 16 != 0)]
      | 4 => [(8, v % 256 > 15), (9, v / 256 % 256 > 15), (10, v / 2 ^ 16 != 0)]
      | 5 => [(8, v % 2 ^ 16 > 0x1FF), (10, v / 2 ^ 16 != 0)]
      | 6 => [(8, v % 256 > 1), (9, v / 256 != 0)]
      | _ => []
    (bad.find? (·.2)).map (·.1)
/-- The tag record in 16 bytes. -/
def tagOf (bs : List Byte) : Tag := { line := bytesAt bs 0 4, type := bytesAt bs 4 1, value := bytesAt bs 8 8 }
/-- Checks the tag records in array order (R104, R107): the line before and how many tags it carries.  The answer is the tags, or
the stream offset of the failing field. -/
def checkTags (lines dir pass : Nat) : Nat → Nat → Nat → Nat → List Byte → List Tag → Except Nat (List Tag)
  | 0, _, _, _, _, acc => .ok acc.reverse
  | n + 1, i, prevLine, prevCount, bs, acc =>
    let t := tagOf (bs.take 16)
    let count := if i ≠ 0 ∧ t.line = prevLine then prevCount + 1 else 1
    match tagFault lines dir pass (decide (i ≠ 0 ∧ t.line < prevLine) || decide (count > 8)) (bs.take 16) with
    | some o => .error (64 + 16 * i + o)
    | none => checkTags lines dir pass n (i + 1) t.line count (bs.drop 16) (t :: acc)
/-- Checks a stream's header and tags in the order of R100, against the head's T and the descriptor's direction and pass:
the header, or the cause and the byte offset of the failing field.  `bad`: a read of them met an error, which fails the check of
header_crc as damaged bytes do (R366, log entry 24). -/
def checkHead (headT dir pass : Nat) (bs : List Byte) (bad : Bool := false) : Except (Nat × Nat) StreamHead :=
  let tagCount := bytesAt bs 16 4
  let rc := bytesAt bs 5 1 % 4
  let tiles := bytesAt bs 6 2
  let groups := bytesAt bs 8 4
  let lines := bytesAt bs 12 4
  let baseOff := bytesAt bs 24 8
  let ovfOff := bytesAt bs 32 8
  let ovfLen := bytesAt bs 40 8
  if bytesAt bs 0 4 ≠ 0x53544346 then .error (fmtMagic, 0)
  else if bytesAt bs 4 1 ≠ 1 then .error (fmtMagic, 4)
  else if tagCount > 4096 then .error (fmtGeometry, 16)
  else if bad || crc32c (bs.take 60 ++ (bs.drop 64).take (16 * tagCount)) != bytesAt bs 60 4 then .error (fmtHeaderCrc, 60)
  else if bytesAt bs 5 1 / 4 ≠ 0 then .error (fmtReservedBits, 5)
  else if bytesAt bs 20 4 ≠ 0 then .error (fmtReservedBits, 20)
  else if bytesAt bs 48 12 ≠ 0 then .error (fmtReservedBits, 48)
  else if tiles ≠ headT then .error (fmtGeometry, 6)
  else if groups = 0 ∨ groups > 2 ^ 26 then .error (fmtGeometry, 8)
  else if lines < 32 * (groups - 1) + 1 ∨ lines > 32 * groups then .error (fmtGeometry, 12)
  else if baseOff % 64 ≠ 0 ∨ baseOff < 64 + 16 * tagCount then .error (fmtGeometry, 24)
  else if ovfOff % 8 ≠ 0 ∨ ovfOff < baseOff + groups * groupStride tiles rc then .error (fmtGeometry, 32)
  else if ovfLen % 8 ≠ 0 then .error (fmtGeometry, 40)
  else
    match checkTags lines dir pass tagCount 0 0 0 (bs.drop 64) [] with
    | .error o => .error (fmtTag, o)
    | .ok tags => .ok { rc, tiles, groups, lines, baseOff, ovfOff, ovfLen, tags }

/-- How a tile or a group ends: its decoded bytes; a format cause with the failing byte offset (from the slot's start, or
from the overflow area's where `inOvf`); or a CRC that does not match, as computed. -/
inductive Decoded where
  | ok (px : List Byte) (used : Nat)
  | format (cause off : Nat) (inOvf : Bool)
  | crc (computed : Nat)
  deriving DecidableEq, Repr

/-- The runs of mode N from byte `used` of a slot (R92): the pixels, and the bytes used. -/
def decodeRuns (slot : Nat) : (fuel : Nat) → (bs : List Byte) → (used p : Nat) → (acc : List Byte) → Decoded
  | 0, _, used, _, _ => .format fmtRunTotal used false
  | fuel + 1, bs, used, p, acc =>
    if p = 1024 then .ok acc used
    else if used + 2 > slot then .format fmtRunTotal used false
    else
      let len := bytesAt bs used 1 + 1
      if p + len > 1024 then .format fmtRunTotal used false
      else decodeRuns slot fuel bs (used + 2) (p + len) (acc ++ List.replicate len (BitVec.ofNat 8 (bytesAt bs (used + 1) 1)))
/-- One slot before the check of its unused bytes (R90, R97): `prev` are the group's decoded tiles, newest first, `ovf` reads
the overflow area. -/
def decodeSlot (slot g tiles t ovfLen : Nat) (prev : List (List Byte)) (ovf : Nat → Nat → List Byte) (bs : List Byte) : Decoded :=
  let b0 := bytesAt bs 0 1
  let b1 := bytesAt bs 1 1
  if b0 % 32 ≠ 0 then .format fmtReservedBits 0 false
  else
    match b0 / 32 with
    | 0 => .ok (List.replicate 1024 (BitVec.ofNat 8 b1)) 2
    | 1 => if b1 = 0 ∨ b1 > t then .format fmtCopyRange 1 false else .ok (prev.getD (b1 - 1) []) 2
    | 2 =>
      if slot ≠ 256 then .format fmtBitmapClass 0 false
      else .ok ((List.range 1024).map (fun p =>
        BitVec.ofNat 8 (if bit (p % 8) (bytesAt bs (3 + p / 8) 1) then bytesAt bs 2 1 else b1))) 131
    | 3 => decodeRuns slot 1025 bs 1 0 []
    | 7 =>
      let off := 8 * bytesAt bs 1 4
      if off + 1032 > ovfLen then .format fmtEscapeRange 1 false
      else
        let e := ovf off 1032
        if bytesAt e 0 4 ≠ (g * tiles + t) % 2 ^ 32 then .format fmtEscapeIndex off true
        else if crc32c (e.drop 8) ≠ bytesAt e 4 4 then .crc (crc32c (e.drop 8))
        else .ok (e.drop 8) 5
    | _ => .format fmtReservedMode 0 false
/-- One tile (R97): its slot, then its unused bytes, which must be 0 (R90). -/
def decodeTile (slot g tiles t ovfLen : Nat) (prev : List (List Byte)) (ovf : Nat → Nat → List Byte) (bs : List Byte) : Decoded :=
  match decodeSlot slot g tiles t ovfLen prev ovf bs with
  | .ok px used =>
    match (List.range slot).find? (fun i => decide (used ≤ i) && bytesAt bs i 1 != 0) with
    | some i => .format fmtReservedBits i false
    | none => .ok px used
  | r => r
/-- How a group ends: its tiles, or what failed, with the tile (none for the trailer and the group's CRC). -/
inductive GroupEnd where
  | ok (tiles : List (List Byte))
  | format (tile : Option Nat) (cause off : Nat) (inOvf : Bool)
  | crc (tile : Option Nat) (computed : Nat)
  deriving DecidableEq, Repr

/-- The tiles of a group in ascending order, from tile `t`, `n` of them left. -/
def decodeTiles (slot g tiles ovfLen : Nat) (ovf : Nat → Nat → List Byte) :
    (n t : Nat) → (bs : List Byte) → (prev : List (List Byte)) → GroupEnd
  | 0, _, _, prev => .ok prev.reverse
  | n + 1, t, bs, prev =>
    match decodeTile slot g tiles t ovfLen prev ovf (bs.take slot) with
    | .ok px _ => decodeTiles slot g tiles ovfLen ovf n (t + 1) (bs.drop slot) (px :: prev)
    | .format c o v => .format (some t) c (if v then o else t * slot + o) v
    | .crc c => .crc (some t) c
/-- The group decoder (R97): the tiles, the trailer with its LAST flag, and the group's CRC over the decoded bytes (R95,
R96).  Offsets count from the group's start, or from the overflow area's. -/
def decodeGroup (h : StreamHead) (g : Nat) (bs : List Byte) (ovf : Nat → Nat → List Byte) : GroupEnd :=
  let slot := slotSize h.rc
  match decodeTiles slot g h.tiles h.ovfLen ovf h.tiles 0 bs [] with
  | .ok tiles =>
    let tr := bs.drop (h.tiles * slot)
    let at_ := h.tiles * slot
    if bytesAt tr 0 4 ≠ g then .format none fmtTrailer at_ false
    else if bytesAt tr 4 2 ≠ h.tiles then .format none fmtTrailer (at_ + 4) false
    else if bytesAt tr 6 2 ≠ b2n (g + 1 == h.groups) then .format none fmtTrailer (at_ + 6) false
    else if bytesAt tr 12 4 ≠ 0 then .format none fmtTrailer (at_ + 12) false
    else
      let c := crc32c tiles.flatten
      if c ≠ bytesAt tr 8 4 then .crc none c else .ok tiles
  | r => r
/-- The intent code of pixel (line offset `y` in the group, column `x`) of decoded tiles (R85). -/
def pixelOf (tiles : List (List Byte)) (y x : Nat) : Nat := ((tiles.getD (x / 32) []).getD (32 * y + x % 32) 0).toNat

/-- The value of the last state tag of a type at a line no greater than `n` (R105). -/
def tagInForce (type : Nat) (tags : List Tag) (n : Nat) : Option Nat :=
  ((tags.filter (fun t => t.type == type && decide (t.line ≤ n))).getLast?).map (·.value)

end Sys2Proof.Machine
end

