-- ==== Sys2Proof/Machine/Maps.lean ====
section
/-! DEFINITION. Sparse data by number: association lists with strictly rising keys, in one canonical form. -/

namespace Sys2Proof.Machine

/-- A sparse table keyed by number. -/
abbrev Table (α : Type) := List (Nat × α)

/-- The entry under key `k`, if any. -/
def tget? {α : Type} : Table α → Nat → Option α
  | [], _ => none
  | (j, v) :: r, k => if j = k then some v else tget? r k

/-- The entry under key `k`, `d` where none is listed. -/
def tget {α : Type} (d : α) (m : Table α) (k : Nat) : α := (tget? m k).getD d

/-- `m` with `v` under key `k`, at its place in the order of keys. -/
def tset {α : Type} : Table α → Nat → α → Table α
  | [], k, v => [(k, v)]
  | (j, w) :: r, k, v =>
    if k < j then (k, v) :: (j, w) :: r else if k = j then (k, v) :: r else (j, w) :: tset r k v

/-- `m` without key `k`. -/
def terase {α : Type} (m : Table α) (k : Nat) : Table α := m.filter (fun e => e.1 != k)

/-- `m` with the entry under `k` changed by `f`, `d` standing for an unlisted one. -/
def tmod {α : Type} (d : α) (m : Table α) (k : Nat) (f : α → α) : Table α := tset m k (f (tget d m k))

/-- The keys rise strictly: the canonical form. -/
def tsorted {α : Type} : Table α → Bool
  | [] => true
  | [_] => true
  | (j, _) :: (k, w) :: r => decide (j < k) && tsorted ((k, w) :: r)

end Sys2Proof.Machine
end

