-- ==== Sys2Proof/Machine/StateMove.lean ====
section
/-! DEFINITION. The state of the motion block beside its registers (R293 to R323, R556, R558): profiles, queues, switches. -/

namespace Sys2Proof.Machine

/-- A stretch of constant jerk: its length in ms and its jerk in pu/ms³ (R298). -/
structure Seg where
  dur : Rat
  jerk : Rat
  deriving DecidableEq, Repr

/-- A profile (R298, R556): the command at its start, its segments, and the velocity it keeps after the last of them. -/
structure Prof where
  x : Rat
  v : Rat
  a : Rat
  segs : List Seg
  /-- E at its start, in 2^-32 ns. -/
  start : Int
  /-- Motion-link frames since its start (R301). -/
  frames : Nat := 0
  /-- Where a move ends exactly; none for a change of speed. -/
  goal : Option Int := none
  deriving DecidableEq, Repr

/-- A queue entry (R299): a move to an absolute endpoint, or a homing with its latched record (R317). -/
structure QEntry where
  home : Bool
  cookie : Nat
  target : Int
  vmax : Nat
  amax : Nat
  jmax : Nat
  record : List Byte := []
  recIndex : Nat := 0
  deriving DecidableEq, Repr

/-- A supervised switch input (R312 to R314). -/
structure Switch where
  /-- What the fast comparator reads: the loop is closed. -/
  closed : Bool := false
  /-- The accepted state: active. -/
  active : Bool := false
  wireFault : Bool := false
  bad : Nat := 0
  good : Nat := 0
  /-- An episode is running: its edges, and E in whole ns at its first edge. -/
  edges : Nat := 0
  firstNs : Nat := 0
  deriving DecidableEq, Repr

/-- One axis. -/
structure Axis where
  queue : List QEntry := []
  prof : Option Prof := none
  /-- The first entry of the queue has started. -/
  running : Bool := false
  /-- The status the running entry will end with, once a stop has begun (R300). -/
  ending : Option Nat := none
  /-- RUN at hold current before the profile starts (R304). -/
  runHold : Bool := false
  /-- The standstill mode is in force (R303). -/
  rested : Bool := true
  /-- The step of R317 of a running homing, 0 for none, and the command at its start. -/
  homeStep : Nat := 0
  homeFrom : Int := 0
  homeFromPos : Int := 0
  /-- The step of a homing that starts once the axis rests, 0 for none. -/
  homeNext : Nat := 0
  /-- The latch step has its capture (R317 step 4). -/
  latched : Bool := false
  /-- The latch step's capture and its TT (R320). -/
  homeCap : Int := 0
  homeCapTt : Nat := 0
  /-- LIM_NEG 0, LIM_POS 1, HOME 2. -/
  sw : Table Switch := []
  linkStopped : Bool := false
  /-- The last retest of the link failed (R307, R323). -/
  linkBad : Bool := false
  /-- Step input: E in whole ns of the last two steps, the direction of the last, and whether it changed there (R197). -/
  stepPos : Int := 0
  stepNs : Nat := 0
  stepPrevNs : Nat := 0
  stepDir : Bool := false
  stepDirChanged : Bool := true
  /-- Steps in the present run of overruns, and their shortest period (R311). -/
  overrun : Nat := 0
  overrunMin : Nat := 0
  /-- The cause of the run's first step (R320). -/
  overrunCause : Nat := 0
  /-- The command in the last frame of a step-input axis (R303). -/
  frameCmd : Int := 0
  deriving DecidableEq, Repr

end Sys2Proof.Machine
end

