-- ==== Sys2Proof/Machine/StatePass.lean ====
section
/-! DEFINITION. The state of the dose path beside its registers: layers and passes (DPI, R84 to R126), the thermal engine
(R127 to R161), the beam split (R162 to R194), placement (R195 to R228), and the mend stage (R265 to R292). -/

namespace Sys2Proof.Machine

/-- The layer that LAYER_BEGIN opened (R109). -/
structure OpenLayer where
  number : Nat
  context : Nat
  thermal : Bool
  /-- Lines missed in the layer (R115). -/
  missed : Nat := 0
  /-- Causes 1 to 3 of EV_THE_SATURATE posted outside a pass in this layer (R158). -/
  satPosted : Nat := 0
  deriving DecidableEq, Repr

/-- Pairs owed on one line (R268, R275): a row, its blocks, the cause and the entry's flags. -/
structure Owed where
  row : Nat
  blocks : Nat
  cause : Nat
  flags : Nat := 0
  deriving DecidableEq, Repr

/-- A mend-log entry (R276). -/
structure MendEntry where
  seq : Nat
  layer : Nat
  first : Nat
  count : Nat
  pass : Nat
  dir : Nat
  cause : Nat
  blocks : Nat
  flags : Nat
  swath : Nat
  cookie : Nat
  cutEvent : Nat
  rows : Nat
  loggedTt : Nat := 0
  frames : Nat
  status : Nat := 0
  sealed : Bool := false
  deriving DecidableEq, Repr

/-- A block in a slate (R269 to R272): the owed groups with their causes and flags, the targets that refused it, and the row
that carries it. -/
structure SlateBlock where
  /-- Owed groups: (group, cause, flags). -/
  groups : List (Nat × Nat × Nat) := []
  hops : Nat := 0
  /-- The last group that held the block. -/
  last : Nat := 0
  carrier : Option Nat := none
  /-- Its make-up has failed: it stays owed until its line is logged (R271). -/
  dead : Bool := false
  /-- Owed from the start of a mend pass: every group may be its first target (R285). -/
  early : Bool := false
  deriving DecidableEq, Repr

/-- The prediction under which a frame was sent (R205, R208), and what was sent. -/
structure Sent where
  tick : Nat
  seq : Nat
  crc : Nat
  e0 : Rat
  e1 : Rat
  tLast : Int
  prof : Option Prof
  /-- E at the sending, in 2^-32 ns (R208). -/
  sentE : Int := 0
  deriving DecidableEq, Repr

/-- A REPLACE frame sent for a frame (R254, R274). -/
structure Replacement where
  seq : Nat
  crc : Nat
  codes : List Nat
  pre : List Nat
  doses : List Nat
  carried : List (Nat × Nat)
  deriving DecidableEq, Repr

/-- A row frame, from its build to its resolution (R248 to R257). -/
structure Frame where
  port : Nat
  slot : Nat
  row : Nat
  line : Nat
  event : Nat
  context : Nat
  preheat : Bool
  codes : List Nat
  pre : List Nat
  /-- D_b with the owed shares carried, per beamlet (R270). -/
  doses : List Nat
  /-- Blocks carried by make-up: (block, mask of groups). -/
  carried : List (Nat × Nat) := []
  /-- F of R203. -/
  fire : Int
  sent : Option Sent := none
  replace : Option Replacement := none
  recalled : Bool := false
  /-- A blank frame, sent after a cut: its pulses stand in the mend log (R28, R216, R475). -/
  blank : Bool := false
  deriving DecidableEq, Repr

/-- A run of late or blanked frames on a port (R215, R262). -/
structure FrameRun where
  kind : Nat
  row : Nat
  line : Nat
  count : Nat
  extra : Nat := 0
  blame : Nat := 0
  flags : Nat := 0
  deriving DecidableEq, Repr

/-- A group of a stream in host memory that stands in the staging area (R117): where its slots lie, its overflow entries with
where they lie, and the overflow offsets still to fetch. -/
structure Staged where
  group : Nat
  off : Nat
  len : Nat
  escapes : List (Nat × Nat) := []
  todo : List Nat := []
  deriving DecidableEq, Repr

/-- A SWATH or MEND_PASS that was accepted (R110, R111, R283), with its intake and its execution. -/
structure Pass where
  ring : Nat
  index : Nat
  cookie : Nat
  mend : Bool
  stream : Nat
  source : Nat
  dir : Nat
  number : Nat
  first : Nat
  count : Nat
  layer : Nat
  origin : Int
  stepover : Int
  scale : Nat
  swath : Nat
  context : Nat
  head : StreamHead
  /-- The contexts it holds in use (R112). -/
  contexts : List Nat
  entryFirst : Nat := 0
  entryLast : Nat := 0
  exclude : Nat := 0
  uncertain : Bool := false
  /-- Groups released, with their tiles, and groups that failed (R98, R99). -/
  released : Table (List (List Byte)) := []
  failed : List Nat := []
  /-- Groups in the staging area, the one fetched first in front (R117). -/
  staged : List Staged := []
  /-- Its execution has begun (R113). -/
  executing : Bool := false
  /-- Its profile has started, and its first line event has occurred. -/
  profileOn : Bool := false
  begun : Bool := false
  /-- The latest line event. -/
  lastEvent : Option Nat := none
  /-- Corrected doses of the lines in the dose window (R127, R147). -/
  window : Table (List Nat) := []
  /-- Lines that have entered the dose window (R127). -/
  entered : List Nat := []
  /-- Lines missed, and lines withheld by a THE residue fault. -/
  missed : List Nat := []
  residueLines : List Nat := []
  /-- The run of missed lines that has not ended: first line in pass order and count (R123). -/
  runFirst : Nat := 0
  runCount : Nat := 0
  leadLow : Bool := false
  /-- Line events whose frames have been built, and the frames not yet resolved. -/
  built : List Nat := []
  frames : List Frame := []
  /-- Frames resolved, by line; and lines whose last crossing has resolved. -/
  resolved : Table Nat := []
  doneLines : List Nat := []
  /-- Lines whose trailing row's crossing has resolved (R151). -/
  trailDone : List Nat := []
  /-- Lines in which a frame fired an owed share (R287), or any share. -/
  firedLines : List Nat := []
  /-- Lines of which at least one frame was sent (R114). -/
  sentLines : List Nat := []
  /-- The line event at which the pass was cut, with the cause (R278). -/
  cut : Option (Nat × Nat) := none
  /-- Pairs of row and line that a head hard limit logged beside its CUT entries (R278, R475). -/
  cutLogged : List (Nat × Nat) := []
  /-- No further frame of the pass is sent, blank ones included: its axes decelerate, or its last line event is over (R153, R216). -/
  sendOver : Bool := false
  /-- Its execution has been abandoned by an OP_SET_MODE(READY) (R24). -/
  abandoned : Bool := false
  /-- Frames of the pass were recalled under R214 (R216). -/
  tripped : Bool := false
  /-- Recalls in the pass (R503). -/
  recalls : Nat := 0
  /-- The status and reason with which it completes after a SKIP, an ABORT or a disable (R81, R83). -/
  ending : Option (Nat × Nat) := none
  /-- Mend: entries closed at the start and the owed pairs they gave (R284, R285); entries added, causes logged. -/
  closed : Nat := 0
  owedSet : List MendEntry := []
  added : Nat := 0
  causes : List Nat := []
  madeUp : Nat := 0
  replaced : Nat := 0
  carriedToLog : Nat := 0
  /-- THE: index per cell, cells withheld, Σ emitted dose × absorb per cell, causes posted, strips done (R144, R147, R150, R151). -/
  cellIdx : Table Nat := []
  cellBad : List Nat := []
  cellSum : Table Nat := []
  satPosted : Nat := 0
  stripsDone : List Nat := []
  /-- BSC: the pass carries preheat (R186), records ignored as (context, column), causes posted, residue faults (R190). -/
  preheat : Bool := false
  ignored : List (Nat × Nat) := []
  clampPosted : Nat := 0
  bscFaults : Nat := 0
  /-- PLC: reversals absorbed, the deepest and its line event (R201); runs of late frames by port (R215). -/
  reversals : Nat := 0
  deepest : Nat := 0
  deepestEvent : Nat := 0
  late : Table FrameRun := []
  /-- Slow ports whose rows are blanked for the rest of the swath (R222). -/
  blankPorts : List Nat := []
  /-- Rows of a line dropped before their frame was built: (row, line). -/
  dropped : List (Nat × Nat) := []
  /-- Bezel's duty block: Σ line sums, Σ dwell, line events in it (R489). -/
  dutySum : Nat := 0
  dutyDwell : Nat := 0
  dutyCount : Nat := 0
  deriving DecidableEq, Repr

/-- The geometry THE took at its last enable (R139). -/
structure TheGeom where
  base : Nat := 0
  u : Nat := 0
  v : Nat := 0
  originScan : Int := 0
  originStep : Int := 0
  stepPitch : Nat := 1
  deriving DecidableEq, Repr

/-- A response map in THE's queue (R154): the camera context, frame and settings generation, the capture's thermal time and
E in ns, its marks, and the cells of its rectangle as (u, v, response). -/
structure RespMap where
  context : Nat
  frame : Nat
  generation : Nat
  captureNs : Nat
  partialFrame : Bool
  u0 : Int
  v0 : Int
  cols : Nat
  cells : List (Option Nat)
  buffer : Nat
  deriving DecidableEq, Repr

/-- The thermal engine. -/
structure TheState where
  geom : TheGeom := {}
  /-- A slot fill is running: E in ns at its start (R138, R139). -/
  filling : Option Nat := none
  /-- An L2 reset has stopped the fill; it starts again after the release (R153). -/
  stopped : Bool := false
  queue : List RespMap := []
  deriving DecidableEq, Repr

/-- The beam split stage. -/
structure BscState where
  /-- The active geometry table; empty for none (R163). -/
  geometry : List Byte := []
  /-- Entries of the two banks that are not zero (R168, R170). -/
  bank0 : Table (BitVec 64) := []
  bank1 : Table (BitVec 64) := []
  /-- Setting contexts 1 to 127 that are loaded (R112, R142, R174). -/
  contexts : Table (List Byte) := []
  /-- Beam-table entries whose SRAM word read with an uncorrectable error, as (bank, entry), until they are rewritten; and
  contexts of which a word did, until they are reloaded (R373). -/
  badEntries : List (Nat × Nat) := []
  badContexts : List Nat := []
  /-- The latest reading that has not taken effect (R185): temperature in 1/16 °C, supply in mV. -/
  newT : Option Int := none
  newV : Option Int := none
  deriving DecidableEq, Repr

/-- Placement. -/
structure PlcState where
  /-- Edge samples, newest first: E in 2^-32 ns, and the position less the profile's in pu (R196, R205). -/
  edges : List (Int × Rat) := []
  e0 : Rat := 0
  e1 : Rat := 0
  tLast : Int := 0
  /-- Turnaround conditions (R218 step 5): dwell expired, AX1 settled, the conversions still
  outstanding, and the wait for the lead over. -/
  dwellDone : Bool := false
  settled : Bool := false
  convT : Bool := false
  convV : Bool := false
  waitOver : Bool := false
  /-- Scales and dwells by source 1 to 6 of R225. -/
  scales : Table Nat := []
  dwells : Table Nat := []
  /-- The scale last lowered within the pass (R221). -/
  passScale : Nat := 0x8000
  /-- The line rate at full scale and the added dwell with which the pass runs (R217, R221, R227). -/
  passRate : Rat := 0
  passDwell : Nat := 0
  /-- The pass, by its ring index, whose turnaround runs, and the one for which AX0 has been sent to its run-up start (R218). -/
  turnOf : Option Nat := none
  turnPass : Option Nat := none
  /-- After a trip: samples still needed before sending resumes (R214). -/
  needSamples : Nat := 0
  /-- AX0 and AX1 decelerate once every frame already sent has fired or been recalled (R216). -/
  decelPending : Bool := false
  /-- RUNOUT has begun, and AX0 keeps its speed until every frame already sent has fired or been recalled (R216, R218). -/
  runoutPending : Bool := false
  /-- A supply WARN or a host stop holds new swaths back (R33). -/
  noStart : Bool := false
  /-- Ports whose anchor is valid (R212), and the last anchor: TT and the tick of port 0. -/
  anchors : List Nat := []
  prevAnchor : Option (Nat × Nat) := none
  /-- The heartbeat of IDLE blocks, and E in ns when it last advanced (R252). -/
  heartbeat : Nat := 0
  beatNs : Nat := 0
  deriving DecidableEq, Repr

/-- The mend stage. -/
structure MndState where
  log : List MendEntry := []
  /-- Slates by 16 × line + stagger, then by block (R269). -/
  slates : Table (Table SlateBlock) := []
  /-- Pairs owed without make-up, by line. -/
  owed : Table (List Owed) := []
  /-- The overflow entry is in use (R280). -/
  overflow : Option Nat := none
  /-- The sequence of the pass's newest entry (R277). -/
  newest : Option Nat := none
  /-- What an interrupted pass leaves for the entries of R279. -/
  resetPass : Option Pass := none
  deriving DecidableEq, Repr

/-- What an outbound lane's transmitter keeps: its scrambler (R235), and the last line bit with the length of its run (R236). -/
structure LaneTx where
  lfsr : Nat := 0
  bit : Bool := false
  run : Nat := 0
  deriving DecidableEq, Repr

/-- What the receiver of a return lane keeps: bit lock (R239), header lock, valid headers in a row up to 64, and the validity of the last
64 headers, newest first (R237). -/
structure RxLane where
  bitLocked : Bool := false
  locked : Bool := false
  run : Nat := 0
  window : List Bool := []
  deriving DecidableEq, Repr

/-- The outbound side of a port (R238, R239): its lanes by logical ID, the index of the next stream block, stream blocks since the last
ALIGN, the sequence of the next ALIGN, TRAIN blocks left of a FAST_EXIT burst, and the line time that stands unused, in 1/8 line bit
over all lanes. -/
structure PortTx where
  lanes : Table LaneTx := []
  index : Nat := 0
  since : Nat := 0
  align : Nat := 0
  burst : Nat := 0
  credit : Int := 0
  deriving DecidableEq, Repr

/-- The record of a frame that has resolved (R258). -/
structure Resolved where
  row : Nat
  pass : Nat
  line : Nat
  fired : Bool
  timedOut : Bool
  crc : Nat
  tick : Nat
  /-- A REPLACE was sent for it (R254). -/
  replaced : Bool := false
  deriving DecidableEq, Repr

/-- One dose-link port (R229 to R264). -/
structure Port where
  /-- The tick counter in 1/256 tick (R210, R244). -/
  tick256 : Nat := 0
  /-- The module number that the port's training took (R430). -/
  module : Nat := 0
  /-- Lanes: physical outbound lanes terminated and in use, return lanes in use, inverted and mapped. -/
  lanesOut : Nat := 0
  lanesBack : Nat := 0
  /-- This side's and the partner's exit conditions hold for the present training state (R240). -/
  mineDone : Bool := false
  theirsDone : Bool := false
  /-- Correct TRAIN blocks in a row, by return lane (R239). -/
  trainRuns : Table Nat := []
  backInverted : Nat := 0
  backMap : Table Nat := []
  alignSeq : Table Nat := []
  /-- A training failed and the 10 ms wait runs; LINK_DOWN posted in this run; OPEN and SHORT posted (R239, R262). -/
  failed : Bool := false
  downPosted : Bool := false
  openPosted : List Nat := []
  /-- A fast retrain is running: its cause, E in ns at its start; and whether it has reached its CHECK (R246). -/
  retrain : Option (Nat × Nat) := none
  /-- Ack timeouts are deferred; the retrain has ended (R256). -/
  deferEnding : Bool := false
  /-- Tick exchange (R244): offsets measured in 1/32 tick, exchange number, T1 of the one under way, its kind, repeats. -/
  offsets : List Int := []
  flights : List Int := []
  exchange : Nat := 0
  t1 : Nat := 0
  kind : Nat := 0
  repeats : Nat := 0
  waiting : Bool := false
  /-- The version committed, until it is confirmed (R243); a TICK check waits for the end of a FAST_EXIT (R247). -/
  offered : Nat := 0
  checkDue : Bool := false
  frameSeq : Nat := 0
  recallSeq : Nat := 0
  /-- E in ns of the block_crc failures of the last ms, newest first (R246). -/
  crcFails : List Nat := []
  blankRun : Option FrameRun := none
  timeoutRun : Option FrameRun := none
  resolved : List Resolved := []
  /-- BEAM_ENABLE of this port is held inactive by a recall at JNL1 (R213). -/
  enableHeld : Bool := false
  /-- The forwarded clock was stopped under outstanding frames (R261). -/
  clockStopped : Bool := false
  /-- The outbound lanes, and the receivers of the return lanes by physical lane. -/
  tx : PortTx := {}
  rx : Table RxLane := []
  deriving DecidableEq, Repr

/-- The dose path. -/
structure DoseState where
  layer : Option OpenLayer := none
  /-- Accepted passes, oldest first: the one in execution and the one read ahead (R113). -/
  passes : List Pass := []
  /-- A LAYER_END waits for the boundary: ring and index (R115). -/
  boundary : Option (Nat × Nat) := none
  /-- The layer gap runs: from the completion of LAYER_END to the run-up of the next pass (R480). -/
  layerGap : Bool := false
  /-- Entries that expired at the boundary in progress (R115, R281). -/
  expired : Nat := 0
  /-- The boundary waits for the slot fill (R138). -/
  boundaryFill : Bool := false
  the : TheState := {}
  bsc : BscState := {}
  plc : PlcState := {}
  mnd : MndState := {}
  ports : Table Port := []
  deriving DecidableEq, Repr

end Sys2Proof.Machine
end

