-- ==== Sys2Proof/Machine/Lane.lean ====
section
/-! DEFINITION. The line code of a dose-link lane: blocks as line bits (R233), the scrambler (R235), bit stuffing (R236), and a
receiver's lock on headers (R237). -/

namespace Sys2Proof.Machine

/-- The 2-bit header in line order, left bit first: 01 for a data block, 10 for a control block (R233). -/
def headerBits (ctrl : Bool) : List Bool := [ctrl, !ctrl]
/-- Bytes in line order, each from bit 0 to bit 7 (R233). -/
def lineOf (bs : List Byte) : List Bool := bs.flatMap (fun b => (List.range 8).map (fun i => b.getLsbD i))
/-- The bytes of bits in line order. -/
def bytesOf (n : Nat) (l : List Bool) : List Byte :=
  (List.range n).map (fun k => BitVec.ofNat 8 ((List.range 8).foldl (fun v i => v + 2 ^ i * b2n (l.getD (8 * k + i) false)) 0))

/-- The seed of a lane's scrambler: `dir` is 0 outbound and 1 on the return lanes (R235). -/
def seedOf (dir lane : Nat) : Nat := 0x7FFFFF00 ||| (dir * 16 ||| lane)
/-- One scrambled bit (R235): taps x^31 and x^28, bit 0 newest.  Descrambling is the same. -/
def scrambleBit (lfsr : Nat) (d : Bool) : Nat × Bool :=
  let k := lfsr.testBit 30 != lfsr.testBit 27
  ((2 * lfsr + b2n k) % 2 ^ 31, d != k)
/-- Payload bits through the scrambler (R235). -/
def scramble : Nat → List Bool → Nat × List Bool
  | x, [] => (x, [])
  | x, d :: r =>
    let y := scrambleBit x d
    let z := scramble y.1 r
    (z.1, y.2 :: z.2)

/-- Bit stuffing (R236): `b` is the last line bit and `n` the length of its run.  After 40 equal bits the opposite one is inserted,
which begins a new run. -/
def stuff : (b : Bool) → (n : Nat) → List Bool → List Bool × (Bool × Nat)
  | b, n, [] => ([], (b, n))
  | b, n, d :: r =>
    let m := if d = b then n + 1 else 1
    if m ≥ 40 then (let z := stuff (!d) 1 r; (d :: (!d) :: z.1, z.2))
    else (let z := stuff d m r; (d :: z.1, z.2))
/-- The receiver takes the inserted bits out (R236); `errs` counts those that equal the 40 bits before them. -/
def unstuff : (b : Bool) → (n : Nat) → List Bool → List Bool × Nat
  | _, _, [] => ([], 0)
  | b, n, d :: r =>
    if n ≥ 40 then (let z := unstuff d 1 r; (z.1, z.2 + b2n (d == b)))
    else
      let z := unstuff d (if d = b then n + 1 else 1) r
      (d :: z.1, z.2)

/-- One block on a lane: its line bits, and the lane after them (R233, R235, R236). -/
def laneBlock (scr ctrl : Bool) (payload : List Byte) (l : LaneTx) : List Bool × LaneTx :=
  let p := if scr then scramble l.lfsr (lineOf payload) else (l.lfsr, lineOf payload)
  let z := stuff l.bit l.run (headerBits ctrl ++ p.2)
  (z.1, { lfsr := p.1, bit := z.2.1, run := z.2.2 })
/-- The receiver of one block's line bits, in step with its sender: the header, the 256 payload bits, and the stuffing errors (R233 to
R236). -/
def takeLine (scr : Bool) (l : LaneTx) (line : List Bool) : List Bool × List Bool × Nat :=
  let z := unstuff l.bit l.run line
  let p := (z.1.drop 2).take 256
  (z.1.take 2, if scr then (scramble l.lfsr p).2 else p, z.2)

/-- `n` valid headers in a row arrive: 64 gain lock (R237). -/
def goodHeaders (n : Nat) (l : RxLane) : RxLane :=
  let run := min 64 (l.run + n)
  { l with run, locked := l.locked || run == 64, window := (List.replicate (min n 64) true ++ l.window).take 64 }
/-- An invalid header arrives: 16 of the last 64 lose lock (R237). -/
def badHeader (l : RxLane) : RxLane :=
  let w := (false :: l.window).take 64
  { l with run := 0, window := w, locked := l.locked && decide ((w.filter (!·)).length < 16) }

end Sys2Proof.Machine
end

