-- ==== Sys2Proof/Machine/BeamMath.lean ====
section
/-! DEFINITION. Head geometry tables (R163, R164), setting contexts (R142, R174), the column split (R176 to R180), the pulse
width chain (R182) and the preheat code (R187): arithmetic on bytes and numbers, without state. -/

namespace Sys2Proof.Machine

/-- A row entry of the head geometry table (R163). -/
structure RowEntry where
  port : Nat
  slot : Nat
  stagger : Nat
  group : Nat
  lineOffset : Nat
  fine : Int
  deriving DecidableEq, Repr

/-- A head geometry table (R163). -/
structure Geometry where
  rowCount : Nat
  stagger : Nat
  groupCount : Nat
  beamlets : Nat
  columns : Nat
  portMask : Nat
  flags : Nat
  headId : Nat
  rows : List RowEntry
  vernier : List Int
  deriving DecidableEq, Repr

/-- The row entry at byte 64 + 16r. -/
def rowEntryOf (bs : List Byte) (r : Nat) : RowEntry :=
  let o := 64 + 16 * r
  { port := bytesAt bs o 1, slot := bytesAt bs (o + 1) 1, stagger := bytesAt bs (o + 2) 1, group := bytesAt bs (o + 3) 1,
    lineOffset := bytesAt bs (o + 4) 2, fine := sext 16 (bytesAt bs (o + 6) 2) }
/-- The geometry table in 2,240 bytes (R163). -/
def geometryOf (bs : List Byte) : Geometry :=
  let r := bytesAt bs 5 1
  let g := bytesAt bs 7 1
  { rowCount := r, stagger := bytesAt bs 6 1, groupCount := g, beamlets := bytesAt bs 8 2, columns := bytesAt bs 10 2,
    portMask := bytesAt bs 12 1, flags := bytesAt bs 13 1, headId := bytesAt bs 16 16,
    rows := (List.range r).map (rowEntryOf bs), vernier := (List.range g).map (fun k => sext 32 (bytesAt bs (2112 + 8 * k) 4)) }
/-- All bytes of a range are 0. -/
def zeroBytes (bs : List Byte) (off len : Nat) : Bool := ((bs.drop off).take len).all (· == 0)
/-- No two elements of a list are equal. -/
def allDistinct : List Nat → Bool
  | [] => true
  | a :: r => !r.contains a && allDistinct r
/-- A list rises strictly. -/
def rising : List Nat → Bool
  | a :: b :: r => decide (a < b) && rising (b :: r)
  | _ => true
/-- The limits of R164 on a geometry table. -/
def geometryOk (bs : List Byte) : Bool :=
  let g := geometryOf bs
  let idx := List.range g.rowCount
  bs.length == 2240 && bytesAt bs 0 4 == 0x4F454748 && bytesAt bs 4 1 == 1 && bytesAt bs 12 1 < 16 && bytesAt bs 13 1 < 2 &&
  zeroBytes bs 14 2 && zeroBytes bs 32 32 &&
  idx.all (fun r => zeroBytes bs (64 + 16 * r + 8) 8) && (List.range g.groupCount).all (fun k => zeroBytes bs (2112 + 8 * k + 4) 4) &&
  zeroBytes bs (64 + 16 * g.rowCount) (16 * (128 - g.rowCount)) &&
  zeroBytes bs (2112 + 8 * g.groupCount) (8 * (16 - g.groupCount)) &&
  decide (1 ≤ g.rowCount) && decide (g.rowCount ≤ 128) && decide (1 ≤ g.stagger) && decide (g.stagger ≤ 16) &&
  decide (1 ≤ g.groupCount) && decide (g.groupCount ≤ 16) && g.beamlets % 256 == 0 && decide (256 ≤ g.beamlets) &&
  decide (g.beamlets ≤ 2048) && decide (g.columns ≤ 16384) && g.rowCount == g.groupCount * g.stagger &&
  g.columns == g.beamlets * g.stagger &&
  g.rows.all (fun e => decide (e.port < 4) && bit e.port g.portMask && decide (e.slot < 32)) &&
  allDistinct (g.rows.map (fun e => 32 * e.port + e.slot)) &&
  g.rows.all (fun e => decide (e.group < g.groupCount) && decide (e.stagger < g.stagger)) &&
  allDistinct (g.rows.map (fun e => 16 * e.group + e.stagger)) &&
  (match g.rows with | [] => false | e :: _ => e.lineOffset == 0) && rising (g.rows.map (·.lineOffset)) &&
  g.rows.all (fun e => decide (e.lineOffset ≤ 2047))

/-- The default row of a table that has none at an index. -/
def noRow : RowEntry := { port := 0, slot := 0, stagger := 0, group := 0, lineOffset := 0, fine := 0 }
/-- Row entry r. -/
def rowAt (g : Geometry) (r : Nat) : RowEntry := g.rows.getD r noRow
/-- The row of group k with stagger st (R166). -/
def rowOfCross (g : Geometry) (k st : Nat) : Nat := (g.rows.findIdx (fun e => e.group == k && e.stagger == st))
/-- The column that beamlet b of row r crosses (R166). -/
def crossCol (g : Geometry) (r b : Nat) : Nat := g.stagger * b + (rowAt g r).stagger
/-- The beam-table entry number of beamlet b of row r (R168). -/
def entryNo (r b : Nat) : Nat := 2048 * r + b
/-- The entry of the crossing of column c in group k (R166, R168). -/
def crossEntry (g : Geometry) (c k : Nat) : Nat := entryNo (rowOfCross g k (c % g.stagger)) (c / g.stagger)

/-- Fields of a beam-table entry (R168). -/
def beGain (e : Nat) : Nat := bits 0 16 e
def beOffset (e : Nat) : Int := sext 12 (bits 16 12 e)
def beStatus (e : Nat) : Nat := bits 28 4 e
def beMaxWidth (e : Nat) : Nat := bits 32 12 e
def beGroup (e : Nat) : Nat := bits 44 6 e
/-- The entry has a reserved status or a reserved bit set (R171). -/
def beBad (e : Nat) : Bool := decide (beStatus e > 3) || bits 50 14 e != 0
/-- LIVE, and fires: LIVE or WEAK (R169). -/
def beLive (e : Nat) : Bool := beStatus e == 1
def beFires (e : Nat) : Bool := beStatus e == 1 || beStatus e == 2

/-- Fields of a setting context (R142, R174). -/
def cxIntent (x : List Byte) (code : Nat) : Nat := bytesAt x (2 * code) 2
def cxCorr (x : List Byte) (i : Nat) : Nat := bytesAt x (0x200 + 2 * i) 2
def cxKernel (x : List Byte) (i : Nat) : Int := sext 16 (bytesAt x (0xA00 + 2 * i) 2)
def cxWeight (x : List Byte) (j : Nat) : Int := sext 16 (bytesAt x (0xA32 + 2 * j) 2)
def cxAbsorb (x : List Byte) : Nat := bytesAt x 0xA42 2
def cxOffset (x : List Byte) : Int := sext 16 (bytesAt x 0xA44 2)
def cxKshift (x : List Byte) : Nat := bytesAt x 0xA46 1
def cxMaxWidth (x : List Byte) : Nat := bytesAt x 0xA80 2 % 4096
def cxPhShift (x : List Byte) : Nat := bytesAt x 0xA82 1
def cxPreheatOn (x : List Byte) : Bool := bit 0 (bytesAt x 0xA83 1)
def cxSplitCount (x : List Byte) : Nat := bytesAt x 0xA84 2
def cxFeatherL (x : List Byte) : Nat := bytesAt x 0xA86 2
def cxFeatherR (x : List Byte) : Nat := bytesAt x 0xA88 2
def cxPreheat (x : List Byte) (i : Nat) : Nat := bytesAt x (0xAC0 + i) 1
def cxCurve (x : List Byte) (i : Nat) : Nat := bytesAt x (0xBC0 + 2 * i) 2
/-- Column and share of a split record (R177). -/
def cxRecCol (x : List Byte) (i : Nat) : Nat := bytesAt x (0xC40 + 36 * i) 2
def cxRecShare (x : List Byte) (i k : Nat) : Nat := bytesAt x (0xC40 + 36 * i + 4 + 2 * k) 2
/-- The same feather: F_L, F_R and curve (R181). -/
def sameFeather (x y : List Byte) : Bool :=
  cxFeatherL x == cxFeatherL y && cxFeatherR x == cxFeatherR y && (x.drop 0xBC0).take 128 == (y.drop 0xBC0).take 128
/-- The column weight W(c) of R176, over `cols` columns. -/
def columnWeight (x : List Byte) (cols c : Nat) : Nat :=
  let fl := cxFeatherL x
  let fr := cxFeatherR x
  if c < fl then cxCurve x (64 * c / fl)
  else if c ≥ cols - fr then 4096 - cxCurve x (64 * (c - (cols - fr)) / fr)
  else 4096
/-- A context is valid for THE (R143). -/
def cxThermalOk (thermal : Bool) (x : List Byte) : Bool :=
  if thermal then decide (x.length ≥ 2688) && decide (cxKshift x ≤ 31) && zeroBytes x 0xA47 57
  else decide (x.length ≥ 512)
/-- The split records of a context are valid (R177). -/
def cxRecordsOk (g : Geometry) (x : List Byte) : Bool :=
  let idx := List.range (cxSplitCount x)
  rising (idx.map (cxRecCol x)) &&
  idx.all (fun i => decide (cxRecCol x i < g.columns) && bytesAt x (0xC40 + 36 * i + 2) 2 == 0 &&
    (List.range 16).all (fun k => decide (k < g.groupCount) || cxRecShare x i k == 0) &&
    (List.range 16).all (fun k => decide (cxRecShare x i k ≤ 4096)) &&
    (List.range 16).foldl (fun a k => a + cxRecShare x i k) 0 == columnWeight x g.columns (cxRecCol x i))
/-- A context is valid for BSC against the active geometry (R175). -/
def cxBscOk (g : Geometry) (x : List Byte) : Bool :=
  let n := cxSplitCount x
  decide (n ≤ 140) && decide (x.length ≥ 0xC40 + 36 * n) && bytesAt x 0xA80 2 < 4096 && bytesAt x 0xA83 1 < 2 &&
  zeroBytes x 0xA8A 54 && zeroBytes x 0x1FF0 16 && decide (cxPhShift x ≤ 15) && decide (cxFeatherL x ≤ 4096) &&
  decide (cxFeatherR x ≤ 4096) && decide (cxFeatherL x + cxFeatherR x ≤ g.columns) &&
  (List.range 64).all (fun i => decide (cxCurve x i ≤ 4096) && (i == 0 || decide (cxCurve x (i - 1) ≤ cxCurve x i))) &&
  cxRecordsOk g x

/-- The record of a context for column c (R177). -/
def recordOf (x : List Byte) (c : Nat) : Option Nat := (List.range (cxSplitCount x)).find? (fun i => cxRecCol x i == c)
/-- A record gives no share to a beamlet that does not fire (R179). -/
def recordUsable (g : Geometry) (bank : Nat → Nat) (x : List Byte) (i : Nat) : Bool :=
  (List.range g.groupCount).all (fun k => cxRecShare x i k == 0 || beFires (bank (crossEntry g (cxRecCol x i) k)))
/-- n(c): LIVE beamlets that cross column c (R173). -/
def liveCount (g : Geometry) (bank : Nat → Nat) (c : Nat) : Nat :=
  ((List.range g.groupCount).filter (fun k => beLive (bank (crossEntry g c k)))).length
/-- The rank of group k's beamlet among the LIVE ones of column c (R173). -/
def liveRank (g : Geometry) (bank : Nat → Nat) (c k : Nat) : Nat :=
  ((List.range k).filter (fun j => beLive (bank (crossEntry g c j)))).length
/-- The default split (R178). -/
def defaultShare (w n rank : Nat) : Nat := let q := w / n; if rank < w - n * q then q + 1 else q
/-- The share of group k's beamlet on column c (R177 to R179), under the context in force `x` and the feather of `feather`
(R181); `ign` holds the columns whose record the pass ignores. -/
def shareOf (g : Geometry) (bank : Nat → Nat) (ign : List Nat) (x feather : List Byte) (c k : Nat) : Nat :=
  let dflt :=
    let n := liveCount g bank c
    if n = 0 ∨ !beLive (bank (crossEntry g c k)) then 0
    else defaultShare (columnWeight feather g.columns c) n (liveRank g bank c k)
  match recordOf x c with
  | some i => if ign.contains c then dflt else cxRecShare x i k
  | none => dflt
/-- No beamlet doses the column: neither a usable record nor a LIVE beamlet (R179). -/
def columnDead (g : Geometry) (bank : Nat → Nat) (ign : List Nat) (x : List Byte) (c : Nat) : Bool :=
  liveCount g bank c == 0 && ((recordOf x c).isNone || ign.contains c)

/-- The limits and factors of one pulse (R182). -/
structure WidthIn where
  kT : Nat
  kV : Nat
  ctxMax : Nat
  bezelMax : Nat
  dwell : Nat
  guard : Nat
  minWidth : Nat
  deriving DecidableEq, Repr

/-- A clamp that acted: its cause, the width before and after. -/
structure ClampHit where
  cause : Nat
  before : Nat
  after : Nat
  deriving DecidableEq, Repr

/-- One clamp of the chain: the width, and what it did. -/
def clampStep (cause limit : Nat) (a : Nat × List ClampHit) : Nat × List ClampHit :=
  if limit < a.1 then (limit, a.2 ++ [{ cause, before := a.1, after := limit }]) else a
/-- The pulse code of a beamlet with dose `db` > 0 and its table entry, and the clamps that acted, in order (R182, R183). -/
def pulseCode (p : WidthIn) (e db : Nat) : Nat × List ClampHit :=
  let w := (clampI 0 4095 (((db * beGain e / 2 ^ 12 : Nat) : Int) + beOffset e)).toNat
  let w1 := w * p.kT * p.kV / 2 ^ 28
  let a := clampStep 4 (p.dwell - p.guard) (clampStep 3 p.bezelMax (clampStep 2 p.ctxMax (clampStep 1 (beMaxWidth e) (w1, []))))
  if a.1 < p.minWidth then (0, a.2 ++ [{ cause := 5, before := a.1, after := 0 }]) else a
/-- The preheat code of a beamlet that fires (R187). -/
def preheatCode (x : List Byte) (d code dwell guard : Nat) : Nat :=
  let p := cxPreheat x (min 255 (d / 2 ^ cxPhShift x))
  let room := dwell - guard
  if 2 * p + code > room then (room - code) / 2 else p
/-- res(x) of R188: x mod 15, 0 to 14, for signed values as well. -/
def res15 (x : Int) : Nat := (x % 15).toNat
/-- BSC's check of a product `p` of `a` and `b` (R188). -/
def mulCheck (a b p : Int) : Bool := res15 p == res15 a * res15 b % 15
/-- BSC's check of a shift of `p` by `k` bits, with the result `q` and the bits `low` shifted out (R188). -/
def shiftCheck (p : Int) (k : Nat) (q low : Int) : Bool := res15 p == (res15 q * res15 (2 ^ k) + res15 low) % 15
/-- BSC's check of a sum `c` of `a` and `b` (R188). -/
def addCheck (a b c : Int) : Bool := res15 c == (res15 a + res15 b) % 15
/-- The index of a factor table (R184), before its clamp. -/
def factorIndex (reading base : Int) (shift : Nat) : Int := sar (reading - base) shift

/-- The intent dose of a pixel (R105). -/
def intentDose (x : List Byte) (code scale : Nat) : Nat := min 65535 (cxIntent x code * scale / 2 ^ 14)
/-- The corrected dose of a pixel before its last clamp (R147). -/
def correctedRaw (x : List Byte) (dq idx : Nat) : Int := ((min 65535 (dq * cxCorr x idx / 2 ^ 14) : Nat) : Int) + cxOffset x
/-- Decay of a state (R145) with the table `table` and index step 2^shift ns. -/
def decayIndex (el : Int) (shift : Nat) : Nat := if el ≤ 0 then 0 else min 255 (el.toNat / 2 ^ (shift - 20))
def decayState (table : Nat → Nat) (e : Nat) (el : Int) (shift : Nat) : Nat := e * table (decayIndex el shift) / 2 ^ 16

end Sys2Proof.Machine
end

