-- ==== Sys2Proof/Config.lean ====
section
/-! DEFINITION. What the spec leaves to the implementation or to something outside it: constants without a body, so that
no proof can rest on a value. -/

namespace Sys2Proof.Config

/-- A fresh free value: `freeNat n` is the n-th value the spec leaves open (log entry 3). -/
opaque freeNat : Nat → Nat
/-- What a byte of DRAM or SRAM that nothing has written is read as, where the data is used at all (log entry 4). -/
opaque freeByte : Nat → Byte
/-- A range of `len` bytes from `addr` in a space (0 DRAM, 1 SRAM) lies in the window of an internal queue (R392); where the
windows lie the spec does not say (log entry 34). -/
opaque inQueueWindow : (queue space addr len : Nat) → Bool
/-- SHA-384 of a byte string: the algorithm is named by the spec (R499) and given elsewhere (log entry 5). -/
opaque sha384 : List Byte → BitVec 384
/-- ECDSA P-384 verification of (r, s) over a hash with a public key, as the spec names it (R499, R508; log entry 5). -/
opaque ecdsaP384 : (key : List Byte) → (hash : BitVec 384) → (sig : List Byte) → Bool
/-- ECDSA P-256 verification, as the spec names it for the head chip (R512; log entry 5). -/
opaque ecdsaP256 : (key : List Byte) → (msg : List Byte) → (sig : List Byte) → Bool

end Sys2Proof.Config
end

