-- ==== Sys2Proof/Machine/Outputs.lean ====
section
/-! DEFINITION. What leaves the module and is seen outside it: host-memory writes (R43, R55, R57, R58), MSI-X messages,
register read data, link blocks, motion-link frames, camera and time outputs, and the machine's output pins. The newest
stands first in the list that State holds. -/

namespace Sys2Proof.Machine

/-- The output groups that a fuse-mapped reset state holds (R460). -/
inductive PinGroup where
  | beamEnable | relay | ready | beamActive | fault | pps | motionEnable | motionLink | generalOut | trigger
  deriving DecidableEq, Repr

/-- How an output is held: its inactive (low, open, off) state, high impedance, or its active (on) state. -/
inductive Drive where
  | inactive | highZ | active
  deriving DecidableEq, Repr

/-- One thing the module sent or wrote. -/
inductive Out where
  /-- A 32-byte completion entry of a ring, at a bus address (R57). -/
  | completion (ring addr : Nat) (entry : Entry)
  /-- A 32-byte event entry in an EVENT ring, at a bus address (R58). -/
  | event (ring addr : Nat) (entry : Entry)
  /-- A 32-byte status-block entry (R55). -/
  | status (ring addr : Nat) (entry : Entry)
  /-- An MSI-X message of a vector (R551). -/
  | msix (vector : Nat)
  /-- A read of a translation-table entry at a bus address (R77). -/
  | tableRead (addr : Nat)
  /-- Payload read from host memory at a bus address, within one page (R67, R77). -/
  | hostRead (addr len : Nat)
  /-- Payload written to host memory at a bus address, within one page (R67, R77). -/
  | hostWrite (addr : Nat) (data : List Byte)
  /-- The value a BAR0 read returned (R10, R12). -/
  | readData (addr : Nat) (value : Nat)
  /-- The completion of an aperture read (R48): data, poisoned or not, or Unsupported Request. -/
  | apertureData (data : List Byte) (poisoned : Bool)
  | apertureUR
  /-- A row frame sent on a port (R248): row, pass, line, fire tick, sequence number, replace flag, codes. -/
  | rowFrame (port row pass line tick seq : Nat) (replace : Bool) (codes : List Nat)
  /-- The payload of a block that a port sends in its stream, by its type, 0 for a data block (R234, R250). -/
  | linkBlock (port kind : Nat) (payload : Nat)
  /-- The line bits of one block on a physical outbound lane, in line order, inserted bits included (R233, R235, R236). -/
  | laneBits (port lane : Nat) (line : List Bool)
  /-- A frame on a motion link (R301), 64 bits. -/
  | motionFrame (axis : Nat) (frame : Nat)
  /-- A UPLOAD record handed to a stream (R69). -/
  | upload (stream : Nat) (data : List Byte)
  /-- A trigger pulse begun on a trigger output (R330), or its end, and the level that the output takes with its polarity. -/
  | triggerPulse (output : Nat) (start level : Bool)
  /-- A camera control-bus transaction (R326): position, bus mode, address, read, width of the register address, register, bytes to
  read or write, data. -/
  | busTransaction (position mode addr : Nat) (read : Bool) (regWidth reg len : Nat) (data : List Byte)
  /-- A PTP message sent on a port (R422): type, sequence id, origin time in ns. -/
  | ptpMessage (port kind seq : Nat) (originNs : Nat) (correction : Int)
  /-- A message or a reading handed to the firmware: its kind and two values. -/
  | firmware (kind a b : Nat)
  /-- The PPS output went active or inactive, and the level that it takes with its polarity (R425). -/
  | ppsOutput (active level : Bool)
  /-- A challenge sent to the head chip or to the debug host (R508, R512). -/
  | challenge (purpose : Nat) (value : Nat)
  /-- A usage update written to the head chip (R515). -/
  | usageWrite (groups : List (Nat × Nat)) (seq : Nat)
  /-- An E-stop test pulse (R533). -/
  | estopTestPulse
  /-- A pin takes its reset state (R449, R460). -/
  | pinReset (group : PinGroup) (index : Nat) (drive : Drive)
  deriving DecidableEq, Repr

end Sys2Proof.Machine
end

