-- ==== Sys2Proof/Machine/RegInfo.lean ====
section
/-! DEFINITION. What a register row of the spec says of a register: access types (R10) and reset levels (R13). -/

namespace Sys2Proof.Machine

/-- Access types of a register (R10). -/
inductive Access where
  | ro | rw | w1c | w1s | wo | rc | rwl | rwh
  deriving DecidableEq, Repr

/-- Reset levels (R13), with the backup domain as the level that no reset reaches. -/
inductive Level where
  | l0 | l1 | l2 | backup
  deriving DecidableEq, Repr

/-- One register row: `count` instances from `base`, `stride` bytes apart. -/
structure RegInfo where
  base : Nat
  stride : Nat := 0
  count : Nat := 1
  bytes : Nat := 4
  access : Access := .ro
  /-- The access from the firmware port where the row gives it one of its own (R485). -/
  fwAccess : Option Access := none
  reset : Nat := 0
  level : Level := .l1
  /-- Bits that a write can set (R11). -/
  mask : Nat := 0xFFFFFFFFFFFFFFFF
  /-- Bits that a write can only set, whatever the register's access (R10, W1S fields). -/
  w1s : Nat := 0
  /-- Fields (offset, width, smallest, largest) whose out-of-range values are clamped. -/
  clamp : List (Nat × Nat × Nat × Nat) := []
  deriving DecidableEq, Repr

end Sys2Proof.Machine
end

