-- ==== Sys2Proof/Machine/RegMap.lean ====
section
/-! DEFINITION. The register map of BAR0: one definition per register row of the spec's register tables (R34, R51, R125,
R160, R192, R227, R263, R291, R322, R350, R386 to R388, R408 to R410, R433, R463 to R465, R484, R519 to R523, R540, R546,
R552), with its address, spacing, width, access type (R10), reset value and reset level (R13).  `mask` holds the bits a
write can set (R11), `w1s` the bits that are set-only, `clamp` the fields whose out-of-range values the table clamps. -/

namespace Sys2Proof.Machine.R

/-! ### CTL -/

/-- R34. -/
def CTL_MODE : RegInfo := { base := 0x1B0100, reset := 0x80030002 }
/-- R34. -/
def CTL_HOLD_CAUSE : RegInfo := { base := 0x1B0104, access := .w1c }
/-- R34. -/
def CTL_MODE_TT : RegInfo := { base := 0x1B0108, bytes := 8 }
/-- R520. -/
def CTL_LOADER : RegInfo := { base := 0x1B0000 }
/-- R520. -/
def CTL_FW_VERSION : RegInfo := { base := 0x1B0004 }
/-- R520. -/
def CTL_FW_ROLLBACK : RegInfo := { base := 0x1B0008 }
/-- R520. -/
def CTL_ROLLBACK_COMMIT : RegInfo := { base := 0x1B000C, access := .wo, mask := 0xFF }
/-- R520. -/
def CTL_BRINGUP_DONE : RegInfo := { base := 0x1B0010, fwAccess := some .w1s, mask := 0x1 }
/-- R520. -/
def CTL_HOLD_REQ : RegInfo := { base := 0x1B0014, fwAccess := some .wo, mask := 0x1 }

/-- The registers of block CTL. -/
def allCtl : List RegInfo :=
  [CTL_MODE, CTL_HOLD_CAUSE, CTL_MODE_TT, CTL_LOADER, CTL_FW_VERSION, CTL_FW_ROLLBACK, CTL_ROLLBACK_COMMIT,
   CTL_BRINGUP_DONE, CTL_HOLD_REQ]

/-! ### HIF -/

/-- R51. -/
def HIF_STATUS : RegInfo := { base := 0x10000 }
/-- R51. -/
def HIF_POLL_INTERVAL : RegInfo := { base := 0x10008, access := .rw, reset := 0x7D0, clamp := [(0, 32, 250, 1000000)] }
/-- R51. -/
def HIF_NUDGE : RegInfo := { base := 0x1000C, access := .wo }
/-- R51. -/
def HIF_STATUS_BASE : RegInfo := { base := 0x10010, bytes := 8, access := .rw }
/-- R51. -/
def HIF_APERTURE_BASE : RegInfo := { base := 0x10018, bytes := 8, access := .rw }
/-- R51. -/
def HIF_TLB_INVAL : RegInfo := { base := 0x10020, access := .rw, mask := 0x8000003F, w1s := 0x80000000 }
/-- R51. -/
def HIF_TLB_INVAL_ADDR : RegInfo := { base := 0x10028, bytes := 8, access := .rw }
/-- R51. -/
def HIF_EVT_DROP : RegInfo := { base := 0x10030, access := .rc }
/-- R51. -/
def HIF_AS_ROOT : RegInfo := { base := 0x10100, stride := 0x10, count := 16, bytes := 8, access := .rw }
/-- R51. -/
def HIF_AS_CFG : RegInfo := { base := 0x10108, stride := 0x10, count := 16, access := .rw, mask := 0x3 }
/-- R51. -/
def HIF_RING_CFG : RegInfo := { base := 0x11000, stride := 0x40, count := 32, access := .rwh, mask := 0x3FF1F7 }
/-- R51. -/
def HIF_RING_PRIO : RegInfo := { base := 0x11004, stride := 0x40, count := 32, access := .rw, mask := 0x7 }
/-- R51. -/
def HIF_RING_BASE : RegInfo := { base := 0x11008, stride := 0x40, count := 32, bytes := 8, access := .rwh }
/-- R51. -/
def HIF_RING_CPL_BASE : RegInfo := { base := 0x11010, stride := 0x40, count := 32, bytes := 8, access := .rwh }
/-- R51. -/
def HIF_RING_DB_ADDR : RegInfo := { base := 0x11018, stride := 0x40, count := 32, bytes := 8, access := .rwh }
/-- R51. -/
def HIF_RING_CTRL : RegInfo := { base := 0x11020, stride := 0x40, count := 32, access := .wo, mask := 0x3F }
/-- R51. -/
def HIF_RING_STATE : RegInfo := { base := 0x11024, stride := 0x40, count := 32 }
/-- R51. -/
def HIF_RING_CONS : RegInfo := { base := 0x11028, stride := 0x40, count := 32 }
/-- R51. -/
def HIF_RING_FAULT_ADDR : RegInfo := { base := 0x11030, stride := 0x40, count := 32, bytes := 8 }

/-- The registers of block HIF. -/
def allHif : List RegInfo :=
  [HIF_STATUS, HIF_POLL_INTERVAL, HIF_NUDGE, HIF_STATUS_BASE, HIF_APERTURE_BASE, HIF_TLB_INVAL,
   HIF_TLB_INVAL_ADDR, HIF_EVT_DROP, HIF_AS_ROOT, HIF_AS_CFG, HIF_RING_CFG, HIF_RING_PRIO, HIF_RING_BASE,
   HIF_RING_CPL_BASE, HIF_RING_DB_ADDR, HIF_RING_CTRL, HIF_RING_STATE, HIF_RING_CONS, HIF_RING_FAULT_ADDR]

/-! ### DPI -/

/-- R125. -/
def DPI_STATUS : RegInfo := { base := 0x100000, level := .l2 }
/-- R125. -/
def DPI_LEAD_MIN : RegInfo := { base := 0x100004, access := .rw, reset := 0x1000, level := .l2, clamp := [(0, 32, 256, 16384)] }
/-- R125. -/
def DPI_MISS_HOLD : RegInfo := { base := 0x100008, access := .rw, reset := 0x40, level := .l2 }
/-- R125. -/
def DPI_START_WAIT : RegInfo := { base := 0x10000C, access := .rw, reset := 0x186A0, level := .l2 }
/-- R125. -/
def DPI_LEAD : RegInfo := { base := 0x100010, level := .l2 }
/-- R125. -/
def DPI_LINE : RegInfo := { base := 0x100014, level := .l2 }
/-- R125. -/
def DPI_MISS_COUNT : RegInfo := { base := 0x100018, level := .l2 }
/-- R125. -/
def DPI_TAG_APPLIED : RegInfo := { base := 0x10001C, level := .l2 }
/-- R125. -/
def DPI_STAGE_BASE : RegInfo := { base := 0x100020, bytes := 8, access := .rwh }
/-- R125. -/
def DPI_STAGE_SIZE : RegInfo := { base := 0x100028, access := .rwh, reset := 0x8000000 }
/-- R125. -/
def DPI_CRC_FAILS : RegInfo := { base := 0x10002C, access := .rc }
/-- R125. -/
def DPI_FORMAT_FAILS : RegInfo := { base := 0x100030, access := .rc }
/-- R125. -/
def DPI_MISSED_TOTAL : RegInfo := { base := 0x100034, access := .rc }

/-- The registers of block DPI. -/
def allDpi : List RegInfo :=
  [DPI_STATUS, DPI_LEAD_MIN, DPI_MISS_HOLD, DPI_START_WAIT, DPI_LEAD, DPI_LINE, DPI_MISS_COUNT, DPI_TAG_APPLIED,
   DPI_STAGE_BASE, DPI_STAGE_SIZE, DPI_CRC_FAILS, DPI_FORMAT_FAILS, DPI_MISSED_TOTAL]

/-! ### THE -/

/-- R160. -/
def THE_CTRL : RegInfo := { base := 0x110000, access := .rwh, mask := 0x1F1, clamp := [(4, 4, 0, 8)] }
/-- R160. -/
def THE_STATUS : RegInfo := { base := 0x110004 }
/-- R160. -/
def THE_MAP_BASE : RegInfo := { base := 0x110008, bytes := 8, access := .rwh }
/-- R160. -/
def THE_MAP_U : RegInfo := { base := 0x110010, access := .rwh, mask := 0xFFFF }
/-- R160. -/
def THE_MAP_V : RegInfo := { base := 0x110014, access := .rwh, mask := 0xFFFF }
/-- R160. -/
def THE_ORIGIN_SCAN : RegInfo := { base := 0x110018, bytes := 8, access := .rwh }
/-- R160. -/
def THE_ORIGIN_STEP : RegInfo := { base := 0x110020, bytes := 8, access := .rwh }
/-- R160. -/
def THE_STEP_PITCH : RegInfo := { base := 0x110028, access := .rwh }
/-- R160. -/
def THE_EDGE_STATE : RegInfo := { base := 0x11002C, access := .rwh, mask := 0xFFFF }
/-- R160. -/
def THE_DECAY_SHIFT : RegInfo := { base := 0x110030, access := .rwh, reset := 0x18, mask := 0x3F, clamp := [(0, 6, 20, 36)] }
/-- R160. -/
def THE_ASSIM_MAX_AGE : RegInfo := { base := 0x110034, access := .rw, reset := 0x7A120 }
/-- R160. -/
def THE_SAT_STATE : RegInfo := { base := 0x110038, access := .rc }
/-- R160. -/
def THE_DOSE_CLAMP : RegInfo := { base := 0x11003C, access := .rc }
/-- R160. -/
def THE_IDX_CLAMP : RegInfo := { base := 0x110040, access := .rc }
/-- R160. -/
def THE_ASSIM_CELLS : RegInfo := { base := 0x110044, access := .rc }
/-- R160. -/
def THE_STALE_CELLS : RegInfo := { base := 0x110048, access := .rc }
/-- R160. -/
def THE_OUTSIDE : RegInfo := { base := 0x11004C, access := .rc }
/-- R160. -/
def THE_ABANDONED : RegInfo := { base := 0x110050, access := .rc }
/-- R160. -/
def THE_INIT_TIME : RegInfo := { base := 0x110054 }
/-- R160. -/
def THE_TIME : RegInfo := { base := 0x110058 }
/-- R160. -/
def THE_LAYER : RegInfo := { base := 0x11005C }
/-- R160. -/
def THE_RESIDUE_FAULTS : RegInfo := { base := 0x110060, access := .rc }
/-- R160. -/
def THE_ASSIM_CFG : RegInfo := { base := 0x110100, stride := 0x4, count := 16, access := .rw, mask := 0x1FF }
/-- R160. -/
def THE_DECAY : RegInfo := { base := 0x110800, stride := 0x4, count := 128, access := .rwh }
/-- R160. -/
def THE_OBS : RegInfo := { base := 0x111000, stride := 0x4, count := 512, access := .rwh }

/-- The registers of block THE. -/
def allThe : List RegInfo :=
  [THE_CTRL, THE_STATUS, THE_MAP_BASE, THE_MAP_U, THE_MAP_V, THE_ORIGIN_SCAN, THE_ORIGIN_STEP, THE_STEP_PITCH,
   THE_EDGE_STATE, THE_DECAY_SHIFT, THE_ASSIM_MAX_AGE, THE_SAT_STATE, THE_DOSE_CLAMP, THE_IDX_CLAMP,
   THE_ASSIM_CELLS, THE_STALE_CELLS, THE_OUTSIDE, THE_ABANDONED, THE_INIT_TIME, THE_TIME, THE_LAYER,
   THE_RESIDUE_FAULTS, THE_ASSIM_CFG, THE_DECAY, THE_OBS]

/-! ### BSC -/

/-- R192. -/
def BSC_CTRL : RegInfo := { base := 0x120000, access := .rwh, mask := 0x71 }
/-- R192. -/
def BSC_STATUS : RegInfo := { base := 0x120004, level := .l2 }
/-- R192. -/
def BSC_BANK_CTRL : RegInfo := { base := 0x120008, access := .wo }
/-- R192. -/
def BSC_GUARD : RegInfo := { base := 0x12000C, access := .rwh, reset := 0x32, mask := 0x3FF }
/-- R192. -/
def BSC_KT_CFG : RegInfo := { base := 0x120010, access := .rwh, reset := 0x20140, mask := 0xFFFFF }
/-- R192. -/
def BSC_KV_CFG : RegInfo := { base := 0x120014, access := .rwh, reset := 0x5ABE0, mask := 0xFFFFF }
/-- R192. -/
def BSC_CENSUS : RegInfo := { base := 0x120018, reset := 0x40004000 }
/-- R192. -/
def BSC_LAST_FAULT : RegInfo := { base := 0x12001C }
/-- R192. -/
def BSC_CLAMP_BEAM : RegInfo := { base := 0x120020, access := .rc }
/-- R192. -/
def BSC_CLAMP_CTX : RegInfo := { base := 0x120024, access := .rc }
/-- R192. -/
def BSC_CLAMP_BEZEL : RegInfo := { base := 0x120028, access := .rc }
/-- R192. -/
def BSC_CLAMP_DWELL : RegInfo := { base := 0x12002C, access := .rc }
/-- R192. -/
def BSC_MINW_LOSS : RegInfo := { base := 0x120030, access := .rc }
/-- R192. -/
def BSC_NO_BEAM_LOSS : RegInfo := { base := 0x120034, access := .rc }
/-- R192. -/
def BSC_SPLIT_FALLBACK : RegInfo := { base := 0x120038, access := .rc }
/-- R192. -/
def BSC_RESIDUE_FAULTS : RegInfo := { base := 0x12003C, access := .rc }
/-- R192. -/
def BSC_KT_CLAMP : RegInfo := { base := 0x120040, access := .rc }
/-- R192. -/
def BSC_KV_CLAMP : RegInfo := { base := 0x120044, access := .rc }
/-- R192. -/
def BSC_PREHEAT_DENIED : RegInfo := { base := 0x120048, access := .rc }
/-- R192. -/
def BSC_GEOM_ID : RegInfo := { base := 0x120050, stride := 0x4, count := 4 }
/-- R192. -/
def BSC_KT : RegInfo := { base := 0x121000, stride := 0x4, count := 128, access := .rwh, reset := 0x40004000 }
/-- R192. -/
def BSC_KV : RegInfo := { base := 0x121200, stride := 0x4, count := 128, access := .rwh, reset := 0x40004000 }

/-- The registers of block BSC. -/
def allBsc : List RegInfo :=
  [BSC_CTRL, BSC_STATUS, BSC_BANK_CTRL, BSC_GUARD, BSC_KT_CFG, BSC_KV_CFG, BSC_CENSUS, BSC_LAST_FAULT,
   BSC_CLAMP_BEAM, BSC_CLAMP_CTX, BSC_CLAMP_BEZEL, BSC_CLAMP_DWELL, BSC_MINW_LOSS, BSC_NO_BEAM_LOSS,
   BSC_SPLIT_FALLBACK, BSC_RESIDUE_FAULTS, BSC_KT_CLAMP, BSC_KV_CLAMP, BSC_PREHEAT_DENIED, BSC_GEOM_ID, BSC_KT,
   BSC_KV]

/-! ### PLC -/

/-- R227. -/
def PLC_CTRL : RegInfo := { base := 0x140000, access := .rwh, reset := 0x402, mask := 0xF3F, clamp := [(8, 4, 0, 8)] }
/-- R227. -/
def PLC_STATUS : RegInfo := { base := 0x140004, reset := 0x80000000, level := .l2 }
/-- R227. -/
def PLC_PIXEL_PITCH : RegInfo := { base := 0x140008, access := .rwh, reset := 0xA00, mask := 0xFFFFFF, clamp := [(0, 24, 256, 16777215)] }
/-- R227. -/
def PLC_LINE_RATE : RegInfo := { base := 0x14000C, access := .rw, reset := 0x61A80, clamp := [(0, 32, 1, 400000)] }
/-- R227. -/
def PLC_MIN_WIDTH : RegInfo := { base := 0x140010, access := .rwh, reset := 0x8, mask := 0xFFF }
/-- R227. -/
def PLC_SEND_LEAD : RegInfo := { base := 0x140014, access := .rwh, reset := 0x8, mask := 0x1F, clamp := [(0, 5, 2, 20)] }
/-- R227. -/
def PLC_ERR_LIMIT : RegInfo := { base := 0x140018, access := .rwh, reset := 0x80, mask := 0xFFFFF }
/-- R227. -/
def PLC_SPEED_SCALE : RegInfo := { base := 0x14001C, access := .rw, reset := 0x8000, mask := 0xFFFF, clamp := [(0, 16, 2048, 32768)] }
/-- R227. -/
def PLC_TURN_DWELL : RegInfo := { base := 0x140020, access := .rw, mask := 0xFFFFF }
/-- R227. -/
def PLC_RUNUP : RegInfo := { base := 0x140024, access := .rwh, reset := 0x40, mask := 0xFFF }
/-- R227. -/
def PLC_STEP_TOL : RegInfo := { base := 0x140028, access := .rwh, reset := 0x100 }
/-- R227. -/
def PLC_DIR_OFFSET_FWD : RegInfo := { base := 0x14002C, access := .rwh }
/-- R227. -/
def PLC_DIR_OFFSET_REV : RegInfo := { base := 0x140030, access := .rwh }
/-- R227. -/
def PLC_MARK : RegInfo := { base := 0x140038, bytes := 8, level := .l2 }
/-- R227. -/
def PLC_EVENT_LINE : RegInfo := { base := 0x140040, level := .l2 }
/-- R227. -/
def PLC_ERROR : RegInfo := { base := 0x140044, level := .l2 }
/-- R227. -/
def PLC_DWELL : RegInfo := { base := 0x140048, level := .l2 }
/-- R227. -/
def PLC_EFF_DWELL : RegInfo := { base := 0x14004C, level := .l2 }
/-- R227. -/
def PLC_ANCHOR_TT : RegInfo := { base := 0x140050, bytes := 8 }
/-- R227. -/
def PLC_TICK_RATE : RegInfo := { base := 0x140058, reset := 0x6A400000 }
/-- R227. -/
def PLC_ANCHOR_TICK : RegInfo := { base := 0x140060, stride := 0x4, count := 4 }
/-- R227. -/
def PLC_REVERSALS : RegInfo := { base := 0x140070, access := .rc }
/-- R227. -/
def PLC_DEV_PEAK : RegInfo := { base := 0x140074, access := .rc }
/-- R227. -/
def PLC_LATE_FRAMES : RegInfo := { base := 0x140078, access := .rc }
/-- R227. -/
def PLC_RECALLS : RegInfo := { base := 0x14007C, access := .rc }
/-- R227. -/
def PLC_THROTTLED : RegInfo := { base := 0x140080, access := .rc }

/-- The registers of block PLC. -/
def allPlc : List RegInfo :=
  [PLC_CTRL, PLC_STATUS, PLC_PIXEL_PITCH, PLC_LINE_RATE, PLC_MIN_WIDTH, PLC_SEND_LEAD, PLC_ERR_LIMIT,
   PLC_SPEED_SCALE, PLC_TURN_DWELL, PLC_RUNUP, PLC_STEP_TOL, PLC_DIR_OFFSET_FWD, PLC_DIR_OFFSET_REV, PLC_MARK,
   PLC_EVENT_LINE, PLC_ERROR, PLC_DWELL, PLC_EFF_DWELL, PLC_ANCHOR_TT, PLC_TICK_RATE, PLC_ANCHOR_TICK,
   PLC_REVERSALS, PLC_DEV_PEAK, PLC_LATE_FRAMES, PLC_RECALLS, PLC_THROTTLED]

/-! ### LNK -/

/-- R263. -/
def LNK_CTRL : RegInfo := { base := 0x160000, stride := 0x4000, count := 4, access := .rw, reset := 0x5D, mask := 0x7F, w1s := 0x2 }
/-- R263. -/
def LNK_STATUS : RegInfo := { base := 0x160004, stride := 0x4000, count := 4, level := .l2 }
/-- R263. -/
def LNK_LANE_MAP : RegInfo := { base := 0x160008, stride := 0x4000, count := 4, reset := 0xFFFFFFFF, level := .l2 }
/-- R263. -/
def LNK_LANE_POL : RegInfo := { base := 0x16000C, stride := 0x4000, count := 4, level := .l2 }
/-- R263. -/
def LNK_SKEW : RegInfo := { base := 0x160010, stride := 0x4000, count := 4, level := .l2 }
/-- R263. -/
def LNK_TRAIN_FAIL : RegInfo := { base := 0x160014, stride := 0x4000, count := 4, level := .l2 }
/-- R263. -/
def LNK_LAT : RegInfo := { base := 0x160018, stride := 0x4000, count := 4, level := .l0 }
/-- R263. -/
def LNK_BOARD_LAT : RegInfo := { base := 0x16001C, stride := 0x4000, count := 4, level := .l2 }
/-- R263. -/
def LNK_TICK : RegInfo := { base := 0x160020, stride := 0x4000, count := 4, level := .l2 }
/-- R263. -/
def LNK_TICK_RTT : RegInfo := { base := 0x160024, stride := 0x4000, count := 4, level := .l2 }
/-- R263. -/
def LNK_TICK_OFFSET : RegInfo := { base := 0x160028, stride := 0x4000, count := 4, level := .l2 }
/-- R263. -/
def LNK_CAP : RegInfo := { base := 0x16002C, stride := 0x4000, count := 4, level := .l2 }
/-- R263. -/
def LNK_BOARD_ID : RegInfo := { base := 0x160030, stride := 0x4000, count := 4, bytes := 8, level := .l2 }
/-- R263. -/
def LNK_RATE_CAP : RegInfo := { base := 0x160038, stride := 0x4000, count := 4, level := .l2 }
/-- R263. -/
def LNK_IDLE_DELAY : RegInfo := { base := 0x16003C, stride := 0x4000, count := 4, access := .rw, reset := 0x3E8, clamp := [(0, 32, 10, 1000000)] }
/-- R263. -/
def LNK_RECALL_MARGIN : RegInfo := { base := 0x160040, stride := 0x4000, count := 4, access := .rw, reset := 0x800, clamp := [(0, 32, 1024, 8192)] }
/-- R263. -/
def LNK_OUTSTANDING : RegInfo := { base := 0x160044, stride := 0x4000, count := 4, level := .l2 }
/-- R263. -/
def LNK_FRAMES_SENT : RegInfo := { base := 0x160050, stride := 0x4000, count := 4, access := .rc }
/-- R263. -/
def LNK_FRAMES_FIRED : RegInfo := { base := 0x160054, stride := 0x4000, count := 4, access := .rc }
/-- R263. -/
def LNK_FRAMES_BLANKED : RegInfo := { base := 0x160058, stride := 0x4000, count := 4, access := .rc }
/-- R263. -/
def LNK_DATA_CORRUPT : RegInfo := { base := 0x16005C, stride := 0x4000, count := 4, access := .rc }
/-- R263. -/
def LNK_CHECK_CORRUPT : RegInfo := { base := 0x160060, stride := 0x4000, count := 4, access := .rc }
/-- R263. -/
def LNK_ACK_TIMEOUTS : RegInfo := { base := 0x160064, stride := 0x4000, count := 4, access := .rc }
/-- R263. -/
def LNK_LATE_ACKS : RegInfo := { base := 0x160068, stride := 0x4000, count := 4, access := .rc }
/-- R263. -/
def LNK_ECHO_MISMATCH : RegInfo := { base := 0x16006C, stride := 0x4000, count := 4, access := .rc }
/-- R263. -/
def LNK_HDR_ERRORS : RegInfo := { base := 0x160070, stride := 0x4000, count := 4, access := .rc }
/-- R263. -/
def LNK_STUFF_ERRORS : RegInfo := { base := 0x160074, stride := 0x4000, count := 4, access := .rc }
/-- R263. -/
def LNK_BLOCK_CRC_ERRORS : RegInfo := { base := 0x160078, stride := 0x4000, count := 4, access := .rc }
/-- R263. -/
def LNK_RETRAINS : RegInfo := { base := 0x16007C, stride := 0x4000, count := 4, access := .rc }
/-- R263. -/
def LNK_REPLACED : RegInfo := { base := 0x160080, stride := 0x4000, count := 4, access := .rc }
/-- R263. -/
def LNK_RECALLED : RegInfo := { base := 0x160084, stride := 0x4000, count := 4, access := .rc }
/-- R263. -/
def LNK_BLANK_REASON (n : Nat) : RegInfo := { base := 0x160090 + 4 * (n % 7), stride := 0x4000, count := 4, access := .rc }
/-- R263. -/
def LNK_RATE : RegInfo := { base := 0x160200, access := .rwh, mask := 0x1 }

/-- The registers of block LNK. -/
def allLnk : List RegInfo :=
  [LNK_CTRL, LNK_STATUS, LNK_LANE_MAP, LNK_LANE_POL, LNK_SKEW, LNK_TRAIN_FAIL, LNK_LAT, LNK_BOARD_LAT, LNK_TICK,
   LNK_TICK_RTT, LNK_TICK_OFFSET, LNK_CAP, LNK_BOARD_ID, LNK_RATE_CAP, LNK_IDLE_DELAY, LNK_RECALL_MARGIN,
   LNK_OUTSTANDING, LNK_FRAMES_SENT, LNK_FRAMES_FIRED, LNK_FRAMES_BLANKED, LNK_DATA_CORRUPT, LNK_CHECK_CORRUPT,
   LNK_ACK_TIMEOUTS, LNK_LATE_ACKS, LNK_ECHO_MISMATCH, LNK_HDR_ERRORS, LNK_STUFF_ERRORS, LNK_BLOCK_CRC_ERRORS,
   LNK_RETRAINS, LNK_REPLACED, LNK_RECALLED, LNK_RATE] ++
  (List.range 7).map LNK_BLANK_REASON

/-! ### MND -/

/-- R291. -/
def MND_CTRL : RegInfo := { base := 0x150000, access := .rwh, reset := 0xF3, mask := 0xF3, clamp := [(4, 4, 1, 15)] }
/-- R291. -/
def MND_STATUS : RegInfo := { base := 0x150004, level := .l2 }
/-- R291. -/
def MND_LOG_CAP : RegInfo := { base := 0x150008, reset := 0x4000 }
/-- R291. -/
def MND_NEXT_SEQ : RegInfo := { base := 0x15000C }
/-- R291. -/
def MND_DISCARD : RegInfo := { base := 0x150010, access := .wo }
/-- R291. -/
def MND_SLATES_USED : RegInfo := { base := 0x150014, level := .l2 }
/-- R291. -/
def MND_SLATES_PEAK : RegInfo := { base := 0x150018, access := .rc }
/-- R291. -/
def MND_MAKEUP_BLOCKS : RegInfo := { base := 0x15001C, access := .rc }
/-- R291. -/
def MND_REPLACE_BLOCKS : RegInfo := { base := 0x150020, access := .rc }
/-- R291. -/
def MND_CARRIED_TO_LOG : RegInfo := { base := 0x150024, access := .rc }
/-- R291. -/
def MND_SLATE_FULL : RegInfo := { base := 0x150028, access := .rc }
/-- R291. -/
def MND_ENTRIES_ADDED : RegInfo := { base := 0x15002C, access := .rc }
/-- R291. -/
def MND_ENTRIES_CLOSED : RegInfo := { base := 0x150030, access := .rc }
/-- R291. -/
def MND_ENTRIES_EXPIRED : RegInfo := { base := 0x150034, access := .rc }
/-- R291. -/
def MND_UNLOGGED : RegInfo := { base := 0x150038, access := .rc }
/-- R291. -/
def MND_ECHO_FIRED : RegInfo := { base := 0x15003C, access := .rc }
/-- R291. -/
def MND_CAUSE_FRAMES : RegInfo := { base := 0x150084, stride := 0x4, count := 23, access := .rc }

/-- The registers of block MND. -/
def allMnd : List RegInfo :=
  [MND_CTRL, MND_STATUS, MND_LOG_CAP, MND_NEXT_SEQ, MND_DISCARD, MND_SLATES_USED, MND_SLATES_PEAK,
   MND_MAKEUP_BLOCKS, MND_REPLACE_BLOCKS, MND_CARRIED_TO_LOG, MND_SLATE_FULL, MND_ENTRIES_ADDED,
   MND_ENTRIES_CLOSED, MND_ENTRIES_EXPIRED, MND_UNLOGGED, MND_ECHO_FIRED, MND_CAUSE_FRAMES]

/-! ### MOT -/

/-- R322. -/
def MOT_CFG : RegInfo := { base := 0x80000, stride := 0x2000, count := 6, access := .rwh, reset := 0x211, mask := 0xFFF }
/-- R322. -/
def MOT_STATUS : RegInfo := { base := 0x80004, stride := 0x2000, count := 6, level := .l2 }
/-- R322. -/
def MOT_CMD : RegInfo := { base := 0x80008, stride := 0x2000, count := 6, access := .wo }
/-- R322. -/
def MOT_FAULT : RegInfo := { base := 0x8000C, stride := 0x2000, count := 6, access := .w1c, level := .l2, mask := 0x1FF }
/-- R322. -/
def MOT_POS : RegInfo := { base := 0x80010, stride := 0x2000, count := 6, bytes := 8, level := .l2 }
/-- R322. -/
def MOT_CMD_POS : RegInfo := { base := 0x80018, stride := 0x2000, count := 6, bytes := 8, level := .l2 }
/-- R322. -/
def MOT_ENV_VMAX : RegInfo := { base := 0x80020, stride := 0x2000, count := 6, access := .rwl, level := .l0 }
/-- R322. -/
def MOT_ENV_AMAX : RegInfo := { base := 0x80024, stride := 0x2000, count := 6, access := .rwl, level := .l0 }
/-- R322. -/
def MOT_ENV_JMAX : RegInfo := { base := 0x80028, stride := 0x2000, count := 6, access := .rwl, level := .l0 }
/-- R322. -/
def MOT_ENV_DMAX : RegInfo := { base := 0x8002C, stride := 0x2000, count := 6, access := .rwl, level := .l0 }
/-- R322. -/
def MOT_ENV_MIN : RegInfo := { base := 0x80030, stride := 0x2000, count := 6, bytes := 8, access := .rwl, level := .l0 }
/-- R322. -/
def MOT_ENV_MAX : RegInfo := { base := 0x80038, stride := 0x2000, count := 6, bytes := 8, access := .rwl, level := .l0 }
/-- R322. -/
def MOT_COMMUTE_RATIO : RegInfo := { base := 0x80040, stride := 0x2000, count := 6, access := .rwh, reset := 0x1000000 }
/-- R322. -/
def MOT_COMMUTE_OFFSET : RegInfo := { base := 0x80044, stride := 0x2000, count := 6, access := .rwh, mask := 0x3FF }
/-- R322. -/
def MOT_RUN_SCALE : RegInfo := { base := 0x80048, stride := 0x2000, count := 6, access := .rw, reset := 0xC0, mask := 0xFF }
/-- R322. -/
def MOT_HOLD_SCALE : RegInfo := { base := 0x8004C, stride := 0x2000, count := 6, access := .rw, reset := 0x60, mask := 0xFF }
/-- R322. -/
def MOT_STANDSTILL_DELAY : RegInfo := { base := 0x80050, stride := 0x2000, count := 6, access := .rw, reset := 0x1F4 }
/-- R322. -/
def MOT_FOLLOW_LIMIT : RegInfo := { base := 0x80054, stride := 0x2000, count := 6, access := .rw, reset := 0x1000 }
/-- R322. -/
def MOT_DEBOUNCE : RegInfo := { base := 0x80058, stride := 0x2000, count := 6, access := .rw, reset := 0x3E8, clamp := [(0, 32, 10, 65535)] }
/-- R322. -/
def MOT_CHATTER_MAX : RegInfo := { base := 0x8005C, stride := 0x2000, count := 6, access := .rw, reset := 0x8, mask := 0xFF }
/-- R322. -/
def MOT_STEP_MIN : RegInfo := { base := 0x80060, stride := 0x2000, count := 6, access := .rw, reset := 0x64 }
/-- R322. -/
def MOT_HOME_CFG : RegInfo := { base := 0x80064, stride := 0x2000, count := 6, level := .l2 }
/-- R322. -/
def MOT_HOME_VSEARCH : RegInfo := { base := 0x80068, stride := 0x2000, count := 6, level := .l2 }
/-- R322. -/
def MOT_HOME_VLATCH : RegInfo := { base := 0x8006C, stride := 0x2000, count := 6, level := .l2 }
/-- R322. -/
def MOT_HOME_BACKOFF : RegInfo := { base := 0x80070, stride := 0x2000, count := 6, level := .l2 }
/-- R322. -/
def MOT_HOME_RANGE : RegInfo := { base := 0x80078, stride := 0x2000, count := 6, bytes := 8, level := .l2 }
/-- R322. -/
def MOT_HOME_OFFSET : RegInfo := { base := 0x80080, stride := 0x2000, count := 6, bytes := 8, level := .l2 }
/-- R322. -/
def MOT_HOME_PARK : RegInfo := { base := 0x80088, stride := 0x2000, count := 6, bytes := 8, level := .l2 }
/-- R322. -/
def MOT_HOME_CAPTURE : RegInfo := { base := 0x80090, stride := 0x2000, count := 6, bytes := 8, level := .l2 }
/-- R322. -/
def MOT_HOME_CAPTURE_TT : RegInfo := { base := 0x80098, stride := 0x2000, count := 6, bytes := 8, level := .l2 }
/-- R322. -/
def MOT_SWITCH_RAW : RegInfo := { base := 0x800A0, stride := 0x2000, count := 6, level := .l2 }
/-- R322. -/
def MOT_FOLLOW_PEAK : RegInfo := { base := 0x800A4, stride := 0x2000, count := 6, access := .rc }
/-- R322. -/
def MOT_ENC_ERRORS : RegInfo := { base := 0x800A8, stride := 0x2000, count := 6, access := .rc }
/-- R322. -/
def MOT_STEP_OVERRUNS : RegInfo := { base := 0x800AC, stride := 0x2000, count := 6, access := .rc }
/-- R322. -/
def MOT_CHATTER_EDGES : RegInfo := { base := 0x800B0, stride := 0x2000, count := 6, access := .rc }
/-- R322. -/
def MOT_ENV_CLAMPS : RegInfo := { base := 0x800B4, stride := 0x2000, count := 6, access := .rc }
/-- R322. -/
def MOT_LINK_SEQ : RegInfo := { base := 0x800B8, stride := 0x2000, count := 6, level := .l2 }

/-- The registers of block MOT. -/
def allMot : List RegInfo :=
  [MOT_CFG, MOT_STATUS, MOT_CMD, MOT_FAULT, MOT_POS, MOT_CMD_POS, MOT_ENV_VMAX, MOT_ENV_AMAX, MOT_ENV_JMAX,
   MOT_ENV_DMAX, MOT_ENV_MIN, MOT_ENV_MAX, MOT_COMMUTE_RATIO, MOT_COMMUTE_OFFSET, MOT_RUN_SCALE, MOT_HOLD_SCALE,
   MOT_STANDSTILL_DELAY, MOT_FOLLOW_LIMIT, MOT_DEBOUNCE, MOT_CHATTER_MAX, MOT_STEP_MIN, MOT_HOME_CFG,
   MOT_HOME_VSEARCH, MOT_HOME_VLATCH, MOT_HOME_BACKOFF, MOT_HOME_RANGE, MOT_HOME_OFFSET, MOT_HOME_PARK,
   MOT_HOME_CAPTURE, MOT_HOME_CAPTURE_TT, MOT_SWITCH_RAW, MOT_FOLLOW_PEAK, MOT_ENC_ERRORS, MOT_STEP_OVERRUNS,
   MOT_CHATTER_EDGES, MOT_ENV_CLAMPS, MOT_LINK_SEQ]

/-! ### CAM -/

/-- R350. -/
def CAM_STATUS : RegInfo := { base := 0x180000, level := .l2 }
/-- R350. -/
def CAM_PORT_CFG : RegInfo := { base := 0x180010, stride := 0x10, count := 4, access := .rwh, reset := 0x9C40004, mask := 0xFFF000F }
/-- R350. -/
def CAM_PORT_STATUS : RegInfo := { base := 0x180014, stride := 0x10, count := 4, level := .l2 }
/-- R350. -/
def CAM_PORT_ERRORS : RegInfo := { base := 0x180018, stride := 0x10, count := 4, access := .rc }
/-- R350. -/
def CAM_PORT_UNASSIGNED : RegInfo := { base := 0x18001C, stride := 0x10, count := 4, access := .rc }
/-- R350. -/
def CAM_PWR_CTRL : RegInfo := { base := 0x180050, access := .rw, mask := 0xF }
/-- R350. -/
def CAM_PWR_STATUS : RegInfo := { base := 0x180054, level := .l2 }
/-- R350. -/
def CAM_PWR_CURRENT : RegInfo := { base := 0x180058, level := .l2 }
/-- R350. -/
def CAM_TRIG_CFG : RegInfo := { base := 0x180060, stride := 0x20, count := 4, access := .rw, reset := 0x3E80A00, mask := 0xFFFFFF01 }
/-- R350. -/
def CAM_TRIG_SW : RegInfo := { base := 0x180064, stride := 0x20, count := 4, access := .wo, mask := 0xF }
/-- R350. -/
def CAM_TRIG_POS : RegInfo := { base := 0x180068, stride := 0x20, count := 4, bytes := 8, access := .rw }
/-- R350. -/
def CAM_TRIG_POS_CFG : RegInfo := { base := 0x180070, stride := 0x20, count := 4, access := .rw, mask := 0x1FF, w1s := 0x100 }
/-- R350. -/
def CAM_TRIG_DROPS : RegInfo := { base := 0x180074, stride := 0x20, count := 4, access := .rc }
/-- R350. -/
def CAM_TRIG_LAST_TT : RegInfo := { base := 0x180078, stride := 0x20, count := 4, bytes := 8, level := .l2 }
/-- R350. -/
def CAM_BUS_CFG : RegInfo := { base := 0x180100, stride := 0x40, count := 4, access := .rw, reset := 0x1, mask := 0x3 }
/-- R350. -/
def CAM_BUS_CMD : RegInfo := { base := 0x180104, stride := 0x40, count := 4, access := .wo, mask := 0x1F03FF }
/-- R350. -/
def CAM_BUS_REG : RegInfo := { base := 0x180108, stride := 0x40, count := 4, access := .rw, mask := 0xFFFF }
/-- R350. -/
def CAM_BUS_STATUS : RegInfo := { base := 0x18010C, stride := 0x40, count := 4, level := .l2 }
/-- R350. -/
def CAM_BUS_DATA (w : Nat) : RegInfo := { base := 0x180110 + 4 * (w % 4), stride := 0x40, count := 4, access := .rw, level := .l2 }
/-- R350. -/
def CAM_BUS_ERRORS : RegInfo := { base := 0x180120, stride := 0x40, count := 4, access := .rc }
/-- R350. -/
def CAM_CTX_CFG : RegInfo := { base := 0x181000, stride := 0x100, count := 16, access := .rwh, mask := 0xFFFF }
/-- R350. -/
def CAM_CTX_SIZE : RegInfo := { base := 0x181004, stride := 0x100, count := 16, access := .rwh, mask := 0x3FFF3FFF }
/-- R350. -/
def CAM_CTX_STATUS : RegInfo := { base := 0x181008, stride := 0x100, count := 16, level := .l2 }
/-- R350. -/
def CAM_CTX_COMMIT : RegInfo := { base := 0x18100C, stride := 0x100, count := 16, access := .w1s, level := .l2, mask := 0x1 }
/-- R350. -/
def CAM_CTX_FRAME : RegInfo := { base := 0x181010, stride := 0x100, count := 16 }
/-- R350. -/
def CAM_CTX_GEN : RegInfo := { base := 0x181014, stride := 0x100, count := 16 }
/-- R350. -/
def CAM_CTX_REF_BASE : RegInfo := { base := 0x181018, stride := 0x100, count := 16, bytes := 8, access := .rwh }
/-- R350. -/
def CAM_CTX_MAP_BASE : RegInfo := { base := 0x181020, stride := 0x100, count := 16, bytes := 8, access := .rwh }
/-- R350. -/
def CAM_CTX_TIMEOUT : RegInfo := { base := 0x181028, stride := 0x100, count := 16, access := .rw, reset := 0x186A0 }
/-- R350. -/
def CAM_CTX_RELEASE : RegInfo := { base := 0x18102C, stride := 0x100, count := 16, access := .wo, mask := 0x3 }
/-- R350. -/
def CAM_CTX_SHORT : RegInfo := { base := 0x181030, stride := 0x100, count := 16, access := .rc }
/-- R350. -/
def CAM_CTX_LONG : RegInfo := { base := 0x181034, stride := 0x100, count := 16, access := .rc }
/-- R350. -/
def CAM_CTX_EXTRA_LINES : RegInfo := { base := 0x181038, stride := 0x100, count := 16, access := .rc }
/-- R350. -/
def CAM_CTX_INVALID_LINES : RegInfo := { base := 0x18103C, stride := 0x100, count := 16, access := .rc }
/-- R350. -/
def CAM_CTX_OVERRUN_LINES : RegInfo := { base := 0x181040, stride := 0x100, count := 16, access := .rc }
/-- R350. -/
def CAM_CTX_MAPS_DROPPED : RegInfo := { base := 0x181044, stride := 0x100, count := 16, access := .rc }
/-- R350. -/
def CAM_CTX_SET_LATE : RegInfo := { base := 0x181048, stride := 0x100, count := 16, access := .rc }
/-- R350. -/
def CAM_PAGE : RegInfo := { base := 0x190000, stride := 0x4, count := 16384, access := .rw }

/-- The registers of block CAM. -/
def allCam : List RegInfo :=
  [CAM_STATUS, CAM_PORT_CFG, CAM_PORT_STATUS, CAM_PORT_ERRORS, CAM_PORT_UNASSIGNED, CAM_PWR_CTRL, CAM_PWR_STATUS,
   CAM_PWR_CURRENT, CAM_TRIG_CFG, CAM_TRIG_SW, CAM_TRIG_POS, CAM_TRIG_POS_CFG, CAM_TRIG_DROPS, CAM_TRIG_LAST_TT,
   CAM_BUS_CFG, CAM_BUS_CMD, CAM_BUS_REG, CAM_BUS_STATUS, CAM_BUS_ERRORS, CAM_CTX_CFG, CAM_CTX_SIZE,
   CAM_CTX_STATUS, CAM_CTX_COMMIT, CAM_CTX_FRAME, CAM_CTX_GEN, CAM_CTX_REF_BASE, CAM_CTX_MAP_BASE,
   CAM_CTX_TIMEOUT, CAM_CTX_RELEASE, CAM_CTX_SHORT, CAM_CTX_LONG, CAM_CTX_EXTRA_LINES, CAM_CTX_INVALID_LINES,
   CAM_CTX_OVERRUN_LINES, CAM_CTX_MAPS_DROPPED, CAM_CTX_SET_LATE, CAM_PAGE] ++
  (List.range 4).map CAM_BUS_DATA

/-! ### ARB -/

/-- R386. -/
def ARB_CTRL : RegInfo := { base := 0xA0000, access := .w1s, mask := 0x1 }
/-- R386. -/
def ARB_STATUS : RegInfo := { base := 0xA0004, reset := 0xF0000 }
/-- R386. -/
def ARB_OWED_MAX : RegInfo := { base := 0xA0008, access := .rw, reset := 0x8, mask := 0xFF }
/-- R386. -/
def ARB_WAIT_BREAK : RegInfo := { base := 0xA000C, access := .rw, reset := 0x3E80, clamp := [(0, 32, 1024, 16777216)] }
/-- R386. -/
def ARB_WAIT_BREAKS : RegInfo := { base := 0xA0010, access := .rc }
/-- R386. -/
def ARB_CFG : RegInfo := { base := 0xA0040, stride := 0x4, count := 16, access := .rw, reset := 0x4001, mask := 0x1FFFFF }
/-- R386. -/
def ARB_FORECAST : RegInfo := { base := 0xA0080, stride := 0x4, count := 16, reset := 0xFFFFFFFF }
/-- R386. -/
def ARB_OWED : RegInfo := { base := 0xA00C0, stride := 0x4, count := 16 }
/-- R386. -/
def ARB_GRANTS : RegInfo := { base := 0xA0100, stride := 0x4, count := 16, access := .rc }
/-- R386. -/
def ARB_BROKEN : RegInfo := { base := 0xA0140, stride := 0x4, count := 16, access := .rc }
/-- R386. -/
def ARB_SLOT_BANK0 : RegInfo := { base := 0xA0400, stride := 0x4, count := 32, access := .rw, reset := 0xFFFFFFFF }
/-- R386. -/
def ARB_SLOT_BANK1 : RegInfo := { base := 0xA0500, stride := 0x4, count := 32, access := .rw, reset := 0xFFFFFFFF }

/-- The registers of block ARB. -/
def allArb : List RegInfo :=
  [ARB_CTRL, ARB_STATUS, ARB_OWED_MAX, ARB_WAIT_BREAK, ARB_WAIT_BREAKS, ARB_CFG, ARB_FORECAST, ARB_OWED,
   ARB_GRANTS, ARB_BROKEN, ARB_SLOT_BANK0, ARB_SLOT_BANK1]

/-! ### MEMC -/

/-- R387. -/
def MEMC_CTRL : RegInfo := { base := 0xB0000, access := .rw, mask := 0x3, w1s := 0x1 }
/-- R387. -/
def MEMC_STATUS : RegInfo := { base := 0xB0004 }
/-- R387. -/
def MEMC_RANK_MAP : RegInfo := { base := 0xB0008, access := .rwl, reset := 0x24242424, level := .l0, mask := 0x3F3F3F3F }
/-- R387. -/
def MEMC_RANK_STATE : RegInfo := { base := 0xB000C, reset := 0x410410, level := .l0 }
/-- R387. -/
def MEMC_RETIRE : RegInfo := { base := 0xB0010, access := .wo, mask := 0x80000007 }
/-- R387. -/
def MEMC_MIGRATE_PTR : RegInfo := { base := 0xB0014, level := .l0 }
/-- R387. -/
def MEMC_SR_IDLE : RegInfo := { base := 0xB0018, access := .rw, reset := 0x3E8 }
/-- R387. -/
def MEMC_SR_COUNT : RegInfo := { base := 0xB001C, access := .rc }
/-- R387. -/
def MEMC_TRAIN_RESULT : RegInfo := { base := 0xB0020 }
/-- R387. -/
def MEMC_CMD_ERRORS : RegInfo := { base := 0xB0024, access := .rc }
/-- R387. -/
def MEMC_SCRUB_CFG : RegInfo := { base := 0xB0030, access := .rw, reset := 0x5A00001, mask := 0xFFFF0001 }
/-- R387. -/
def MEMC_SCRUB_PTR : RegInfo := { base := 0xB0034 }
/-- R387. -/
def MEMC_SCRUB_SWEEPS : RegInfo := { base := 0xB0038, access := .rc }

/-- The registers of block MEMC. -/
def allMemc : List RegInfo :=
  [MEMC_CTRL, MEMC_STATUS, MEMC_RANK_MAP, MEMC_RANK_STATE, MEMC_RETIRE, MEMC_MIGRATE_PTR, MEMC_SR_IDLE,
   MEMC_SR_COUNT, MEMC_TRAIN_RESULT, MEMC_CMD_ERRORS, MEMC_SCRUB_CFG, MEMC_SCRUB_PTR, MEMC_SCRUB_SWEEPS]

/-! ### ECC -/

/-- R388. -/
def ECC_CFG : RegInfo := { base := 0xC0000, access := .rw, reset := 0x5, mask := 0x7 }
/-- R388. -/
def ECC_STATUS : RegInfo := { base := 0xC0004 }
/-- R388. -/
def ECC_CE_THRESHOLD : RegInfo := { base := 0xC0008, access := .rw, reset := 0x100 }
/-- R388. -/
def ECC_CE_WINDOW : RegInfo := { base := 0xC000C, access := .rw, reset := 0xE10 }
/-- R388. -/
def ECC_CE_COUNT : RegInfo := { base := 0xC0010, access := .rc }
/-- R388. -/
def ECC_UE_COUNT : RegInfo := { base := 0xC0014, access := .rc }
/-- R388. -/
def ECC_SRAM_CE : RegInfo := { base := 0xC0018, access := .rc }
/-- R388. -/
def ECC_SRAM_UE : RegInfo := { base := 0xC001C, access := .rc }
/-- R388. -/
def ECC_LOG_DROPS : RegInfo := { base := 0xC0020, access := .rc }
/-- R388. -/
def ECC_LOG_CLEAR : RegInfo := { base := 0xC0024, access := .wo, mask := 0x1 }
/-- R388. -/
def ECC_INJECT : RegInfo := { base := 0xC0030, access := .rw, mask := 0x77, w1s := 0x1 }
/-- R388. -/
def ECC_INJECT_ADDR : RegInfo := { base := 0xC0038, bytes := 8, access := .rw }
/-- R388. -/
def ECC_RANK_CE : RegInfo := { base := 0xC0040, stride := 0x4, count := 12 }

/-- The registers of block ECC. -/
def allEcc : List RegInfo :=
  [ECC_CFG, ECC_STATUS, ECC_CE_THRESHOLD, ECC_CE_WINDOW, ECC_CE_COUNT, ECC_UE_COUNT, ECC_SRAM_CE, ECC_SRAM_UE,
   ECC_LOG_DROPS, ECC_LOG_CLEAR, ECC_INJECT, ECC_INJECT_ADDR, ECC_RANK_CE]

/-! ### UDMA -/

/-- R408. -/
def UDMA_BUSY : RegInfo := { base := 0xD0000 }
/-- R408. -/
def UDMA_APPEND : RegInfo := { base := 0xD0008, bytes := 8, access := .wo, mask := 0xF07FFFFFF }
/-- R408. -/
def UDMA_APPEND_RESULT : RegInfo := { base := 0xD0010 }
/-- R408. -/
def UDMA_ERRORS : RegInfo := { base := 0xD0014, access := .rc }
/-- R408. -/
def UDMA_SRC : RegInfo := { base := 0xD0100, stride := 0x40, count := 16, bytes := 8, access := .rwh }
/-- R408. -/
def UDMA_DST : RegInfo := { base := 0xD0108, stride := 0x40, count := 16, bytes := 8, access := .rwh }
/-- R408. -/
def UDMA_COUNT : RegInfo := { base := 0xD0110, stride := 0x40, count := 16, access := .rwh }
/-- R408. -/
def UDMA_CTRL : RegInfo := { base := 0xD0114, stride := 0x40, count := 16, access := .rw, mask := 0x3FF, w1s := 0x3 }
/-- R408. -/
def UDMA_PACE : RegInfo := { base := 0xD0118, stride := 0x40, count := 16, access := .rwh, mask := 0xFFFFFF1F }
/-- R408. -/
def UDMA_CH_STATUS : RegInfo := { base := 0xD011C, stride := 0x40, count := 16 }
/-- R408. -/
def UDMA_CHAIN : RegInfo := { base := 0xD0120, stride := 0x40, count := 16, access := .rwh }
/-- R408. -/
def UDMA_TAIL : RegInfo := { base := 0xD0124, stride := 0x40, count := 16 }
/-- R408. -/
def UDMA_ERR_ADDR : RegInfo := { base := 0xD0128, stride := 0x40, count := 16, bytes := 8 }

/-- The registers of block UDMA. -/
def allUdma : List RegInfo :=
  [UDMA_BUSY, UDMA_APPEND, UDMA_APPEND_RESULT, UDMA_ERRORS, UDMA_SRC, UDMA_DST, UDMA_COUNT, UDMA_CTRL, UDMA_PACE,
   UDMA_CH_STATUS, UDMA_CHAIN, UDMA_TAIL, UDMA_ERR_ADDR]

/-! ### CRC -/

/-- R409. -/
def CRC_POLY : RegInfo := { base := 0xE0100, stride := 0x40, count := 4, bytes := 8, access := .rwh }
/-- R409. -/
def CRC_INIT : RegInfo := { base := 0xE0108, stride := 0x40, count := 4, bytes := 8, access := .rwh }
/-- R409. -/
def CRC_XOROUT : RegInfo := { base := 0xE0110, stride := 0x40, count := 4, bytes := 8, access := .rwh }
/-- R409. -/
def CRC_ADDR : RegInfo := { base := 0xE0118, stride := 0x40, count := 4, bytes := 8, access := .rwh }
/-- R409. -/
def CRC_LEN : RegInfo := { base := 0xE0120, stride := 0x40, count := 4, bytes := 8, access := .rwh }
/-- R409. -/
def CRC_RUN : RegInfo := { base := 0xE0128, stride := 0x40, count := 4, bytes := 8, access := .rwh }
/-- R409. -/
def CRC_RESULT : RegInfo := { base := 0xE0130, stride := 0x40, count := 4, bytes := 8 }
/-- R409. -/
def CRC_CTRL : RegInfo := { base := 0xE0138, stride := 0x40, count := 4, access := .rw, reset := 0xFC, mask := 0xFFF, w1s := 0x803 }
/-- R409. -/
def CRC_ERRORS : RegInfo := { base := 0xE013C, stride := 0x40, count := 4, access := .rc }

/-- The registers of block CRC. -/
def allCrc : List RegInfo :=
  [CRC_POLY, CRC_INIT, CRC_XOROUT, CRC_ADDR, CRC_LEN, CRC_RUN, CRC_RESULT, CRC_CTRL, CRC_ERRORS]

/-! ### FCD -/

/-- R410. -/
def FCD_STATUS : RegInfo := { base := 0xF0000 }
/-- R410. -/
def FCD_JOBS : RegInfo := { base := 0xF0004, access := .rc }
/-- R410. -/
def FCD_FAILS : RegInfo := { base := 0xF0008, access := .rc }
/-- R410. -/
def FCD_ESCAPES : RegInfo := { base := 0xF000C, access := .rc }

/-- The registers of block FCD. -/
def allFcd : List RegInfo :=
  [FCD_STATUS, FCD_JOBS, FCD_FAILS, FCD_ESCAPES]

/-! ### TSY -/

/-- R433. -/
def TSY_CTRL : RegInfo := { base := 0x70000, access := .rw, reset := 0x30, mask := 0x3FF }
/-- R433. -/
def TSY_STATUS : RegInfo := { base := 0x70004 }
/-- R433. -/
def TSY_TIME : RegInfo := { base := 0x70008, bytes := 8 }
/-- R433. -/
def TSY_EXT : RegInfo := { base := 0x70010, bytes := 8 }
/-- R433. -/
def TSY_INCREMENT : RegInfo := { base := 0x70018, bytes := 8, access := .rwh, reset := 0xCCCCCCCD, mask := 0xFFFFFFFFFF }
/-- R433. -/
def TSY_OFFSET_IN : RegInfo := { base := 0x70020, bytes := 8, access := .wo }
/-- R433. -/
def TSY_OFFSET : RegInfo := { base := 0x70028, bytes := 8 }
/-- R433. -/
def TSY_ADJ : RegInfo := { base := 0x70030 }
/-- R433. -/
def TSY_INTEGRAL : RegInfo := { base := 0x70034 }
/-- R433. -/
def TSY_GAINS : RegInfo := { base := 0x70038, access := .rw, reset := 0x200200 }
/-- R433. -/
def TSY_MAX_PPB : RegInfo := { base := 0x7003C, access := .rw, reset := 0x2710, mask := 0xFFFF }
/-- R433. -/
def TSY_STEP_LIMIT : RegInfo := { base := 0x70040, access := .rw, reset := 0xF4240 }
/-- R433. -/
def TSY_LOCK_CFG : RegInfo := { base := 0x70044, access := .rw, reset := 0x100064, mask := 0xFFFFFF }
/-- R433. -/
def TSY_HOLDOVER : RegInfo := { base := 0x70048, access := .rw, reset := 0x7D0 }
/-- R433. -/
def TSY_MODULE : RegInfo := { base := 0x7004C, access := .rw, mask := 0x3FF }
/-- R433. -/
def TSY_WIDE_NS : RegInfo := { base := 0x70050 }
/-- R433. -/
def TSY_WIDE_SEC_LO : RegInfo := { base := 0x70054 }
/-- R433. -/
def TSY_WIDE_SEC_HI : RegInfo := { base := 0x70058 }
/-- R433. -/
def TSY_WRAPS : RegInfo := { base := 0x7005C }
/-- R433. -/
def TSY_STEPS : RegInfo := { base := 0x70060, access := .rc }
/-- R433. -/
def TSY_PPS_MISSED : RegInfo := { base := 0x70064, access := .rc }
/-- R433. -/
def TSY_PPS_CFG : RegInfo := { base := 0x70068, access := .rw, reset := 0x6400, mask := 0xFFFFFF01 }
/-- R433. -/
def TSY_PPS_IN_TT : RegInfo := { base := 0x70070, bytes := 8 }
/-- R433. -/
def TSY_CLOCK_ID : RegInfo := { base := 0x70078, bytes := 8, level := .l0 }
/-- R433. -/
def TSY_PTP_GLOBAL : RegInfo := { base := 0x70080, access := .rw, reset := 0x1808000, mask := 0x7FFFFFF }
/-- R433. -/
def TSY_PTP_IPV4 : RegInfo := { base := 0x70084, access := .rw }
/-- R433. -/
def TSY_PORT_CFG : RegInfo := { base := 0x70100, stride := 0x40, count := 2, access := .rw, mask := 0x1 }
/-- R433. -/
def TSY_PORT_STATE : RegInfo := { base := 0x70104, stride := 0x40, count := 2 }
/-- R433. -/
def TSY_PORT_LAT : RegInfo := { base := 0x70108, stride := 0x40, count := 2, level := .l0 }
/-- R433. -/
def TSY_PEER_DELAY : RegInfo := { base := 0x7010C, stride := 0x40, count := 2 }
/-- R433. -/
def TSY_PORT_RX : RegInfo := { base := 0x70110, stride := 0x40, count := 2, access := .rc }
/-- R433. -/
def TSY_PORT_TX : RegInfo := { base := 0x70114, stride := 0x40, count := 2, access := .rc }
/-- R433. -/
def TSY_PORT_DISCARDS : RegInfo := { base := 0x70118, stride := 0x40, count := 2, access := .rc }
/-- R433. -/
def TSY_CMP_TARGET : RegInfo := { base := 0x70200, stride := 0x10, count := 4, bytes := 8, access := .rw }
/-- R433. -/
def TSY_CMP_PERIOD : RegInfo := { base := 0x70208, stride := 0x10, count := 4, access := .rw }
/-- R433. -/
def TSY_CMP_CTRL : RegInfo := { base := 0x7020C, stride := 0x10, count := 4, access := .rw, mask := 0x3, w1s := 0x1 }

/-- The registers of block TSY. -/
def allTsy : List RegInfo :=
  [TSY_CTRL, TSY_STATUS, TSY_TIME, TSY_EXT, TSY_INCREMENT, TSY_OFFSET_IN, TSY_OFFSET, TSY_ADJ, TSY_INTEGRAL,
   TSY_GAINS, TSY_MAX_PPB, TSY_STEP_LIMIT, TSY_LOCK_CFG, TSY_HOLDOVER, TSY_MODULE, TSY_WIDE_NS, TSY_WIDE_SEC_LO,
   TSY_WIDE_SEC_HI, TSY_WRAPS, TSY_STEPS, TSY_PPS_MISSED, TSY_PPS_CFG, TSY_PPS_IN_TT, TSY_CLOCK_ID,
   TSY_PTP_GLOBAL, TSY_PTP_IPV4, TSY_PORT_CFG, TSY_PORT_STATE, TSY_PORT_LAT, TSY_PEER_DELAY, TSY_PORT_RX,
   TSY_PORT_TX, TSY_PORT_DISCARDS, TSY_CMP_TARGET, TSY_CMP_PERIOD, TSY_CMP_CTRL]

/-! ### PWR -/

/-- R463. -/
def PWR_STATUS : RegInfo := { base := 0x40000, reset := 0x3FF01, level := .l0 }
/-- R463. -/
def PWR_BULK : RegInfo := { base := 0x40004, level := .l0 }
/-- R463. -/
def PWR_BUS : RegInfo := { base := 0x40008, level := .l0 }
/-- R463. -/
def PWR_MAINS : RegInfo := { base := 0x4000C, level := .l0 }
/-- R463. -/
def PWR_INPUT : RegInfo := { base := 0x40010, level := .l0 }
/-- R463. -/
def PWR_BACKUP : RegInfo := { base := 0x40014, level := .backup }
/-- R463. -/
def PWR_RAIL : RegInfo := { base := 0x40020, stride := 0x4, count := 10, level := .l0 }
/-- R463. -/
def PWR_SETTLE : RegInfo := { base := 0x40050, access := .rw, reset := 0x32 }
/-- R463. -/
def PWR_SUPPLY_HOLD : RegInfo := { base := 0x40054, access := .rw, reset := 0x3E8 }
/-- R463. -/
def PWR_WARN_DMAX : RegInfo := { base := 0x40058, access := .rw }
/-- R463. -/
def PWR_BACKUP_LOW : RegInfo := { base := 0x4005C, access := .rw, reset := 0xA28 }
/-- R463. -/
def PWR_WARN_COUNT : RegInfo := { base := 0x40060, access := .rc }
/-- R463. -/
def PWR_MAINS_LOSSES : RegInfo := { base := 0x40064, access := .rc }
/-- R463. -/
def PWR_RAIL_FAULTS : RegInfo := { base := 0x40068, access := .rc }

/-- The registers of block PWR. -/
def allPwr : List RegInfo :=
  [PWR_STATUS, PWR_BULK, PWR_BUS, PWR_MAINS, PWR_INPUT, PWR_BACKUP, PWR_RAIL, PWR_SETTLE, PWR_SUPPLY_HOLD,
   PWR_WARN_DMAX, PWR_BACKUP_LOW, PWR_WARN_COUNT, PWR_MAINS_LOSSES, PWR_RAIL_FAULTS]

/-! ### RST -/

/-- R464. -/
def RST_STATUS : RegInfo := { base := 0x30000, level := .l0 }
/-- R464. -/
def RST_REACH : RegInfo := { base := 0x30008, reset := 0x12650, level := .l0 }
/-- R464. -/
def RST_CMD : RegInfo := { base := 0x3000C, access := .wo, mask := 0xFF03 }
/-- R464. -/
def RST_CMD_STATUS : RegInfo := { base := 0x30010 }
/-- R464. -/
def RST_BLOCK : RegInfo := { base := 0x30014, access := .wo, mask := 0xFF1F }
/-- R464. -/
def RST_BLOCK_STATUS : RegInfo := { base := 0x30018 }
/-- R464. -/
def RST_WDOG_CFG : RegInfo := { base := 0x3001C, access := .rwl, mask := 0x8001FFFF, w1s := 0x80000000 }
/-- R464. -/
def RST_WDOG_KICK : RegInfo := { base := 0x30020, access := .wo }
/-- R464. -/
def RST_CLK_STATUS : RegInfo := { base := 0x30024, reset := 0xFF, level := .l0 }
/-- R464. -/
def RST_TOTAL : RegInfo := { base := 0x30030, level := .backup }
/-- R464. -/
def RST_SRC_COUNT : RegInfo := { base := 0x30034, stride := 0x4, count := 5, level := .backup }
/-- R464. -/
def RST_LAST : RegInfo := { base := 0x30048, level := .backup }
/-- R464. -/
def RST_FAULT_REC : RegInfo := { base := 0x30100, stride := 0x4, count := 16, level := .backup }
/-- R464. -/
def RST_FW_NOTE : RegInfo := { base := 0x30140, stride := 0x4, count := 8, access := .rw }

/-- The registers of block RST. -/
def allRst : List RegInfo :=
  [RST_STATUS, RST_REACH, RST_CMD, RST_CMD_STATUS, RST_BLOCK, RST_BLOCK_STATUS, RST_WDOG_CFG, RST_WDOG_KICK,
   RST_CLK_STATUS, RST_TOTAL, RST_SRC_COUNT, RST_LAST, RST_FAULT_REC, RST_FW_NOTE]

/-! ### FUS -/

/-- R465. -/
def FUS_STATUS : RegInfo := { base := 0x60000, level := .l0 }
/-- R465. -/
def FUS_LOAD_GEN : RegInfo := { base := 0x60004, level := .backup }
/-- R465. -/
def FUS_CRC : RegInfo := { base := 0x60008, level := .l0 }
/-- R465. -/
def FUS_FLAGS : RegInfo := { base := 0x6000C, level := .l0 }
/-- R465. -/
def FUS_REACH : RegInfo := { base := 0x60010, level := .l0 }
/-- R465. -/
def FUS_PIN_MAP : RegInfo := { base := 0x60020, stride := 0x4, count := 4, level := .l0 }
/-- R523. -/
def FUS_KEY0 : RegInfo := { base := 0x60100, stride := 0x4, count := 12, level := .l0 }
/-- R523. -/
def FUS_KEY1 : RegInfo := { base := 0x60130, stride := 0x4, count := 12, level := .l0 }
/-- R523. -/
def FUS_KEY2 : RegInfo := { base := 0x60160, stride := 0x4, count := 12, level := .l0 }
/-- R523. -/
def FUS_ROLLBACK : RegInfo := { base := 0x60190, level := .l0 }

/-- The registers of block FUS. -/
def allFus : List RegInfo :=
  [FUS_STATUS, FUS_LOAD_GEN, FUS_CRC, FUS_FLAGS, FUS_REACH, FUS_PIN_MAP, FUS_KEY0, FUS_KEY1, FUS_KEY2,
   FUS_ROLLBACK]

/-! ### THM -/

/-- R484. -/
def THM_CTRL : RegInfo := { base := 0x50000, access := .rw, mask := 0x1 }
/-- R484. -/
def THM_STATUS : RegInfo := { base := 0x50004 }
/-- R484. -/
def THM_REQ : RegInfo := { base := 0x50008, access := .wo, mask := 0x3FF }
/-- R484. -/
def THM_THROTTLE_START : RegInfo := { base := 0x5000C, access := .rwl, reset := 0x640, level := .l0, mask := 0xFFFF }
/-- R484. -/
def THM_DWELL_K : RegInfo := { base := 0x50010, access := .rw, reset := 0x3E8, mask := 0xFFFFF }
/-- R484. -/
def THM_SCALE_K : RegInfo := { base := 0x50014, access := .rw, reset := 0xCCD, mask := 0xFFFF }
/-- R484. -/
def THM_FALLBACK_OFFSET : RegInfo := { base := 0x50018, access := .rw, reset := 0x140, mask := 0xFFFF }
/-- R484. -/
def THM_HEAD_SCALE : RegInfo := { base := 0x5001C, access := .rw, reset := 0x6000, mask := 0xFFFF }
/-- R484. -/
def THM_SUPPLY_LIMIT : RegInfo := { base := 0x50020, access := .rw, reset := 0xCB20ABE0 }
/-- R484. -/
def THM_RESULT : RegInfo := { base := 0x50040, stride := 0x4, count := 10 }
/-- R484. -/
def THM_RESULT_TT : RegInfo := { base := 0x50080, stride := 0x8, count := 10, bytes := 8 }
/-- R484. -/
def THM_REMOTE_CFG : RegInfo := { base := 0x50100, stride := 0x4, count := 8, access := .rw, mask := 0xFFFFFF07 }
/-- R484. -/
def THM_REMOTE_NOM : RegInfo := { base := 0x50120, stride := 0x4, count := 8, access := .rw, reset := 0x2710 }
/-- R484. -/
def THM_REMOTE_LIMIT : RegInfo := { base := 0x50140, stride := 0x4, count := 8, access := .rwl, reset := 0x6400500, level := .l0 }
/-- R484. -/
def THM_CAL_DUE : RegInfo := { base := 0x50200 }
/-- R484. -/
def THM_CAL_RUN : RegInfo := { base := 0x50204, access := .wo, mask := 0x7F }
/-- R484. -/
def THM_CAL_STATUS : RegInfo := { base := 0x50208 }
/-- R484. -/
def THM_CAL_ITEM : RegInfo := { base := 0x50210, stride := 0x8, count := 7, access := .rw, reset := 0x400070, mask := 0xFFFF007F }
/-- R484. -/
def THM_CAL_REF : RegInfo := { base := 0x50214, stride := 0x8, count := 7 }
/-- R484. -/
def THM_CONVERSIONS : RegInfo := { base := 0x50280, access := .rc }
/-- R484. -/
def THM_SENSOR_FAULTS : RegInfo := { base := 0x50284, access := .rc }
/-- R484. -/
def THM_CAL_ABANDONED : RegInfo := { base := 0x50288, access := .rc }

/-- The registers of block THM. -/
def allThm : List RegInfo :=
  [THM_CTRL, THM_STATUS, THM_REQ, THM_THROTTLE_START, THM_DWELL_K, THM_SCALE_K, THM_FALLBACK_OFFSET,
   THM_HEAD_SCALE, THM_SUPPLY_LIMIT, THM_RESULT, THM_RESULT_TT, THM_REMOTE_CFG, THM_REMOTE_NOM, THM_REMOTE_LIMIT,
   THM_CAL_DUE, THM_CAL_RUN, THM_CAL_STATUS, THM_CAL_ITEM, THM_CAL_REF, THM_CONVERSIONS, THM_SENSOR_FAULTS,
   THM_CAL_ABANDONED]

/-! ### SAF -/

/-- R519. -/
def SAF_CTRL : RegInfo := { base := 0x1A0000, fwAccess := some .w1s, level := .l0, mask := 0x1, w1s := 0x1 }
/-- R519. -/
def SAF_STATUS : RegInfo := { base := 0x1A0004 }
/-- R519. -/
def SAF_MAX_WIDTH : RegInfo := { base := 0x1A0008, fwAccess := some .rwl, level := .l0, mask := 0xFFF }
/-- R519. -/
def SAF_LINE_SUM_MAX : RegInfo := { base := 0x1A000C, fwAccess := some .rwl, level := .l0 }
/-- R519. -/
def SAF_DUTY_MAX : RegInfo := { base := 0x1A0010, fwAccess := some .rwl, level := .l0, mask := 0xFFFF }
/-- R519. -/
def SAF_AXIS_RULE : RegInfo := { base := 0x1A001C, fwAccess := some .rwl, level := .l0, mask := 0x3F3F }
/-- R519. -/
def SAF_ESTOP_CFG : RegInfo := { base := 0x1A0020, fwAccess := some .rwl, reset := 0x1F401F4, level := .l0 }
/-- R519. -/
def SAF_TRIP : RegInfo := { base := 0x1A0024 }
/-- R519. -/
def SAF_TRIPS : RegInfo := { base := 0x1A0028, access := .rc }
/-- R519. -/
def SAF_LAST_LINE_SUM : RegInfo := { base := 0x1A002C, level := .l2 }
/-- R519. -/
def SAF_LAST_DUTY : RegInfo := { base := 0x1A0030, level := .l2 }
/-- R519. -/
def SAF_BEAM_DROPS : RegInfo := { base := 0x1A0034, access := .rc }
/-- R519. -/
def SAF_ENV_MARGIN : RegInfo := { base := 0x1A0038, bytes := 8, fwAccess := some .rwl, level := .l0, mask := 0xFFFFFFFFFF }

/-- The registers of block SAF. -/
def allSaf : List RegInfo :=
  [SAF_CTRL, SAF_STATUS, SAF_MAX_WIDTH, SAF_LINE_SUM_MAX, SAF_DUTY_MAX, SAF_AXIS_RULE, SAF_ESTOP_CFG, SAF_TRIP,
   SAF_TRIPS, SAF_LAST_LINE_SUM, SAF_LAST_DUTY, SAF_BEAM_DROPS, SAF_ENV_MARGIN]

/-! ### HSV -/

/-- R521. -/
def HSV_STATUS : RegInfo := { base := 0x1C0000 }
/-- R521. -/
def HSV_CTRL : RegInfo := { base := 0x1C0004, access := .w1s, mask := 0x3 }
/-- R521. -/
def HSV_SERIAL : RegInfo := { base := 0x1C0010, stride := 0x4, count := 4 }
/-- R521. -/
def HSV_LINKS : RegInfo := { base := 0x1C0020 }
/-- R521. -/
def HSV_BEAMLETS : RegInfo := { base := 0x1C0024 }
/-- R521. -/
def HSV_ISSUER : RegInfo := { base := 0x1C0028, reset := 0xFF }
/-- R521. -/
def HSV_USAGE_DISCARD : RegInfo := { base := 0x1C002C, access := .wo, mask := 0xFF }
/-- R521. -/
def HSV_BUS_ERRORS : RegInfo := { base := 0x1C0030, access := .rc }
/-- R521. -/
def HSV_FLUSHES : RegInfo := { base := 0x1C0034, access := .rc }
/-- R521. -/
def HSV_USAGE : RegInfo := { base := 0x1C0100, stride := 0x8, count := 64, bytes := 8, level := .backup }
/-- R521. -/
def HSV_GEOM : RegInfo := { base := 0x1C1000, stride := 0x4, count := 560 }

/-- The registers of block HSV. -/
def allHsv : List RegInfo :=
  [HSV_STATUS, HSV_CTRL, HSV_SERIAL, HSV_LINKS, HSV_BEAMLETS, HSV_ISSUER, HSV_USAGE_DISCARD, HSV_BUS_ERRORS,
   HSV_FLUSHES, HSV_USAGE, HSV_GEOM]

/-! ### DBG -/

/-- R522. -/
def DBG_STATUS : RegInfo := { base := 0x1E0000 }
/-- R522. -/
def DBG_REQUEST : RegInfo := { base := 0x1E0004, access := .wo, mask := 0x307 }
/-- R522. -/
def DBG_RELOCK : RegInfo := { base := 0x1E0008, access := .wo }
/-- R522. -/
def DBG_CTRL : RegInfo := { base := 0x1E000C, access := .w1s, mask := 0x1 }
/-- R522. -/
def DBG_CHALLENGE : RegInfo := { base := 0x1E0010, stride := 0x4, count := 8 }
/-- R522. -/
def DBG_RESPONSE : RegInfo := { base := 0x1E0040, stride := 0x4, count := 24, access := .wo }
/-- R522. -/
def DBG_PUBKEY : RegInfo := { base := 0x1E00A0, stride := 0x4, count := 24, access := .wo }

/-- The registers of block DBG. -/
def allDbg : List RegInfo :=
  [DBG_STATUS, DBG_REQUEST, DBG_RELOCK, DBG_CTRL, DBG_CHALLENGE, DBG_RESPONSE, DBG_PUBKEY]

/-! ### PIN -/

/-- R540. -/
def PIN_IN : RegInfo := { base := 0x1D0000 }
/-- R540. -/
def PIN_OUT : RegInfo := { base := 0x1D0004, access := .rw, mask := 0xFF }
/-- R540. -/
def PIN_OUT_STATUS : RegInfo := { base := 0x1D0008 }
/-- R540. -/
def PIN_OUT_CFG : RegInfo := { base := 0x1D000C, access := .rw, mask := 0xFF }
/-- R540. -/
def PIN_FAULT : RegInfo := { base := 0x1D0010, access := .w1c }
/-- R540. -/
def PIN_GPIN_EDGE : RegInfo := { base := 0x1D0014, access := .rw, mask := 0xFFFF }
/-- R540. -/
def PIN_DEBOUNCE : RegInfo := { base := 0x1D0018, access := .rw, reset := 0x5, mask := 0xFF }
/-- R540. -/
def PIN_COOLANT_CFG : RegInfo := { base := 0x1D001C, access := .rw, reset := 0x141400, mask := 0xFFFFFF03 }
/-- R540. -/
def PIN_COOLANT_RATE : RegInfo := { base := 0x1D0020 }
/-- R540. -/
def PIN_IO_SUPPLY : RegInfo := { base := 0x1D0024 }
/-- R540. -/
def PIN_FAULTS : RegInfo := { base := 0x1D0028, access := .rc }
/-- R540. -/
def PIN_GPIN_EDGES : RegInfo := { base := 0x1D002C, access := .rc }

/-- The registers of block PIN. -/
def allPin : List RegInfo :=
  [PIN_IN, PIN_OUT, PIN_OUT_STATUS, PIN_OUT_CFG, PIN_FAULT, PIN_GPIN_EDGE, PIN_DEBOUNCE, PIN_COOLANT_CFG,
   PIN_COOLANT_RATE, PIN_IO_SUPPLY, PIN_FAULTS, PIN_GPIN_EDGES]

/-! ### IDC -/

/-- R546. -/
def IDC_PART : RegInfo := { base := 0x0, reset := 0x262, level := .l0 }
/-- R546. -/
def IDC_STEPPING : RegInfo := { base := 0x4, level := .l0 }
/-- R546. -/
def IDC_SERIAL : RegInfo := { base := 0x10, stride := 0x4, count := 4, level := .l0 }
/-- R546. -/
def IDC_CAP0 : RegInfo := { base := 0x20, reset := 0x8008004, level := .l0 }
/-- R546. -/
def IDC_CAP1 : RegInfo := { base := 0x24, reset := 0x647F2077, level := .l0 }
/-- R546. -/
def IDC_CAP2 : RegInfo := { base := 0x28, reset := 0x10400100, level := .l0 }
/-- R546. -/
def IDC_CAP3 : RegInfo := { base := 0x2C, reset := 0x3040100, level := .l0 }
/-- R546. -/
def IDC_CAP4 : RegInfo := { base := 0x30, reset := 0x84100060, level := .l0 }
/-- R546. -/
def IDC_FEATURES : RegInfo := { base := 0x34, reset := 0x7F, level := .l0 }
/-- R546. -/
def IDC_SCRATCH : RegInfo := { base := 0x40, access := .rw }
/-- R546. -/
def IDC_BAD_ACCESS : RegInfo := { base := 0x44, access := .rc }

/-- The registers of block IDC. -/
def allIdc : List RegInfo :=
  [IDC_PART, IDC_STEPPING, IDC_SERIAL, IDC_CAP0, IDC_CAP1, IDC_CAP2, IDC_CAP3, IDC_CAP4, IDC_FEATURES,
   IDC_SCRATCH, IDC_BAD_ACCESS]

/-! ### EVT -/

/-- R552. -/
def EVT_STATUS : RegInfo := { base := 0x20000 }
/-- R552. -/
def EVT_PENDING : RegInfo := { base := 0x20100, stride := 0x4, count := 8, access := .w1c }
/-- R552. -/
def EVT_VEC_MOD : RegInfo := { base := 0x20400, stride := 0x4, count := 64, access := .rw, mask := 0xFFFF }
/-- R552. -/
def EVT_CFG : RegInfo := { base := 0x21000, stride := 0x4, count := 256, access := .rw, reset := 0x3F01, mask := 0x3FFF }
/-- R552. -/
def EVT_COUNT : RegInfo := { base := 0x22000, stride := 0x4, count := 256, access := .rc }
/-- R552. -/
def MSIX_ADDR_LO : RegInfo := { base := 0x28000, stride := 0x10, count := 64, access := .rw }
/-- R552. -/
def MSIX_ADDR_HI : RegInfo := { base := 0x28004, stride := 0x10, count := 64, access := .rw }
/-- R552. -/
def MSIX_DATA : RegInfo := { base := 0x28008, stride := 0x10, count := 64, access := .rw }
/-- R552. -/
def MSIX_CTRL : RegInfo := { base := 0x2800C, stride := 0x10, count := 64, access := .rw, reset := 0x1, mask := 0x1 }
/-- R552. -/
def MSIX_PBA : RegInfo := { base := 0x29000, bytes := 8 }

/-- The registers of block EVT. -/
def allEvt : List RegInfo :=
  [EVT_STATUS, EVT_PENDING, EVT_VEC_MOD, EVT_CFG, EVT_COUNT, MSIX_ADDR_LO, MSIX_ADDR_HI, MSIX_DATA, MSIX_CTRL,
   MSIX_PBA]

/-- Every register of BAR0. -/
def all : List RegInfo :=
  allCtl ++ allHif ++ allDpi ++ allThe ++ allBsc ++ allPlc ++ allLnk ++ allMnd ++ allMot ++
  allCam ++ allArb ++ allMemc ++ allEcc ++ allUdma ++ allCrc ++ allFcd ++ allTsy ++
  allPwr ++ allRst ++ allFus ++ allThm ++ allSaf ++ allHsv ++ allDbg ++ allPin ++ allIdc ++ allEvt

end Sys2Proof.Machine.R
end

