-- ==== Sys2Proof/Machine/StateCtl.lean ====
section
/-! DEFINITION. The state of the mode control beside its registers (R17 to R41): requests, machine inputs and outputs, and the
policy the firmware holds (R502 to R507). -/

namespace Sys2Proof.Machine

/-- An OP_SET_MODE that waits (R24, R25): its ring and index, its target, and whether it waits for the die conversion. -/
structure ModeRequest where
  ring : Nat
  index : Nat
  target : Nat
  waitDie : Bool := false
  deriving DecidableEq, Repr

/-- The connectors (R532 to R538) beside their registers: IO_24V is in range and accepted; it is there, so that the isolated inputs
and outputs act; it was lost since its first acceptance (R534); the
first write to the PIN block has been made (R460); channels found cross-shorted in their last test pulse (R533); per input, E in
ns at its last EV_GPIN_CHANGE and the edges coalesced since (R538); the coolant rate judged active in the last window (R535). -/
structure PinState where
  ioOk : Bool := false
  ioPresent : Bool := false
  ioLost : Bool := false
  gpTaken : Bool := false
  crossBad : List Nat := []
  gpinLast : Table Nat := []
  gpinMore : Table Nat := []
  coolRaw : Bool := false
  deriving DecidableEq, Repr

/-- Mode control, machine inputs and outputs, policy. -/
structure CtlState where
  pin : PinState := {}
  request : Option ModeRequest := none
  /-- The mode that CALIBRATE returns to (R20). -/
  calFrom : Nat := 3
  /-- The mode the entry to HOLD came from (R18). -/
  holdFrom : Nat := 3
  /-- The mode at the present reset episode's first assertion (R36). -/
  modeAtReset : Nat := 0
  /-- BRINGUP has been entered since the pins took their reset state (R19, R460). -/
  takenOver : Bool := true
  /-- BEAM_ENABLE is asserted, and the safety relay closed (R18, R19). -/
  beamEnable : Bool := false
  relay : Bool := false
  /-- E-stop channels that read open, both until IO_24V is first accepted (R534), and the reset input has pulsed since both closed (R26, R492). -/
  estopOpen : List Nat := [0, 1]
  estopReset : Bool := false
  /-- Both channels count as open until both have been seen open together (R493); E in ns at the opening, and at the first
  standstill of every axis since. -/
  estopDisc : Bool := false
  estopNs : Nat := 0
  estopStill : Option Nat := some 0
  /-- Axes whose envelope check fails (R490); a write after the lock has been reported (R487). -/
  envBad : List Nat := []
  /-- The trip conditions that hold: cause, and port or axis (R491, R492). -/
  trips : List (Nat × Nat) := []
  lockWrite : Bool := false
  /-- A debug request that waits for its response: scope and key slot (R508). -/
  debug : Option (Nat × Nat) := none
  /-- The beam permit and coolant inputs read active (R26, R535). -/
  permit : Bool := false
  coolant : Bool := false
  /-- Policy: homing records by 16 × axis + index, calibration items, hold rules, camera schedules (R503, R504). -/
  homing : Table (List Byte) := []
  calItems : Table (List Byte) := []
  holdRules : List Byte := []
  schedules : Table (List Byte) := []
  /-- A HOLD_RULES threshold has been reached, and the firmware is to request HOLD (R507); E in ns at the last pulse of each camera
  schedule (R330, R503). -/
  holdWanted : Bool := false
  schedNs : Table Nat := []
  /-- The ports whose loss has set LINK_LOST since the bit was last cleared (R26). -/
  lostPorts : List Nat := []
  /-- Bezel withholds every motion enable after an E-stop (R493). -/
  motionHold : Bool := true
  deriving DecidableEq, Repr

/-- Supply and reset (R435 to R465). -/
structure PwrState where
  /-- Reset sources asserted, by code (R444), and the level HOSTCMD asks for (R446). -/
  asserted : List Nat := []
  hostLevel : Nat := 2
  /-- A reset episode is open (R454): its source mask and widest level, and the TT of its first assertion. -/
  episode : Bool := false
  mask : Nat := 0
  widest : Nat := 2
  firstTt : Nat := 0
  /-- The level whose release sequence has yet to run, and the step a running sequence waits at (R450, R451). -/
  due : Option Nat := none
  step : Nat := 0
  input : ReleaseIn := {}
  /-- The rail fault that caused the episode: rail, cause, voltage (R454). -/
  rail : Option (Nat × Nat × Nat) := none
  /-- The watchdog expired in this episode, with its timeout (R517); half of it has been reported. -/
  wdogExpired : Option Nat := none
  wdogHalf : Bool := false
  /-- An open dip (R440): E in ns at its first WARN, the lowest BULK, and whether the supply-hold time has run out. -/
  dip : Option Nat := none
  lowest : Nat := 0
  holdDone : Bool := false
  /-- Mains (R437): a loss is declared, its TT and E in ns at the last valid peak, the valid half-cycles since. -/
  lost : Bool := false
  lossTt : Nat := 0
  lastPeak : Nat := 0
  validRun : Nat := 0
  runPeak : Nat := 0
  /-- E has started again since the dip opened, and since the loss was declared: how long each has lasted is not known. -/
  dipCut : Bool := false
  lossCut : Bool := false
  /-- THERMTRIP or BROWNOUT keeps the rails off (R443, R448). -/
  railsOff : Bool := false
  /-- A fuse load was interrupted (R459); the backup domain was lost (R456). -/
  fuseCut : Bool := false
  backupLost : Bool := false
  deriving DecidableEq, Repr

/-- A conversion that waits or runs (R467): its sensor, its priority, and who asked for it. -/
structure Conv where
  sensor : Nat
  prio : Nat
  who : List Nat := []
  deriving DecidableEq, Repr

/-- A calibration run (R480, R481): the items not yet completed, the running one first; E in ns at its start; the gap. -/
structure CalRun where
  items : List Nat
  startNs : Nat
  gap : Nat
  /-- OP_CAL_REQUEST named the running item: it stays due (R483). -/
  again : Bool := false
  deriving DecidableEq, Repr

/-- The sensor block (R466 to R484) beside its registers. -/
structure ThmState where
  queue : List Conv := []
  converting : Option Conv := none
  /-- Runs of implausible and plausible die results, and the previous result with E in ns (R469). -/
  implausible : Nat := 0
  plausible : Nat := 0
  prevDie : Option (Int × Nat) := none
  /-- EV_THM_HARD has been posted for an invalid die reading (R470). -/
  invalidPosted : Bool := false
  /-- Sensors in a run of faults (R468); thresholds 0 to 3 whose event has been posted and that have not re-armed (R471). -/
  faultRun : List Nat := []
  posted : List Nat := []
  /-- Head inputs: the band (0 below, 1 soft, 2 hard, 3 fault), and inputs whose SOFT or HARD has not re-armed (R474). -/
  band : Table Nat := []
  softPosted : List Nat := []
  hardPosted : List Nat := []
  /-- The head inputs that have set HEAD_TEMP_HARD since the bit was last cleared (R26). -/
  hardBy : List Nat := []
  /-- The cause of the head-supply excursion under way, and the throttle zone (R473, R476). -/
  supplyOut : Nat := 0
  zone : Nat := 0
  run : Option CalRun := none
  /-- Results staged as pending, by item (R478). -/
  staged : Table CalResult := []
  deriving DecidableEq, Repr

/-- Head services (R510 to R516) beside their registers. -/
structure HeadState where
  /-- ns fired per usage group since the last merge, and the delta, in-flight and orphan sets (R514 to R516). -/
  running : Table Nat := []
  delta : Table Nat := []
  inflight : Table Nat := []
  orphan : Table Nat := []
  /-- The sequence of a pending flush, and the serial the counts belong to; the serial of the orphan set, and whether it holds
  counts of another one too (R515, R516). -/
  pending : Option Nat := none
  serial : Nat := 0
  orphanSerial : Nat := 0
  mixed : Bool := false
  /-- Groups whose saturation has been reported in the delta set, on the head and in the orphan set (R514). -/
  satDelta : List Nat := []
  satHead : List Nat := []
  satOrphan : List Nat := []
  /-- The challenge of a running authentication, and the head_id last authenticated (R512). -/
  challenge : List Byte := []
  headId : Option Nat := none
  deriving DecidableEq, Repr

/-- A sensor write or a delay of a settings block (R335). -/
structure SensorOp where
  delay : Bool
  addr : Nat := 0
  regWidth : Nat := 0
  reg : Nat := 0
  data : List Byte := []
  us : Nat := 0
  /-- Bytes it reads or writes. -/
  len : Nat := 0
  deriving DecidableEq, Repr

/-- A queued settings change (R332 to R335). -/
structure Change where
  /-- Its identity among the changes that were queued. -/
  id : Nat := 0
  target : Nat
  cookie : Nat
  resetRef : Bool := false
  /-- It holds a sensor write; the operations not yet done; they have been issued. -/
  writes : Bool := false
  ops : List SensorOp := []
  issued : Bool := false
  pages : List (Nat × List Byte) := []
  /-- The frame A at which it takes effect, once known, and whether it is LATE. -/
  frameA : Option Nat := none
  late : Bool := false
  deriving DecidableEq, Repr

/-- A frame of a context, from its Frame Start until its map and statistics are done (R328 to R346). -/
structure CamFrame where
  context : Nat
  port : Nat
  vc : Nat
  number : Nat
  gen : Nat
  startTt : Nat
  /-- E at t_0 of R340, in 2^-32 ns, and the same as TT. -/
  t0 : Int
  t0Tt : Nat
  triggered : Bool
  doubt : Bool
  refReset : Bool := false
  /-- The active page, size and binding at the Frame Start. -/
  page : Table Nat
  width : Nat
  height : Nat
  carriage : Bool
  buffer : Option Nat
  received : Nat := 0
  invalid : Nat := 0
  overrun : Nat := 0
  extra : Nat := 0
  errBits : Nat := 0
  errCount : Nat := 0
  /-- Valid lines: those that wait in the line buffer by number, and those that stages 1 and 2 have done, with their pixels. -/
  waiting : Nat := 0
  lines : Table (List Nat) := []
  firstValid : Option Nat := none
  validCount : Nat := 0
  /-- The frame has ended, with its marks. -/
  ended : Bool := false
  isShort : Bool := false
  isLong : Bool := false
  deriving DecidableEq, Repr

/-- A camera context (R328 to R346). -/
structure CamCtx where
  /-- Words of the active page that are not zero. -/
  active : Table Nat := []
  queue : List Change := []
  /-- Lines of the reference that no frame has written since it became invalid; the reset waits to be flagged in a frame. -/
  refBad : List Nat := []
  refFresh : Bool := false
  /-- Map buffers held for the pipeline and THE, and for host software (R344). -/
  heldThe : List Nat := []
  heldHost : List Nat := []
  deriving DecidableEq, Repr

/-- A trigger pulse (R330): context, TT and E in 2^-32 ns at its start, VCs it has assigned a frame to, and whether it runs. -/
structure Pulse where
  context : Nat
  tt : Nat
  e : Int
  used : List Nat := []
  running : Bool := true
  deriving DecidableEq, Repr

/-- A control bus (R326): the settings changes whose writes are due as (context, identity), the E in 2^-32 ns before which a
SENSOR_DELAY holds the next of them, the transaction that runs as (settings, operation), and a direct command that waits. -/
structure CamBus where
  due : List (Nat × Nat) := []
  readyE : Int := 0
  current : Option (Bool × SensorOp) := none
  read : Bool := false
  direct : Option (Bool × SensorOp) := none
  deriving DecidableEq, Repr

/-- A line in a port's line buffer (R347). -/
structure BufLine where
  context : Nat
  frame : Nat
  line : Nat
  bytes : Nat
  samples : List Nat
  deriving DecidableEq, Repr

/-- The camera block (R324 to R351) beside its registers. -/
structure CamState where
  /-- Identity of the next settings change. -/
  nextChange : Nat := 0
  ctxs : Table CamCtx := []
  frames : List CamFrame := []
  pulses : Table Pulse := []
  buses : Table CamBus := []
  /-- Lines in the port buffers, oldest first; the port served last (R347). -/
  buffers : Table (List BufLine) := []
  lastPort : Nat := 3
  /-- Edge samples of AX0 and AX1 while a carriage-mounted context is enabled, newest first: E in 2^-32 ns, position (R341). -/
  samples : Table (List (Int × Int)) := []
  deriving DecidableEq, Repr

end Sys2Proof.Machine
end

