-- ==== Sys2Proof/Machine/StateHost.lean ====
section
/-! DEFINITION. The state of the host interface and of the event controller beside their registers: rings, host DMA
channels, translation and walk caches, held events and vectors. -/

namespace Sys2Proof.Machine

/-- What a completion will say (R57): status, reason, and the 16 result bytes as a number. -/
structure Cpl where
  status : Nat
  reason : Nat := 0
  result : Nat := 0
  deriving DecidableEq, Repr

/-- A data transfer between host memory and the module (R71 to R74). -/
structure Xfer where
  /-- First host address, in the ring's address space. -/
  addr : Nat
  len : Nat
  /-- True where the module writes host memory. -/
  toHost : Bool := false
  /-- What the module will write, for a transfer to the host. -/
  data : List Byte := []
  /-- Bytes completed. -/
  done : Nat := 0
  /-- The host DMA channel that carries it; none while it waits. -/
  chan : Option Nat := none
  /-- It stands at a page boundary and has not translated the next page. -/
  atBoundary : Bool := true
  /-- The bus address of its byte `done`, as translated (R76, R77). -/
  bus : Nat := 0
  deriving DecidableEq, Repr

/-- A descriptor that the module has read and not yet completed. -/
structure Job where
  index : Nat
  desc : Desc
  /-- Its execution has started (R54, R57). -/
  started : Bool := true
  /-- Its completion, waiting for ring order (R57). -/
  cpl : Option Cpl := none
  xfer : Option Xfer := none
  /-- A second transfer follows the first (a job that reads and then writes host memory). -/
  phase : Nat := 0
  /-- What the job computed so far. -/
  scratch : List Byte := []
  deriving DecidableEq, Repr

/-- An event entry not yet written (R550, R70). -/
structure EvEntry where
  number : Nat
  source : Nat
  severity : Nat
  saturated : Bool
  held : Bool
  word1 : Nat
  /-- TT at posting, and E in whole ns at posting (R64). -/
  tt : Nat
  wideNs : Nat
  detail : Nat
  irq : Bool
  vector : Nat
  /-- The ring of the route; none while a 0x3F route is open (R550). -/
  route : Option Nat
  deriving DecidableEq, Repr

/-- What the module keeps of one ring beside its registers. -/
structure RingInt where
  /-- The doorbell value last read (R55). -/
  db : Nat := 0
  /-- The index of the next descriptor to read. -/
  next : Nat := 0
  /-- Idle flag (R55, R63). -/
  idle : Bool := false
  /-- A mode change or OP_HELLO made the module read this ring: its doorbell is read once, as for a nudge (R62). -/
  mustRead : Bool := false
  /-- Event entries dropped (R55, R70). -/
  drops : Nat := 0
  /-- Descriptors read and not completed, oldest first. -/
  jobs : List Job := []
  /-- Entries waiting for space on a full EVENT ring (R70). -/
  store : List EvEntry := []
  /-- Cause and level of the translation fault the ring is FAULTED on (R78, R80). -/
  faultCause : Nat := 0
  faultIndex : Nat := 0
  /-- An ABORT resume has yet to complete the unread descriptors below this index with ABORTED (R81). -/
  abortTo : Option Nat := none
  deriving DecidableEq, Repr

/-- A cached leaf translation (R79). -/
structure TlbEntry where
  asid : Nat
  /-- Page number in units of 4 KiB, of the first page covered. -/
  vpn : Nat
  big : Bool
  page : Nat
  write : Bool
  deriving DecidableEq, Repr

/-- A cached L2 or L1 table entry (R79): level, the IOVA bits that select it, and the table it points to. -/
structure WalkEntry where
  asid : Nat
  level : Nat
  index : Nat
  table : Nat
  deriving DecidableEq, Repr

/-- The staging of one upload stream (R69) and its UPLOAD_BUFFER that is being filled (R68). -/
structure Stream where
  staged : List (List Byte) := []
  stagedBytes : Nat := 0
  /-- Records dropped since the stream's last completion, and in the present run of drops, with their bytes. -/
  dropped : Nat := 0
  runDrops : Nat := 0
  runBytes : Nat := 0
  deriving DecidableEq, Repr

/-- The host interface (R42 to R83). -/
structure HostState where
  busMaster : Bool := true
  linkUp : Bool := true
  aerUncorrectable : Nat := 0
  aerCorrectable : Nat := 0
  rings : Table RingInt := []
  /-- The ring number each of the four host DMA channels serves (R71). -/
  chans : Table Nat := []
  /-- The ring last granted a channel, for the round robin of R72. -/
  lastGrant : Nat := 31
  tlb : List TlbEntry := []
  walk : List WalkEntry := []
  /-- The page each transfer is in, as the cached translation it used: (ring, entry). -/
  pageInUse : List (Nat × TlbEntry) := []
  /-- Rings whose transfers used an invalidated entry and have not passed their page (R79). -/
  invalUsers : List Nat := []
  /-- The upload streams 0 to 7 (R69). -/
  streams : Table Stream := []
  /-- Writes and messages that wait for Bus Master Enable, oldest first (R44). -/
  held : List Out := []
  deriving DecidableEq, Repr

/-- The event controller (R548 to R553). -/
structure EvtState where
  /-- The held queue, oldest first (R550). -/
  held : List EvEntry := []
  /-- Vectors in holdoff, and vectors whose signals merged meanwhile (R551). -/
  holdoff : List Nat := []
  merged : List Nat := []
  /-- EVT_COUNT words whose overflow bit is set. -/
  overflowed : List Nat := []
  deriving DecidableEq, Repr

end Sys2Proof.Machine
end

