-- ==== Sys2Proof/Machine/StateMem.lean ====
section
/-! DEFINITION. The state of DRAM, SRAM, error correction and the arbiter beside their registers (R352 to R388). -/

namespace Sys2Proof.Machine

/-- An entry of the error log (R368). -/
structure EccEntry where
  tt : Nat
  addr : Nat
  type : Nat
  requester : Nat
  channel : Nat
  rank : Nat
  sub : Nat
  device : Nat
  count : Nat
  row : Nat
  column : Nat
  bank : Nat
  flags : Nat
  deriving DecidableEq, Repr

/-- A rank migration (R370): its start in ns, and the lines it has poisoned. -/
structure Migration where
  channel : Nat
  logical : Nat
  old : Nat
  new : Nat
  cause : Nat
  start : Nat
  /-- The copy pointer: lines of the logical rank copied. -/
  line : Nat := 0
  poisoned : Nat := 0
  deriving DecidableEq, Repr

/-- The descriptor that a helper DMA channel works on (R393), or its registers' setting: the swap mode, the spaces, whether it
posts UDMA_DONE, the end mark and the next offset as read, and the bytes to move. -/
structure UdmaWork where
  swap : Nat := 0
  srcSpace : Nat := 0
  dstSpace : Nat := 0
  irq : Bool := false
  eoc : Bool := true
  next : Nat := 0
  chain : Bool := false
  total : Nat := 0
  deriving DecidableEq, Repr

/-- Memory and its controllers. -/
structure MemState where
  /-- DRAM bytes by logical address; an unlisted byte has never been written (R359). -/
  dram : Table Byte := []
  /-- 64-byte lines that hold a poisoned value (R364). -/
  poison : List Nat := []
  /-- SRAM bytes by offset. -/
  sram : Table Byte := []
  /-- Injected errors (R388): DRAM lines with the device and whether two devices are hit; SRAM words by offset / 8. -/
  injected : List (Nat × Nat × Bool) := []
  sramInjected : List (Nat × Bool) := []
  /-- Accesses that a failed command carried: requester and line (R367). -/
  cmdFailed : List (Nat × Nat) := []
  /-- The error log, oldest first (R368). -/
  log : List EccEntry := []
  /-- Channels still in training, and the path (R357); its start in ns. -/
  training : List Nat := []
  cold : Bool := false
  /-- Self-refresh (R361 to R363): idle entry 0, STANDBY 1, reset 2; the requester that waits since its raise in ns. -/
  srReason : Nat := 0
  srWake : Option (Nat × Nat) := none
  /-- The running migration and the retirements that wait: channel, physical rank, cause (R370). -/
  migration : Option Migration := none
  retire : List (Nat × Nat × Nat) := []
  /-- E in ns at the start of each physical rank's CE window, and ranks whose threshold was reached in it (R370). -/
  windowNs : Table Nat := []
  windowHit : List Nat := []
  /-- Per channel: E in ns of the last EV_ECC_CE, and CEs since it (R384); the same per SRAM region. -/
  lastCe : Table Nat := []
  ceSince : Table Nat := []
  /-- Detail bytes 0 to 11 of the first CE since then. -/
  ceFirst : Table Nat := []
  lastSramCe : Table Nat := []
  sramCeSince : Table Nat := []
  /-- The patrol scrubber: the next line, the sweep's start in ns, CEs and UEs found in it (R372). -/
  scrubLine : Nat := 0
  scrubStart : Nat := 0
  scrubCe : Nat := 0
  scrubUe : Nat := 0
  /-- What each helper DMA channel works on (R389 to R397). -/
  udma : Table UdmaWork := []
  deriving DecidableEq, Repr

/-- The arbiter (R375 to R383). -/
structure ArbState where
  /-- Slots since reset. -/
  slotNo : Nat := 0
  /-- Requests by requester: E in ns at which each was raised (R377). -/
  requests : Table Nat := []
  /-- The holder, the burst limit it was granted under, and when its request was raised. -/
  holder : Option Nat := none
  limit : Nat := 64
  /-- Owed slots by requester, oldest first: the slot number of each (R379). -/
  owed : Table (List Nat) := []
  credit : Table Int := []
  /-- Slots lost since the last event, and the table wrap in which it was posted, by requester (R379). -/
  lost : Table Nat := []
  postedWrap : Table Nat := []
  deriving DecidableEq, Repr

end Sys2Proof.Machine
end

