-- ==== Sys2Proof/Machine/StateTime.lean ====
section
/-! DEFINITION. The state of the time unit beside its registers (R411 to R434). -/

namespace Sys2Proof.Machine

/-- A host SET or STEP that waits for the end of a pass (R417, R429). -/
structure HostStep where
  ring : Nat
  index : Nat
  isSet : Bool
  value : Nat
  deriving DecidableEq, Repr

/-- The time unit. -/
structure TimeState where
  /-- E: whole nanoseconds (64 bits) and the fraction in 2^-32 ns (R411). -/
  ns : Nat := 0
  frac : Nat := 0
  /-- The wrap count last reported (R413). -/
  wrapSeen : Nat := 0
  /-- Consecutive samples below the threshold, and above four times it (R418). -/
  lockCount : Nat := 0
  badCount : Nat := 0
  /-- The servo's pending step, in 2^-16 ns (R417). -/
  pendServo : Option Int := none
  /-- The host's pending SETs and STEPs, oldest first (R429). -/
  pendHost : List HostStep := []
  /-- E was stepped and the position fit has not been rebuilt since (R211). -/
  fitStale : Bool := false
  /-- EV_PPS_MISSING stands posted since the last edge (R426). -/
  ppsMissPosted : Bool := false
  /-- The PPS output pulse is running (R425). -/
  ppsPulse : Bool := false
  /-- The faults of each port's cage, by their causes (R424). -/
  cageFault : Table (List Nat) := []
  deriving DecidableEq, Repr

end Sys2Proof.Machine
end

