-- ==== Sys2Proof/Machine/State.lean ====
section
/-! DEFINITION. The state of the module: the command queue, every register of BAR0, and the state of each block that the
spec names beside its registers. -/

namespace Sys2Proof.Machine

/-- Why the machine stops.  No command stops it: the spec gives every command of the table its effect, and where a command
finds its condition not met it changes nothing.  The one constructor stands so that the type is inhabited. -/
inductive Fault where
  /-- Raised by nothing; safe. -/
  | none
  deriving DecidableEq, Repr

/-- Why a command has no meaning.  Every command has one, so no arm of `exec` answers with it. -/
inductive Refusal where
  /-- Raised by nothing: it stands for an arm that has no meaning yet, and there is none; safe. -/
  | notModelled (mnemonic : String)
  deriving DecidableEq, Repr

/-- The module: plain data. -/
structure State where
  /-- Commands that wait, first in, first out. -/
  pending : List Instr
  /-- The registers of BAR0 by address; one that is not listed stands at its reset value (R13). -/
  regs : Table (BitVec 64)
  /-- Low halves written and not yet taken by their high half, by base address (R12). -/
  heldLow : Table (BitVec 32)
  /-- High halves latched by a read of their low half, by base address (R12). -/
  latchedHigh : Table (BitVec 32)
  /-- What has left the module, newest first. -/
  out : List Out
  /-- The number of free values used up: the model's own field (log entry 3). -/
  freeCtr : Nat
  /-- The host interface (R42 to R83). -/
  host : HostState
  /-- The event controller (R548 to R553). -/
  evt : EvtState
  /-- The time unit (R411 to R434). -/
  time : TimeState
  /-- DRAM, SRAM, their controllers and the helper engines (R352 to R410). -/
  mem : MemState
  /-- The arbiter (R375 to R383). -/
  arb : ArbState
  /-- The axes 0 to 5 (R293 to R323). -/
  mot : Table Axis
  /-- The dose path: layers, passes, frames, dose-link ports, the mend stage (R84 to R292). -/
  dose : DoseState
  /-- Modes, machine inputs and outputs, Bezel, policy (R17 to R41, R485 to R509, R525 to R542). -/
  ctl : CtlState
  /-- Supply and reset (R435 to R465). -/
  pwr : PwrState
  /-- The sensor block and calibration (R466 to R484). -/
  thm : ThmState
  /-- Head services (R510 to R516). -/
  head : HeadState
  /-- The cameras (R324 to R351). -/
  cam : CamState
  deriving DecidableEq, Repr

/-- The module right after the release of a power-on reset: every register at the reset value of its row (R13), the mode
BRINGUP (R20, R34), the fuse load and the training of the four DRAM channels still to come (R357, R457), nothing waiting, no
axis, pass, frame or port in use.  What the spec gives no value for stands at the value that log entry 2 names. -/
def State.reset : State where
  pending := []
  regs := []
  heldLow := []
  latchedHigh := []
  out := []
  freeCtr := 0
  host := {}
  evt := {}
  time := {}
  mem := { training := [0, 1, 2, 3], cold := true }
  arb := {}
  mot := []
  dose := {}
  ctl := {}
  pwr := {}
  thm := {}
  head := {}
  cam := {}

end Sys2Proof.Machine
end

