-- ==== Sys2Proof/Machine/Ops.lean ====
section
/-! DEFINITION. The named operations that every meaning uses: register reads and writes, counters, free values, what leaves
the module. -/

namespace Sys2Proof.Machine

/-- The BAR0 address of instance `i` of a register; a number beyond the row's instances names no other row's register. -/
def regAddr (r : RegInfo) (i : Nat := 0) : Nat := r.base + r.stride * (i % r.count)
/-- The content of a register; an unlisted register stands at its reset value (R13). -/
def rd (r : RegInfo) (s : State) (i : Nat := 0) : Nat :=
  (tget (BitVec.ofNat 64 r.reset) s.regs (regAddr r i)).toNat
/-- The module's own write of a register: no access rule applies. -/
def wr (r : RegInfo) (v : Nat) (s : State) (i : Nat := 0) : State :=
  { s with regs := tset s.regs (regAddr r i) (BitVec.ofNat 64 (v % 2 ^ (8 * r.bytes))) }
/-- A field of a register. -/
def rdf (r : RegInfo) (lo len : Nat) (s : State) (i : Nat := 0) : Nat := bits lo len (rd r s i)
/-- The module's own write of a field. -/
def wrf (r : RegInfo) (lo len v : Nat) (s : State) (i : Nat := 0) : State := wr r (setBits lo len v (rd r s i)) s i
/-- A one-bit field as a Bool. -/
def rdb (r : RegInfo) (n : Nat) (s : State) (i : Nat := 0) : Bool := bit n (rd r s i)
/-- The module's own write of a one-bit field. -/
def wrb (r : RegInfo) (n : Nat) (b : Bool) (s : State) (i : Nat := 0) : State := wrf r n 1 (b2n b) s i
/-- A signed register. -/
def rdI (r : RegInfo) (s : State) (i : Nat := 0) : Int := sext (8 * r.bytes) (rd r s i)
/-- The module's own write of a signed register. -/
def wrI (r : RegInfo) (v : Int) (s : State) (i : Nat := 0) : State := wr r (toBits (8 * r.bytes) v) s i

/-- An address belongs to a register row. -/
def regCovers (r : RegInfo) (a : Nat) : Bool :=
  if r.stride = 0 then a == r.base
  else decide (r.base ≤ a) && (a - r.base) % r.stride == 0 && decide ((a - r.base) / r.stride < r.count)
/-- The instance of a register row at an address. -/
def regIndex (r : RegInfo) (a : Nat) : Nat := if r.stride = 0 then 0 else (a - r.base) / r.stride
/-- Something leaves the module. -/
def emit (o : Out) (s : State) : State := { s with out := o :: s.out }
/-- The next free value, and the state that has used it up (log entry 3). -/
def fresh (s : State) : Nat × State := (Config.freeNat s.freeCtr, { s with freeCtr := s.freeCtr + 1 })

/-- A HOLD_RULES threshold, 0 for never, is reached: the firmware is to request HOLD (R503, R507).  It writes CTL_HOLD_REQ at the next TCLK
edge (log entry 62). -/
def askHold (limit count : Nat) (s : State) : State :=
  if limit ≠ 0 ∧ limit ≤ count then { s with ctl := { s.ctl with holdWanted := true } } else s
/-- A field of the HOLD_RULES record (R503), 0 where none is loaded. -/
def holdRule (s : State) (off len : Nat) : Nat := bytesAt s.ctl.holdRules off len
/-- A happening that HOLD_RULES byte 4 names by its bit: 0 echo mismatch, 1 time unlock, 2 head supply limit (R503). -/
def holdFlag (b : Nat) (s : State) : State := askHold 1 (holdRule s 4 1 / 2 ^ b % 2) s

/-- Adds `n` to a saturating counter of `w` bits with its overflow bit above it; `sat` runs the first time it saturates
(R14). -/
def bumpW (w : Nat) (r : RegInfo) (n : Nat) (sat : State → State) (s : State) (i : Nat := 0) : State :=
  let v := rd r s i
  let c := bits 0 w v
  let top := 2 ^ w - 1
  if c ≥ top then s
  else if c + n ≥ top then sat (wr r (2 ^ w + top) s i)
  else wr r (v + n) s i
/-- Adds `n` to a counter with its overflow bit in bit 31. -/
def bump (r : RegInfo) (n : Nat) (sat : State → State) (s : State) (i : Nat := 0) : State := bumpW 31 r n sat s i
/-- Keeps the largest value seen in a peak register. -/
def peak (r : RegInfo) (v : Nat) (s : State) (i : Nat := 0) : State := if rd r s i < v then wr r v s i else s

/-- A fold over a list, each element changing the state in turn. -/
def each {α : Type} (l : List α) (f : α → State → State) (s : State) : State := l.foldl (fun s a => f a s) s
/-- `f` where the test holds, otherwise no change. -/
def sif (b : Bool) (f : State → State) (s : State) : State := if b then f s else s

end Sys2Proof.Machine
end

