-- ==== Sys2Proof/Machine/Memory.lean ====
section
/-! DEFINITION. Reads and writes of DRAM and SRAM bytes. -/

namespace Sys2Proof.Machine

/-- The size of the logical DRAM space: 256 GiB (R352). -/
def dramSize : Nat := 2 ^ 38
/-- The size of SRAM: 96 MiB. -/
def sramSize : Nat := 96 * 2 ^ 20

/-- The canonical form of a memory: its addresses rise strictly.  No listed byte equals what an unlisted address reads as,
because an unlisted address reads as no value. -/
def Memory.wf (m : List Host.Cell) : Bool := tsorted m

/-- One byte of DRAM: none where nothing has written it (R359). -/
def dramByte? (s : State) (a : Nat) : Option Byte := tget? s.mem.dram a
/-- One byte of DRAM as the module uses it: a free value where nothing has written it. -/
def dramByte (s : State) (a : Nat) : Byte := (dramByte? s a).getD (Config.freeByte a)
/-- `len` bytes of DRAM from `a`. -/
def readDram (s : State) (a len : Nat) : List Byte := (List.range len).map (fun i => dramByte s (a + i))
/-- A number in DRAM, low byte first. -/
def readDramN (s : State) (a len : Nat) : Nat := ofBytes (readDram s a len)
/-- A byte table with the bytes `bs` from address `a`. -/
def putBytes : Table Byte → Nat → List Byte → Table Byte
  | m, _, [] => m
  | m, a, b :: r => putBytes (tset m a b) (a + 1) r
/-- A line number that a write of `n` bytes from `a` covers whole. -/
def coversLine (a n l : Nat) : Bool := decide (a ≤ 64 * l) && decide (64 * l + 64 ≤ a + n)
/-- An armed DRAM injection at the line of ECC_INJECT_ADDR (R388). -/
def injectArmed (s : State) : Bool := rdb R.ECC_INJECT 0 s && !rdb R.ECC_INJECT 2 s
/-- Writes bytes to DRAM.  A line that is written whole holds neither a poisoned value nor an injected error any more, but for
an injection that is armed for it (R364, R365, R388). -/
def writeDram (a : Nat) (bs : List Byte) (s : State) : State :=
  let hit := rd R.ECC_INJECT_ADDR s / 64
  let inj := injectArmed s && coversLine a bs.length hit
  let kept := s.mem.injected.filter (fun e => !coversLine a bs.length e.1)
  let s := { s with mem := { s.mem with
      dram := putBytes s.mem.dram a bs
      poison := s.mem.poison.filter (fun l => !coversLine a bs.length l)
      injected := if inj then (hit, rdf R.ECC_INJECT 4 3 s, rdb R.ECC_INJECT 1 s) :: kept else kept } }
  if inj then wrb R.ECC_INJECT 0 false s else s
/-- Writes a number to DRAM, low byte first. -/
def writeDramN (a len v : Nat) (s : State) : State := writeDram a (leBytes len v) s
/-- A line number reads with an uncorrectable error whatever its bytes: poisoned, or an injected error of two devices. -/
def lineBad (s : State) (l : Nat) : Bool := s.mem.poison.contains l || s.mem.injected.any (fun e => e.1 == l && e.2.2)
/-- A DRAM read of `len` bytes from `a` meets an uncorrectable error: a byte nothing has written or a bad line (R359, R364). -/
def dramUE (s : State) (a len : Nat) : Bool :=
  (List.range len).any (fun i => (dramByte? s (a + i)).isNone || lineBad s ((a + i) / 64))
/-- One byte of SRAM as the module uses it. -/
def sramByte (s : State) (a : Nat) : Byte := (tget? s.mem.sram a).getD (Config.freeByte (dramSize + a))
/-- `len` bytes of SRAM from `a`. -/
def readSram (s : State) (a len : Nat) : List Byte := (List.range len).map (fun i => sramByte s (a + i))
/-- A 64-bit word of SRAM that a write of `n` bytes from `a` covers whole. -/
def coversWord (a n w : Nat) : Bool := decide (a ≤ 8 * w) && decide (8 * w + 8 ≤ a + n)
/-- Writes bytes to SRAM.  A word that is written whole holds no injected error any more, but for an injection that is armed for it
(R373, R388). -/
def writeSram (a : Nat) (bs : List Byte) (s : State) : State :=
  let hit := rd R.ECC_INJECT_ADDR s / 8
  let inj := rdb R.ECC_INJECT 0 s && rdb R.ECC_INJECT 2 s && coversWord a bs.length hit
  let kept := s.mem.sramInjected.filter (fun e => !coversWord a bs.length e.1)
  let s := { s with mem := { s.mem with
      sram := putBytes s.mem.sram a bs
      sramInjected := if inj then (hit, rdb R.ECC_INJECT 1 s) :: kept else kept } }
  if inj then wrb R.ECC_INJECT 0 false s else s

end Sys2Proof.Machine
end

