-- ==== Sys2Proof/Machine/Events.lean ====
section
/-! DEFINITION. The event controller (R548 to R553), the vectors (R551), the writes to EVENT rings (R58, R70, R557) and the
status block (R55). -/

namespace Sys2Proof.Machine

/-- TT: 48 bits of nanoseconds above 16 bits of fraction (R411). -/
def ttNow (s : State) : Nat := s.time.ns % 2 ^ 48 * 65536 + s.time.frac / 65536 % 65536
/-- The signed difference a − b of two TT values, in ns (R15). -/
def ttDiff (a b : Nat) : Int := sdiff 48 (a / 65536) (b / 65536)
/-- The current mode code (R34). -/
def modeOf (s : State) : Nat := rdf R.CTL_MODE 0 3 s
/-- The negotiated host protocol version, 0 for none (R51). -/
def hostVersion (s : State) : Nat := rdf R.HIF_STATUS 0 2 s

/-- What the module keeps of ring `k`. -/
def ringInt (s : State) (k : Nat) : RingInt := tget {} s.host.rings k
/-- Changes what the module keeps of ring `k`. -/
def modRing (k : Nat) (f : RingInt → RingInt) (s : State) : State :=
  { s with host := { s.host with rings := tmod {} s.host.rings k f } }
/-- HIF_RING_STATE.state: 0 DISABLED, 1 IDLE, 2 ACTIVE, 3 FAULTED, 4 ERROR (R52). -/
def ringState (s : State) (k : Nat) : Nat := rdf R.HIF_RING_STATE 0 3 s k
/-- HIF_RING_CFG.type (R52). -/
def ringType (s : State) (k : Nat) : Nat := rdf R.HIF_RING_CFG 0 3 s k
/-- n of the ring's size 2^n (R52). -/
def ringLog2 (s : State) (k : Nat) : Nat := rdf R.HIF_RING_CFG 4 5 s k
/-- The phase valid at a free-running index (R59). -/
def phaseAt (n i : Nat) : Nat := 1 - i / 2 ^ n % 2

/-- The 32-byte status-block entry of a ring (R55). -/
def statusEntry (k : Nat) (s : State) : Entry :=
  BitVec.ofNat 256 (layout [(0, 4, (rd R.HIF_RING_CONS s k : Nat)), (4, 1, (ringState s k : Nat)),
    (5, 1, (b2n (ringInt s k).idle : Nat)), (6, 1, (rdf R.HIF_RING_STATE 8 8 s k : Nat)), (8, 4, ((ringInt s k).db : Nat)),
    (12, 4, ((if ringType s k = 4 then (ringInt s k).drops else 0 : Nat))), (16, 8, (ttNow s : Nat))])
/-- A write or a message to the host leaves the module; with Bus Master Enable clear it waits for it (R44). -/
def toHost (o : Out) (s : State) : State :=
  if s.host.busMaster then emit o s else { s with host := { s.host with held := s.host.held ++ [o] } }
/-- The module rewrites a ring's status-block entry (R55). -/
def writeStatus (k : Nat) (s : State) : State :=
  toHost (.status k (rd R.HIF_STATUS_BASE s / 4096 * 4096 + 32 * k) (statusEntry k s)) s
/-- A change of a ring's state, with its status write (R55). -/
def setRingState (k st : Nat) (s : State) : State := writeStatus k (wrf R.HIF_RING_STATE 0 3 st s k)

/-- An MSI-X message of a vector, or its PBA bit where the vector is masked (R551). -/
def sendVector (v : Nat) (s : State) : State :=
  if rdb R.MSIX_CTRL 0 s v then wrb R.MSIX_PBA v true s
  else
    let s := toHost (.msix v) s
    if rdf R.EVT_VEC_MOD 0 16 s v = 0 then s
    else { s with evt := { s.evt with holdoff := v :: s.evt.holdoff.filter (· != v) } }
/-- Signals a vector: merged while its holdoff runs (R551). -/
def signalVector (v : Nat) (s : State) : State :=
  if s.evt.holdoff.contains v then
    { s with evt := { s.evt with merged := if s.evt.merged.contains v then s.evt.merged else v :: s.evt.merged } }
  else sendVector v s

/-- An EVENT ring the module may write: enabled, of type EVENT, within HP1's rings, in a mode but DORMANT (R557). -/
def evRingOk (k : Nat) (s : State) : Bool :=
  decide (k < 32) && ringType s k == 4 && (ringState s k == 1 || ringState s k == 2) &&
    !(hostVersion s == 1 && decide (8 ≤ k)) && modeOf s != 0
/-- The lowest-numbered enabled EVENT ring (R550). -/
def lowestEvRing (s : State) : Option Nat := (List.range 32).find? (fun k => evRingOk k s)
/-- The doorbell of an EVENT ring holds the host's consumer index; there is room below 2^n entries (R58, R70). -/
def evRoom (k : Nat) (s : State) : Bool :=
  decide ((rd R.HIF_RING_CONS s k + 2 ^ 32 - (ringInt s k).db) % 2 ^ 32 < 2 ^ ringLog2 s k)
/-- The 8 time bytes of a completion or event entry, in the form of the version in force (R64). -/
def timeBytes (tt wide : Nat) (s : State) : Nat :=
  if hostVersion s = 1 ∨ hostVersion s = 2 then
    wide / 10 ^ 9 % 2 ^ 32 + 2 ^ 32 * (wide % 10 ^ 9)
  else tt
/-- The 32 bytes of an event entry at producer index `i` of a ring of 2^n entries (R58, R549). -/
def eventEntry (e : EvEntry) (n i : Nat) (s : State) : Entry :=
  BitVec.ofNat 256 (e.number % 256 + 2 ^ 8 * (e.source % 256) + 2 ^ 16 * (e.severity % 4) + 2 ^ 18 * b2n e.saturated +
    2 ^ 19 * b2n e.held + 2 ^ 31 * phaseAt n i + 2 ^ 32 * (e.word1 % 2 ^ 32) + 2 ^ 64 * timeBytes e.tt e.wideNs s +
    2 ^ 128 * (e.detail % 2 ^ 128))
/-- Writes an event entry into ring `k`, advances the producer index, then signals the vector (R58, R43, R551). -/
def writeEvent (k : Nat) (e : EvEntry) (s : State) : State :=
  let i := rd R.HIF_RING_CONS s k
  let n := ringLog2 s k
  let s := toHost (.event k (rd R.HIF_RING_BASE s k + 32 * (i % 2 ^ n)) (eventEntry e n i s)) s
  let s := writeStatus k (wr R.HIF_RING_CONS (i + 1) s k)
  if e.irq then signalVector e.vector s else s

/-! What becomes of an entry that is lost is the argument `lost` of the four operations below: the report of a saturated
HIF_EVT_DROP is itself an entry that can be lost. -/

/-- Puts an entry into the held queue of 64 entries (R550). -/
def holdEvent (lost : State → State) (e : EvEntry) (s : State) : State :=
  if s.evt.held.length ≥ 64 then lost s
  else { s with evt := { s.evt with held := s.evt.held ++ [{ e with held := true }] } }
/-- Puts an entry into the store of 64 entries of a full EVENT ring; beyond them the newest is dropped and counted (R70). -/
def storeEvent (lost : State → State) (k : Nat) (e : EvEntry) (s : State) : State :=
  if (ringInt s k).store.length ≥ 64 then
    writeStatus k (lost (modRing k (fun r => { r with drops := min (r.drops + 1) (2 ^ 32 - 1) }) s))
  else modRing k (fun r => { r with store := r.store ++ [{ e with held := true }] }) s
/-- Entries already held whose route is ring `k` or still open go first (R550). -/
def heldFor (k : Nat) (s : State) : Bool := s.evt.held.any (fun e => e.route == some k || e.route == none)
/-- Routes one entry (R550, R70, R557). -/
def routeEvent (lost : State → State) (e : EvEntry) (s : State) : State :=
  match e.route with
  | none => holdEvent lost e s
  | some k =>
    if !evRingOk k s || heldFor k s then holdEvent lost e s
    else if !(ringInt s k).store.isEmpty || !evRoom k s then storeEvent lost k e s
    else writeEvent k e s

/-- Posts event `n` with source index, severity, word 1 and 16 detail bytes, in the order of R548. -/
def postEventBy (lost : State → State) (n src sev word1 : Nat) (detail : List (Nat × Nat × Int)) (s : State) : State :=
  let rose := !rdb R.EVT_PENDING (n % 32) s (n / 32)
  let s := wrb R.EVT_PENDING (n % 32) true s (n / 32)
  let sat := decide (rdf R.EVT_COUNT 0 16 s n = 65534)
  let s := bumpW 16 R.EVT_COUNT 1 id s n
  let s := if sat then
      wrb R.EVT_STATUS 8 true { s with evt := { s.evt with overflowed := n :: s.evt.overflowed } } else s
  let cfg := rd R.EVT_CFG s n
  let irq := bit 1 cfg
  let vec := bits 2 6 cfg
  if bit 0 cfg then
    let ring := bits 8 6 cfg
    let e : EvEntry :=
      { number := n, source := src, severity := sev, saturated := sat, held := false, word1 := word1,
        tt := ttNow s, wideNs := s.time.ns, detail := layout detail, irq := irq, vector := vec,
        route := if ring = 63 then lowestEvRing s else some ring }
    let s := routeEvent lost e s
    wrf R.EVT_STATUS 0 7 s.evt.held.length s
  else if irq && rose then signalVector vec s
  else s
/-- An event entry is lost: counted in HIF_EVT_DROP, whose saturation posts EV_PCIE_ERROR with the counter's offset (R14, R70,
R550; the event is the model's choice, log entry 11). -/
def dropEvent (s : State) : State := bump R.HIF_EVT_DROP 1 (postEventBy (bump R.HIF_EVT_DROP 1 id) 4 0 1 0 [(8, 4, 0x30)]) s
/-- Posts event `n` with source index, severity, word 1 and 16 detail bytes. -/
def postEvent (n src sev word1 : Nat) (detail : List (Nat × Nat × Int)) (s : State) : State :=
  postEventBy dropEvent n src sev word1 detail s
/-- The report that a counter has saturated, for a counter whose block states no layout for it: its event `n`, with detail bytes
that the spec leaves open (R14; log entry 11). -/
def postSaturated (n sev : Nat) (s : State) : State :=
  let (v, s) := fresh s
  postEvent n 0 sev 0 [(0, 16, (v : Nat))] s

/-- Writes the stored entries of ring `k` while there is room (R70). -/
def flushStore (k : Nat) : Nat → State → State
  | 0, s => s
  | fuel + 1, s =>
    match (ringInt s k).store with
    | [] => s
    | e :: r =>
      if evRingOk k s && evRoom k s then
        flushStore k fuel (writeEvent k e (modRing k (fun x => { x with store := r }) s))
      else s
/-- Goes once over the held queue in posting order: an entry whose ring is now an enabled EVENT ring is written, or stored
where that ring is full; the others stay, in order (R550).  `kept` holds the entries kept so far, newest first. -/
def flushHeldGo : List EvEntry → List EvEntry → State → State
  | [], kept, s => { s with evt := { s.evt with held := kept.reverse } }
  | e :: r, kept, s =>
    let target := match e.route with
      | some k => some k
      | none => lowestEvRing s
    match target with
    | none => flushHeldGo r (e :: kept) s
    | some k =>
      if !evRingOk k s || kept.any (fun x => x.route == some k) then flushHeldGo r (e :: kept) s
      else if !(ringInt s k).store.isEmpty || !evRoom k s then
        flushHeldGo r kept (storeEvent dropEvent k { e with route := some k } s)
      else flushHeldGo r kept (writeEvent k { e with route := some k } s)
/-- Writes what waits for an EVENT ring, stores first (R70, R550). -/
def flushEvents (s : State) : State :=
  let s := each (List.range 32) (fun k s => flushStore k 64 s) s
  let s := flushHeldGo s.evt.held [] s
  wrf R.EVT_STATUS 0 7 s.evt.held.length s

end Sys2Proof.Machine
end

