-- ==== Sys2Proof/Machine/Profile.lean ====
section
/-! DEFINITION. Profiles: the 7-segment S-curve (R298), replanning (R556), and their evaluation.  Times are in ms, positions in
pu.  Peak values that a distance forces down are rounded down to whole units (R298); the peak acceleration of a replanned
change is rounded down to 2^-16 pu/ms² (log entry 30). -/

namespace Sys2Proof.Machine

/-- Position, velocity and acceleration after `t` of constant jerk `j`. -/
def segStep (x v a j t : Rat) : Rat × Rat × Rat :=
  (x + v * t + a * t * t / 2 + j * t * t * t / 6, v + a * t + j * t * t / 2, a + j * t)
/-- Position, velocity and acceleration `t` after the start of the segments. -/
def evalSegs : List Seg → (x v a t : Rat) → Rat × Rat × Rat
  | [], x, v, _, t => (x + v * t, v, 0)
  | s :: r, x, v, a, t =>
    if t < s.dur then segStep x v a s.jerk t
    else
      let e := segStep x v a s.jerk s.dur
      evalSegs r e.1 e.2.1 e.2.2 (t - s.dur)
/-- The whole length of the segments. -/
def segsDur (l : List Seg) : Rat := l.foldl (fun d s => d + s.dur) 0
/-- The profile `t` ms after its start. -/
def evalProf (p : Prof) (t : Rat) : Rat × Rat × Rat := evalSegs p.segs p.x p.v p.a t
/-- ms after the start for `n` motion-link frames of 2 µs. -/
def frameTime (n : Nat) : Rat := (n : Rat) / 500
/-- ms from the start of a profile to E (in 2^-32 ns). -/
def sinceStart (p : Prof) (e : Int) : Rat := ((e - p.start : Int) : Rat) / (1000000 * 4294967296)

/-- The greatest number below 2^`n` that passes a test which holds up to some number only, found bit by bit. -/
def greatest (p : Nat → Bool) : (n : Nat) → (acc : Nat) → Nat
  | 0, acc => acc
  | n + 1, acc => if p (acc + 2 ^ n) then greatest p n (acc + 2 ^ n) else greatest p n acc
/-- The integer square root. -/
def isqrt (x : Nat) : Nat := greatest (fun v => decide (v * v ≤ x)) (x.log2 / 2 + 1) 0

/-- A ramp to peak velocity `v` with peak acceleration `a` and jerk `j`, and back, fits into the distance `d` (R298). -/
def rampFits (d v a j : Nat) : Bool := decide (a * a ≤ v * j) && decide (v * v * j + v * a * a ≤ d * a * j)
/-- The peak velocity and acceleration of a move of distance `d` (R298): the largest peak velocity at the largest
acceleration; where none fits, the largest acceleration.  `none`: the move steps straight to its target. -/
def movePeaks (d vmax amax j : Nat) : Option (Nat × Nat) :=
  if vmax = 0 ∨ amax = 0 ∨ j = 0 ∨ d * j < j + 1 then none
  else
    let a1 := min amax (isqrt (vmax * j))
    let v1 := greatest (fun v => decide (v ≤ vmax) && decide (v * v * j + v * a1 * a1 ≤ d * a1 * j)) 33 0
    if 1 ≤ a1 ∧ 1 ≤ v1 ∧ a1 * a1 ≤ v1 * j then some (v1, a1)
    else
      let a2 := greatest (fun a => decide (a ≤ a1) && rampFits d (max 1 (cdiv (a * a) j)) a j) 33 0
      let v2 := greatest (fun v => decide (v ≤ vmax) && decide (v * v * j + v * a2 * a2 ≤ d * a2 * j)) 33 0
      if 1 ≤ a2 ∧ 1 ≤ v2 then some (v2, a2) else none
/-- The ramp from rest to `v` with peak acceleration `a` and jerk `j`, in direction `s` (1 or −1). -/
def rampUp (s : Int) (v a j : Nat) : List Seg :=
  let tj : Rat := (a : Rat) / j
  [⟨tj, s * j⟩, ⟨(v : Rat) / a - tj, 0⟩, ⟨tj, -(s * j : Int)⟩]
/-- The distance covered by that ramp. -/
def rampDist (v a j : Nat) : Rat := (v : Rat) * ((v : Rat) / a + (a : Rat) / j) / 2
/-- The segments of a move by `delta` pu (R298). -/
def moveSegs (delta : Int) (vmax amax j : Nat) : List Seg :=
  let d := delta.natAbs
  let s : Int := if delta < 0 then -1 else 1
  match movePeaks d vmax amax j with
  | none => []
  | some (v, a) =>
    let cruise : Rat := ((d : Rat) - 2 * rampDist v a j) / v
    rampUp s v a j ++ [⟨cruise, 0⟩] ++ rampUp (-s) v a j

/-- A rational rounded down to 2^-16. -/
def floor16 (x : Rat) : Rat := (((x * 65536).floor : Int) : Rat) / 65536
/-- The square root of a rational, rounded down to 2^-16; 0 for a negative one. -/
def sqrt16 (x : Rat) : Rat := (isqrt ((x * 4294967296).floor.toNat) : Rat) / 65536
/-- The magnitude of a rational. -/
def absR (x : Rat) : Rat := if x < 0 then -x else x
/-- The segments of a change to velocity `v1` from velocity `v` and acceleration `a`, within acceleration `lim` and jerk `j`
(R556). -/
def changeSegs (v a v1 : Rat) (lim j : Nat) : List Seg :=
  if j = 0 ∨ lim = 0 then []
  else
    let ve := v + a * absR a / (2 * j)
    if ve = v1 then [⟨absR a / j, if a < 0 then (j : Rat) else -(j : Rat)⟩]
    else
      let s : Rat := if v1 > ve then 1 else -1
      let a0 := s * a
      let g := s * (v1 - v)
      let l : Rat := lim
      if a0 > l then
        [⟨(a0 - l) / j, -(s * j)⟩, ⟨(g - a0 * a0 / (2 * j)) / l, 0⟩, ⟨l / j, -(s * j)⟩]
      else if g ≥ (2 * l * l - a0 * a0) / (2 * j) then
        [⟨(l - a0) / j, s * j⟩, ⟨(g - (2 * l * l - a0 * a0) / (2 * j)) / l, 0⟩, ⟨l / j, -(s * j)⟩]
      else
        let ap := (let r := sqrt16 ((2 * j * g + a0 * a0) / 2); if r < a0 then a0 else r)
        if ap ≤ 0 then [⟨-a0 / j, s * j⟩]
        else [⟨(ap - a0) / j, s * j⟩, ⟨(g - (2 * ap * ap - a0 * a0) / (2 * j)) / ap, 0⟩, ⟨ap / j, -(s * j)⟩]
/-- A segment of `t` at the constant velocity and acceleration 0 that makes the velocity exactly `v1`: the profile that follows
a change starts from `v1` (R556: the change ends at the new speed). -/
def changeProf (p : Prof) (t : Rat) (v1 : Rat) (lim j : Nat) (e : Int) : Prof :=
  let s := evalProf p t
  { x := s.1, v := s.2.1, a := s.2.2, segs := changeSegs s.2.1 s.2.2 v1 lim j, start := e }
/-- The profile has run through its segments. -/
def profDone (p : Prof) : Bool := decide (segsDur p.segs ≤ frameTime p.frames)

end Sys2Proof.Machine
end

