-- ==== Sys2Proof/Machine/MotionBase.lean ====
section
/-! DEFINITION. Axes: state codes, queue, starting and stopping a profile, limits and homed flag (R293 to R319, R556, R558). -/

namespace Sys2Proof.Machine

/-- MOT_STATUS.state codes (R323). -/
def mStopped : Nat := 0
def mStandstill : Nat := 1
def mMoving : Nat := 2
def mHoming : Nat := 3
def mStopping : Nat := 4
def mProfile : Nat := 5
def mFault : Nat := 6
/-- What the module keeps of axis `a`. -/
def axisOf (s : State) (a : Nat) : Axis := tget {} s.mot a
def modAxis (a : Nat) (f : Axis → Axis) (s : State) : State := { s with mot := tmod {} s.mot a f }
def axisState (a : Nat) (s : State) : Nat := rdf R.MOT_STATUS 0 3 s a
def setAxisState (a st : Nat) (s : State) : State := wrf R.MOT_STATUS 0 3 st s a
def homed (a : Nat) (s : State) : Bool := rdb R.MOT_STATUS 3 s a
def setHomed (a : Nat) (b : Bool) (s : State) : State := wrb R.MOT_STATUS 3 b s a
/-- MOT_CFG.source: 0 encoder, 1 microstep, 2 step input (R308). -/
def axisSource (a : Nat) (s : State) : Nat := rdf R.MOT_CFG 0 2 s a
def cmdPos (a : Nat) (s : State) : Int := rdI R.MOT_CMD_POS s a
def measPos (a : Nat) (s : State) : Int := rdI R.MOT_POS s a
/-- The envelope admits a profile (R558). -/
def envOk (a : Nat) (s : State) : Bool :=
  rd R.MOT_ENV_VMAX s a != 0 && rd R.MOT_ENV_AMAX s a != 0 && rd R.MOT_ENV_JMAX s a != 0
/-- The queue is written with its length in MOT_STATUS.queue. -/
def setQueue (a : Nat) (q : List QEntry) (s : State) : State :=
  wrf R.MOT_STATUS 16 5 q.length (modAxis a (fun x => { x with queue := q }) s) a
/-- MOT_STATUS.state reads STOPPED, STANDSTILL or FAULT and no profile runs: the axis is at rest. -/
def atRest (a : Nat) (s : State) : Bool := (axisOf s a).prof.isNone
/-- The commanded and the measured position are written as 48-bit signed values (R15, R195). -/
def setCmd (a : Nat) (x : Int) (s : State) : State := wrI R.MOT_CMD_POS (wrap48 x) s a
def setMeas (a : Nat) (x : Int) (s : State) : State := wrI R.MOT_POS (wrap48 x) s a
/-- E in units of 2^-32 ns. -/
def nowE (s : State) : Int := (s.time.ns * 2 ^ 32 + s.time.frac : Nat)
/-- The stamp of an edge sample: TT at its resolution of 2^-16 ns (R196), in units of 2^-32 ns. -/
def stampE (s : State) : Int := nowE s / 65536 * 65536

/-- MOVE_DONE of an entry (R320). -/
def moveDone (a status cookie : Nat) (s : State) : State :=
  postEvent (112 + 4 * a) a (if status = 0 then 0 else 1) cookie
    [(0, 1, (status : Nat)), (1, 1, ((axisOf s a).queue.length : Nat)), (2, 6, cmdPos a s), (8, 6, measPos a s)] s
/-- Every entry not yet started ends with a status (R300). -/
def flushQueue (a status : Nat) (s : State) : State :=
  let x := axisOf s a
  let kept := if x.running then x.queue.take 1 else []
  let gone := if x.running then x.queue.drop 1 else x.queue
  each gone (fun e s => moveDone a status e.cookie s) (setQueue a kept s)
/-- SHORT is sent at once: the axis stops without a ramp, in state STOPPED (R303, R315, R558). -/
def shortAxis (a status : Nat) (s : State) : State :=
  let s := modAxis a (fun x => { x with prof := none, runHold := false, rested := true, ending := some (max status (x.ending.getD 0)) }) s
  setAxisState a (if rd R.MOT_FAULT s a = 0 then mStopped else mFault) s
/-- Replans the running profile to velocity `v1` (R556). -/
def replan (a : Nat) (v1 : Rat) (lim : Nat) (s : State) : State :=
  match (axisOf s a).prof with
  | none => s
  | some p =>
    let t := if (axisOf s a).runHold then 0 else frameTime p.frames
    modAxis a (fun x => { x with prof := some (changeProf p t v1 lim (rd R.MOT_ENV_JMAX s a) (nowE s)) }) s
/-- The deceleration of a stop: MOT_ENV_DMAX, or MOT_ENV_AMAX where that is 0 (R558).  A supply dip brakes at the policy
deceleration `dmax` instead, where one other than 0 is given (R33, R463). -/
def stopDecel (a : Nat) (dmax : Option Nat) (s : State) : Nat :=
  let d0 := match dmax with
    | some (d + 1) => d + 1
    | _ => rd R.MOT_ENV_DMAX s a
  if d0 = 0 then rd R.MOT_ENV_AMAX s a else d0
/-- No deceleration can be planned: SHORT takes its place (R558). -/
def noDecel (a : Nat) (s : State) : Bool := rd R.MOT_ENV_AMAX s a == 0 || rd R.MOT_ENV_JMAX s a == 0
/-- The axis decelerates at its stop deceleration and its entry will end with `status` (R300, R556, R558). -/
def stopAxis (a status : Nat) (dmax : Option Nat) (s : State) : State :=
  let x := axisOf s a
  match x.prof with
  | none => if x.running then modAxis a (fun x => { x with ending := some (max status (x.ending.getD 0)), runHold := false }) s else s
  | some _ =>
    if noDecel a s then shortAxis a status s
    else if x.runHold then
      modAxis a (fun x => { x with prof := none, runHold := false, ending := some (max status (x.ending.getD 0)) }) s
    else
      let s := replan a 0 (stopDecel a dmax s) s
      setAxisState a mStopping (modAxis a (fun x => { x with ending := some (max status (x.ending.getD 0)) }) s)
/-- A step of a homing decelerates to rest, as a stop does (R317, R558). -/
def homeBrake (a : Nat) (s : State) : State := if noDecel a s then shortAxis a 1 s else replan a 0 (stopDecel a none s) s
/-- Stop and flush (R300). -/
def stopAndFlush (a status : Nat) (s : State) : State := flushQueue a 4 (stopAxis a status none s)

/-- The link stands at OFF or SHORT. -/
def linkCold (a : Nat) (s : State) : Bool := rdf R.MOT_STATUS 8 2 s a != 1
/-- On an encoder axis that starts from OFF or SHORT, the command takes the measured position (R304). -/
def takePosition (a : Nat) (s : State) : State := if linkCold a s && axisSource a s == 0 then setCmd a (measPos a s) s else s
/-- A profile starts on an axis at rest, from the commanded position: after 1 ms of RUN where the link is OFF or SHORT (R304). -/
def startProf (a : Nat) (segs : Int → List Seg) (st : Nat) (s : State) (goal : Option Int := none) : State :=
  let cold := linkCold a s
  let s := takePosition a s
  let x0 := cmdPos a s
  let s := modAxis a (fun x => { x with prof := some { x := x0, v := 0, a := 0, segs := segs x0, start := nowE s, goal }, rested := false, runHold := cold }) s
  setAxisState a st s
/-- The vmax that keeps the command within 255 microsteps a frame (R297): 255 × 2^24 × 500 / ratio, in pu/ms, for
pu = count / 256. -/
def commuteVmax (a : Nat) (s : State) : Nat :=
  let r := rd R.MOT_COMMUTE_RATIO s a
  if r = 0 then 2 ^ 32 - 1 else min (2 ^ 32 - 1) (255 * 2 ^ 32 * 500 / r)
/-- A move to `target` within the limits (R298). -/
def startMove (a : Nat) (target : Int) (v am j st : Nat) (s : State) : State :=
  startProf a (fun x => moveSegs (target - x) v am j) st s (some target)
/-- The limits a move of an axis runs with: the envelope, 255 microsteps a frame, and a sixteenth while not homed (R297). -/
def limitV (a v : Nat) (s : State) : Nat :=
  let v := min (min v (rd R.MOT_ENV_VMAX s a)) (commuteVmax a s)
  if homed a s then v else min v (max 1 (rd R.MOT_ENV_VMAX s a / 16))
/-- The profile's command at E, for the prediction (R205): position and velocity in pu and pu per ns. -/
def commandAt (a : Nat) (e : Int) (s : State) : Rat × Rat :=
  match (axisOf s a).prof with
  | none => ((cmdPos a s : Rat), 0)
  | some p =>
    if (axisOf s a).runHold then (p.x, 0)
    else
      let r := evalProf p (sinceStart p e)
      (r.1, r.2.1 / 1000000)

/-- A limit input acts as active: its accepted state, or a wire fault (R313). -/
def limitActive (a i : Nat) (s : State) : Bool :=
  let w := tget {} (axisOf s a).sw i
  w.active || w.wireFault
/-- A home input acts as active: not under a wire fault (R313). -/
def switchActive (a i : Nat) (s : State) : Bool :=
  let w := tget {} (axisOf s a).sw i
  if i = 2 then w.active && !w.wireFault else w.active || w.wireFault
/-- MOT_STATUS shows the switches. -/
def showSwitches (a : Nat) (s : State) : State :=
  wrb R.MOT_STATUS 4 (switchActive a 0 s) (wrb R.MOT_STATUS 5 (switchActive a 1 s) (wrb R.MOT_STATUS 6 (switchActive a 2 s) s a) a) a
/-- The effective level of a source (R444, R464). -/
def reachOf (k : Nat) (s : State) : Nat := if k = 7 then s.pwr.hostLevel else min 2 (rdf R.RST_REACH (2 * k) 2 s)
/-- The steps that a release at a level runs (R450). -/
def stepsOf (lvl : Nat) : List Nat :=
  match lvl with
  | 0 => [1, 2, 3, 4, 5, 6, 7, 8]
  | 1 => [1, 3, 4, 5, 6, 7, 8]
  | _ => [4, 6, 7, 8]
/-- An asserted source covers the step. -/
def stepHeld (n : Nat) (s : State) : Bool := s.pwr.asserted.any (fun k => (stepsOf (reachOf k s)).contains n)
/-- A reset holds the motion block: from its assertion until step 4 of the release has begun (R302, R321, R450). -/
def motionInReset (s : State) : Bool := s.pwr.due.isSome && (decide (s.pwr.step < 4) || (s.pwr.step == 4 && stepHeld 4 s))
/-- The enables are the module's own: READY, BUILD, CALIBRATE, HOLD and SERVICE, out of reset (R305). -/
def enablesTaken (s : State) : Bool := decide (3 ≤ modeOf s ∧ modeOf s ≤ 7) && !motionInReset s
/-- The enable output of an axis is asserted: in the modes of R305 but for a LINK fault or while Bezel withholds it; elsewhere as its
fuse map says (R305, R460); never after a fault of the output (R532). -/
def enableOn (a : Nat) (s : State) : Bool :=
  !rdb R.PIN_FAULT (12 + a) s &&
    (if enablesTaken s then !s.ctl.motionHold && !rdb R.MOT_FAULT 2 s a else rdf R.FUS_PIN_MAP (2 * a) 2 s 1 == 2)
/-- The enable outputs follow the mode, faults, Bezel and resets; an axis stands while it is enabled (R305, R323). -/
def updateEnables (s : State) : State :=
  each (List.range 6) (fun a s =>
    let en := enableOn a s
    let s := wrb R.MOT_STATUS 7 en s a
    if en && enablesTaken s then (if axisState a s = mStopped then setAxisState a mStandstill s else s)
    else if axisState a s = mStandstill then setAxisState a mStopped s else s) s
/-- The axes that placement owns while PLC_STATUS.state is not IDLE, and AX0 on the step input (R293). -/
def ownedByPlacement (a : Nat) (s : State) : Bool :=
  (decide (a < 2) && rdf R.PLC_STATUS 0 3 s != 0) || (a == 0 && axisSource 0 s == 2)
/-- Every axis is at standstill. -/
def axesStill (s : State) : Bool := (List.range 6).all (fun a => atRest a s && !(axisOf s a).running)

end Sys2Proof.Machine
end

