-- ==== Sys2Proof/Machine/Rings.lean ====
section
/-! DEFINITION. Rings: which are read, doorbells and the idle sequence, reading a descriptor, completing it in ring order,
errors (R49 to R66, R81). -/

namespace Sys2Proof.Machine

/-- Ring types (R52). -/
def tyCommand : Nat := 0
def tyLayer : Nat := 1
def tyUpload : Nat := 2
def tyUtility : Nat := 3
def tyEvent : Nat := 4

/-- The current mode reads rings of type `t` (R17). -/
def modeReads (t : Nat) (s : State) : Bool :=
  match modeOf s with
  | 0 => false
  | 1 | 2 => t == tyCommand
  | 4 | 5 => t ≤ tyUtility
  | _ => t != tyLayer && t ≤ tyUtility
/-- Under HP1 rings 8 to 31 count as not enabled (R64, R557). -/
def ringVisible (k : Nat) (s : State) : Bool := decide (k < 32) && !(hostVersion s == 1 && decide (8 ≤ k))
/-- The module reads this ring's doorbell (R62, R64). -/
def ringReadable (k : Nat) (s : State) : Bool :=
  ringVisible k s && (hostVersion s != 0 || ringType s k == tyCommand) && modeReads (ringType s k) s && s.host.linkUp &&
    s.host.busMaster
/-- The rings whose doorbells the module reads. -/
def readableRings (s : State) : List Nat := rangeP 32 (fun k => ringReadable k s)
/-- Rings that the module did not read before (`old` lists those it did) and reads now: their doorbells are due at once (R62). -/
def markNewlyRead (old : List Nat) (s : State) : State :=
  each ((readableRings s).filter (fun k => !old.contains k && (ringState s k == 1 || ringState s k == 2))) (fun k s =>
    modRing k (fun r => { r with mustRead := true }) s) s
/-- The ring is enabled (R81: IDLE, ACTIVE or FAULTED). -/
def ringEnabled (k : Nat) (s : State) : Bool := ringState s k == 1 || ringState s k == 2 || ringState s k == 3

/-- The ring enters ERROR with a cause, and EV_RING_ERROR is posted (R61); a disable that waits is over (R81). -/
def ringError (k cause : Nat) (s : State) : State :=
  let s := wrf R.HIF_RING_STATE 8 8 cause (wrb R.HIF_RING_STATE 4 false s k) k
  postEvent 1 k 2 0 [(0, 1, (cause : Nat))] (setRingState k 4 s)

/-- The module has read doorbell value `v` of an IDLE or ACTIVE ring (R61, R62): overrun, new work, or nothing new. -/
def takeDoorbell (k v : Nat) (s : State) : State :=
  let cons := rd R.HIF_RING_CONS s k
  let s := modRing k (fun r => { r with db := v, mustRead := false }) s
  if (v + 2 ^ 32 - cons) % 2 ^ 32 > 2 ^ ringLog2 s k then
    postEvent 2 k 2 0 [(0, 4, (v : Nat)), (4, 4, (cons : Nat))] (ringError k 2 s)
  else if v ≠ (ringInt s k).next ∧ ringState s k = 1 then
    setRingState k 2 (modRing k (fun r => { r with idle := false }) s)
  else s
/-- A doorbell read that may fail (R61 cause 3); `none` is a PCIe error. -/
def readDoorbell (k : Nat) (v : Option Word32) (s : State) : State :=
  match v with
  | none => ringError k 3 s
  | some w => takeDoorbell k w.toNat s
/-- The consumer index of an enabled ring has reached the last doorbell value read, nothing is left to complete, and the ring has
not gone idle (R63). -/
def drained (k : Nat) (s : State) : Bool :=
  (ringState s k == 1 || ringState s k == 2) && !(ringInt s k).idle && (ringInt s k).jobs.isEmpty &&
    rd R.HIF_RING_CONS s k == (ringInt s k).db
/-- Steps 2 and 3 of the idle sequence (R63). -/
def goIdle (k : Nat) (last : Option Word32) (s : State) : State :=
  let s := setRingState k 1 (modRing k (fun r => { r with idle := true }) s)
  match last with
  | none => ringError k 3 s
  | some w => takeDoorbell k w.toNat s
/-- The idle sequence of a ring that is drained (R63). -/
def idleRing (r : DoorbellRead) (s : State) : State :=
  if drained r.ring s then
    let s := readDoorbell r.ring r.reread s
    if drained r.ring s then goIdle r.ring r.last s else s
  else s
/-- One poll of a ring's doorbell, with the idle sequence where the ring is drained (R62, R63).  The doorbell of a FAULTED ring is
not read (log entry 53). -/
def pollRing (r : DoorbellRead) (s : State) : State :=
  if ringState s r.ring = 1 ∨ ringState s r.ring = 2 then idleRing r (readDoorbell r.ring r.value s) else s

/-- The opcodes of the table of R68. -/
def opcodes : List Nat :=
  [0x01, 0x02, 0x03, 0x04, 0x05, 0x06, 0x07, 0x08, 0x09, 0x0A, 0x0B, 0x0C, 0x0D, 0x0E, 0x20, 0x21, 0x22, 0x23, 0x40, 0x41,
   0x42, 0x43, 0x44, 0x45, 0x60]
/-- The lowest protocol version that has an opcode (R64). -/
def opcodeVersion (c : Nat) : Nat :=
  if [0x06, 0x09, 0x0B, 0x0D, 0x23, 0x41, 0x42, 0x45].contains c then 2 else if c = 0x0E then 3 else 1
/-- The ring type that takes an opcode (R68). -/
def opcodeType (c : Nat) : Nat :=
  if c < 0x20 then tyCommand else if c < 0x40 then tyLayer else if c < 0x60 then tyUtility else tyUpload
/-- `len` bytes of a descriptor from byte `off`. -/
def dfld (d : Desc) (off len : Nat) : Nat := byteFld off len d.toNat
/-- Word 0 fields of a descriptor (R56). -/
def dOpcode (d : Desc) : Nat := bits 0 8 d.toNat
def dIrq (d : Desc) : Bool := bit 8 d.toNat
def dFence (d : Desc) : Bool := bit 9 d.toNat
def dContext (d : Desc) : Nat := bits 16 7 d.toNat
def dPhase (d : Desc) : Nat := bits 31 1 d.toNat
def dCookie (d : Desc) : Nat := dfld d 4 4

/-- The descriptor bits that are in use: word 0 less its reserved bits, the cookie, and byte ranges of the payload. -/
def usedBits (payload : List (Nat × Nat)) : Nat :=
  0x807F03FF + 0xFFFFFFFF * 2 ^ 32 + payload.foldl (fun m p => m + (2 ^ (8 * p.2) - 1) * 2 ^ (8 * p.1)) 0
/-- The byte offset of the first bad field: a reserved bit that is set, or a field that fails its test (R66). -/
def badField (used : Nat) (tests : List (Nat × Bool)) (d : Desc) : Option Nat :=
  (List.range 64).find? (fun i => byteFld i 1 (d.toNat ^^^ (d.toNat &&& used)) != 0 || tests.any (fun t => t.1 == i && !t.2))

/-- Writes the completion entry of a job in the completion array, advances the consumer index where no fault holds it (R80), rewrites the status entry
and signals the vector where the descriptor asks for it (R57, R43, R55). -/
def writeCompletion (k : Nat) (j : Job) (c : Cpl) (s : State) : State :=
  let n := ringLog2 s k
  let w0 := c.status % 256 + 2 ^ 8 * (c.reason % 256) + 2 ^ 16 * dOpcode j.desc + 2 ^ 31 * dPhase j.desc
  let e := w0 + 2 ^ 32 * dCookie j.desc + 2 ^ 64 * timeBytes (ttNow s) s.time.ns s + 2 ^ 128 * (c.result % 2 ^ 128)
  let s := toHost (.completion k (rd R.HIF_RING_CPL_BASE s k + 32 * (j.index % 2 ^ n)) (BitVec.ofNat 256 e)) s
  let s := if (ringState s k ≠ 3 ∨ rdb R.HIF_RING_STATE 4 s k) ∧ sdiff 32 (j.index + 1) (rd R.HIF_RING_CONS s k) > 0 then
      wr R.HIF_RING_CONS (j.index + 1) s k else s
  let s := writeStatus k s
  if dIrq j.desc then signalVector (rdf R.HIF_RING_CFG 16 6 s k) s else s
/-- Writes the completions that are due, in ring order (R57); that of a descriptor on which the ring is FAULTED waits for the resume
(R80, R81). -/
def drainRing (k : Nat) : Nat → State → State
  | 0, s => s
  | fuel + 1, s =>
    match (ringInt s k).jobs with
    | [] => s
    | j :: r =>
      match j.cpl with
      | none => s
      | some c =>
        if ringState s k = 3 ∧ j.index = (ringInt s k).faultIndex then s
        else drainRing k fuel (writeCompletion k j c (modRing k (fun x => { x with jobs := r }) s))
/-- Changes the job with index `i` of ring `k`. -/
def modJob (k i : Nat) (f : Job → Job) (s : State) : State :=
  modRing k (fun r => { r with jobs := r.jobs.map (fun j => if j.index = i then f j else j) }) s
/-- The job with index `i` of ring `k`. -/
def findJob (k i : Nat) (s : State) : Option Job := (ringInt s k).jobs.find? (fun j => j.index == i)
/-- The descriptors of an opcode that the module has read and not completed. -/
def openJobs (code : Nat) (s : State) : List Job :=
  (List.range 32).flatMap (fun k => (ringInt s k).jobs.filter (fun j => dOpcode j.desc == code && j.cpl.isNone))
/-- A beam-table load runs (R193), or one into bank `b` (R191). -/
def loadBusy (s : State) : Bool := !(openJobs 4 s).isEmpty
def loadInto (b : Nat) (s : State) : Bool := (openJobs 4 s).any (fun j => dfld j.desc 24 1 == b)
/-- The engine a job needs: 0 CRC unit 3, 1 the codec, 2 one of the eight others. -/
def engineOf (j : Job) : Nat := let c := dOpcode j.desc; if c = 0x40 then 0 else if c ≤ 0x42 then 1 else 2
/-- Jobs of the UTILITY rings that run. -/
def runningJobs (s : State) : List Job :=
  (List.range 32).flatMap (fun k =>
    if ringType s k = tyUtility then (ringInt s k).jobs.filter (fun j => j.started && j.cpl.isNone) else [])
/-- FCD_STATUS (R410): the codec job that runs, its ring, and the other UTILITY jobs that run. -/
def fcdStatus (s : State) : Nat :=
  let codec := (List.range 32).findSome? (fun k =>
    if ringType s k = tyUtility then
      ((ringInt s k).jobs.find? (fun j => j.started && j.cpl.isNone && engineOf j == 1)).map (fun j => (k, dOpcode j.desc))
    else none)
  let rest := 2 ^ 16 * min 8 ((runningJobs s).filter (fun j => engineOf j != 1)).length
  match codec with
  | none => rest
  | some (k, c) => (if c = 0x41 then 1 else 2) + 2 ^ 8 * k + rest
/-- Frees the channel a ring holds. -/
def freeChan (k : Nat) (s : State) : State :=
  { s with host := { s.host with chans := s.host.chans.filter (fun c => c.2 != k) } }
/-- The transfer of ring `k` has left its page: it no longer uses the cached translation (R79). -/
def leavePage (k : Nat) (s : State) : State :=
  { s with host := { s.host with pageInUse := s.host.pageInUse.filter (fun p => p.1 != k)
                                 invalUsers := s.host.invalUsers.filter (· != k) } }
/-- The ring enters DISABLED once a disable waits and every descriptor read has been dealt with (R54). -/
def disableCheck (k : Nat) (s : State) : State :=
  if rdb R.HIF_RING_STATE 4 s k ∧ ringState s k ≠ 4 ∧ (ringInt s k).jobs = [] then
    setRingState k 0 (wrb R.HIF_RING_STATE 4 false s k)
  else s
/-- A descriptor has its status: its transfer is over, and its completion is written in ring order (R57). -/
def complete (k i : Nat) (c : Cpl) (s : State) : State :=
  let onChan := (((findJob k i s).bind (·.xfer)).bind (·.chan)).isSome
  let s := if onChan then leavePage k (freeChan k s) else s
  drainRing k ((ringInt s k).jobs.length) (modJob k i (fun j => { j with cpl := some c, xfer := none }) s)
/-- Completes with a status and a reason. -/
def finish (k i status reason : Nat) (s : State) : State := complete k i { status := status, reason := reason } s
/-- Status codes (R66). -/
def stOk : Nat := 0
def stRefused : Nat := 1
def stBadOpcode : Nat := 2
def stBadField : Nat := 3
def stNoHello : Nat := 4
def stMode : Nat := 5
def stContextBusy : Nat := 6
def stContextInvalid : Nat := 7
def stDataError : Nat := 8
def stAuthFail : Nat := 9
def stFaultSkipped : Nat := 10
def stAborted : Nat := 11
def stNoSpace : Nat := 12

/-- The next unread descriptor of the ring is one that an ABORT resume ends (R81). -/
def aborting (k : Nat) (s : State) : Bool :=
  let r := ringInt s k
  r.abortTo.any (fun e => decide (sdiff 32 e r.next > 0))
/-- The module may read the next descriptor of ring `k` (R57, R62, R113): the ring is ACTIVE, or an ABORT resume has left descriptors
to end, and it is read in this mode, the doorbell covers the descriptor, and no earlier one of the ring holds it back. -/
def canFetch (k : Nat) (s : State) : Bool :=
  let r := ringInt s k
  (ringState s k == 2 || (ringState s k == 1 && aborting k s)) && ringReadable k s && !rdb R.HIF_RING_STATE 4 s k && r.next != r.db &&
    (if ringType s k == tyUtility then r.jobs.all (fun j => j.started)
     else if ringType s k == tyLayer then modeOf s == 4 && s.dose.boundary.isNone && decide (r.jobs.length ≤ 1) else r.jobs.isEmpty)

/-- The module reads descriptor `d` of ring `k`: phase (R59, R61), version (R64), opcode and ring type (R66), reserved bits
and field ranges (R66), then `body` with the descriptor's index.  A descriptor of another opcode of R68 is another
command's; one of no opcode completes with BAD_OPCODE. -/
def readDesc (k : Nat) (d : Desc) (code used : Nat) (tests : List (Nat × Bool)) (body : Nat → State → State)
    (s : State) : State :=
  let op := dOpcode d
  let i := (ringInt s k).next
  if !canFetch k s || (op != code && opcodes.contains op) then s
  else if dPhase d ≠ phaseAt (ringLog2 s k) i then ringError k 1 s
  else
    let ended := aborting k s
    let s := modRing k (fun r =>
      { r with next := (i + 1) % 2 ^ 32, jobs := r.jobs ++ [{ index := i, desc := d }] }) s
    if ended then finish k i stAborted 0 s
    else if hostVersion s = 0 ∧ op ≠ 1 then finish k i stNoHello 0 s
    else if op ≠ code ∨ ringType s k ≠ opcodeType op ∨ (hostVersion s ≠ 0 ∧ hostVersion s < opcodeVersion op) then
      finish k i stBadOpcode 0 s
    else
      match badField used tests d with
      | some b => finish k i stBadField b s
      | none => body i s

end Sys2Proof.Machine
end

