-- ==== Sys2Proof/Machine/Dma.lean ====
section
/-! DEFINITION. Host DMA channels, pre-emption and address translation (R71 to R80). -/

namespace Sys2Proof.Machine

/-- The mode an address space works in: BYPASS under HP1 (R64), OFF for the stored value 3 (R76). -/
def asMode (asid : Nat) (s : State) : Nat :=
  if hostVersion s = 1 then 2
  else
    let m := rdf R.HIF_AS_CFG 0 2 s asid
    if m = 3 then 0 else m

/-- A cached leaf covers the page number `vpn` of a space (R77, R79). -/
def TlbEntryCovers (asid vpn : Nat) (e : TlbEntry) : Bool :=
  e.asid == asid && (if e.big then e.vpn / 512 == vpn / 512 else e.vpn == vpn)
/-- The bus address a cached leaf gives. -/
def tlbAddr (e : TlbEntry) (va : Nat) : Nat := if e.big then e.page + va % 2 ^ 21 else e.page + va % 4096
/-- Adds to a cache of `cap` entries; where it is full, the entry that leaves is a free value (R79, log entry 3). -/
def cacheAdd {α : Type} (cap : Nat) (l : List α) (a : α) (victim : Nat) : List α :=
  if l.length < cap then l ++ [a] else (l.eraseIdx (victim % cap)) ++ [a]
def addTlb (e : TlbEntry) (s : State) : State :=
  if s.host.tlb.length < 2048 then { s with host := { s.host with tlb := s.host.tlb ++ [e] } }
  else
    let (v, s) := fresh s
    { s with host := { s.host with tlb := cacheAdd 2048 s.host.tlb e v } }
def addWalk (e : WalkEntry) (s : State) : State :=
  if s.host.walk.contains e then s
  else if s.host.walk.length < 64 then { s with host := { s.host with walk := s.host.walk ++ [e] } }
  else
    let (v, s) := fresh s
    { s with host := { s.host with walk := cacheAdd 64 s.host.walk e v } }
/-- A pointer cached from an L2 or L1 entry (R79). -/
def walkHit (asid level index : Nat) (s : State) : Option Nat :=
  (s.host.walk.find? (fun e => e.asid == asid && e.level == level && e.index == index)).map (·.table)

/-- A translation's outcome: the leaf that covers the address, or the cause and level of the fault (R78). -/
inductive Xlat where
  | leaf (e : TlbEntry)
  | bypass
  | fault (cause level : Nat)
  deriving DecidableEq, Repr

/-- Address field [51:12] of a table entry (R77). -/
def pteAddr (p : Nat) : Nat := bits 12 40 p * 4096
/-- A leaf found by the walk, cached, and checked for writes (R78, R79). -/
def takeLeaf (e : TlbEntry) (level : Nat) (write : Bool) (s : State) : Xlat × State :=
  let s := addTlb e s
  if write && !e.write then (.fault 2 level, s) else (.leaf e, s)
/-- The L0 read of the walk (R77). -/
def walkL0 (asid va table : Nat) (write : Bool) (r : Option Word) (s : State) : Xlat × State :=
  let s := emit (.tableRead (table + 8 * (va / 4096 % 512))) s
  match r with
  | none => (.fault 5 0, s)
  | some p =>
    if !bit 0 p.toNat then (.fault 1 0, s)
    else takeLeaf { asid, vpn := va / 4096, big := false, page := pteAddr p.toNat, write := bit 1 p.toNat } 0 write s
/-- The L1 read of the walk (R77, R78). -/
def walkL1 (asid va table : Nat) (write : Bool) (w : WalkReads) (s : State) : Xlat × State :=
  let s := emit (.tableRead (table + 8 * (va / 2 ^ 21 % 512))) s
  match w.l1 with
  | none => (.fault 5 1, s)
  | some p =>
    if !bit 0 p.toNat then (.fault 1 1, s)
    else if bit 2 p.toNat then
      if bits 12 9 p.toNat ≠ 0 then (.fault 3 1, s)
      else takeLeaf { asid, vpn := va / 2 ^ 21 * 512, big := true, page := pteAddr p.toNat, write := bit 1 p.toNat } 1 write s
    else
      let s := addWalk { asid, level := 1, index := va / 2 ^ 21, table := pteAddr p.toNat } s
      walkL0 asid va (pteAddr p.toNat) write w.l0 s
/-- Translates one address (R76 to R79). -/
def translateVa (asid va : Nat) (write : Bool) (w : WalkReads) (s : State) : Xlat × State :=
  match asMode asid s with
  | 2 => (.bypass, s)
  | 1 =>
    if va ≥ 2 ^ 39 then (.fault 4 0xFF, s)
    else
      match s.host.tlb.find? (TlbEntryCovers asid (va / 4096)) with
      | some e => if write && !e.write then (.fault 2 (if e.big then 1 else 0), s) else (.leaf e, s)
      | none =>
        match walkHit asid 1 (va / 2 ^ 21) s with
        | some t => walkL0 asid va t write w.l0 s
        | none =>
          match walkHit asid 2 (va / 2 ^ 30) s with
          | some t => walkL1 asid va t write w s
          | none =>
            let s := emit (.tableRead (rd R.HIF_AS_ROOT s asid / 4096 * 4096 + 8 * (va / 2 ^ 30))) s
            match w.l2 with
            | none => (.fault 5 2, s)
            | some p =>
              if !bit 0 p.toNat then (.fault 1 2, s)
              else if bit 2 p.toNat then (.fault 3 2, s)
              else
                let s := addWalk { asid, level := 2, index := va / 2 ^ 30, table := pteAddr p.toNat } s
                walkL1 asid va (pteAddr p.toNat) write w s
  | _ => (.fault 6 0xFF, s)

/-- The address space of a ring's data buffers (R49, R67). -/
def ringAsid (k : Nat) (s : State) : Nat := rdf R.HIF_RING_CFG 12 4 s k
/-- The priority of a ring (R49). -/
def ringPrio (k : Nat) (s : State) : Nat := rdf R.HIF_RING_PRIO 0 3 s k
/-- The job of a ring whose transfer is running or waits: the one on a channel, else the oldest.  While the ring is FAULTED its
faulting descriptor's transfer stands still (R80). -/
def xferJob (k : Nat) (s : State) : Option (Job × Xfer) :=
  let r := ringInt s k
  let l := r.jobs.filterMap (fun j => if ringState s k = 3 ∧ j.index = r.faultIndex then none else j.xfer.map (fun x => (j, x)))
  match l.find? (fun p => p.2.chan.isSome) with
  | some p => some p
  | none => l.head?
/-- Starts a data transfer for a job: it waits for a channel (R72). -/
def startXfer (k i addr len : Nat) (toHost : Bool) (data : List Byte) (s : State) : State :=
  modJob k i (fun j => { j with xfer := some { addr, len, toHost, data } }) s
/-- Changes the transfer of a job. -/
def modXfer (k i : Nat) (f : Xfer → Xfer) (s : State) : State :=
  modJob k i (fun j => { j with xfer := j.xfer.map f }) s
/-- A ring waits for a channel: a transfer without one, on a ring that runs (R72). -/
def waits (k : Nat) (s : State) : Bool :=
  decide (1 ≤ ringState s k ∧ ringState s k ≤ 3) && ((xferJob k s).map (fun p => p.2.chan.isNone)).getD false
/-- The rings that hold a channel. -/
def channelRings (s : State) : List Nat := s.host.chans.map (·.2)
/-- The waiting ring with the highest priority, ties broken by round robin (R72). -/
def nextWaiter (s : State) : Option Nat :=
  let order := (List.range 32).map (fun i => (s.host.lastGrant + 1 + i) % 32)
  let ws := order.filter (fun k => waits k s && !(channelRings s).contains k)
  let top := ws.foldl (fun m k => max m (ringPrio k s)) 0
  ws.find? (fun k => ringPrio k s == top)
/-- The ring that pre-empts ring `k` at a break point, if pre-emption is due: all channels busy, a waiting ring of higher
priority than the lowest running one, which `k` is.  HP1 has no pre-emption (R64, R72). -/
def preemptor (k : Nat) (s : State) : Option Nat :=
  let low := (channelRings s).foldl (fun m r => min m (ringPrio r s)) 7
  match nextWaiter s with
  | none => none
  | some w => if hostVersion s ≠ 1 ∧ s.host.chans.length = 4 ∧ ringPrio k s = low ∧ ringPrio w s > low then some w else none

/-- The execution of a job of ring `k` has started (R54): on a LAYER ring only that of the pass in execution. -/
def jobStarted (k : Nat) (j : Job) (s : State) : Bool :=
  if ringType s k = tyLayer then s.dose.passes.any (fun p => p.ring == k && p.index == j.index && p.executing)
  else if ringType s k = tyUpload then j.phase != 0 || !j.scratch.isEmpty || j.xfer.isSome
  else j.started
/-- Descriptors read whose execution has not started are given up and read again, with what was begun for them (R54, R80). -/
def giveUp (k : Nat) (which : Job → Bool) (s : State) : State :=
  let gone := (ringInt s k).jobs.filter (fun j => which j && j.cpl.isNone && !jobStarted k j s)
  match gone with
  | [] => s
  | b :: _ =>
    let hit : Nat → Bool := fun i => gone.any (fun j => j.index == i)
    let s := if gone.any (fun j => (j.xfer.bind (·.chan)).isSome) then leavePage k (freeChan k s) else s
    let s := modRing k (fun r => { r with jobs := r.jobs.filter (fun j => !hit j.index), next := b.index }) s
    if ringType s k ≠ tyLayer then s
    else
      { s with dose := { s.dose with
          passes := s.dose.passes.filter (fun p => !(p.ring == k && hit p.index))
          boundary := s.dose.boundary.filter (fun e => !(e.1 == k && hit e.2)) } }
/-- A translation fault: steps 1 to 4 of R80.  A transfer of another descriptor of a ring that is already FAULTED waits at its
page until the ring is resumed, and one of a ring in ERROR stops there (R61, R81). -/
def ringFault (k : Nat) (j : Job) (x : Xfer) (cause level : Nat) (s : State) : State :=
  let s := freeChan k (modXfer k j.index (fun x => { x with chan := none, atBoundary := true }) s)
  if ringState s k = 3 ∨ ringState s k = 4 then s
  else
    let va := x.addr + x.done
    let s := wr R.HIF_RING_CONS j.index s k
    let s := wr R.HIF_RING_FAULT_ADDR va s k
    let s := giveUp k (fun a => decide (sdiff 32 a.index j.index > 0)) s
    let s := modRing k (fun r => { r with faultCause := cause, faultIndex := j.index }) s
    let s := setRingState k 3 s
    postEvent 0 k 2 (dCookie j.desc) [(0, 8, (va : Nat)), (8, 1, (ringAsid k s : Nat)), (9, 1, (cause : Nat)),
      (10, 1, (level : Nat)), (11, 1, (b2n x.toHost : Nat)), (12, 4, (x.done : Nat))] s
/-- The bytes of the transfer up to the next 4 KiB boundary of its host address (R72). -/
def nextBoundary (x : Xfer) : Nat := ((x.addr + x.done) / 4096 + 1) * 4096 - x.addr
/-- A transfer runs on in a page whose next byte stands at a bus address: a transfer to the module reads it up to the boundary or
its last byte (R67, R77). -/
def runPage (k : Nat) (j : Job) (x : Xfer) (bus : Nat) (s : State) : State :=
  let s := modXfer k j.index (fun x => { x with atBoundary := false, bus := bus }) s
  if x.toHost then s else emit (.hostRead bus (min x.len (nextBoundary x) - x.done)) s
/-- What a transfer to the host writes in the page it stands in, up to byte `stop` (R67, R77). -/
def writePage (x : Xfer) (stop : Nat) (s : State) : State :=
  if x.toHost then emit (.hostWrite x.bus ((x.data.take stop).drop x.done)) s else s
/-- Translates the page a transfer stands at: it runs on, or the ring faults (R74, R80). -/
def enterPage (k : Nat) (j : Job) (x : Xfer) (w : WalkReads) (s : State) : State :=
  let (r, s) := translateVa (ringAsid k s) (x.addr + x.done) x.toHost w s
  match r with
  | .fault c l => ringFault k j x c l s
  | .bypass => runPage k j x (x.addr + x.done) s
  | .leaf e =>
    let s := runPage k j x (tlbAddr e (x.addr + x.done)) s
    { s with host := { s.host with pageInUse := (k, e) :: s.host.pageInUse } }
/-- A transfer yields its channel to ring `w` and waits again (R73). -/
def yieldXfer (k w : Nat) (j : Job) (x : Xfer) (s : State) : State :=
  let c := x.chan.getD 0
  let s := modXfer k j.index (fun x => { x with chan := none, atBoundary := true }) s
  let s := wrb R.HIF_RING_STATE 3 true (freeChan k s) k
  postEvent 6 k 0 0 [(0, 1, (w : Nat)), (1, 1, (c : Nat)), (4, 4, (x.done : Nat))] (writeStatus k s)

/-- A host DMA channel frees and goes to the waiting ring with the highest priority, which translates its page (R72). -/
def grantChannel (w : WalkReads) (s : State) : State :=
  match (List.range 4).find? (fun c => (tget? s.host.chans c).isNone), nextWaiter s with
  | some c, some k =>
    match xferJob k s with
    | none => s
    | some (j, x) =>
      if !s.host.busMaster || !s.host.linkUp then s
      else
        let s := { s with host := { s.host with chans := tset s.host.chans c k, lastGrant := k } }
        let s := wrb R.HIF_RING_STATE 3 false s k
        let s := modXfer k j.index (fun x => { x with chan := some c }) s
        enterPage k j x w s
  | _, _ => s

/-- A running transfer reaches its next break point (R44, R72, R74); `stop` ends the job of a ring whose disable waits (R54). -/
def breakPoint (k : Nat) (w : WalkReads) (stop : Nat → Job → State → State) (s : State) : State :=
  match xferJob k s with
  | none => s
  | some (j, x) =>
    if x.chan.isNone then s
    else if !x.atBoundary && nextBoundary x ≥ x.len then s
    else
      let s := if x.atBoundary then s else writePage x (nextBoundary x) s
      let x := if x.atBoundary then x else { x with done := nextBoundary x, atBoundary := true }
      let s := leavePage k (modXfer k j.index (fun _ => x) s)
      if rdb R.HIF_RING_STATE 4 s k then stop k j s
      else if !s.host.busMaster || !s.host.linkUp then s
      else
        match preemptor k s with
        | some v => yieldXfer k v j x s
        | none => enterPage k j x w s

/-- The rest of a running transfer lies in its present page, so that it can end (R57). -/
def xferCanEnd (x : Xfer) (data : List Byte) : Bool :=
  x.chan.isSome && !x.atBoundary && decide (x.len ≤ nextBoundary x) && (x.toHost || data.length == x.len)
/-- A transfer's last byte is through: the channel frees, and what goes to the host leaves the module. -/
def endXfer (k : Nat) (j : Job) (x : Xfer) (s : State) : State :=
  let s := writePage x x.len s
  modJob k j.index (fun j => { j with xfer := none }) (leavePage k (freeChan k s))

/-- An invalidation of cached translations (R79): scope 0 or 3 all, 1 one space, 2 every entry that covers an address of one
space.  Transfers that use an invalidated entry must pass their page before it is complete. -/
def invalidate (scope asid addr : Nat) (s : State) : State :=
  let hitT : TlbEntry → Bool := fun e =>
    if scope = 1 then e.asid == asid
    else if scope = 2 then TlbEntryCovers asid (addr / 4096) e
    else true
  let hitW : WalkEntry → Bool := fun e =>
    if scope = 1 then e.asid == asid
    else if scope = 2 then e.asid == asid && e.index == (if e.level = 2 then addr / 2 ^ 30 else addr / 2 ^ 21)
    else true
  { s with host := { s.host with
      tlb := s.host.tlb.filter (fun e => !hitT e)
      walk := s.host.walk.filter (fun e => !hitW e)
      invalUsers := s.host.invalUsers ++ (s.host.pageInUse.filter (fun p => hitT p.2)).map (·.1) } }

end Sys2Proof.Machine
end

