-- ==== Sys2Proof/Machine/Streams.lean ====
section
/-! DEFINITION. Upload streams and their staging (R68, R69). -/

namespace Sys2Proof.Machine

/-- The stream numbers of R69. -/
def stStats : Nat := 0
def stFrames : Nat := 1
def stMaps : Nat := 2
def stMend : Nat := 4
def stTrace : Nat := 5
def stTelemetry : Nat := 6
def streamOf (s : State) (n : Nat) : Stream := tget {} s.host.streams n
def modStream (n : Nat) (f : Stream → Stream) (s : State) : State :=
  { s with host := { s.host with streams := tmod {} s.host.streams n f } }
/-- The UPLOAD_BUFFER that takes the records of stream `n`: the first one that has not closed, with its ring. -/
def waitingBuffer (n : Nat) (s : State) : Option (Nat × Job) :=
  ((List.range 32).filterMap (fun k =>
    if ringType s k = tyUpload ∧ ringState s k = 2 then
      ((ringInt s k).jobs.find? (fun j => dOpcode j.desc == 0x60 && j.cpl.isNone && j.xfer.isNone && dfld j.desc 20 1 == n)).map
        (fun j => (k, j))
    else none)).head?
/-- Bytes an UPLOAD_BUFFER takes. -/
def bufferLen (j : Job) : Nat := dfld j.desc 16 4
/-- An UPLOAD_BUFFER closes: what it holds goes to the host, then it completes (R68). -/
def closeBuffer (k : Nat) (j : Job) (s : State) : State :=
  startXfer k j.index (dfld j.desc 8 8) j.scratch.length true j.scratch s
/-- Records that wait go into the stream's buffers, whole where they fit; a record that no empty buffer can hold goes on in
the next one (log entry 31). -/
def pumpStream (n : Nat) : Nat → State → State
  | 0, s => s
  | fuel + 1, s =>
    match (streamOf s n).staged, waitingBuffer n s with
    | r :: rest, some (k, j) =>
      let room := bufferLen j - j.scratch.length
      if r.length ≤ room then
        let s := modStream n (fun x => { x with staged := rest, stagedBytes := x.stagedBytes - r.length }) s
        let s := modJob k j.index (fun j => { j with scratch := j.scratch ++ r, phase := j.phase + 1 }) s
        if r.length = room then pumpStream n fuel (closeBuffer k { j with scratch := j.scratch ++ r } s) else pumpStream n fuel s
      else if j.scratch = [] then
        let s := modStream n (fun x => { x with staged := r.drop room :: rest, stagedBytes := x.stagedBytes - room }) s
        let s := modJob k j.index (fun j => { j with scratch := r.take room }) s
        pumpStream n fuel (closeBuffer k { j with scratch := r.take room } s)
      else pumpStream n fuel (closeBuffer k j s)
    | _, _ => s
/-- A record for stream `n`: staged and handed to a waiting buffer, or dropped whole and counted (R69). -/
def uploadRecord (n : Nat) (r : List Byte) (s : State) : State :=
  let x := streamOf s n
  if (waitingBuffer n s).isSome || decide (x.stagedBytes + r.length ≤ 262144) then
    let s := emit (.upload n r)
      (modStream n (fun x => { x with staged := x.staged ++ [r], stagedBytes := x.stagedBytes + r.length, runDrops := 0, runBytes := 0 }) s)
    pumpStream n ((streamOf s n).staged.length + 2) s
  else
    let s := modStream n (fun x => { x with dropped := x.dropped + 1, runDrops := x.runDrops + 1, runBytes := x.runBytes + r.length }) s
    if x.runDrops = 0 then
      postEvent 7 n 1 0 [(0, 4, (1 : Nat)), (4, 4, (min r.length (2 ^ 32 - 1) : Nat))] s
    else s

/-- UPLOAD_BUFFER is read: it offers its buffer (R68). -/
def doUploadBuffer (k : Nat) (d : Desc) (s : State) : State :=
  let len := dfld d 16 4
  readDesc k d 0x60 (usedBits [(8, 8), (16, 4), (20, 1)])
    [(16, decide (4096 ≤ len ∧ len ≤ 16777216) && len % 64 == 0), (20, decide (dfld d 20 1 < 8))]
    (fun _ s => let n := dfld d 20 1; pumpStream n ((streamOf s n).staged.length + 2) s) s
/-- UPLOAD_BUFFER (R68). -/
def execUploadBuffer (k : Nat) (d : Desc) (s : State) : Host.Outcome State Fault Refusal := .next (doUploadBuffer k d s)

/-- 10 ms after the first record entered the buffer of a stream, it closes (R68). -/
def doUploadBufferTimeout (n : Nat) (s : State) : State :=
  match waitingBuffer n s with
  | some (k, j) => if j.phase = 0 then s else closeBuffer k j s
  | none => s
/-- UPLOAD_BUFFER_TIMEOUT (R68). -/
def execUploadBufferTimeout (n : Nat) (s : State) : Host.Outcome State Fault Refusal := .next (doUploadBufferTimeout n s)
/-- The completion of an UPLOAD_BUFFER whose bytes are written (R68). -/
def uploadBufferDone (k : Nat) (j : Job) (s : State) : State :=
  let n := dfld j.desc 20 1
  let d := (streamOf s n).dropped
  let s := modStream n (fun x => { x with dropped := 0 }) s
  let s := complete k j.index
    { status := stOk, result := j.scratch.length + 2 ^ 32 * (j.phase % 2 ^ 32) + 2 ^ 64 * (min d (2 ^ 32 - 1)) } s
  pumpStream n ((streamOf s n).staged.length + 2) s

end Sys2Proof.Machine
end

