-- ==== Sys2Proof/Machine/PassBase.lean ====
section
/-! DEFINITION. Passes: the pass in execution, the geometry of its line events (R166, R167, R199), and the mend stage: slates,
the mend log and its entries (R268 to R282). -/

namespace Sys2Proof.Machine

/-- The active head geometry table (R163); `none` where none is loaded. -/
def geometry? (s : State) : Option Geometry :=
  if s.dose.bsc.geometry = [] then none else some (geometryOf s.dose.bsc.geometry)
/-- The geometry in use while no table is active: no row, and the reference head's 16,384 columns, so that a stream is checked
against T = 512 (R85; log entry 54). -/
def noGeometry : Geometry :=
  { rowCount := 0, stagger := 1, groupCount := 1, beamlets := 256, columns := 16384, portMask := 0, flags := 0, headId := 0, rows := [], vernier := [] }
/-- The geometry in use. -/
def geom (s : State) : Geometry := (geometry? s).getD noGeometry
/-- The pass in execution (R113). -/
def curPass (s : State) : Option Pass := s.dose.passes.find? (fun p => p.executing)
def modPassOf (i : Nat) (f : Pass → Pass) (s : State) : State :=
  { s with dose := { s.dose with passes := s.dose.passes.map (fun p => if p.index = i then f p else p) } }
/-- Changes the pass in execution. -/
def modPass (f : Pass → Pass) (s : State) : State :=
  { s with dose := { s.dose with passes := s.dose.passes.map (fun p => if p.executing then f p else p) } }
def modMnd (f : MndState → MndState) (s : State) : State := { s with dose := { s.dose with mnd := f s.dose.mnd } }
def modPlc (f : PlcState → PlcState) (s : State) : State := { s with dose := { s.dose with plc := f s.dose.plc } }
def modBsc (f : BscState → BscState) (s : State) : State := { s with dose := { s.dose with bsc := f s.dose.bsc } }
def modThe (f : TheState → TheState) (s : State) : State := { s with dose := { s.dose with the := f s.dose.the } }
def portOf (s : State) (p : Nat) : Port := tget {} s.dose.ports p
def modPort (p : Nat) (f : Port → Port) (s : State) : State := { s with dose := { s.dose with ports := tmod {} s.dose.ports p f } }

/-- line_offset of a row (R163). -/
def offOf (g : Geometry) (r : Nat) : Nat := (rowAt g r).lineOffset
/-- line_offset of row R − 1 (R199). -/
def offMax (g : Geometry) : Nat := offOf g (g.rowCount - 1)
/-- The last stream line of a pass. -/
def lastLine (p : Pass) : Nat := p.first + p.count - 1
/-- A stream line lies within the pass. -/
def inPass (p : Pass) (n : Nat) : Bool := decide (p.first ≤ n ∧ n ≤ lastLine p)
/-- The first and the last line event of a pass, in pass order (R199). -/
def firstEvent (g : Geometry) (p : Pass) : Nat := if p.dir = 0 then p.first else lastLine p + offMax g
def finalEvent (g : Geometry) (p : Pass) : Nat := if p.dir = 0 then lastLine p + offMax g else p.first
/-- The leading row's line event for line n, and the trailing row's (R199). -/
def leadEvent (g : Geometry) (p : Pass) (n : Nat) : Nat := if p.dir = 0 then n else n + offMax g
def trailEvent (g : Geometry) (p : Pass) (n : Nat) : Nat := if p.dir = 0 then n + offMax g else n
/-- Event a lies before event b in pass order. -/
def eventBefore (p : Pass) (a b : Nat) : Bool := if p.dir = 0 then decide (a < b) else decide (b < a)
/-- The line event after m in pass order. -/
def nextEvent (p : Pass) (m : Nat) : Nat := if p.dir = 0 then m + 1 else m - 1
/-- x_m (R199), for any m. -/
def eventPos (pitch : Nat) (p : Pass) (m : Int) : Int := p.origin + m * pitch
/-- `a` lies at or beyond `b` in the pass direction. -/
def beyond (p : Pass) (a b : Int) : Bool := if p.dir = 0 then decide (0 ≤ pdiff a b) else decide (0 ≤ pdiff b a)
/-- The row that crosses a line last in the pass (R167). -/
def trailRow (g : Geometry) (p : Pass) : Nat := if p.dir = 0 then g.rowCount - 1 else 0
/-- The rows that dose a line of the pass at line event m, with the line, by port and slot (R213, R248). -/
def rowsAt (g : Geometry) (p : Pass) (m : Nat) : List (Nat × Nat) :=
  ((List.range g.rowCount).filterMap (fun r =>
    let o := offOf g r
    if o ≤ m ∧ inPass p (m - o) then some (r, m - o) else none))
/-- A group's place in pass order: row 0's group first in a forward pass (R167, R270). -/
def groupPos (p : Pass) (k : Nat) : Int := if p.dir = 0 then (k : Int) else -(k : Int)
/-- All blocks of a row: B / 256 of them (R269). -/
def blockCount (g : Geometry) : Nat := g.beamlets / 256
def allBlocks (g : Geometry) : Nat := 2 ^ blockCount g - 1
/-- The direction's cookie for word 1 of a pass's events, 0 outside a pass. -/
def passCookie (s : State) : Nat := ((curPass s).map (·.cookie)).getD 0
/-- The open layer's number, 0 where none is open. -/
def layerNumber (s : State) : Nat := (s.dose.layer.map (·.number)).getD 0

/-! ### The mend log (R275 to R282) -/

/-- A saturating MND counter posts EV_MAKEUP_DONE with cause 2 (R289). -/
def satMnd (off : Nat) (s : State) : State :=
  postEvent 69 0 0 (passCookie s) [(0, 4, (layerNumber s : Nat)), (4, 2, ((((curPass s).map (·.number)).getD 0) : Nat)), (6, 1, 2), (8, 4, (off : Nat))] s
def bumpMnd (r : RegInfo) (n : Nat) (s : State) (i : Nat := 0) : State :=
  if n = 0 then s else bump r n (satMnd (regAddr r i - 0x150000)) s i
/-- Number of set bits below `n`. -/
def popcount (n m : Nat) : Nat := (onesOf n m).length
/-- The 64 bytes of an entry (R276). -/
def mendBytes (e : MendEntry) : List Byte :=
  leBytes 64 (layout [(0, 4, (e.seq : Nat)), (4, 4, (e.layer : Nat)), (8, 4, (e.first : Nat)), (12, 4, (e.count : Nat)),
    (16, 2, (e.pass : Nat)), (18, 1, (e.dir : Nat)), (19, 1, (e.cause : Nat)), (20, 1, (e.blocks : Nat)), (21, 1, (e.flags : Nat)),
    (22, 2, (e.swath : Nat)), (24, 4, (e.cookie : Nat)), (28, 4, (e.cutEvent : Nat)), (32, 16, (e.rows : Nat)),
    (48, 8, (e.loggedTt : Nat)), (56, 4, (e.frames : Nat)), (60, 1, (e.status : Nat))])
def findEntry (seq : Nat) (s : State) : Option MendEntry := s.dose.mnd.log.find? (fun e => e.seq == seq)
def modEntry (seq : Nat) (f : MendEntry → MendEntry) (s : State) : State :=
  modMnd (fun m => { m with log := m.log.map (fun e => if e.seq = seq then f e else e) }) s
/-- MND_STATUS.open follows the log (R292). -/
def showOpen (s : State) : State :=
  wrf R.MND_STATUS 8 15 ((s.dose.mnd.log.filter (fun e => e.status == 0)).length) s
/-- An entry is sealed: only now it is written to UPLOAD stream 4 (R277). -/
def sealEntry (seq : Nat) (s : State) : State :=
  match findEntry seq s with
  | none => s
  | some e =>
    if e.sealed then s
    else
      let e := { e with sealed := true, loggedTt := ttNow s }
      uploadRecord stMend (mendBytes e) (modEntry seq (fun _ => e) s)
def sealNewest (s : State) : State :=
  match s.dose.mnd.newest with
  | none => s
  | some q => sealEntry q (modMnd (fun m => { m with newest := none }) s)
/-- An entry leaves the log with a status: written to stream 4, its slot freed (R281). -/
def removeEntry (seq status : Nat) (s : State) : State :=
  match findEntry seq s with
  | none => s
  | some e =>
    let s := modMnd (fun m => { m with
      log := m.log.filter (fun x => x.seq != seq)
      newest := if m.newest = some seq then none else m.newest
      overflow := if m.overflow = some seq then none else m.overflow }) s
    let s := wrb R.MND_STATUS 2 s.dose.mnd.overflow.isSome s
    showOpen (uploadRecord stMend (mendBytes { e with status := status }) s)

/-- What is to be logged: lines, pairs, cause and flags (R275, R276). -/
structure MendSet where
  first : Nat
  count : Nat := 1
  rows : Nat
  blocks : Nat
  cause : Nat
  flags : Nat := 0
  cutEvent : Nat := 0
  frames : Nat
  deriving DecidableEq, Repr

/-- Flag bits of an entry (R276). -/
def flCut : Nat := 1
def flUncertain : Nat := 2
def flLateFired : Nat := 4
def flTruncated : Nat := 8
def flOverflow : Nat := 16
def sat32 (n : Nat) : Nat := min n (2 ^ 32 - 1)
/-- A set joins an entry: same pairs, and the line adjoins its range (R277). -/
def adjoins (e : MendEntry) (m : MendSet) : Bool :=
  e.cause == m.cause && e.flags == m.flags && e.blocks == m.blocks && e.rows == m.rows && e.cutEvent == m.cutEvent &&
    e.status == 0 && !e.sealed && (m.first == e.first + e.count || m.first + m.count == e.first)
/-- The overflow entry takes a further set (R280). -/
def widen (e : MendEntry) (m : MendSet) : MendEntry :=
  let lo := min e.first m.first
  let hi := max (e.first + e.count) (m.first + m.count)
  let same := bit 0 e.flags && m.flags % 2 == 1 && e.cutEvent == m.cutEvent
  { e with first := lo, count := hi - lo, rows := e.rows ||| m.rows, blocks := e.blocks ||| m.blocks,
           flags := if same then e.flags else e.flags - e.flags % 2, cutEvent := if same then e.cutEvent else 0,
           frames := sat32 (e.frames + m.frames) }
/-- EV_MEND_LOGGED for the first entry of a pass and of each further cause (R289). -/
def reportLogged (p : Pass) (e : MendEntry) (s : State) : State :=
  if p.causes.contains e.cause then s
  else
    postEvent 68 0 1 p.cookie [(0, 4, (e.layer : Nat)), (4, 4, (e.seq : Nat)), (8, 4, (e.first : Nat)), (12, 1, (e.cause : Nat)),
      (13, 1, (e.flags : Nat)), (14, 2, (e.pass : Nat))] (modPassOf p.index (fun q => { q with causes := e.cause :: q.causes }) s)
/-- A new entry for a set of pass `p` (R276). -/
def newEntry (p : Pass) (m : MendSet) (extra : Nat) (s : State) : State :=
  let seq := rd R.MND_NEXT_SEQ s
  let e : MendEntry :=
    { seq, layer := p.layer, first := m.first, count := m.count, pass := p.number, dir := p.dir, cause := m.cause,
      blocks := m.blocks, flags := m.flags ||| extra, swath := p.swath, cookie := p.cookie, cutEvent := m.cutEvent,
      rows := m.rows, frames := sat32 m.frames }
  let s := sealNewest s
  let s := wr R.MND_NEXT_SEQ (seq + 1) s
  let s := modMnd (fun x => { x with log := x.log ++ [e], newest := some seq }) s
  let s := bumpMnd R.MND_ENTRIES_ADDED 1 (modPassOf p.index (fun q => { q with added := q.added + 1 }) (showOpen s))
  reportLogged p e s
/-- Logs a set for pass `p`: merged into the newest entry, as a new one, or in the overflow entry (R277, R280). -/
def logSet (p : Pass) (m : MendSet) (s : State) : State :=
  let newest := s.dose.mnd.newest.bind (fun q => findEntry q s)
  match newest with
  | some e =>
    if adjoins e m then
      modEntry e.seq (fun e => { e with first := min e.first m.first, count := e.count + m.count, frames := sat32 (e.frames + m.frames) }) s
    else logFresh p m s
  | none => logFresh p m s
where
  logFresh (p : Pass) (m : MendSet) (s : State) : State :=
    let p := (s.dose.passes.find? (fun q => q.index == p.index)).getD p
    match s.dose.mnd.overflow with
    | some q =>
      if s.dose.mnd.log.length - 1 < 16383 then newEntry p m 0 s
      else
        let s := if s.dose.mnd.newest = some q then s else sealNewest s
        bumpMnd R.MND_UNLOGGED 1 (modEntry q (fun e => widen e m) s)
    | none =>
      if s.dose.mnd.log.length < 16383 then newEntry p m 0 s
      else
        let q := rd R.MND_NEXT_SEQ s
        let s := newEntry p m (flOverflow + flUncertain) s
        let s := wrb R.MND_STATUS 2 true (modMnd (fun x => { x with overflow := some q }) s)
        let s := postEvent 71 0 2 p.cookie [(0, 4, (p.layer : Nat)), (4, 2, (p.number : Nat)), (8, 4, (m.first : Nat)), (12, 4, (q : Nat))] s
        bumpMnd R.MND_UNLOGGED 1 s

/-- The sets of one line's owed pairs: for each cause and flags, and each block mask, the rows that owe it (R275). -/
def setsOf (line : Nat) (l : List Owed) : List MendSet :=
  let keys := (l.map (fun o => (o.cause, o.flags))).eraseDups
  keys.flatMap (fun kf =>
    let mine := l.filter (fun o => o.cause == kf.1 && o.flags == kf.2)
    let rows := (mine.map (·.row)).eraseDups
    let byRow := rows.map (fun r => (r, (mine.filter (fun o => o.row == r)).foldl (fun m o => m ||| o.blocks) 0))
    let masks := (byRow.map (·.2)).eraseDups
    masks.map (fun b =>
      let rs := (byRow.filter (fun x => x.2 == b)).map (·.1)
      { first := line, rows := maskOf rs, blocks := b, cause := kf.1, flags := kf.2, frames := rs.length : MendSet }))
/-- Logs owed pairs of one line. -/
def logOwed (p : Pass) (line : Nat) (l : List Owed) (s : State) : State := each (setsOf line l) (logSet p) s

/-! ### Slates (R269 to R273) -/

/-- Make-up causes (R268). -/
def makeupCause (c : Nat) : Bool := [3, 4, 5, 12, 17, 18, 21, 22, 23].contains c
def slateKey (n stagger : Nat) : Nat := 16 * n + stagger
/-- MND_SLATES_USED and its peak (R291). -/
def showSlates (s : State) : State :=
  let n := s.dose.mnd.slates.length
  peak R.MND_SLATES_PEAK n (wr R.MND_SLATES_USED n s)
/-- Pairs that are owed and are not made up wait for their line's log (R275). -/
def oweLine (n : Nat) (o : Owed) (s : State) : State :=
  modMnd (fun m => { m with owed := tmod [] m.owed n (fun l => l ++ [o]) }) s
/-- Blocks of row `r` on line `n` enter the slate for (n, stagger) (R269). -/
def enterSlate (p : Pass) (g : Geometry) (n r blocks cause flags : Nat) (s : State) : State :=
  let e := rowAt g r
  let key := slateKey n e.stagger
  if (tget? s.dose.mnd.slates key).isNone && decide (s.dose.mnd.slates.length ≥ 65536) then
    bumpMnd R.MND_SLATE_FULL (popcount 8 blocks)
      (logSet p { first := n, rows := 2 ^ r, blocks := blocks, cause := cause, flags := flags, frames := 1 } s)
  else
    let add : SlateBlock → SlateBlock := fun b =>
      { b with groups := b.groups.filter (fun x => x.1 != e.group) ++ [(e.group, cause, flags)]
               last := if b.groups = [] ∨ b.early ∨ groupPos p b.last < groupPos p e.group then e.group else b.last
               early := false }
    showSlates (modMnd (fun m => { m with slates := tmod [] m.slates key (fun t => (onesOf 8 blocks).foldl (fun t j => tmod {} t j add) t) }) s)
/-- The cut of the pass has logged row `r` on line `n` (R278). -/
def cutCovers (g : Geometry) (p : Pass) (n r : Nat) : Bool :=
  p.cutLogged.contains (r, n) ||
  (match p.cut with
   | none => false
   | some (m, _) => !eventBefore p (n + offOf g r) m)
/-- Blocks `blocks` of row `r` are withheld on line `n` with a cause: into a slate where the cause is made up, else toward the
log (R268, R269).  What a missed line or a cut has logged is not withheld again. -/
def withhold (p : Pass) (n r blocks cause flags : Nat) (s : State) : State :=
  if blocks = 0 ∨ p.missed.contains n ∨ p.residueLines.contains n ∨ cutCovers (geom s) p n r then s
  else if makeupCause cause ∧ rdb R.MND_CTRL 0 s then enterSlate p (geom s) n r blocks cause flags s
  else oweLine n { row := r, blocks := blocks, cause := cause, flags := flags } s
/-- A frame that carries blocks is gone without firing: they are in flight no more (R272). -/
def dropCarrier (f : Frame) (s : State) : State :=
  if f.carried = [] then s
  else
    let key := slateKey f.line (rowAt (geom s) f.row).stagger
    if (tget? s.dose.mnd.slates key).isNone then s
    else
      let back : Table SlateBlock → Table SlateBlock := fun t =>
        t.map (fun jb => if f.carried.any (fun c => c.1 == jb.1) then (jb.1, { jb.2 with carrier := none }) else jb)
      modMnd (fun m => { m with slates := tmod ([] : Table SlateBlock) m.slates key back }) s
/-- Counts withheld frames by their cause (R291). -/
def countFrames (cause n : Nat) (s : State) : State :=
  if 1 ≤ cause ∧ cause ≤ 23 then bumpMnd R.MND_CAUSE_FRAMES n s (cause - 1) else s
/-- A frame's pulses are withheld with a cause, and the frame is counted (R268, R291). -/
def withholdRow (p : Pass) (n r blocks cause flags : Nat) (s : State) : State :=
  if cutCovers (geom s) p n r then s else countFrames cause 1 (withhold p n r blocks cause flags s)
/-- A set of whole frames is logged at once and counted by its cause (R278, R279, R291). -/
def logFrames (p : Pass) (m : MendSet) (s : State) : State := countFrames m.cause m.frames (logSet p m s)
/-- The row of group k with a stagger. -/
def rowOf (g : Geometry) (k st : Nat) : Nat := rowOfCross g k st
/-- The owed pairs that the slates of a line hold and that no frame carries. -/
def slateOwed (g : Geometry) (n : Nat) (s : State) : List Owed :=
  (List.range g.stagger).flatMap (fun st =>
    ((tget [] s.dose.mnd.slates (slateKey n st)).filter (fun jb => jb.2.carrier.isNone)).flatMap (fun jb =>
      jb.2.groups.map (fun gr => { row := rowOf g gr.1 st, blocks := 2 ^ jb.1, cause := gr.2.1, flags := gr.2.2 : Owed })))
/-- Every pair of a line that is owed and in no frame. -/
def owedNow (g : Geometry) (n : Nat) (s : State) : List Owed := tget [] s.dose.mnd.owed n ++ slateOwed g n s
/-- The pairs of a line and of the rows `sel` that are owed and in no frame are owed no more. -/
def dropOwed (g : Geometry) (n : Nat) (sel : Nat → Bool) (s : State) : State :=
  let one : Nat → Table SlateBlock → Table SlateBlock := fun st t =>
    t.map (fun jb => if jb.2.carrier.isSome then jb else (jb.1, { jb.2 with groups := jb.2.groups.filter (fun gr => !sel (rowOf g gr.1 st)) }))
  modMnd (fun m => { m with
    owed := (match m.owed.find? (fun e => e.1 == n) with
      | none => m.owed
      | some e => match e.2.filter (fun o => !sel o.row) with
        | [] => terase m.owed n
        | l => tset m.owed n l)
    slates := m.slates.map (fun e => if e.1 / 16 = n then (e.1, one (e.1 % 16) e.2) else e) }) s
/-- The slates of a line are freed (R275). -/
def freeSlates (g : Geometry) (n : Nat) (s : State) : State :=
  showSlates (modMnd (fun m => { m with slates := (List.range g.stagger).foldl (fun t st => terase t (slateKey n st)) m.slates, owed := terase m.owed n }) s)
/-- The owed remainder of a line that no frame carries is logged (R275, R278). -/
def logRemainder (p : Pass) (n : Nat) (s : State) : State :=
  let g := geom s
  let blocks := (List.range g.stagger).foldl (fun c st =>
    c + ((tget [] s.dose.mnd.slates (slateKey n st)).filter (fun jb => jb.2.carrier.isNone && !jb.2.groups.isEmpty)).length) 0
  let l := owedNow g n s
  let s := bumpMnd R.MND_CARRIED_TO_LOG blocks (modPassOf p.index (fun q => { q with carriedToLog := q.carriedToLog + blocks }) s)
  dropOwed g n (fun _ => true) (logOwed p n l s)
/-- The last crossing of line `n` has resolved: its owed remainder is logged and its slates are freed (R275). -/
def logLine (p : Pass) (n : Nat) (s : State) : State := freeSlates (geom s) n (logRemainder p n s)
/-- Lines with slates or owed pairs that the pass has not logged. -/
def openLines (s : State) : List Nat :=
  (s.dose.mnd.slates.map (fun (e : Nat × Table SlateBlock) => e.1 / 16) ++ s.dose.mnd.owed.map (fun (e : Nat × List Owed) => e.1)).eraseDups
/-- The runs of neighbours in a rising list: first and count. -/
def lineRuns : List Nat → List (Nat × Nat)
  | [] => []
  | n :: l =>
    match lineRuns l with
    | (a, k) :: r => if a = n + 1 then (n, k + 1) :: r else (n, 1) :: (a, k) :: r
    | [] => [(n, 1)]

/-- An entry of a mend log covers row `r` on line `n`: under CUT, from the cut event on in the direction of its pass (R276). -/
def entryCovers (g : Geometry) (e : MendEntry) (n r : Nat) : Bool :=
  decide (e.first ≤ n ∧ n < e.first + e.count) && bit r e.rows &&
    (!bit 0 e.flags || (if e.dir = 0 then decide (e.cutEvent ≤ n + offOf g r) else decide (n + offOf g r ≤ e.cutEvent)))
/-- The pairs a mend pass owes on (line, row): the block mask of the entries closed for it (R284, R285). -/
def owedBlocks (g : Geometry) (p : Pass) (n r : Nat) : Nat :=
  p.owedSet.foldl (fun m e => if entryCovers g e n r then m ||| e.blocks else m) 0

/-- A row's group is excluded in a mend pass (R285). -/
def excluded (p : Pass) (k : Nat) : Bool := p.mend && bit k p.exclude
/-- The blocks of its own shares that a row fires on a line: all in a swath; in a mend pass what it owes, none in an excluded
group (R285). -/
def ownBlocks (g : Geometry) (p : Pass) (n r : Nat) : Nat :=
  if !p.mend then allBlocks g else if excluded p (rowAt g r).group then 0 else owedBlocks g p n r

end Sys2Proof.Machine
end

