-- ==== Sys2Proof/Machine/LinkBase.lean ====
section
/-! DEFINITION. Dose-link ports: states, ticks, the outbound lanes (R233 to R238), control blocks (R234), recalls (R213, R253), what takes
a port down (R262) and the frames outstanding (R256). -/

namespace Sys2Proof.Machine

/-- Port states (R239). -/
def lnkState (p : Nat) (s : State) : Nat := rdf R.LNK_STATUS 0 4 s p
/-- The version negotiated: 0 none, 1 to 3 (R264). -/
def lnkVersion (p : Nat) (s : State) : Nat := rdf R.LNK_STATUS 4 2 s p
/-- The port counts as ACTIVE: ACTIVE, IDLE or FAST_EXIT (R247). -/
def lnkUp (p : Nat) (s : State) : Bool := let x := lnkState p s; x == 10 || x == 11 || x == 12
/-- The port's tick counter (R210, R263). -/
def tickOf (p : Nat) (s : State) : Nat := (portOf s p).tick256 / 256 % 2 ^ 32
/-- Ports that the active geometry uses (R163). -/
def portsInUse (s : State) : List Nat := onesOf 4 (geom s).portMask
/-- Every frame sent and not resolved, of every pass. -/
def outstanding (s : State) : List Frame := s.dose.passes.flatMap (fun p => p.frames.filter (fun f => f.sent.isSome))
def outstandingOn (p : Nat) (s : State) : List Frame := (outstanding s).filter (fun f => f.port == p)
/-- The fire tick of a frame that was sent. -/
def fireTick (f : Frame) : Nat := (f.sent.map (·.tick)).getD 0
/-- Changes every frame of every pass. -/
def modFrames (f : Frame → Frame) (s : State) : State :=
  { s with dose := { s.dose with passes := s.dose.passes.map (fun p => { p with frames := p.frames.map f }) } }

/-- A control block: its 28 bytes and the block_crc over them (R234). -/
def controlBlock (body : Nat) : Nat := body % 2 ^ 224 + crc32c (leBytes 28 body) * 2 ^ 224

/-! ### The outbound lanes (R233 to R240, R252) -/

def setLnk (p st : Nat) (s : State) : State := wrf R.LNK_STATUS 0 4 st s p
def modTx (p : Nat) (f : PortTx → PortTx) (s : State) : State := modPort p (fun x => { x with tx := f x.tx }) s
/-- The physical lane that carries a logical lane (R241). -/
def physLane (p k : Nat) (s : State) : Nat := ((List.range 8).find? (fun i => bits (4 * i) 4 (rd R.LNK_LANE_MAP s p) == k)).getD k
/-- One block on one logical lane. -/
def laneSend (p k : Nat) (scr ctrl : Bool) (payload : List Byte) (s : State) : State :=
  let r := laneBlock scr ctrl payload (tget {} (portOf s p).tx.lanes k)
  emit (.laneBits p (physLane p k s) r.1)
    (modTx p (fun t => { t with lanes := tset t.lanes k r.2, credit := t.credit - ((8 * r.1.length : Nat) : Int) }) s)
/-- A type whose payload is scrambled: every control block but ALIGN and TRAIN (R234, R235). -/
def scrambled (type : Nat) : Bool := type != 0 && type != 5 && type != 6
/-- The ALIGN block of a logical lane (R238). -/
def alignBlock (p k : Nat) (s : State) : Nat :=
  controlBlock (layout [(0, 1, 5), (1, 1, (k : Nat)), (2, 1, ((portOf s p).lanesOut : Nat)), (3, 1, (lnkVersion p s : Nat)),
    (4, 2, ((portOf s p).tx.align : Nat)), (6, 1, (p : Nat)), (7, 2, ((portOf s p).module : Nat))])
/-- An ALIGN block on every lane, and each lane's scrambler at its seed (R235, R238). -/
def sendAlign (p : Nat) (s : State) : State :=
  let s := each (List.range (portOf s p).lanesOut) (fun k s =>
    modTx p (fun t => { t with lanes := tmod {} t.lanes k (fun l => { l with lfsr := seedOf 0 k }) })
      (laneSend p k false true (leBytes 32 (alignBlock p k s)) s)) s
  modTx p (fun t => { t with align := (t.align + 1) % 65536, since := 0 }) s
/-- The stream starts anew behind an ALIGN block: at the start of NEGOTIATE, and behind a retrain or a burst (R235, R239, log entry
29). -/
def beginStream (p : Nat) (s : State) : State := modTx p (fun t => { t with index := 0 }) (sendAlign p s)
/-- Stream blocks on each lane between two ALIGN blocks (R238). -/
def alignEvery (p : Nat) (s : State) : Nat := if lnkState p s = 7 then 64 else 4096
/-- The next block of the port's stream goes to its lane; an ALIGN block follows where one is due (R238).  `type` is 0 for a data
block. -/
def sendStream (p type : Nat) (payload : Nat) (s : State) : State :=
  let n := (portOf s p).lanesOut
  if n = 0 then s
  else
    let k := (portOf s p).tx.index % n
    let s := laneSend p k (scrambled type) (type != 0) (leBytes 32 payload) (emit (.linkBlock p type payload) s)
    let s := modTx p (fun t => { t with index := t.index + 1, since := t.since + 1 }) s
    if (portOf s p).tx.since ≥ alignEvery p s * n then sendAlign p s else s
/-- Sends a control block of a type on a port. -/
def sendBlock (p type : Nat) (fields : List (Nat × Nat × Int)) (s : State) : State :=
  sendStream p type (controlBlock (type + layout fields)) s
/-- Return lanes in use. -/
def backLanes (p : Nat) (s : State) : List Nat := onesOf 2 (rdf R.LNK_STATUS 16 2 s p)
/-- The receiver of a return lane has the lock that the state asks for: bit lock in BITLOCK, header lock beyond (R237, R239). -/
def laneLocked (p lane : Nat) (s : State) : Bool :=
  let l := tget {} (portOf s p).rx lane
  if lnkState p s = 3 then l.bitLocked else l.locked
/-- The TRAIN block of a logical lane (R240). -/
def trainBlock (p k : Nat) (s : State) : Nat :=
  let x := portOf s p
  let locks := maskOf (((backLanes p s).filter (fun l => laneLocked p l s)).map (fun l => tget l x.backMap l))
  controlBlock (layout [(0, 1, 6), (1, 1, (k : Nat)), (2, 1, (x.lanesOut : Nat)), (3, 1, (lnkState p s : Nat)), (4, 1, (b2n x.mineDone : Nat)),
    (5, 1, (locks : Nat))] + 0x4B * ((2 ^ 176 - 1) / 255) * 2 ^ 48)
/-- What a lane sends where the port has nothing else (R239, R240, R252): TRAIN blocks in training, the burst of a FAST_EXIT with the
ALIGN block behind it, and IDLE blocks with placement's heartbeat elsewhere. -/
def sendFill (p : Nat) (s : State) : State :=
  let st := lnkState p s
  let x := portOf s p
  let train := fun (s : State) => sendStream p 6 (trainBlock p (x.tx.index % max 1 x.lanesOut) s) s
  if 3 ≤ st ∧ st ≤ 7 then train s
  else if st = 12 ∧ x.tx.burst ≠ 0 then
    let s := modTx p (fun t => { t with burst := t.burst - 1 }) (train s)
    if x.tx.burst = 1 then beginStream p s else s
  else sendBlock p 4 [(1, 2, (s.dose.plc.heartbeat : Nat))] s
/-- Fill follows until the line time is used up. -/
def fillLanes (p : Nat) : (fuel : Nat) → State → State
  | 0, s => s
  | n + 1, s => if (portOf s p).tx.credit ≤ 0 then s else fillLanes p n (sendFill p s)
/-- The lanes of a port carry blocks: from BITLOCK on, but not in IDLE (R239). -/
def lanesRun (p : Nat) (s : State) : Bool := let st := lnkState p s; (decide (3 ≤ st) && decide (st ≤ 10)) || st == 12
/-- `d` eighths of a line bit pass on every lane of the ports. -/
def advanceLanes (d : Nat) (s : State) : State :=
  each [0, 1, 2, 3] (fun p s =>
    let n := (portOf s p).lanesOut
    if lanesRun p s && n != 0 then fillLanes p (2 * n) (modTx p (fun t => { t with credit := t.credit + ((n * d : Nat) : Int) }) s) else s) s

/-! ### A port goes down (R239, R262, R264) -/

/-- A LANE_FAULT of a port (R262): physical lane, direction, cause. -/
def laneFault (p lane dir cause : Nat) (s : State) : State :=
  postEvent (85 + 8 * p) p (if cause = 4 ∨ cause = 5 then 0 else 1) 0 [(0, 1, (lane : Nat)), (1, 1, (dir : Nat)), (2, 1, (cause : Nat)), (3, 1, (lnkState p s : Nat))] s
/-- LINK_DOWN (R262). -/
def postDown (p cause lane : Nat) (s : State) : State :=
  postEvent (81 + 8 * p) p (if (curPass s).isSome then 2 else 1) 0 [(0, 1, (lnkState p s : Nat)), (1, 1, (cause : Nat)), (2, 1, (lane : Nat)),
    (4, 4, ((outstandingOn p s).length : Nat))] s
/-- A port that is not ACTIVE has no valid anchor (R212). -/
def loseAnchor (p : Nat) (s : State) : State := modPlc (fun c => { c with anchors := c.anchors.filter (· != p) }) s
/-- Training variables start afresh. -/
def clearTraining (p : Nat) (s : State) : State :=
  modPort p (fun x => { x with mineDone := false, theirsDone := false, trainRuns := [], backInverted := 0, backMap := [], alignSeq := [], offsets := [],
                               flights := [], repeats := 0, waiting := false, offered := 0, checkDue := false, rx := [] }) s
/-- The port stands in OFF or DETECT: no version, no lane in use (R263, R264). -/
def clearPort (p st : Nat) (s : State) : State :=
  let s := wr R.LNK_LANE_POL 0 (wr R.LNK_LANE_MAP 0xFFFFFFFF (wr R.LNK_STATUS st s p) p) p
  clearTraining p (modPort p (fun x => { x with lanesOut := 0, lanesBack := 0, tx := {} }) s)

/-- A saturating LNK counter posts LANE_FAULT with cause COUNTER (R262). -/
def satLnk (p off : Nat) (s : State) : State :=
  postEvent (85 + 8 * p) p 1 0 [(0, 1, 0xFF), (2, 1, 8), (3, 1, (lnkState p s : Nat)), (4, 4, (off : Nat))] s
def bumpLnk (r : RegInfo) (p : Nat) (s : State) : State := bump r 1 (satLnk p (r.base - 0x160000)) s p

/-- A saturating SAF counter posts EV_BEZEL_TRIP with cause 7 (R517). -/
def satSaf (off : Nat) (s : State) : State := postEvent 224 0 2 0 [(0, 1, 7), (1, 1, 0xFF), (4, 4, (off : Nat))] s
/-- EV_BEAM_ENABLE_DROP where a frame is outstanding (R494, R517). -/
def postDrop (cause port : Nat) (s : State) : State :=
  match outstanding s with
  | [] => s
  | f :: r =>
    let first := r.foldl (fun a b => if sdiff 32 (fireTick b) (fireTick a) < 0 then b else a) f
    postEvent 226 0 1 0 [(0, 1, (cause : Nat)), (1, 1, (port : Nat)), (4, 4, ((r.length + 1 : Nat) : Nat)), (8, 4, (first.line : Nat))] s
/-- BEAM_ENABLE of a port is driven inactive for a recall at JNL1 (R213). -/
def holdEnable (p : Nat) (s : State) : State :=
  if (portOf s p).enableHeld then s
  else
    postDrop 6 p (bump R.SAF_BEAM_DROPS 1 (satSaf 0x34) (modPort p (fun x => { x with enableHeld := true }) s))
/-- A recall on a port: a RECALL block at JNL2 and JNL3, BEAM_ENABLE at JNL1; the frames it covers are marked (R213, R253).  A board that
trains has discarded its frames, and needs neither (R261). -/
def recallPort (p : Nat) (s : State) : State :=
  let now := tickOf p s
  let open_ := (outstandingOn p s).filter (fun f => !f.recalled && decide (sdiff 32 (fireTick f) now > 0))
  if open_ = [] then s
  else if !lnkUp p s then modFrames (fun f => if f.port = p ∧ f.sent.isSome then { f with recalled := true } else f) s
  else if lnkVersion p s ≥ 2 then
    let tr := (now + rd R.LNK_RECALL_MARGIN s p) % 2 ^ 32
    let s := sendBlock p 3 [(4, 4, (tr : Nat)), (8, 4, ((portOf s p).recallSeq : Nat))] s
    let s := bumpLnk R.LNK_RECALLED p (modPort p (fun x => { x with recallSeq := x.recallSeq + 1 }) s)
    modFrames (fun f => if f.port = p ∧ f.sent.isSome ∧ sdiff 32 (fireTick f) tr ≥ 0 then { f with recalled := true } else f) s
  else
    holdEnable p (modFrames (fun f => if f.port = p ∧ f.sent.isSome then { f with recalled := true } else f) s)
/-- A recall on every port. -/
def recallAll (s : State) : State := each [0, 1, 2, 3] recallPort s
/-- Every frame sent on the port before a JNL1 recall has resolved: BEAM_ENABLE may be asserted again (R213). -/
def releaseEnable (p : Nat) (s : State) : State :=
  if (portOf s p).enableHeld && (outstandingOn p s).all (fun f => !f.recalled) then modPort p (fun x => { x with enableHeld := false }) s else s

end Sys2Proof.Machine
end

