-- ==== Sys2Proof/Machine/Time.lean ====
section
/-! DEFINITION. The time unit (R411 to R434): the counter and its views, the servo, steps, comparators, PPS, the PTP ports,
and OP_TIME_CTRL. -/

namespace Sys2Proof.Machine

/-- NOMINAL: 0.8 ns in Q8.32 (R416). -/
def tsyNominal : Nat := 0xCCCCCCCD
/-- E in units of 2^-32 ns. -/
def e32 (s : State) : Nat := s.time.ns * 2 ^ 32 + s.time.frac
/-- E set from units of 2^-32 ns. -/
def putE32 (x : Int) (s : State) : State :=
  let v := toBits 96 x
  { s with time := { s.time with ns := v / 2 ^ 32, frac := v % 2 ^ 32 } }
/-- The wrap count of E (R411). -/
def wrapCount (s : State) : Nat := s.time.ns / 2 ^ 48 % 2 ^ 16
/-- TSY_CTRL.source and TSY_STATUS.state (R434). -/
def tsySource (s : State) : Nat := rdf R.TSY_CTRL 0 3 s
def tsyState (s : State) : Nat := rdf R.TSY_STATUS 0 3 s
/-- A change of the servo state with its locked bit (R418, R434). -/
def setTsyState (st : Nat) (s : State) : State :=
  wrb R.TSY_STATUS 3 (st == 2 || st == 3) (wrf R.TSY_STATUS 0 3 st s)
/-- The servo's adjustment takes effect: A and the increment (R416). -/
def setAdj (a : Int) (s : State) : State :=
  let s := wrI R.TSY_ADJ a s
  wr R.TSY_INCREMENT (toBits 40 (tsyNominal + (tsyNominal * a) / (10 ^ 9 * 65536 : Nat))) s
/-- A is held at −I (R416). -/
def holdAdj (s : State) : State := setAdj (-(rdI R.TSY_INTEGRAL s)) s
/-- EV_TIME_UNLOCKED with its cause (R431). -/
def postUnlocked (cause : Nat) (s : State) : State :=
  postEvent 209 0 1 0 [(0, 1, (tsySource s : Nat)), (1, 1, (cause : Nat)), (8, 8, rdI R.TSY_OFFSET s)] (holdFlag 1 s)
/-- EV_TIME_LOCKED (R431). -/
def postLocked (s : State) : State :=
  postEvent 208 0 0 0 [(0, 1, (tsySource s : Nat)), (4, 4, rdI R.TSY_ADJ s), (8, 8, rdI R.TSY_OFFSET s)] s
/-- EV_TIME_WRAP where the wrap count has changed (R413). -/
def reportWrap (backward : Bool) (s : State) : State :=
  if wrapCount s = s.time.wrapSeen then s
  else
    let s := { s with time := { s.time with wrapSeen := wrapCount s } }
    postEvent 214 0 0 0 [(0, 2, (wrapCount s : Nat)), (2, 1, (b2n backward : Nat))] s

/-- The PPS output starts or ends its pulse, at the level that its polarity gives; a faulted output drives nothing (R425, R532). -/
def ppsPulse (on : Bool) (s : State) : State :=
  sif (!rdb R.PIN_FAULT 22 s) (emit (.ppsOutput on (on != rdb R.TSY_PPS_CFG 0 s))) { s with time := { s.time with ppsPulse := on } }
/-- A PPS output pulse starts (R425, R427). -/
def startPps (s : State) : State := ppsPulse true s
/-- The periods of a comparator after which its target lies ahead of TT (R427). -/
def cmpPeriods (period : Nat) (late : Int) : Nat := (late / period).toNat + 1
/-- Comparator `c` fires (R427, R428). -/
def fireComparator (c : Nat) (stepped : Bool) (s : State) : State :=
  let target := rd R.TSY_CMP_TARGET s c
  let period := rd R.TSY_CMP_PERIOD s c
  let late := ttDiff (ttNow s) target
  let k := cmpPeriods period late
  let s := postEvent 212 c 0 0 [(0, 1, (b2n stepped + 2 * b2n (period != 0) : Nat)),
    (4, 4, ((if period = 0 then 0 else k - 1) : Nat)), (8, 8, (target : Nat))] s
  let s := if rdb R.TSY_CMP_CTRL 1 s c && rdf R.TSY_CTRL 6 2 s == 3 then startPps s else s
  if period = 0 then wrb R.TSY_CMP_CTRL 0 false s c
  else wr R.TSY_CMP_TARGET ((target / 65536 + k * period) % 2 ^ 48 * 65536 + target % 65536) s c
/-- An armed comparator's target lies at or behind TT (R427). -/
def comparatorDue (c : Nat) (s : State) : Bool :=
  rdb R.TSY_CMP_CTRL 0 s c && decide (ttDiff (ttNow s) (rd R.TSY_CMP_TARGET s c) ≥ 0)
/-- A saturating TSY counter posts the event of its row with cause COUNTER (R431): TSY_STEPS. -/
def satSteps (s : State) : State := postEvent 210 0 1 0 [(0, 1, 4), (4, 4, 0x60)] s

/-- TT and the tick counters of all four ports are latched as the anchor (R210): the rate is formed from this and the last anchor
of port 0, rounded down, unless TT was stepped between them; a port that is ACTIVE has a valid anchor from here on (R212). -/
def latchAnchor (stepped : Bool) (s : State) : State :=
  let tick : Nat → Nat := fun p => (tget ({} : Port) s.dose.ports p).tick256 / 256 % 2 ^ 32
  let now := ttNow s
  let rate := match s.dose.plc.prevAnchor with
    | none => rd R.PLC_TICK_RATE s
    | some (t, k) =>
      let d := sdiff 64 now t
      if stepped ∨ d ≤ 0 then rd R.PLC_TICK_RATE s else (sdiff 32 (tick 0) k).toNat * 2 ^ 46 / d.toNat
  let up := (List.range 4).filter (fun p => let x := rdf R.LNK_STATUS 0 4 s p; x == 10 || x == 11 || x == 12)
  let s := wr R.PLC_TICK_RATE rate (wr R.PLC_ANCHOR_TT now s)
  let s := each (List.range 4) (fun p s => wr R.PLC_ANCHOR_TICK (tick p) s p) s
  { s with dose := { s.dose with plc := { s.dose.plc with anchors := up, prevAnchor := some (now, tick 0) } } }
/-- ANCHOR_LATCH: every 2^20 ns (R210). -/
def execAnchorLatch (s : State) : Host.Outcome State Fault Refusal := .next (latchAnchor false s)
/-- A profile whose start is kept in E follows a step of E, since the motion does not. -/
def shiftProf (d : Int) (p : Prof) : Prof := { p with start := p.start + d }
/-- A step of E moves with it what is kept in E: running profiles, and the predictions of frames that were sent. -/
def shiftTimes (d : Int) (s : State) : State :=
  let sent : Frame → Frame := fun f =>
    { f with sent := f.sent.map (fun x => { x with tLast := x.tLast + d, prof := x.prof.map (shiftProf d) }) }
  { s with
    mot := s.mot.map (fun e => (e.1, { e.2 with prof := e.2.prof.map (shiftProf d) }))
    dose := { s.dose with passes := s.dose.passes.map (fun p => { p with frames := p.frames.map sent })
                          plc := { s.dose.plc with tLast := s.dose.plc.tLast + d } } }

/-- E is stepped by `d` in 2^-32 ns (R412, R413, R417, R418, R428): origin 1 servo, 2 SET, 3 STEP. -/
def stepE (d : Int) (origin : Nat) (deferred : Bool) (s : State) : State :=
  let ahead := (List.range 4).filter (fun c => rdb R.TSY_CMP_CTRL 0 s c && !comparatorDue c s)
  let s := putE32 ((e32 s : Int) + d) s
  let s := { s with time := { s.time with lockCount := 0, badCount := 0, fitStale := true } }
  let s := bump R.TSY_STEPS 1 satSteps s
  let s := postEvent 210 0 1 0 [(0, 1, (origin : Nat)), (1, 1, (b2n deferred : Nat)), (8, 8, sar d 32)] s
  let s := latchAnchor true (shiftTimes d s)
  let s := if tsyState s = 2 then postUnlocked 3 (setTsyState 1 s) else s
  let s := reportWrap (decide (d < 0)) s
  if d > 0 then each (ahead.filter (fun c => comparatorDue c s)) (fun c s => fireComparator c true s) s else s

/-- A pass is running, so that a step may have to wait (R417). -/
def passRunning (s : State) : Bool :=
  let st := rdf R.PLC_STATUS 0 3 s
  st == 2 || st == 3 || st == 4
/-- TSY_STATUS.step_pending follows what waits (R417). -/
def markPending (s : State) : State :=
  wrb R.TSY_STATUS 4 (s.time.pendServo.isSome || !s.time.pendHost.isEmpty) s
/-- The 16 result bytes of OP_TIME_CTRL: E before and after (R429). -/
def timeResult (before after : Nat) : Nat := before % 2 ^ 64 + 2 ^ 64 * (after % 2 ^ 64)
/-- A host SET or STEP takes effect and its descriptor completes (R429). -/
def applyHostStep (deferred : Bool) (h : HostStep) (s : State) : State :=
  let before := s.time.ns
  let d : Int := if h.isSet then (h.value * 2 ^ 32 : Nat) - (e32 s : Int) else sext 64 h.value * (2 ^ 32 : Nat)
  let s := stepE d (if h.isSet then 2 else 3) deferred s
  let s := if h.isSet then { s with time := { s.time with pendServo := none } } else s
  complete h.ring h.index { status := stOk, result := timeResult before s.time.ns } s
/-- The pass has ended: pending steps are applied, the host's first (R417, R429). -/
def applyPendingSteps (s : State) : State :=
  let hs := s.time.pendHost
  let s := { s with time := { s.time with pendHost := [] } }
  let s := each hs (applyHostStep true) s
  let s := match s.time.pendServo with
    | none => s
    | some d => stepE (d * (65536 : Nat)) 1 true { s with time := { s.time with pendServo := none } }
  markPending s

/-- Steps that wait, once no pass holds them: the state has become TURN or IDLE (R417). -/
def releaseSteps (s : State) : State :=
  if !passRunning s && (s.time.pendServo.isSome || !s.time.pendHost.isEmpty) then applyPendingSteps s else s

/-- The servo's update on a sample θ in 2^-16 ns (R416).  I and A are held in Q15.16 ppb; the product's lower bits are
dropped toward minus infinity (log entry 20). -/
def servoUpdate (theta : Int) (s : State) : State :=
  let kp : Int := (rdf R.TSY_GAINS 0 16 s : Nat)
  let ki : Int := (rdf R.TSY_GAINS 16 16 s : Nat)
  let lim : Int := (rdf R.TSY_MAX_PPB 0 16 s * 2 ^ 24 : Nat)
  let i24 := clampI (-lim) lim (rdI R.TSY_INTEGRAL s * 256 + ki * theta)
  let s := wrI R.TSY_INTEGRAL (sar i24 8) s
  let a24 := clampI (-lim) lim (-(kp * theta + rdI R.TSY_INTEGRAL s * 256))
  setAdj (sar a24 8) s
/-- Lock and unlock of the servo on a sample (R418). -/
def servoState (theta : Int) (s : State) : State :=
  let thr : Int := (rdf R.TSY_LOCK_CFG 0 16 s * 65536 : Nat)
  let mag : Int := theta.natAbs
  match tsyState s with
  | 1 =>
    let n := if mag < thr then s.time.lockCount + 1 else 0
    let s := { s with time := { s.time with lockCount := n } }
    if n ≥ 1 ∧ n ≥ rdf R.TSY_LOCK_CFG 16 8 s then
      postLocked { setTsyState 2 s with time := { s.time with badCount := 0 } }
    else s
  | 2 =>
    let n := if mag > 4 * thr then s.time.badCount + 1 else 0
    let s := { s with time := { s.time with badCount := n } }
    if n ≥ 4 then postUnlocked 1 { setTsyState 1 s with time := { s.time with lockCount := 0, badCount := 0 } } else s
  | _ => s
/-- The states on a sample, in HOLDOVER as well (R418): below the threshold the servo is LOCKED again, else it is not. -/
def sampleState (theta : Int) (s : State) : State :=
  if tsyState s ≠ 3 then servoState theta s
  else if (theta.natAbs : Int) < (rdf R.TSY_LOCK_CFG 0 16 s * 65536 : Nat) then setTsyState 2 { s with time := { s.time with badCount := 0 } }
  else postUnlocked 1 { setTsyState 1 s with time := { s.time with lockCount := 0 } }
/-- An offset sample θ in 2^-16 ns (R415 to R418).  While a step is pending a sample replaces the pending amount of the servo and
leaves I and A, as it does in HOLDOVER; the states follow every sample. -/
def servoSample (theta : Int) (s : State) : State :=
  let s := wrI R.TSY_OFFSET theta s
  let big := decide ((theta.natAbs : Int) > (rd R.TSY_STEP_LIMIT s * 65536 : Nat)) && rdb R.TSY_CTRL 5 s
  if s.time.pendServo.isSome || (big && rdb R.TSY_CTRL 4 s && passRunning s) then
    sampleState theta (markPending { s with time := { s.time with pendServo := some (-theta) } })
  else if !s.time.pendHost.isEmpty then sampleState theta s
  else if big then
    let held := tsyState s == 3
    let s := stepE (-theta * (65536 : Nat)) 1 false s
    if held then sampleState theta s else s
  else if tsyState s = 3 then sampleState theta s
  else servoState theta (servoUpdate theta s)

/-- A write of TSY_CTRL or OP_TIME_CTRL SOURCE changes the source (R415, R418, R432). -/
def changeSource (src : Nat) (s : State) : State :=
  let src := if src > 4 then 0 else src
  if src = tsySource s then s
  else
    let old := tsyState s
    let s := wrf R.TSY_CTRL 0 3 src s
    let s := { s with time := { s.time with pendServo := none, lockCount := 0, badCount := 0 } }
    let s := setTsyState (if src = 0 then 0 else if src = 4 then 4 else 1) s
    let s := if src = 0 then holdAdj s else s
    let s := markPending s
    if old = 2 ∨ old = 3 then postUnlocked 4 s else s

/-- An operation of OP_TIME_CTRL (R429): a descriptor of another operation is another command's, one of none is refused by
its field. -/
def timeCtrl (k : Nat) (d : Desc) (op : Nat) (tests : List (Nat × Bool)) (body : Nat → State → State) (s : State) : State :=
  let o := dfld d 8 1
  if o ≠ op ∧ 1 ≤ o ∧ o ≤ 6 then s
  else readDesc k d 0x0E (usedBits [(8, 1), (16, 16)]) ((8, o == op) :: tests) body s
/-- The time is locked to a reference (R429 reason 1). -/
def timeHeld (s : State) : Bool :=
  let src := tsySource s
  (src == 1 || src == 2 || src == 3) && (tsyState s == 2 || tsyState s == 3)
/-- SET and STEP (R429). -/
def hostStep (k i : Nat) (isSet : Bool) (v : Nat) (s : State) : State :=
  if timeHeld s then finish k i stRefused 1 s
  else if rdb R.TSY_CTRL 4 s && passRunning s then
    markPending { s with time := { s.time with pendHost := s.time.pendHost ++ [{ ring := k, index := i, isSet, value := v }] } }
  else markPending (applyHostStep false { ring := k, index := i, isSet, value := v } s)
/-- Completes an operation that leaves E alone. -/
def finishTime (k i : Nat) (s : State) : State :=
  complete k i { status := stOk, result := timeResult s.time.ns s.time.ns } s
/-- Arms a comparator (R427, R429). -/
def armComparator (c target period : Nat) (drive : Bool) (s : State) : State :=
  wr R.TSY_CMP_CTRL (1 + 2 * b2n drive) (wr R.TSY_CMP_PERIOD period (wr R.TSY_CMP_TARGET target s c) c) c

def doTtWrap (s : State) : State := reportWrap false s
/-- TT_WRAP (R413). -/
def execTtWrap (s : State) : Host.Outcome State Fault Refusal := .next (doTtWrap s)

def doTimeCtrlSet (k : Nat) (d : Desc) (s : State) : State :=
  timeCtrl k d 1 [] (fun i s => hostStep k i true (dfld d 16 8) s) s
/-- TIME_CTRL_SET (R429). -/
def execTimeCtrlSet (k : Nat) (d : Desc) (s : State) : Host.Outcome State Fault Refusal := .next (doTimeCtrlSet k d s)

def doTimeCtrlStep (k : Nat) (d : Desc) (s : State) : State :=
  timeCtrl k d 2 [] (fun i s => hostStep k i false (dfld d 16 8) s) s
/-- TIME_CTRL_STEP (R429). -/
def execTimeCtrlStep (k : Nat) (d : Desc) (s : State) : Host.Outcome State Fault Refusal := .next (doTimeCtrlStep k d s)

def doTimeCtrlSource (k : Nat) (d : Desc) (s : State) : State :=
  timeCtrl k d 3 [(16, decide (dfld d 16 8 ≤ 4))] (fun i s => finishTime k i (changeSource (dfld d 16 8) s)) s
/-- TIME_CTRL_SOURCE (R429). -/
def execTimeCtrlSource (k : Nat) (d : Desc) (s : State) : Host.Outcome State Fault Refusal := .next (doTimeCtrlSource k d s)

def doTimeCtrlIncrement (k : Nat) (d : Desc) (s : State) : State :=
  timeCtrl k d 4 [] (fun i s =>
    if tsySource s ≠ 4 then finish k i stRefused 2 s
    else finishTime k i (wr R.TSY_INCREMENT (bits 0 40 (dfld d 16 8)) s)) s
/-- TIME_CTRL_INCREMENT (R429). -/
def execTimeCtrlIncrement (k : Nat) (d : Desc) (s : State) : Host.Outcome State Fault Refusal :=
  .next (doTimeCtrlIncrement k d s)

def doTimeCtrlCompare (k : Nat) (d : Desc) (s : State) : State :=
  let v := dfld d 24 8
  timeCtrl k d 5 [] (fun i s =>
    finishTime k i (armComparator (bits 32 2 v) (dfld d 16 8) (bits 0 32 v) (bit 34 v) s)) s
/-- TIME_CTRL_COMPARE (R429). -/
def execTimeCtrlCompare (k : Nat) (d : Desc) (s : State) : Host.Outcome State Fault Refusal := .next (doTimeCtrlCompare k d s)

def doTimeCtrlRead (k : Nat) (d : Desc) (s : State) : State := timeCtrl k d 6 [] (fun i s => finishTime k i s) s
/-- TIME_CTRL_READ (R429). -/
def execTimeCtrlRead (k : Nat) (d : Desc) (s : State) : Host.Outcome State Fault Refusal := .next (doTimeCtrlRead k d s)

def doServoSample (theta : Word) (s : State) : State :=
  if tsySource s = 1 ∨ tsySource s = 3 then servoSample theta.toInt s else s
/-- SERVO_SAMPLE: a write to TSY_OFFSET_IN (R415, R416). -/
def execServoSample (theta : Word) (s : State) : Host.Outcome State Fault Refusal := .next (doServoSample theta s)

def doServoNoSample (s : State) : State := if tsyState s = 2 then holdAdj (setTsyState 3 s) else s
/-- SERVO_NO_SAMPLE: 1 s without a sample (R418). -/
def execServoNoSample (s : State) : Host.Outcome State Fault Refusal := .next (doServoNoSample s)

def doHoldoverExpiry (s : State) : State :=
  if tsyState s = 3 then postUnlocked 2 { setTsyState 1 s with time := { s.time with lockCount := 0 } } else s
/-- HOLDOVER_EXPIRY (R418). -/
def execHoldoverExpiry (s : State) : Host.Outcome State Fault Refusal := .next (doHoldoverExpiry s)

/-- A write of TSY_CTRL: its fields, and the source by R415. -/
def doTimeSourceChange (value : Word32) (s : State) : State :=
  let v := bits 0 10 value.toNat
  let s := changeSource (bits 0 3 v) (wr R.TSY_CTRL (setBits 0 3 (tsySource s) v) s)
  if s.time.ppsPulse ∧ rdf R.TSY_CTRL 6 2 s = 0 then ppsPulse false s else s
/-- TIME_SOURCE_CHANGE (R415). -/
def execTimeSourceChange (value : Word32) (s : State) : Host.Outcome State Fault Refusal := .next (doTimeSourceChange value s)

def doPpsInputEdge (s : State) : State :=
  let delay := sext 16 (rdf R.TSY_PPS_CFG 16 16 s)
  let e : Int := (s.time.ns : Int) - delay
  let stamp := toBits 48 e * 65536 + s.time.frac / 65536
  let n := (e % (10 ^ 9 : Nat)).toNat
  let s := wrb R.TSY_STATUS 5 true (wr R.TSY_PPS_IN_TT stamp s)
  let s := { s with time := { s.time with ppsMissPosted := false } }
  if tsySource s = 2 then
    servoSample (((if n < 500000000 then (n : Int) else (n : Int) - 10 ^ 9)) * (65536 : Nat)) s
  else s
/-- PPS_INPUT_EDGE (R426). -/
def execPpsInputEdge (s : State) : Host.Outcome State Fault Refusal := .next (doPpsInputEdge s)

def doPpsMissing (s : State) : State :=
  let s := wrb R.TSY_STATUS 5 false s
  if (tsySource s = 2 ∨ rdb R.TSY_CTRL 8 s) ∧ !s.time.ppsMissPosted then
    let s := { s with time := { s.time with ppsMissPosted := true } }
    let s := bump R.TSY_PPS_MISSED 1 (postEvent 213 0 1 0 [(0, 1, 2), (4, 4, 0x64)]) s
    postEvent 213 0 1 0 [(0, 1, 1), (8, 8, (rd R.TSY_PPS_IN_TT s : Nat))] s
  else s
/-- PPS_MISSING: 1.1 s without an edge (R426). -/
def execPpsMissing (s : State) : Host.Outcome State Fault Refusal := .next (doPpsMissing s)

def doTimeCompareFire (c : Nat) (s : State) : State :=
  if c < 4 ∧ comparatorDue c s then fireComparator c false s else s
/-- TIME_COMPARE_FIRE (R427). -/
def execTimeCompareFire (c : Nat) (s : State) : Host.Outcome State Fault Refusal := .next (doTimeCompareFire c s)

def doTimeCompareArm (c : Nat) (value : Word32) (s : State) : State :=
  if c < 4 then wr R.TSY_CMP_CTRL (rdf R.TSY_CMP_CTRL 0 1 s c ||| bits 0 2 value.toNat) s c else s
/-- TIME_COMPARE_ARM: a write to TSY_CMP_CTRL (R427); `arm` is set-only, `drive_pps` takes the written value. -/
def execTimeCompareArm (c : Nat) (value : Word32) (s : State) : Host.Outcome State Fault Refusal :=
  .next (doTimeCompareArm c value s)

/-- A saturating port counter reports itself with cause COUNTER (R431). -/
def satPort (p off : Nat) (s : State) : State := postEvent 247 p 1 0 [(0, 1, 6), (4, 4, (0x100 + 0x40 * p + off : Nat))] s
/-- A PTP message leaves by a port and is counted (R422, R423). -/
def sendPtp (p kind seq origin : Nat) (corr : Int) (s : State) : State :=
  emit (.ptpMessage p kind seq origin corr) (bump R.TSY_PORT_TX 1 (satPort p 0x14) s p)

/-- A frame is received on SFP+ port `p`: PTP or not, its type and sequence, its correctionField in 2^-16 ns, and its
residence in the transparent clock in TCLK cycles.  A message shows that the module is present and its link up (log entry 61). -/
def doPtpMessageRx (p : Nat) (isPtp : Bool) (kind seq : Nat) (corr : Word) (residence : Nat) (s : State) : State :=
  if p ≥ 2 ∨ !rdb R.TSY_PORT_CFG 0 s p then s
  else if !isPtp || kind == 0xD then bump R.TSY_PORT_DISCARDS 1 (satPort p 0x18) s p
  else
    let s := bump R.TSY_PORT_RX 1 (satPort p 0x10) (wrf R.TSY_PORT_STATE 8 2 3 s p) p
    let stamp := (e32 s / 65536 : Int) - (rdf R.TSY_PORT_LAT 0 16 s p * 4096 : Nat)
    let s := emit (.firmware kind seq (toBits 80 stamp)) s
    if rdb R.TSY_CTRL 9 s && rdb R.TSY_PORT_CFG 0 s (1 - p) then
      let c1 := corr.toInt + (if kind < 8 then (residence * rd R.TSY_INCREMENT s / 65536 : Nat) else 0)
      let c2 := c1 + (if kind = 0 ∧ rdb R.TSY_PTP_GLOBAL 25 s then (rd R.TSY_PEER_DELAY s p * 4096 : Nat) else 0)
      sendPtp (1 - p) kind seq 0 c2 s
    else s
/-- PTP_MESSAGE_RX (R420, R423). -/
def execPtpMessageRx (p : Nat) (isPtp : Bool) (kind seq : Nat) (corr : Word) (residence : Nat) (s : State) :
    Host.Outcome State Fault Refusal := .next (doPtpMessageRx p isPtp kind seq corr residence s)

/-- The ordinary clock sends a message on port `p`; on a one-step Sync the egress stamp is inserted, on a Pdelay_Resp the
turnaround time in 2^-16 ns is added (R422). -/
def doPtpMessageTx (p kind seq : Nat) (corr : Word) (turnaround : Nat) (s : State) : State :=
  if p ≥ 2 then s
  else
    let one : Nat → State → State := fun q s =>
      if !rdb R.TSY_PORT_CFG 0 s q then s
      else
        let e16 := e32 s / 65536 + rdf R.TSY_PORT_LAT 16 16 s q * 4096
        if kind = 0 then sendPtp q kind seq (e16 / 65536) (corr.toInt + (e16 % 65536 : Nat)) s
        else if kind = 3 then sendPtp q kind seq 0 (corr.toInt + turnaround) s
        else sendPtp q kind seq 0 corr.toInt s
    if rdb R.TSY_CTRL 9 s then one (1 - p) (one p s) else one p s
/-- PTP_MESSAGE_TX (R422, R423). -/
def execPtpMessageTx (p kind seq : Nat) (corr : Word) (turnaround : Nat) (s : State) : Host.Outcome State Fault Refusal :=
  .next (doPtpMessageTx p kind seq corr turnaround s)

/-- A change of a port's 1588 state, with its event (R431).  The grandmaster's identity is the firmware's and stands free. -/
def setPortState (p st cause : Nat) (s : State) : State :=
  let old := rdf R.TSY_PORT_STATE 0 4 s p
  let s := wrf R.TSY_PORT_STATE 0 4 st s p
  if old = st then s
  else
    let (gm, s) := fresh s
    postEvent 211 p (if st = 2 then 1 else 0) 0
      [(0, 1, (st : Nat)), (1, 1, (old : Nat)), (2, 1, (cause : Nat)), (8, 8, (gm : Nat))] s

/-- A fault of cage `p`: 1 ABSENT, 2 TX_FAULT, 3 LOS, 4 POWER_SHORT, 5 NO_BLOCK_LOCK (R424, R431). -/
def doSfpCageFault (p cause : Nat) (s : State) : State :=
  if p ≥ 2 ∨ cause = 0 ∨ cause > 5 then s
  else
    let s := { s with time := { s.time with cageFault := tmod [] s.time.cageFault p (fun l => cause :: l.filter (· != cause)) } }
    let s := if cause = 1 then wrb R.TSY_PORT_STATE 9 false s p else s
    let s := if cause = 4 then wrb R.TSY_PORT_STATE 10 true s p else s
    let s := if cause = 3 ∨ cause = 5 then wrb R.TSY_PORT_STATE 8 false s p else s
    let s := postEvent 247 p 1 0 [(0, 1, (cause : Nat))] s
    setPortState p 2 3 s
/-- SFP_CAGE_FAULT (R424). -/
def execSfpCageFault (p cause : Nat) (s : State) : Host.Outcome State Fault Refusal := .next (doSfpCageFault p cause s)

/-- The faults of cage `p` have cleared; a short clears only once the supply is on again (R424). -/
def doSfpCageFaultClear (p : Nat) (s : State) : State :=
  let off := rdb R.TSY_PORT_STATE 10 s p
  let gone := (tget [] s.time.cageFault p).reverse.filter (fun c => !(off && c == 4))
  let left := (tget [] s.time.cageFault p).filter (fun c => off && c == 4)
  if gone = [] then s
  else
    let s := { s with time := { s.time with cageFault := if left = [] then terase s.time.cageFault p else tset s.time.cageFault p left } }
    each gone (fun cause s =>
      let s := if cause = 1 then wrb R.TSY_PORT_STATE 9 true s p else s
      let s := if cause = 3 ∨ cause = 5 then wrb R.TSY_PORT_STATE 8 true s p else s
      postEvent 247 p 1 0 [(0, 1, (cause : Nat)), (1, 1, 1)] s) s
/-- SFP_CAGE_FAULT_CLEAR (R424). -/
def execSfpCageFaultClear (p : Nat) (s : State) : Host.Outcome State Fault Refusal := .next (doSfpCageFaultClear p s)

def doSfpFaultClearDelay (p : Nat) (s : State) : State :=
  if p < 2 ∧ (tget? s.time.cageFault p).isNone ∧ rdf R.TSY_PORT_STATE 0 4 s p = 2 ∧ !rdb R.TSY_PORT_STATE 10 s p then
    setPortState p 4 3 s
  else s
/-- SFP_FAULT_CLEAR_DELAY: 1 s after the fault cleared (R424). -/
def execSfpFaultClearDelay (p : Nat) (s : State) : Host.Outcome State Fault Refusal := .next (doSfpFaultClearDelay p s)

/-- A write to TSY_PORT_CFG.  Clearing enable disables the port, setting it starts the port anew and switches a cage supply on that a
short had switched off (R424, R431, log entry 61). -/
def writePortCfg (p v : Nat) (s : State) : State :=
  let old := rdb R.TSY_PORT_CFG 0 s p
  let s := wrb R.TSY_PORT_CFG 0 (bit 0 v) s p
  if old && !bit 0 v then setPortState p 3 4 s
  else if !old && bit 0 v then setPortState p 1 4 (wrb R.TSY_PORT_STATE 10 false s p)
  else s
/-- What a read of TSY_WIDE_NS latches: the seconds (R433). -/
def latchWide (s : State) : State :=
  let sec := s.time.ns / 10 ^ 9 % 2 ^ 48
  wr R.TSY_WIDE_SEC_HI (sec / 2 ^ 32) (wr R.TSY_WIDE_SEC_LO (sec % 2 ^ 32) s)
/-- A read of TSY_WIDE_NS: the nanoseconds are returned, the seconds latched (R411, R433). -/
def doWideTimeRead (s : State) : State := emit (.readData (regAddr R.TSY_WIDE_NS) (s.time.ns % 10 ^ 9)) (latchWide s)
/-- WIDE_TIME_READ (R433). -/
def execWideTimeRead (s : State) : Host.Outcome State Fault Refusal := .next (doWideTimeRead s)

def doPpsOutputPulseStart (s : State) : State :=
  let m := rdf R.TSY_CTRL 6 2 s
  if m = 1 ∨ (m = 2 ∧ rdb R.TSY_STATUS 3 s) then startPps s else s
/-- PPS_OUTPUT_PULSE_START (R425). -/
def execPpsOutputPulseStart (s : State) : Host.Outcome State Fault Refusal := .next (doPpsOutputPulseStart s)

def doPpsOutputPulseEnd (s : State) : State :=
  if s.time.ppsPulse then ppsPulse false s else s
/-- PPS_OUTPUT_PULSE_END (R425). -/
def execPpsOutputPulseEnd (s : State) : Host.Outcome State Fault Refusal := .next (doPpsOutputPulseEnd s)

end Sys2Proof.Machine
end

