-- ==== Sys2Proof/Machine/Guard.lean ====
section
/-! DEFINITION. The guards: BEAM_ENABLE and the safety relay (R18, R19, R494), mode changes (R34 to R36), hold causes and the
entry to HOLD (R26 to R31), the cut of a pass (R278), and Bezel trips (R491). -/

namespace Sys2Proof.Machine

/-- Changes the mode control's state. -/
def modCtl (f : CtlState → CtlState) (s : State) : State := { s with ctl := f s.ctl }
def modPwr (f : PwrState → PwrState) (s : State) : State := { s with pwr := f s.pwr }
/-- Bezel permits the beam: E-stop clear, permit active, no trip condition (R18), and no reset asserted or releasing (R449). -/
def bezelPermits (s : State) : Bool :=
  s.ctl.estopOpen.isEmpty && !s.ctl.estopDisc && s.ctl.permit && !rdb R.SAF_STATUS 7 s && s.pwr.asserted.isEmpty && s.pwr.due.isNone
/-- BEAM_ENABLE is to be asserted (R18). -/
def beamWanted (s : State) : Bool :=
  let m := modeOf s
  let f := s.ctl.holdFrom
  (m == 4 || m == 5 || m == 7 || (m == 6 && rdb R.CTL_MODE 31 s && (f == 4 || f == 5 || f == 7))) && bezelPermits s
/-- BEAM_ENABLE and the safety relay follow R18 and R19; a drop is counted and reported with its cause (R494, R517). -/
def updateBeam (cause : Nat) (s : State) : State :=
  let w := beamWanted s
  let was := s.ctl.beamEnable
  let s := modCtl (fun c => { c with beamEnable := w, relay := w }) s
  let s := wrb R.SAF_STATUS 5 w (wrb R.SAF_STATUS 0 w s)
  if was && !w then postDrop cause 0xFF (bump R.SAF_BEAM_DROPS 1 (satSaf 0x34) s) else s
/-- PLC, THE, DPI, BSC and MND read IDLE where no layer is open or the mode leaves BUILD (R160, R227). -/
def showStates (s : State) : State :=
  let m := modeOf s
  let isOpen := s.dose.layer.isSome
  let s := if !isOpen || (m != 4 && m != 5) then wrf R.PLC_STATUS 0 3 0 s else s
  let run := match s.dose.layer with
    | none => 0
    | some l => if l.thermal then 1 else 2
  let st := if s.dose.the.filling.isSome && !s.dose.the.stopped then 3 else if !isOpen || m != 4 then 0 else run
  wrf R.THE_STATUS 0 2 st s
/-- The lowest-numbered hold cause that is set. -/
def lowestCause (s : State) : Nat := ((onesOf 17 (rd R.CTL_HOLD_CAUSE s)).head?).getD 16
def modCam (f : CamState → CamState) (s : State) : State := { s with cam := f s.cam }
def camCtx (s : State) (c : Nat) : CamCtx := tget {} s.cam.ctxs c
def modCtx (c : Nat) (f : CamCtx → CamCtx) (s : State) : State := modCam (fun m => { m with ctxs := tmod {} m.ctxs c f }) s
def camBus (s : State) (p : Nat) : CamBus := tget {} s.cam.buses p
def modBus (p : Nat) (f : CamBus → CamBus) (s : State) : State := modCam (fun m => { m with buses := tmod {} m.buses p f }) s
/-- Fields of CAM_CTX_CFG (R351). -/
def ctxOn (s : State) (c : Nat) : Bool := rdb R.CAM_CTX_CFG 0 s c
def ctxPort (s : State) (c : Nat) : Nat := rdf R.CAM_CTX_CFG 1 2 s c
def ctxVc (s : State) (c : Nat) : Nat := rdf R.CAM_CTX_CFG 3 2 s c
def ctxLatency (s : State) (c : Nat) : Nat := rdf R.CAM_CTX_CFG 12 2 s c
def ctxEvents (s : State) (c : Nat) : Bool := rdb R.CAM_CTX_CFG 15 s c
def ctxFrame (s : State) (c : Nat) : Nat := rd R.CAM_CTX_FRAME s c
/-- A mode in which ports run (R325). -/
def camMode (s : State) : Bool := decide (3 ≤ modeOf s ∧ modeOf s ≤ 7)
/-- A reset holds the cameras: from its assertion until step 8 of the release has begun (R349, R450). -/
def camInReset (s : State) : Bool := s.pwr.due.isSome && (decide (s.pwr.step < 8) || (s.pwr.step == 8 && stepHeld 8 s))
/-- A port runs (R325, R349). -/
def portRuns (p : Nat) (s : State) : Bool := decide (p < 4) && rdb R.CAM_PORT_CFG 0 s p && camMode s && !camInReset s
/-- A frame of context `c` is in progress. -/
def frameOf (s : State) (c : Nat) : Option CamFrame := s.cam.frames.find? (fun f => f.context == c && !f.ended)
/-- CAM_STATUS, CAM_PORT_STATUS and the states of the contexts follow the enables, the mode and the frames (R325, R350, R351).  A
port that runs reads LP until its first packet, one that does not reads OFF. -/
def showCam (s : State) : State :=
  let s := wr R.CAM_STATUS (maskOf (rangeP 4 (fun p => portRuns p s)) + 2 ^ 16 * maskOf (rangeP 16 (ctxOn s))) s
  let s := each (List.range 16) (fun c s => wrf R.CAM_CTX_STATUS 0 2 (if !ctxOn s c then 0 else if (frameOf s c).isSome then 2 else 1) s c) s
  each [0, 1, 2, 3] (fun p s =>
    if portRuns p s then (if rdf R.CAM_PORT_STATUS 0 2 s p = 0 then wrf R.CAM_PORT_STATUS 0 2 1 s p else s)
    else wr R.CAM_PORT_STATUS 0 s p) s
/-- A mode change (R34 to R36): CTL_MODE, its TT, EV_MODE_CHANGE, and what follows the mode: enables, beam, block states. -/
def changeMode (new cause : Nat) (transit : Bool) (s : State) : State :=
  let old := modeOf s
  let read := readableRings s
  let v := setBits 31 1 (b2n transit) (setBits 16 8 cause (setBits 8 3 old (setBits 0 3 new (rd R.CTL_MODE s))))
  let s := wr R.CTL_MODE_TT (ttNow s) (wr R.CTL_MODE v s)
  let holdBits := if new = 6 then rd R.CTL_HOLD_CAUSE s else 0
  let sev := if new ≠ 6 then 0 else if cause = 0x20 ∨ cause = 0x21 then 2 else 1
  let s := postEvent 16 0 sev 0 [(0, 1, (new : Nat)), (1, 1, (old : Nat)), (2, 1, (cause : Nat)), (4, 4, (holdBits : Nat))] s
  markNewlyRead read (releaseSteps <| showCam (showStates (updateBeam 4 (updateEnables s))))

/-- The first line event of which no frame has been sent, in pass order: where a cut falls.  None where frames of every event have
been sent (R278). -/
def cutPoint (g : Geometry) (p : Pass) : Option Nat :=
  let sent := (p.frames.filter (fun f => f.sent.isSome)).map (·.event) ++ p.built.filter (fun m => !(p.frames.any (fun f => f.event == m && f.sent.isNone)))
  match sent with
  | [] => some (firstEvent g p)
  | a :: r =>
    let e := r.foldl (fun m e => if eventBefore p m e then e else m) a
    if e = finalEvent g p then none else some (nextEvent p e)
/-- The lines of a pass with a crossing at line event m or beyond (R278): the first, and how many. -/
def cutLines (g : Geometry) (p : Pass) (m : Nat) : Nat × Nat :=
  if p.dir = 0 then
    let lo := max p.first (m - offMax g)
    (lo, lastLine p + 1 - lo)
  else (p.first, min (m + 1) (lastLine p + 1) - p.first)
/-- Frames among rows `rows` of lines `lo` on with their line event at m or beyond. -/
def cutFrames (g : Geometry) (p : Pass) (m lo n rows : Nat) : Nat :=
  (onesOf g.rowCount rows).foldl (fun c r =>
    c + (if p.dir = 0 then lo + n - max lo (min (lo + n) (m - offOf g r)) else (min (lo + n) (m + 1 - offOf g r)) - lo)) 0
/-- Lines whose pairs a cut at m covers, but for those that are missed or withheld and so owed whole already. -/
def cutLineList (g : Geometry) (p : Pass) (m : Nat) : List Nat :=
  let c := cutLines g p m
  ((List.range c.2).map (· + c.1)).filter (fun n => !p.missed.contains n && !p.residueLines.contains n)
/-- What a mend pass still owes on a row and line: its own blocks; of an excluded group, what no frame has made up (R278, R285). -/
def stillOwed (g : Geometry) (p : Pass) (n r : Nat) (s : State) : Nat :=
  if excluded p (rowAt g r).group then ((owedNow g n s).filter (fun o => o.row == r)).foldl (fun b o => b ||| o.blocks) 0
  else owedBlocks g p n r
/-- The CUT entries of a pass that is cut at line event m: all rows in a swath, in a mend pass what it still owes (R278). -/
def logCut (g : Geometry) (p : Pass) (m cause flags : Nat) (s : State) : State :=
  let lines := cutLineList g p m
  let behind : Nat → Nat → Bool := fun n r => !eventBefore p (n + offOf g r) m
  let s :=
    if p.mend then
      each lines (fun l s =>
        let os := ((List.range g.rowCount).filter (behind l)).map (fun r =>
          { row := r, blocks := stillOwed g p l r s, cause := cause, flags := flags ||| flCut : Owed })
        each ((setsOf l (os.filter (fun o => o.blocks != 0))).map (fun x => { x with cutEvent := m })) (logFrames p) s) s
    else
      each (lineRuns lines) (fun a s =>
        logFrames p { first := a.1, count := a.2, rows := 2 ^ g.rowCount - 1, blocks := allBlocks g, cause := cause, flags := flags ||| flCut,
                      cutEvent := m, frames := cutFrames g p m a.1 a.2 (2 ^ g.rowCount - 1) } s) s
  each lines (fun n s => dropOwed g n (behind n) s) s
/-- What a row still fires of its own, by line, is logged without CUT: the rest of a line that the head's hard limit cuts (R278,
R475). -/
def logPart (g : Geometry) (p : Pass) (part : List Frame) (cause flags : Nat) (s : State) : State :=
  each ((part.map (·.line)).eraseDups) (fun n s =>
    let os := (part.filter (fun f => f.line == n && !p.missed.contains n && !p.residueLines.contains n)).map (fun f =>
      { row := f.row, blocks := ownBlocks g p n f.row, cause := cause, flags := flags : Owed })
    each (setsOf n (os.filter (fun o => o.blocks != 0))) (logFrames p) s) s
/-- A frame without pulses. -/
def blankFrame (f : Frame) : Frame :=
  { f with codes := f.codes.map (fun _ => 0), pre := f.pre.map (fun _ => 0), doses := f.doses.map (fun _ => 0), carried := [], blank := true }
/-- A pass is cut with a cause (R28 step 3, R33, R278).  Frames from the first line event on that was not exposed are blank from
here; at the head's hard limit, so are the unsent ones of a line event that was partly sent (R475).  What is owed is logged at
once. -/
def cutPass (cause flags : Nat) (s : State) : State :=
  match curPass s with
  | none => s
  | some p =>
    let g := geom s
    match (if p.cut.isSome || p.abandoned then none else cutPoint g p) with
    | none => s
    | some m =>
      let blanked : Frame → Bool := fun f => f.sent.isNone && (cause == 10 || !eventBefore p f.event m)
      let part := p.frames.filter (fun f => blanked f && eventBefore p f.event m)
      let s := each (p.frames.filter blanked) dropCarrier s
      let s := logCut g p m cause flags (logPart g p part cause flags s)
      let s := each (openLines s) (logRemainder p) s
      modPass (fun q => { q with
        cut := some (m, cause)
        cutLogged := part.map (fun f => (f.row, f.line))
        sendOver := !q.profileOn
        frames := q.frames.map (fun f => if blanked f then blankFrame f else f) }) s
/-- A frame that has been sent may still fire: its tick lies ahead and no recall covers it (R216). -/
def mayFire (s : State) : Bool :=
  (outstanding s).any (fun f => !f.blank && !f.recalled && decide (sdiff 32 (fireTick f) (tickOf f.port s) > 0))
/-- No frame of the pass is sent any more: blank ones are dropped, the rest is withheld with the cause of the cut; placement runs
out (R28, R153, R216, R228). -/
def endSending (s : State) : State :=
  match curPass s with
  | none => s
  | some p =>
    if p.sendOver then s
    else
      let g := geom s
      let left := p.frames.filter (fun f => f.sent.isNone && !f.blank)
      let s := modPass (fun q => { q with sendOver := true, frames := q.frames.filter (fun f => f.sent.isSome) }) s
      let s := each left (fun f s =>
        withholdRow p f.line f.row (ownBlocks g p f.line f.row) ((p.cut.map (·.2)).getD 8) 0 (dropCarrier f s)) s
      let st := rdf R.PLC_STATUS 0 3 s
      let s := if st = 2 ∨ st = 3 then wrf R.PLC_STATUS 0 3 4 s else s
      if rdf R.DPI_STATUS 0 2 s = 2 then wrf R.DPI_STATUS 0 2 3 s else s
/-- Placement's axes decelerate, now or once the frames sent have fired: AX0 at the policy deceleration where one is given (R28
step 4, R33, R216). -/
def stopPlacement (atOnce : Bool) (dmax : Option Nat) (s : State) : State :=
  if atOnce || !mayFire s then
    let s := modPlc (fun c => { c with decelPending := false, runoutPending := false }) (endSending s)
    stopAxis 1 1 none (stopAxis 0 1 dmax s)
  else modPlc (fun c => { c with decelPending := true }) s
/-- The mend cause of a pass that a hold cause cuts (R268). -/
def cutCauseOf (n : Nat) : Nat := if n = 4 then 10 else 8
/-- A saturating THM counter posts EV_REMOTE_SENSOR_FAULT with cause 3 (R482). -/
def satThm (off : Nat) (s : State) : State := postEvent 44 0 1 0 [(0, 1, 3), (4, 4, (off : Nat))] s
/-- EV_CAL_DONE of the running item (R482). -/
def calDone (r : CalRun) (status : Nat) (s : State) : State :=
  postEvent 42 ((r.items.head?).getD 0) (if status = 0 then 0 else 1) 0
    [(0, 1, (status : Nat)), (1, 1, (r.gap : Nat)), (4, 4, (((s.time.ns - r.startNs) / 1000 : Nat) : Nat))] s
/-- THM_CAL_STATUS and THM_STATUS follow the run and what is staged (R484). -/
def showCal (s : State) : State :=
  let items := (s.thm.run.map (·.items)).getD []
  let s := wrb R.THM_STATUS 10 s.thm.run.isSome s
  wrf R.THM_CAL_STATUS 16 2 ((s.thm.run.map (·.gap)).getD 0)
    (wrf R.THM_CAL_STATUS 8 7 (maskOf (s.thm.staged.map (·.1))) (wrf R.THM_CAL_STATUS 0 7 (maskOf items) s))
/-- A calibration run ends before its items do: the running item is abandoned and stays due (R21, R481). -/
def abandonRun (s : State) : State :=
  match s.thm.run with
  | none => s
  | some r =>
    let s := showCal { s with thm := { s.thm with run := none } }
    if r.items = [] then s else bump R.THM_CAL_ABANDONED 1 (satThm 0x288) (calDone r 2 s)
/-- Entry to HOLD, steps 1 to 4 of R28. -/
def enterHold (n : Nat) (s : State) : State :=
  let s := modCtl (fun c => { c with holdFrom := modeOf s }) s
  let s := abandonRun s
  let s := changeMode 6 (0x20 + lowestCause s) true s
  let s := cutPass (cutCauseOf n) 0 s
  let s := modPlc (fun c => { c with noStart := false }) s
  let tripped := ((curPass s).map (·.tripped)).getD false
  let s := if tripped then recallAll s else s
  let s := stopPlacement (n = 0 || n = 1 || n = 6 || tripped) none s
  each [0, 1, 2, 3, 4, 5] (fun a s => if a < 2 then flushQueue a 4 s else stopAndFlush a 1 s) s
/-- A hold cause is detected: its bit is latched in every mode but DORMANT; in READY, BUILD, CALIBRATE and SERVICE the module
enters HOLD, and a transition that OP_SET_MODE asked for is abandoned (R26, R28, R29, R31). -/
def holdCause (n : Nat) (s : State) : State :=
  let m := modeOf s
  if m = 0 then s
  else
    let s := wrb R.CTL_HOLD_CAUSE n true s
    if m = 3 ∨ m = 4 ∨ m = 5 ∨ m = 7 then
      let s := match s.ctl.request with
        | none => s
        | some q => finish q.ring q.index stRefused 11 (modCtl (fun c => { c with request := none }) s)
      enterHold n s
    else if m = 6 ∧ (n = 0 ∨ n = 1 ∨ n = 6) then stopPlacement true none s
    else s

/-- Bring-up ends: the three inputs are checked, and the mode becomes READY, or HOLD where a cause is set; an OP_SET_MODE that
waits for it completes (R20, R26, R31). -/
def endBringup (s : State) : State :=
  let s := if !s.ctl.estopOpen.isEmpty || s.ctl.estopDisc then wrb R.CTL_HOLD_CAUSE 0 true s else s
  let s := if s.ctl.permit then s else wrb R.CTL_HOLD_CAUSE 2 true s
  let s := if s.ctl.coolant then s else wrb R.CTL_HOLD_CAUSE 5 true s
  let held := rd R.CTL_HOLD_CAUSE s != 0
  let s := if held then changeMode 6 (0x20 + lowestCause s) false s else changeMode 3 2 false s
  match s.ctl.request with
  | none => s
  | some q => finish q.ring q.index (if held then stRefused else stOk) (if held then 11 else 0) (modCtl (fun c => { c with request := none }) s)
/-- Bring-up is complete once the release has run and the firmware has said so (R497). -/
def bringupCheck (s : State) : State :=
  if modeOf s = 2 ∧ rdb R.CTL_BRINGUP_DONE 0 s ∧ s.pwr.due.isNone ∧ s.pwr.asserted.isEmpty ∧ s.mem.training.isEmpty then endBringup s else s
/-- SAF_STATUS.trip shows whether a trip condition holds (R519). -/
def showTrip (s : State) : State := wrb R.SAF_STATUS 7 (!s.ctl.trips.isEmpty) s
/-- Trip conditions that have gone (R492). -/
def tripGone (gone : Nat × Nat → Bool) (s : State) : State := showTrip (modCtl (fun c => { c with trips := c.trips.filter (fun t => !gone t) }) s)
/-- A Bezel trip (R491): the beam drops, the relay opens, the cause is recorded and BEZEL_TRIP set. -/
def bezelTrip (cause unit measured limit line : Nat) (s : State) : State :=
  let s := modCtl (fun c => { c with trips := (cause, unit) :: c.trips.filter (· != (cause, unit)) }) s
  let s := showTrip (wr R.SAF_TRIP (cause + 2 ^ 8 * unit) s)
  let s := updateBeam 3 (bump R.SAF_TRIPS 1 (satSaf 0x28) s)
  let s := postEvent 224 0 2 0 [(0, 1, (cause : Nat)), (1, 1, (unit : Nat)), (4, 4, (measured : Nat)), (8, 4, (limit : Nat)), (12, 4, (line : Nat))] s
  holdCause 1 s

/-- An axis fault is set (R318, R320): the axis stops and flushes, ends in FAULT, and AXIS_FAULT follows. -/
def axisFault (a cause : Nat) (s : State) : State :=
  if rdb R.MOT_FAULT (cause - 1) s a then s
  else
    let x := axisOf s a
    let cookie := if x.running then (x.queue.head?.map (·.cookie)).getD 0 else 0
    let s := postEvent (115 + 4 * a) a 2 cookie [(0, 1, (cause : Nat)), (1, 1, (axisState a s : Nat)), (2, 6, measPos a s), (8, 6, cmdPos a s)] s
    let s := wrb R.MOT_FAULT (cause - 1) true s a
    let s := stopAndFlush a 3 s
    let s := if (axisOf s a).prof.isNone ∨ cause = 3 then setAxisState a mFault (modAxis a (fun x => { x with prof := none, rested := true }) s) else s
    holdCause 7 (updateEnables s)

/-- A motion link's drivers or termination fail: the link stops, EV_MOTION_LINK_FAULT is posted, and the axis takes fault LINK;
an open-loop axis is no longer homed (R307). -/
def motionLinkFault (a cause : Nat) (s : State) : State :=
  let s := modAxis a (fun x => { x with linkBad := true, linkStopped := true }) s
  if rdb R.MOT_FAULT 2 s a then s
  else
    let s := postEvent 138 a 2 0 [(0, 1, (cause : Nat))] s
    let s := if axisSource a s = 1 then setHomed a false s else s
    axisFault a 3 s

end Sys2Proof.Machine
end

