-- ==== Sys2Proof/Machine/MemBase.lean ====
section
/-! DEFINITION. Memory: the address map (R353, R354), error correction with its log and events (R364 to R369), narrow writes
(R365), rank retirement (R370, R371), training (R357, R358) and self-refresh (R361 to R363). -/

namespace Sys2Proof.Machine

def modMem (f : MemState → MemState) (s : State) : State := { s with mem := f s.mem }
/-- Requester codes (R375). -/
def rqIntake : Nat := 0
def rqTherm : Nat := 1
def rqCam : Nat := 2
def rqHost : Nat := 3
def rqUdma : Nat := 4
def rqMigrate : Nat := 5
def rqScrub : Nat := 6
def rqCore : Nat := 7
def rqCrc : Nat := 8
def rqCodec : Nat := 9

/-- The channel, subchannel and logical rank of an address (R353). -/
def chanOf (a : Nat) : Nat := bits 7 2 a
def subOf (a : Nat) : Nat := bits 6 1 a
def logicalOf (a : Nat) : Nat := bits 20 1 a
/-- The number of an address's line within its logical rank on its channel, in ascending address (R370). -/
def rankLine (a : Nat) : Nat := bits 6 1 a + 2 * (bits 9 11 a + 2 ^ 11 * bits 21 17 a)
/-- The physical rank that MEMC_RANK_MAP gives a logical rank of a channel, and the channel's spare, 3 for none (R354). -/
def mapRank (c l : Nat) (s : State) : Nat := rdf R.MEMC_RANK_MAP (8 * c + 2 * l) 2 s
def mapSpare (c : Nat) (s : State) : Nat := rdf R.MEMC_RANK_MAP (8 * c + 4) 2 s
/-- The physical rank that serves an address: the spare below the copy pointer of a migration (R370). -/
def physOf (a : Nat) (s : State) : Nat :=
  let c := chanOf a
  let l := logicalOf a
  match s.mem.migration with
  | some m => if m.channel = c ∧ m.logical = l ∧ rankLine a < m.line then m.new else mapRank c l s
  | none => mapRank c l s
/-- MEMC_RANK_STATE of a physical rank (R355): 0 in service, 1 spare, 2 retired, 3 failed. -/
def rankState (c p : Nat) (s : State) : Nat := rdf R.MEMC_RANK_STATE (6 * c + 2 * p) 2 s
def setRankState (c p st : Nat) (s : State) : State := wrf R.MEMC_RANK_STATE (6 * c + 2 * p) 2 st s

/-- A saturating ECC or MEMC counter posts EV_ECC_CE_THRESHOLD with action 3, a saturating ARB counter
EV_ARB_GUARANTEE_BROKEN with reason 3 (R384). -/
def satMem (off : Nat) (s : State) : State := postEvent 178 0 1 0 [(1, 1, 3), (4, 4, (off : Nat))] s
def satArb (off : Nat) (s : State) : State := postEvent 190 0 1 0 [(0, 1, 0xFF), (1, 1, 3), (4, 4, (off : Nat))] s
def bumpMem (r : RegInfo) (n : Nat) (s : State) : State := bump r n (satMem (r.base % 2 ^ 16)) s

/-! ### The error log (R368, R369) -/

/-- ECC_STATUS follows the log. -/
def showLog (s : State) : State :=
  wrf R.ECC_STATUS 16 9 s.mem.log.length (wrb R.ECC_STATUS 1 (decide (s.mem.log.length ≥ 512)) s)
/-- A log entry for a DRAM line (R368). -/
def dramEntry (a type requester device flags : Nat) (s : State) : EccEntry :=
  { tt := ttNow s, addr := a / 64 * 64, type, requester, channel := chanOf a, rank := physOf a s, sub := subOf a, device, count := 1,
    row := bits 21 17 a, column := bits 9 3 a + 8 * bits 17 3 a, bank := bits 15 2 a + 4 * bits 12 3 a, flags }
/-- An error enters the log: counted in an entry of its line and type, added, or in place of the oldest CE entry (R369). -/
def logError (e : EccEntry) (s : State) : State :=
  let same : EccEntry → Bool := fun x => x.addr == e.addr && x.type == e.type && x.channel == e.channel
  if s.mem.log.any same then
    modMem (fun m => { m with log := m.log.map (fun x => if same x then { x with count := min 65535 (x.count + 1), flags := x.flags ||| e.flags } else x) }) s
  else if s.mem.log.length < 512 then showLog (modMem (fun m => { m with log := m.log ++ [e] }) s)
  else
    match s.mem.log.findIdx? (fun x => x.type == 1 || x.type == 7) with
    | some i => showLog (modMem (fun m => { m with log := m.log.eraseIdx i ++ [e] }) s)
    | none => bumpMem R.ECC_LOG_DROPS 1 s
/-- The 32 bytes of an entry (R368). -/
def logBytes (e : EccEntry) : List Byte :=
  leBytes 32 (layout [(0, 8, (e.tt : Nat)), (8, 8, (e.addr : Nat)), (16, 1, (e.type : Nat)), (17, 1, (e.requester : Nat)),
    (18, 1, (e.channel : Nat)), (19, 1, (e.rank : Nat)), (20, 1, (e.sub : Nat)), (21, 1, (e.device : Nat)), (22, 2, (e.count : Nat)),
    (24, 4, (e.row : Nat)), (28, 2, (e.column : Nat)), (30, 1, (e.bank : Nat)), (31, 1, (e.flags : Nat))])

/-! ### Retirement (R370, R371) -/

/-- The logical rank that a physical rank serves, if it is in service. -/
def logicalFor (c p : Nat) (s : State) : Option Nat := [0, 1].find? (fun l => mapRank c l s == p && rankState c p s == 0)
/-- The channel has a usable spare. -/
def spareOk (c : Nat) (s : State) : Bool := decide (mapSpare c s < 3) && rankState c (mapSpare c s) s == 1
/-- A retirement falls due: the migration starts, waits for the running one, or finds no spare (R370, R371). -/
def retireDue (c p cause : Nat) (s : State) : State :=
  match s.mem.migration with
  | some m =>
    let target := m.channel == c && m.new == p
    if (m.channel == c && m.old == p) || s.mem.retire.any (fun r => r.1 == c && r.2.1 == p) || !(target || (logicalFor c p s).isSome) then s
    else modMem (fun x => { x with retire := x.retire ++ [(c, p, cause)] }) s
  | none =>
    match logicalFor c p s with
    | none => s
    | some l =>
      if spareOk c s then
        let new := mapSpare c s
        let s := modMem (fun x => { x with migration := some { channel := c, logical := l, old := p, new, cause, start := s.time.ns } }) s
        let s := wr R.MEMC_MIGRATE_PTR 0 (wrf R.MEMC_STATUS 12 4 (1 + 2 * c + 8 * l) s)
        postEvent 180 c 1 0 [(0, 1, (l : Nat)), (1, 1, (p : Nat)), (2, 1, (new : Nat)), (3, 1, (cause : Nat))] s
      else postEvent 182 c 2 0 [(0, 1, (p : Nat)), (1, 1, (cause : Nat))] s

/-! ### Errors (R364 to R366) -/

/-- The CE window of physical rank `k` is over, or none has begun (R370). -/
def windowOver (k : Nat) (s : State) : Bool :=
  match tget? s.mem.windowNs k with
  | none => true
  | some t => decide (s.time.ns ≥ t + rd R.ECC_CE_WINDOW s * 10 ^ 9)
/-- ECC_RANK_CE as it reads: the CEs of the current window (R388). -/
def rankCe (k : Nat) (s : State) : Nat := if windowOver k s then 0 else rd R.ECC_RANK_CE s k
/-- A correctable error on a line, in one device (R364, R370, R384). -/
def dramCe (a requester device : Nat) (scrubbed : Bool) (s : State) : State :=
  let c := chanOf a
  let p := physOf a s
  let k := 3 * c + p
  let now := s.time.ns
  let s := bumpMem R.ECC_CE_COUNT 1 s
  let back := scrubbed || rdb R.ECC_CFG 2 s
  let s := logError (dramEntry a 1 requester device (b2n back) s) s
  let s := if back then modMem (fun m => { m with injected := m.injected.filter (fun e => e.1 != a / 64) }) s else s
  let since := tget 0 s.mem.ceSince c
  let first := layout [(0, 8, ((a / 64 * 64 : Nat) : Nat)), (8, 1, (p : Nat)), (9, 1, (subOf a : Nat)), (10, 1, (device : Nat)), (11, 1, (requester : Nat))]
  let s := modMem (fun m => { m with ceSince := tset m.ceSince c (since + 1), ceFirst := if since = 0 then tset m.ceFirst c first else m.ceFirst }) s
  let s := if (match tget? s.mem.lastCe c with | none => true | some t => decide (now ≥ t + 1000000)) then
      let n := since + 1
      let d := tget 0 s.mem.ceFirst c
      postEvent 176 c 0 0 [(0, 12, (d : Nat)), (12, 4, (min n (2 ^ 32 - 1) : Nat))]
        (modMem (fun m => { m with lastCe := tset m.lastCe c now, ceSince := tset m.ceSince c 0 }) s)
    else s
  let s := if windowOver k s then
      wr R.ECC_RANK_CE 0 (modMem (fun m => { m with windowNs := tset m.windowNs k now, windowHit := m.windowHit.filter (· != k) }) s) k
    else s
  let n := rd R.ECC_RANK_CE s k + 1
  let s := wr R.ECC_RANK_CE n s k
  if n ≥ max 1 (rd R.ECC_CE_THRESHOLD s) ∧ !s.mem.windowHit.contains k then
    let s := modMem (fun m => { m with windowHit := k :: m.windowHit }) s
    let want := rdb R.ECC_CFG 0 s
    let action := if !want then 0 else if spareOk c s && s.mem.migration.isNone then 1 else if s.mem.migration.isSome then 1 else 2
    let s := postEvent 178 c 1 0 [(0, 1, (p : Nat)), (1, 1, (action : Nat)), (4, 4, (n : Nat))] s
    if want then retireDue c p 1 s else s
  else s
/-- An uncorrectable error on a line (R364, R366, R370, R384): counted, logged and reported; the stored line stays bad until a
full write replaces it. -/
def dramUe (a requester : Nat) (s : State) : State :=
  let c := chanOf a
  let p := physOf a s
  let poisoned := s.mem.poison.contains (a / 64)
  let s := bumpMem R.ECC_UE_COUNT 1 s
  let s := if poisoned ∨ s.mem.injected.any (fun e => e.1 = a / 64 ∧ e.2.2) then s
    else modMem (fun m => { m with injected := (a / 64, 0, true) :: m.injected.filter (fun e => e.1 != a / 64) }) s
  let s := logError (dramEntry a (if poisoned then 3 else 2) requester 0xFF 0 s) s
  let s := postEvent 177 c 2 0 [(0, 8, ((a / 64 * 64 : Nat) : Nat)), (8, 1, (p : Nat)), (9, 1, (subOf a : Nat)), (10, 1, (requester : Nat)),
    (11, 1, (if poisoned then 2 else 1)), (12, 4, (bits 0 31 (rd R.ECC_UE_COUNT s) : Nat))] s
  if !poisoned && rdb R.ECC_CFG 1 s then retireDue c p 2 s else s
/-- An access to an address that does not exist (R354). -/
def dramNoAddr (a requester : Nat) (s : State) : State :=
  let s := bumpMem R.ECC_UE_COUNT 1 s
  let s := logError { dramEntry a 6 requester 0xFF 0 s with addr := a / 64 * 64 } s
  postEvent 177 (chanOf a) 2 0 [(0, 8, ((a / 64 * 64 : Nat) : Nat)), (8, 1, (physOf a s : Nat)), (9, 1, (subOf a : Nat)), (10, 1, (requester : Nat)),
    (11, 1, 4), (12, 4, (bits 0 31 (rd R.ECC_UE_COUNT s) : Nat))] s
/-- The 64-byte lines that a byte range touches. -/
def linesOf (a n : Nat) : List Nat := if n = 0 then [] else (List.range ((a + n - 1) / 64 + 1 - a / 64)).map (· + a / 64)
/-- DRAM serves accesses: neither failed nor in self-refresh for STANDBY or a reset (R358, R363). -/
def dramServes (s : State) : Bool := rdf R.MEMC_STATUS 0 3 s != 6 && !(rdf R.MEMC_STATUS 0 3 s == 4 && s.mem.srReason != 0)
/-- A log entry for an SRAM word (R368). -/
def sramEntry (region offset type requester flags : Nat) (s : State) : EccEntry :=
  { tt := ttNow s, addr := offset, type, requester, channel := region, rank := 0xFF, sub := 0xFF, device := 0xFF, count := 1, row := 0,
    column := 0, bank := 0, flags }
/-- A correctable SRAM word (R373, R384). -/
def sramCe (region offset requester : Nat) (s : State) : State :=
  let now := s.time.ns
  let s := logError (sramEntry region offset 7 requester 1 s) (bumpMem R.ECC_SRAM_CE 1 s)
  let n := tget 0 s.mem.sramCeSince region + 1
  let s := modMem (fun m => { m with sramCeSince := tset m.sramCeSince region n, sramInjected := m.sramInjected.filter (fun e => e.1 != offset / 8) }) s
  if (match tget? s.mem.lastSramCe region with | none => true | some t => decide (now ≥ t + 1000000)) then
    postEvent 187 region 0 0 [(0, 4, (offset : Nat)), (4, 4, (n : Nat))]
      (modMem (fun m => { m with lastSramCe := tset m.lastSramCe region now, sramCeSince := tset m.sramCeSince region 0 }) s)
  else s
/-- An uncorrectable SRAM word: found by its user (0) or by the scrubber (1) (R373, R384). -/
def sramUe (region offset requester scrubber : Nat) (s : State) : State :=
  let s := logError (sramEntry region offset 8 requester 0 s) (bumpMem R.ECC_SRAM_UE 1 s)
  postEvent 188 region (if region = 5 then 3 else 2) 0 [(0, 4, (offset : Nat)), (4, 1, (scrubber : Nat))] s
/-- A requester reads a byte range of SRAM (R373): a word with a correctable error is corrected and reported, one with an
uncorrectable error is reported.  True, with its offset: the read met an uncorrectable word.  The spec does not lay the regions of
R373 out by offset: which region a word lies in is a free value (log entry 60). -/
def sramRead (a n requester : Nat) (s : State) : Option Nat × State :=
  let hits := s.mem.sramInjected.filter (fun e => decide (a < 8 * e.1 + 8 ∧ 8 * e.1 < a + n))
  ((hits.find? (·.2)).map (fun e => 8 * e.1),
   each hits (fun e s =>
     let (v, s) := fresh s
     if e.2 then sramUe (v % 8) (8 * e.1) requester 0 s else sramCe (v % 8) (8 * e.1) requester s) s)
/-- A command to DRAM that failed after its replays (R367): the access of this requester that it carried completes with an error. -/
def cmdFailed (a n requester : Nat) (s : State) : Bool := s.mem.cmdFailed.any (fun e => e.1 == requester && (linesOf a n).contains e.2)
def clearFailed (a n requester : Nat) (s : State) : State :=
  modMem (fun m => { m with cmdFailed := m.cmdFailed.filter (fun e => !(e.1 == requester && (linesOf a n).contains e.2)) }) s
/-- The lines of a range with an error in one device. -/
def ceLines (a n : Nat) (s : State) : List (Nat × Nat) :=
  (linesOf a n).filterMap (fun l => if lineBad s l then none else (s.mem.injected.find? (fun e => e.1 == l)).map (fun e => (l, e.2.1)))
/-- A requester reads a byte range: every line with an error that it meets is reported (R364, R388).  True: the read met an
uncorrectable error, or a command that failed (R367). -/
def checkedRead (a n requester : Nat) (s : State) : Bool × State :=
  if a + n > dramSize then (true, dramNoAddr (max a dramSize) requester s)
  else if !dramServes s then (true, s)
  else if cmdFailed a n requester s then (true, clearFailed a n requester s)
  else
    let ces := ceLines a n s
    let bad := (linesOf a n).filter (fun l =>
      let lo := max a (64 * l)
      dramUE s lo (min (a + n) (64 * l + 64) - lo))
    (!bad.isEmpty, each ces (fun e s => dramCe (64 * e.1) requester e.2 false s) (each bad (fun l s => dramUe (64 * l) requester s) s))
/-- The lines that a write covers in part, and so reads first, and that read with an uncorrectable error (R365). -/
def rmwBad (a n : Nat) (s : State) : List Nat := (linesOf a n).filter (fun l => !coversLine a n l && dramUE s (64 * l) 64)
/-- A requester writes bytes: a line that it covers in part and that reads with an error takes the new bytes and the poison
pattern; one that reads with a correctable error is written whole and corrected (R365).  A write to an address that does not exist stores nothing (R354). -/
def memWrite (a : Nat) (bs : List Byte) (requester : Nat) (s : State) : State :=
  if a + bs.length > dramSize then dramNoAddr (max a dramSize) requester s
  else if !dramServes s then s
  else if cmdFailed a bs.length requester s then clearFailed a bs.length requester s
  else
    let bad := rmwBad a bs.length s
    let ces := (ceLines a bs.length s).filter (fun e => !coversLine a bs.length e.1)
    let s := each ces (fun e s => dramCe (64 * e.1) requester e.2 true s) s
    let s := each bad (fun l s => logError (dramEntry (64 * l) 4 requester 0xFF 0 s) (dramUe (64 * l) requester s)) s
    let s := writeDram a bs s
    modMem (fun m => { m with poison := bad ++ m.poison.filter (fun l => !bad.contains l), injected := m.injected.filter (fun e => !bad.contains e.1) }) s

/-! ### Training and self-refresh (R357, R361 to R363) -/

/-- Every channel starts training, on the cold or the warm path (R357). -/
def startTraining (cold : Bool) (s : State) : State :=
  let s := wrf R.MEMC_STATUS 4 4 0 (wrf R.MEMC_STATUS 0 3 1 s)
  modMem (fun m => { m with training := [0, 1, 2, 3], cold, srReason := 0, srWake := none }) s
/-- Entry into self-refresh begins for STANDBY or at an L2 reset (R361, R363); DRAM that is in it already stays. -/
def enterSelfRefresh (reason : Nat) (s : State) : State :=
  let st := rdf R.MEMC_STATUS 0 3 s
  if st = 2 then wrf R.MEMC_STATUS 0 3 3 (modMem (fun m => { m with srReason := reason, srWake := none }) s)
  else if st = 3 ∨ st = 4 then modMem (fun m => { m with srReason := reason, srWake := none }) s
  else s
/-- DRAM leaves self-refresh, or its entry, and serves accesses. -/
def leaveSelfRefresh (s : State) : State :=
  if rdf R.MEMC_STATUS 0 3 s = 4 ∨ rdf R.MEMC_STATUS 0 3 s = 3 then
    wrf R.MEMC_STATUS 0 3 2 (modMem (fun m => { m with srReason := 0, srWake := none }) s)
  else modMem (fun m => { m with srReason := 0, srWake := none }) s

end Sys2Proof.Machine
end

