-- ==== Sys2Proof/Machine/ThmBase.lean ====
section
/-! DEFINITION. The conversion queue (R466, R467). -/

namespace Sys2Proof.Machine

def modThm (f : ThmState → ThmState) (s : State) : State := { s with thm := f s.thm }
/-- Who asks for a conversion: the pass start, OP_SET_MODE(BUILD), a tag, host software, a standing request, calibration. -/
def whoPass : Nat := 1
def whoBuild : Nat := 2
def whoTag : Nat := 3
def whoHost : Nat := 4
def whoBezel : Nat := 5
def whoCal : Nat := 6
def whoPeriod : Nat := 7
/-- The conversion that starts next: the highest priority, on a tie the lowest sensor (R467). -/
def nextConv (l : List Conv) : Option Conv :=
  let best := l.foldl (fun m c => min m (16 * c.prio + c.sensor)) 4096
  l.find? (fun c => 16 * c.prio + c.sensor == best)
/-- Starts the next conversion where none runs (R467). -/
def startConv (s : State) : State :=
  match s.thm.converting, nextConv s.thm.queue with
  | none, some c => modThm (fun t => { t with converting := some c, queue := t.queue.filter (fun x => x.sensor != c.sensor) }) s
  | _, _ => s
/-- THM_STATUS shows the converter and its queue (R484). -/
def showQueue (s : State) : State :=
  wrf R.THM_STATUS 1 4 s.thm.queue.length (wrb R.THM_STATUS 0 s.thm.converting.isSome s)
/-- A conversion is requested: joined to a queued request for the same sensor, else queued (R467). -/
def queueConv (sensor prio who : Nat) (s : State) : State :=
  let q := s.thm.queue
  let q := if q.any (fun c => c.sensor == sensor) then
      q.map (fun c => if c.sensor = sensor then { c with prio := min c.prio prio, who := c.who ++ [who] } else c)
    else q ++ [{ sensor, prio, who := [who] }]
  showQueue (startConv (modThm (fun t => { t with queue := q }) s))
/-- A remote input of type 0 (R468). -/
def inputOff (sensor : Nat) (s : State) : Bool := decide (1 ≤ sensor ∧ sensor ≤ 8) && rdf R.THM_REMOTE_CFG 0 2 s (sensor - 1) == 0
/-- A remote input has role HEAD (R474, R484): inputs 2 to 7, not off. -/
def isHead (i : Nat) (s : State) : Bool :=
  decide (2 ≤ i ∧ i < 8) && rdb R.THM_REMOTE_CFG 2 s i && rdf R.THM_REMOTE_CFG 0 2 s i != 0
/-- The die reading, where there is a valid one: the diode's last valid result, or in fallback the higher of the valid results of remote
inputs 0 and 1 with the offset (R469, R470). -/
def dieReading (s : State) : Option Int :=
  if rdb R.THM_STATUS 5 s then
    let l := [1, 2].filterMap (fun i => if rdb R.THM_RESULT 16 s i then some (sext 16 (rdf R.THM_RESULT 0 16 s i)) else none)
    match l with
    | [] => none
    | x :: r => some (r.foldl max x + sext 16 (rdf R.THM_FALLBACK_OFFSET 0 16 s))
  else if rdb R.THM_RESULT 16 s 0 then some (sext 16 (rdf R.THM_RESULT 0 16 s 0)) else none
/-- THM_STATUS shows whether a valid die reading exists; where fallback has none, EV_THM_HARD is posted once and THM_HARD is set (R470,
R482). -/
def checkDie (s : State) : State :=
  match dieReading s with
  | some _ => { wrb R.THM_STATUS 6 true s with thm := { s.thm with invalidPosted := false } }
  | none =>
    let s := wrb R.THM_STATUS 6 false s
    if rdb R.THM_STATUS 5 s ∧ !s.thm.invalidPosted then
      holdCause 3 (postEvent 37 0 2 0 [(2, 1, 3)] (modThm (fun t => { t with invalidPosted := true }) s))
    else s
/-- A request for a conversion; an input that is off converts nothing and reads not valid (R467, R468). -/
def requestConv (sensor prio who : Nat) (s : State) : State :=
  if inputOff sensor s then
    checkDie (wr R.THM_RESULT_TT (ttNow s) (wrb R.THM_RESULT 16 false (wrb R.THM_RESULT 17 false s sensor) sensor) sensor)
  else queueConv sensor prio who s
/-- The sensors at a reset of level `lvl`: the queue is emptied and a running item abandoned; at L2 the rest stays (R483). -/
def thmAtReset (lvl : Nat) (s : State) : State :=
  let s := if lvl = 2 then abandonRun s else s
  showQueue (modThm (fun t => { t with queue := [], converting := none }) s)

end Sys2Proof.Machine
end

