-- ==== Sys2Proof/Machine/CamBase.lean ====
section
/-! DEFINITION. Cameras: contexts and their status (R351), counters (R348), references (R339), trigger outputs (R330), settings
changes in a context's queue (R332 to R335), control buses (R326), map buffers (R344), and what an L2 reset does (R349). -/

namespace Sys2Proof.Machine

/-- CAM_CTX_STATUS.queue and .busy follow the queue and the held buffers (R351). -/
def showCtx (c : Nat) (s : State) : State :=
  let x := camCtx s c
  wrf R.CAM_CTX_STATUS 4 4 x.queue.length (wrf R.CAM_CTX_STATUS 8 4 (maskOf (rangeP 4 (fun i => x.heldThe.contains i || x.heldHost.contains i))) s c) c

/-- A saturating port counter posts PORT_ERROR with cause COUNTER, a context counter EV_CAM_CONTEXT_OVERRUN (R348). -/
def bumpPort (r : RegInfo) (p n : Nat) (s : State) : State :=
  if n = 0 then s else bump r n (postEvent (147 + 4 * p) 0xFF 1 0xFFFFFFFF [(0, 1, 0x80)]) s p
def bumpCtx (r : RegInfo) (c n : Nat) (s : State) : State :=
  if n = 0 then s
  else bump r n (fun s => postEvent 164 c 1 (ctxFrame s c) [(0, 1, 4), (8, 4, ((regAddr r c - 0x180000 : Nat) : Nat))] s) s c

/-- The temporal reference becomes invalid, with the cause (R339). -/
def camRefReset (c cause : Nat) (s : State) : State :=
  postEvent 165 c 0 (ctxFrame s c) [(0, 1, (cause : Nat))]
    (wrb R.CAM_CTX_STATUS 2 false (modCtx c (fun x => { x with refFresh := true, refBad := [] }) s) c)
/-- THE has finished with the map in a buffer: it is free unless host software holds it (R344). -/
def camMapDone (c i : Nat) (s : State) : State := showCtx c (modCtx c (fun x => { x with heldThe := x.heldThe.filter (· != i) }) s)

/-! ### Triggers (R330) -/

/-- A trigger output starts or ends its pulse, at the level that its polarity gives; a faulted output drives nothing (R330, R532). -/
def trigOut (p : Nat) (start : Bool) (s : State) : State :=
  sif (!rdb R.PIN_FAULT (18 + p) s) (emit (.triggerPulse p start (start != rdb R.CAM_TRIG_CFG 0 s p))) s
/-- A pulse on output `p` naming context `c`; one that arrives while the output still pulses is dropped. -/
def camPulse (p c : Nat) (s : State) : State :=
  if !portRuns p s then s
  else
    match tget? s.cam.pulses p with
    | some x => if x.running then bumpPort R.CAM_TRIG_DROPS p 1 s else go p c s
    | none => go p c s
where
  go (p c : Nat) (s : State) : State :=
    let s := trigOut p true (wr R.CAM_TRIG_LAST_TT (ttNow s) s p)
    modCam (fun m => { m with pulses := tset m.pulses p { context := c % 16, tt := ttNow s, e := nowE s } }) s
/-- A CAMERA_TRIGGER tag pulses every output of its mask (R103, R330). -/
def camTrigger (ctx mask : Nat) (s : State) : State := each (onesOf 4 mask) (fun p s => camPulse p (ctx % 16) s) s
/-- The position compare of the outputs armed on axis `a`, at a step of its position from `old` to `new` (R330). -/
def camCompare (a : Nat) (old new : Int) (s : State) : State :=
  each [0, 1, 2, 3] (fun p s =>
    let cfg := rd R.CAM_TRIG_POS_CFG s p
    let at_ := rdI R.CAM_TRIG_POS s p
    let ahead := pdiff at_ old
    let step := pdiff new old
    let hit := if bit 3 cfg then decide (step ≤ ahead ∧ ahead < 0) else decide (0 < ahead ∧ ahead ≤ step)
    if bit 8 cfg && bits 0 3 cfg == a && hit then camPulse p (bits 4 4 cfg) (wrb R.CAM_TRIG_POS_CFG 8 false s p) else s) s
/-- An edge sample of AX0 or AX1 is kept while a carriage-mounted context is enabled (R341). -/
def camSample (a : Nat) (pos : Int) (s : State) : State :=
  if a < 2 ∧ (List.range 16).any (fun c => ctxOn s c && rdb R.CAM_CTX_CFG 14 s c) then
    modCam (fun m => { m with samples := tmod [] m.samples a (fun l => (stampE s, pos) :: l) }) s
  else s

/-! ### Settings changes (R332 to R335) and control buses (R326) -/

/-- EV_CAM_SETTINGS_APPLIED (R348). -/
def settingsApplied (c cookie target a gen status : Nat) (s : State) : State :=
  postEvent 162 c (if status = 0 then 0 else 1) cookie
    [(0, 4, (target : Nat)), (4, 4, (a : Nat)), (8, 2, (gen : Nat)), (10, 1, (status : Nat))] s
/-- The number of the last frame of a context that has ended. -/
def lastEnded (s : State) (c : Nat) : Nat := if (frameOf s c).isSome then ctxFrame s c + 2 ^ 32 - 1 else ctxFrame s c
/-- A transaction starts on the control bus of position `p`: a settings write or a direct command, with the bus mode (R326). -/
def busStart (p : Nat) (settings read : Bool) (o : SensorOp) (s : State) : State :=
  wrb R.CAM_BUS_STATUS 0 true (emit (.busTransaction p (rdf R.CAM_BUS_CFG 0 2 s p) o.addr read o.regWidth o.reg o.len o.data)
    (modBus p (fun b => { b with current := some (settings, o), read }) s)) p
/-- The queued change of context `c` with an identity. -/
def changeOf (s : State) (c id : Nat) : Option Change := (camCtx s c).queue.find? (fun x => x.id == id)
def modChange (c id : Nat) (f : Change → Change) (s : State) : State :=
  modCtx c (fun y => { y with queue := y.queue.map (fun x => if x.id = id then f x else x) }) s
/-- The control bus of position `p` takes its next transaction: the sensor writes that are due, in order, each after the delays that
stand before it, then a direct command (R326, R335). -/
def busNext (p : Nat) : Nat → State → State
  | 0, s => s
  | fuel + 1, s =>
    let b := camBus s p
    if b.current.isSome then s
    else
      match b.due with
      | (c, id) :: r =>
        match changeOf s c id with
        | none => busNext p fuel (modBus p (fun b => { b with due := r }) s)
        | some x =>
          let wait := ((x.ops.takeWhile (·.delay)).map (·.us)).sum
          if wait ≠ 0 then
            busNext p fuel (modBus p (fun b => { b with readyE := nowE s + (wait * 1000 * 2 ^ 32 : Nat) }) (modChange c id (fun x => { x with ops := x.ops.dropWhile (·.delay) }) s))
          else if nowE s < b.readyE then wrb R.CAM_BUS_STATUS 0 true s p
          else
            match x.ops.dropWhile (·.delay) with
            | o :: _ => busStart p true false o s
            | [] => busNext p fuel (modBus p (fun b => { b with due := r }) s)
      | [] =>
        match b.direct with
        | some (rdn, o) => busStart p false rdn o (modBus p (fun b => { b with direct := none }) s)
        | none => wrb R.CAM_BUS_STATUS 0 false s p
/-- The delay before a sensor write may be over (R335). -/
def advanceBuses (s : State) : State :=
  each [0, 1, 2, 3] (fun p s => if (camBus s p).current.isNone && (camBus s p).due != [] then busNext p 64 s else s) s
/-- Sensor writes that fall due at a Frame End, or at once, are issued (R334). -/
def issueDue (c : Nat) (s : State) : State :=
  let l := ctxLatency s c
  let due := (camCtx s c).queue.filter (fun x => x.writes && !x.issued && decide (0 ≤ sdiff 32 (lastEnded s c) (x.target + 2 ^ 33 - l - 1)))
  if due = [] then s
  else
    let s := modCtx c (fun y => { y with queue := y.queue.map (fun x => if due.contains x then { x with issued := true } else x) }) s
    let p := ctxPort s c
    busNext p 64 (modBus p (fun b => { b with due := b.due ++ due.map (fun x => (c, x.id)) }) s)
/-- A change joins its context's queue, by target and then by arrival (R332). -/
def queueChange (c : Nat) (x : Change) (s : State) : State :=
  let x := { x with id := s.cam.nextChange, frameA := if x.writes then none else some x.target }
  let s := modCam (fun m => { m with nextChange := m.nextChange + 1 }) s
  let q := (camCtx s c).queue
  let q := q.takeWhile (fun y => decide (sdiff 32 y.target x.target ≤ 0)) ++ [x] ++ q.dropWhile (fun y => decide (sdiff 32 y.target x.target ≤ 0))
  issueDue c (showCtx c (modCtx c (fun y => { y with queue := q }) s))
/-- Every queued change of a context is discarded, a commit that is pending among them (R332, R349; log entry 59). -/
def discardChanges (c : Nat) (s : State) : State :=
  let q := (camCtx s c).queue
  let s := showCtx c (modCtx c (fun y => { y with queue := [] }) s)
  let s := if rdb R.CAM_CTX_COMMIT 0 s c then discarded c 0 ((ctxFrame s c + 1) % 2 ^ 32) none (wrb R.CAM_CTX_COMMIT 0 false s c) else s
  each q (fun x s => discarded c x.cookie x.target x.frameA s) s
where
  /-- One of them: what the spec does not give, the frame A where it is not known and the generation at A, are free values. -/
  discarded (c cookie target : Nat) (a : Option Nat) (s : State) : State :=
    let (v, s) := fresh s
    let (g, s) := fresh s
    settingsApplied c cookie target (a.getD v) g 3 s

/-! ### Power outputs (R327) and resets (R349) -/

/-- The power outputs follow CAM_PWR_CTRL, their faults, the mode and a reset (R327). -/
def camPower (s : State) : State :=
  let faulted := rdf R.CAM_PWR_STATUS 8 4 s
  let off := decide (modeOf s ≤ 1) || camInReset s
  wrf R.CAM_PWR_STATUS 0 4 (if off then 0 else rdf R.CAM_PWR_CTRL 0 4 s &&& (15 - faulted)) s
/-- The cameras at a reset of level `lvl`: trigger pulses end; at L2 the queues are discarded and the references become invalid, and
frames end unreported; a wider reset clears everything (R327, R339, R349). -/
def camAtReset (lvl : Nat) (s : State) : State :=
  let s := each [0, 1, 2, 3] (fun p s => sif ((tget? s.cam.pulses p).any (·.running)) (trigOut p false) s) s
  if lvl < 2 then modCam (fun _ => {}) s
  else
    let s := each (List.range 16) (fun c s =>
      let s := discardChanges c s
      if rdb R.CAM_CTX_STATUS 2 s c then camRefReset c 4 s else s) s
    modCam (fun m => { ctxs := m.ctxs.map (fun e => (e.1, { e.2 with queue := [], heldThe := [], heldHost := [] })) }) s

end Sys2Proof.Machine
end

