-- ==== Sys2Proof/Machine/CalBase.lean ====
section
/-! DEFINITION. Calibration: staged results and their application at boundaries (R477, R478), due items (R479), natural gaps
(R480), and the end of a run (R481). -/

namespace Sys2Proof.Machine

/-- The registers that items 1 to 4 write (R477). -/
def calRegs (item : Nat) : List RegInfo :=
  match item with
  | 1 => [R.BSC_KT, R.BSC_KT_CFG]
  | 2 => [R.BSC_KV, R.BSC_KV_CFG]
  | 3 => [R.PLC_DIR_OFFSET_FWD, R.PLC_DIR_OFFSET_REV]
  | 4 => [R.THE_OBS]
  | _ => []
/-- An internal write of one register of the item (R478): no access rule applies; another address is none of the item's. -/
def calWrite (item : Nat) (w : Nat × Nat) (s : State) : State :=
  match (calRegs item).find? (fun r => regCovers r w.1) with
  | some r => wr r (w.2 &&& r.mask) s (regIndex r w.1)
  | none => s
/-- The active bank, 0 or 1 (R170, R193). -/
def activeBank (s : State) : Nat := rdf R.BSC_STATUS 2 1 s
/-- An entry of a bank is written; an entry of 0 leaves the list (R168). -/
def writeBank (b n : Nat) (v : BitVec 64) (s : State) : State :=
  let put := fun (t : Table (BitVec 64)) => if v = 0 then terase t n else tset t n v
  let s := modBsc (fun x => { x with badEntries := x.badEntries.filter (· != (b, n)) }) s
  { s with dose := { s.dose with bsc :=
      if b = 0 then { s.dose.bsc with bank0 := put s.dose.bsc.bank0 } else { s.dose.bsc with bank1 := put s.dose.bsc.bank1 } } }
/-- The content of a bank (R168, R170). -/
def bankOf (s : State) (b : Nat) : Table (BitVec 64) := if b = 0 then s.dose.bsc.bank0 else s.dose.bsc.bank1
/-- An entry of a bank; one whose SRAM word is damaged counts as not LIVE (R373). -/
def bankEntry (s : State) (b n : Nat) : Nat :=
  if s.dose.bsc.badEntries.contains (b, n) then 0 else (tget (0 : BitVec 64) (bankOf s b) n).toNat
/-- Columns of the head that no LIVE beamlet of a bank crosses (R173); all 16,384 where no geometry is loaded. -/
def darkColumns (s : State) (b : Nat) : Nat :=
  match geometry? s with
  | none => 16384
  | some g => ((List.range g.columns).filter (fun c => liveCount g (bankEntry s b) c == 0)).length
/-- The census of both banks is formed again (R173). -/
def census (s : State) : State := wr R.BSC_CENSUS (darkColumns s 0 + 2 ^ 16 * darkColumns s 1) s
/-- The bank marked for swap becomes active; `layer` is the one closed, 0xFFFFFFFF at once (R172, R190). -/
def swapBank (layer : Nat) (s : State) : State :=
  if rdb R.BSC_STATUS 3 s then
    let b := 1 - activeBank s
    let s := wrb R.BSC_STATUS 3 false (wrf R.BSC_STATUS 2 1 b s)
    postEvent 72 b 0 0 [(0, 4, (layer : Nat)), (4, 4, (darkColumns s b : Nat))] s
  else s
/-- The inactive bank is marked for swap; where no layer is open and the mode is neither BUILD nor CALIBRATE, it swaps at
once (R172). -/
def markSwap (s : State) : State :=
  let s := wrb R.BSC_STATUS 3 true s
  if s.dose.layer.isNone ∧ modeOf s ≠ 4 ∧ modeOf s ≠ 5 then swapBank 0xFFFFFFFF s else s
/-- Page fields that an item writes: h for item 5, black for item 6 (R477, R335). -/
def calPage (item : Nat) (p : Nat × List Byte) : Bool :=
  if item = 5 then decide (0x64 ≤ p.1 ∧ p.1 + p.2.length ≤ 0x88) else decide (p.1 + p.2.length ≤ 8)
/-- One staged result takes effect (R477, R478). -/
def applyResult (item : Nat) (r : CalResult) (s : State) : State :=
  if item = 0 then
    let b := 1 - activeBank s
    markSwap (census (each (r.entries.filter (fun e => decide (e.1 < 262144))) (fun e s => writeBank b e.1 e.2 s) s))
  else if item < 5 then each r.writes (calWrite item) s
  else
    let c := r.context % 16
    queueChange c { target := (ctxFrame s c + 1) % 2 ^ 32, cookie := 0, pages := r.page.filter (calPage item) } s
/-- Staged results of the given items apply at a boundary: 1 swath, 2 layer, 3 return to READY; EV_CAL_APPLIED names them
(R478, R482). -/
def applyStaged (items : List Nat) (boundary layer : Nat) (s : State) : State :=
  let due := s.thm.staged.filter (fun e => items.contains e.1)
  if due = [] then s
  else
    let s := { s with thm := { s.thm with staged := s.thm.staged.filter (fun e => !items.contains e.1) } }
    let s := showCal (each due (fun e s => applyResult e.1 e.2 s) s)
    postEvent 43 0 0 0 [(0, 1, (maskOf (due.map (·.1)) : Nat)), (1, 1, (boundary : Nat)), (4, 4, (layer : Nat))] s
/-- A swath boundary: the completion of the SWATH or MEND_PASS in execution. -/
def swathBoundary (s : State) : State := applyStaged [5, 6] 1 (layerNumber s) s

/-- An item becomes due with a cause (R479). -/
def calDue (item cause : Nat) (s : State) : State :=
  if rdb R.THM_CAL_DUE item s then s
  else
    let sn := rdf R.THM_CAL_ITEM 0 4 s item
    let reading := if sn < 10 then rdf R.THM_RESULT 0 16 s sn else 0
    postEvent 41 item 0 0 [(0, 1, (cause : Nat)), (1, 1, (sn : Nat)), (2, 2, (reading : Nat)), (4, 2, (rdf R.THM_CAL_REF 0 16 s item : Nat))]
      (wrb R.THM_CAL_DUE item true s)
/-- Items that watch a sensor are checked against a valid result of it (R479). -/
def calCheck (sensor : Nat) (s : State) : State :=
  each (List.range 7) (fun k s =>
    if rdf R.THM_CAL_ITEM 0 4 s k ≠ sensor then s
    else if !rdb R.THM_CAL_REF 16 s k then calDue k 2 s
    else
      let d := sext 16 (rdf R.THM_RESULT 0 16 s sensor) - sext 16 (rdf R.THM_CAL_REF 0 16 s k)
      if d.natAbs > rdf R.THM_CAL_ITEM 16 16 s k then calDue k 1 s else s) s

/-- The natural gaps that exist: 1 turnaround, 2 recoat interval, 3 layer gap (R480). -/
def gaps (s : State) : List Nat :=
  (if modeOf s = 4 ∧ rdf R.PLC_STATUS 0 3 s = 1 then [1] else []) ++
  (if modeOf s = 4 ∧ (curPass s).isNone ∧ (axisOf s 3).running then [2] else []) ++
  (if modeOf s = 3 ∨ (modeOf s = 4 ∧ s.dose.layerGap) then [3] else [])
/-- The mode returns to the one CALIBRATE came from with cause 0x04; back in READY every staged result applies (R478, R481). -/
def leaveCalibrate (s : State) : State :=
  let s := showCal { s with thm := { s.thm with run := none } }
  let s := changeMode s.ctl.calFrom 4 false s
  if modeOf s = 3 then applyStaged [0, 1, 2, 3, 4, 5, 6] 3 (layerNumber s) s else s
/-- The gap of a run ends: the running item is abandoned and the mode returns (R21, R481). -/
def endGap (s : State) : State := if modeOf s = 5 then leaveCalibrate (abandonRun s) else s
/-- A write to THM_CAL_RUN (R481). -/
def writeCalRun (mask : Nat) (s : State) : State :=
  let items := onesOf 7 mask
  match (if modeOf s = 3 ∨ modeOf s = 4 then (gaps s).find? (fun g => items.all (fun k => rdb R.THM_CAL_ITEM (3 + g) s k)) else none) with
  | none => wrb R.THM_CAL_STATUS 18 true s
  | some g =>
    let s := modCtl (fun c => { c with calFrom := modeOf s }) (wrb R.THM_CAL_STATUS 18 false s)
    let s := showCal { s with thm := { s.thm with run := some { items, startNs := s.time.ns, gap := g } } }
    let s := changeMode 5 1 false s
    if items = [] then leaveCalibrate s else s
/-- THM_CAL_RUN (R481). -/
def execThmCalRun (value : Word32) (s : State) : Host.Outcome State Fault Refusal := .next (writeCalRun (value.toNat % 128) s)

/-- The running item ends: OK with its result, or FAILED (R481). -/
def doCalItemDone (ok : Bool) (r : CalResult) (s : State) : State :=
  match s.thm.run with
  | none => s
  | some run =>
    match run.items with
    | [] => s
    | k :: rest =>
      let s := calDone run (if ok then 0 else 1) s
      let s := if ok then
          let sn := rdf R.THM_CAL_ITEM 0 4 s k
          let s := if run.again then s else wrb R.THM_CAL_DUE k false s
          let s := if sn < 10 ∧ rdb R.THM_RESULT 16 s sn then wr R.THM_CAL_REF (2 ^ 16 + rdf R.THM_RESULT 0 16 s sn) s k else s
          { s with thm := { s.thm with staged := tset s.thm.staged k r } }
        else s
      let s := showCal { s with thm := { s.thm with run := some { run with items := rest, startNs := s.time.ns, again := false } } }
      if rest = [] then leaveCalibrate s else s
/-- CAL_ITEM_DONE (R481). -/
def execCalItemDone (ok : Bool) (result : CalResult) (s : State) : Host.Outcome State Fault Refusal := .next (doCalItemDone ok result s)

/-- OP_CAL_REQUEST: the named items become due (R479). -/
def doCalRequest (k : Nat) (d : Desc) (s : State) : State :=
  readDesc k d 0x09 (usedBits [(8, 4)]) [] (fun i s =>
    let m := dfld d 8 4
    if m ≥ 128 then finish k i stRefused 1 s
    else
      let s := match s.thm.run with
        | some r => if (r.items.head?.map (fun x => bit x m)).getD false then { s with thm := { s.thm with run := some { r with again := true } } } else s
        | none => s
      finish k i stOk 0 (each (onesOf 7 m) (fun x s => calDue x 3 s) s)) s
/-- CAL_REQUEST (R479). -/
def execCalRequest (ring : Nat) (d : Desc) (s : State) : Host.Outcome State Fault Refusal := .next (doCalRequest ring d s)

end Sys2Proof.Machine
end

