-- ==== Sys2Proof/Machine/Intake.lean ====
section
/-! DEFINITION. The intake of a stream (R117 to R121): the groups of a pass in their order, the staging area for a stream in host
memory, and the lead. -/

namespace Sys2Proof.Machine

/-! ### The groups of a pass (R118, R119) -/

/-- The first and the last group of a pass (R119). -/
def firstGroup (p : Pass) : Nat := p.first / 32
def lastGroup (p : Pass) : Nat := lastLine p / 32
def strideOf (p : Pass) : Nat := groupStride p.head.tiles p.head.rc
/-- The groups of a pass in the order of the intake (R118). -/
def groupsOf (p : Pass) : List Nat :=
  (List.range (lastGroup p + 1 - firstGroup p)).map (fun i => if p.dir = 0 then firstGroup p + i else lastGroup p - i)
/-- The group of the pass has been decoded: released or failed. -/
def groupDone (p : Pass) (g : Nat) : Bool := (tget? p.released g).isSome || p.failed.contains g
/-- The next group that the pass has not decoded. -/
def nextGroup (p : Pass) : Option Nat := (groupsOf p).find? (fun g => !groupDone p g)
/-- The whole group is resident in module DRAM: read in place from source 0, staged with its overflow entries from source 1 (R117,
R120). -/
def resident (p : Pass) (g : Nat) : Bool := p.source == 0 || p.staged.any (fun x => x.group == g && x.todo.isEmpty)
/-- The lines of a group that the pass exposes. -/
def linesIn (p : Pass) (g : Nat) : List Nat := ((List.range 32).map (· + 32 * g)).filter (inPass p)

/-! ### The lead (R120, R121, R126) -/

/-- The leading row's current line: none before the first line event. -/
def leadingLine (g : Geometry) (p : Pass) : Option Int :=
  p.lastEvent.map (fun (m : Nat) => if p.dir = 0 then (m : Int) else (m : Int) - (offMax g : Nat))
/-- The lead of a pass (R120): its lines that the leading row has yet to come to and whose whole groups are resident or decoded. -/
def leadOf (g : Geometry) (p : Pass) : Nat :=
  let ahead : Nat → Bool := fun n => match leadingLine g p with
    | none => true
    | some (l : Int) => if p.dir = 0 then decide (l < (n : Nat)) else decide ((n : Int) < l)
  (groupsOf p).foldl (fun a k => if resident p k || groupDone p k then a + ((linesIn p k).filter ahead).length else a) 0
/-- The intake lead lets the profile start (R121): DPI_LEAD_MIN lines, or the whole pass is resident. -/
def leadReached (p : Pass) (s : State) : Bool :=
  decide (leadOf (geom s) p ≥ rd R.DPI_LEAD_MIN s) || (groupsOf p).all (fun k => resident p k || groupDone p k)
/-- The pass that DPI_STATUS and DPI_LEAD speak of: the one in execution, else the one accepted first. -/
def shownPass (s : State) : Option Pass :=
  match curPass s with
  | some p => some p
  | none => s.dose.passes.head?
/-- DPI_LEAD and lead_low follow the lead; in a running swath a lead that is below DPI_LEAD_MIN posts EV_LEAD_LOW once, until it is
back (R120, R126). -/
def updateLead (s : State) : State :=
  match shownPass s with
  | none => wrb R.DPI_STATUS 4 false (wr R.DPI_LEAD 0 s)
  | some p =>
    let lead := leadOf (geom s) p
    let low := decide (lead < rd R.DPI_LEAD_MIN s)
    let running := p.begun && rdf R.DPI_STATUS 0 2 s == 2
    let s := wrb R.DPI_STATUS 4 low (wr R.DPI_LEAD lead s)
    let s := if low && running && !p.leadLow then
        postEvent 54 0 1 p.cookie [(0, 4, (lead : Nat)), (4, 4, (rd R.DPI_LINE s : Nat))] s else s
    modPassOf p.index (fun q => { q with leadLow := low && (running || q.leadLow) }) s

/-! ### The staging area (R117) -/

/-- What stands in the staging area, in the order in which it was fetched: offset and length. -/
def stagePieces (s : State) : List (Nat × Nat) :=
  s.dose.passes.flatMap (fun p => p.staged.flatMap (fun x => (x.off, x.len) :: x.escapes.map (fun e => (e.2, 1032))))
/-- Where the next bytes go, and how many bytes are free: the area is used round and round (log entry 54). -/
def stageRoom (s : State) : Nat × Nat :=
  let size := rd R.DPI_STAGE_SIZE s
  match (stagePieces s).head?, (stagePieces s).getLast? with
  | some (a, _), some (b, n) =>
    let tail := (b + n) % size
    (tail, (size + a - tail) % size)
  | _, _ => (0, size)
/-- The byte ranges of the staging area that `len` bytes from an offset take, as address and length. -/
def stageSpans (off len : Nat) (s : State) : List (Nat × Nat) :=
  let base := rd R.DPI_STAGE_BASE s
  let size := rd R.DPI_STAGE_SIZE s
  let n := min len (size - off)
  [(base + off, n), (base, len - n)].filter (fun x => x.2 != 0)
/-- The bytes at an offset of the staging area. -/
def stageBytes (off len : Nat) (s : State) : List Byte := (stageSpans off len s).flatMap (fun x => readDram s x.1 x.2)
/-- Reads them as the intake; true where a read meets an error (R366). -/
def stageRead (off len : Nat) (s : State) : Bool × State :=
  (stageSpans off len s).foldl (fun a x =>
    let r := checkedRead x.1 x.2 rqIntake a.2
    (a.1 || r.1, r.2)) (false, s)
/-- Stores bytes at an offset of the staging area. -/
def stageWrite (off : Nat) (bs : List Byte) (s : State) : State :=
  match stageSpans off bs.length s with
  | [x] => memWrite x.1 bs rqIntake s
  | [x, y] => memWrite y.1 (bs.drop x.2) rqIntake (memWrite x.1 (bs.take x.2) rqIntake s)
  | _ => s
/-- What the intake fetches next for a pass in host memory: an overflow entry of the newest group, by its offset, else the next
group of the pass's order, by its number; with its address and length (R117, R118). -/
def nextFetch (p : Pass) : Option (Nat ⊕ Nat) :=
  match p.staged.getLast?.bind (·.todo.head?) with
  | some o => some (.inl o)
  | none => ((groupsOf p).find? (fun g => !groupDone p g && p.staged.all (·.group != g))).map .inr
def fetchAddr (p : Pass) : Nat ⊕ Nat → Nat × Nat
  | .inl o => (p.stream + p.head.ovfOff + o, 1032)
  | .inr g => (p.stream + p.head.baseOff + g * strideOf p, strideOf p)
/-- The pass whose stream the intake fetches, and what of it. -/
def fetchNext (s : State) : Option (Pass × (Nat ⊕ Nat)) :=
  (s.dose.passes.filter (fun p => p.source == 1 && p.cut.isNone)).findSome? (fun p => (nextFetch p).map (fun f => (p, f)))
/-- The intake fetches on while the staging area has room (R117): one transfer at a time, the passes in their order. -/
def intakeFetch (s : State) : State :=
  match fetchNext s with
  | none => s
  | some (p, f) =>
    let st := ringState s p.ring
    let busy := s.dose.passes.any (fun q => ((findJob q.ring q.index s).bind (·.xfer)).isSome)
    if busy || st == 0 || st == 4 || rdb R.HIF_RING_STATE 4 s p.ring || decide ((stageRoom s).2 < (fetchAddr p f).2) then s
    else startXfer p.ring p.index (fetchAddr p f).1 (fetchAddr p f).2 false [] s
/-- Overflow entries that a group's slots name, as offsets within the overflow area (R90). -/
def escapesOf (h : StreamHead) (bs : List Byte) : List Nat :=
  ((List.range h.tiles).filterMap (fun t =>
    let a := t * slotSize h.rc
    let off := 8 * bytesAt bs (a + 1) 4
    if bytesAt bs a 1 / 32 = 7 ∧ off + 1032 ≤ h.ovfLen then some off else none)).eraseDups
/-- A transfer of the intake ends: its bytes are staged, and the next one starts (R117). -/
def intakeDone (k i : Nat) (data : List Byte) (s : State) : State :=
  match s.dose.passes.find? (fun p => p.ring == k && p.index == i) with
  | none => s
  | some p =>
    match nextFetch p with
    | none => s
    | some f =>
      let off := (stageRoom s).1
      let s := stageWrite off data s
      let s := modPassOf p.index (fun q => { q with staged := match f with
        | .inl o => q.staged.map (fun x => if x.todo.head? = some o then { x with escapes := x.escapes ++ [(o, off)], todo := x.todo.tail } else x)
        | .inr g => q.staged ++ [{ group := g, off := off, len := data.length, todo := escapesOf p.head data }] }) s
      updateLead (intakeFetch s)

end Sys2Proof.Machine
end

