-- ==== Sys2Proof/Machine/PlaceBase.lean ====
section
/-! DEFINITION. Placement (R195 to R228): throttling, the profile of a pass, the turnaround, prediction and ticks, line events,
reversals, deviations, and the lines a pass misses (R106, R120 to R123, R185). -/

namespace Sys2Proof.Machine

/-- PLC_STATUS.state codes (R228). -/
def pIdle : Nat := 0
def pTurn : Nat := 1
def pRunup : Nat := 2
def pExpose : Nat := 3
def pRunout : Nat := 4
def plcState (s : State) : Nat := rdf R.PLC_STATUS 0 3 s
def setPlc (st : Nat) (s : State) : State := wrf R.PLC_STATUS 0 3 st s
/-- AX0's source is the step input (R198). -/
def external (s : State) : Bool := axisSource 0 s == 2
def openLoop (s : State) : Bool := axisSource 0 s == 1
def pitchOf (s : State) : Nat := rd R.PLC_PIXEL_PITCH s
/-- The effective scale in force, unsigned Q1.15 (R222). -/
def effScale (s : State) : Nat := rdf R.PLC_STATUS 16 16 s
/-- A saturating PLC counter posts EV_PLACEMENT_LATE with cause COUNTER (R225). -/
def satPlc (off : Nat) (s : State) : State :=
  postEvent 66 0xFF 1 (passCookie s) [(4, 1, 5), (6, 2, ((((curPass s).map (·.number)).getD 0) : Nat)), (8, 4, (off : Nat))] s
/-- The pass whose turnaround or profile comes next: the first that has not started its profile (R113). -/
def nextPass (s : State) : Option Pass := s.dose.passes.find? (fun p => !p.profileOn)

/-! ### Throttling (R221 to R223) -/

/-- The line rate of a pass at full scale, in Hz (R217). -/
def baseRate (s : State) : Rat :=
  let r := min (rd R.PLC_LINE_RATE s) 400000
  let e : Rat := (rd R.MOT_ENV_VMAX s 0 * 1000 : Nat) / (pitchOf s : Rat)
  if e < r then e else r
/-- The scan speed of a pass in pu/ms, in its direction, at a line rate and a scale (R217). -/
def scanSpeed (dir scale : Nat) (rate : Rat) (s : State) : Rat :=
  let v := (pitchOf s : Rat) * rate / 1000 * scale / 32768
  if dir = 0 then v else -v
/-- The segments up to a time, the last one cut short there. -/
def cutSegs : List Seg → Rat → List Seg
  | [], t => [⟨t, 0⟩]
  | s :: r, t => if t ≤ s.dur then [⟨t, s.jerk⟩] else s :: cutSegs r (t - s.dur)
/-- The time in ms at which a profile reaches position `f` in direction `dir`: on its last speed exactly, on a segment to
1 ns, the latest time not beyond `f`. -/
def timeAt (p : Prof) (dir : Nat) (f : Rat) : Rat :=
  let te := segsDur p.segs
  let e := evalProf p te
  let before : Rat → Bool := fun x => if dir = 0 then decide (x ≤ f) else decide (f ≤ x)
  if before e.1 then (if e.2.1 = 0 then te else te + (f - e.1) / e.2.1)
  else
    let n := greatest (fun k => decide ((k : Rat) / 1000000 ≤ te) && before (evalProf p ((k : Rat) / 1000000)).1) 40 0
    (n : Rat) / 1000000
/-- F of R203. -/
def firePos (g : Geometry) (p : Pass) (r n : Nat) (s : State) : Int :=
  let e := rowAt g r
  eventPos (pitchOf s) p (n + e.lineOffset : Nat) + e.fine + g.vernier.getD e.group 0 +
    rdI (if p.dir = 0 then R.PLC_DIR_OFFSET_FWD else R.PLC_DIR_OFFSET_REV) s
/-- The line events of a pass in pass order (R199). -/
def eventsOf (g : Geometry) (p : Pass) : List Nat :=
  let a := firstEvent g p
  let b := finalEvent g p
  (List.range (b + 1 - a + (a - b) + (if a ≤ b then 0 else 1))).map (fun i => if p.dir = 0 then a + i else a - i)
/-- The first line event that still has frames to send, and the fire position the carriage reaches first among them (R221). -/
def firstUnsent (g : Geometry) (p : Pass) (s : State) : Option Int :=
  let least : Int → Int → Int := fun a b => if p.dir = 0 then min a b else max a b
  let of_ : Nat → Option Int := fun m =>
    let fs : List Int := if p.built.contains m then (p.frames.filter (fun f => f.event == m && f.sent.isNone)).map (·.fire)
      else ((rowsAt g p m).filter (fun rn => !p.dropped.contains rn)).map (fun rn => firePos g p rn.1 rn.2 s)
    match fs with
    | [] => none
    | a :: r => some (r.foldl least a)
  (eventsOf g p).findSome? of_
/-- The scale of the sources that act within a pass: a head sensor at its soft limit, and slow ports (R222). -/
def inPassScale (s : State) : Nat := max 0x0800 ((s.dose.plc.scales.filter (fun e => decide (40 ≤ e.1))).foldl (fun m e => min m e.2) 0x8000)
/-- An in-pass slow-down (R221): where a source that acts within the pass asks for less than the pass's scale, from the fire position
of the first line whose frames have not been sent, or at once in RUNUP. -/
def slowDown (s : State) : State :=
  match curPass s, (axisOf s 0).prof with
  | some p, some q =>
    let st := plcState s
    let scale := inPassScale s
    if !(st == pRunup || st == pExpose) || external s || !p.profileOn || decide (scale ≥ s.dose.plc.passScale) then s
    else
      match (if st = pRunup then some 0 else firstUnsent (geom s) p s) with
      | none => s
      | some f =>
        let v1 := scanSpeed p.dir scale s.dose.plc.passRate s
        let s := wrb R.PLC_STATUS 4 true (modPlc (fun c => { c with passScale := scale }) s)
        let lim := rd R.MOT_ENV_AMAX s 0
        let j := rd R.MOT_ENV_JMAX s 0
        let t0 := if (axisOf s 0).runHold then 0 else frameTime q.frames
        let from_ : Rat := if st = pRunup then t0 else max t0 (timeAt q p.dir (f : Rat))
        let e := evalProf q from_
        let segs := cutSegs q.segs from_ ++ changeSegs e.2.1 e.2.2 v1 lim j
        modAxis 0 (fun x => { x with prof := some { q with segs := segs } }) s
  | _, _ => s
/-- The least scale and the greatest dwell of all sources, bounded (R222). -/
def combined (s : State) : Nat × Nat :=
  let sc := s.dose.plc.scales.foldl (fun m e => min m e.2) 0x8000
  let dw := s.dose.plc.dwells.foldl (fun m e => max m e.2) 0
  (max 0x0800 sc, min 1048575 dw)
/-- The effective values are formed again after source `src` changed; a change posts EV_THROTTLE_ACTIVE (R223, R225). -/
def throttle (src port : Nat) (inPass : Bool) (s : State) : State :=
  let (sc, dw) := combined s
  if sc = effScale s ∧ dw = rd R.PLC_EFF_DWELL s then s
  else
    let s := wr R.PLC_EFF_DWELL dw (wrf R.PLC_STATUS 16 16 sc s)
    let running := inPass && (curPass s).isSome && !external s
    postEvent 67 0 (if sc < 0x8000 then 1 else 0) (passCookie s) [(0, 2, (sc : Nat)), (2, 4, (dw : Nat)), (6, 1, (src : Nat)),
      (7, 1, (port : Nat)), (8, 4, (layerNumber s : Nat)), (12, 2, ((((curPass s).map (·.number)).getD 0) : Nat)),
      (14, 1, (b2n (external s) + 2 * b2n running : Nat))] s
/-- A scale or dwell source takes a value (R222); one that acts within the pass may slow it down. -/
def setScale (src port v : Nat) (inPass : Bool) (s : State) : State :=
  let s := throttle src port inPass (modPlc (fun c => { c with scales := tset c.scales (8 * src + port % 8) v }) s)
  if inPass then slowDown s else s
def setDwell (src v : Nat) (s : State) : State :=
  throttle src 0xFF false (modPlc (fun c => { c with dwells := tset c.dwells src v }) s)

/-! ### The turnaround (R218 to R220) -/

/-- The ramp of a run-up and the position of the run-up start (R217, R219). -/
def runupRamp (p : Pass) (s : State) : List Seg :=
  changeSegs 0 0 (scanSpeed p.dir (effScale s) (baseRate s) s) (rd R.MOT_ENV_AMAX s 0) (rd R.MOT_ENV_JMAX s 0)
def runupStart (p : Pass) (s : State) : Int :=
  let segs := runupRamp p s
  let d := (evalSegs segs 0 0 0 (segsDur segs)).1
  let x := eventPos (pitchOf s) p (firstEvent (geom s) p)
  let back : Int := (rd R.PLC_RUNUP s * pitchOf s : Nat)
  if p.dir = 0 then (x - back - d).floor else (x + back - d).ceil
/-- The run-up start lies far enough back for the speed now in force (R217, R219). -/
def roomToRun (p : Pass) (s : State) : Bool := beyond p (runupStart p s) (cmdPos 0 s)
/-- Placement may move an axis that is at rest (R305, R441, R558). -/
def mayTurn (a : Nat) (s : State) : Bool :=
  atRest a s && envOk a s && axisState a s != mFault && !s.ctl.motionHold && s.pwr.dip.isNone && !s.dose.plc.noStart && modeOf s == 4
/-- The moves of a turnaround: AX1 to the stepover, AX0 to the run-up start, each as soon as its axis rests (R218 steps 2 to 4). -/
def turnMoves (p : Pass) (s : State) : State :=
  if external s || p.abandoned || p.cut.isSome then s
  else
    let s := if mayTurn 1 s && cmdPos 1 s != wrap48 p.stepover then
        startMove 1 p.stepover (limitV 1 (rd R.MOT_ENV_VMAX s 1) s) (rd R.MOT_ENV_AMAX s 1) (rd R.MOT_ENV_JMAX s 1) mProfile s
      else s
    if mayTurn 0 s && (s.dose.plc.turnPass != some p.index || !roomToRun p s) then
      startMove 0 (runupStart p s) (limitV 0 (rd R.MOT_ENV_VMAX s 0) s) (rd R.MOT_ENV_AMAX s 0) (rd R.MOT_ENV_JMAX s 0) mProfile
        (modPlc (fun c => { c with turnPass := some p.index }) s)
    else s
/-- TURN for a pass: AX1 moves to its stepover, AX0 to its run-up start; the dwell timer starts; the pass-start conversions are
requested (R185, R218 steps 2 to 4). -/
def turnFor (p : Pass) (s : State) : State :=
  let s := wrb R.PLC_STATUS 3 (p.dir == 1) s
  let kt := 1 + rdf R.BSC_CTRL 4 3 s
  let s := modPlc (fun c => { c with dwellDone := false, settled := false, waitOver := false, convT := !inputOff kt s, convV := true,
                                     passDwell := rd R.PLC_EFF_DWELL s, turnPass := none, turnOf := some p.index }) s
  turnMoves p (requestConv 9 2 whoPass (requestConv kt 2 whoPass s))
/-- In TURN, the turnaround of the next pass is run once for it (R218). -/
def turnNext (s : State) : State :=
  match nextPass s with
  | none => s
  | some p => if plcState s = pTurn ∧ s.dose.plc.turnOf ≠ some p.index ∧ modeOf s = 4 then turnFor p s else s

/-! ### Prediction and ticks (R205 to R212) -/

/-- The profile's command at E: 0 where AX0 is outside the module's hand (R207). -/
def profileAt (e : Int) (s : State) : Rat × Rat := if external s then (0, 0) else commandAt 0 e s
/-- The samples that the fit uses: N of R205, at least 2 on the step input (R207). -/
def fitN (s : State) : Nat :=
  let k := min 8 (rdf R.PLC_CTRL 8 4 s)
  2 ^ (if external s then max 1 k else k)
/-- The least-squares fit of the samples, newest first, times relative to the newest in ns (R205): e0 and e1. -/
def fitOf (l : List (Int × Rat)) : Rat × Rat :=
  match l with
  | [] => (0, 0)
  | [x] => (x.2, 0)
  | x :: _ =>
    let pts := l.map (fun p => ((((p.1 - x.1 : Int) : Rat)) / 4294967296, p.2))
    let n : Rat := pts.length
    let st := pts.foldl (fun a p => a + p.1) (0 : Rat)
    let se := pts.foldl (fun a p => a + p.2) (0 : Rat)
    let stt := pts.foldl (fun a p => a + p.1 * p.1) (0 : Rat)
    let ste := pts.foldl (fun a p => a + p.1 * p.2) (0 : Rat)
    let den := n * stt - st * st
    if den = 0 then (x.2, 0)
    else
      let e1 := (n * ste - st * se) / den
      ((se - e1 * st) / n, e1)
/-- A number rounded toward zero. -/
def truncI (x : Rat) : Int := if x < 0 then -((-x).floor) else x.floor
/-- An AX0 edge sample joins the fit (R196, R205). -/
def addSample (pos : Int) (s : State) : State :=
  let e := stampE s
  let old := if s.time.fitStale then [] else s.dose.plc.edges
  let edges := ((e, (pos : Rat) - (profileAt e s).1) :: old).take (fitN s)
  let (e0, e1) := if openLoop s then (0, 0) else fitOf edges
  let need := if s.time.fitStale then fitN s else s.dose.plc.needSamples
  let s := { s with time := { s.time with fitStale := false } }
  wrI R.PLC_ERROR (truncI e0) (modPlc (fun c => { c with edges, e0, e1, tLast := e, needSamples := need - 1 }) s)
/-- predicted(t) under a fit (R205). -/
def predictAt (q : Rat) (e0 e1 : Rat) (tLast e : Int) : Rat := q + e0 + e1 * ((((e - tLast : Int) : Rat)) / 4294967296)
/-- The predicted time of fire position F, in 2^-16 ns of E, rounded down (R206, R210). -/
def predictTime (dir : Nat) (f : Int) (s : State) : Int :=
  let c := s.dose.plc
  let ns : Rat := ((c.tLast : Int) : Rat) / 4294967296
  let (q, v) := profileAt c.tLast s
  let slope := v + c.e1
  let linear : Rat := if slope = 0 then ns else ns + ((f : Rat) - c.e0 - q) / slope
  let t : Rat := match (if external s then none else (axisOf s 0).prof) with
    | none => linear
    | some p =>
      let t0 := sinceStart p c.tLast
      if segsDur p.segs ≤ t0 then linear
      else
        let at_ : Rat → Rat := fun ms => (evalProf p ms).1 + c.e0 + c.e1 * (ms - t0) * 1000000
        let te := segsDur p.segs
        let vEnd := (evalProf p te).2.1 / 1000000 + c.e1
        let before : Rat → Bool := fun x => if dir = 0 then decide (x ≤ f) else decide ((f : Rat) ≤ x)
        let base : Rat := ((p.start : Int) : Rat) / 4294967296
        if before (at_ te) then (if vEnd = 0 then base + te * 1000000 else base + te * 1000000 + ((f : Rat) - at_ te) / vEnd)
        else base + ((greatest (fun k => decide ((k : Rat) / 65536000000 ≤ te) && before (at_ ((k : Rat) / 65536000000))) 56 0 : Nat) : Rat) / 65536
  (t * 65536).floor
/-- The port tick of a time in 2^-16 ns of E (R210). -/
def tickAt (p : Nat) (t16 : Int) (s : State) : Nat :=
  let d := sdiff 64 (toBits 64 t16) (rd R.PLC_ANCHOR_TT s)
  let n := sar (d * (rd R.PLC_TICK_RATE s : Nat) + 2 ^ 45) 46
  toBits 32 (n + (rd R.PLC_ANCHOR_TICK s p : Nat))
/-- dwell_ns: the pitch over the profile's velocity, in pu/ns, at the predicted fire time of F (R209).  On the step input the measured
velocity error e1 stands for the velocity of the profile that is taken as zero (R198), and a velocity of 0 gives a dwell of 0 (log
entry 57). -/
def dwellAt (dir : Nat) (f : Int) (s : State) : Nat :=
  let v := (profileAt (predictTime dir f s * 65536) s).2
  let v := if external s then s.dose.plc.e1 else v
  if v = 0 then 0 else ((pitchOf s : Rat) / absR v).floor.toNat
/-! ### Missed lines and the lead (R120 to R123) -/

/-- The group of a line has been released. -/
def released (p : Pass) (n : Nat) : Bool := (tget? p.released (n / 32)).isSome
/-- EV_LINE_MISSED_DATA for a run that ends (R123); its first line is the lowest stream line of it (log entry 54). -/
def endMissRun (s : State) : State :=
  match curPass s with
  | none => s
  | some p =>
    if p.runCount = 0 then s
    else
      let first := if p.dir = 0 then p.runFirst else p.runFirst + 1 - p.runCount
      postEvent 55 0 1 p.cookie [(0, 4, (first : Nat)), (4, 4, (p.runCount : Nat)), (8, 2, (p.number : Nat))]
        (modPass (fun q => { q with runCount := 0 }) s)
/-- The run of missed lines ends where the next line in pass order cannot join it: it lies outside the pass, has entered the window,
or is missed or withheld already (R123). -/
def closeMissRun (s : State) : State :=
  match curPass s with
  | none => s
  | some p =>
    let gone : Nat → Bool := fun n => !inPass p n || p.missed.contains n || p.entered.contains n || p.doneLines.contains n
    if p.runCount ≠ 0 ∧ (if p.dir = 0 then gone (p.runFirst + p.runCount) else p.runFirst < p.runCount || gone (p.runFirst - p.runCount)) then
      endMissRun s
    else s
/-- Missed lines of any accepted pass: DPI_MISSED_TOTAL and the layer's count (R115, R125). -/
def countTotal (k : Nat) (s : State) : State :=
  let s := bump R.DPI_MISSED_TOTAL k (postSaturated 55 1) s
  { s with dose := { s.dose with layer := s.dose.layer.map (fun l => { l with missed := l.missed + k }) } }
/-- Missed lines of the pass in execution: DPI_MISS_COUNT and the totals (R101, R122). -/
def countMissed (k : Nat) (s : State) : State :=
  countTotal k (wr R.DPI_MISS_COUNT (min (rd R.DPI_MISS_COUNT s + k) (2 ^ 32 - 1)) s)
/-- Every pair of a line, or of it what a mend pass owes, stands owed with a cause; what its slates held is part of it (R99, R122,
R150, R286). -/
def oweWhole (p : Pass) (n cause : Nat) (s : State) : State :=
  let g := geom s
  let own : Nat → Nat := fun r => if p.mend then owedBlocks g p n r else allBlocks g
  let rows := (List.range g.rowCount).filter (fun r => own r != 0)
  each rows (fun r s => oweLine n { row := r, blocks := own r, cause := cause } s) (countFrames cause rows.length (freeSlates g n s))
/-- Line `n` is missed: blank for the whole pass, counted and logged for mend (R122, R128). -/
def missLine (n : Nat) (s : State) : State :=
  match curPass s with
  | none => s
  | some p =>
    let adj := decide (p.runCount ≠ 0) && (if p.dir = 0 then n == p.runFirst + p.runCount else n + p.runCount == p.runFirst)
    let s := if adj then modPass (fun q => { q with runCount := q.runCount + 1 }) s
      else modPass (fun q => { q with runFirst := n, runCount := 1 }) (endMissRun s)
    let s := oweWhole p n 1 s
    closeMissRun (countMissed 1 (modPass (fun q => { q with missed := n :: q.missed }) s))
/-- Lines of the pass whose group is not released 24 lines before the leading row, or which THE has not finished 21 lines
before it (R122, R127, R128). -/
def checkMissed (s : State) : State :=
  match curPass s with
  | none => s
  | some p =>
    if !p.profileOn || p.cut.isSome || p.abandoned then s
    else
      let g := geom s
      let mark := rdI R.PLC_MARK s
      let pitch := pitchOf s
      let lines := if p.dir = 0 then List.range p.count |>.map (· + p.first) else List.range p.count |>.map (fun i => lastLine p - i)
      let due := fun (n k : Nat) =>
        let d : Int := (k * pitch : Nat)
        let x := eventPos pitch p (leadEvent g p n : Nat)
        beyond p mark (if p.dir = 0 then x - d else x + d)
      let late := lines.filter (fun n =>
        due n 24 && !(p.missed.contains n || p.entered.contains n || p.doneLines.contains n) &&
          (!released p n || due n 21))
      each late missLine s
/-! ### Line events (R106, R185, R200) -/

/-- The event tags of a line act (R106). -/
def tagAction (p : Pass) (t : Tag) (s : State) : State :=
  match t.type with
  | 4 => camTrigger (t.value % 256) (t.value / 256 % 256) s
  | 5 => each (onesOf 9 t.value) (fun i s => requestConv i 3 whoTag s) s
  | 6 => if t.value % 256 = 1 then requestConv 9 3 whoTag s else s
  | 7 => postEvent 51 0 0 p.cookie [(0, 8, (t.value : Nat)), (8, 4, (t.line : Nat)), (12, 2, (p.number : Nat)), (14, 1, (p.dir : Nat))] s
  | _ => s
/-- The reading of the selected sensor and of the supply take effect for the frames of the line event (R184, R185). -/
def factorUpdate (s : State) : State :=
  let cl := fun (i : Int) => clampI 0 255 i
  let s := match s.dose.bsc.newT with
    | none => s
    | some t =>
      let i := factorIndex t (sext 16 (rdf R.BSC_KT_CFG 0 16 s)) (rdf R.BSC_KT_CFG 16 4 s)
      let s := if i < 0 ∨ i > 255 then bump R.BSC_KT_CLAMP 1 (fun s => postEvent 62 0 0 (passCookie s) [(4, 1, 6), (8, 4, 0x40)] s) s else s
      wrf R.BSC_STATUS 8 8 (cl i).toNat (modBsc (fun b => { b with newT := none }) s)
  match s.dose.bsc.newV with
  | none => s
  | some v =>
    let i := factorIndex v (rdf R.BSC_KV_CFG 0 16 s : Nat) (rdf R.BSC_KV_CFG 16 4 s)
    let s := if i < 0 ∨ i > 255 then bump R.BSC_KV_CLAMP 1 (fun s => postEvent 62 0 0 (passCookie s) [(4, 1, 6), (8, 4, 0x44)] s) s else s
    wrf R.BSC_STATUS 16 8 (cl i).toNat (modBsc (fun b => { b with newV := none }) s)
/-- The pass's last line event: AX0 decelerates in RUNOUT (R218 step 1), once every frame already sent has fired or been recalled
(R216). -/
def startRunout (s : State) : State :=
  let s := wrf R.DPI_STATUS 0 2 3 (setPlc pRunout s)
  let s := modPass (fun q => { q with sendOver := q.sendOver || q.cut.isSome }) s
  if external s then s
  else if mayFire s then modPlc (fun c => { c with runoutPending := true }) s
  else replan 0 0 (rd R.MOT_ENV_AMAX s 0) s
/-- Line event m of the pass in execution (R199, R200).  DPI_TAG_APPLIED counts every tag, checks among them, of a line that comes
under the leading row (R125; log entry 54). -/
def lineEvent (p : Pass) (m : Nat) (s : State) : State :=
  let g := geom s
  let s := if p.begun then s
    else
      let s := wrf R.DPI_STATUS 0 2 2 (wr R.DPI_MISS_COUNT 0 (modPass (fun q => { q with begun := true }) s))
      postEvent 48 0 0 p.cookie [(0, 4, (p.layer : Nat)), (4, 2, (p.swath : Nat)), (6, 2, (p.number : Nat)), (8, 1, (p.dir : Nat)),
        (9, 1, (p.context : Nat)), (12, 4, (m : Nat))] s
  let s := modPass (fun q => { q with lastEvent := some m }) (wr R.PLC_EVENT_LINE m s)
  let n := if p.dir = 0 then m else m - offMax g
  let s := if (p.dir = 0 ∨ offMax g ≤ m) ∧ inPass p n then
      let tags := p.head.tags.filter (fun t => t.line == n)
      let s := wr R.DPI_TAG_APPLIED (rd R.DPI_TAG_APPLIED s + tags.length) (wr R.DPI_LINE n s)
      each tags (tagAction p) s
    else s
  let s := updateLead s
  if m = finalEvent g p then startRunout s else s
/-- The line events that the mark has carried past, in pass order (R200, R226). -/
def lineEvents : Nat → State → State
  | 0, s => s
  | fuel + 1, s =>
    match curPass s with
    | none => s
    | some p =>
      let g := geom s
      let m : Nat := match p.lastEvent with
        | none => firstEvent g p
        | some l => nextEvent p l
      if !p.profileOn || p.abandoned || p.lastEvent == some (finalEvent g p) then s
      else if beyond p (rdI R.PLC_MARK s) (eventPos (pitchOf s) p m) then lineEvents fuel (lineEvent p m s)
      else s
/-- A crossing of row `r` with line `n` of a pass has resolved or will not be made (R151, R275). -/
def crossingDone (p : Pass) (r n : Nat) (s : State) : State :=
  let g := geom s
  modPassOf p.index (fun q => { q with
    resolved := tmod 0 q.resolved n (· + 1)
    trailDone := if r = trailRow g q then n :: q.trailDone else q.trailDone }) s
/-- The frames of line event m have been built: the window slot of the line that m ends is free (R128). -/
def eventBuilt (m : Nat) (s : State) : State :=
  let g := geom s
  modPass (fun q => { q with
    built := if q.built.contains m then q.built else m :: q.built
    window := if q.dir = 0 ∧ m < offMax g then q.window else terase q.window (if q.dir = 0 then m - offMax g else m) }) s
/-- The frames of line event m of the pass are no longer to be built or sent: rows whose frames are not there are withheld with a
cause, and frames not sent are dropped (R201, R214, R222). -/
def dropEventFrames (p : Pass) (m cause : Nat) (s : State) : State :=
  let g := geom s
  let p := (curPass s).getD p
  let unsent := p.frames.filter (fun f => f.event == m && f.sent.isNone)
  let rows := if p.built.contains m then unsent.map (fun f => (f.row, f.line))
    else (rowsAt g p m).filter (fun rn => !p.dropped.contains rn)
  let s := eventBuilt m (modPass (fun q => { q with frames := q.frames.filter (fun f => !(f.event == m && f.sent.isNone)) }) s)
  let s := each unsent dropCarrier s
  each rows (fun rn s => withholdRow p rn.2 rn.1 (ownBlocks g p rn.2 rn.1) cause 0 (crossingDone p rn.1 rn.2 s)) s
/-- Sending resumes after a trip: the lines within the send lead of the mark stay blank (R214 step 4). -/
def resumeSending (s : State) : State :=
  match curPass s with
  | none => wrb R.PLC_STATUS 5 false s
  | some p =>
    let g := geom s
    let mark := rdI R.PLC_MARK s
    let lead : Int := (rd R.PLC_SEND_LEAD s * pitchOf s : Nat)
    let hi := if p.dir = 0 then mark + lead else mark - lead
    let inside := (eventsOf g p).filter (fun m =>
      (rowsAt g p m).any (fun rn => beyond p hi (firePos g p rn.1 rn.2 s)) && (p.built.all (· != m) || p.frames.any (fun f => f.event == m && f.sent.isNone)))
    wrb R.PLC_STATUS 5 false (each inside (fun m s => dropEventFrames p m 5 s) s)

/-- The frame sent longest ago whose tick has not passed (R208). -/
def oldestFlying (s : State) : Option Frame :=
  let when_ : Frame → Int := fun f => (f.sent.map (·.sentE)).getD 0
  match (outstanding s).filter (fun f => decide (sdiff 32 (fireTick f) (tickOf f.port s) > 0)) with
  | [] => none
  | f :: r => some (r.foldl (fun a b => if when_ b < when_ a then b else a) f)
/-- The deviation of a sample against a frame's prediction, in pu (R208). -/
def deviation (f : Frame) (pos : Int) (s : State) : Rat :=
  match f.sent with
  | none => 0
  | some t =>
    let e := stampE s
    let q : Rat := match t.prof with
      | none => 0
      | some p => (evalProf p (sinceStart p e)).1
    (pos : Rat) - predictAt q t.e0 t.e1 t.tLast e
/-- A recall trip: what flies is recalled, counted and reported (R214 steps 2 and 3). -/
def tripRecall (f : Frame) (dev : Rat) (s : State) : State :=
  let before := ((outstanding s).filter (·.recalled)).length
  let s := recallAll s
  let n := ((outstanding s).filter (·.recalled)).length - before
  let s := modPass (fun q => { q with tripped := true, recalls := q.recalls + 1 }) (bump R.PLC_RECALLS 1 (satPlc 0x7C) s)
  let s := askHold (holdRule s 2 2) (((curPass s).map (·.recalls)).getD 0) s
  postEvent 66 f.port 1 (passCookie s) [(0, 4, (f.line : Nat)), (4, 1, 2), (5, 1, (f.row : Nat)),
    (6, 2, ((((curPass s).map (·.number)).getD 0) : Nat)), (8, 4, truncI dev), (12, 4, (n : Nat))] s
/-- A deviation trip (R214 steps 1 to 3). -/
def deviationTrip (f : Frame) (dev : Rat) (s : State) : State :=
  tripRecall f dev (modPlc (fun c => { c with needSamples := fitN s }) (wrb R.PLC_STATUS 5 true s))
/-- The recall of a limit trip in a pass (R316): as for a deviation trip, with the deviation of the position as it stands. -/
def limitRecall (s : State) : State :=
  match oldestFlying s with
  | none => modPass (fun q => { q with tripped := true }) s
  | some f => tripRecall f (deviation f (measPos 0 s) s) s
/-- A sample behind the mark (R201): absorbed within the window, a position fault beyond it.  True: a fault.  In a RUNOUT whose pass
has completed, the events name no pass (R202). -/
def reversal (p : Option Pass) (dir depth : Nat) (pos : Int) (s : State) : Bool × State :=
  let cookie := (p.map (·.cookie)).getD 0
  let number := (p.map (·.number)).getD 0
  if depth ≤ rdf R.PLC_CTRL 0 4 s * 256 then
    let s := modPass (fun q => { q with
      reversals := q.reversals + 1
      deepest := max q.deepest depth
      deepestEvent := if depth > q.deepest then q.lastEvent.getD 0 else q.deepestEvent }) s
    let full : State → State := fun s =>
      let q := curPass s
      postEvent 64 0 0 cookie [(0, 4, ((q.map (·.reversals)).getD 1 : Nat)), (4, 4, ((q.map (·.deepest)).getD depth : Nat)), (8, 2, (number : Nat)),
        (10, 1, (dir : Nat)), (11, 1, 2), (12, 4, ((q.map (·.deepestEvent)).getD (rd R.PLC_EVENT_LINE s) : Nat))] s
    (false, bump R.PLC_REVERSALS 1 full s)
  else
    let s := postEvent 65 0 2 cookie [(0, 6, pos), (8, 4, (depth : Nat)), (12, 2, (number : Nat)), (14, 1, (dir : Nat)),
      (15, 1, (axisSource 0 s : Nat))] s
    (true, holdCause 6 (recallAll s))
/-- An AX0 sample against the oldest frame in flight: the deviation is recorded, and returned where it exceeds PLC_ERR_LIMIT (R208). -/
def checkDeviation (pos : Int) (s : State) : Option (Frame × Rat) × State :=
  match oldestFlying s with
  | none => (none, s)
  | some f =>
    let dev := deviation f pos s
    let s := peak R.PLC_DEV_PEAK (absR dev).floor.toNat s
    (if absR dev > (rd R.PLC_ERR_LIMIT s : Rat) then some (f, dev) else none, s)
/-- An AX0 sample reaches placement: the fit, the deviation, reversals, the mark and its line events (R200 to R208, R214, R226). -/
def placeSample (pos : Int) (s : State) : State :=
  let s := addSample pos s
  let st := plcState s
  let checks := st == pExpose || st == pRunout
  let dir := rdf R.PLC_STATUS 3 1 s
  let mark := rdI R.PLC_MARK s
  let depth := if dir = 0 then pdiff mark pos else pdiff pos mark
  let (trip, s) := if checks then checkDeviation pos s else (none, s)
  let r := if checks && decide (depth > 0) then reversal (curPass s) dir depth.toNat pos s else (false, s)
  if r.1 then r.2
  else
    let s := r.2
    let s := match trip with
      | none => s
      | some (f, dev) => if rdb R.PLC_STATUS 5 s then s else deviationTrip f dev s
    let s := if rdb R.PLC_STATUS 5 s && s.dose.plc.needSamples == 0 then resumeSending s else s
    match curPass s with
    | none => if checks && decide (depth < 0) then wrI R.PLC_MARK pos s else s
    | some p => if p.profileOn && decide (depth < 0) then checkMissed (lineEvents 65536 (wrI R.PLC_MARK pos s)) else s
/-- The pass-start conditions of R218 step 5 hold for a pass. -/
def mayRunUp (p : Pass) (s : State) : Bool :=
  let c := s.dose.plc
  plcState s == pTurn && p.executing && !p.profileOn && !external s && c.settled && c.dwellDone && !c.convT && !c.convV && !c.noStart &&
    (leadReached p s || c.waitOver) && atRest 0 s && atRest 1 s && (modeOf s == 4 || modeOf s == 5) && s.ctl.request.isNone && p.cut.isNone &&
    c.turnOf == some p.index

end Sys2Proof.Machine
end

