-- ==== Sys2Proof/Machine/Thermal.lean ====
section
/-! DEFINITION. The thermal-history engine (R127 to R161): bed coordinates and cells, the maps in DRAM, decay, the correction of
a line at window entry, absorption, assimilation, the slot fill and rotation. -/

namespace Sys2Proof.Machine

/-- Thermal time in ns, and in stamp units: E holds TT and the count of its wraps, and a reset that clears the count clears E
(R136, R411). -/
def thermalNs (s : State) : Nat := s.time.ns % 2 ^ 64
def thermalTime (s : State) : Nat := thermalNs s / 2 ^ 20 % 2 ^ 32
/-- The engine corrects this layer (R129, R130). -/
def thermalOn (s : State) : Bool := (s.dose.layer.map (·.thermal)).getD false && rdb R.THE_CTRL 0 s
def theGeom (s : State) : TheGeom := s.dose.the.geom
/-- The bytes of one slot (R134). -/
def slotBytes (g : TheGeom) : Nat := g.u * g.v * 33 / 16
def curSlot (s : State) : Nat := rdf R.THE_STATUS 2 4 s
def stateAddr (g : TheGeom) (slot u v : Nat) : Nat := g.base + slot * slotBytes g + 2 * (u * g.v + v)
def stampAddr (g : TheGeom) (slot u strip : Nat) : Nat := g.base + slot * slotBytes g + 2 * g.u * g.v + 4 * (u * g.v / 64 + strip)
/-- A cell lies on the map (R133). -/
def onMap (g : TheGeom) (u v : Int) : Bool := decide (0 ≤ u ∧ u < g.u ∧ 0 ≤ v ∧ v < g.v)
/-- DECAY[i] and OBS[r] (R160). -/
def decayTab (s : State) (i : Nat) : Nat := rdf R.THE_DECAY (16 * (i % 2)) 16 s (i / 2)
def obsTab (s : State) (i : Nat) : Nat := rdf R.THE_OBS (16 * (i % 2)) 16 s (i / 2)
/-- A state decayed from a stamp to a thermal time (R145). -/
def decayed (s : State) (e from_ to_ : Nat) : Nat := decayState (decayTab s) e (sdiff 32 to_ from_) (rd R.THE_DECAY_SHIFT s)
/-- The read of a strip meets an uncorrectable error: its cells read THE_EDGE_STATE, without decay (R366). -/
def stripBad (s : State) (g : TheGeom) (slot u strip : Nat) : Bool :=
  dramUE s (stateAddr g slot u (64 * strip)) 128 || dramUE s (stampAddr g slot u strip) 4
/-- A cell of a strip, decayed from its stamp to `to_` (R145, R366). -/
def cellAt (s : State) (g : TheGeom) (slot u v to_ : Nat) : Nat :=
  if stripBad s g slot u (v / 64) then rd R.THE_EDGE_STATE s
  else decayed s (readDramN s (stateAddr g slot u v) 2) (readDramN s (stampAddr g slot u (v / 64)) 4) to_
/-- The state of a cell in a slot, decayed to now; outside the map THE_EDGE_STATE (R133, R146). -/
def cellNow (s : State) (slot : Nat) (u v : Int) : Nat :=
  let g := theGeom s
  if onMap g u v then
    cellAt s g slot u.toNat v.toNat (thermalTime s)
  else rd R.THE_EDGE_STATE s
/-- The state of a cell in the map j + 1 layers back; 0 where it is absent (R133, R140). -/
def prevNow (s : State) (j : Nat) (u v : Int) : Nat :=
  if j < rdf R.THE_CTRL 4 4 s ∧ bit j (rdf R.THE_STATUS 8 8 s) then cellNow s ((curSlot s + 17 - j) % 9) u v else 0
/-- Bed coordinates (R132). -/
def bedX0 (p : Pass) (s : State) : Int := (p.origin - (theGeom s).originScan) / (pitchOf s : Int)
def bedY (p : Pass) (c : Nat) (s : State) : Int :=
  let y0 := (p.stepover - (theGeom s).originStep) / ((theGeom s).stepPitch : Int)
  if rdb R.THE_CTRL 8 s then y0 - c else y0 + c
def cellU (p : Pass) (n : Nat) (s : State) : Int := (bedX0 p s + n) / 8
def cellV (p : Pass) (c : Nat) (s : State) : Int := bedY p c s / 8
/-- A key for a cell that may lie outside the map. -/
def cellKey (u v : Int) : Nat := (u + 2 ^ 40).toNat * 2 ^ 42 + (v + 2 ^ 40).toNat
/-- The context in force for a line of a pass (R105). -/
def contextAt (p : Pass) (n : Nat) : Nat := ((tagInForce 1 p.head.tags n).map (· % 256)).getD p.context
def contextBytes (s : State) (c : Nat) : List Byte := tget [] s.dose.bsc.contexts c
def scaleAt (p : Pass) (n : Nat) : Nat := ((tagInForce 3 p.head.tags n).map (· % 65536)).getD p.scale
/-- The lowest exposed stream line of cell row u in the pass (R144). -/
def lowestLine (p : Pass) (u : Int) (s : State) : Nat := max p.first (8 * u - bedX0 p s).toNat
/-- k of R147. -/
def cellSumK (p : Pass) (u v : Int) (s : State) : Int :=
  let x := contextBytes s (contextAt p (lowestLine p u s))
  let near := (List.range 25).foldl (fun (a : Int) i =>
    a + cxKernel x i * (cellNow s (curSlot s) (u + (i / 5 : Nat) - 2) (v + (i % 5 : Nat) - 2) : Nat)) 0
  (List.range (rdf R.THE_CTRL 4 4 s)).foldl (fun (a : Int) j => a + cxWeight x j * (prevNow s j u v : Nat)) near

/-- A THE counter that saturates posts EV_THE_SATURATE with cause 4 (R158). -/
def satThe (off : Nat) (s : State) : State :=
  postEvent 58 0 1 (passCookie s) [(0, 4, (layerNumber s : Nat)), (4, 1, 4), (8, 4, (off : Nat))] s
def bumpThe (r : RegInfo) (n : Nat) (s : State) : State := if n = 0 then s else bump r n (satThe (r.base - 0x110000)) s
/-- EV_THE_SATURATE the first time in the pass, or in the layer outside one (R158). -/
def saturate (cause : Nat) (u v : Int) (s : State) : State :=
  let post := fun (s : State) =>
    postEvent 58 0 1 (passCookie s) [(0, 4, (layerNumber s : Nat)), (4, 1, (cause : Nat)), (8, 4, u), (12, 4, v)] s
  match curPass s with
  | some p => if bit cause p.satPosted then s else post (modPass (fun q => { q with satPosted := setBit cause true q.satPosted }) s)
  | none =>
    match s.dose.layer with
    | none => s
    | some l => if bit cause l.satPosted then s
      else post { s with dose := { s.dose with layer := some { l with satPosted := setBit cause true l.satPosted } } }

/-- The index of a cell, formed once per pass (R147, R149). -/
def cellIndex (p : Pass) (u v : Int) (s : State) : State :=
  let key := cellKey u v
  match curPass s with
  | none => s
  | some q =>
    if (tget? q.cellIdx key).isSome then s
    else
      let x := contextBytes s (contextAt p (lowestLine p u s))
      let raw := sar (cellSumK p u v s) (cxKshift x)
      let s := modPass (fun q => { q with cellIdx := tset q.cellIdx key (clampI 0 1023 raw).toNat }) s
      let s := if raw > 1023 then saturate 3 u v (bumpThe R.THE_IDX_CLAMP 1 s) else s
      if onMap (theGeom s) u v then s else bumpThe R.THE_OUTSIDE 1 s

/-- A line is withheld by a THE residue fault at pixel column c (R150). -/
def residueLine (p : Pass) (n c : Nat) (s : State) : State :=
  let s := bumpThe R.THE_RESIDUE_FAULTS 1 s
  let s := postEvent 61 0xFF 2 p.cookie [(0, 4, (n : Nat)), (4, 1, 6), (5, 1, (contextAt p n : Nat)), (6, 2, (c : Nat)),
    (8, 4, (p.residueLines.length + 1 : Nat))] s
  let s := askHold (holdRule s 0 2) (p.bscFaults + p.residueLines.length + 1) s
  let s := oweWhole p n 6 s
  countMissed 1 (modPass (fun q =>
    { q with residueLines := n :: q.residueLines, entered := n :: q.entered, window := tset q.window n (List.replicate (geom s).columns 0) }) s)

/-- THE corrects every pixel of a line that enters the dose window (R127 to R150).  `dFault` is the column of a pixel whose
check fails, `kFaults` the columns of cells whose index check fails. -/
def enterLine (p : Pass) (n : Nat) (dFault : Option Nat) (kFaults : List Nat) (s : State) : State :=
  let g := geom s
  let x := contextBytes s (contextAt p n)
  let scale := scaleAt p n
  let tiles := tget [] p.released (n / 32)
  let dq := (List.range g.columns).map (fun c => intentDose x (pixelOf tiles (n % 32) c) scale)
  if !thermalOn s then
    match dFault with
    | some c => residueLine p n c s
    | none => modPass (fun q => { q with entered := n :: q.entered, window := tset q.window n dq }) s
  else
    let u := cellU p n s
    let vs := ((List.range g.columns).map (fun c => cellV p c s)).eraseDups
    let s := each vs (fun v s => cellIndex p u v s) s
    let s := modPass (fun q => { q with cellBad := q.cellBad ++ kFaults.map (fun c => cellKey u (cellV p c s)) }) s
    let q := (curPass s).getD p
    let badCol := (List.range g.columns).find? (fun c => q.cellBad.contains (cellKey u (cellV p c s)))
    match dFault, badCol with
    | some c, _ => residueLine p n c s
    | none, some c => residueLine p n c s
    | none, none =>
      let raws := (dq.zip (List.range g.columns)).map (fun dc => (correctedRaw x dc.1 (tget 0 q.cellIdx (cellKey u (cellV p dc.2 s))), dc))
      let doses := raws.map (fun r => if r.2.1 = 0 then 0 else (clampI 0 65535 r.1).toNat)
      let hit := raws.filter (fun r => r.2.1 != 0 && (decide (r.1 < 0) || decide (r.1 > 65535)))
      let s := match hit with
        | [] => s
        | r :: _ => saturate 2 u (cellV p r.2.2 s) (bumpThe R.THE_DOSE_CLAMP hit.length s)
      modPass (fun q => { q with entered := n :: q.entered, window := tset q.window n doses }) s

/-- The line 32 before n in pass order has come under the leading row, or n is among the first 32 (R127). -/
def mayEnter (g : Geometry) (p : Pass) (n : Nat) : Bool :=
  let i := if p.dir = 0 then n - p.first else lastLine p - n
  p.profileOn && (decide (i < 32) ||
    (match p.lastEvent with
     | none => false
     | some m => !eventBefore p m (leadEvent g p (if p.dir = 0 then n - 32 else n + 32))))
/-! ### Strip updates (R146, R151, R156) -/

/-- Writes a strip: each of its 64 states through `f`, decayed to `to_`, and the stamp (R135, R146). -/
def updateStrip (slot u strip to_ : Nat) (f : Nat → Nat → Nat) (s : State) : State :=
  let g := theGeom s
  let bytes := (List.range 64).flatMap (fun i => leBytes 2 (f (64 * strip + i) (cellAt s g slot u (64 * strip + i) to_)))
  writeDramN (stampAddr g slot u strip) 4 to_ (writeDram (stateAddr g slot u (64 * strip)) bytes s)
/-- T_c: the smallest whole unit not earlier than the thermal time, which counts whole ns (R136, R151). -/
def completionStamp (s : State) : Nat := ((thermalNs s + 2 ^ 20 - 1) / 2 ^ 20) % 2 ^ 32
/-- The strips of cell row u that the pass's columns touch. -/
def stripsOf (p : Pass) (g : Geometry) (s : State) : List Nat :=
  (((List.range g.columns).filterMap (fun c =>
    let v := cellV p c s
    if 0 ≤ v ∧ v < (theGeom s).v then some (v.toNat / 64) else none))).eraseDups
/-- One strip absorbs the emitted dose of the pass (R151); a residue fault discards the update (R150). -/
def absorbStrip (p : Pass) (u strip : Nat) (bad : Bool) (s : State) : State :=
  if bad then bumpThe R.THE_RESIDUE_FAULTS 1 s
  else
    let g := theGeom s
    let to_ := completionStamp s
    let slot := curSlot s
    let full := (List.range 64).filter (fun i =>
      cellAt s g slot u (64 * strip + i) to_ + tget 0 p.cellSum (cellKey u (64 * strip + i : Nat)) / 2 ^ 16 > 65535)
    let s := updateStrip slot u strip to_ (fun v e => min 65535 (e + tget 0 p.cellSum (cellKey u (v : Nat)) / 2 ^ 16)) s
    match full with
    | [] => s
    | i :: _ => saturate 1 u (64 * strip + i : Nat) (bumpThe R.THE_SAT_STATE full.length s)
/-- Line `n` of a pass has no crossing left: all have resolved, or after a cut no further frame of it is sent and every frame sent for
it has resolved (R153, R275). -/
def lineOver (g : Geometry) (p : Pass) (n : Nat) : Bool :=
  decide (tget 0 p.resolved n ≥ g.rowCount) || (p.cut.isSome && p.sendOver && p.frames.all (fun f => f.line != n))
/-- The cell row of a line is complete once every one of its lines in the pass has the verdict of its trailing row, or has no crossing
left: its strips absorb (R151, R153).  `bad` lists the strips, as (u, strip), whose residue checks fail. -/
def completeCells (u : Int) (bad : List (Nat × Nat)) (s : State) : State :=
  match curPass s with
  | none => s
  | some p =>
    if !thermalOn s || !(decide (0 ≤ u ∧ u < (theGeom s).u)) || p.stripsDone.contains u.toNat then s
    else
      let g := geom s
      let lines := (List.range 8).filterMap (fun (i : Nat) =>
        let l : Int := 8 * u + (i : Int) - bedX0 p s
        if 0 ≤ l ∧ inPass p l.toNat then some l.toNat else none)
      if lines.any (fun l => p.entered.contains l) && lines.all (fun l => p.trailDone.contains l || p.doneLines.contains l || lineOver g p l) then
        let s := modPass (fun q => { q with stripsDone := u.toNat :: q.stripsDone }) s
        each (stripsOf p g s) (fun st s => absorbStrip p u.toNat st (bad.contains (u.toNat, st)) s) s
      else s
/-- The emitted dose of a frame's beamlets with a code other than 0 adds to their cells (R151, R152). -/
def emitDose (p : Pass) (f : Frame) (codes doses : List Nat) (s : State) : State :=
  if !thermalOn s then s
  else
    let g := geom s
    let u := cellU p f.line s
    let a := cxAbsorb (contextBytes s f.context)
    let adds := (List.range g.beamlets).filterMap (fun b =>
      if codes.getD b 0 = 0 then none else some (cellKey u (cellV p (crossCol g f.row b) s), doses.getD b 0 * a))
    modPassOf p.index (fun q => { q with cellSum := adds.foldl (fun t e => tmod 0 t e.1 (· + e.2)) q.cellSum }) s

/-! ### Slot fill, enable and rotation (R138, R139) -/

/-- The slot fill ends: every state 0, every stamp the time at the fill; THE_INIT_TIME in µs (R138). -/
def fillSlot (s : State) : State :=
  match s.dose.the.filling with
  | none => s
  | some start =>
    let g := theGeom s
    let slot := curSlot s
    let stamp := start / 2 ^ 20 % 2 ^ 32
    let s := writeDram (g.base + slot * slotBytes g) (List.replicate (2 * g.u * g.v) 0) s
    let s := writeDram (stampAddr g slot 0 0) ((List.replicate (g.u * g.v / 64) (leBytes 4 stamp)).flatten) s
    let s := wr R.THE_INIT_TIME ((s.time.ns - start) / 1000) s
    showStates (modThe (fun t => { t with filling := none }) s)
/-- A fill of the current slot starts. -/
def startFill (s : State) : State := showStates (modThe (fun t => { t with filling := some s.time.ns, stopped := false }) s)
/-- The geometry checks of R159 on the registers. -/
def theGeomOk (s : State) : Bool :=
  let u := rd R.THE_MAP_U s
  let v := rd R.THE_MAP_V s
  let b := rd R.THE_MAP_BASE s
  decide (1 ≤ u) && v % 64 == 0 && decide (64 ≤ v ∧ v ≤ 65472) && b % 2 ^ 20 == 0 && decide (b + 9 * (u * v * 33 / 16) ≤ 2 ^ 38) &&
    rd R.THE_STEP_PITCH s != 0
/-- A write to THE_CTRL with enable 1 while it reads 0 (R139, R159), and any other write of it. -/
def writeTheCtrl (v : Nat) (s : State) : State :=
  let v := setBits 4 4 (min 8 (bits 4 4 v)) (v &&& 0x1F1)
  let was := rdb R.THE_CTRL 0 s
  if rdf R.THE_STATUS 0 2 s ≠ 0 then s
  else if bit 0 v && !was then
    if theGeomOk s then
      let s := wr R.THE_CTRL v s
      let s := modThe (fun t => { t with geom := { base := rd R.THE_MAP_BASE s, u := rd R.THE_MAP_U s, v := rd R.THE_MAP_V s, originScan := rdI R.THE_ORIGIN_SCAN s, originStep := rdI R.THE_ORIGIN_STEP s, stepPitch := rd R.THE_STEP_PITCH s } }) s
      startFill (wrf R.THE_STATUS 8 8 0 (wrf R.THE_STATUS 2 4 0 s))
    else wr R.THE_CTRL (setBit 0 false v) s
  else wr R.THE_CTRL v s
/-- THE_ENABLE: a write to THE_CTRL (R139). -/
def execTheEnable (value : Word32) (s : State) : Host.Outcome State Fault Refusal := .next (writeTheCtrl value.toNat s)

/-! ### Assimilation (R154 to R157) -/

/-- Reasons of EV_ASSIM_STALE as bits (R158). -/
def rsInWindow : Nat := 1
def rsBeforeStamp : Nat := 2
def rsTooOld : Nat := 4
def rsRotated : Nat := 8
def rsPartial : Nat := 16
def rsOutside : Nat := 32
def rsQueueFull : Nat := 64
def rsAlpha : Nat := 128
/-- THE has finished with a map: counts and EV_ASSIM_STALE (R157, R158). -/
def mapFinished (m : RespMap) (discarded applied reasons : Nat) (s : State) : State :=
  let s := camMapDone m.context m.buffer (bumpThe R.THE_STALE_CELLS discarded (bumpThe R.THE_ASSIM_CELLS applied s))
  if discarded = 0 ∧ reasons = 0 then s
  else postEvent 59 m.context 1 m.frame [(0, 4, (layerNumber s : Nat)), (4, 4, (discarded : Nat)), (8, 1, (reasons : Nat)),
    (10, 2, (m.generation : Nat)), (12, 4, (applied : Nat))] s
/-- Valid cells of a map. -/
def validCells (m : RespMap) : Nat := (m.cells.filter (·.isSome)).length
/-- THE_STATUS.assim_queue follows the queue. -/
def showAssim (s : State) : State := wrf R.THE_STATUS 16 5 s.dose.the.queue.length s
/-- A whole map is discarded for a reason (R154, R155). -/
def discardMap (m : RespMap) (reason : Nat) (s : State) : State := mapFinished m (validCells m) 0 reason s
/-- A response map is queued, or discarded whole where the queue is full (R154). -/
def queueMap (m : RespMap) (s : State) : State :=
  if s.dose.the.queue.length ≥ 16 then discardMap m rsQueueFull s
  else showAssim (modThe (fun t => { t with queue := t.queue ++ [m] }) s)
/-- The observations of a map by strip: (u, strip) with (v, response). -/
def mapCells (m : RespMap) : List (Int × Int × Nat) :=
  (m.cells.zip (List.range m.cells.length)).filterMap (fun ci =>
    ci.1.map (fun r => (m.u0 + (ci.2 / max 1 m.cols : Nat), m.v0 + (ci.2 % max 1 m.cols : Nat), r)))
/-- A line of a strip is in the dose window of the pass in execution (R156). -/
def stripInWindow (u strip : Nat) (s : State) : Bool :=
  match curPass s with
  | none => false
  | some p => p.window.any (fun e => cellU p e.1 s == (u : Int)) && (stripsOf p (geom s) s).contains strip
/-- THE takes the next map: it is enabled, no fill runs, and an open layer has THERMAL, without which the cell map is not updated.
Meanwhile maps wait (R130, R138; log entry 55). -/
def assimReady (s : State) : Bool :=
  s.dose.the.filling.isNone && rdb R.THE_CTRL 0 s && (s.dose.layer.isNone || thermalOn s)
/-- THE applies the oldest queued map (R155, R156).  `bad` lists the strips whose residue checks fail: their cells count neither as
applied nor as discarded (log entry 55). -/
def applyMap (bad : List (Nat × Nat)) (s : State) : State :=
  match s.dose.the.queue with
  | [] => s
  | m :: rest =>
    if !assimReady s then s
    else
      let s := showAssim (modThe (fun t => { t with queue := rest }) s)
      let cfg := rd R.THE_ASSIM_CFG s m.context
      let alpha := bits 0 8 cfg
      let age := rd R.THE_ASSIM_MAX_AGE s
      if alpha = 0 then discardMap m rsAlpha s
      else if m.partialFrame && !bit 8 cfg then discardMap m rsPartial s
      else if age ≠ 0 ∧ s.time.ns - m.captureNs > age * 1000 then discardMap m rsTooOld s
      else
        let g := theGeom s
        let c := m.captureNs / 2 ^ 20 % 2 ^ 32
        let cells := mapCells m
        let inside := (cells.filter (fun x => onMap g x.1 x.2.1)).map (fun x => (x.1.toNat, x.2.1.toNat, x.2.2))
        let outside := cells.length - inside.length
        let strips := (inside.map (fun x => (x.1, x.2.1 / 64))).eraseDups
        let slot := curSlot s
        let r := strips.foldl (fun (a : State × Nat × Nat × Nat) st =>
          let mine := inside.filter (fun x => x.1 == st.1 && x.2.1 / 64 == st.2)
          let s := a.1
          if stripInWindow st.1 st.2 s then (s, a.2.1 + mine.length, a.2.2.1, a.2.2.2 ||| rsInWindow)
          else if sdiff 32 c (readDramN s (stampAddr g slot st.1 st.2) 4) < 0 then
            (s, a.2.1 + mine.length, a.2.2.1, a.2.2.2 ||| rsBeforeStamp)
          else if bad.contains st then (bumpThe R.THE_RESIDUE_FAULTS 1 s, a.2.1, a.2.2.1, a.2.2.2)
          else
            (updateStrip slot st.1 st.2 c (fun v e =>
              match mine.find? (fun x => x.2.1 == v) with
              | none => e
              | some x => ((e : Int) + sar ((alpha : Int) * ((obsTab s x.2.2 : Int) - e)) 8).toNat) s,
             a.2.1, a.2.2.1 + mine.length, a.2.2.2)) (s, outside, 0, if outside = 0 then 0 else rsOutside)
        mapFinished m r.2.1 r.2.2.1 r.2.2.2 r.1
/-- Step 1 of the layer boundary while THE is enabled (R138 steps 1 to 3). -/
def rotateMaps (s : State) : State :=
  if !rdb R.THE_CTRL 0 s then s
  else
    let pv := (rdf R.THE_STATUS 8 8 s * 2 + b2n (thermalOn s)) % 256
    let s := wrf R.THE_STATUS 2 4 ((curSlot s + 1) % 9) (wrf R.THE_STATUS 8 8 pv s)
    startFill s
/-- Step 4 of R138: the queued maps that were captured before the boundary are discarded. -/
def discardOldMaps (start : Nat) (s : State) : State :=
  let old := s.dose.the.queue.filter (fun m => decide (m.captureNs < start))
  let s := showAssim (modThe (fun t => { t with queue := t.queue.filter (fun m => !decide (m.captureNs < start)) }) s)
  each old (fun m s => discardMap m rsRotated s) s

end Sys2Proof.Machine
end

