-- ==== Sys2Proof/Machine/PassEnd.lean ====
section
/-! DEFINITION. The end of a line and of a pass: a line's last crossing, the pass's completion with its result and events
(R114, R123, R153, R201, R215, R275 to R277, R287, R289), the entry into READY that waited for it (R24), and passes that are
abandoned. -/

namespace Sys2Proof.Machine

/-- Rows that the geometry gives a port (R186). -/
def rowsOn (g : Geometry) (p : Nat) : Nat := (g.rows.filter (fun e => e.port == p)).length
/-- f_cap of a port in Hz (R231); a free value where the geometry gives the port no row. -/
def rateCap (p : Nat) (preheat : Bool) (s : State) : Nat × State :=
  let g := geom s
  let rows := rowsOn g p
  if rows = 0 then (let (v, s) := fresh s; (v % 2 ^ 32, s))
  else
    let rate := if rdb R.LNK_RATE 0 s then 25781250000 else 53125000000
    let bits_ := (2 + g.beamlets * (if preheat then 20 else 12) / 256) * 258
    (38 * (portOf s p).lanesOut * rate / (41 * rows * bits_), s)
/-- LNK_RATE_CAP of a port that is ACTIVE, for the pass in execution (R231). -/
def showCap (p : Nat) (s : State) : State :=
  if lnkUp p s then (let (v, s) := rateCap p (((curPass s).map (·.preheat)).getD false) s; wr R.LNK_RATE_CAP v s p) else s
/-- LNK_RATE_CAP of the ports in use. -/
def showCaps (s : State) : State := each (portsInUse s) showCap s
/-- A pass by its ring index. -/
def passOf (i : Nat) (s : State) : Option Pass := s.dose.passes.find? (fun p => p.index == i)
/-- Removes a pass, and with it the contexts it holds in use (R112). -/
def dropPass (i : Nat) (s : State) : State :=
  { s with dose := { s.dose with passes := s.dose.passes.filter (fun p => p.index != i) } }
/-- BSC_STATUS.state, MND_STATUS.state and DPI_STATUS follow the passes (R126, R193, R292).  BSC_STATUS.state shows RUN from the start
of execution on: the split checks of state 1 PLAN are part of that one step (log entry 56). -/
def showPass (s : State) : State :=
  let s := match curPass s with
    | some p => wrf R.MND_STATUS 0 2 (if p.mend then 2 else 1) (wrf R.BSC_STATUS 0 2 2 s)
    | none =>
      let s := wrb R.BSC_STATUS 5 false (wrf R.MND_STATUS 0 2 0 (wrf R.BSC_STATUS 0 2 0 s))
      wrf R.DPI_STATUS 0 2 (if s.dose.passes.isEmpty then 0 else 1) s
  let s := match shownPass s with
    | none => s
    | some p => wrf R.DPI_STATUS 16 16 p.swath (wrf R.DPI_STATUS 8 8 p.head.rc (wrf R.DPI_STATUS 2 2 (p.dir + 2 * p.source) s))
  showCaps (updateLead (intakeFetch s))

/-- The last crossing of line `n` has resolved: its owed remainder is logged (R275). -/
def lineDone (p : Pass) (n : Nat) (s : State) : State :=
  logLine p n (modPassOf p.index (fun q => { q with doneLines := n :: q.doneLines }) s)
/-- What follows the crossings of some lines: those that are over are logged, and their cells may be complete (R151, R275). -/
def linesDone (lines : List Nat) (bad : List (Nat × Nat)) (s : State) : State :=
  each lines (fun n s =>
    match curPass s with
    | none => s
    | some p =>
      let s := if lineOver (geom s) p n && !p.doneLines.contains n then lineDone p n s else s
      completeCells (cellU p n s) bad s) s

/-- A run of late frames on a port ends (R215). -/
def endLate (p : Pass) (port : Nat) (s : State) : State :=
  match tget? p.late port with
  | none => s
  | some r =>
    postEvent 66 port 1 p.cookie [(0, 4, (r.line : Nat)), (4, 1, (r.kind : Nat)), (5, 1, (r.row : Nat)), (6, 2, (p.number : Nat)),
      (12, 4, (r.count : Nat))] (modPassOf p.index (fun q => { q with late := terase q.late port }) s)
/-- A run of BLANKED frames of a port ends (R262). -/
def endBlank (port : Nat) (s : State) : State :=
  match (portOf s port).blankRun with
  | none => s
  | some r =>
    postEvent (83 + 8 * port) port 1 0 [(0, 1, (r.kind : Nat)), (1, 1, (r.row : Nat)), (2, 4, (r.line : Nat)), (6, 2, (min r.count 65535 : Nat)),
      (8, 4, (r.extra : Nat)), (12, 1, (r.blame : Nat)), (13, 1, (r.flags : Nat))] (modPort port (fun x => { x with blankRun := none }) s)
/-- A run of ack timeouts of a port ends (R262). -/
def endTimeouts (port : Nat) (s : State) : State :=
  match (portOf s port).timeoutRun with
  | none => s
  | some r =>
    postEvent (86 + 8 * port) port 1 0 [(0, 1, (r.kind : Nat)), (1, 1, (r.row : Nat)), (2, 4, (r.line : Nat)), (6, 2, (min r.count 65535 : Nat)),
      (8, 4, (r.extra : Nat))] (modPort port (fun x => { x with timeoutRun := none }) s)
/-- The cell rows that the pass's window has touched. -/
def enteredRows (p : Pass) (s : State) : List Int := (p.entered.map (fun n => cellU p n s)).eraseDups
/-- The result of a pass (R114, R287): what bytes 16 to 19 and 24 to 27 say. -/
def passResult (p : Pass) : Nat × Nat :=
  if p.mend then (p.firedLines.eraseDups.length, p.closed)
  else ((p.sentLines.eraseDups.filter (fun n => !p.missed.contains n && !p.residueLines.contains n)).length, p.failed.length)
/-- Lines missed in a pass (R101, R114). -/
def missedCount (p : Pass) : Nat := p.missed.length + p.residueLines.length

/-- The LAYER rings are rewound to the first descriptor read and not completed; passes not completed are given up, and with
them the contexts they hold (R24).  A descriptor on which its ring is FAULTED stays until the resume (R80, R81). -/
def rewindLayer (s : State) : State :=
  let s := each (List.range 32) (fun k s =>
    if ringType s k = tyLayer ∧ ringState s k ≠ 0 then
      match (ringInt s k).jobs with
      | [] => s
      | j :: _ =>
        let kept := if ringState s k = 3 then (ringInt s k).jobs.filter (fun a => a.index == (ringInt s k).faultIndex) else []
        freeChan k (leavePage k (modRing k (fun r => { r with jobs := kept.map (fun a => { a with xfer := none }),
                                                              next := (j.index + kept.length) % 2 ^ 32 }) s))
    else s) s
  let s := modMnd (fun m => { m with slates := [], owed := [] }) s
  showSlates (showPass { s with dose := { s.dose with passes := [], boundary := none } })
/-- A pass that READY abandons leaves what it owes: the entries that a MEND_PASS had closed are logged again, since nothing of them
was delivered (R24, R286; log entry 23). -/
def relogAbandoned (s : State) : State :=
  match curPass s with
  | none => s
  | some p =>
    if !p.abandoned || p.owedSet = [] then s
    else
      sealNewest (each p.owedSet (fun e s =>
        logFrames p { first := e.first, count := e.count, rows := e.rows, blocks := e.blocks, cause := 11, flags := e.flags % 16, cutEvent := e.cutEvent, frames := e.frames } s) s)
/-- READY is entered at an OP_SET_MODE(READY) from BUILD (R24). -/
def enterReady (q : ModeRequest) (s : State) : State :=
  let s := rewindLayer (relogAbandoned s)
  let s := changeMode 3 0 false (modCtl (fun c => { c with request := none }) s)
  finish q.ring q.index stOk 0 s

/-- EV_SWATH_DONE (R113, R555). -/
def postSwathDone (p : Pass) (added : Nat) (s : State) : State :=
  let n := (p.sentLines.eraseDups.filter (fun n => !p.missed.contains n && !p.residueLines.contains n)).length
  postEvent 49 0 (if missedCount p = 0 ∧ added = 0 then 0 else 1) p.cookie
    [(0, 4, (p.layer : Nat)), (4, 2, (p.swath : Nat)), (6, 2, (p.number : Nat)), (8, 4, (n : Nat)), (12, 4, (added : Nat))] s
/-- The pass is over: what is left is logged, its runs and summaries are reported, its descriptor completes with `status`, and
what waited for its end follows (R24, R26, R114, R123, R201, R215, R275, R277, R287, R289). -/
def finishPass (status : Nat) (bad : List (Nat × Nat)) (s : State) : State :=
  match curPass s with
  | none => s
  | some p0 =>
    let s := each (openLines s) (logLine p0) s
    let s := each (enteredRows p0 s) (fun u s => completeCells u bad s) s
    let s := endMissRun (sealNewest s)
    let s := each [0, 1, 2, 3] (fun k s => endTimeouts k (endBlank k (endLate p0 k s))) s
    let p := (passOf p0.index s).getD p0
    let s := if p.reversals ≠ 0 ∧ rdb R.PLC_CTRL 4 s then
        postEvent 64 0 0 p.cookie [(0, 4, (p.reversals : Nat)), (4, 4, (p.deepest : Nat)), (8, 2, (p.number : Nat)), (10, 1, (p.dir : Nat)),
          (11, 1, 1), (12, 4, (p.deepestEvent : Nat))] s else s
    let s := if p.madeUp = 0 ∧ p.replaced = 0 then s
      else
        postEvent 69 0 0 p.cookie [(0, 4, (p.layer : Nat)), (4, 2, (p.number : Nat)), (6, 1, 1), (8, 4, (p.madeUp : Nat)),
          (12, 2, (min p.replaced 65535 : Nat)), (14, 2, (min p.carriedToLog 65535 : Nat))] s
    let s := if p.mend then
        postEvent 70 0 (if p.added = 0 then 0 else 1) p.cookie [(0, 4, (p.layer : Nat)), (4, 2, (p.number : Nat)), (8, 4, (p.closed : Nat)),
          (12, 4, (p.added : Nat))] s else s
    let c := s.dose.plc
    let s := if p.profileOn ∧ (c.passScale < 0x8000 ∨ c.passDwell ≠ 0) ∧ !external s then bump R.PLC_THROTTLED 1 (satPlc 0x80) s else s
    let s := wrb R.PLC_STATUS 4 false (showPass (dropPass p.index s))
    let r := passResult p
    let s := complete p.ring p.index { status := (p.ending.map (·.1)).getD status, reason := (p.ending.map (·.2)).getD 0, result := r.1 + 2 ^ 32 * missedCount p + 2 ^ 64 * r.2 + 2 ^ 96 * p.added } s
    let s := postSwathDone p p.added s
    let s := swathBoundary s
    let s := if missedCount p ≠ 0 ∧ missedCount p ≥ rd R.DPI_MISS_HOLD s then holdCause 10 s else s
    let s := turnNext (if s.dose.mnd.overflow.isSome then holdCause 11 s else s)
    match s.ctl.request with
    | some q => if q.target = 3 ∧ modeOf s = 4 then enterReady q s else s
    | none => s
/-- The pass in execution completes once its last line has been fired or blanked; a pass that was cut, once no further frame of it is
sent, everything sent has resolved and AX0 rests (R114, R278).  One that READY abandons does not complete (R24). -/
def tryComplete (bad : List (Nat × Nat)) (s : State) : State :=
  match curPass s with
  | none => s
  | some p =>
    if p.abandoned then s
    else if p.cut.isSome && p.sendOver then
      let s := linesDone ((p.entered ++ openLines s).filter (fun n => !p.doneLines.contains n)) bad s
      if p.frames.isEmpty && (external s || atRest 0 s) then finishPass stOk bad s else s
    else if p.cut.isNone && decide (p.doneLines.length ≥ p.count) then finishPass stOk bad s
    else s
/-- Lines whose last crossing has resolved outside a verdict are dealt with, and the pass may be over (R114, R214, R275). -/
def settlePass (bad : List (Nat × Nat)) (s : State) : State :=
  match curPass s with
  | none => s
  | some p =>
    tryComplete bad (linesDone ((p.resolved.filter (fun e => decide (e.2 ≥ (geom s).rowCount) && !p.doneLines.contains e.1)).map (·.1)) bad s)

end Sys2Proof.Machine
end

