-- ==== Sys2Proof/Machine/Reset.lean ====
section
/-! DEFINITION. Resets: what a reset of a level returns (R13, R20, R170, R279, R449, R453), a source that asserts with the episode
and the fault record (R444, R449, R451, R454, R455), and the release sequence (R450, R451, R456). -/

namespace Sys2Proof.Machine

/-- A register's level lies within the reach of a reset of level `lvl` (R13). -/
def levelHit (lvl : Nat) (l : Level) : Bool :=
  match l with
  | .l0 => lvl == 0
  | .l1 => decide (lvl ≤ 1)
  | .l2 => decide (lvl ≤ 2)
  | .backup => false
/-- Every register within the reach of a reset takes its reset value (R13). -/
def resetRegs (lvl : Nat) (s : State) : State :=
  { s with regs := s.regs.filter (fun e => !(R.all.any (fun r => regCovers r e.1 && levelHit lvl r.level))) }
/-- Registers whose fields keep their values through a reset of their row's level: (register, mask, level): MEMC_CTRL.map_lock
and the migration in MEMC_STATUS (R371, R387), the banks in BSC_STATUS at L2 (R170), the backup bits of HSV_STATUS (R521). -/
def keptFields : List (RegInfo × Nat × Nat) :=
  [(R.MEMC_CTRL, 0x1, 1), (R.MEMC_STATUS, 0xF000, 1), (R.BSC_STATUS, 0x1C, 2), (R.HSV_STATUS, 0x68, 0), (R.HSV_STATUS, 0x68, 1)]
/-- The registers of a reset, less the fields that keep their values. -/
def resetRegsKeep (lvl : Nat) (s : State) : State :=
  let keep := keptFields.filter (fun k => k.2.2 == lvl)
  each keep (fun k t => wr k.1 (rd k.1 t ||| (rd k.1 s &&& k.2.1)) t) (resetRegs lvl s)

/-! ### What a reset returns -/

/-- Strips that the pass has entered and that have not completed (R153). -/
def openStrips (p : Pass) (s : State) : Nat :=
  let rows := (enteredRows p s).filter (fun (u : Int) => decide (0 ≤ u ∧ u < (theGeom s).u) && !p.stripsDone.contains u.toNat)
  rows.length * (stripsOf p (geom s) s).length
/-- The descriptors of the LAYER rings that were read ahead are given up and read again; the interrupted one stays until its
lines are logged (R30, R279). -/
def keepInterrupted (s : State) : State :=
  each (List.range 32) (fun k s =>
    if ringType s k ≠ tyLayer then s
    else
      let keep : Job → Bool := fun j =>
        (s.dose.passes.any (fun p => p.ring == k && p.index == j.index && p.executing)) || s.dose.boundary == some (k, j.index)
      match (ringInt s k).jobs.find? (fun j => !keep j && j.cpl.isNone) with
      | none => s
      | some j => freeChan k (leavePage k (modRing k (fun r => { r with jobs := r.jobs.filter keep, next := j.index }) s))) s
/-- A frame that may have fired when its port's clock stops: its tick is past, or within 1 µs of the stop (R261). -/
def unresolvedAtReset (f : Frame) (s : State) : Bool :=
  f.sent.isSome && !f.blank && decide (sdiff 32 (fireTick f) (tickOf f.port s) ≤ (if rdb R.LNK_RATE 0 s then 805 else 1660))
/-- The ports at a reset that reaches them: LINK_DOWN with cause RESET where one was up, and the frames that cannot have fired count as
BLANKED (R261, R262). -/
def portsAtReset (s : State) : State :=
  each [0, 1, 2, 3] (fun p s =>
    let late := (outstandingOn p s).filter (fun f => !unresolvedAtReset f s)
    let s := if late = [] then s else bump R.LNK_FRAMES_BLANKED late.length (satLnk p 0x58) s p
    if lnkUp p s || (portOf s p).retrain.isSome then postDown p 8 0xFF s else s) s
/-- The dose path at an L2 reset: passes, placement, ports and slates are lost; the interrupted pass is remembered for R279; layer,
banks, tables, geometry, contexts, maps, THE's queue and the mend log are kept, and so are the throttle sources but for slow ports
(R153, R170, R191, R222, R279).  A slot fill stops (R153).  What each port's stop means for it and its frames, `portsAtReset` says. -/
def doseAtL2 (s : State) : State :=
  let s := match curPass s with
    | none => s
    | some p =>
      let n := if thermalOn s then openStrips p s else 0
      modMnd (fun m => { m with resetPass := some { p with frames := p.frames.filter (fun f => unresolvedAtReset f s) } }) (bumpThe R.THE_ABANDONED n s)
  let s := portsAtReset s
  let s := keepInterrupted s
  let s := modMnd (fun m => { m with slates := [], owed := [] }) s
  let s := modBsc (fun b => { b with newT := none, newV := none }) s
  let s := showAssim (modThe (fun t => { t with stopped := t.filling.isSome, queue := [] }) s)
  let c := s.dose.plc
  { s with dose := { s.dose with passes := [], plc := { scales := c.scales.filter (fun e => decide (e.1 < 48)), dwells := c.dwells }, ports := [] } }
/-- The state of an axis at a reset of the motion block: what its switch inputs read stays (R319). -/
def axisAtReset (x : Axis) : Axis :=
  { sw := x.sw.map (fun e => (e.1, { e.2 with bad := 0, good := 0, edges := 0 })) }
/-- The supply supervisor at a reset that restarts E: it runs from AUX and keeps what it knows of the mains, and a dip goes on unless the
reset takes its registers with it (R435, R440, R463; log entry 32). -/
def supplyAtReset (lvl : Nat) (s : State) : State :=
  let s := modPwr (fun p => { p with lastPeak := 0, runPeak := 0, wdogHalf := false, lossCut := p.lost, dipCut := p.dip.isSome }) s
  if lvl = 0 then wrb R.PWR_STATUS 0 (!s.pwr.lost) (modPwr (fun p => { p with dip := none, holdDone := false }) s) else s
/-- Every block within the reach of a reset of level `lvl` takes its reset state (R13, R449).  Levels: 0 L0, 1 L1, 2 L2. -/
def resetBlocks (lvl : Nat) (s : State) : State :=
  let s := doseAtL2 (thmAtReset lvl (camAtReset lvl s))
  let s := { s with mot := s.mot.map (fun e => (e.1, axisAtReset e.2)) }
  let s := resetRegsKeep lvl s
  if lvl = 2 then
    let c := combined s
    let s := wrf R.THE_STATUS 0 2 0 (wr R.PLC_EFF_DWELL c.2 (wrf R.PLC_STATUS 16 16 c.1 s))
    releaseSteps <| showOpen (wrb R.MND_STATUS 2 s.dose.mnd.overflow.isSome (enterSelfRefresh 2 s))
  else
    let m := s.mem
    let s := { s with
      host := { busMaster := s.host.busMaster && lvl != 0, linkUp := s.host.linkUp, aerUncorrectable := s.host.aerUncorrectable, aerCorrectable := s.host.aerCorrectable }
      evt := {}
      time := {}
      dose := {}
      arb := {}
      heldLow := []
      latchedHigh := []
      thm := {}
      head := { s.head with running := [], challenge := [], headId := none }
      mem := if lvl = 0 then {} else { dram := m.dram, poison := m.poison, injected := m.injected, migration := m.migration.map (fun x => { x with start := 0 }), srReason := 2 }
      ctl := { s.ctl with request := none, debug := none, envBad := [], trips := [], holdWanted := false, schedNs := [], lockWrite := s.ctl.lockWrite && lvl != 0, homing := [], calItems := [], holdRules := [], schedules := [],
                           pin := {}, estopOpen := [0, 1], estopReset := false, estopDisc := false, estopNs := 0, estopStill := some 0,
                           motionHold := true, permit := false, coolant := false } }
    supplyAtReset lvl (if lvl = 0 then s else wrf R.MEMC_STATUS 0 3 4 s)

/-! ### Assertion -/

/-- The state that the fuses give a pin in reset: 0 inactive, 1 High-Z, 2 active, with the values that a group treats as 0 (R460). -/
def resetDrive (g : PinGroup) (i : Nat) (s : State) : Drive :=
  let two := fun (v : Nat) => if v = 1 then Drive.highZ else if v = 2 then .active else .inactive
  let one := fun (v : Nat) => if v = 1 then Drive.highZ else .inactive
  match g with
  | .beamEnable => one (rdf R.FUS_PIN_MAP 0 2 s 0)
  | .relay => .inactive
  | .ready => one (rdf R.FUS_PIN_MAP 4 2 s 0)
  | .beamActive => one (rdf R.FUS_PIN_MAP 6 2 s 0)
  | .fault => two (rdf R.FUS_PIN_MAP 8 2 s 0)
  | .pps => one (rdf R.FUS_PIN_MAP 10 2 s 0)
  | .motionEnable => two (rdf R.FUS_PIN_MAP (2 * i) 2 s 1)
  | .motionLink => one (rdf R.FUS_PIN_MAP (2 * i + 12) 2 s 1)
  | .generalOut => two (rdf R.FUS_PIN_MAP (2 * i) 2 s 2)
  | .trigger => one (rdf R.FUS_PIN_MAP (2 * i + 16) 2 s 2)
/-- The pins that a reset reaches, with their number: the ports, the motion block and the cameras at every level, the rest at L0 and L1
(R449, R450). -/
def pinsReached (lvl : Nat) : List (PinGroup × Nat) :=
  [(.beamEnable, 4), (.relay, 1), (.motionEnable, 6), (.motionLink, 6), (.trigger, 4)] ++
    (if lvl = 2 then [] else [(.ready, 1), (.beamActive, 1), (.fault, 1), (.pps, 1), (.generalOut, 8)])
/-- Every pin in the reach of a reset takes its reset state (R449, R460). -/
def pinsAtReset (lvl : Nat) (s : State) : State :=
  each (pinsReached lvl) (fun e s => each (List.range e.2) (fun i s => emit (.pinReset e.1 i (resetDrive e.1 i s)) s) s) s

/-- Writes bytes of the fault record (R455): word registers of 4 bytes. -/
def recordWord (i v : Nat) (s : State) : State := wr R.RST_FAULT_REC v s i
/-- The fault record at an episode's first assertion (R455). -/
def writeRecord (s : State) : State :=
  let tt := ttNow s
  let s := recordWord 1 (tt / 2 ^ 32) (recordWord 0 (tt % 2 ^ 32) s)
  let s := recordWord 3 (rd R.CTL_HOLD_CAUSE s) (recordWord 2 (modeOf s * 2 ^ 24 + 2 * 2 ^ 16) s)
  let s := recordWord 5 (rdf R.PWR_BULK 0 16 s + 2 ^ 16 * rdf R.THM_RESULT 0 16 s) (recordWord 4 (rd R.PWR_STATUS s) s)
  let rail := match s.pwr.rail with
    | none => 0xFF
    | some r => r.1 + 2 ^ 8 * r.2.1
  let s := recordWord 7 (rd R.RST_TOTAL s) (recordWord 6 rail s)
  each (List.range 8) (fun i s => recordWord (8 + i) (rd R.RST_FW_NOTE s i) s) s
/-- Mask and widest level in the fault record follow the episode (R455). -/
def updateRecord (s : State) : State :=
  let v := rd R.RST_FAULT_REC s 2
  recordWord 2 (setBits 0 16 s.pwr.mask (setBits 16 8 s.pwr.widest v)) s
/-- A reset source asserts (R449, R451, R454): it opens or joins an episode, is counted once in it, and stops every block in its
reach.  A release under way that does not reach further is abandoned. -/
def assertSource (k : Nat) (s : State) : State :=
  if s.pwr.asserted.contains k ∨ k > 9 then s
  else
    let lvl := reachOf k s
    let s := if s.pwr.episode then s
      else
        let s := wr R.RST_TOTAL (rd R.RST_TOTAL s + 1) s
        let s := modPwr (fun p => { p with episode := true, mask := 0, widest := lvl, firstTt := ttNow s }) s
        writeRecord (modCtl (fun c => { c with modeAtReset := modeOf s }) s)
    let s := if bit k s.pwr.mask then s
      else
        let lo := 16 * (k % 2)
        wrf R.RST_SRC_COUNT lo 16 (min 65535 (rdf R.RST_SRC_COUNT lo 16 s (k / 2) + 1)) s (k / 2)
    let s := modPwr (fun p => { p with asserted := k :: p.asserted, mask := setBit k true p.mask, widest := min p.widest lvl }) s
    let s := updateRecord s
    let s := updateBeam 5 s
    let cut := decide (lvl = 0) && rdf R.FUS_STATUS 0 2 s == 0 && s.pwr.step == 2
    let s := match s.pwr.due with
      | some d => if lvl ≤ d then modPwr (fun p => { p with due := some lvl, step := 0 }) s else s
      | none => modPwr (fun p => { p with due := some lvl, step := 0 }) s
    let s := if cut then modPwr (fun p => { p with fuseCut := true }) s else s
    let s := if lvl ≤ 1 then modCtl (fun c => { c with takenOver := false }) s else s
    let s := pinsAtReset lvl (updateEnables (resetBlocks lvl s))
    wrb R.RST_STATUS 5 (s.pwr.step != 0) s

/-! ### Release (R450, R451) -/

def modHead (f : HeadState → HeadState) (s : State) : State := { s with head := f s.head }
/-- Authentication starts: a fresh challenge goes to the chip (R512). -/
def startAuth (s : State) : State :=
  let (v, s) := fresh s
  emit (.challenge 1 (v % 2 ^ 256)) (wrf R.HSV_STATUS 0 2 1 (modHead (fun h => { h with challenge := leBytes 32 v }) s))

/-- The pulses of frames that an L2 reset left unresolved, where the CUT entry at event m does not cover them: logged as TIMEOUT, with what
they carried (R261, R268, R276). -/
def logUnresolved (p : Pass) (m : Nat) (s : State) : State :=
  let g := geom s
  let owe : Nat → Nat → Nat → List Owed := fun n r b =>
    if b != 0 && eventBefore p (n + offOf g r) m then [{ row := r, blocks := b, cause := 7, flags := flUncertain }] else []
  each ((p.frames.map (·.line)).eraseDups) (fun n s =>
    let os := (p.frames.filter (fun f => f.line == n)).flatMap (fun f =>
      let c := match f.replace with | some x => x.carried | none => f.carried
      owe n f.row (ownBlocks g p n f.row) ++
        c.flatMap (fun e => (onesOf 16 e.2).flatMap (fun k => owe n (rowOf g k (rowAt g f.row).stagger) (2 ^ e.1))))
    each (setsOf n os) (logFrames p) s) s
/-- What R279 logs of the pass that an L2 reset interrupted, and the completion of its descriptor: the lines that had entered the window
and were not over, then those that had not entered it and had not been logged, each as one entry where they are neighbours (log
entry 23). -/
def logInterrupted (s : State) : State :=
  match s.dose.mnd.resetPass with
  | none => s
  | some p =>
    let g := geom s
    let all := 2 ^ g.rowCount - 1
    let s := { s with dose := { s.dose with passes := [{ p with frames := [], window := [], entered := [], missed := [], residueLines := [],
                                                                 cut := some (0, 13), sendOver := true }] } }
    let left := ((List.range p.count).map (· + p.first)).filter (fun n => !p.doneLines.contains n)
    let m := p.lastEvent.getD (firstEvent g p)
    let s := logUnresolved p m s
    let s := each (lineRuns (left.filter p.entered.contains)) (fun a s =>
      logFrames p { first := a.1, count := a.2, rows := all, blocks := allBlocks g, cause := 13, flags := flCut + flUncertain, cutEvent := m,
                    frames := cutFrames g p m a.1 a.2 all } s) s
    let s := each (lineRuns (left.filter (fun n => !p.entered.contains n))) (fun a s =>
      logFrames p { first := a.1, count := a.2, rows := all, blocks := allBlocks g, cause := 13, frames := a.2 * g.rowCount } s) s
    finishPass stOk [] (modPassOf p.index (fun q => { q with missed := p.missed, residueLines := p.residueLines })
      (modMnd (fun m => { m with resetPass := none }) s))
/-- Ports leave OFF where they are enabled (R239, R450 step 8). -/
def releasePorts (s : State) : State :=
  each [0, 1, 2, 3] (fun p s => if rdb R.LNK_CTRL 0 s p then wrf R.LNK_STATUS 0 4 1 s p else s) s
/-- One step of a release at level `lvl`. -/
def releaseStep (lvl n : Nat) (s : State) : State :=
  let inp := s.pwr.input
  match n with
  | 2 => wrf R.FUS_STATUS 0 4 0 s
  | 4 =>
    let s := if lvl = 2 then s
      else
        let old := if bit 0 s.pwr.mask then 0 else s.ctl.modeAtReset
        let s := modCtl (fun c => { c with takenOver := true }) (wrf R.CTL_MODE 0 3 old s)
        let s := changeMode 2 3 true s
        let s := if inp.relayClosed then bezelTrip 5 0xFF 1 0 0 s else s
        let s := startAuth s
        wrf R.CTL_LOADER 0 3 (if rdf R.FUS_STATUS 0 2 s = 0 then 0 else 1) s
    let s := updateEnables s
    each inp.linkBad (fun e s => if e.1 < 6 then motionLinkFault e.1 e.2 s else s) s
  | 6 =>
    if lvl = 2 then (if modeOf s = 1 then modMem (fun m => { m with srReason := 1 }) s else leaveSelfRefresh s)
    else
      let s := match inp.eccFail with
        | none => wrb R.ECC_STATUS 0 true s
        | some e =>
          let s := postEvent 186 e.1 3 0 [(0, 1, (e.2.1 : Nat)), (1, 1, (e.2.2.1 : Nat)), (2, 1, (e.2.2.2 : Nat))] (wrb R.ECC_STATUS 0 false s)
          holdCause 13 s
      startTraining (lvl == 0) s
  | 7 => if s.dose.the.filling.isSome then startFill s else showStates s
  | 8 => if modeOf s = 1 then s else showCam (camPower (releasePorts s))
  | _ => s
/-- Severity of EV_RESET_RECORD (R461). -/
def recordSeverity (mask : Nat) : Nat :=
  if bit 1 mask || bit 5 mask || bit 9 mask then 2 else if mask % 2 ^ 16 = 2 ^ 0 ∨ mask = 2 ^ 7 then 0 else 1
/-- The release is complete (R454, R456, R461, R517). -/
def releaseDone (lvl : Nat) (s : State) : State :=
  let p := s.pwr
  let s := wr R.RST_STATUS (lvl + 16 * b2n p.backupLost) s
  let s := wr R.RST_LAST (p.mask + 2 ^ 16 * p.widest) s
  let s := modPwr (fun p => { p with episode := false, due := none, step := 0, rail := none, wdogExpired := none }) s
  let s := postEvent 21 0 (recordSeverity p.mask) 0 [(0, 2, (p.mask : Nat)), (2, 1, (p.widest : Nat)), (3, 1, (b2n p.backupLost : Nat)),
    (4, 4, (rd R.RST_TOTAL s : Nat)), (8, 8, (p.firstTt : Nat))] s
  let s := match p.rail with
    | none => s
    | some r => postEvent 20 r.1 2 0 [(0, 1, (r.1 : Nat)), (1, 1, (r.2.1 : Nat)), (2, 2, (r.2.2 : Nat))] s
  let s := match p.wdogExpired with
    | none => s
    | some t => postEvent 231 0 2 0 [(0, 1, 2), (4, 4, (t : Nat))] s
  let s := wr R.PWR_BACKUP (p.input.cellMv % 65536) s
  let s := if p.input.cellMv < rd R.PWR_BACKUP_LOW s then postEvent 23 0 1 0 [(0, 2, (p.input.cellMv : Nat)), (2, 1, 1)] s else s
  let s := if p.backupLost && bit 0 p.mask then postEvent 23 0 1 0 [(0, 2, (p.input.cellMv : Nat)), (2, 1, 2)] s else s
  let s := if lvl = 2 then holdCause 14 (logInterrupted s) else s
  let s := if bit 6 p.mask then tripGone (fun t => decide (t.1 ≤ 3)) s else s
  bringupCheck (updateBeam 5 s)
/-- The release sequence at `lvl` runs its steps from `n` on, as far as nothing holds it: it waits at a step that an asserted
source covers, at step 2 for the fuse load, and at step 6 for training (R450, R451, R457). -/
def runRelease (lvl : Nat) : List Nat → State → State
  | [], s => releaseDone lvl s
  | n :: r, s =>
    let s := wrf R.RST_STATUS 8 4 n (wrb R.RST_STATUS 5 true (modPwr (fun p => { p with step := n }) s))
    if stepHeld n s then s
    else
      let s := releaseStep lvl n s
      if (n = 2 ∧ rdf R.FUS_STATUS 0 2 s = 0) ∨ (n = 6 ∧ !s.mem.training.isEmpty) then s
      else runRelease lvl r s
/-- The steps of a level after step `n`. -/
def stepsAfter (lvl n : Nat) : List Nat := (stepsOf lvl).filter (fun m => decide (m > n))
/-- What a release waited for has come: it goes on after the step it stands at (R450). -/
def continueRelease (s : State) : State :=
  match s.pwr.due with
  | none => s
  | some lvl => if s.pwr.step = 0 then s else runRelease lvl (stepsAfter lvl s.pwr.step) s
/-- Sources release: the sequence of the widest reach starts once no source of that reach is asserted; a sequence that waited at
a step for a narrower source goes on (R450, R451). -/
def releaseSources (mask : Nat) (inp : ReleaseIn) (s : State) : State :=
  let s := modPwr (fun p => { p with asserted := p.asserted.filter (fun k => !bit k mask), input := inp }) s
  match s.pwr.due with
  | none => s
  | some lvl =>
    if s.pwr.railsOff || s.pwr.asserted.any (fun k => decide (reachOf k s ≤ lvl)) then s
    else if s.pwr.step = 0 then runRelease lvl (stepsOf lvl) s
    else if (s.pwr.step = 2 ∧ rdf R.FUS_STATUS 0 2 s = 0) ∨ (s.pwr.step = 6 ∧ !s.mem.training.isEmpty) then s
    else runRelease lvl (s.pwr.step :: stepsAfter lvl s.pwr.step) s

end Sys2Proof.Machine
end

