-- ==== Sys2Proof/Machine/Head.lean ====
section
/-! DEFINITION. Head services (R510 to R516): authentication of the head's identity chip and the usage counters. -/

namespace Sys2Proof.Machine

/-- A saturating HSV counter posts EV_HEAD_BUS_ERROR with cause 5 (R517). -/
def bumpHsv (r : RegInfo) (s : State) : State :=
  bump r 1 (postEvent 244 0 1 0 [(0, 1, 5), (4, 4, ((r.base - 0x1C0000 : Nat) : Nat))]) s
/-- The largest value of a usage counter. -/
def useMax : Nat := 2 ^ 64 - 1
/-- HSV_USAGE and the backup bits of HSV_STATUS follow the sets (R521). -/
def showUsage (s : State) : State :=
  let h := s.head
  let s := wrb R.HSV_STATUS 6 (!h.orphan.isEmpty) (wrb R.HSV_STATUS 5 h.pending.isSome s)
  each (List.range 64) (fun g s => wr R.HSV_USAGE (min useMax (tget 0 h.delta g + tget 0 h.inflight g)) s g) s
/-- Counts join a set, each sum saturating: the new set, and the groups that saturated. -/
def joinUse (to_ from_ : Table Nat) : Table Nat × List Nat :=
  from_.foldl (fun a e =>
    let v := tget 0 a.1 e.1 + e.2
    (tset a.1 e.1 (min useMax v), if v ≥ useMax then a.2 ++ [e.1] else a.2)) (to_, [])
/-- EV_USAGE_SATURATE for groups not yet reported: 1 delta, 2 head, 3 orphan (R514). -/
def reportSat (where_ : Nat) (groups seen : List Nat) (s : State) : State :=
  each (groups.filter (fun g => !seen.contains g)) (fun g s => postEvent 243 0 1 0 [(0, 1, (g : Nat)), (1, 1, (where_ : Nat))] s) s
/-- The running sums merge into the delta set (R514). -/
def mergeUsage (s : State) : State :=
  let (d, sat) := joinUse s.head.delta s.head.running
  let s := reportSat 1 sat s.head.satDelta s
  showUsage (modHead (fun h => { h with delta := d, running := [], satDelta := (h.satDelta ++ sat).eraseDups }) s)
/-- USAGE_MERGE (R514). -/
def execUsageMerge (s : State) : Host.Outcome State Fault Refusal := .next (mergeUsage s)
/-- A frame resolved FIRED adds code + 2p of each beamlet to its usage group (R514). -/
def fireUsage (adds : List (Nat × Nat)) (s : State) : State :=
  modHead (fun h => { h with running := adds.foldl (fun t e => if e.2 = 0 then t else tmod 0 t (e.1 % 64) (· + e.2)) h.running }) s

/-- A usage copy checks (R510): its sequence and counters. -/
def usageCopy (c : Option (List Byte)) : Option (Nat × (Nat → Nat)) :=
  match c with
  | none => none
  | some bs => if bs.length = 528 ∧ crc32c (bs.take 520) = bytesAt bs 520 4 then some (bytesAt bs 0 4, fun g => bytesAt bs (8 + 8 * g) 8) else none
/-- Sum of all groups of a set. -/
def useSum (t : Table Nat) : Nat := t.foldl (fun n e => n + e.2) 0
/-- EV_USAGE_FLUSH (R515, R517). -/
def postFlush (outcome trigger seq ns : Nat) (s : State) : State :=
  postEvent 242 0 (if outcome ≥ 2 then 1 else 0) 0
    [(0, 1, (outcome : Nat)), (1, 1, (trigger : Nat)), (4, 4, (seq : Nat)), (8, 8, (min ns useMax : Nat))] (bumpHsv R.HSV_FLUSHES s)
/-- A usage flush (R515).  With no chip, or one that is not authenticated, nothing is written (R516; log entry 62).  Where neither copy on the head checks, the sequence and the totals it starts from are free values
(log entry 3). -/
def usageFlush (trigger : Nat) (u : UsageIn) (s : State) : State :=
  let s := mergeUsage s
  if !rdb R.HSV_STATUS 2 s || rdf R.HSV_STATUS 0 2 s != 2 then postFlush 3 trigger 0 0 s
  else
    let a := usageCopy u.copyA
    let b := usageCopy u.copyB
    let free := Config.freeNat s.freeCtr
    let freeAt : Nat → Nat := fun g => Config.freeNat (s.freeCtr + 1 + g) % 2 ^ 64
    let none_ := a.isNone && b.isNone
    let s := if none_ then { s with freeCtr := s.freeCtr + 65 } else s
    let aNewer := match a, b with
      | some x, some y => decide (sdiff 32 x.1 y.1 ≥ 0)
      | some _, none => true
      | _, _ => false
    let (seq, total) := match (if aNewer then a else b) with
      | some x => x
      | none => (free % 2 ^ 32, freeAt)
    let reconciled := s.head.pending.isSome
    let s := match s.head.pending with
      | none => s
      | some p =>
        if p = seq then modHead (fun h => { h with inflight := [], pending := none }) s
        else
          let (d, sat) := joinUse s.head.delta s.head.inflight
          reportSat 1 sat s.head.satDelta (modHead (fun h => { h with delta := d, inflight := [], pending := none, satDelta := (h.satDelta ++ sat).eraseDups }) s)
    let next := (seq + 1) % 2 ^ 32
    let s := modHead (fun h => { h with inflight := h.delta, delta := [], pending := some next }) s
    let flight := s.head.inflight
    let full := (flight.filter (fun e => total e.1 + e.2 ≥ useMax)).map (fun e => e.1)
    let s := reportSat 2 full s.head.satHead (modHead (fun h => { h with satHead := (h.satHead ++ full).eraseDups }) s)
    let s := emit (.usageWrite ((List.range 64).map (fun g => (g, min useMax (total g + tget 0 flight g)))) next) s
    if u.verify then
      let s := showUsage (modHead (fun h => { h with inflight := [], pending := none }) s)
      postFlush (if reconciled then 1 else 0) trigger next (useSum flight) s
    else
      let s := postEvent 244 0 1 0 [(0, 1, 3), (2, 2, ((if aNewer then 0x1400 else 0x1000 : Nat) : Nat))] (bumpHsv R.HSV_BUS_ERRORS (showUsage s))
      postFlush 2 trigger next (useSum flight) s
/-- HSV_FLUSH: a write of 1 to HSV_CTRL.flush (R515). -/
def doHsvFlush (u : UsageIn) (s : State) : State :=
  let m := modeOf s
  if m = 3 ∨ m = 6 ∨ m = 7 then usageFlush 5 u s else s
/-- HSV_FLUSH (R515). -/
def execHsvFlush (usage : UsageIn) (s : State) : Host.Outcome State Fault Refusal := .next (doHsvFlush usage s)
def doHsvUsageDiscard (value : Nat) (s : State) : State :=
  if value % 256 = 0xA5 then showUsage (modHead (fun h => { h with orphan := [], mixed := false, orphanSerial := 0, satOrphan := [] }) s) else s
/-- HSV_USAGE_DISCARD (R516). -/
def execHsvUsageDiscard (value : Word32) (s : State) : Host.Outcome State Fault Refusal := .next (doHsvUsageDiscard value.toNat s)
/-- Counts of another head's serial move into the orphan set (R516). -/
def orphanUsage (s : State) : State :=
  let h := s.head
  if h.delta = [] ∧ h.inflight = [] then modHead (fun h => { h with pending := none }) s
  else
    let (a, sat1) := joinUse h.orphan h.delta
    let (b, sat2) := joinUse a h.inflight
    let s := reportSat 3 (sat1 ++ sat2).eraseDups h.satOrphan s
    modHead (fun h => { h with
      orphan := b, delta := [], inflight := [], pending := none, satDelta := []
      satOrphan := (h.satOrphan ++ sat1 ++ sat2).eraseDups
      mixed := h.mixed || (h.orphan != [] && h.orphanSerial != h.serial)
      orphanSerial := if h.orphan = [] then h.serial else h.orphanSerial }) s
/-- The 544-byte entries of READ_LOG log 4 (R516): 0 the current set, 1 the orphan set. -/
def usageEntry (k : Nat) (s : State) : List Byte :=
  let h := s.head
  if k = 0 then
    let fl := 1 + 2 * b2n (rdb R.HSV_STATUS 3 s) + 8 * b2n (!h.satDelta.isEmpty) + 16 * b2n h.pending.isSome
    leBytes 16 h.serial ++ leBytes 4 (h.pending.getD 0) ++ leBytes 4 fl ++ leBytes 8 0 ++
      (List.range 64).flatMap (fun g => leBytes 8 (min useMax (tget 0 h.delta g + tget 0 h.inflight g)))
  else
    let fl := b2n (!h.orphan.isEmpty) + 4 * b2n h.mixed + 8 * b2n (!h.satOrphan.isEmpty)
    leBytes 16 h.orphanSerial ++ leBytes 4 0 ++ leBytes 4 fl ++ leBytes 8 0 ++ (List.range 64).flatMap (fun g => leBytes 8 (tget 0 h.orphan g))

/-! ### Authentication (R511 to R513) -/

/-- The bytes of an SHA-384 digest, first byte first. -/
def sha384Bytes (bs : List Byte) : List Byte := (leBytes 48 (Config.sha384 bs).toNat).reverse
/-- The fused hash of key slot 0, 1 or 2 (R523), first byte first. -/
def fuseKey (slot : Nat) (s : State) : List Byte :=
  let r := if slot = 0 then R.FUS_KEY0 else if slot = 1 then R.FUS_KEY1 else R.FUS_KEY2
  (List.range 12).flatMap (fun i => leBytes 4 (rd r s i))
/-- The fuses are valid (R458, R524). -/
def fusesValid (s : State) : Bool := rdf R.FUS_STATUS 0 2 s == 1
/-- A key slot is programmed and not revoked (R500, R512, R523). -/
def slotUsable (slot : Nat) (s : State) : Bool :=
  decide (slot ≤ 2) && fusesValid s && (fuseKey slot s).any (· != 0) && !(slot == 1 && rdb R.FUS_FLAGS 3 s) && !(slot == 2 && rdb R.FUS_FLAGS 4 s)
/-- HEAD_REAUTH (R512). -/
def execHeadReauth (s : State) : Host.Outcome State Fault Refusal := .next (if modeOf s < 2 then s else startAuth s)
/-- HSV_STATUS.geom_match: BSC_GEOM_ID equals the head_id last authenticated (R512). -/
def showMatch (s : State) : State :=
  let id := (List.range 4).foldl (fun n i => n + rd R.BSC_GEOM_ID s i * 2 ^ (32 * i)) 0
  wrb R.HSV_STATUS 4 (rdf R.HSV_STATUS 0 2 s == 2 && s.head.headId == some id) s
/-- No head is authenticated: the cause is shown, and no issuer (R512, R521). -/
def authFailed (cause : Nat) (s : State) : State := showMatch (wr R.HSV_ISSUER 0xFF (wrf R.HSV_STATUS 8 8 cause (wrf R.HSV_STATUS 0 2 3 s)))
/-- The cause of the first check of R512 that fails, 0 for none. -/
def authCause (h : HeadIn) (s : State) : Nat :=
  let id := h.identity
  let c := h.certificate
  if !h.chip then 1
  else if h.timeout then 8
  else if bytesAt id 0 4 ≠ 0x43444948 ∨ crc32c (id.take 28) ≠ bytesAt id 28 4 then 2
  else if bytesAt c 0 4 ≠ 0x54524348 ∨ bytesAt c 4 1 ≠ 1 ∨ bytesAt c 6 2 ≠ 0 ∨ bytesAt c 5 1 > 2 ∨ !zeroBytes c 296 24 ∨ (c.drop 8).take 16 ≠ (id.drop 12).take 16 then 3
  else if !slotUsable (bytesAt c 5 1) s ∨ sha384Bytes ((c.drop 104).take 96) ≠ fuseKey (bytesAt c 5 1) s then 4
  else if !Config.ecdsaP384 ((c.drop 104).take 96) (Config.sha384 (c.take 200)) ((c.drop 200).take 96) then 5
  else if !Config.ecdsaP256 ((c.drop 40).take 64) (s.head.challenge ++ (id.drop 12).take 16) h.signature then 6
  else if crc32c (h.geometry.take 2240) ≠ h.geomCrc ∨ (h.geometry.drop 16).take 16 ≠ (c.drop 24).take 16 then 7
  else 0
/-- Authentication ends (R512, R515, R516). -/
def doHeadAuthComplete (h : HeadIn) (u : UsageIn) (s : State) : State :=
  if rdf R.HSV_STATUS 0 2 s ≠ 1 then s
  else
    let serial := bytesAt h.identity 12 16
    let s := wrb R.HSV_STATUS 2 h.chip s
    let cause := authCause h s
    if cause ≠ 0 then
      let s := authFailed cause s
      let s := if cause = 8 then postEvent 244 0 1 0 [(0, 1, 2)] (bumpHsv R.HSV_BUS_ERRORS s) else s
      holdCause 12 (postEvent 241 0 2 cause [(0, 16, ((if cause = 1 ∨ cause = 8 then 0 else serial : Nat) : Nat))] s)
    else
      let c := h.certificate
      let s := wrb R.HSV_STATUS 3 false (wrf R.HSV_STATUS 0 2 2 s)
      let s := each (List.range 4) (fun i s => wr R.HSV_SERIAL (bytesAt h.identity (12 + 4 * i) 4) s i) s
      let s := wr R.HSV_ISSUER (bytesAt c 5 1) (wr R.HSV_BEAMLETS (bytesAt h.identity 8 4) (wr R.HSV_LINKS (bytesAt h.identity 5 1 % 8) s))
      let s := each (List.range 560) (fun i s => wr R.HSV_GEOM (bytesAt h.geometry (4 * i) 4) s i) s
      let s := if s.head.serial = serial then s else orphanUsage (mergeUsage s)
      let s := showUsage (modHead (fun x => { x with serial := serial, headId := some (bytesAt c 24 16) }) s)
      let s := postEvent 240 0 0 (bytesAt c 5 1) [(0, 16, (serial : Nat))] (showMatch s)
      usageFlush 4 u s
/-- HEAD_AUTH_COMPLETE (R512). -/
def execHeadAuthComplete (head : HeadIn) (usage : UsageIn) (s : State) : Host.Outcome State Fault Refusal := .next (doHeadAuthComplete head usage s)
/-- The identity serial is read again: none where the chip is absent (R513). -/
def doHeadIdentityPoll (serial : Option Nat) (s : State) : State :=
  let was := rdb R.HSV_STATUS 2 s
  let st := rdf R.HSV_STATUS 0 2 s
  let s := wrb R.HSV_STATUS 2 serial.isSome s
  if st = 2 ∧ serial ≠ some s.head.serial then
    let s := authFailed 9 s
    let s := holdCause 12 (postEvent 241 0 2 9 [(0, 16, (serial.getD 0 : Nat))] s)
    if serial.isSome then startAuth s else s
  else if !was && serial.isSome && st != 1 then startAuth s
  else s
/-- HEAD_IDENTITY_POLL (R513). -/
def execHeadIdentityPoll (serial : Option Nat) (s : State) : Host.Outcome State Fault Refusal := .next (doHeadIdentityPoll serial s)
/-- The head is authenticated, or the fuse makes that optional (R25, R26). -/
def headOk (s : State) : Bool := rdf R.HSV_STATUS 0 2 s == 2 || rdb R.FUS_FLAGS 0 s

end Sys2Proof.Machine
end

