-- ==== Sys2Proof/Machine/CamMath.lean ====
section
/-! DEFINITION. The camera pipeline as arithmetic on one frame (R337 to R341), without state: parameter page, black level and
defects, noise reduction, demosaic, colour and tone, registration. -/

namespace Sys2Proof.Machine

/-- A byte of a parameter page kept by 32-bit words. -/
def pageByte (t : Table Nat) (o : Nat) : Nat := bits (8 * (o % 4)) 8 (tget 0 t (o / 4))
/-- A field of a parameter page (R337). -/
def pageN (t : Table Nat) : (off len : Nat) → Nat
  | _, 0 => 0
  | off, n + 1 => pageByte t off + 256 * pageN t (off + 1) n
def pageI (t : Table Nat) (off len : Nat) : Int := sext (8 * len) (pageN t off len)
def pageFlag (t : Table Nat) (n : Nat) : Bool := bit n (pageN t 0x12 2)
def pageMono (t : Table Nat) : Bool := pageFlag t 2
/-- Bits per sample of a data type (R324). -/
def rawBits (dt : Nat) : Nat := if dt = 0x2A then 8 else if dt = 0x2B then 10 else if dt = 0x2C then 12 else if dt = 0x2D then 14 else 16
def rawType (dt : Nat) : Bool := decide (0x2A ≤ dt ∧ dt ≤ 0x2E)
/-- The colour of a pixel: 0 red, 1 green, 2 blue; mono has one colour (R337, cfa_phase). -/
def colourAt (t : Table Nat) (x y : Nat) : Nat :=
  if pageMono t then 0
  else
    let k := x % 2 + 2 * (y % 2)
    let rows : List (List Nat) := [[0, 1, 1, 2], [1, 0, 2, 1], [1, 2, 0, 1], [2, 1, 1, 0]]
    (rows.getD (bits 3 2 (pageN t 0x12 2)) []).getD k 1
/-- A coordinate replicated at the border (R338). -/
def clampXY (n : Nat) (x : Int) : Nat := if x < 0 then 0 else if x ≥ n then n - 1 else x.toNat

/-- Stage 2 on a line: alignment, black level, then the defects, each from the nearest same-colour pixels of its line, one of
them where the line ends on the other side (R338). -/
def stageBlack (t : Table Nat) (n y : Nat) (defects : List (Nat × Nat)) (samples : List Nat) : List Nat :=
  let v := (samples.zip (List.range samples.length)).map (fun (sx : Nat × Nat) =>
    sx.1 * 2 ^ (16 - n) % 65536 - pageN t (2 * (sx.2 % 2 + 2 * (y % 2))) 2)
  let d := if pageMono t then 1 else 2
  let w := v.length
  (v.zip (List.range w)).map (fun (sx : Nat × Nat) =>
    let x := sx.2
    if !defects.contains (x, y) then sx.1
    else
      let l : Option Nat := if x < d then none else v[x - d]?
      let r : Option Nat := v[x + d]?
      match l, r with
      | some a, some b => (a + b) / 2
      | some a, none => a
      | none, some b => b
      | none, none => sx.1)
/-- A pixel of a plane of valid lines; a pixel of a line that is not valid is a free value. -/
def planeAt (lines : Table (List Nat)) (free : Nat → Nat → Nat) (x y : Nat) : Nat :=
  match tget? lines y with
  | some l => l.getD x 0
  | none => free x y % 65536
/-- Stage 3a at a pixel (R338). -/
def stageSpatial (t : Table Nat) (w h : Nat) (lines : Table (List Nat)) (free : Nat → Nat → Nat) (x y : Nat) : Nat :=
  let v0 := planeAt lines free x y
  if !pageFlag t 0 then v0
  else
    let offs : List Int := [-2, -1, 0, 1, 2]
    let col := colourAt t x y
    let shift := pageN t 0x14 1
    let sums := offs.foldl (fun (a : Nat × Nat) dy => offs.foldl (fun (a : Nat × Nat) dx =>
      let cx := clampXY w (x + dx)
      let cy := clampXY h (y + dy)
      if colourAt t cx cy ≠ col then a
      else
        let v := planeAt lines free cx cy
        let cls := [0, 1, 2, 4, 5, 8].findIdx (fun k => (k : Int) == dx * dx + dy * dy)
        let diff := ((v : Int) - v0).natAbs / 2 ^ shift
        let wt := pageN t (0x18 + cls) 1 * pageN t (0x20 + min 15 diff) 1
        (a.1 + wt * v, a.2 + wt)) a) (0, 0)
    if sums.2 = 0 then v0 else sums.1 / sums.2
/-- Stage 3b at a pixel with a valid reference (R338). -/
def stageTemporal (t : Table Nat) (inp ref : Nat) : Nat :=
  let k := pageN t (0x30 + min 15 (((inp : Int) - ref).natAbs / 2 ^ pageN t 0x15 1)) 1
  ((ref : Int) + sar ((k : Int) * ((inp : Int) - ref)) 8).toNat % 65536
/-- The value and the gradient of a pair of neighbours of one colour; one alone stands for both. -/
def pairOf (a b : Option Nat) : Option (Nat × Nat) :=
  match a, b with
  | some a, some b => some (a + b, ((a : Int) - b).natAbs)
  | some a, none => some (2 * a, 0)
  | none, some b => some (2 * b, 0)
  | none, none => none
/-- Stage 4: colour `c` at a pixel (R338).  A missing colour comes from the direction of the smaller gradient; where neither
direction has that colour the spec names no value, and it is a free one. -/
def stageDemosaic (t : Table Nat) (w h : Nat) (lines : Table (List Nat)) (free miss : Nat → Nat → Nat) (c x y : Nat) : Nat :=
  if pageMono t ∨ colourAt t x y = c then planeAt lines free x y
  else
    let at_ : Int → Int → Option Nat := fun dx dy =>
      let x' : Int := x + dx
      let y' : Int := y + dy
      if 0 ≤ x' ∧ x' < w ∧ 0 ≤ y' ∧ y' < h ∧ colourAt t x'.toNat y'.toNat = c then some (planeAt lines free x'.toNat y'.toNat) else none
    match pairOf (at_ (-1) 0) (at_ 1 0), pairOf (at_ 0 (-1)) (at_ 0 1) with
    | some p, some q => if p.2 < q.2 then p.1 / 2 else if q.2 < p.2 then q.1 / 2 else (p.1 + q.1) / 4
    | some p, none => p.1 / 2
    | none, some q => q.1 / 2
    | none, none => miss x y % 65536
/-- Stage 5: R, G, B and Y of a pixel from its three colours; a mono pixel gives its value to all of them (R338). -/
def stageColour (t : Table Nat) (r g b : Nat) : Nat × Nat × Nat × Nat :=
  let ch : Nat → Nat := fun i =>
    let f : Nat → Int := fun k => pageI t (0x40 + 2 * (3 * i + k)) 2
    let c := clampI 0 65535 (sar (f 0 * r + f 1 * g + f 2 * b) 12 + pageI t (0x52 + 2 * i) 2)
    pageN t (0x300 + 2 * (c.toNat / 64)) 2 % 1024
  let tr := ch 0
  if pageMono t then (tr, tr, tr, tr)
  else
    let tg := ch 1
    let tb := ch 2
    (tr, tg, tb, (pageN t 0x58 2 * tr + pageN t 0x5A 2 * tg + pageN t 0x5C 2 * tb) / 65536)
/-- Registration of a pixel without its carriage offset: bed pixel coordinates, none where W ≤ 0 (R341). -/
def registerPixel (t : Table Nat) (x y : Nat) : Option (Int × Int) :=
  let cx : Int := pageN t 0x60 2
  let cy : Int := pageN t 0x62 2
  let dx : Int := x - cx
  let dy : Int := y - cy
  let i := min 255 ((dx * dx + dy * dy).toNat / 2 ^ pageN t 0x16 1)
  let l : Int := pageN t (0x100 + 2 * i) 2
  let xu := 16 * cx + sar (16 * dx * l) 14
  let yu := 16 * cy + sar (16 * dy * l) 14
  let h : Nat → Int := fun k => pageI t (0x64 + 4 * k) 4
  let bx := h 0 * xu + h 1 * yu + 16 * h 2
  let by_ := h 3 * xu + h 4 * yu + 16 * h 5
  let bw := h 6 * xu + h 7 * yu + 16 * h 8
  if bw ≤ 0 then none else some (bx / bw, by_ / bw)

end Sys2Proof.Machine
end

