-- ==== Sys2Proof/Machine/Cam.lean ====
section
/-! DEFINITION. The camera commands (R324 to R351). -/

namespace Sys2Proof.Machine

/-- The next `n` free values as a function of an index below `n` (log entry 3). -/
def freshMany (n : Nat) (s : State) : (Nat → Nat) × State :=
  let b := s.freeCtr
  (fun i => Config.freeNat (b + i), { s with freeCtr := b + n })
/-- Changes the frame of context `c` with number `n`. -/
def modFrameOf (c n : Nat) (f : CamFrame → CamFrame) (s : State) : State :=
  modCam (fun m => { m with frames := m.frames.map (fun x => if x.context = c ∧ x.number = n then f x else x) }) s
def findFrame (c n : Nat) (s : State) : Option CamFrame := s.cam.frames.find? (fun f => f.context == c && f.number == n)
/-- Flag bits of a capture header, less PARTIAL (R345). -/
def frameFlags (f : CamFrame) : Nat :=
  b2n f.isShort + 2 * b2n f.isLong + 4 * b2n (f.overrun != 0) + 8 * b2n f.doubt + 32 * b2n f.refReset + 64 * b2n f.triggered
/-- Capture TT of a line (R340). -/
def lineTt (f : CamFrame) (y : Nat) : Nat := (f.t0Tt + y * pageN f.page 0x94 4 * 65536) % 2 ^ 64
/-- E of a line's capture, in 2^-32 ns (R340). -/
def lineE (f : CamFrame) (y : Nat) : Int := f.t0 + (y * pageN f.page 0x94 4 * 2 ^ 32 : Nat)
/-- Capture TT of a frame (R340). -/
def captureTt (f : CamFrame) : Nat := lineTt f (f.firstValid.getD 0)

/-! ### Registration of a line (R341) -/

/-- The position of AX0 or AX1 at E, between the samples that bracket it (R341). -/
def axAt (a : Nat) (e : Int) (s : State) : Int :=
  let l := tget [] s.cam.samples a
  let later := l.takeWhile (fun p => decide (e < p.1))
  let earlier := l.dropWhile (fun p => decide (e < p.1))
  match earlier.head?, later.getLast? with
  | some p, some q => p.2 + ((pdiff q.2 p.2 * (e - p.1)) / (q.1 - p.1))
  | some p, none => p.2
  | none, some q => q.2
  | none, none => measPos a s
/-- A sample follows every valid line of a carriage-mounted frame (R341). -/
def positionsKnown (f : CamFrame) (s : State) : Bool :=
  !f.carriage || f.lines.all (fun (e : Nat × List Nat) =>
    [0, 1].all (fun a => (tget [] s.cam.samples a).any (fun p => decide (lineE f e.1 < p.1))))
/-- The cell of a pixel (R341). -/
def pixelCell (f : CamFrame) (x y : Nat) (s : State) : Option (Int × Int) :=
  (registerPixel f.page x y).map (fun b =>
    let b := if !f.carriage then b
      else
        let e := lineE f y
        let bx := b.1 + (axAt 0 e s - (theGeom s).originScan) / (pitchOf s : Int)
        let by0 := (axAt 1 e s - (theGeom s).originStep) / ((theGeom s).stepPitch : Int)
        (bx, if rdb R.THE_CTRL 1 s then by0 - b.2 else by0 + b.2)
    (b.1 / 8, b.2 / 8))

/-! ### The end of processing: maps, statistics, uploads (R342 to R346) -/

/-- What a frame's pixels give: per cell sum, count and maximum; histograms by 256 × channel + bin; 10-bit Y by line. -/
structure FrameSum where
  cells : Table (Nat × Nat × Nat) := []
  hist : Table Nat := []
  ys : Table (List Nat) := []
  peakY : Nat := 0
  deriving DecidableEq, Repr

/-- Stages 3b on every valid line, with the reference read and rewritten (R338, R339). -/
def temporalLines (f : CamFrame) (planes : Table (List Nat)) (s : State) : Table (List Nat) × State :=
  let c := f.context
  if !pageFlag f.page 1 then (planes, s)
  else
    let base := rd R.CAM_CTX_REF_BASE s c
    let wasValid := rdb R.CAM_CTX_STATUS 2 s c
    let r := planes.foldl (fun (a : Table (List Nat) × Bool × State) (e : Nat × List Nat) =>
      let (acc, dead, s) := a
      let y := e.1
      let addr := base + 2 * f.width * y
      if dead then (tset acc y e.2, dead, s)
      else
        let usable := wasValid && !(camCtx s c).refBad.contains y
        let (bad, s) := if usable then checkedRead addr (2 * f.width) rqCam s else (false, s)
        if bad then (tset acc y e.2, true, camRefReset c 5 s)
        else
          let out := if usable then (e.2.zip (List.range e.2.length)).map (fun (vx : Nat × Nat) => stageTemporal f.page vx.1 (readDramN s (addr + 2 * vx.2) 2)) else e.2
          (tset acc y out, false, memWrite addr (out.flatMap (leBytes 2)) rqCam s)) (([] : Table (List Nat)), false, s)
    if r.2.1 then (r.1, r.2.2)
    else
      let s := wrb R.CAM_CTX_STATUS 2 true r.2.2 c
      (r.1, modCtx c (fun x => { x with
        refBad := (if wasValid then x.refBad else List.range f.height).filter (fun y => (tget? planes y).isNone) }) s)
/-- Stages 4 to 7 on every valid line (R338, R342, R343). -/
def sumFrame (f : CamFrame) (planes : Table (List Nat)) (free miss : Nat → Nat → Nat) (s : State) : FrameSum :=
  let t := f.page
  let chan := bits 8 2 (pageN t 0x12 2)
  planes.foldl (fun (a : FrameSum) (e : Nat × List Nat) =>
    let y := e.1
    let px := (List.range f.width).map (fun x =>
      let d := fun c => stageDemosaic t f.width f.height planes free miss c x y
      (x, if pageMono t then stageColour t (d 0) (d 0) (d 0) else stageColour t (d 0) (d 1) (d 2)))
    let a := { a with ys := tset a.ys y (px.map (fun p => p.2.2.2.2)) }
    px.foldl (fun (a : FrameSum) p =>
      let (r, g, b, yy) := p.2
      let v := if chan = 0 then yy else if chan = 1 then r else if chan = 2 then g else b
      let hist := [yy, r, g, b].zip [0, 1, 2, 3] |>.foldl (fun h (vk : Nat × Nat) => tmod 0 h (256 * vk.2 + vk.1 / 4) (· + 1)) a.hist
      let cells := match pixelCell f p.1 y s with
        | none => a.cells
        | some (u, v') => tmod (0, 0, 0) a.cells (cellKey u v') (fun k => (k.1 + v, k.2.1 + 1, max k.2.2 v))
      { a with hist, cells, peakY := max a.peakY yy }) a) {}
/-- The cell of a key, and the bounding box (u0, v0, cells along u, cells along v) of cells (R342). -/
def keyCell (k : Nat) : Int × Int := ((k / 2 ^ 42 : Nat) - 2 ^ 40, (k % 2 ^ 42 : Nat) - 2 ^ 40)
def cellBox (l : List (Int × Int)) : Int × Int × Nat × Nat :=
  match l with
  | [] => (0, 0, 0, 0)
  | c :: r =>
    let u0 := r.foldl (fun m x => min m x.1) c.1
    let u1 := r.foldl (fun m x => max m x.1) c.1
    let v0 := r.foldl (fun m x => min m x.2) c.2
    let v1 := r.foldl (fun m x => max m x.2) c.2
    (u0, v0, (u1 - u0 + 1).toNat, (v1 - v0 + 1).toNat)
/-- The 64-byte capture header (R345). -/
def capHeader (kind : Nat) (f : CamFrame) (flags following : Nat) (tail : List (Nat × Nat × Int)) : List Byte :=
  leBytes 64 (layout (([(0, 4, (kind : Nat)), (4, 1, (f.context : Nat)), (5, 1, (f.port : Nat)), (6, 1, (f.vc : Nat)), (7, 1, (flags : Nat)),
    (8, 4, (f.number : Nat)), (12, 2, (f.gen : Nat)), (16, 8, (captureTt f : Nat)), (24, 8, (f.startTt : Nat)), (32, 2, (f.width : Nat)),
    (34, 2, (f.height : Nat)), (36, 2, (f.validCount : Nat)), (40, 4, (f.extra : Nat)), (44, 4, (following : Nat))] : List (Nat × Nat × Int)) ++ tail))
def kindMap : Nat := 0x50414D43
def kindStats : Nat := 0x41545343
def kindFrame : Nat := 0x4D524643
/-- CFRM records of a frame's valid lines: runs of adjoining lines of at most 64 KiB of pixels (R345, R346). -/
def frameRecords (f : CamFrame) (flags : Nat) : Nat → Table (List Nat) → List (List Byte)
  | 0, _ => []
  | _, [] => []
  | fuel + 1, (y, l) :: rest =>
    let most := 32768 / f.width
    let run := ((List.range rest.length).zip rest).takeWhile (fun (ie : Nat × Nat × List Nat) => ie.2.1 == y + 1 + ie.1 && decide (ie.1 + 1 < most))
    let ls := l :: run.map (fun ie => ie.2.2)
    let pix := ls.flatMap (fun l => l.flatMap (fun v => leBytes 2 (v % 1024)))
    (capHeader kindFrame f flags pix.length [(48, 4, (y : Nat)), (52, 4, (ls.length : Nat))] ++ pix) :: frameRecords f flags fuel (rest.drop run.length)
/-- A buffer of a context is held while THE uses its map, and for host software (R344). -/
def holdBuffer (f : CamFrame) (i : Nat) (the : Bool) (s : State) : State :=
  showCtx f.context (modCtx f.context (fun x => { x with
    heldThe := if the then x.heldThe else x.heldThe.filter (· != i)
    heldHost := if pageFlag f.page 7 then i :: x.heldHost.filter (· != i) else x.heldHost }) s)
/-- A frame that has ended, and whose lines are all through the pipeline, gives its map, its statistics and its uploads.  Where the
write of either meets an uncorrectable line, the frame is treated as DOUBT (R366). -/
def finishFrame (f : CamFrame) (s : State) : State :=
  let c := f.context
  let s := modCam (fun m => { m with frames := m.frames.filter (fun x => !(x.context == c && x.number == f.number)) }) s
  let n := f.width * f.height
  let (fr, s) := freshMany (3 * n) s
  let at_ : Nat → Nat → Nat → Nat := fun k x y => fr (k * n + y * f.width + x)
  let spatial := f.lines.map (fun (e : Nat × List Nat) => (e.1, (List.range f.width).map (fun x => stageSpatial f.page f.width f.height f.lines (at_ 0) x e.1)))
  let (planes, s) := temporalLines f spatial s
  let r := sumFrame f planes (at_ 1) (at_ 2) s
  let flags := frameFlags f
  let every := pageN f.page 0x9A 2
  let s := if every ≠ 0 ∧ f.number % every = 0 then each (frameRecords f flags r.ys.length r.ys) (uploadRecord stFrames) s else s
  match f.buffer with
  | none => s
  | some i =>
    let cells := r.cells.map (fun (e : Nat × Nat × Nat × Nat) => (keyCell e.1, e.2))
    let (u0, v0, nu, nv) := cellBox (cells.map (·.1))
    let small := decide (nu ≤ 4096 ∧ nv ≤ 4096 ∧ nu * nv ≤ 1048576)
    let addr := rd R.CAM_CTX_MAP_BASE s c + 8 * 2 ^ 20 * i
    let mapLen := 64 + 2 * (if small then nu * nv else 0)
    let statLen := 64 + 4096 + 4 + 2048 + 2 * (if small then nu * nv else 0)
    let tryMap := pageFlag f.page 5 && !f.doubt && small
    let damaged := (tryMap && rmwBad addr mapLen s != []) || (pageFlag f.page 6 && rmwBad (addr + 0x300000) statLen s != [])
    let f := { f with doubt := f.doubt || damaged }
    let flags := frameFlags f
    let wantMap := pageFlag f.page 5 && !f.doubt
    let minCount := max 1 (pageN f.page 0x17 1)
    let cellOf : Nat → Option (Nat × Nat × Nat) := fun k => tget? r.cells (cellKey (u0 + (k / max 1 nv : Nat)) (v0 + (k % max 1 nv : Nat)))
    let idx := if small then List.range (nu * nv) else []
    let (fc, s) := freshMany (2 * idx.length) s
    let resp := idx.map (fun k => match cellOf k with
      | some x => if x.2.1 ≥ minCount then some (x.1 / x.2.1) else none
      | none => none)
    let valid := (resp.filter (·.isSome)).length
    let box : List (Nat × Nat × Int) := if small then [(48, 4, u0), (52, 4, v0), (56, 2, (nu : Nat)), (58, 2, (nv : Nat)), (60, 4, (valid : Nat))] else []
    let s := if wantMap && !small then postEvent 164 c 1 f.number [(0, 1, 3), (4, 4, 1)] s else s
    let doMap := wantMap && small
    let cellVal : Nat → Nat := fun k => match cellOf k with
      | some x => x.1 / max 1 x.2.1 % 1024
      | none => fc (2 * k) % 1024
    let mapBytes := (idx.zip resp).flatMap (fun (kr : Nat × Option Nat) => leBytes 2 (match kr.2 with | some v => v % 1024 + 32768 | none => cellVal kr.1))
    let mapHead := capHeader kindMap f flags mapBytes.length box
    let s := if tryMap then memWrite addr (mapHead ++ mapBytes) rqCam s else s
    let sflags := flags + 16 * b2n f.isShort
    let s := if pageFlag f.page 6 then
        let hot := cells.filter (fun x => decide (x.2.2.2 ≥ pageN f.page 0x98 2))
        let hists := (List.range 1024).flatMap (fun k => leBytes 4 (tget 0 r.hist k))
        let spots := (List.range 256).flatMap (fun k => match hot[k]? with
          | some x => leBytes 8 (layout [(0, 2, x.1.1), (2, 2, x.1.2), (4, 2, (x.2.2.2 : Nat))])
          | none => leBytes 8 0)
        let maxes := idx.flatMap (fun k => leBytes 2 (match cellOf k with | some x => x.2.2 | none => fc (2 * k + 1)))
        let body := hists ++ leBytes 4 hot.length ++ spots
        let head := capHeader kindStats f sflags (body.length + maxes.length) box
        let s := memWrite (addr + 0x300000) (head ++ body ++ maxes) rqCam s
        let s := uploadRecord stStats (head ++ body) s
        if ctxEvents s c then
          postEvent 160 c 0 f.number [(0, 2, (f.gen : Nat)), (2, 1, (sflags : Nat)), (3, 1, (i : Nat)), (4, 4, (hot.length : Nat)), (8, 2, (r.peakY : Nat))] s
        else s
      else s
    let s := holdBuffer f i doMap s
    if doMap then
      let s := uploadRecord stMaps mapHead s
      let s := postEvent 161 c 0 f.number [(0, 8, (addr : Nat)), (8, 2, (f.gen : Nat)), (10, 1, (flags : Nat)), (11, 1, (i : Nat)), (12, 4, (valid : Nat))] s
      queueMap { context := c, frame := f.number, generation := f.gen, captureNs := ((lineE f (f.firstValid.getD 0)) / 2 ^ 32).toNat,
                 partialFrame := f.isShort || f.isLong, u0, v0, cols := nv, cells := resp, buffer := i } s
    else s
/-- Finishes the ended frames whose lines are through and whose positions are known, or need not be waited for. -/
def finishReady (force : Option Nat) (s : State) : State :=
  let due := s.cam.frames.filter (fun f => f.ended && f.waiting == 0 && (positionsKnown f s || force == some f.context))
  each due finishFrame s

/-! ### Frames (R328 to R331) -/

/-- A frame ends with a SHORT cause, 0 for none (R331). -/
def endCamFrame (f : CamFrame) (cause : Nat) (s : State) : State :=
  let c := f.context
  let isShort := cause != 0
  let isLong := f.extra != 0
  let f' := { f with ended := true, isShort, isLong, doubt := f.doubt || rdb R.CAM_CTX_STATUS 3 s c }
  let s := modFrameOf c f.number (fun _ => f') s
  let s := wrf R.CAM_CTX_STATUS 0 2 (if ctxOn s c then 1 else 0) s c
  let s := if ctxEvents s c then
      postEvent (144 + 4 * f.port) c 0 f.number [(0, 2, (f.gen : Nat)), (2, 1, (frameFlags f' : Nat)), (4, 4, (f.validCount : Nat)), (8, 8, (captureTt f : Nat))] s
    else s
  let s := if isShort then
      bumpCtx R.CAM_CTX_SHORT c 1 (postEvent (145 + 4 * f.port) c 1 f.number [(0, 2, (f.gen : Nat)), (2, 2, (f.validCount : Nat)), (4, 2, (f.height : Nat)), (6, 1, (cause : Nat))] s)
    else s
  let s := if isLong then
      bumpCtx R.CAM_CTX_LONG c 1 (postEvent (146 + 4 * f.port) c 1 f.number [(0, 2, (f.gen : Nat)), (2, 2, (min 65535 f.extra : Nat)), (4, 2, (f.height : Nat))] s)
    else s
  let s := if f.overrun ≠ 0 then postEvent 164 c 1 f.number [(0, 1, 1), (4, 4, (f.overrun : Nat))] s else s
  let s := if f.errBits ≠ 0 then
      postEvent (147 + 4 * f.port) c 1 f.number [(0, 1, (f.errBits : Nat)), (1, 1, (f.vc : Nat)), (2, 2, (min 65535 f.errCount : Nat))] s
    else s
  finishReady none (issueDue c s)
/-- The frame in progress on a port and virtual channel. -/
def frameOn (p v : Nat) (s : State) : Option CamFrame := s.cam.frames.find? (fun f => f.port == p && f.vc == v && !f.ended)
/-- The cause of a Frame End (R331). -/
def endCause (f : CamFrame) : Nat :=
  if f.received < f.height then 1 else if f.overrun ≠ 0 then 4 else if f.invalid ≠ 0 then 3 else 0
/-- Words of a context's shadow page that are not zero. -/
def shadowPage (c : Nat) (s : State) : Table Nat :=
  let b := R.CAM_PAGE.base + 4096 * c
  (s.regs.filter (fun e => decide (b ≤ e.1 ∧ e.1 < b + 4096))).map (fun e => ((e.1 - b) / 4, e.2.toNat))
/-- Writes bytes into a page kept by words. -/
def putPage : Table Nat → Nat → List Byte → Table Nat
  | t, _, [] => t
  | t, o, b :: r => putPage (tset t (o / 4) (setBits (8 * (o % 4)) 8 b.toNat (tget 0 t (o / 4)))) (o + 1) r
/-- The settings due at the Frame Start of frame `n` take effect (R334). -/
def applySettings (c n : Nat) (s : State) : State :=
  let commit := rdb R.CAM_CTX_COMMIT 0 s c
  let due := (camCtx s c).queue.filter (fun x => x.frameA == some n)
  if !commit && due.isEmpty then s
  else
    let s := if commit then wrb R.CAM_CTX_COMMIT 0 false (modCtx c (fun x => { x with active := shadowPage c s }) s) c else s
    let pages := due.flatMap (·.pages)
    let act := pages.foldl (fun t p => putPage t p.1 p.2) (camCtx s c).active
    let sh := pages.foldl (fun t p => putPage t p.1 p.2) (shadowPage c s)
    let s := modCtx c (fun x => { x with active := act, queue := x.queue.filter (fun y => y.frameA != some n) }) s
    let s := each sh (fun e s => wr R.CAM_PAGE e.2 s (1024 * c + e.1)) s
    let s := showCtx c (wr R.CAM_CTX_GEN ((rd R.CAM_CTX_GEN s c + 1) % 65536) s c)
    let gen := rd R.CAM_CTX_GEN s c
    let s := if due.any (·.writes) then wrb R.CAM_CTX_STATUS 3 false s c else s
    let s := if commit then settingsApplied c 0 n n gen 0 s else s
    let s := each due (fun x s => settingsApplied c x.cookie x.target n gen (b2n x.late) s) s
    if due.any (·.resetRef) then camRefReset c 3 s else s
/-- The context that takes a frame, and the pulse it follows (R328). -/
def assignFrame (p v : Nat) (s : State) : Option (Nat × Option Pulse) :=
  let bound : Nat → Bool := fun c => ctxOn s c && ctxPort s c == p && ctxVc s c == v
  let now := nowE s
  let named : Option Pulse := (tget? s.cam.pulses p).bind (fun x =>
    if now - x.e ≤ (rdf R.CAM_TRIG_CFG 16 16 s p * 1000 * 2 ^ 32 : Nat) ∧ !x.used.contains v ∧ bound x.context then some x else none)
  match named with
  | some x => some (x.context, some x)
  | none => ((List.range 16).find? (fun c => bound c && rdb R.CAM_CTX_CFG 5 s c)).map (fun c => (c, none))
/-- A packet has come on a port with error bits `errs`: with a continuous clock the port stays in HS, else it is back in LP after the
packet; above 1,500 Mb/s a packet without a deskew error comes after a deskew (R324, R350; log entry 59). -/
def packetSeen (p errs : Nat) (s : State) : State :=
  let s := wrf R.CAM_PORT_STATUS 0 2 (1 + b2n (rdb R.CAM_PORT_CFG 3 s p)) s p
  if rdf R.CAM_PORT_CFG 16 12 s p ≤ 1500 then s else wrb R.CAM_PORT_STATUS 2 (!bit 1 errs) s p
/-- A Frame Start on a port and virtual channel (R328, R331, R334, R340, R344). -/
def doCsiFrameStart (p v : Nat) (s : State) : State :=
  if !portRuns p s ∨ v > 3 then s
  else
    let s := packetSeen p 0 (wr R.CAM_PORT_STATUS (rd R.CAM_PORT_STATUS s p ||| 2 ^ (4 + v)) s p)
    let s := match frameOn p v s with
      | some f => endCamFrame f 2 s
      | none => s
    match assignFrame p v s with
    | none =>
      bumpPort R.CAM_PORT_UNASSIGNED p 1 (postEvent (147 + 4 * p) 0xFF 1 0xFFFFFFFF [(0, 1, 0x40), (1, 1, (v : Nat)), (2, 2, 1)] s)
    | some (c, pulse) =>
      let s := match pulse with
        | some x => modCam (fun m => { m with pulses := tset m.pulses p { x with used := v :: x.used } }) s
        | none => s
      let n := (ctxFrame s c + 1) % 2 ^ 32
      let s := applySettings c n (wr R.CAM_CTX_FRAME n s c)
      let page := (camCtx s c).active
      let delay := pageN page 0x8C 4
      let expo := pageN page 0x88 4
      let mid := pageN page 0x90 4
      let (t0, t0Tt) : Int × Nat := match pulse with
        | some x => (x.e + (delay * 2 ^ 32 + expo * 2 ^ 31 : Nat), (x.tt + delay * 65536 + expo * 32768) % 2 ^ 64)
        | none => (nowE s - (mid * 2 ^ 32 : Nat), (ttNow s + 2 ^ 64 - mid * 65536) % 2 ^ 64)
      let wants := pageFlag page 5 || pageFlag page 6
      let x := camCtx s c
      let s := modCtx c (fun x => { x with refFresh := false }) s
      let buffer := if wants then (List.range 4).find? (fun i => !x.heldThe.contains i && !x.heldHost.contains i) else none
      let s := if wants && buffer.isNone then bumpCtx R.CAM_CTX_MAPS_DROPPED c 1 (postEvent 164 c 1 n [(0, 1, 2), (4, 4, 1)] s) else s
      let f : CamFrame :=
        { context := c, port := p, vc := v, number := n, gen := rd R.CAM_CTX_GEN s c, startTt := ttNow s, t0, t0Tt, triggered := pulse.isSome,
          doubt := rdb R.CAM_CTX_STATUS 3 s c, refReset := x.refFresh, page, width := rdf R.CAM_CTX_SIZE 0 14 s c,
          height := rdf R.CAM_CTX_SIZE 16 14 s c, carriage := rdb R.CAM_CTX_CFG 14 s c, buffer }
      wrf R.CAM_CTX_STATUS 16 16 0 (wrf R.CAM_CTX_STATUS 0 2 2 (modCam (fun m => { m with frames := m.frames ++ [f] }) s) c) c
/-- CSI_FRAME_START (R328). -/
def execCsiFrameStart (p v : Nat) (s : State) : Host.Outcome State Fault Refusal := .next (doCsiFrameStart p v s)

/-- Bytes waiting in a port's line buffer (R347). -/
def bufferedBytes (p : Nat) (s : State) : Nat := (tget [] s.cam.buffers p).foldl (fun n e => n + e.bytes) 0
/-- A line packet (R324, R325, R331, R347). -/
def doCsiLinePacket (l : CsiLine) (s : State) : State :=
  let p := l.port
  if !portRuns p s then s
  else if !rawType l.dataType then
    if l.dataType = 0x12 ∨ (0x30 ≤ l.dataType ∧ l.dataType ≤ 0x37) ∨ l.dataType = 2 ∨ l.dataType = 3 then s else bumpPort R.CAM_PORT_ERRORS p 1 s
  else
    let errs := l.errors % 32
    let s := packetSeen p errs s
    let f? := frameOn p l.vc s
    let wrong : CamFrame → Bool := fun f => l.bytes != f.width * rawBits (rdf R.CAM_CTX_CFG 6 6 s f.context) / 8
    let bitsOf : Nat := match f? with
      | some f => errs + (if !bit 3 errs && wrong f then 32 else 0)
      | none => errs
    let s := if bitsOf ≠ 0 then bumpPort R.CAM_PORT_ERRORS p 1 s else s
    match f? with
    | none => s
    | some f =>
      let c := f.context
      let s := if bitsOf ≠ 0 then modFrameOf c f.number (fun f => { f with errBits := f.errBits ||| bitsOf, errCount := f.errCount + 1 }) s else s
      if bit 3 errs then s
      else if f.received ≥ f.height then
        bumpCtx R.CAM_CTX_EXTRA_LINES c 1 (modFrameOf c f.number (fun f => { f with extra := f.extra + 1 }) s)
      else
        let y := f.received
        let s := wrf R.CAM_CTX_STATUS 16 16 (y + 1) (modFrameOf c f.number (fun f => { f with received := y + 1 }) s) c
        if bit 4 errs || wrong f then
          bumpCtx R.CAM_CTX_INVALID_LINES c 1 (modFrameOf c f.number (fun f => { f with invalid := f.invalid + 1 }) s)
        else if bufferedBytes p s + l.bytes > 2 ^ 20 then
          let s := bumpCtx R.CAM_CTX_OVERRUN_LINES c 1 (bumpCtx R.CAM_CTX_INVALID_LINES c 1 s)
          modFrameOf c f.number (fun f => { f with overrun := f.overrun + 1 }) s
        else
          let s := modFrameOf c f.number (fun f => { f with waiting := f.waiting + 1, validCount := f.validCount + 1, firstValid := some (f.firstValid.getD y) }) s
          let s := match f.buffer with
            | some i => if f.firstValid.isNone then showCtx c (modCtx c (fun x => { x with heldThe := i :: x.heldThe.filter (· != i) }) s) else s
            | none => s
          modCam (fun m => { m with buffers := tmod [] m.buffers p (fun b => b ++ [{ context := c, frame := f.number, line := y, bytes := l.bytes, samples := l.samples }]) }) s
/-- CSI_LINE_PACKET (R331). -/
def execCsiLinePacket (l : CsiLine) (s : State) : Host.Outcome State Fault Refusal := .next (doCsiLinePacket l s)

/-- A Frame End (R331). -/
def doCsiFrameEnd (p v : Nat) (s : State) : State :=
  match frameOn p v s with
  | some f => if portRuns p s then endCamFrame f (endCause f) s else s
  | none => s
/-- CSI_FRAME_END (R331). -/
def execCsiFrameEnd (p v : Nat) (s : State) : Host.Outcome State Fault Refusal := .next (doCsiFrameEnd p v s)
/-- No Frame End within CAM_CTX_TIMEOUT of the Frame Start (R331). -/
def doCamFrameTimeout (c : Nat) (s : State) : State :=
  match frameOf s c with
  | some f => endCamFrame f 5 s
  | none => s
/-- CAM_FRAME_TIMEOUT (R331). -/
def execCamFrameTimeout (c : Nat) (s : State) : Host.Outcome State Fault Refusal := .next (doCamFrameTimeout c s)
/-- The defect list of a page: entries that DRAM cannot give are left out (R337). -/
def defectList (page : Table Nat) (s : State) : List (Nat × Nat) × State :=
  let n := min 4096 (pageN page 0x10 2)
  let a := pageN page 8 8
  if n = 0 then ([], s)
  else
    let (bad, s) := checkedRead a (4 * n) rqCam s
    if bad then ([], s) else ((List.range n).map (fun i => (readDramN s (a + 4 * i) 2, readDramN s (a + 4 * i + 2) 2)), s)
/-- The pipeline takes the next line by round robin over the ports, through stages 1 and 2 (R338, R347).  `ecc`: a word of it in the line
buffer read with a correctable error (1), or with an uncorrectable one (2), by which the line is invalid (R373). -/
def doCamLineProcess (ecc : Nat) (s : State) : State :=
  let order := (List.range 4).map (fun i => (s.cam.lastPort + 1 + i) % 4)
  match order.find? (fun p => tget [] s.cam.buffers p != []) with
  | none => s
  | some p =>
    match tget [] s.cam.buffers p with
    | [] => s
    | b :: rest =>
      let s := modCam (fun m => { m with buffers := tset m.buffers p rest, lastPort := p }) s
      let s := if ecc = 0 then s
        else
          let (v, s) := fresh s
          if ecc = 1 then sramCe 4 (v % 2 ^ 22 / 8 * 8) rqCam s else sramUe 4 (v % 2 ^ 22 / 8 * 8) rqCam 0 s
      match findFrame b.context b.frame s with
      | none => s
      | some f =>
        if ecc ≥ 2 then
          finishReady none (bumpCtx R.CAM_CTX_INVALID_LINES b.context 1 (modFrameOf b.context b.frame (fun f =>
            { f with waiting := f.waiting - 1, invalid := f.invalid + 1, validCount := f.validCount - 1 }) s))
        else
        let (defects, s) := defectList f.page s
        let v := stageBlack f.page (rawBits (rdf R.CAM_CTX_CFG 6 6 s b.context)) b.line defects b.samples
        finishReady none (modFrameOf b.context b.frame (fun f => { f with waiting := f.waiting - 1, lines := tset f.lines b.line v }) s)
/-- CAM_LINE_PROCESS (R338). -/
def execCamLineProcess (ecc : Nat) (s : State) : Host.Outcome State Fault Refusal := .next (doCamLineProcess ecc s)
/-- The wait of 1 ms for a later position sample is over (R341). -/
def doPositionWaitTimeout (c : Nat) (s : State) : State := finishReady (some c) s
/-- POSITION_WAIT_TIMEOUT (R341). -/
def execPositionWaitTimeout (c : Nat) (s : State) : Host.Outcome State Fault Refusal := .next (doPositionWaitTimeout c s)

/-! ### Triggers, buses, contexts, buffers, power -/

/-- A write to CAM_TRIG_SW (R330). -/
def doCamTrigSw (p : Nat) (value : Word32) (s : State) : State := camPulse p (value.toNat % 16) s
/-- CAM_TRIG_SW (R330). -/
def execCamTrigSw (p : Nat) (value : Word32) (s : State) : Host.Outcome State Fault Refusal := .next (doCamTrigSw p value s)
/-- The pulse width has elapsed (R330). -/
def doTriggerPulseEnd (p : Nat) (s : State) : State :=
  match tget? s.cam.pulses p with
  | some x => if x.running then trigOut p false (modCam (fun m => { m with pulses := tset m.pulses p { x with running := false } }) s) else s
  | none => s
/-- TRIGGER_PULSE_END (R330). -/
def execTriggerPulseEnd (p : Nat) (s : State) : Host.Outcome State Fault Refusal := .next (doTriggerPulseEnd p s)
/-- A write to CAM_BUS_CMD: a direct transaction, which waits for the settings writes in progress (R326). -/
def doCamBusCmd (p : Nat) (value : Word32) (s : State) : State :=
  let v := value.toNat
  let b := camBus s p
  let running := match b.current with
    | some (false, _) => true
    | _ => false
  if p > 3 || b.direct.isSome || running then s
  else
    let n := max 1 (min 16 (bits 16 5 v))
    let all := (List.range 4).flatMap (fun w => leBytes 4 (rd (R.CAM_BUS_DATA w) s p))
    let o : SensorOp := { delay := false, addr := bits 0 7 v, regWidth := bits 8 2 v, reg := rdf R.CAM_BUS_REG 0 16 s p, len := n, data := if bit 7 v then [] else all.take n }
    busNext p 64 (wrb R.CAM_BUS_STATUS 0 true (modBus p (fun b => { b with direct := some (bit 7 v, o) }) s) p)
/-- CAM_BUS_CMD (R326). -/
def execCamBusCmd (p : Nat) (value : Word32) (s : State) : Host.Outcome State Fault Refusal := .next (doCamBusCmd p value s)
/-- EV_CAM_CTRL_BUS_ERROR (R348). -/
def busError (p cause : Nat) (o : SensorOp) (target : Nat) (s : State) : State :=
  bumpPort R.CAM_BUS_ERRORS p 1 (postEvent 163 p 1 0 [(0, 1, (cause : Nat)), (1, 1, (o.addr : Nat)), (2, 2, (o.reg : Nat)), (4, 4, (target : Nat))] s)
/-- The last sensor write of a change has completed: its frame A is known (R334). -/
def writesDone (c : Nat) (x : Change) (s : State) : State :=
  let l := ctxLatency s c
  let f := ctxFrame s c
  let onTime := decide (sdiff 32 f (x.target + 2 ^ 32 - l) < 0)
  let a := if onTime then x.target else (f + 1 + l) % 2 ^ 32
  let s := modChange c x.id (fun z => { z with ops := [], frameA := some a, late := !onTime }) s
  if onTime then s else bumpCtx R.CAM_CTX_SET_LATE c 1 s
/-- A change's sensor write failed (R335): the frame A and the generation the event names are free values. -/
def changeFailed (c : Nat) (x : Change) (s : State) : State :=
  let s := showCtx c (modCtx c (fun y => { y with queue := y.queue.filter (fun z => z.id != x.id) }) s)
  let s := wrb R.CAM_CTX_STATUS 3 true s c
  let (a, s) := fresh s
  let (g, s) := fresh s
  bumpCtx R.CAM_CTX_SET_LATE c 1 (settingsApplied c x.cookie x.target a g 2 s)
/-- A control-bus transaction ends OK, or with a cause after two retries (R326, R334, R335). -/
def doCamBusTransactionDone (p result : Nat) (data : List Byte) (s : State) : State :=
  let b := camBus s p
  match b.current with
  | none => s
  | some (settings, o) =>
    let s := wrf R.CAM_BUS_STATUS 1 3 (result % 8) (modBus p (fun b => { b with current := none }) s) p
    let s := match settings, b.due with
      | true, (c, id) :: r =>
        match changeOf s c id with
        | none => modBus p (fun b => { b with due := r }) s
        | some x =>
          if result ≠ 0 then changeFailed c x (busError p result o x.target (modBus p (fun b => { b with due := r }) s))
          else
            let rest := (x.ops.dropWhile (·.delay)).drop 1
            if rest.all (·.delay) then writesDone c x (modBus p (fun b => { b with due := r }) s)
            else modChange c id (fun z => { z with ops := rest }) s
      | true, [] => s
      | false, _ =>
        if result ≠ 0 then busError p result o 0xFFFFFFFF s
        else if b.read then
          each (List.range 4) (fun w s => wr (R.CAM_BUS_DATA w) (bytesAt (data.take o.len) (4 * w) 4) s p) s
        else s
    busNext p 64 s
/-- CAM_BUS_TRANSACTION_DONE (R326). -/
def execCamBusTransactionDone (p result : Nat) (data : List Byte) (s : State) : Host.Outcome State Fault Refusal :=
  .next (doCamBusTransactionDone p result data s)

/-- A write of 1 to CAM_CTX_COMMIT (R332). -/
def doCamCommit (c : Nat) (s : State) : State := if c < 16 then wrb R.CAM_CTX_COMMIT 0 true s c else s
/-- CAM_COMMIT (R332). -/
def execCamCommit (c : Nat) (s : State) : Host.Outcome State Fault Refusal := .next (doCamCommit c s)
/-- A write of CAM_CTX_CFG to a context that is not enabled: binding and options; a new binding or data type invalidates the
reference (R339, R350). -/
def bindCtx (c v : Nat) (s : State) : State :=
  let old := rd R.CAM_CTX_CFG s c
  let new := v % 65536 / 2 * 2
  let s := wr R.CAM_CTX_CFG new s c
  if bits 1 4 old ≠ bits 1 4 new ∨ bits 6 6 old ≠ bits 6 6 new then camRefReset c 2 s else s
/-- The conditions of R329. -/
def ctxMayEnable (c : Nat) (s : State) : Bool :=
  let w := rdf R.CAM_CTX_SIZE 0 14 s c
  let h := rdf R.CAM_CTX_SIZE 16 14 s c
  let ref := rd R.CAM_CTX_REF_BASE s c
  let map := rd R.CAM_CTX_MAP_BASE s c
  rawType (rdf R.CAM_CTX_CFG 6 6 s c) && decide (16 ≤ w ∧ w ≤ 8192 ∧ w % 16 = 0 ∧ 2 ≤ h ∧ h ≤ 8192) &&
    decide (ref % 2 ^ 20 = 0 ∧ map % 2 ^ 20 = 0 ∧ ref + w * h * 2 ≤ dramSize ∧ map + 32 * 2 ^ 20 ≤ dramSize)
/-- A write of 1 to CAM_CTX_CFG.enable (R329, R339). -/
def doCamCtxEnable (c : Nat) (value : Word32) (s : State) : State :=
  if c > 15 ∨ ctxOn s c ∨ !bit 0 value.toNat then s
  else
    let s := bindCtx c value.toNat s
    if !ctxMayEnable c s then s
    else showCam (camRefReset c 1 (wrf R.CAM_CTX_STATUS 0 2 1 (wrb R.CAM_CTX_CFG 0 true s c) c))
/-- CAM_CTX_ENABLE (R329). -/
def execCamCtxEnable (c : Nat) (value : Word32) (s : State) : Host.Outcome State Fault Refusal := .next (doCamCtxEnable c value s)
/-- Enable is cleared: a frame in progress ends as SHORT, queued changes are discarded (R329, R349). -/
def doCamCtxDisable (c : Nat) (s : State) : State :=
  if c > 15 ∨ !ctxOn s c then s
  else
    let s := wrb R.CAM_CTX_CFG 0 false s c
    let s := match frameOf s c with
      | some f => endCamFrame f 6 s
      | none => s
    let s := wrf R.CAM_CTX_STATUS 0 2 0 (discardChanges c s) c
    let s := if (List.range 16).any (fun d => ctxOn s d && rdb R.CAM_CTX_CFG 14 s d) then s else modCam (fun m => { m with samples := [] }) s
    showCam s
/-- CAM_CTX_DISABLE (R329). -/
def execCamCtxDisable (c : Nat) (s : State) : Host.Outcome State Fault Refusal := .next (doCamCtxDisable c s)
/-- A write to CAM_CTX_RELEASE (R344). -/
def doCamBufferRelease (c : Nat) (value : Word32) (s : State) : State :=
  if c > 15 then s else showCtx c (modCtx c (fun x => { x with heldHost := x.heldHost.filter (· != value.toNat % 4) }) s)
/-- CAM_BUFFER_RELEASE (R344). -/
def execCamBufferRelease (c : Nat) (value : Word32) (s : State) : Host.Outcome State Fault Refusal := .next (doCamBufferRelease c value s)
/-- A write to CAM_PWR_CTRL: an enable written 0 clears the output's fault (R327). -/
def doCamPwrCtrlWrite (value : Word32) (s : State) : State :=
  let v := value.toNat % 16
  camPower (wrf R.CAM_PWR_STATUS 8 4 (rdf R.CAM_PWR_STATUS 8 4 s &&& v) (wr R.CAM_PWR_CTRL v s))
/-- CAM_PWR_CTRL_WRITE (R327). -/
def execCamPwrCtrlWrite (value : Word32) (s : State) : Host.Outcome State Fault Refusal := .next (doCamPwrCtrlWrite value s)
/-- An output held in current limit, or below 6 V, turns off (R327). -/
def doCamPowerFault (p cause ma : Nat) (s : State) : State :=
  if p > 3 ∨ !rdb R.CAM_PWR_STATUS p s then s
  else postEvent 24 p 1 0 [(0, 1, (cause : Nat)), (2, 2, (ma : Nat))] (camPower (wrb R.CAM_PWR_STATUS (8 + p) true s))
/-- CAM_POWER_FAULT (R327). -/
def execCamPowerFault (p cause ma : Nat) (s : State) : Host.Outcome State Fault Refusal := .next (doCamPowerFault p cause ma s)

/-! ### OP_CAM_PROGRAM (R333, R335) -/

/-- The records of a settings block; none where one is malformed (R335). -/
def settingsRecords : Nat → List Byte → Option (List SensorOp × List (Nat × List Byte))
  | 0, [] => some ([], [])
  | 0, _ => none
  | n + 1, bs =>
    let ty := bytesAt bs 0 2
    let len := bytesAt bs 2 2
    let padded := (len + 3) / 4 * 4
    let v := (bs.drop 4).take len
    if bs.length < 4 + padded ∨ !zeroBytes bs (4 + len) (padded - len) then none
    else
      match settingsRecords n (bs.drop (4 + padded)) with
      | none => none
      | some (ops, pages) =>
        if ty = 1 then
          if 5 ≤ len ∧ len ≤ 20 ∧ bytesAt v 0 1 < 128 ∧ bytesAt v 1 1 ≤ 2 then
            some ({ delay := false, addr := bytesAt v 0 1, regWidth := bytesAt v 1 1, reg := bytesAt v 2 2, len := len - 4, data := v.drop 4 } :: ops, pages)
          else none
        else if ty = 2 then
          if 3 ≤ len ∧ bytesAt v 0 2 + (len - 2) ≤ 4096 then some (ops, (bytesAt v 0 2, v.drop 2) :: pages) else none
        else if ty = 3 ∧ len = 4 then some ({ delay := true, us := bytesAt v 0 4 } :: ops, pages)
        else none
/-- A well-formed settings block as a change (R335). -/
def settingsBlock (target cookie : Nat) (bs : List Byte) : Option Change :=
  if bs.length < 16 ∨ bs.length > 16384 ∨ bytesAt bs 0 4 ≠ 0x54455343 ∨ bytesAt bs 4 1 ≠ 1 ∨ bytesAt bs 5 1 > 1 ∨ bytesAt bs 12 4 ≠ 0 then none
  else
    (settingsRecords (bytesAt bs 6 2) (bs.drop 16)).map (fun r =>
      { target, cookie, resetRef := bytesAt bs 5 1 == 1, writes := r.1.any (fun o => !o.delay), ops := r.1, pages := r.2 })
/-- The settings block of an OP_CAM_PROGRAM has been read: the checks of R333, in order. -/
def camProgramDone (k : Nat) (j : Job) (bs : List Byte) (s : State) : State :=
  let c := dfld j.desc 8 1
  let n := dfld j.desc 12 4
  match settingsBlock n (dCookie j.desc) bs with
  | none => finish k j.index stRefused 3 s
  | some x =>
    let l := if x.writes then ctxLatency s c else 0
    if crc32c (bs.drop 16) ≠ bytesAt bs 8 4 then finish k j.index stDataError 0 s
    else if (camCtx s c).queue.length ≥ 8 then finish k j.index stRefused 2 s
    else if sdiff 32 (n + 2 ^ 32 - l) (ctxFrame s c) ≤ 0 then finish k j.index stRefused 1 s
    else finish k j.index stOk 0 (queueChange c x s)
/-- OP_CAM_PROGRAM is read: its block is fetched (R333). -/
def doCamProgram (k : Nat) (d : Desc) (s : State) : State :=
  readDesc k d 0x0D (usedBits [(8, 1), (12, 4), (16, 8), (24, 4)]) [(8, decide (dfld d 8 1 < 16))]
    (fun i s =>
      let n := dfld d 24 4
      if !camMode s then finish k i stMode (modeOf s) s
      else if n < 16 ∨ n > 16384 then finish k i stRefused 3 s
      else startXfer k i (dfld d 16 8) n false [] s) s
/-- CAM_PROGRAM (R333). -/
def execCamProgram (k : Nat) (d : Desc) (s : State) : Host.Outcome State Fault Refusal := .next (doCamProgram k d s)

end Sys2Proof.Machine
end

