-- ==== Sys2Proof/Machine/Motion.lean ====
section
/-! DEFINITION. The motion block (R293 to R323, R556, R558): OP_MOVE and OP_HOME, the queue, the motion-link frame, position
sources, switches, homing, and the commands of MOT_CMD, MOT_FAULT and MOT_CFG. -/

namespace Sys2Proof.Machine

/-- A counter of axis `a` that saturates posts event `n` with its cause COUNTER (R320, R322). -/
def bumpMot (r : RegInfo) (a n : Nat) (cause : List (Nat × Nat × Int)) (s : State) : State := bump r 1 (postEvent n a (if n = 140 then 0 else 1) 0 cause) s a
/-- Fields of a homing record (R504). -/
def hrTarget (r : List Byte) : Nat := bytesAt r 2 1
def hrIndexed (r : List Byte) : Bool := bit 1 (bytesAt r 3 1)
/-- The direction toward a homing's target: 1 or −1 (R317). -/
def hrDir (r : List Byte) : Int :=
  match hrTarget r with
  | 0 => -1
  | 1 => 1
  | _ => if bit 0 (bytesAt r 3 1) then -1 else 1
/-- The park position of a record. -/
def hrPark (r : List Byte) : Int := sext 64 (bytesAt r 32 8)
/-- The endpoint of the last queue entry, or MOT_CMD_POS (R295). -/
def queueEnd (a : Nat) (s : State) : Int :=
  match (axisOf s a).queue.getLast? with
  | none => cmdPos a s
  | some e => if e.home then hrPark e.record else e.target
/-- The entry that is executing. -/
def headEntry (a : Nat) (s : State) : Option QEntry := if (axisOf s a).running then (axisOf s a).queue.head? else none
/-- The running entry will end with a status. -/
def endEntry (a st : Nat) (s : State) : State := modAxis a (fun x => { x with ending := some (max st (x.ending.getD 0)) }) s

/-- The mode, the supply and the axis let an entry start (R294, R299, R305, R441). -/
def mayStart (a : Nat) (s : State) : Bool :=
  let x := axisOf s a
  let m := modeOf s
  !x.running && x.prof.isNone && !x.queue.isEmpty && s.pwr.dip.isNone && !s.ctl.motionHold && axisState a s != mFault &&
    (m == 3 || m == 7 || ((m == 4 || m == 5) && decide (2 ≤ a)))
/-- The first clamp of a move: cause, the value asked for and the value applied (R297, R320). -/
def firstClamp (a : Nat) (e : QEntry) (s : State) : Option (Nat × Nat × Nat) :=
  let v := rd R.MOT_ENV_VMAX s a
  let am := rd R.MOT_ENV_AMAX s a
  let j := rd R.MOT_ENV_JMAX s a
  let c := commuteVmax a s
  let want := if e.vmax = 0 then v else e.vmax
  if e.vmax > v then some (1, e.vmax, v)
  else if e.amax > am then some (2, e.amax, am)
  else if e.jmax > j then some (3, e.jmax, j)
  else if want > c then some (4, want, c)
  else none
/-- A clamp of a move is counted and reported once (R297, R320). -/
def reportClamp (a cookie : Nat) (c : Option (Nat × Nat × Nat)) (s : State) : State :=
  match c with
  | none => s
  | some (cause, want, got) =>
    bumpMot R.MOT_ENV_CLAMPS a 140 [(0, 1, 5)] (postEvent 140 a 0 cookie [(0, 1, (cause : Nat)), (4, 4, (want : Nat)), (8, 4, (got : Nat))] s)
/-- A move starts, in state `st` (R297, R298, R304, R315).  An envelope that has become 0 since the acceptance admits no profile: the
entry ends STOPPED (R558, log entry 30). -/
def beginMove (a : Nat) (e : QEntry) (st : Nat) (s : State) : State :=
  if !envOk a s then endEntry a 1 s
  else
    let s := takePosition a (reportClamp a e.cookie (firstClamp a e s) s)
    let lim := fun (v top : Nat) => if v = 0 then top else min v top
    let delta := e.target - cmdPos a s
    if delta = 0 then endEntry a 0 s
    else if (delta < 0 ∧ limitActive a 0 s) ∨ (delta > 0 ∧ limitActive a 1 s) then endEntry a 2 s
    else
      startMove a e.target (limitV a (lim e.vmax (rd R.MOT_ENV_VMAX s a)) s) (lim e.amax (rd R.MOT_ENV_AMAX s a))
        (lim e.jmax (rd R.MOT_ENV_JMAX s a)) st s
/-- A homing step starts a move at constant speed `v` in direction `dir` (R297, R317). -/
def homeRun (a step : Nat) (dir : Int) (v : Nat) (s : State) : State :=
  if !envOk a s then endEntry a 1 s
  else
    let slow := min v (max 1 (rd R.MOT_ENV_VMAX s a / 16))
    let c := commuteVmax a s
    let s := reportClamp a (((headEntry a s).map (·.cookie)).getD 0) (if slow > c then some (4, v, c) else none) s
    let goal : Rat := ((dir * (min slow c : Nat) : Int) : Rat)
    let s := startProf a (fun _ => changeSegs 0 0 goal (rd R.MOT_ENV_AMAX s a) (rd R.MOT_ENV_JMAX s a)) mHoming s
    modAxis a (fun x => { x with homeStep := step, homeNext := 0, homeFrom := cmdPos a s, homeFromPos := measPos a s, latched := false }) s
/-- A homing step of the running entry starts at rest (R317): 2 search, 3 back-off, 4 latch, 6 park, an ordinary move. -/
def homeStart (a step : Nat) (e : QEntry) (s : State) : State :=
  let r := e.record
  match step with
  | 2 => homeRun a 2 (hrDir r) (bytesAt r 4 4) s
  | 3 => homeRun a 3 (-(hrDir r)) (bytesAt r 8 4) s
  | 4 => homeRun a 4 (hrDir r) (bytesAt r 8 4) s
  | _ => beginMove a { e with target := hrPark r, vmax := 0, amax := 0, jmax := 0 } mHoming
      (modAxis a (fun x => { x with homeStep := 6, homeNext := 0 }) s)
/-- The MOT_HOME_* registers show the executing record (R317, R322). -/
def showHome (a : Nat) (e : QEntry) (s : State) : State :=
  let r := e.record
  let s := wr R.MOT_HOME_CFG (hrTarget r + 4 * bytesAt r 3 1 + 2 ^ 8 * e.recIndex) s a
  let s := wr R.MOT_HOME_BACKOFF (bytesAt r 12 4) (wr R.MOT_HOME_VLATCH (bytesAt r 8 4) (wr R.MOT_HOME_VSEARCH (bytesAt r 4 4) s a) a) a
  wr R.MOT_HOME_PARK (bytesAt r 32 8) (wr R.MOT_HOME_OFFSET (bytesAt r 24 8) (wr R.MOT_HOME_RANGE (bytesAt r 16 8) s a) a) a
/-- A homing starts: step 1 of R317. -/
def beginHome (a : Nat) (e : QEntry) (s : State) : State :=
  let s := setAxisState a mHoming (setHomed a false (showHome a e s))
  let t := hrTarget e.record
  if (tget {} (axisOf s a).sw t).wireFault then axisFault a 7 s
  else homeStart a (if switchActive a t s then 3 else 2) e s
/-- The first queue entry starts where it may (R299). -/
def startEntry (a : Nat) (s : State) : State :=
  if mayStart a s then
    match (axisOf s a).queue with
    | [] => s
    | e :: _ =>
      let s := modAxis a (fun x => { x with running := true, ending := none, homeStep := 0, homeNext := 0 }) s
      if e.home then beginHome a e s else beginMove a e mMoving s
  else s
def startAll (s : State) : State := each [0, 1, 2, 3, 4, 5] startEntry s

/-! ### OP_MOVE and OP_HOME (R294, R295) -/

/-- The conditions of R294 in their order, with the endpoint of a MOVE: mode, then the reasons 1 to 6. -/
def moveRefusal (a : Nat) (abs home : Bool) (target : Int) (record : Option (List Byte)) (s : State) : Option (Nat × Nat) :=
  let m := modeOf s
  if !(m == 3 || m == 7 || ((m == 4 || m == 5) && decide (2 ≤ a))) then some (stMode, m)
  else if (axisOf s a).queue.length ≥ 16 then some (stRefused, 1)
  else if !home && abs && !homed a s then some (stRefused, 2)
  else if ownedByPlacement a s || axisSource a s == 2 then some (stRefused, 3)
  else if !envOk a s || (!home && homed a s && !(decide (rdI R.MOT_ENV_MIN s a ≤ target) && decide (target ≤ rdI R.MOT_ENV_MAX s a))) then some (stRefused, 4)
  else if axisState a s = mFault then some (stRefused, 5)
  else if home && record.isNone then some (stRefused, 6)
  else none
def doMove (k : Nat) (d : Desc) (s : State) : State :=
  let t := dfld d 16 8
  readDesc k d 0x08 (usedBits [(8, 1), (9, 1), (16, 8), (24, 4), (28, 4), (32, 4)])
    [(8, decide (dfld d 8 1 ≤ 5)), (9, decide (dfld d 9 1 ≤ 1)), (16, decide (sext 64 t = sext 48 t))] (fun i s =>
      let a := dfld d 8 1
      let abs := dfld d 9 1 == 0
      let target := if abs then sext 48 t else queueEnd a s + sext 48 t
      match moveRefusal a abs false target none s with
      | some r => finish k i r.1 r.2 s
      | none =>
        let e : QEntry := { home := false, cookie := dCookie d, target, vmax := dfld d 24 4, amax := dfld d 28 4, jmax := dfld d 32 4 }
        startEntry a (finish k i stOk 0 (setQueue a ((axisOf s a).queue ++ [e]) s))) s
/-- MOVE (R295). -/
def execMove (ring : Nat) (d : Desc) (s : State) : Host.Outcome State Fault Refusal := .next (doMove ring d s)

def doHome (k : Nat) (d : Desc) (s : State) : State :=
  readDesc k d 0x07 (usedBits [(8, 1), (9, 1)]) [(8, decide (dfld d 8 1 ≤ 5))] (fun i s =>
    let a := dfld d 8 1
    let n := dfld d 9 1
    let record := if n < 16 then tget? s.ctl.homing (16 * a + n) else none
    match moveRefusal a true true 0 record s with
    | some r => finish k i r.1 r.2 s
    | none =>
      let e : QEntry := { home := true, cookie := dCookie d, target := 0, vmax := 0, amax := 0, jmax := 0, record := record.getD [], recIndex := n }
      startEntry a (finish k i stOk 0 (setQueue a ((axisOf s a).queue ++ [e]) s))) s
/-- HOME (R294). -/
def execHome (ring : Nat) (d : Desc) (s : State) : Host.Outcome State Fault Refusal := .next (doHome ring d s)

/-! ### The motion-link frame (R298, R301 to R304, R310) -/

/-- R197: the interpolated fraction of a step source, and its position. -/
def stepPosition (a : Nat) (s : State) : Int :=
  let x := axisOf s a
  let gap := x.stepNs - x.stepPrevNs
  let frac : Int := if x.stepDirChanged ∨ gap > 2 ^ 20 ∨ gap = 0 then 0 else (min 255 (256 * (s.time.ns - x.stepNs) / gap) : Nat)
  256 * x.stepPos + (if x.stepDir then -frac else frac)
/-- The index of the microstep table (R302). -/
def microIndex (a : Nat) (s : State) : Nat :=
  let ms : Int := cmdPos a s * (rd R.MOT_COMMUTE_RATIO s a : Nat) / 4294967296
  (((if rdb R.MOT_CFG 2 s a then -ms else ms) + (rdf R.MOT_COMMUTE_OFFSET 0 10 s a : Nat)) % 1024).toNat
/-- Mode and current of a frame (R303); `still`: velocity and acceleration are 0. -/
def linkMode (a : Nat) (still : Bool) (s : State) : Nat × Nat :=
  let st := axisState a s
  if st = mFault ∨ st = mStopped ∨ !rdb R.MOT_STATUS 7 s a then (2, 0)
  else if (axisOf s a).rested && (axisOf s a).prof.isNone then ((if rdb R.MOT_CFG 4 s a then 2 else 0), 0)
  else (1, if still then rdf R.MOT_HOLD_SCALE 0 8 s a else rdf R.MOT_RUN_SCALE 0 8 s a)
/-- Sends one frame of axis `a` with its CRC-8 (R301), and shows its mode and sequence. -/
def sendFrame (a : Nat) (still : Bool) (s : State) : State :=
  let (m, c) := linkMode a still s
  let seq := (rd R.MOT_LINK_SEQ s a + 1) % 256
  let top := 11 * 2 ^ 52 + m * 2 ^ 48 + seq * 2 ^ 40 + c * 2 ^ 32 + microIndex a s * 2 ^ 22 + a * 2 ^ 16
  let crc := crcOf 8 0x07 0xFF 0 false false (leBytes 7 top).reverse
  let s := emit (.motionFrame a (top * 256 + crc)) (wrf R.MOT_STATUS 8 2 m (wr R.MOT_LINK_SEQ seq s a) a)
  if m = 0 ∧ axisSource a s = 1 then setHomed a false s else s
/-- An axis has come to rest: its entry ends, its next homing step starts, or it stands (R300, R317, R323). -/
def cameToRest (a : Nat) (s : State) : State :=
  let s := modAxis a (fun x => { x with prof := none }) s
  let x := axisOf s a
  let st := if rd R.MOT_FAULT s a ≠ 0 then mFault else if rdb R.MOT_STATUS 7 s a then mStandstill else mStopped
  match headEntry a s with
  | none => setAxisState a st s
  | some e =>
    if x.ending.isSome then setAxisState a st s
    else if !e.home || x.homeStep == 6 then endEntry a 0 (setAxisState a st s)
    else if x.homeNext ≠ 0 then homeStart a x.homeNext e s
    else if x.homeStep = 2 then
      let t := hrTarget e.record
      let w := tget {} x.sw t
      if w.closed != rdb R.MOT_CFG (5 + t) s a then s else homeStart a 2 e s
    else s
/-- The homing checks of R318 that the position decides. -/
def homeChecks (a : Nat) (s : State) : State :=
  let x := axisOf s a
  match headEntry a s with
  | none => s
  | some e =>
    if !e.home || x.ending.isSome then s
    else
      let r := e.record
      let went := (pdiff (cmdPos a s) x.homeFrom).natAbs
      if x.homeStep = 2 ∧ went > (sext 64 (bytesAt r 16 8)).toNat then axisFault a 6 s
      else if x.homeStep = 2 ∧ axisSource a s = 0 ∧ pdiff (measPos a s) x.homeFromPos * hrDir r < -4096 then axisFault a 8 s
      else if x.homeStep = 3 ∧ went > bytesAt r 12 4 then axisFault a 6 s
      else if x.homeStep = 4 ∧ hrIndexed r ∧ switchActive a (hrTarget r) s ∧ !x.latched ∧ went > bytesAt r 12 4 then axisFault a 6 s
      else s
/-- A new measured position of an axis: the cameras' position compare and samples, and placement's sample (R195, R330, R341). -/
def newPosition (a : Nat) (old : Int) (sample : Bool) (s : State) : State :=
  let new := measPos a s
  if old = new ∧ !sample then s
  else
    let s := camCompare a old new s
    if sample then
      let s := if a < 2 then finishReady none (camSample a new s) else s
      if a = 0 then settlePass [] (placeSample new s) else s
    else s
/-- The following error of an encoder axis (R310). -/
def followCheck (a : Nat) (s : State) : State :=
  if axisSource a s ≠ 0 then s
  else
    let err := (pdiff (measPos a s) (cmdPos a s)).natAbs
    let s := peak R.MOT_FOLLOW_PEAK (min err (2 ^ 32 - 1)) s a
    if err > rd R.MOT_FOLLOW_LIMIT s a then axisFault a 1 s else s
/-- A run of step overruns ends: it is reported once, with its length and its shortest period (R311, R320). -/
def endOverrun (a : Nat) (s : State) : State :=
  let x := axisOf s a
  if x.overrun = 0 then s
  else
    postEvent 139 a 1 0 [(0, 1, (x.overrunCause : Nat)), (4, 4, (min x.overrunMin (2 ^ 32 - 1) : Nat)), (8, 4, (min x.overrun (2 ^ 32 - 1) : Nat))]
      (modAxis a (fun x => { x with overrun := 0, overrunMin := 0, overrunCause := 0 }) s)
/-- A step-input axis at one frame: it follows the interpolated position; true where that has not moved since the last frame (R197,
R303, R311).  A run of overruns is over once the steps have stopped for 2^20 ns (log entry 58). -/
def stepFrame (a : Nat) (s : State) : Bool × State :=
  let p := wrap48 (stepPosition a s)
  let still := decide (p = (axisOf s a).frameCmd)
  let s := if s.time.ns - (axisOf s a).stepNs > 2 ^ 20 then endOverrun a s else s
  (still, modAxis a (fun x => { x with frameCmd := p }) (setCmd a p (setMeas a p s)))
/-- The command of a running profile at one frame: whether velocity and acceleration are 0, whether it is done (R298). -/
def profFrame (a : Nat) (p : Prof) (s : State) : Bool × Bool × State :=
  let p := { p with frames := p.frames + 1 }
  let v := evalProf p (frameTime p.frames)
  let done := profDone p && decide (v.2.1 = 0)
  let s := modAxis a (fun x => { x with prof := some p }) s
  let at_ : Int := match p.goal with
    | some g => if done then g else v.1.floor
    | none => v.1.floor
  (decide (v.2.1 = 0) && decide (v.2.2 = 0), done, setCmd a at_ s)
/-- One axis at one frame (R298, R301, R310, R311). -/
def axisFrame (a : Nat) (s : State) : State :=
  let x := axisOf s a
  let old := measPos a s
  let (still, done, s) := match x.prof with
    | none => if axisSource a s = 2 then (let r := stepFrame a s; (r.1, false, r.2)) else (true, false, s)
    | some p => if x.runHold then (true, false, s) else profFrame a p s
  let s := if axisSource a s = 1 then setMeas a (cmdPos a s) s else s
  let s := newPosition a old (axisSource a s == 1) s
  let s := homeChecks a (followCheck a s)
  let s := if done then cameToRest a s else s
  if (axisOf s a).linkStopped then s else sendFrame a still s
/-- The 2 µs motion-link frame of all six axes; what waited for the axes follows (R28, R33, R114, R216). -/
def doMotionLinkFrame (s : State) : State :=
  if modeOf s = 0 ∨ s.pwr.railsOff ∨ motionInReset s then s
  else
    let s := each [0, 1, 2, 3, 4, 5] axisFrame s
    let s := if s.dose.plc.decelPending ∧ !mayFire s then
        let d := if s.pwr.dip.isSome ∧ modeOf s = 4 then some (rd R.PWR_WARN_DMAX s) else none
        stopPlacement true d s
      else s
    let s := if s.dose.plc.runoutPending ∧ !mayFire s then
        replan 0 0 (rd R.MOT_ENV_AMAX s 0) (modPlc (fun c => { c with runoutPending := false }) s)
      else s
    let s := match nextPass s with
      | some p => if plcState s = pTurn ∧ s.dose.plc.turnOf = some p.index ∧ modeOf s = 4 ∧ s.ctl.request.isNone then turnMoves p s else s
      | none => s
    let s := if (!s.ctl.estopOpen.isEmpty || s.ctl.estopDisc) ∧ axesStill s ∧ s.ctl.estopStill.isNone then
        updateEnables (modCtl (fun c => { c with motionHold := true, estopStill := some s.time.ns }) s)
      else s
    tryComplete [] s
/-- MOTION_LINK_FRAME (R301). -/
def execMotionLinkFrame (s : State) : Host.Outcome State Fault Refusal := .next (doMotionLinkFrame s)

/-- 1 ms of RUN at hold current has passed: the profile starts (R304). -/
def doRunHoldExpiry (a : Nat) (s : State) : State :=
  if a < 6 ∧ (axisOf s a).runHold then
    modAxis a (fun x => { x with runHold := false, prof := x.prof.map (fun p => { p with start := nowE s, frames := 0 }) }) s
  else s
/-- RUN_HOLD_EXPIRY (R304). -/
def execRunHoldExpiry (axis : Nat) (s : State) : Host.Outcome State Fault Refusal := .next (doRunHoldExpiry axis s)

/-- The running entry ends: MOVE_DONE or HOMED, and the next entry starts (R299, R317, R320). -/
def doMoveComplete (a : Nat) (s : State) : State :=
  let x := axisOf s a
  match headEntry a s, x.ending with
  | some e, some st =>
    if a ≥ 6 ∨ x.prof.isSome then s
    else
      let s := setQueue a (x.queue.drop 1) (modAxis a (fun x => { x with running := false, ending := none, homeStep := 0, homeNext := 0 }) s)
      let rest := if rd R.MOT_FAULT s a ≠ 0 then mFault else if axisState a s = mStopped then mStopped
        else if rdb R.MOT_STATUS 7 s a then mStandstill else mStopped
      let s := setAxisState a rest s
      let s := if st = 0 ∧ e.home then
          postEvent (113 + 4 * a) a 0 e.cookie [(0, 1, (e.recIndex : Nat)), (1, 1, (hrTarget e.record : Nat)), (2, 6, x.homeCap), (8, 8, (x.homeCapTt : Nat))] s
        else moveDone a st e.cookie s
      startEntry a s
  | _, _ => s
/-- MOVE_COMPLETE (R299). -/
def execMoveComplete (axis : Nat) (s : State) : Host.Outcome State Fault Refusal := .next (doMoveComplete axis s)

/-! ### Position sources (R196, R309, R311) -/

/-- The latch trip is accepted: the position is set and the axis is homed; the park move follows at rest (R317 steps 5 and 6). -/
def homeSet (a : Nat) (e : QEntry) (s : State) : State :=
  let x := axisOf s a
  let shift := sext 64 (bytesAt e.record 24 8) - x.homeCap
  let s := setCmd a (cmdPos a s + shift) (setMeas a (measPos a s + shift) s)
  let s := modAxis a (fun x => { x with prof := x.prof.map (fun p => { p with x := p.x + (shift : Rat) }), homeStep := 5, homeNext := 6 }) s
  let s := setHomed a true s
  if atRest a s then homeStart a 6 e s else s
/-- The latch step takes its capture and decelerates (R317 step 4). -/
def homeLatch (a : Nat) (s : State) : State :=
  homeBrake a (modAxis a (fun x => { x with latched := true, homeCap := measPos a s, homeCapTt := ttNow s }) s)
/-- A count edge of an encoder: one count up or down, with the Z level rising there (R196, R309). -/
def doPositionSample (a : Nat) (up z : Bool) (s : State) : State :=
  if a ≥ 6 ∨ axisSource a s ≠ 0 ∨ rdb R.MOT_FAULT 1 s a then s
  else
    let old := measPos a s
    let dir : Int := if up != rdb R.MOT_CFG 3 s a then 256 else -256
    let s := followCheck a (newPosition a old true (setMeas a (old + dir) s))
    match headEntry a s with
    | some e =>
      let x := axisOf s a
      if z && e.home && x.homeStep == 4 && hrIndexed e.record && switchActive a (hrTarget e.record) s && !x.latched && x.ending.isNone then
        homeSet a e (homeLatch a s)
      else s
    | none => s
/-- POSITION_SAMPLE (R196). -/
def execPositionSample (axis : Nat) (up z : Bool) (s : State) : Host.Outcome State Fault Refusal := .next (doPositionSample axis up z s)

/-- One STEP edge on an axis whose source it is (R197, R303, R311).  A step that comes in time ends a run of overruns. -/
def stepEdge (a : Nat) (dir setupBad : Bool) (s : State) : State :=
  if axisSource a s ≠ 2 then s
  else
    let x := axisOf s a
    let old := measPos a s
    let period := s.time.ns - x.stepNs
    let fast := decide (period < rd R.MOT_STEP_MIN s a) && decide (x.stepNs ≠ 0)
    let isOver := fast || setupBad
    let s := if isOver then s else endOverrun a s
    let s := modAxis a (fun x => { x with
      stepPos := x.stepPos + (if dir then -1 else 1)
      stepPrevNs := x.stepNs
      stepNs := s.time.ns
      stepDirChanged := x.stepNs == 0 || dir != x.stepDir
      stepDir := dir
      rested := false
      overrun := if isOver then x.overrun + 1 else 0
      overrunMin := if !isOver then 0 else if x.overrun = 0 then period else min x.overrunMin period
      overrunCause := if !isOver then 0 else if x.overrun = 0 then (if fast then 1 else 2) else x.overrunCause }) s
    let s := if isOver then bumpMot R.MOT_STEP_OVERRUNS a 139 [(0, 1, 3)] s else s
    let p := stepPosition a s
    newPosition a old true (setCmd a p (setMeas a p s))
/-- STEP_INPUT_EDGE: `dir` is the sampled direction, true for negative; `setupBad` a change of DIR inside its setup time (R311). -/
def execStepInputEdge (dir setupBad : Bool) (s : State) : Host.Outcome State Fault Refusal :=
  .next (each [0, 1, 2, 3, 4, 5] (fun a s => stepEdge a dir setupBad s) s)

/-- An encoder fault of R309. -/
def doEncoderFault (a cause channels : Nat) (s : State) : State :=
  if a ≥ 6 ∨ cause = 0 ∨ cause > 4 then s
  else
    let s := bumpMot R.MOT_ENC_ERRORS a 136 [(0, 1, 5)] s
    let s := postEvent 136 a 1 0 [(0, 1, (cause : Nat)), (1, 1, (channels % 8 : Nat)), (2, 6, measPos a s)] s
    if cause ≤ 3 ∧ axisSource a s = 0 then axisFault a 2 (setHomed a false s) else s
/-- ENCODER_FAULT (R309). -/
def execEncoderFault (axis cause channels : Nat) (s : State) : Host.Outcome State Fault Refusal := .next (doEncoderFault axis cause channels s)

/-! ### Switches (R312 to R316) -/

def modSwitch (a i : Nat) (f : Switch → Switch) (s : State) : State := modAxis a (fun x => { x with sw := tmod {} x.sw i f }) s
/-- The raw comparator reads the input as active (R312). -/
def rawActive (a i : Nat) (s : State) : Bool := (tget {} (axisOf s a).sw i).closed != rdb R.MOT_CFG (5 + i) s a
/-- A limit acts on an axis: a homing before its park move ends with HOME_LIMIT, unless the input is its own target; elsewhere the axis
stops, under placement with the recall of R316 (R315 to R318). -/
def limitTrip (a i : Nat) (s : State) : State :=
  match headEntry a s with
  | some e =>
    if e.home && (axisOf s a).homeStep != 6 then (if hrTarget e.record == i then s else axisFault a 5 s) else trip e.cookie s
  | none => trip 0 s
where
  trip (cookie : Nat) (s : State) : State :=
    let short := rdb R.SAF_AXIS_RULE a s
    let s := postEvent (114 + 4 * a) a 1 cookie [(0, 1, (i : Nat)), (1, 1, (if short then 2 else 1)), (2, 6, rdI R.MOT_HOME_CAPTURE s a),
      (8, 8, (rd R.MOT_HOME_CAPTURE_TT s a : Nat))] s
    let s := if ownedByPlacement a s then axisFault a 9 (limitRecall s) else s
    flushQueue a 4 (if short then shortAxis a 2 s else stopAxis a 2 none s)
/-- The executing homing whose target is input `i`, in a step before the park move. -/
def homingOn (a i : Nat) (s : State) : Option QEntry :=
  (headEntry a s).bind (fun e =>
    if e.home && hrTarget e.record == i && (axisOf s a).ending.isNone && (axisOf s a).homeStep != 6 then some e else none)
/-- A raw comparator edge of a supervised input (R314, R315, R317). -/
def doSwitchRawEdge (a i : Nat) (closed : Bool) (s : State) : State :=
  if a ≥ 6 ∨ i ≥ 3 then s
  else
    let first := (tget {} (axisOf s a).sw i).edges == 0
    let s := modSwitch a i (fun w => { w with closed, edges := w.edges + 1, firstNs := if first then s.time.ns else w.firstNs }) s
    let s := if first then wr R.MOT_HOME_CAPTURE_TT (ttNow s) (wrI R.MOT_HOME_CAPTURE (measPos a s) s a) a else s
    let s := bumpMot R.MOT_CHATTER_EDGES a 137 [(0, 1, (i : Nat)), (1, 1, 4)] s
    let w := tget {} (axisOf s a).sw i
    let s := if w.edges > rdf R.MOT_CHATTER_MAX 0 8 s a ∧ s.time.ns ≤ w.firstNs + 1000 * rd R.MOT_DEBOUNCE s a then axisFault a 4 s else s
    if !first || !rawActive a i s then s
    else
      match homingOn a i s with
      | some e =>
        let x := axisOf s a
        if x.homeStep = 2 then homeBrake a s
        else if x.homeStep = 4 ∧ !hrIndexed e.record then homeLatch a s
        else s
      | none => if i < 2 then limitTrip a i s else s
/-- SWITCH_RAW_EDGE (R314). -/
def execSwitchRawEdge (axis input : Nat) (closed : Bool) (s : State) : Host.Outcome State Fault Refusal := .next (doSwitchRawEdge axis input closed s)

/-- The comparator has held its state for MOT_DEBOUNCE: the state is accepted (R314, R317).  A latch trip that is not accepted is
tried again from rest, as a search is (log entry 58). -/
def doSwitchDebounceAccept (a i : Nat) (s : State) : State :=
  if a ≥ 6 ∨ i ≥ 3 ∨ (tget {} (axisOf s a).sw i).edges = 0 then s
  else
    let act := rawActive a i s
    let s := showSwitches a (modSwitch a i (fun w => { w with active := act, edges := 0 }) s)
    match homingOn a i s with
    | none => s
    | some e =>
      let x := axisOf s a
      if x.homeStep = 2 ∧ act then
        if atRest a s then homeStart a 3 e s else modAxis a (fun x => { x with homeNext := 3 }) s
      else if x.homeStep = 2 then (if atRest a s then homeStart a 2 e s else s)
      else if x.homeStep = 3 ∧ !act then homeBrake a (modAxis a (fun x => { x with homeNext := 4 }) s)
      else if x.homeStep = 4 ∧ act then
        if hrIndexed e.record then modAxis a (fun x => { x with homeFrom := cmdPos a s }) s
        else if x.latched then homeSet a e s else s
      else if x.homeStep = 4 ∧ x.latched then
        if atRest a s then homeStart a 4 e s else modAxis a (fun x => { x with homeNext := 4 }) s
      else s
/-- SWITCH_DEBOUNCE_ACCEPT (R314). -/
def execSwitchDebounceAccept (axis input : Nat) (s : State) : Host.Outcome State Fault Refusal := .next (doSwitchDebounceAccept axis input s)

/-- The class of a loop resistance: 0 OPENED, 1 CLOSED, 2 SHORT, 3 OPEN_WIRE, 4 INDETERMINATE (R312, R322). -/
def loopClass (ohm : Nat) : Nat :=
  if ohm < 400 then 2 else if 800 ≤ ohm ∧ ohm ≤ 1400 then 1 else if 3000 ≤ ohm ∧ ohm ≤ 5000 then 0 else if ohm > 20000 then 3 else 4
/-- One input is classified (R312, R313, R318). -/
def classify (a i ohm : Nat) (s : State) : State :=
  let c := loopClass ohm
  let s := wrf R.MOT_SWITCH_RAW (4 * i) 3 c s a
  if c ≤ 1 then
    let s := modSwitch a i (fun w =>
      let w := { w with bad := 0, good := min 3 (w.good + 1), wireFault := w.wireFault && decide (w.good + 1 < 3) }
      if w.edges = 0 then { w with closed := c == 1, active := (c == 1) != rdb R.MOT_CFG (5 + i) s a } else w) s
    showSwitches a s
  else
    let s := modSwitch a i (fun w => { w with bad := min 3 (w.bad + 1), good := 0 }) s
    let w := tget {} (axisOf s a).sw i
    if w.bad = 3 ∧ !w.wireFault then
      let s := showSwitches a (modSwitch a i (fun w => { w with wireFault := true }) s)
      let s := postEvent 137 a 1 0 [(0, 1, (i : Nat)), (1, 1, (if c = 3 then 1 else if c = 2 then 2 else 3)), (2, 2, (min ohm 65535 : Nat))] s
      if (homingOn a i s).isSome then axisFault a 7 s
      else if i < 2 then
        match (axisOf s a).prof with
        | none => s
        | some p =>
          let v := (evalProf p (frameTime p.frames)).2.1
          let toward := match p.goal with
            | some g => if i = 0 then decide (g < cmdPos a s) else decide (g > cmdPos a s)
            | none => if i = 0 then decide (v < 0) else decide (v > 0)
          if toward then limitTrip a i s else s
      else s
    else s
/-- SWITCH_CLASSIFY: the three loop resistances of an axis in Ω (R312). -/
def execSwitchClassify (axis rNeg rPos rHome : Nat) (s : State) : Host.Outcome State Fault Refusal :=
  .next (if axis < 6 then classify axis 2 rHome (classify axis 1 rPos (classify axis 0 rNeg s)) else s)

/-! ### MOT_CMD, MOT_FAULT, MOT_CFG (R300, R303, R307, R308, R311, R319, R323) -/

def doMotStop (a : Nat) (s : State) : State := if a < 6 ∧ (axisOf s a).running then stopAxis a 1 none s else s
/-- MOT_STOP: MOT_CMD.stop (R300). -/
def execMotStop (axis : Nat) (s : State) : Host.Outcome State Fault Refusal := .next (doMotStop axis s)
def doMotFlush (a : Nat) (s : State) : State := if a < 6 then flushQueue a 4 s else s
/-- MOT_FLUSH: MOT_CMD.flush (R300). -/
def execMotFlush (axis : Nat) (s : State) : Host.Outcome State Fault Refusal := .next (doMotFlush axis s)
def doMotDeclareHomed (a : Nat) (s : State) : State := if a < 6 ∧ axisSource a s = 2 then setHomed a true s else s
/-- MOT_DECLARE_HOMED: MOT_CMD.declare_homed (R311). -/
def execMotDeclareHomed (axis : Nat) (s : State) : Host.Outcome State Fault Refusal := .next (doMotDeclareHomed axis s)
def doMotClearHomed (a : Nat) (s : State) : State := if a < 6 then setHomed a false s else s
/-- MOT_CLEAR_HOMED: MOT_CMD.clear_homed (R319). -/
def execMotClearHomed (axis : Nat) (s : State) : Host.Outcome State Fault Refusal := .next (doMotClearHomed axis s)
/-- A write of MOT_CMD: its bits act in ascending order (R322). -/
def writeMotCmd (a v : Nat) (s : State) : State :=
  sif (bit 3 v) (doMotClearHomed a) (sif (bit 2 v) (doMotDeclareHomed a) (sif (bit 1 v) (doMotFlush a) (sif (bit 0 v) (doMotStop a) s)))

/-- A W1C write to MOT_FAULT; `healthy`: the encoder's signals have been healthy for 10 ms (R323). -/
def doMotFaultClear (a value : Nat) (healthy : Bool) (s : State) : State :=
  if a ≥ 6 then s
  else
    let gone : Nat → Bool := fun n => match n with
      | 0 => atRest a s
      | 1 => healthy
      | 2 => !(axisOf s a).linkBad
      | _ => true
    let clear := (onesOf 9 value).filter (fun n => rdb R.MOT_FAULT n s a && gone n)
    let s := each clear (fun n s => wrb R.MOT_FAULT n false s a) s
    let s := if clear.contains 2 then modAxis a (fun x => { x with linkStopped := false }) s else s
    if clear ≠ [] ∧ rd R.MOT_FAULT s a = 0 ∧ axisState a s = mFault then
      startEntry a (updateEnables (setAxisState a mStandstill (modAxis a (fun x => { x with rested := true }) s)))
    else updateEnables s
/-- MOT_FAULT_CLEAR (R323). -/
def execMotFaultClear (axis : Nat) (value : Word32) (healthy : Bool) (s : State) : Host.Outcome State Fault Refusal :=
  .next (doMotFaultClear axis value.toNat healthy s)

/-- An axis is halted for its RWH registers (R322). -/
def motHalted (a : Nat) (s : State) : Bool :=
  let st := axisState a s
  (st == mStopped || st == mStandstill || st == mFault) && (axisOf s a).queue.isEmpty
/-- A write of MOT_CFG; a change of source zeroes the positions and clears the homed flag (R308, R319). -/
def doMotSourceChange (a value : Nat) (s : State) : State :=
  if a ≥ 6 ∨ !motHalted a s then s
  else
    let old := axisSource a s
    let s := wr R.MOT_CFG (value % 4096) s a
    let s := if axisSource a s = old then s
      else modAxis a (fun x => { x with stepPos := 0, stepNs := 0, stepPrevNs := 0, stepDirChanged := true })
        (setHomed a false (setCmd a 0 (setMeas a 0 (endOverrun a s))))
    showSwitches a s
/-- MOT_SOURCE_CHANGE: a write to MOT_CFG (R308). -/
def execMotSourceChange (axis : Nat) (value : Word32) (s : State) : Host.Outcome State Fault Refusal := .next (doMotSourceChange axis value.toNat s)

def doStandstillDelayExpiry (a : Nat) (s : State) : State :=
  let x := axisOf s a
  if a < 6 ∧ x.prof.isNone ∧ x.queue = [] ∧ rd R.MOT_STANDSTILL_DELAY s a ≠ 0 then modAxis a (fun x => { x with rested := true }) s else s
/-- STANDSTILL_DELAY_EXPIRY (R303). -/
def execStandstillDelayExpiry (axis : Nat) (s : State) : Host.Outcome State Fault Refusal := .next (doStandstillDelayExpiry axis s)

/-- The 100 ms retest of a motion link: 0 pass, else the cause of R320 (R307). -/
def doMotionLinkRetest (a cause : Nat) (s : State) : State :=
  if a ≥ 6 ∨ cause > 3 then s
  else if cause = 0 then modAxis a (fun x => { x with linkBad := false }) s
  else motionLinkFault a cause s
/-- MOTION_LINK_RETEST (R307). -/
def execMotionLinkRetest (axis cause : Nat) (s : State) : Host.Outcome State Fault Refusal := .next (doMotionLinkRetest axis cause s)

end Sys2Proof.Machine
end

