-- ==== Sys2Proof/Machine/Bezel.lean ====
section
/-! DEFINITION. Bezel (R486 to R495): the lock, the envelope check, E-stop, beam permit, relay and enable feedback; and the mode
commands of hold causes and bring-up (R26, R27, R497, R507). -/

namespace Sys2Proof.Machine

/-- The Bezel limits are locked (R486). -/
def locked (s : State) : Bool := rdb R.SAF_CTRL 0 s
/-- EV_LIMIT_LOCKED (R487, R517). -/
def postLocked2 (cause : Nat) (s : State) : State :=
  postEvent 227 0 (if cause = 2 then 1 else 0) 0 [(0, 1, (cause : Nat)), (4, 4, (rd R.SAF_MAX_WIDTH s : Nat)), (8, 4, (rd R.SAF_LINE_SUM_MAX s : Nat)),
    (12, 2, (rdf R.SAF_DUTY_MAX 0 16 s : Nat))] s
/-- The lock is set (R486, R487); a second write has no further effect (R518). -/
def doSafLock (s : State) : State := if locked s then s else postLocked2 1 (wr R.SAF_CTRL 3 s)
/-- SAF_LOCK: the firmware's write of 1 to SAF_CTRL.lock (R486). -/
def execSafLock (s : State) : Host.Outcome State Fault Refusal := .next (doSafLock s)
/-- A firmware write to a locked register: no effect, and the first of the lock period is reported (R487). -/
def lockedWrite (s : State) : State := if s.ctl.lockWrite then s else postLocked2 2 (modCtl (fun c => { c with lockWrite := true }) s)

/-- The position and the speed that the envelope check uses (R490); `speed` is the measured one of an encoder axis, and of an axis whose
command is the step input. -/
def envSample (a speed : Nat) (s : State) : Int × Nat :=
  match axisSource a s with
  | 0 => (measPos a s, speed)
  | 2 => (cmdPos a s, speed)
  | _ =>
    let v : Rat := match (axisOf s a).prof with
      | none => 0
      | some p => if (axisOf s a).runHold then 0 else (evalProf p (frameTime p.frames)).2.1
    (cmdPos a s, (absR v).floor.toNat)
/-- The kind of R490's check that fails on an axis: 1 POSITION, 2 SPEED, 0 none. -/
def envKind (a speed : Nat) (s : State) : Nat :=
  let (pos, v) := envSample a speed s
  let margin : Int := (rdf R.SAF_ENV_MARGIN 0 32 s : Nat)
  if homed a s && (decide (pos < rdI R.MOT_ENV_MIN s a - margin) || decide (pos > rdI R.MOT_ENV_MAX s a + margin)) then 1
  else if v * 100 > rd R.MOT_ENV_VMAX s a * (100 + rdf R.SAF_ENV_MARGIN 32 8 s) then 2
  else 0
/-- The envelope check of one axis (R490, R491). -/
def envCheck (a speed : Nat) (s : State) : State :=
  let kind := envKind a speed s
  let bad := s.ctl.envBad.contains a
  if kind = 0 then
    if bad then
      tripGone (· == (4, a)) (modCtl (fun c => { c with envBad := c.envBad.filter (· != a) }) s)
    else s
  else if bad then s
  else
    let (pos, v) := envSample a speed s
    let limit := if kind = 1 then (if pos < rdI R.MOT_ENV_MIN s a then toBits 32 (rdI R.MOT_ENV_MIN s a) else toBits 32 (rdI R.MOT_ENV_MAX s a)) else rd R.MOT_ENV_VMAX s a
    let s := modCtl (fun c => { c with envBad := a :: c.envBad }) s
    let s := bezelTrip 4 a (if kind = 1 then toBits 32 pos else v) limit 0 s
    let s := postEvent 230 a 2 0 [(0, 1, (kind : Nat)), (2, 6, pos), (8, 4, (v : Nat))] s
    shortAxis a 1 s
/-- ENVELOPE_CHECK: every axis, with the measured speeds of encoder axes in pu/ms (R490). -/
def execEnvelopeCheck (speeds : List Nat) (s : State) : Host.Outcome State Fault Refusal :=
  .next (if modeOf s = 0 then s else each [0, 1, 2, 3, 4, 5] (fun a s => envCheck a (speeds.getD a 0) s) s)

/-! ### E-stop, permit, feedback (R493 to R495) -/

/-- The channels that count as open. -/
def estopMask (s : State) : Nat := if s.ctl.estopDisc then 3 else maskOf s.ctl.estopOpen
/-- EV_ESTOP OPENED or DISCREPANCY (R517). -/
def postEstop (cause ms : Nat) (s : State) : State :=
  postEvent 225 0 (if cause = 3 then 0 else 2) 0 [(0, 1, (cause : Nat)), (1, 1, (estopMask s : Nat)), (4, 4, (ms : Nat))] s
/-- What follows the opening of the E-stop (R26, R493): the beam drops, EV_ESTOP OPENED, the axes of SAF_AXIS_RULE go to SHORT, the
others decelerate, and the enables are withheld once every axis is at rest. -/
def estopOpened (s : State) : State :=
  let s := modCtl (fun x => { x with estopNs := s.time.ns, estopStill := none }) s
  let s := postEstop 1 0 (updateBeam 1 s)
  let s := each (onesOf 6 (rdf R.SAF_AXIS_RULE 8 6 s)) (fun a s => shortAxis a 1 s) s
  let s := holdCause 0 s
  if axesStill s then updateEnables (modCtl (fun x => { x with motionHold := true, estopStill := some s.time.ns }) s) else s
/-- An E-stop channel opens, 0 A or 1 B (R26, R493). -/
def doEstopOpen (c : Nat) (s : State) : State :=
  if c > 1 ∨ s.ctl.estopOpen.contains c then s
  else
    let first := s.ctl.estopOpen.isEmpty && !s.ctl.estopDisc
    let s := wrb R.SAF_STATUS (2 + c) false (modCtl (fun x => { x with estopOpen := c :: x.estopOpen, estopReset := false }) s)
    let s := if s.ctl.estopOpen.length = 2 then modCtl (fun x => { x with estopDisc := false }) s else s
    if first then estopOpened s else s
/-- ESTOP_OPEN (R493). -/
def execEstopOpen (channel : Nat) (s : State) : Host.Outcome State Fault Refusal := .next (doEstopOpen channel s)
/-- A channel closes; once both are closed the E-stop is clear again (R493).  Without IO_24V it reads open (R534). -/
def doEstopClose (c : Nat) (s : State) : State :=
  if !s.ctl.estopOpen.contains c || !s.ctl.pin.ioPresent then s
  else
    let s := wrb R.SAF_STATUS (2 + c) true (modCtl (fun x => { x with estopOpen := x.estopOpen.filter (· != c) }) s)
    if !s.ctl.estopOpen.isEmpty || s.ctl.estopDisc then s
    else
      let ms := match s.ctl.estopStill with
        | some t => (t - s.ctl.estopNs) / 1000000
        | none => 0xFFFFFFFF
      let s := wrb R.SAF_STATUS 4 false (postEstop 3 ms s)
      updateBeam 1 (updateEnables (modCtl (fun x => { x with motionHold := false }) s))
/-- ESTOP_CLOSE (R493). -/
def execEstopClose (channel : Nat) (s : State) : Host.Outcome State Fault Refusal := .next (doEstopClose channel s)
def doEstopDiscrepancy (s : State) : State :=
  if s.ctl.estopOpen.length = 1 ∧ !s.ctl.estopDisc then
    postEstop 2 0 (wrb R.SAF_STATUS 4 true (modCtl (fun x => { x with estopDisc := true }) s))
  else s
/-- ESTOP_DISCREPANCY: the channels have disagreed for disc_ms (R493). -/
def execEstopDiscrepancy (s : State) : Host.Outcome State Fault Refusal := .next (doEstopDiscrepancy s)
def doEstopStopTimeout (s : State) : State :=
  if estopMask s ≠ 0 then updateEnables (modCtl (fun x => { x with motionHold := true }) s) else s
/-- ESTOP_STOP_TIMEOUT: stop_ms after an opening (R493). -/
def execEstopStopTimeout (s : State) : Host.Outcome State Fault Refusal := .next (doEstopStopTimeout s)
/-- The permit input changes; without IO_24V it reads inactive (R534). -/
def doBeamPermitChange (active : Bool) (s : State) : State :=
  if active = s.ctl.permit || (active && !s.ctl.pin.ioPresent) then s
  else
    let s := updateBeam 2 (wrb R.SAF_STATUS 1 active (modCtl (fun c => { c with permit := active }) s))
    if active then s else holdCause 2 s
/-- BEAM_PERMIT_CHANGE (R18, R26). -/
def execBeamPermitChange (active : Bool) (s : State) : Host.Outcome State Fault Refusal := .next (doBeamPermitChange active s)
/-- The command of port `p`'s BEAM_ENABLE output (R494). -/
def enableOf (p : Nat) (s : State) : Bool := s.ctl.beamEnable && !(portOf s p).enableHeld
def doEnableFeedbackFault (p : Nat) (active : Bool) (s : State) : State :=
  if p ≥ 4 then s
  else if active = enableOf p s then tripGone (· == (6, p)) s
  else bezelTrip 6 p (b2n active) (b2n (enableOf p s)) 0 s
/-- ENABLE_FEEDBACK_FAULT: port `p`'s readback has read `active` for 1 µs (R494). -/
def execEnableFeedbackFault (port : Nat) (active : Bool) (s : State) : Host.Outcome State Fault Refusal := .next (doEnableFeedbackFault port active s)
def doRelayFeedbackFault (closed : Bool) (s : State) : State :=
  let s := wrb R.SAF_STATUS 6 closed s
  if closed = s.ctl.relay then tripGone (fun t => t.1 == 5) s else bezelTrip 5 0xFF (b2n closed) (b2n s.ctl.relay) 0 s
/-- RELAY_FEEDBACK_FAULT: the feedback contact has read `closed` for 20 ms (R495). -/
def execRelayFeedbackFault (closed : Bool) (s : State) : Host.Outcome State Fault Refusal := .next (doRelayFeedbackFault closed s)

/-! ### Hold causes (R26, R27, R38) and bring-up (R497, R507) -/

/-- The clearing condition of a hold cause (R26, R492). -/
def clearable (n : Nat) (s : State) : Bool :=
  match n with
  | 0 => estopMask s == 0 && s.ctl.estopReset
  | 1 => !rdb R.SAF_STATUS 7 s && !s.ctl.beamEnable && axesStill s && s.pwr.due.isNone && !s.pwr.asserted.contains 6
  | 2 => s.ctl.permit
  | 3 => (match dieReading s with | some d => decide (d < sext 16 (rdf R.THM_THROTTLE_START 0 16 s)) | none => false)
  | 4 => s.thm.hardBy.all (fun i => tget 0 s.thm.band i == 0)
  | 5 => s.ctl.coolant
  | 7 => (List.range 6).all (fun a => rd R.MOT_FAULT s a == 0)
  | 8 => !rdb R.PWR_STATUS 1 s
  | 9 => s.ctl.lostPorts.all (fun p => lnkUp p s)
  | 11 => decide (s.dose.mnd.log.length < 16384)
  | 12 => headOk s
  | 13 => false
  | _ => true
/-- A cause bit is cleared, and with it what it remembers of who set it (R26). -/
def clearCause (n : Nat) (s : State) : State :=
  let s := wrb R.CTL_HOLD_CAUSE n false s
  if n = 4 then { s with thm := { s.thm with hardBy := [] } }
  else if n = 9 then modCtl (fun c => { c with lostPorts := [] }) s
  else s
/-- A W1C write to CTL_HOLD_CAUSE (R27); the firmware cannot clear ESTOP, BEZEL_TRIP or BEAM_PERMIT (R38). -/
def doHoldCauseClear (fw : Bool) (value : Nat) (s : State) : State :=
  each (onesOf 17 value) (fun n s => if clearable n s && !(fw && decide (n ≤ 2)) then clearCause n s else s) s
/-- HOLD_CAUSE_CLEAR (R27). -/
def execHoldCauseClear (fw : Bool) (value : Word32) (s : State) : Host.Outcome State Fault Refusal := .next (doHoldCauseClear fw value.toNat s)
def doCtlBringupDoneWrite (s : State) : State := if rdf R.CTL_LOADER 0 3 s = 4 then bringupCheck (wrb R.CTL_BRINGUP_DONE 0 true s) else s
/-- CTL_BRINGUP_DONE_WRITE: the running firmware writes 1 (R497). -/
def execCtlBringupDoneWrite (s : State) : Host.Outcome State Fault Refusal := .next (doCtlBringupDoneWrite s)
def doBringupDoneTimeout (s : State) : State :=
  if modeOf s = 2 ∧ rdf R.CTL_LOADER 0 3 s = 4 ∧ !rdb R.CTL_BRINGUP_DONE 0 s then endBringup (wrb R.CTL_HOLD_CAUSE 15 true s) else s
/-- BRINGUP_DONE_TIMEOUT: 10 s of RUNNING without CTL_BRINGUP_DONE (R497). -/
def execBringupDoneTimeout (s : State) : Host.Outcome State Fault Refusal := .next (doBringupDoneTimeout s)
/-- CTL_HOLD_REQ: the firmware writes 1 (R507). -/
def execCtlHoldReq (s : State) : Host.Outcome State Fault Refusal := .next (holdCause 15 s)

end Sys2Proof.Machine
end

