-- ==== Sys2Proof/Machine/Firmware.lean ====
section
/-! DEFINITION. The firmware (R496 to R507): OP_LOAD_FIRMWARE, authentication of an image, policy records, OP_POLICY_SET, the
rollback level; and the debug unlock (R508, R509). -/

namespace Sys2Proof.Machine

/-! ### Policy records (R502 to R506) -/

/-- The value length of a record type, none for a reserved type (R503). -/
def recLength (ty : Nat) : Option Nat :=
  match ty with
  | 0x01 => some 64 | 0x02 => some 40 | 0x03 => some 2 | 0x10 => some 40 | 0x11 => some 12 | 0x12 => some 32 | 0x13 => some 1
  | 0x14 => some 12 | 0x15 => some 12 | 0x16 => some 12 | 0x17 => some 200 | 0x18 => some 21 | 0x19 => some 5 | 0x20 => some 8
  | _ => none
/-- OP_POLICY_SET may carry the type (R503). -/
def recHost (ty : Nat) : Bool := ty == 0x13 || ty == 0x15 || ty == 0x20
/-- The clamped value of a register's fields. -/
def clampReg (r : RegInfo) (v : Nat) : Nat := r.clamp.foldl (fun v c => setBits c.1 c.2.1 (clampN c.2.2.1 c.2.2.2 (bits c.1 c.2.1 v)) v) (v &&& r.mask)
/-- The registers that a record writes whole, with instance and value (R503); a throttle start above 1,600 counts as 1,600 (R472). -/
def recFields (ty : Nat) (v : List Byte) : List (RegInfo × Nat × Nat) :=
  let n := bytesAt v
  match ty with
  | 0x01 =>
    [(R.SAF_MAX_WIDTH, 0, n 0 2), (R.SAF_LINE_SUM_MAX, 0, n 4 4), (R.SAF_DUTY_MAX, 0, n 8 2), (R.SAF_ENV_MARGIN, 0, n 12 8), (R.SAF_AXIS_RULE, 0, n 20 4),
     (R.SAF_ESTOP_CFG, 0, n 24 4), (R.THM_THROTTLE_START, 0, if sext 16 (n 28 2) > 1600 then 1600 else n 28 2)] ++
    (List.range 8).map (fun i => (R.THM_REMOTE_LIMIT, i, n (32 + 4 * i) 4))
  | 0x02 =>
    let a := n 0 1
    [(R.MOT_ENV_VMAX, a, n 8 4), (R.MOT_ENV_AMAX, a, n 12 4), (R.MOT_ENV_JMAX, a, n 16 4), (R.MOT_ENV_DMAX, a, n 20 4), (R.MOT_ENV_MIN, a, n 24 8),
     (R.MOT_ENV_MAX, a, n 32 8)]
  | 0x11 => [(R.THM_DWELL_K, 0, n 0 4), (R.THM_SCALE_K, 0, n 4 2), (R.THM_HEAD_SCALE, 0, n 6 2), (R.THM_SUPPLY_LIMIT, 0, n 8 4)]
  | 0x12 => [(R.THM_CAL_ITEM, n 0 1, n 1 1 + 16 * n 2 1 + 2 ^ 16 * n 4 2)]
  | 0x13 => [(R.MND_CTRL, 0, n 0 1)]
  | 0x14 => [(R.PWR_SETTLE, 0, n 0 4), (R.PWR_SUPPLY_HOLD, 0, n 4 4), (R.PWR_WARN_DMAX, 0, n 8 4)]
  | 0x15 => [(R.DPI_LEAD_MIN, 0, n 0 4), (R.DPI_MISS_HOLD, 0, n 4 4), (R.DPI_START_WAIT, 0, n 8 4)]
  | 0x16 => (R.PLC_ERR_LIMIT, 0, n 0 4) :: [0, 1, 2, 3].map (fun p => (R.LNK_RECALL_MARGIN, p, n 8 4))
  | 0x17 =>
    (List.range 32).flatMap (fun i => [(R.ARB_SLOT_BANK0, i, n (4 * i) 4), (R.ARB_SLOT_BANK1, i, n (4 * i) 4)]) ++
    (List.range 16).map (fun i => (R.ARB_CFG, i, n (128 + 4 * i) 4)) ++ [(R.ARB_OWED_MAX, 0, n 192 4), (R.ARB_WAIT_BREAK, 0, n 196 4)]
  | 0x18 =>
    [(R.TSY_GAINS, 0, n 0 4), (R.TSY_MAX_PPB, 0, n 4 4), (R.TSY_STEP_LIMIT, 0, n 8 4), (R.TSY_LOCK_CFG, 0, n 12 4), (R.TSY_HOLDOVER, 0, n 16 4)]
  | _ => []
/-- The values of a record lie in range: of the fields that are no register, and of every register (R505). -/
def recValid (ty : Nat) (v : List Byte) : Bool :=
  let b := fun i => bytesAt v i 1
  (match ty with
   | 0x02 => decide (b 0 ≤ 5)
   | 0x03 => decide (0 < bytesAt v 0 2)
   | 0x10 => decide (b 0 ≤ 5) && decide (b 1 ≤ 15) && decide (b 2 ≤ 2) && decide (b 3 ≤ 3)
   | 0x12 => decide (b 0 ≤ 6) && (decide (b 1 ≤ 8) || b 1 == 15) && decide (b 2 ≤ 7) && decide (b 6 ≤ 15)
   | 0x16 => decide (b 4 ≤ 1) && decide (b 5 ≤ 1)
   | 0x18 => decide (b 20 ≤ 1)
   | 0x19 => decide (b 4 ≤ 7)
   | 0x20 => decide (b 0 ≤ 15) && decide (b 1 ≤ 15)
   | _ => true) && (recFields ty v).all (fun e => clampReg e.1 e.2.2 == e.2.2)
/-- A record's check fails with a cause of EV_POLICY_REJECT: 1 type, 2 version, 3 length, 4 value, 5 not settable. -/
def recCause (host : Bool) (ty ver len : Nat) (v : List Byte) : Option Nat :=
  match recLength ty with
  | none => some 1
  | some n =>
    if ver ≠ 1 then some 2 else if len ≠ n ∨ v.length < n then some 3 else if host && !recHost ty then some 5
    else if recValid ty v then none else some 4
/-- The firmware's write of a register from policy. -/
def wrPolicy (r : RegInfo) (v : Nat) (s : State) (i : Nat := 0) : State := wr r (clampReg r v) s i
/-- A register that the Bezel lock holds is written only while it is not locked (R486, R487). -/
def wrLocked (r : RegInfo) (v : Nat) (s : State) (i : Nat := 0) : State := if locked s then lockedWrite s else wrPolicy r v s i
/-- A record is applied (R503): its registers, then what it sets beside them. -/
def applyRecord (ty : Nat) (v : List Byte) (s : State) : State :=
  let n := bytesAt v
  let bezel := ty == 1 || ty == 2
  let s := each (recFields ty v) (fun e s => if bezel then wrLocked e.1 e.2.2 s e.2.1 else wrPolicy e.1 e.2.2 s e.2.1) s
  match ty with
  | 0x01 => doSafLock s
  | 0x03 => if rdb R.RST_WDOG_CFG 31 s then s else wr R.RST_WDOG_CFG (2 ^ 31 + 2 ^ 16 + n 0 2) s
  | 0x10 => modCtl (fun c => { c with homing := tset c.homing (16 * n 0 1 + n 1 1) v }) s
  | 0x12 => modCtl (fun c => { c with calItems := tset c.calItems (n 0 1) v }) s
  | 0x16 =>
    let s := wrb R.PLC_CTRL 5 (bit 0 (n 4 1)) s
    each [0, 1, 2, 3] (fun p s => wrb R.LNK_CTRL 5 (bit 0 (n 5 1)) s p) s
  | 0x18 => wrb R.TSY_CTRL 4 (bit 0 (n 20 1)) s
  | 0x19 => modCtl (fun c => { c with holdRules := v }) s
  | 0x20 => modCtl (fun c => { c with schedules := tset c.schedules (n 0 1) v }) s
  | _ => s
/-- The records of a policy section as (offset, type, version, length, value), as far as headers lie in it (R502). -/
def policyRecords : Nat → Nat → List Byte → List (Nat × Nat × Nat × Nat × List Byte)
  | 0, _, _ => []
  | fuel + 1, off, bs =>
    if bs.length < 8 then []
    else
      let len := bytesAt bs 2 2
      let step := 8 + (len + 7) / 8 * 8
      (off, bytesAt bs 0 2, bytesAt bs 4 1, len, (bs.drop 8).take len) :: policyRecords fuel (off + step) (bs.drop step)
/-- EV_POLICY_REJECT (R517). -/
def policyReject (origin cause ty off : Nat) (s : State) : State :=
  postEvent 234 0 1 0 [(0, 1, (origin : Nat)), (1, 1, (cause : Nat)), (2, 2, (ty : Nat)), (4, 4, (off : Nat))] s
/-- The records of a loaded image are applied in section order (R505): how many, and how many were rejected. -/
def applyPolicy (bs : List Byte) (s : State) : Nat × Nat × State :=
  let recs := policyRecords (bs.length / 8 + 1) 0 bs
  let (ok, bad, limits, s) := recs.foldl (fun (a : Nat × Nat × Bool × State) r =>
    match recCause false r.2.1 r.2.2.1 r.2.2.2.1 r.2.2.2.2 with
    | none => (a.1 + 1, a.2.1, a.2.2.1 || r.2.1 == 1, applyRecord r.2.1 r.2.2.2.2 a.2.2.2)
    | some c => (a.1, a.2.1 + 1, a.2.2.1, policyReject 1 c r.2.1 r.1 a.2.2.2)) (0, 0, false, s)
  if limits then (ok, bad, s)
  else (ok, bad, holdCause 15 (if recs.any (fun r => r.2.1 == 1) then s else policyReject 1 6 1 0 s))
/-- The registers of a host-settable record can be written: those of MND and DPI while their blocks are halted (R506). -/
def recWritable (ty : Nat) (s : State) : Bool :=
  if ty = 0x13 then rdf R.MND_STATUS 0 2 s == 0 else true
/-- OP_POLICY_SET, its records read: all or nothing; the records are applied as their registers become writable (R506). -/
def policySetDone (k : Nat) (j : Job) (bs : List Byte) (s : State) : State :=
  let recs := policyRecords (bs.length / 8 + 1) 0 bs
  match recs.findSome? (fun r => (recCause true r.2.1 r.2.2.1 r.2.2.2.1 r.2.2.2.2).map (fun c => (c, r.2.1, r.1))) with
  | some (c, ty, off) => finish k j.index stRefused 1 (policyReject 2 c ty off s)
  | none =>
    if recs.all (fun r => recWritable r.2.1 s) then
      finish k j.index stOk 0 (each recs (fun r s => applyRecord r.2.1 r.2.2.2.2 s) s)
    else
      let now := recs.filter (fun r => recWritable r.2.1 s)
      modJob k j.index (fun j => { j with scratch := bs, phase := 1 }) (each now (fun r s => applyRecord r.2.1 r.2.2.2.2 s) s)
/-- Policy records that waited for their registers are applied (R506). -/
def policyWaiting (s : State) : State :=
  each (List.range 32) (fun k s =>
    match (ringInt s k).jobs.find? (fun j => dOpcode j.desc == 0x0B && j.phase == 1) with
    | none => s
    | some j =>
      let recs := policyRecords (j.scratch.length / 8 + 1) 0 j.scratch
      if recs.all (fun r => recWritable r.2.1 s) then
        finish k j.index stOk 0 (each (recs.filter (fun r => r.2.1 == 0x13)) (fun r s => applyRecord r.2.1 r.2.2.2.2 s) s)
      else s) s
def doPolicySet (k : Nat) (d : Desc) (s : State) : State :=
  readDesc k d 0x0B (usedBits [(8, 8), (16, 4)]) [] (fun i s =>
    if dfld d 16 4 = 0 then finish k i stOk 0 s else startXfer k i (dfld d 8 8) (dfld d 16 4) false [] s) s
/-- POLICY_SET (R506). -/
def execPolicySet (ring : Nat) (d : Desc) (s : State) : Host.Outcome State Fault Refusal := .next (doPolicySet ring d s)

/-! ### The image (R498 to R501) -/

/-- A section of an image: type, offset, length, hallmark offset. -/
structure Section where
  type : Nat
  off : Nat
  len : Nat
  mark : Nat
  deriving DecidableEq, Repr
def sectionOf (bs : List Byte) (k : Nat) : Section :=
  let o := 32 + 32 * k
  { type := bytesAt bs o 1, off := bytesAt bs (o + 4) 4, len := bytesAt bs (o + 8) 4, mark := bytesAt bs (o + 12) 4 }
def sectionsOf (bs : List Byte) : List Section := [sectionOf bs 0, sectionOf bs 1]
def codeOf (bs : List Byte) : Section := ((sectionsOf bs).find? (fun x => x.type == 1)).getD (sectionOf bs 0)
def policyOf (bs : List Byte) : Section := ((sectionsOf bs).find? (fun x => x.type == 2)).getD (sectionOf bs 1)
def cut (bs : List Byte) (off len : Nat) : List Byte := (bs.drop off).take len
/-- The header is well formed (R498). -/
def headerOk (bs : List Byte) : Bool :=
  bytesAt bs 0 4 == 0x57464D4C && bytesAt bs 4 2 == 1 && bytesAt bs 6 2 == 2 && decide (bytesAt bs 12 1 ≤ 32) && zeroBytes bs 13 3 && zeroBytes bs 20 12 &&
  zeroBytes bs 96 160 && [0, 1].all (fun k => zeroBytes bs (33 + 32 * k) 3 && zeroBytes bs (52 + 32 * k) 12) &&
  (sectionsOf bs).map (·.type) != [1, 1] && (sectionsOf bs).all (fun x => x.type == 1 || x.type == 2) && (sectionsOf bs).map (·.type) != [2, 2] &&
  [0, 1].all (fun k => (sectionOf bs k).type == 1 || bytesAt bs (48 + 32 * k) 4 == 0)
/-- Sections and hallmarks lie in the image, at multiples of 512, and do not overlap (R498, R500). -/
def layoutOk (bs : List Byte) : Bool :=
  let n := bytesAt bs 16 4
  let parts := (0, 256) :: (sectionsOf bs).flatMap (fun x => [(x.off, x.len), (x.mark, 512)])
  decide (n ≤ bs.length) && (sectionsOf bs).all (fun x => x.off % 512 == 0 && x.mark % 512 == 0) && parts.all (fun p => decide (p.1 + p.2 ≤ n)) &&
  (List.range 5).all (fun i => (List.range i).all (fun j =>
    let a := parts.getD i (0, 0)
    let b := parts.getD j (0, 0)
    decide (a.1 + a.2 ≤ b.1 ∨ b.1 + b.2 ≤ a.1)))
/-- The fused rollback level (R501). -/
def fusedLevel (s : State) : Nat :=
  ((List.range 33).find? (fun n => !bit n (rd R.FUS_ROLLBACK s))).getD 32
/-- The first check of R500 that fails on a section, from BAD_HALLMARK on. -/
def sectionFault (bs : List Byte) (x : Section) (s : State) : Option Nat :=
  let h := cut bs x.mark 512
  let slot := bytesAt h 4 1
  if bytesAt h 0 4 ≠ 0x4B4D4C48 ∨ bytesAt h 5 1 ≠ x.type ∨ bytesAt h 12 4 ≠ x.len ∨ bytesAt h 7 1 ≠ 0 ∨ !zeroBytes h 256 256 ∨ (x.type = 2 ∧ bytesAt h 6 1 ≠ 0) then some 5
  else if (if x.type = 1 then decide (slot ≠ 0) else !(slot == 0 || slotUsable slot s)) then some 6
  else if sha384Bytes (cut h 64 96) ≠ fuseKey slot s then some 7
  else if sha384Bytes (cut bs x.off x.len) ≠ cut h 16 48 then some 8
  else if !Config.ecdsaP384 (cut h 64 96) (Config.sha384 (h.take 160)) (cut h 160 96) then some 9
  else if (if x.type = 1 then decide (bytesAt h 8 4 ≠ bytesAt bs 8 4 ∨ bytesAt h 6 1 ≠ bytesAt bs 12 1) else decide (bytesAt h 8 4 ≠ 0 ∧ bytesAt h 8 4 ≠ bytesAt bs 8 4)) then some 10
  else if x.type = 1 ∧ bytesAt bs 12 1 < fusedLevel s then some 11
  else none
/-- Authentication of an image of `len` bytes (R500): the failing check, with the section type and key slot it concerns. -/
def imageFault (len : Nat) (bs : List Byte) (s : State) : Option (Nat × Nat × Nat) :=
  let mib := 1048576
  let c := codeOf bs
  let p := policyOf bs
  let slotOf : Section → Nat := fun x => bytesAt bs (x.mark + 4) 1
  if !fusesValid s then some (1, 0, 0)
  else if len > 7 * mib / 2 ∨ bytesAt bs 16 4 > 7 * mib / 2 ∨ c.len > 3 * mib ∨ p.len > mib / 4 then some (2, 0, 0)
  else if !headerOk bs then some (3, 0, 0)
  else if !layoutOk bs then some (4, 0, 0)
  else
    match sectionFault bs c s with
    | some f => some (f, 1, slotOf c)
    | none => (sectionFault bs p s).map (fun f => (f, 2, slotOf p))
def setLoader (st : Nat) (s : State) : State := wrf R.CTL_LOADER 0 3 st s
/-- OP_LOAD_FIRMWARE, its image read: VERIFY, then RUNNING, or FAILED and at once WAIT_IMAGE (R496, R500, R505). -/
def firmwareDone (k : Nat) (j : Job) (bs : List Byte) (s : State) : State :=
  match imageFault (dfld j.desc 16 4) bs s with
  | some (code, sec, slot) =>
    let s := setLoader 1 (wrf R.CTL_LOADER 16 8 sec (wrf R.CTL_LOADER 8 8 code s))
    let s := postEvent 232 0 2 0 [(0, 1, (code : Nat)), (1, 1, (sec : Nat)), (2, 1, (slot : Nat)), (4, 4, (bytesAt bs 8 4 : Nat))] s
    finish k j.index stAuthFail code s
  | none =>
    let v := bytesAt bs 8 4
    let level := bytesAt bs 12 1
    let s := wr R.CTL_FW_ROLLBACK (level + 2 ^ 8 * fusedLevel s) (wr R.CTL_FW_VERSION v (setLoader 4 s))
    let p := policyOf bs
    let (ok, bad, s) := applyPolicy (cut bs p.off p.len) s
    let s := complete k j.index { status := stOk, result := v } s
    postEvent 233 0 0 0 [(0, 4, (v : Nat)), (4, 1, (level : Nat)), (5, 1, (fusedLevel s : Nat)), (6, 1, (bytesAt bs (p.mark + 4) 1 : Nat)),
      (8, 4, (ok : Nat)), (12, 4, (bad : Nat))] s
/-- The loader takes an image: LOADING, and VERIFY once it is read; an image beyond R498 is not read. -/
def loadImage (k i : Nat) (d : Desc) (s : State) : State :=
  let len := dfld d 16 4
  let s := setLoader 2 s
  if len > 3670016 ∨ len = 0 then
    match findJob k i s with
    | some j => firmwareDone k j [] s
    | none => s
  else startXfer k i (dfld d 8 8) len false [] s
/-- The loader reaches WAIT_IMAGE and takes an OP_LOAD_FIRMWARE that waits for it (R496). -/
def loaderWaits (s : State) : State :=
  if rdf R.CTL_LOADER 0 3 s ≠ 0 then s
  else
    let s := setLoader 1 s
    match (List.range 32).findSome? (fun k => ((ringInt s k).jobs.find? (fun j => dOpcode j.desc == 0x0A && j.cpl.isNone)).map (fun j => (k, j))) with
    | some (k, j) => loadImage k j.index j.desc s
    | none => s
def doLoadFirmware (k : Nat) (d : Desc) (s : State) : State :=
  readDesc k d 0x0A (usedBits [(8, 8), (16, 4)]) [] (fun i s =>
    if modeOf s ≠ 2 then finish k i stMode (modeOf s) s
    else
      match rdf R.CTL_LOADER 0 3 s with
      | 0 => s
      | 1 => loadImage k i d s
      | 4 => finish k i stRefused 2 s
      | _ => finish k i stRefused 1 s) s
/-- LOAD_FIRMWARE (R496). -/
def execLoadFirmware (ring : Nat) (d : Desc) (s : State) : Host.Outcome State Fault Refusal := .next (doLoadFirmware ring d s)
/-- A keyed write to CTL_ROLLBACK_COMMIT (R501). -/
def doRollbackCommit (value : Nat) (s : State) : State :=
  let level := rdf R.CTL_FW_ROLLBACK 0 6 s
  if value % 256 = 0xA5 ∧ rdf R.CTL_LOADER 0 3 s = 4 ∧ modeOf s = 3 ∧ level > fusedLevel s then
    let s := wr R.FUS_ROLLBACK (rd R.FUS_ROLLBACK s ||| (2 ^ level - 1)) s
    wrf R.CTL_FW_ROLLBACK 8 6 (fusedLevel s) s
  else s
/-- ROLLBACK_COMMIT (R501). -/
def execRollbackCommit (value : Word32) (s : State) : Host.Outcome State Fault Refusal := .next (doRollbackCommit value.toNat s)

/-! ### Debug unlock (R508, R509) -/

/-- EV_DEBUG_UNLOCK (R517). -/
def postUnlock (outcome scope slot reason : Nat) (s : State) : State :=
  postEvent 235 0 1 0 [(0, 1, (outcome : Nat)), (1, 1, (scope : Nat)), (2, 1, (slot : Nat)), (3, 1, (reason : Nat))] s
/-- The first ground of R508 on which an unlock is refused whatever the response. -/
def debugBar (slot : Nat) (s : State) : Nat :=
  if rdb R.FUS_FLAGS 1 s then 1 else if modeOf s = 4 ∨ modeOf s = 5 then 2 else if (slot = 1 ∨ slot = 2) ∧ !rdb R.FUS_FLAGS 2 s then 3 else 0
def doDbgRequest (value : Nat) (s : State) : State :=
  let scope := bits 0 3 value
  let slot := bits 8 2 value
  let s := modCtl (fun c => { c with debug := none }) s
  let bar := debugBar slot s
  if bar ≠ 0 then postUnlock 2 scope slot bar s
  else
    let (v, s) := fresh s
    let v := v % 2 ^ 256
    let s := each (List.range 8) (fun i s => wr R.DBG_CHALLENGE (bits (32 * i) 32 v) s i) s
    emit (.challenge 2 v) (modCtl (fun c => { c with debug := some (scope, slot) }) s)
/-- DBG_REQUEST (R508). -/
def execDbgRequest (value : Word32) (s : State) : Host.Outcome State Fault Refusal := .next (doDbgRequest value.toNat s)
/-- The bytes of consecutive register words. -/
def wordsOf (r : RegInfo) (n : Nat) (s : State) : List Byte := (List.range n).flatMap (fun i => leBytes 4 (rd r s i))
/-- The write of the last response word checks the signature (R508). -/
def doDbgResponse (value : Nat) (s : State) : State :=
  let s := wr R.DBG_RESPONSE value s 23
  match s.ctl.debug with
  | none => s
  | some (scope, slot) =>
    let s := modCtl (fun c => { c with debug := none }) s
    let key := wordsOf R.DBG_PUBKEY 24 s
    let msg := wordsOf R.DBG_CHALLENGE 8 s ++ wordsOf R.IDC_SERIAL 4 s ++ [BitVec.ofNat 8 scope, BitVec.ofNat 8 slot]
    let bar := debugBar slot s
    let reason := if bar ≠ 0 then bar
      else if !slotUsable slot s || sha384Bytes key != fuseKey slot s then 4
      else if !Config.ecdsaP384 key (Config.sha384 msg) (wordsOf R.DBG_RESPONSE 24 s) then 5
      else 0
    if reason ≠ 0 then postUnlock 2 scope slot reason s
    else postUnlock 1 scope slot 0 (wrf R.DBG_STATUS 4 3 scope (wrb R.DBG_STATUS 0 true s))
/-- DBG_RESPONSE: a write to the last word of the response (R508). -/
def execDbgResponse (value : Word32) (s : State) : Host.Outcome State Fault Refusal := .next (doDbgResponse value.toNat s)
def doDbgRelock (s : State) : State :=
  if rdb R.DBG_STATUS 0 s then postUnlock 3 (rdf R.DBG_STATUS 4 3 s) 0 0 (wrf R.DBG_STATUS 4 3 0 (wrb R.DBG_STATUS 0 false s)) else s
/-- DBG_RELOCK (R508). -/
def execDbgRelock (s : State) : Host.Outcome State Fault Refusal := .next (doDbgRelock s)
def doDbgReset (s : State) : State :=
  if rdb R.DBG_STATUS 0 s ∧ rdb R.DBG_STATUS 6 s then assertSource 8 s else s
/-- DBG_RESET: DBG_CTRL.reset under an unlock with scope CORE (R509). -/
def execDbgReset (s : State) : Host.Outcome State Fault Refusal := .next (doDbgReset s)

end Sys2Proof.Machine
end

