-- ==== Sys2Proof/Machine/Power.lean ====
section
/-! DEFINITION. Power supply and reset commands: power-up, mains, the supply warning and a dip (R33, R436 to R443), reset sources
and their releases (R444 to R451), block resets (R452), the backup cell (R456) and the fuse load (R457 to R459). -/

namespace Sys2Proof.Machine

/-- A saturating PWR counter posts EV_RAIL_FAULT with cause COUNTER (R461). -/
def bumpPwr (r : RegInfo) (s : State) : State :=
  bump r 1 (postEvent 20 0 2 0 [(1, 1, 4), (4, 4, ((r.base - 0x40000 : Nat) : Nat))]) s
/-- The supervisor's readings of BULK and BUS (R463); an open dip keeps its lowest BULK. -/
def supplyReading (bulk bus : Nat) (s : State) : State :=
  wr R.PWR_BUS (bus % 65536) (wr R.PWR_BULK (bulk % 65536) (modPwr (fun p => { p with lowest := min p.lowest bulk }) s))

/-! ### Power-up and mains (R436 to R438) -/

/-- The backup domain found its signature gone: every value in it returns to 0 (R453, R456). -/
def loseBackup (s : State) : State :=
  let s := { s with regs := s.regs.filter (fun e => !(R.all.any (fun r => regCovers r e.1 && r.level == Level.backup))) }
  let s := wrb R.HSV_STATUS 3 false (wrf R.HSV_STATUS 5 2 0 { s with head := {} })
  modPwr (fun p => { p with episode := false, mask := 0, fuseCut := false, backupLost := true }) s
/-- The power stage comes up, ending in the release of POR (R436, R438, R443, R448). -/
def powerUp (lnSwapped cellLost : Bool) (inp : ReleaseIn) (s : State) : State :=
  let s := if cellLost then loseBackup s else modPwr (fun p => { p with backupLost := false }) s
  let s := assertSource 0 (modPwr (fun p => { p with railsOff := false, dip := none }) s)
  let s := if lnSwapped then
      postEvent 20 0 0 0 [(1, 1, 3)] (wrb R.PWR_STATUS 3 true s)
    else s
  releaseSources 1 inp s
def doPowerUp (lnSwapped cellLost : Bool) (inp : ReleaseIn) (s : State) : State :=
  if s.pwr.railsOff ∧ !s.pwr.asserted.contains 9 then powerUp lnSwapped cellLost inp s else s
/-- POWER_UP (R436). -/
def execPowerUp (lnSwapped cellLost : Bool) (inp : ReleaseIn) (s : State) : Host.Outcome State Fault Refusal :=
  .next (doPowerUp lnSwapped cellLost inp s)

/-- Half a mains period in ns, at a frequency in 0.1 Hz. -/
def halfPeriod (freq : Nat) : Nat := 5 * 10 ^ 9 / freq
/-- The RMS voltage before a loss and the frequency, for EV_MAINS_LOSS (R461). -/
def mainsDetail (s : State) : List (Nat × Nat × Int) :=
  [(2, 2, (rdf R.PWR_MAINS 16 10 s : Nat)), (4, 2, (rdf R.PWR_MAINS 0 16 s : Nat))]
/-- A valid half-cycle peak (R437): within a loss the third in a row, each within 1.5 half-periods of the one before, declares
the return.  The absence runs to the start of the first of the three; it is a free value where E has started again within it (log entry
32). -/
def doMainsHalfCycle (rms freq : Nat) (s : State) : State :=
  let now := s.time.ns
  let show_ := fun s => wr R.PWR_MAINS (rms % 65536 + 2 ^ 16 * (freq % 1024)) s
  if s.pwr.lost then
    let run := if s.pwr.validRun ≠ 0 ∧ 2 * (now - s.pwr.runPeak) ≤ 3 * halfPeriod freq then s.pwr.validRun + 1 else 1
    if run ≥ 3 then
      let (v, s) := fresh s
      let gone := if s.pwr.lossCut then v else (now - s.pwr.lastPeak - 3 * halfPeriod freq) / 1000000
      let s := postEvent 19 0 0 0 ([(0, 1, (2 : Int)), (8, 4, ((gone : Nat) : Int))] ++ mainsDetail s) s
      show_ (wrb R.PWR_STATUS 0 true (modPwr (fun p => { p with lost := false, lossCut := false, validRun := 0, lastPeak := now }) s))
    else modPwr (fun p => { p with validRun := run, runPeak := now }) s
  else show_ (modPwr (fun p => { p with lastPeak := now }) s)
/-- MAINS_HALF_CYCLE (R437). -/
def execMainsHalfCycle (rms freq : Nat) (s : State) : Host.Outcome State Fault Refusal := .next (doMainsHalfCycle rms freq s)
def doMainsLoss (s : State) : State :=
  if s.pwr.lost then s
  else
    let s := modPwr (fun p => { p with lost := true, lossTt := ttNow s, validRun := 0 }) (wrb R.PWR_STATUS 0 false s)
    postEvent 19 0 1 0 ([(0, 1, (1 : Int))] ++ mainsDetail s) (bumpPwr R.PWR_MAINS_LOSSES s)
/-- MAINS_LOSS (R437). -/
def execMainsLoss (s : State) : Host.Outcome State Fault Refusal := .next (doMainsLoss s)

/-! ### Supply warning and brownout (R33, R440 to R443) -/

/-- Exposure is blanked, the rest of the pass logged, and the carriage braked at the policy deceleration (R33, R216, R441). -/
def warnExposure (s : State) : State :=
  let s := cutPass 9 0 s
  let s := modPlc (fun c => { c with noStart := true }) s
  stopPlacement false (some (rd R.PWR_WARN_DMAX s)) s
/-- What the first WARN of a dip does in each mode (R441). -/
def warnActs (s : State) : State :=
  let others := fun s => each [2, 3, 4, 5] (fun a s => stopAxis a 1 none s) s
  match modeOf s with
  | 4 => others (warnExposure s)
  | 5 => others (warnExposure (leaveCalibrate (abandonRun s)))
  | 3 | 6 | 7 => others (stopAxis 1 1 none (stopAxis 0 1 none s))
  | _ => s
def doSupplyWarn (bulk bus : Nat) (s : State) : State :=
  if rdb R.PWR_STATUS 1 s ∨ bulk > 3000 ∨ s.pwr.asserted.contains 1 ∨ s.pwr.railsOff then s
  else
    let first := s.pwr.dip.isNone
    let s := if first then modPwr (fun p => { p with dip := some s.time.ns, dipCut := false, lowest := bulk, holdDone := false }) s else s
    let s := wrb R.PWR_STATUS 2 false (wrb R.PWR_STATUS 1 true (supplyReading bulk bus s))
    let s := postEvent 17 0 1 0 [(0, 2, (bulk : Nat)), (2, 2, (bus : Nat)), (4, 1, (modeOf s : Nat)),
      (8, 8, ((if s.pwr.lost then s.pwr.lossTt else 0 : Nat) : Nat))] (bumpPwr R.PWR_WARN_COUNT s)
    if first then warnActs s else s
/-- SUPPLY_WARN (R440). -/
def execSupplyWarn (bulk bus : Nat) (s : State) : Host.Outcome State Fault Refusal := .next (doSupplyWarn bulk bus s)
def doSupplyWarnExit (bulk bus : Nat) (s : State) : State :=
  if rdb R.PWR_STATUS 1 s ∧ bulk ≥ 3100 then wrb R.PWR_STATUS 2 true (wrb R.PWR_STATUS 1 false (supplyReading bulk bus s)) else s
/-- SUPPLY_WARN_EXIT (R440). -/
def execSupplyWarnExit (bulk bus : Nat) (s : State) : Host.Outcome State Fault Refusal := .next (doSupplyWarnExit bulk bus s)
/-- The settle timer reaches PWR_SETTLE: the dip is over and what it held back starts (R33, R440, R441); its length is a free value
where E has started again within it (log entry 32). -/
def doSupplyRecover (bulk bus : Nat) (s : State) : State :=
  match s.pwr.dip with
  | none => s
  | some t =>
    if !rdb R.PWR_STATUS 2 s then s
    else
      let s := wrb R.PWR_STATUS 2 false (supplyReading bulk bus s)
      let (v, s) := fresh s
      let since := if s.pwr.dipCut then v else (s.time.ns - t) / 1000000
      let s := postEvent 18 0 0 0 [(0, 2, (bulk : Nat)), (4, 4, (since : Nat)), (8, 4, (s.pwr.lowest : Nat))] s
      let s := startAll (modPlc (fun c => { c with noStart := false }) (modPwr (fun p => { p with dip := none, holdDone := false }) s))
      match nextPass s with
      | some p => if plcState s = pTurn ∧ p.cut.isNone then turnFor p s else s
      | none => s
/-- SUPPLY_RECOVER (R440). -/
def execSupplyRecover (bulk bus : Nat) (s : State) : Host.Outcome State Fault Refusal := .next (doSupplyRecover bulk bus s)
def doSupplyHoldExpiry (s : State) : State :=
  if s.pwr.dip.isSome ∧ !s.pwr.holdDone then holdCause 8 (modPwr (fun p => { p with holdDone := true }) s) else s
/-- SUPPLY_HOLD_EXPIRY (R440). -/
def execSupplyHoldExpiry (s : State) : Host.Outcome State Fault Refusal := .next (doSupplyHoldExpiry s)
def doBrownoutAssert (bulk bus : Nat) (s : State) : State :=
  if (bulk ≥ 2400 ∧ bus ≥ 10800) ∨ s.pwr.asserted.contains 1 ∨ s.pwr.railsOff then s
  else
    let s := supplyReading bulk bus s
    let s := modPwr (fun p => { p with dip := none, holdDone := false }) (wrf R.PWR_STATUS 1 2 0 s)
    assertSource 1 (modPlc (fun c => { c with noStart := false }) s)
/-- BROWNOUT_ASSERT (R442). -/
def execBrownoutAssert (bulk bus : Nat) (s : State) : Host.Outcome State Fault Refusal := .next (doBrownoutAssert bulk bus s)
def doBrownoutRelease (bulk bus : Nat) (inp : ReleaseIn) (s : State) : State :=
  if bulk > 3300 ∧ bus > 11400 ∧ s.pwr.asserted.contains 1 then
    let s := releaseSources 2 inp (supplyReading bulk bus s)
    if s.pwr.railsOff ∧ !s.pwr.asserted.contains 9 then powerUp false false inp s else s
  else s
/-- BROWNOUT_RELEASE (R442). -/
def execBrownoutRelease (bulk bus : Nat) (inp : ReleaseIn) (s : State) : Host.Outcome State Fault Refusal :=
  .next (doBrownoutRelease bulk bus inp s)
/-- AUX is below 3.0 V: the module is DORMANT and keeps the backup domain alone; the supply supervisor has lost what it knew (R435,
R443, R453). -/
def goDormant (s : State) : State :=
  let s := resetBlocks 0 (modPwr (fun p => { p with railsOff := true, due := some 0, step := 0, lost := false, lossCut := false, validRun := 0 }) s)
  wr R.CTL_MODE 0 { s with host := {} }
/-- BUS and AUX switch off under BROWNOUT (R443). -/
def doDormantEntry (s : State) : State := if s.pwr.asserted.contains 1 ∧ modeOf s ≠ 0 then goDormant s else s
/-- DORMANT_ENTRY (R443). -/
def execDormantEntry (s : State) : Host.Outcome State Fault Refusal := .next (doDormantEntry s)
/-- The voltages that a low BULK, in 0.1 V, or a low BUS, in mV, leaves at the brownout supervisor: the other one is good (R442). -/
def lowRail (rail mv : Nat) : Nat × Nat := if rail = 0 then (mv, 12000) else (3900, mv)
/-- A rail out of its window (R435): BULK or BUS under is BROWNOUT, AUX under DORMANT; BULK over is reported alone; BUS over switches
the power stage off; rails 3 to 9 and BUS over assert POR and are recorded. -/
def doRailFault (rail cause mv : Nat) (s : State) : State :=
  if rail ≥ 10 ∨ (cause ≠ 1 ∧ cause ≠ 2) ∨ s.pwr.railsOff then s
  else if rail < 2 ∧ cause = 1 then doBrownoutAssert (lowRail rail mv).1 (lowRail rail mv).2 s
  else if rail = 2 then (if cause = 1 ∧ mv < 3000 ∧ modeOf s ≠ 0 then goDormant s else s)
  else
    let s := bumpPwr R.PWR_RAIL_FAULTS (wr R.PWR_RAIL (mv % 65536) s rail)
    if rail = 0 then postEvent 20 0 2 0 [(1, 1, 2), (2, 2, (mv : Nat))] (wrb R.PWR_STATUS 8 false s)
    else
      let s := modPwr (fun p => { p with rail := some (rail, cause, mv), railsOff := p.railsOff || rail == 1 }) s
      assertSource 0 (wrb R.PWR_STATUS (8 + rail) false s)
/-- RAIL_FAULT (R435). -/
def execRailFault (rail cause mv : Nat) (s : State) : Host.Outcome State Fault Refusal := .next (doRailFault rail cause mv s)

/-! ### Reset sources (R444 to R451) -/

/-- The MSI-X table and the pending-bit array take their reset values (R552, R553). -/
def resetMsix (s : State) : State :=
  { s with regs := s.regs.filter (fun e => !([R.MSIX_ADDR_LO, R.MSIX_ADDR_HI, R.MSIX_DATA, R.MSIX_CTRL, R.MSIX_PBA].any (fun r => regCovers r e.1))) }
/-- A hot reset, a function-level reset or a link-down at the host interface (R44, R45): every ring is disabled, the version is
cleared, cached translations are invalid, transfers end without completions; ring registers, indices and
error causes are kept (log entry 53), and so are event entries that wait (R553). -/
def hostReset (s : State) : State :=
  let s := wrf R.HIF_STATUS 0 2 0 s
  let s := each (List.range 32) (fun k s =>
    let s := wrf R.HIF_RING_STATE 0 5 0 s k
    modRing k (fun r => { r with jobs := [], next := rd R.HIF_RING_CONS s k, idle := false, mustRead := false, abortTo := none }) s) s
  resetMsix { s with host := { s.host with busMaster := false, chans := [], tlb := [], walk := [], pageInUse := [], invalUsers := [], held := [] } }
def doResetAssert (source : Nat) (s : State) : State :=
  if source ≥ 10 then s
  else
    let s := if source = 4 then hostReset s else if source = 3 then { s with host := { s.host with busMaster := false } } else s
    assertSource source s
/-- RESET_ASSERT (R449). -/
def execResetAssert (source : Nat) (s : State) : Host.Outcome State Fault Refusal := .next (doResetAssert source s)
/-- RESET_RELEASE (R450). -/
def execResetRelease (mask : Nat) (inp : ReleaseIn) (s : State) : Host.Outcome State Fault Refusal := .next (releaseSources mask inp s)
/-- 1 µs after a trip (R491). -/
def execBezelResetRelease (inp : ReleaseIn) (s : State) : Host.Outcome State Fault Refusal := .next (releaseSources (2 ^ 6) inp s)
/-- A pulse of the machine reset input counts once both E-stop channels are closed (R26, R445). -/
def doResetPinPulse (s : State) : State :=
  if s.ctl.estopOpen.isEmpty && !s.ctl.estopDisc then modCtl (fun c => { c with estopReset := true }) s else s
/-- RESET_PIN_PULSE (R445). -/
def execResetPinPulse (s : State) : Host.Outcome State Fault Refusal := .next (doResetPinPulse s)
/-- RESET_PIN_HOLD (R445); without IO_24V the input reads inactive (R534). -/
def execResetPinHold (s : State) : Host.Outcome State Fault Refusal := .next (if s.ctl.pin.ioPresent then assertSource 2 s else s)

/-- The watchdog is enabled (R447). -/
def wdogOn (s : State) : Bool := rdb R.RST_WDOG_CFG 16 s
def doWatchdogKick (s : State) : State := modPwr (fun p => { p with wdogHalf := false }) s
/-- WATCHDOG_KICK: any write to RST_WDOG_KICK (R447). -/
def execWatchdogKick (s : State) : Host.Outcome State Fault Refusal := .next (doWatchdogKick s)
def doWatchdogHalf (s : State) : State :=
  if wdogOn s ∧ !s.pwr.wdogHalf then
    postEvent 231 0 1 0 [(0, 1, 1), (4, 4, (rdf R.RST_WDOG_CFG 0 16 s : Nat))] (modPwr (fun p => { p with wdogHalf := true }) s)
  else s
/-- WATCHDOG_HALF (R517). -/
def execWatchdogHalf (s : State) : Host.Outcome State Fault Refusal := .next (doWatchdogHalf s)
def doWatchdogExpiry (s : State) : State :=
  if wdogOn s then
    let t := rdf R.RST_WDOG_CFG 0 16 s
    assertSource 5 (modPwr (fun p => { p with wdogExpired := some t, wdogHalf := false }) s)
  else s
/-- WATCHDOG_EXPIRY (R447). -/
def execWatchdogExpiry (s : State) : Host.Outcome State Fault Refusal := .next (doWatchdogExpiry s)
/-- A halt of the control core asserts WDOG (R373, R447); a debug halt under an unlock sets cause FIRMWARE instead (R509). -/
def doCoreHalt (debug : Bool) (s : State) : State :=
  if !debug then assertSource 5 s else if rdb R.DBG_STATUS 0 s ∧ rdb R.DBG_STATUS 6 s then holdCause 15 s else s
/-- CORE_HALT (R447). -/
def execCoreHalt (debug : Bool) (s : State) : Host.Outcome State Fault Refusal := .next (doCoreHalt debug s)
/-- A write to RST_CMD (R446). -/
def writeRstCmd (v : Nat) (s : State) : State :=
  let level := bits 0 2 v
  if bits 8 8 v ≠ 0xA5 then wr R.RST_CMD_STATUS 2 s
  else if level = 3 ∨ level < rdf R.RST_REACH 14 2 s then wr R.RST_CMD_STATUS 1 s
  else assertSource 7 (modPwr (fun p => { p with hostLevel := level }) (wr R.RST_CMD_STATUS 0 s))
/-- RST_CMD (R446). -/
def execRstCmd (value : Word32) (s : State) : Host.Outcome State Fault Refusal := .next (writeRstCmd value.toNat s)

/-! ### Block reset (R452) -/

/-- The busy indicator of a block. -/
def blockBusy (id : Nat) (s : State) : Bool :=
  match id with
  | 0 => rdf R.DPI_STATUS 0 2 s != 0
  | 1 => rdf R.THE_STATUS 0 2 s != 0
  | 2 => rdf R.BSC_STATUS 0 2 s != 0 || loadBusy s
  | 3 => rdf R.PLC_STATUS 0 3 s != 0
  | 4 => rdf R.MND_STATUS 0 2 s != 0
  | 9 => rd R.CAM_STATUS s != 0
  | 16 => rd R.UDMA_BUSY s != 0
  | 17 => (List.range 4).any (fun u => rdb R.CRC_CTRL 12 s u)
  | 18 => fcdStatus s != 0
  | _ => if id < 9 then rdf R.LNK_STATUS 0 4 s (id - 5) != 0 else !motHalted (id - 10) s
/-- The cameras' pulses, control buses, queued changes, lines and edge samples (R452). -/
def resetCams (s : State) : State :=
  let s := each [0, 1, 2, 3] (fun p s => sif ((tget? s.cam.pulses p).any (·.running)) (trigOut p false) s) s
  let s := each [0, 1, 2, 3] (fun p s => wrb R.CAM_BUS_STATUS 0 false s p) s
  let keep := s.cam.ctxs.map (fun e => (e.1, { e.2 with queue := [] }))
  each (List.range 16) showCtx { s with cam := { nextChange := s.cam.nextChange, ctxs := keep } }
/-- A block's internal working state returns to reset; its registers stay, but for what shows that state (R452).  The codec, the CRC
units and the intake hold nothing while they are idle. -/
def blockReset (id : Nat) (s : State) : State :=
  match id with
  | 1 => showAssim (modThe (fun t => { t with queue := [] }) s)
  | 2 => modBsc (fun b => { b with newT := none, newV := none }) s
  | 3 => modPlc (fun c => { edges := [], anchors := c.anchors, prevAnchor := c.prevAnchor, scales := c.scales, dwells := c.dwells }) s
  | 4 => modMnd (fun m => { m with slates := [], owed := [], newest := none }) s
  | 9 => resetCams s
  | 16 => modMem (fun m => { m with udma := [] }) s
  | 0 | 17 | 18 => s
  | _ =>
    if id < 9 then modPort (id - 5) (fun x => { tick256 := x.tick256 }) s
    else modAxis (id - 10) (fun x => { axisAtReset x with stepPos := x.stepPos }) s
/-- A write to RST_BLOCK: the L3 reset completes at once. -/
def writeRstBlock (v : Nat) (s : State) : State :=
  let id := bits 0 5 v
  if bits 8 8 v ≠ 0xA5 ∨ id > 18 then wr R.RST_BLOCK_STATUS (2 + 2 ^ 8 * id) s
  else if s.pwr.due.isSome then wr R.RST_BLOCK_STATUS (3 + 2 ^ 8 * id) s
  else if blockBusy id s then wr R.RST_BLOCK_STATUS (1 + 2 ^ 8 * id) s
  else wr R.RST_BLOCK_STATUS (2 ^ 8 * id) (blockReset id s)
/-- RST_BLOCK (R452). -/
def execRstBlock (value : Word32) (s : State) : Host.Outcome State Fault Refusal := .next (writeRstBlock value.toNat s)

/-! ### Thermal trip and the backup cell (R448, R456) -/

def doThermtrip (s : State) : State := assertSource 9 (modPwr (fun p => { p with railsOff := true }) s)
/-- THERMTRIP (R448). -/
def execThermtrip (s : State) : Host.Outcome State Fault Refusal := .next (doThermtrip s)
def doThermtripCool (inp : ReleaseIn) (s : State) : State :=
  if s.pwr.asserted.contains 9 then
    let s := releaseSources (2 ^ 9) inp s
    if s.pwr.asserted.contains 1 then s else powerUp false false inp s
  else s
/-- THERMTRIP_COOL (R448). -/
def execThermtripCool (inp : ReleaseIn) (s : State) : Host.Outcome State Fault Refusal := .next (doThermtripCool inp s)
def doBackupCellCheck (mv : Nat) (s : State) : State :=
  let s := wr R.PWR_BACKUP (mv % 65536) s
  if mv < rd R.PWR_BACKUP_LOW s then postEvent 23 0 1 0 [(0, 2, (mv : Nat)), (2, 1, 1)] s else s
/-- BACKUP_CELL_CHECK (R456). -/
def execBackupCellCheck (mv : Nat) (s : State) : Host.Outcome State Fault Refusal := .next (doBackupCellCheck mv s)

/-! ### Fuse and trim load (R457 to R459) -/

/-- The effective reach of each source under FUS_REACH (R444, R459, R464). -/
def reachMap (raw : Nat) : Nat :=
  (List.range 10).foldl (fun m k =>
    let f := bits (2 * k) 2 raw
    m + 2 ^ (2 * k) * (if k = 0 ∨ k = 9 ∨ f = 0 then bits (2 * k) 2 0x12650 else f - 1)) 0
/-- A passing load fills the shadow registers (R457). -/
def takeFuses (f : FuseIn) (s : State) : State :=
  let s := wr R.FUS_REACH f.reach (wr R.FUS_FLAGS f.flags s)
  let s := each [0, 1, 2, 3] (fun w s => wr R.FUS_PIN_MAP (f.pinMap.getD w 0) s w) s
  let s := each (List.range 12) (fun w s =>
    wr R.FUS_KEY2 (f.keys.getD (24 + w) 0) (wr R.FUS_KEY1 (f.keys.getD (12 + w) 0) (wr R.FUS_KEY0 (f.keys.getD w 0) s w) w) w) s
  wr R.RST_REACH (reachMap f.reach) (wr R.FUS_ROLLBACK f.rollback s)
/-- EV_TRIM_RELOAD (R461). -/
def postTrim (cause attempts crc sev : Nat) (s : State) : State :=
  postEvent 22 0 sev 0 [(0, 1, (cause : Nat)), (1, 1, (attempts : Nat)), (4, 4, (rd R.FUS_LOAD_GEN s : Nat)), (8, 4, (crc : Nat))] s
/-- The load has ended: the release goes on, or the loader of a released core waits for an image. -/
def fuseLoadEnded (s : State) : State := if s.pwr.due.isSome then continueRelease s else loaderWaits s
def doFuseLoadAttempt (f : FuseIn) (s : State) : State :=
  if rdf R.FUS_STATUS 0 2 s ≠ 0 ∨ (s.pwr.due.isSome ∧ s.pwr.step ≠ 2) then s
  else
    let n := rdf R.FUS_STATUS 2 2 s + 1
    let s := wr R.FUS_CRC f.crc (wrf R.FUS_STATUS 2 2 n s)
    if f.ok then
      let s := updateEnables (wr R.FUS_LOAD_GEN (rd R.FUS_LOAD_GEN s + 1) (wrf R.FUS_STATUS 0 2 1 (takeFuses f s)))
      let s := if s.pwr.fuseCut then postTrim 1 n f.crc 1 (modPwr (fun p => { p with fuseCut := false }) s) else s
      let s := if n > 1 then postTrim 2 n f.crc 1 s else s
      fuseLoadEnded s
    else if n < 3 then s
    else fuseLoadEnded (postTrim 3 n f.crc 2 (holdCause 13 (wrf R.FUS_STATUS 0 2 2 s)))
/-- FUSE_LOAD_ATTEMPT (R457). -/
def execFuseLoadAttempt (fuses : FuseIn) (s : State) : Host.Outcome State Fault Refusal := .next (doFuseLoadAttempt fuses s)

end Sys2Proof.Machine
end

