-- ==== Sys2Proof/Machine/Memc.lean ====
section
/-! DEFINITION. The memory controller and error correction commands: training (R357, R358), the rank map (R356), self-refresh
entry (R361, R362), reads with errors (R364 to R367), the log (R368), migration (R370, R371) and scrubbing (R372, R373). -/

namespace Sys2Proof.Machine

/-! ### Training (R357, R358) -/

/-- Bytes at addresses of a channel, and of one logical rank of it where named, are lost. -/
def loseBytes (c : Nat) (l : Option Nat) (s : State) : State :=
  let gone : Nat → Bool := fun a => chanOf a == c && (match l with | none => true | some r => logicalOf a == r)
  modMem (fun m => { m with
    dram := m.dram.filter (fun e => !gone e.1)
    poison := m.poison.filter (fun x => !gone (64 * x))
    injected := m.injected.filter (fun x => !gone (64 * x.1)) }) s
def setMap (c off len v : Nat) (s : State) : State := wrf R.MEMC_RANK_MAP (8 * c + off) len v s
/-- EV_TRAIN_FAIL (R384). -/
def postTrainFail (c rank step outcome : Nat) (s : State) : State :=
  postEvent 185 c 2 0 [(0, 1, (rank : Nat)), (1, 1, (step : Nat)), (2, 1, (outcome : Nat))] s
/-- No usable rank is left: DRAM fails (R358). -/
def channelFailed (s : State) : State := wrf R.MEMC_STATUS 0 3 6 (holdCause 13 s)
/-- A physical rank fails training at a step (R358); rank 3 and above stands for the whole channel. -/
def rankFails (c : Nat) (f : Nat × Nat) (s : State) : State :=
  let p := f.1
  let s := wrf R.MEMC_TRAIN_RESULT (8 * c) 3 f.2 s
  if p ≥ 3 then channelFailed (postTrainFail c 0xFF f.2 2 s)
  else
    let st := rankState c p s
    let spare := mapSpare c s
    let logical := logicalFor c p s
    let s' := setRankState c p 3 s
    if st = 1 then postTrainFail c p f.2 0 (setMap c 4 2 3 s')
    else
      match logical with
      | none => postTrainFail c p f.2 0 s'
      | some l =>
        if spareOk c s then
          postTrainFail c p f.2 1 (loseBytes c (some l) (setMap c 4 2 3 (setMap c (2 * l) 2 spare (setRankState c spare 0 s'))))
        else channelFailed (postTrainFail c p f.2 2 s')
def doDramTrainingDone (c : Nat) (fails : List (Nat × Nat)) (retuneFailed : Bool) (us : Nat) (s : State) : State :=
  if !s.mem.training.contains c then s
  else
    let path := if s.mem.cold then 0 else if retuneFailed then 2 else 1
    let s := if path = 2 then loseBytes c none s else s
    let failed := rdf R.MEMC_STATUS 0 3 s
    let s := if path = 1 then s else each fails (rankFails c) (wrf R.MEMC_STATUS 0 3 1 s)
    let lost := path ≠ 1 ∧ rdf R.MEMC_STATUS 0 3 s = 6
    let s := if failed = 6 then wrf R.MEMC_STATUS 0 3 6 s else s
    let ok := (List.range 3).filter (fun p => rankState c p s != 3)
    let s := wrf R.MEMC_TRAIN_RESULT (8 * c + 4) 4 (maskOf ok) s
    let s := postEvent 184 c (if path = 2 then 1 else 0) 0 [(0, 1, (maskOf ok : Nat)), (1, 1, (path : Nat)), (2, 2, (us : Nat))] s
    let s := wrb R.MEMC_STATUS (4 + c) (!decide lost) (modMem (fun m => { m with training := m.training.filter (· != c) }) s)
    if s.mem.training ≠ [] then s
    else
      let s := if rdf R.MEMC_STATUS 0 3 s = 6 then s else wrf R.MEMC_STATUS 0 3 2 s
      bringupCheck (if s.pwr.step = 6 then continueRelease s else s)
/-- DRAM_TRAINING_DONE (R357): the ranks that failed the cold path with the step, whether the warm retune failed, and the time. -/
def execDramTrainingDone (channel : Nat) (fails : List (Nat × Nat)) (retuneFailed : Bool) (us : Nat) (s : State) :
    Host.Outcome State Fault Refusal := .next (doDramTrainingDone channel fails retuneFailed us s)

/-! ### The rank map (R356) -/

/-- A written byte is valid for its channel (R356). -/
def mapByteOk (c b : Nat) (s : State) : Bool :=
  let l0 := bits 0 2 b
  let l1 := bits 2 2 b
  let sp := bits 4 2 b
  l0 != l1 && decide (l0 < 3 ∧ l1 < 3) && rankState c l0 s != 3 && rankState c l1 s != 3 &&
    (sp == 3 || (sp != l0 && sp != l1 && rankState c sp s != 3))
/-- A valid byte takes effect for its channel (R356).  It moves no contents: what a logical rank held on another physical rank is not
there any more. -/
def takeMapByte (v c : Nat) (s : State) : State :=
  let b := bits (8 * c) 6 v
  if !mapByteOk c b s then s
  else
    let lost := [0, 1].filter (fun l => mapRank c l s != bits (2 * l) 2 b)
    let s := each lost (fun l s => loseBytes c (some l) s) (setMap c 0 6 b s)
    each [0, 1, 2] (fun p s =>
      if rankState c p s = 3 then s
      else setRankState c p (if p = bits 0 2 b ∨ p = bits 2 2 b then 0 else if p = bits 4 2 b then 1 else 2) s) s
def writeRankMap (v : Nat) (s : State) : State :=
  if rdb R.MEMC_CTRL 0 s then s else each [0, 1, 2, 3] (takeMapByte v) s
/-- MEMC_RANK_MAP_WRITE (R356). -/
def execMemcRankMapWrite (value : Word32) (s : State) : Host.Outcome State Fault Refusal := .next (writeRankMap value.toNat s)
/-- MAP_LOCK (R356). -/
def execMapLock (s : State) : Host.Outcome State Fault Refusal := .next (wrb R.MEMC_CTRL 0 true s)

/-! ### Refresh and idle self-refresh (R360 to R362) -/

/-- DRAM_REFRESH (R360): a refresh keeps the cells; nothing that the state holds changes. -/
def execDramRefresh (s : State) : Host.Outcome State Fault Refusal := .next s
/-- DRAM_TEMP_POLL (R360): the channels with a rank above 85 °C. -/
def execDramTempPoll (hot : Nat) (s : State) : Host.Outcome State Fault Refusal := .next (wrf R.MEMC_STATUS 8 4 hot s)
def doSrIdleEntry (s : State) : State :=
  if rdb R.MEMC_CTRL 1 s ∧ (modeOf s = 3 ∨ modeOf s = 6) ∧ rdf R.MEMC_STATUS 0 3 s = 2 ∧ s.arb.requests.all (fun e => e.1 == rqScrub) then
    wrf R.MEMC_STATUS 0 3 3 (modMem (fun m => { m with srReason := 0, srWake := none }) s)
  else s
/-- SR_IDLE_ENTRY (R361). -/
def execSrIdleEntry (s : State) : Host.Outcome State Fault Refusal := .next (doSrIdleEntry s)
/-- The exit that a request forces: 1.2 µs, then EV_SELFREFRESH_EXIT (R362). -/
def exitSelfRefresh (requester raised : Nat) (s : State) : State :=
  postEvent 191 0 0 0 [(0, 1, (requester : Nat)), (4, 4, ((s.time.ns - raised + 1200 : Nat) : Nat))] (leaveSelfRefresh s)

/-! ### Reads with errors (R364 to R367) -/

/-- What a read of a line finds: 0 good, 1 a correctable error, 2 an uncorrectable one; with the device.  A poisoned line or an
injected error decides; else what the outside says the devices hold. -/
def readFinds (a found device : Nat) (s : State) : Nat × Nat :=
  if lineBad s (a / 64) then (2, 0xFF)
  else
    match s.mem.injected.find? (fun e => e.1 == a / 64) with
    | some e => (1, e.2.1)
    | none => (min found 2, device)
/-- A line that a migration reads with a UE is written to the spare with the poison pattern (R366, R370). -/
def migrateUe (a : Nat) (s : State) : State :=
  let c := chanOf a
  let s := bumpMem R.ECC_UE_COUNT 1 s
  let s := logError (dramEntry a 9 rqMigrate 0xFF 0 s) s
  let s := modMem (fun m => { m with
    poison := (a / 64) :: m.poison.filter (· != a / 64)
    injected := m.injected.filter (fun e => e.1 != a / 64)
    migration := m.migration.map (fun x => { x with poisoned := x.poisoned + 1 }) }) s
  postEvent 177 c 2 0 [(0, 8, ((a / 64 * 64 : Nat) : Nat)), (8, 1, (physOf a s : Nat)), (9, 1, (subOf a : Nat)), (10, 1, (rqMigrate : Nat)),
    (11, 1, 3), (12, 4, (bits 0 31 (rd R.ECC_UE_COUNT s) : Nat))] s
/-- What a requester does with an error (R366): a camera context's reference becomes invalid. -/
def requesterUe (requester context : Nat) (s : State) : State := if requester = rqCam then camRefReset (context % 16) 5 s else s
/-- MIGRATE has read a line, and it is written to the spare: the copy pointer stands behind it (R370). -/
def copyPointer (requester a : Nat) (s : State) : State :=
  match s.mem.migration with
  | some m =>
    if requester = rqMigrate ∧ m.channel = chanOf a ∧ m.logical = logicalOf a then
      wr R.MEMC_MIGRATE_PTR ((rankLine a + 1) / 2 ^ 14) (modMem (fun x => { x with migration := some { m with line := rankLine a + 1 } }) s)
    else s
  | none => s
def doDramReadComplete (requester a found device context : Nat) (s : State) : State :=
  if requester ≥ 10 ∨ !dramServes s then s
  else if a ≥ dramSize then requesterUe requester context (dramNoAddr a requester s)
  else
    copyPointer requester a (match readFinds a found device s with
    | (0, _) => s
    | (1, d) => dramCe a requester d false s
    | _ => if requester = rqMigrate then migrateUe a s else requesterUe requester context (dramUe a requester s))
/-- DRAM_READ_COMPLETE (R364): the requester, the logical address, what the devices return (0 good, 1 an error in one device, 2 in
two), the device, and the camera context of a reference read. -/
def execDramReadComplete (requester addr found device context : Nat) (s : State) : Host.Outcome State Fault Refusal :=
  .next (doDramReadComplete requester addr found device context s)
def doDramCmdAlert (requester a kind replays : Nat) (failed : Bool) (context : Nat) (s : State) : State :=
  let c := chanOf a
  let post := fun s => postEvent 179 c (if failed then 2 else 1) 0 [(0, 1, (kind : Nat)), (1, 1, (b2n failed : Nat)), (2, 1, (physOf a s : Nat)),
    (3, 1, (replays : Nat)), (8, 8, ((a : Nat) : Nat))] s
  if failed then
    requesterUe requester context (post (logError (dramEntry a 5 requester 0xFF 0 s)
      (modMem (fun m => { m with cmdFailed := (requester, a / 64) :: m.cmdFailed.filter (· != (requester, a / 64)) }) s)))
  else post (bumpMem R.MEMC_CMD_ERRORS 1 s)
/-- DRAM_CMD_ALERT (R367): the first access the command carried, 1 CA parity or 2 write CRC, the replays, and whether all failed. -/
def execDramCmdAlert (requester addr kind replays : Nat) (failed : Bool) (context : Nat) (s : State) : Host.Outcome State Fault Refusal :=
  .next (doDramCmdAlert requester addr kind replays failed context s)

/-! ### Retirement and migration (R370, R371) -/

def writeRetire (v : Nat) (s : State) : State :=
  let c := bits 0 2 v
  if bit 31 v then retireDue c (mapRank c (bits 2 1 v) s) 3 s else s
/-- RANK_RETIRE (R370). -/
def execRankRetire (value : Word32) (s : State) : Host.Outcome State Fault Refusal := .next (writeRetire value.toNat s)
def doRankMigrateDone (s : State) : State :=
  match (if dramServes s then s.mem.migration else none) with
  | none => s
  | some m =>
    let s := setMap m.channel 4 2 3 (setMap m.channel (2 * m.logical) 2 m.new s)
    let s := setRankState m.channel m.new 0 (setRankState m.channel m.old 2 s)
    let s := wr R.MEMC_MIGRATE_PTR 0 (wrf R.MEMC_STATUS 12 4 0 s)
    let waiting := s.mem.retire
    let s := modMem (fun x => { x with migration := none, retire := [] }) s
    let s := postEvent 181 m.channel (if m.poisoned = 0 then 0 else 1) 0 [(0, 1, (m.logical : Nat)), (1, 1, (m.old : Nat)), (2, 1, (m.new : Nat)),
      (4, 4, (m.poisoned : Nat)), (8, 4, (((s.time.ns - m.start) / 1000000 : Nat) : Nat))] s
    each waiting (fun r s => retireDue r.1 r.2.1 r.2.2 s) s
/-- RANK_MIGRATE_DONE (R370). -/
def execRankMigrateDone (s : State) : Host.Outcome State Fault Refusal := .next (doRankMigrateDone s)

/-! ### Scrubbing (R372, R373) -/

/-- The sweep has read its last line (R372). -/
def sweepDone (s : State) : State :=
  let m := s.mem
  let s := postEvent 183 0 0 0 [(0, 4, (m.scrubCe : Nat)), (4, 4, (m.scrubUe : Nat)), (8, 4, (((s.time.ns - m.scrubStart) / 10 ^ 9 : Nat) : Nat))] s
  bumpMem R.MEMC_SCRUB_SWEEPS 1 (modMem (fun m => { m with scrubLine := 0, scrubStart := s.time.ns, scrubCe := 0, scrubUe := 0 }) s)
def doPatrolScrubRead (found device : Nat) (s : State) : State :=
  if !rdb R.MEMC_SCRUB_CFG 0 s ∨ rdf R.MEMC_STATUS 0 3 s ≠ 2 then s
  else
    let l := s.mem.scrubLine
    let s := match readFinds (64 * l) found device s with
      | (0, _) => s
      | (1, d) => modMem (fun m => { m with scrubCe := m.scrubCe + 1 }) (dramCe (64 * l) rqScrub d true s)
      | _ => modMem (fun m => { m with scrubUe := m.scrubUe + 1 }) (dramUe (64 * l) rqScrub s)
    let s := modMem (fun m => { m with scrubLine := l + 1 }) s
    let s := if l + 1 ≥ 2 ^ 32 then sweepDone s else s
    wr R.MEMC_SCRUB_PTR (s.mem.scrubLine / 16384) s
/-- PATROL_SCRUB_READ (R372). -/
def execPatrolScrubRead (found device : Nat) (s : State) : Host.Outcome State Fault Refusal := .next (doPatrolScrubRead found device s)
def doSramScrub (region offset found : Nat) (s : State) : State :=
  let found := match s.mem.sramInjected.find? (fun e => e.1 == offset / 8) with
    | some e => if e.2 then 2 else 1
    | none => found
  if found = 0 then s else if found = 1 then sramCe region offset 0xFF s else sramUe region offset 0xFF 1 s
/-- SRAM_SCRUB (R373): a word's region and offset, and what the scrubber reads: 0 good, 1 correctable, 2 uncorrectable. -/
def execSramScrub (region offset found : Nat) (s : State) : Host.Outcome State Fault Refusal := .next (doSramScrub region offset found s)

/-! ### The error log and injection (R368, R388) -/

def writeLogClear (v : Nat) (s : State) : State := if bit 0 v then showLog (modMem (fun m => { m with log := [] }) s) else s
/-- ECC_LOG_CLEAR (R368). -/
def execEccLogClear (value : Word32) (s : State) : Host.Outcome State Fault Refusal := .next (writeLogClear value.toNat s)
def writeInject (v : Nat) (s : State) : State :=
  if modeOf s = 3 ∨ modeOf s = 7 then wr R.ECC_INJECT ((v &&& 0x77) ||| (rd R.ECC_INJECT s &&& 1)) s else s
/-- ECC_INJECT_ARM (R388). -/
def execEccInjectArm (value : Word32) (s : State) : Host.Outcome State Fault Refusal := .next (writeInject value.toNat s)

end Sys2Proof.Machine
end

