-- ==== Sys2Proof/Machine/FrameBuild.lean ====
section
/-! DEFINITION. The start of a pass's execution (R113, R179, R181, R186, R204, R284, R285) and the build of the row frames of a
line event (R176 to R189, R270, R271, R488, R489). -/

namespace Sys2Proof.Machine

/-- A saturating BSC counter posts EV_WIDTH_CLAMP with cause 6 (R192). -/
def satBsc (off : Nat) (s : State) : State := postEvent 62 0 0 (passCookie s) [(4, 1, 6), (8, 4, (off : Nat))] s
def bumpBsc (r : RegInfo) (n : Nat) (s : State) : State := if n = 0 then s else bump r n (satBsc (r.base - 0x120000)) s
/-- An entry of the active bank. -/
def liveEntry (s : State) (n : Nat) : Nat := bankEntry s (activeBank s) n

/-! ### The start of execution (R113) -/

/-- The contexts that a pass names: the initial one, then those of its tags (R111, R112). -/
def namedContexts (p : Pass) : List Nat := (p.context :: (p.head.tags.filter (fun t => t.type == 1)).map (fun t => t.value % 256)).eraseDups
/-- EV_SPLIT_NO_BEAM (R190). -/
def postNoBeam (p : Pass) (cause : Nat) (l : List (Nat × Nat)) (s : State) : State :=
  match l with
  | [] => s
  | (x, c) :: _ =>
    postEvent 60 0 1 p.cookie [(0, 4, (p.layer : Nat)), (4, 2, (p.number : Nat)), (6, 1, (cause : Nat)), (7, 1, (x : Nat)), (8, 2, (c : Nat)),
      (10, 2, ((l.map (·.2)).eraseDups.length : Nat))] s
/-- The columns whose split record in a context the pass ignores (R179). -/
def ignoredIn (l : List (Nat × Nat)) (x : Nat) : List Nat := (l.filter (fun e => e.1 == x)).map (·.2)
/-- The split records that the pass ignores, and the columns no beamlet doses, with the context (R179). -/
def splitCheck (p : Pass) (s : State) : State :=
  let g := geom s
  let xs := namedContexts p
  let bad := xs.flatMap (fun x =>
    let b := contextBytes s x
    ((List.range (cxSplitCount b)).filter (fun i => !recordUsable g (liveEntry s) b i)).map (fun i => (x, cxRecCol b i)))
  let dead := xs.flatMap (fun x =>
    ((List.range g.columns).filter (columnDead g (liveEntry s) (ignoredIn bad x) (contextBytes s x))).map (fun c => (x, c)))
  let s := bumpBsc R.BSC_SPLIT_FALLBACK bad.length (modPassOf p.index (fun q => { q with ignored := bad }) s)
  postNoBeam p 2 bad (postNoBeam p 1 dead s)
/-- The contexts of a pass differ in feather: EV_STITCH_MISMATCH (R181). -/
def stitchCheck (p : Pass) (s : State) : State :=
  match (namedContexts p).find? (fun x => !sameFeather (contextBytes s p.context) (contextBytes s x)) with
  | none => s
  | some x => postEvent 73 0 1 p.cookie [(0, 4, (p.layer : Nat)), (4, 2, (p.number : Nat)), (6, 1, (p.context : Nat)), (7, 1, (x : Nat))] s
/-- f_max of a pass in Hz, with the scale in force at the start of its execution (R186, R217; log entry 56); 0 where the profile is
not the module's (R198). -/
def fMax (s : State) : Rat := if external s then 0 else baseRate s * effScale s / 32768
/-- The first condition of R186 that fails, with its port. -/
def preheatDenied (s : State) : Option (Nat × Nat) :=
  let g := geom s
  let f := fMax s
  let beams : Nat → Rat := fun r => ((r * g.beamlets : Nat) : Rat)
  if !rdb R.BSC_CTRL 0 s then some (1, 0xFF)
  else if !bit 0 g.flags then some (2, 0xFF)
  else
    match (portsInUse s).find? (fun p => lnkVersion p s < 2) with
    | some p => some (3, p)
    | none =>
      if beams g.rowCount * f > 52428800000 then some (4, 0xFF)
      else (((portsInUse s).find? (fun p => decide (beams (rowsOn g p) * f > 13107200000)))).map (fun p => (5, p))
/-- Whether the pass carries preheat; EV_PREHEAT_DENIED where a context asks for it and a condition fails (R186). -/
def preheatCheck (p : Pass) (s : State) : State :=
  match preheatDenied s with
  | none => wrb R.BSC_STATUS 5 true (modPassOf p.index (fun q => { q with preheat := true }) s)
  | some (c, port) =>
    if (namedContexts p).any (fun x => cxPreheatOn (contextBytes s x)) then
      postEvent 63 0 0 p.cookie [(0, 4, (p.layer : Nat)), (4, 2, (p.number : Nat)), (6, 1, (c : Nat)), (7, 1, (port : Nat)), (8, 4, (fMax s).floor)]
        (bumpBsc R.BSC_PREHEAT_DENIED 1 s)
    else s
/-- A slow port: its rows are blanked for the rest of the swath, or the stage is scaled (R41, R222). -/
def slowPort (p scale : Nat) (inPass : Bool) (s : State) : State :=
  if rdb R.PLC_CTRL 5 s then modPass (fun q => { q with blankPorts := if q.blankPorts.contains p then q.blankPorts else p :: q.blankPorts }) s
  else setScale 6 p scale inPass s
/-- A port in use whose ceiling lies below the pass's line rate is slow; otherwise it is not (R231). -/
def slowTest (inPass : Bool) (k : Nat) (s : State) : State :=
  let s := showCap k s
  let cap := rd R.LNK_RATE_CAP s k
  if !lnkUp k s || !(portsInUse s).contains k then s
  else if baseRate s > cap then slowPort k ((cap : Rat) / baseRate s * 32768).floor.toNat inPass s
  else setScale 6 k 0x8000 false s
/-- The test of every port at the start of execution (R231). -/
def slowCheck (s : State) : State := each (portsInUse s) (slowTest false) s
/-- The first row whose offsets break R204. -/
def badRow (p : Pass) (s : State) : Option Nat :=
  let g := geom s
  let d := rdI (if p.dir = 0 then R.PLC_DIR_OFFSET_FWD else R.PLC_DIR_OFFSET_REV) s
  let lim : Int := (2 * pitchOf s : Nat)
  (List.range g.rowCount).find? (fun r =>
    let e := rowAt g r
    let x := e.fine + g.vernier.getD e.group 0 + d
    decide (x < -lim) || decide (lim < x))
/-- Why a pass cannot run, as the row of EV_PLACEMENT_LATE: AX0 or AX1 has no envelope (R558), or a row's offsets break R204. -/
def geometryBar (p : Pass) (s : State) : Option Nat := if !envOk 0 s || !envOk 1 s then some 0xFF else badRow p s
/-- An entry of the mend log that a MEND_PASS selects (R284). -/
def selectable (p : Pass) (e : MendEntry) : Bool :=
  e.status == 0 && decide (sdiff 32 e.seq p.entryFirst ≥ 0) && decide (sdiff 32 p.entryLast e.seq ≥ 0) && e.swath == p.swath &&
    !bit 4 e.flags && (!bit 1 e.flags || p.uncertain)
/-- Changes the blocks of a slate. -/
def modSlate (key : Nat) (f : Table SlateBlock → Table SlateBlock) (s : State) : State :=
  modMnd (fun m => { m with slates := tmod ([] : Table SlateBlock) m.slates key f }) s
/-- The share of an entry at line `n` and row `r` of an excluded group: it enters the slates, or is logged where make-up is off. -/
def enterShare (p : Pass) (e : MendEntry) (n r : Nat) (s : State) : State :=
  let g := geom s
  let flags := e.flags &&& (flUncertain + flLateFired + flTruncated)
  if !entryCovers g e n r then s
  else if rdb R.MND_CTRL 0 s then
    let key := slateKey n (rowAt g r).stagger
    let s := enterSlate p g n r e.blocks e.cause flags s
    if (tget? s.dose.mnd.slates key).isSome then
      modSlate key (fun t => (onesOf 8 e.blocks).foldl (fun t j => tmod {} t j (fun x => { x with early := true })) t) s
    else s
  else oweLine n { row := r, blocks := e.blocks, cause := e.cause, flags := flags } s
/-- The owed shares of excluded groups enter the slates at the start, with every other group as a target, each under the cause and the
flags of the entry that gave it (R285, R286; log entry 23). -/
def enterExcluded (p : Pass) (s : State) : State :=
  let g := geom s
  let rows := (List.range g.rowCount).filter (fun r => excluded p (rowAt g r).group)
  each p.owedSet (fun e s => each ((List.range e.count).map (· + e.first)) (fun n s => each rows (enterShare p e n) s) s) s
/-- A mend-log entry whose SRAM word reads with an uncorrectable error is replaced by one that covers all rows and all blocks of its
lines, with UNCERTAIN set (R373); where the word lies is a free value (log entry 60). -/
def damagedEntry (seq : Nat) (s : State) : State :=
  if !s.dose.mnd.log.any (fun e => e.seq == seq) then s
  else
    let g := geom s
    let (v, s) := fresh s
    sramUe 7 (v % 2 ^ 20 / 8 * 8) 0xFF 0 (modMnd (fun m => { m with log := m.log.map (fun e =>
      if e.seq = seq then { e with rows := 2 ^ g.rowCount - 1, blocks := allBlocks g, flags := e.flags ||| flUncertain } else e) }) s)
/-- The entries of a mend pass close (R284). -/
def closeEntries (p : Pass) (s : State) : State :=
  let sel := s.dose.mnd.log.filter (selectable p)
  let s := each sel (fun e s => bumpMnd R.MND_ENTRIES_CLOSED 1 (removeEntry e.seq 1 s)) s
  let s := modPassOf p.index (fun q => { q with closed := sel.length, owedSet := sel }) s
  enterExcluded { p with owedSet := sel } s
/-- The pass that execution may begin: the oldest accepted one, while none executes (R113). -/
def nextToRun (s : State) : Option Pass :=
  match s.dose.passes with
  | [] => none
  | p :: _ => if s.dose.passes.any (·.executing) then none else some p
/-- A pass start without a valid result of the selected sensor or of the supply: index 0, counted as a clamped reading (R184, R468). -/
def countInvalid (s : State) : State :=
  let kt := 1 + rdf R.BSC_CTRL 4 3 s
  let s := if rdb R.THM_RESULT 16 s kt then s else bumpBsc R.BSC_KT_CLAMP 1 (wrf R.BSC_STATUS 8 8 0 s)
  if rdb R.THM_RESULT 16 s 9 then s else bumpBsc R.BSC_KV_CLAMP 1 (wrf R.BSC_STATUS 16 8 0 s)
/-- Execution of a pass begins (R113). -/
def startExecution (p : Pass) (s : State) : State :=
  let s := modPassOf p.index (fun q => { q with executing := true }) s
  let s := slowCheck (preheatCheck p (stitchCheck p (splitCheck p (showPass s))))
  match geometryBar p s with
  | some r =>
    let s := postEvent 66 0xFF 1 p.cookie [(0, 4, (p.first : Nat)), (4, 1, 4), (5, 1, (r : Nat)), (6, 2, (p.number : Nat))] s
    let s := showPass (dropPass p.index s)
    turnNext (finish p.ring p.index stAborted 0 s)
  | none =>
    let s := if p.mend then closeEntries p s else s
    let s := each p.missed (fun n s => oweWhole ((passOf p.index s).getD p) n 2 s) s
    if external s then
      let s := wrb R.PLC_STATUS 3 (p.dir == 1) (setPlc pExpose s)
      let s := countInvalid (wr R.DPI_TAG_APPLIED 0 (wrI R.PLC_MARK (measPos 0 s) s))
      let kt := 1 + rdf R.BSC_CTRL 4 3 s
      let s := modPlc (fun c => { c with convT := !inputOff kt s, convV := true }) s
      let s := requestConv 9 2 whoPass (requestConv kt 2 whoPass s)
      modPass (fun q => { q with profileOn := true }) s
    else s
/-- The oldest accepted pass begins; `damaged`: the entries of the mend log that its read of the log finds damaged (R373). -/
def doSwathExecutionStart (damaged : List Nat) (s : State) : State :=
  match nextToRun s with
  | none => s
  | some p =>
    if modeOf s = 4 ∧ s.ctl.request.isNone ∧ (external s ∨ plcState s = pTurn) then startExecution p (sif p.mend (each damaged damagedEntry) s) else s
/-- SWATH_EXECUTION_START (R113). -/
def execSwathExecutionStart (damaged : List Nat) (s : State) : Host.Outcome State Fault Refusal := .next (doSwathExecutionStart damaged s)

/-! ### One row frame (R176 to R187, R270, R271) -/

/-- What a frame needs beside the beamlet: the row, the line, the context in force and its bytes, the feather, the line's doses,
the limits of R182, whether it carries preheat, and the blocks the row owes of its own. -/
structure RowIn where
  row : Nat
  line : Nat
  context : Nat
  x : List Byte
  feather : List Byte
  doses : List Nat
  width : WidthIn
  preheat : Bool
  own : Nat
  /-- The columns whose record the pass ignores (R179). -/
  ignored : List Nat
  deriving DecidableEq, Repr

/-- One beamlet of a frame: its codes, D_b, and the clamps that acted. -/
structure Beam where
  code : Nat
  pre : Nat
  dose : Nat
  hits : List ClampHit
  deriving DecidableEq, Repr

/-- kT and kV in use (R184). -/
def factorT (s : State) : Nat := let i := rdf R.BSC_STATUS 8 8 s; rdf R.BSC_KT (16 * (i % 2)) 16 s (i / 2)
def factorV (s : State) : Nat := let i := rdf R.BSC_STATUS 16 8 s; rdf R.BSC_KV (16 * (i % 2)) 16 s (i / 2)
/-- D of the pixel under beamlet b of the row (R166). -/
def pixelDose (g : Geometry) (i : RowIn) (b : Nat) : Nat := i.doses.getD (crossCol g i.row b) 0
/-- Group k's share of that pixel (R180, R270). -/
def shareDose (g : Geometry) (bank : Nat → Nat) (i : RowIn) (b k : Nat) : Nat :=
  pixelDose g i b * shareOf g bank i.ignored i.x i.feather (crossCol g i.row b) k / 4096
/-- D_b of the row's own share; 0 in a block that the row does not owe (R180, R285). -/
def ownDose (g : Geometry) (bank : Nat → Nat) (i : RowIn) (b : Nat) : Nat :=
  if bit (b / 256) i.own then shareDose g bank i b (rowAt g i.row).group else 0
/-- D_o of a block owed by a list of groups (R270). -/
def owedDose (g : Geometry) (bank : Nat → Nat) (i : RowIn) (b : Nat) (groups : List Nat) : Nat :=
  groups.foldl (fun a k => a + shareDose g bank i b k) 0
/-- A row can carry a block for `groups`: every beamlet that would take a share is LIVE and meets no clamp of causes 1 to 4
(R271 conditions 1 and 2). -/
def carries (g : Geometry) (bank : Nat → Nat) (i : RowIn) (j : Nat) (groups : List Nat) : Bool :=
  (List.range 256).all (fun o =>
    let b := 256 * j + o
    let d := owedDose g bank i b groups
    d == 0 || (let e := bank (entryNo i.row b)
               beLive e && ((pulseCode i.width e (ownDose g bank i b + d)).2.all (fun h => h.cause == 5))))
/-- One beamlet: its own share and what it carries (R182, R187, R270). -/
def beamOf (g : Geometry) (bank : Nat → Nat) (i : RowIn) (carried : List (Nat × List Nat)) (b : Nat) : Beam :=
  let e := bank (entryNo i.row b)
  let extra := carried.foldl (fun a c => if c.1 = b / 256 then a + owedDose g bank i b c.2 else a) 0
  let db := ownDose g bank i b + extra
  if !beFires e then { code := 0, pre := 0, dose := 0, hits := [] }
  else
    let r := if db = 0 then (0, []) else pulseCode i.width e db
    let owed := bit (b / 256) i.own || carried.any (fun c => c.1 == b / 256)
    let pre := if i.preheat && cxPreheatOn i.x && owed then preheatCode i.x (pixelDose g i b) r.1 i.width.dwell i.width.guard else 0
    { code := r.1, pre, dose := db, hits := r.2 }
/-- All beamlets of the row. -/
def beamsOf (g : Geometry) (bank : Nat → Nat) (i : RowIn) (carried : List (Nat × List Nat)) : List Beam :=
  (List.range g.beamlets).map (beamOf g bank i carried)

/-- The inputs of row `r` for line `n` of a pass: a line that is missed or withheld is blank. -/
def rowIn (p : Pass) (r n dwell : Nat) (s : State) : RowIn :=
  let g := geom s
  let c := contextAt p n
  let x := contextBytes s c
  { row := r, line := n, context := c, x := x, feather := contextBytes s p.context
    doses := tget [] p.window n
    width := { kT := factorT s, kV := factorV s, ctxMax := cxMaxWidth x, bezelMax := rd R.SAF_MAX_WIDTH s, dwell := dwell,
               guard := rd R.BSC_GUARD s, minWidth := rd R.PLC_MIN_WIDTH s }
    preheat := p.preheat
    own := ownBlocks g p n r
    ignored := ignoredIn p.ignored c }
/-- makeup_hops (R292). -/
def makeupHops (s : State) : Nat := max 1 (rdf R.MND_CTRL 4 4 s)
/-- A block of a slate is offered to a target of group k (R270, R271). -/
def offered (p : Pass) (k : Nat) (b : SlateBlock) : Bool :=
  !b.groups.isEmpty && b.carrier.isNone && !b.dead && !excluded p k && (b.early || decide (groupPos p b.last < groupPos p k))
/-- Codes that a frame will fire, a REPLACE's where one was sent, and its preheat codes (R250, R274). -/
def frameCodes (f : Frame) : List Nat := match f.replace with | some r => r.codes | none => f.codes
def framePre (f : Frame) : List Nat := match f.replace with | some r => r.pre | none => f.pre
/-- What codes and preheat codes add to a line sum: the codes and 2p ns of preheat (R488). -/
def pulseSum (codes pre : List Nat) : Nat := codes.foldl (· + ·) 0 + 2 * pre.foldl (· + ·) 0
def beamsSum (l : List Beam) : Nat := pulseSum (l.map (·.code)) (l.map (·.pre))
/-- A frame's part of the line sum (R488). -/
def frameSum (f : Frame) : Nat := pulseSum (frameCodes f) (framePre f)
/-- The frames of a line event that the pass still holds. -/
def eventFrames (m : Nat) (s : State) : List Frame := ((curPass s).map (fun p => p.frames.filter (fun f => f.event == m))).getD []
/-- A line sum keeps Bezel's limits: the sum itself, and with it the duty of the block that the line event is in (R271 condition 3,
R486, R489). -/
def sumAllowed (p : Pass) (dwell sum : Nat) (s : State) : Bool :=
  let g := geom s
  let den := g.rowCount * g.beamlets * (p.dutyDwell + dwell)
  decide (sum ≤ rd R.SAF_LINE_SUM_MAX s) && (den == 0 || decide ((p.dutySum + sum) * 65536 / den ≤ rd R.SAF_DUTY_MAX s))
/-- The blocks of the row's slate that the row is offered, each with the groups owed and whether it takes it (R270, R271): `base` is
the line sum without them and with `held`, what the frame carries already.  After a cut there is no make-up. -/
def offers (p : Pass) (g : Geometry) (i : RowIn) (base : Nat) (held : List (Nat × List Nat)) (s : State) : List (Nat × List Nat × Bool) :=
  let e := rowAt g i.row
  let own := beamsSum (beamsOf g (liveEntry s) i held)
  let l := if p.cut.isSome then [] else (tget [] s.dose.mnd.slates (slateKey i.line e.stagger)).filter (fun jb => offered p e.group jb.2)
  (l.foldl (fun (a : List (Nat × List Nat × Bool) × List (Nat × List Nat)) jb =>
    let ks := jb.2.groups.map (·.1)
    let with_ := a.2 ++ [(jb.1, ks)]
    let ok := carries g (liveEntry s) i jb.1 ks && sumAllowed p i.width.dwell (base - own + beamsSum (beamsOf g (liveEntry s) i with_)) s
    (a.1 ++ [(jb.1, ks, ok)], if ok then with_ else a.2)) ([], held)).1
/-- The slate after its offers: a block taken is in flight; one refused passes on, and fails after makeup_hops (R271). -/
def takeOffers (g : Geometry) (i : RowIn) (l : List (Nat × List Nat × Bool)) (s : State) : State :=
  let e := rowAt g i.row
  let hops := makeupHops s
  if l = [] then s
  else
    modSlate (slateKey i.line e.stagger) (fun t => l.foldl (fun t o =>
      tmod {} t o.1 (fun b =>
        if o.2.2 then { b with carrier := some i.row, last := e.group, early := false }
        else { b with hops := b.hops + 1, last := e.group, early := false, dead := decide (b.hops + 1 ≥ hops) })) t) s
/-- The counters of R183 by clamp cause. -/
def widthReg (c : Nat) : RegInfo :=
  if c = 1 then R.BSC_CLAMP_BEAM else if c = 2 then R.BSC_CLAMP_CTX else if c = 3 then R.BSC_CLAMP_BEZEL
  else if c = 4 then R.BSC_CLAMP_DWELL else R.BSC_MINW_LOSS
/-- The clamps of a frame are counted, and each cause is reported once in the pass (R183). -/
def countClamps (i : RowIn) (beams : List Beam) (s : State) : State :=
  let hits := (beams.zip (List.range beams.length)).flatMap (fun bn => bn.1.hits.map (fun h => (bn.2, bn.1.dose, h)))
  each [1, 2, 3, 4, 5] (fun (c : Nat) (s : State) =>
    let mine := hits.filter (fun h => h.2.2.cause == c)
    match mine with
    | [] => s
    | h :: _ =>
      let s := bumpBsc (widthReg c) (if c = 5 then mine.foldl (fun a h => a + h.2.1) 0 else mine.length) s
      match curPass s with
      | none => s
      | some p =>
        if bit c p.clampPosted then s
        else
          postEvent 62 i.row 0 p.cookie [(0, 4, (i.line : Nat)), (4, 1, (c : Nat)), (5, 1, (i.context : Nat)), (6, 2, (h.1 : Nat)),
            (8, 2, (h.2.2.before : Nat)), (10, 2, (h.2.2.after : Nat))]
            (modPass (fun q => { q with clampPosted := setBit c true q.clampPosted }) s)) s
/-- dq of the pixels of a line that no beamlet doses (R179). -/
def countDead (p : Pass) (n : Nat) (s : State) : State :=
  let g := geom s
  let c := contextAt p n
  let x := contextBytes s c
  bumpBsc R.BSC_NO_BEAM_LOSS (((tget [] p.window n).zip (List.range g.columns)).foldl (fun a dc =>
    if columnDead g (liveEntry s) (ignoredIn p.ignored c) x dc.2 then a + dc.1 else a) 0) s
/-- Window entry of line n (R127): the pixels without a beamlet are counted (R179). -/
def doLineWindowEntry (n : Nat) (dFault : Option Nat) (kFaults : List Nat) (s : State) : State :=
  match curPass s with
  | none => s
  | some p =>
    if inPass p n && released p n && mayEnter (geom s) p n && p.cut.isNone && !p.abandoned && modeOf s == 4 &&
        !(p.missed.contains n || p.entered.contains n || p.doneLines.contains n) then
      let s := closeMissRun (enterLine p n dFault kFaults s)
      match curPass s with
      | none => s
      | some q => if q.residueLines.contains n then s else countDead q n s
    else s
/-- LINE_WINDOW_ENTRY (R127). -/
def execLineWindowEntry (n : Nat) (dFault : Option Nat) (kFaults : List Nat) (s : State) : Host.Outcome State Fault Refusal :=
  .next (doLineWindowEntry n dFault kFaults s)
/-- A frame that is not built or not sent: every pulse of it is withheld with a cause, and its crossing is over (R189, R265). -/
def blankAtBuild (p : Pass) (i : RowIn) (cause : Nat) (s : State) : State :=
  withholdRow p i.line i.row i.own cause 0 (crossingDone p i.row i.line s)
/-- A residue check of the frame fails (R188 to R190).  `mulCheck`, `shiftCheck` and `addCheck` hold of every result that the model
forms itself, so a fault is the event's: a result that the hardware formed wrong at this step of this beamlet. -/
def residueFault (p : Pass) (i : RowIn) (beamlet step : Nat) (s : State) : State :=
  let s := wr R.BSC_LAST_FAULT (i.row + 2 ^ 8 * step + 2 ^ 16 * beamlet) (bumpBsc R.BSC_RESIDUE_FAULTS 1 s)
  let s := modPass (fun q => { q with bscFaults := q.bscFaults + 1 }) s
  let n := ((curPass s).map (·.bscFaults)).getD 1
  let s := postEvent 61 i.row 2 p.cookie [(0, 4, (i.line : Nat)), (4, 1, (step : Nat)), (5, 1, (i.context : Nat)), (6, 2, (beamlet : Nat)), (8, 4, (n : Nat))] s
  blankAtBuild p i 3 (askHold (holdRule s 0 2) (n + p.residueLines.length) s)
/-- A frame reads a beam-table entry or a context that is damaged (R373). -/
def memoryBad (g : Geometry) (i : RowIn) (s : State) : Bool :=
  s.dose.bsc.badContexts.contains i.context ||
    s.dose.bsc.badEntries.any (fun e => e.1 == activeBank s && e.2 / 2048 == i.row && decide (e.2 % 2048 < g.beamlets))
/-- The line sum of event m as far as it is known when row `r` is built: the frames that stand, and the own pulses of the rows yet to be
built. -/
def eventBase (p : Pass) (m r dwell : Nat) (s : State) : Nat :=
  let g := geom s
  let fs := eventFrames m s
  fs.foldl (fun a f => a + frameSum f) 0 +
    (((rowsAt g p m).filter (fun rn => decide (r ≤ rn.1) && !fs.any (fun f => f.row == rn.1) && !p.dropped.contains rn)).map (fun rn =>
      beamsSum (beamsOf g (liveEntry s) (rowIn p rn.1 rn.2 dwell s) []))).foldl (· + ·) 0
/-- BSC builds one row frame of line event m.  `faults` lists (row, beamlet, step): a residue check that fails at a step of R190,
or an uncorrectable word at step 0 of the dose window, at step 8 of the beam table, at step 9 of the context (R265, R373). -/
def buildRow (p : Pass) (m : Nat) (faults : List (Nat × Nat × Nat)) (rn : Nat × Nat) (s : State) : State :=
  let g := geom s
  let e := rowAt g rn.1
  let f := firePos g p rn.1 rn.2 s
  let dwell := dwellAt p.dir f s
  let i := rowIn p rn.1 rn.2 dwell s
  let s := wr R.PLC_DWELL dwell s
  let frame (beams : List Beam) (taken : List (Nat × List Nat)) : Frame :=
    { port := e.port, slot := e.slot, row := rn.1, line := rn.2, event := m, context := i.context, preheat := p.preheat,
      codes := beams.map (·.code), pre := beams.map (·.pre), doses := beams.map (·.dose),
      carried := taken.map (fun t => (t.1, maskOf t.2)), fire := f }
  if p.cut.isSome then
    modPass (fun q => { q with frames := q.frames ++ [blankFrame (frame ((List.range g.beamlets).map (fun _ => { code := 0, pre := 0, dose := 0, hits := [] })) [])] }) s
  else if p.blankPorts.contains e.port then blankAtBuild p i 12 s
  else if memoryBad g i s then blankAtBuild p i 14 s
  else
    match faults.find? (fun x => x.1 == rn.1) with
    | some (_, b, 0) =>
      let (v, s) := fresh s
      blankAtBuild p i 14 (sramUe 0 ((v + b) % sramSize / 8 * 8) 0xFF 0 s)
    | some (_, b, 8) =>
      let (v, s) := fresh s
      blankAtBuild p i 14 (census (modBsc (fun x => { x with badEntries := (activeBank s, entryNo rn.1 b) :: x.badEntries }) (sramUe 1 (v % 2 ^ 22 / 8 * 8) 0xFF 0 s)))
    | some (_, _, 9) =>
      let (v, s) := fresh s
      blankAtBuild p i 14 (modBsc (fun x => { x with badContexts := i.context :: x.badContexts }) (sramUe 2 (v % 2 ^ 20 / 8 * 8) 0xFF 0 s))
    | some (_, b, step) =>
      let beams := (beamsOf g (liveEntry s) i []).zip (List.range g.beamlets)
      residueFault p i b step (countClamps i (beams.map (fun x => if x.2 = b then { x.1 with hits := [] } else x.1)) s)
    | none =>
      let l := offers p g i (eventBase p m rn.1 dwell s) [] s
      let taken := (l.filter (·.2.2)).map (fun o => (o.1, o.2.1))
      let beams := beamsOf g (liveEntry s) i taken
      let s := countClamps i beams (takeOffers g i l s)
      modPass (fun q => { q with frames := q.frames ++ [frame beams taken] }) s

/-! ### Bezel's checks (R486, R488, R489, R491) -/

/-- Reset source BEZEL is asserted after a trip of causes 1 to 3 (R491). -/
def bezelReset (s : State) : State := assertSource 6 s
/-- The width check and the line sum of event m (R488).  True: they pass. -/
def bezelLine (m : Nat) (s : State) : Bool × State :=
  let fs := eventFrames m s
  let limit := rd R.SAF_MAX_WIDTH s
  match fs.find? (fun f => (frameCodes f).any (fun c => decide (limit < c))) with
  | some f => (false, bezelReset (bezelTrip 1 f.port ((frameCodes f).foldl max 0) limit f.line s))
  | none =>
    let sum := fs.foldl (fun a f => a + frameSum f) 0
    let s := wr R.SAF_LAST_LINE_SUM sum s
    let cap := rd R.SAF_LINE_SUM_MAX s
    if sum > cap then
      let s := bezelTrip 2 0xFF sum cap 0 s
      (false, bezelReset (postEvent 229 0 2 0 [(4, 4, (sum : Nat)), (8, 4, (cap : Nat)), (12, 4, (m : Nat))] s))
    else (true, s)
/-- Bezel forms the duty of the block that ends at line event m (R489). -/
def bezelDuty (p : Pass) (m : Nat) (s : State) : State :=
  let g := geom s
  let den := g.rowCount * g.beamlets * p.dutyDwell
  let duty := if den = 0 then 0 else p.dutySum * 65536 / den
  let s := wr R.SAF_LAST_DUTY duty (modPass (fun q => { q with dutySum := 0, dutyDwell := 0, dutyCount := 0 }) s)
  let cap := rd R.SAF_DUTY_MAX s
  if duty > cap then
    let s := bezelTrip 3 0xFF duty cap 0 s
    bezelReset (postEvent 228 0 2 0 [(4, 4, (duty : Nat)), (8, 4, (cap : Nat)), (12, 4, (m : Nat))] s)
  else s
/-- Line event m joins its duty block, which ends after 1,024 events or at the pass's last one (R489). -/
def bezelBlock (m : Nat) (s : State) : State :=
  match curPass s with
  | none => s
  | some p =>
    let sum := (eventFrames m s).foldl (fun a f => a + frameSum f) 0
    let q : Pass := { p with dutySum := p.dutySum + sum, dutyDwell := p.dutyDwell + dwellAt p.dir (eventPos (pitchOf s) p m) s, dutyCount := p.dutyCount + 1 }
    let s := modPass (fun x => { x with dutySum := q.dutySum, dutyDwell := q.dutyDwell, dutyCount := q.dutyCount }) s
    if q.dutyCount ≥ 1024 ∨ m = finalEvent (geom s) p then bezelDuty q m s else s

/-! ### The build of a line event (R213) -/

/-- The next line event in pass order whose frames have not been built. -/
def nextBuild (g : Geometry) (p : Pass) : Option Nat := (eventsOf g p).find? (fun m => !p.built.contains m)
/-- Frames of the pass are built and sent: at the pass's speed and in slow-downs under R221, until its axes decelerate (R206); after a
cut blank ones, in HOLD as well (R28, R216). -/
def exposing (p : Pass) (s : State) : Bool :=
  let steady := match (axisOf s 0).prof with
    | none => false
    | some q => axisState 0 s == mProfile && !(axisOf s 0).runHold && (p.begun || profDone q)
  p.profileOn && !p.sendOver && !p.abandoned &&
    (if p.cut.isSome then (modeOf s == 4 || modeOf s == 6) && (external s || steady)
     else modeOf s == 4 && (plcState s == pExpose || (plcState s == pRunout && s.dose.plc.runoutPending)))
/-- Every line that the event needs has entered the dose window, is missed or is withheld. -/
def linesReady (g : Geometry) (p : Pass) (m : Nat) : Bool :=
  (rowsAt g p m).all (fun rn => (tget? p.window rn.2).isSome || p.missed.contains rn.2 || p.residueLines.contains rn.2)
/-- BSC builds every frame of the next line event (R213), with the latest readings of R184 (R185).  On the step input, lines that pass
before the results of R185 are blanked, and the others wait for them (R220). -/
def doFrameBuild (faults : List (Nat × Nat × Nat)) (strips : List (Nat × Nat)) (s : State) : State :=
  match curPass s with
  | none => s
  | some p =>
    let g := geom s
    match nextBuild g p with
    | none => s
    | some m =>
      if !exposing p s || (p.cut.isNone && !linesReady g p m) then s
      else
        let rows := (rowsAt g p m).filter (fun rn => !p.dropped.contains rn)
        let lines := (rows.map (·.2)).eraseDups
        if external s && (s.dose.plc.convT || s.dose.plc.convV) then
          match p.lastEvent with
          | none => s
          | some l => if eventBefore p l m then s else tryComplete strips (linesDone lines strips (dropEventFrames p m 4 s))
        else
          let s := each rows (buildRow p m faults) (factorUpdate s)
          let s := linesDone lines strips (eventBuilt m s)
          let (ok, s) := bezelLine m s
          tryComplete strips (if ok then bezelBlock m s else s)
/-- FRAME_BUILD (R182, R213): the faults the build meets, and the strips whose residue checks fail where a line completes. -/
def execFrameBuild (faults : List (Nat × Nat × Nat)) (strips : List (Nat × Nat)) (s : State) : Host.Outcome State Fault Refusal :=
  .next (doFrameBuild faults strips s)

end Sys2Proof.Machine
end

