-- ==== Sys2Proof/Machine/Placement.lean ====
section
/-! DEFINITION. The commands of placement: the turnaround (R218 to R220), the sending of frames (R213) and late frames (R215). -/

namespace Sys2Proof.Machine

/-- A port leaves IDLE through a FAST_EXIT burst of 128 TRAIN blocks on each lane (R239, R247). -/
def startFastExit (p : Nat) (s : State) : State := if lnkState p s = 11 then modTx p (fun t => { t with burst := 128 * (portOf s p).lanesOut, credit := 0 }) (setLnk p 12 s) else s

/-! ### The turnaround -/

/-- AX0 is at rest: TURN is entered, what waits for the end of a pass is applied, and the next pass is prepared (R218 step 2). -/
def doTurnEntry (s : State) : State :=
  let st := plcState s
  if (st = pIdle ∨ st = pRunout) ∧ s.dose.layer.isSome ∧ modeOf s = 4 ∧ atRest 0 s ∧ !external s then
    turnNext (modPlc (fun c => { c with turnOf := none }) (applyPendingSteps (setPlc pTurn s)))
  else s
/-- TURN_ENTRY (R218). -/
def execTurnEntry (s : State) : Host.Outcome State Fault Refusal := .next (doTurnEntry s)
def doTurnDwellExpiry (s : State) : State := if plcState s = pTurn then modPlc (fun c => { c with dwellDone := true }) s else s
/-- TURN_DWELL_EXPIRY: PLC_EFF_DWELL after TURN began (R218). -/
def execTurnDwellExpiry (s : State) : Host.Outcome State Fault Refusal := .next (doTurnDwellExpiry s)
def doAx1Settle (s : State) : State :=
  match nextPass s with
  | none => s
  | some p =>
    if plcState s = pTurn ∧ atRest 1 s ∧ (pdiff (measPos 1 s) p.stepover).natAbs ≤ rd R.PLC_STEP_TOL s then
      modPlc (fun c => { c with settled := true }) s
    else s
/-- AX1_SETTLE: within PLC_STEP_TOL of the stepover for 1 ms (R218). -/
def execAx1Settle (s : State) : Host.Outcome State Fault Refusal := .next (doAx1Settle s)
def doIntakeStartWaitExpiry (s : State) : State := if plcState s = pTurn then modPlc (fun c => { c with waitOver := true }) s else s
/-- INTAKE_START_WAIT_EXPIRY: DPI_START_WAIT at the turnaround (R121). -/
def execIntakeStartWaitExpiry (s : State) : Host.Outcome State Fault Refusal := .next (doIntakeStartWaitExpiry s)

/-- The head source of the throttle falls at a pass start with every head sensor below its soft limit; an input that has lost the role HEAD is none (R222, R474). -/
def withdrawHead (s : State) : State := if s.thm.band.all (fun e => e.2 == 0 || !isHead e.1 s) then setScale 5 0xFF 0x8000 false s else s
/-- RUNUP begins: the gap of a calibration ends, the mark starts, and AX0's profile runs (R200, R218 step 5, R247, R480). -/
def startRunup (p : Pass) (s : State) : State :=
  let s := endGap s
  let s := { s with dose := { s.dose with layerGap := false } }
  let s := countInvalid s
  let s := wrb R.PLC_STATUS 4 false (setPlc pRunup s)
  let s := wrI R.PLC_MARK (measPos 0 s) (modPlc (fun c => { c with passScale := effScale s, passRate := baseRate s, waitOver := false }) s)
  let s := wr R.DPI_TAG_APPLIED 0 (modPassOf p.index (fun q => { q with profileOn := true }) s)
  let s := each [0, 1, 2, 3] startFastExit s
  startProf 0 (fun _ => runupRamp p s) mProfile s
def doRunupStart (s : State) : State :=
  match nextPass s with
  | none => s
  | some p =>
    if !mayRunUp p s then s
    else
    let s := withdrawHead s
    if roomToRun p s then startRunup p s
    else startMove 0 (runupStart p s) (limitV 0 (rd R.MOT_ENV_VMAX s 0) s) (rd R.MOT_ENV_AMAX s 0) (rd R.MOT_ENV_JMAX s 0) mProfile s
/-- RUNUP_START (R218). -/
def execRunupStart (s : State) : Host.Outcome State Fault Refusal := .next (doRunupStart s)
def doExposeEntry (s : State) : State :=
  match (axisOf s 0).prof with
  | none => s
  | some q => if plcState s = pRunup ∧ profDone q ∧ !(axisOf s 0).runHold then setPlc pExpose s else s
/-- EXPOSE_ENTRY: the speed is reached (R218 step 6). -/
def execExposeEntry (s : State) : Host.Outcome State Fault Refusal := .next (doExposeEntry s)

/-! ### Sending frames (R213, R248 to R251) -/

/-- Beamlet entries packed w bits each (R250). -/
def packEntries (w : Nat) : List Nat → Nat
  | [] => 0
  | e :: r => e % 2 ^ w + 2 ^ w * packEntries w r
/-- The data bytes of a frame (R250). -/
def frameData (preheat : Bool) (codes pre : List Nat) : List Byte :=
  if preheat then leBytes (codes.length * 20 / 8) (packEntries 20 ((codes.zip pre).map (fun x => x.1 % 4096 + 4096 * x.2)))
  else leBytes (codes.length * 12 / 8) (packEntries 12 codes)
/-- FRAME_START bytes 0 to 27 (R249). -/
def frameHead (p : Pass) (f : Frame) (replace : Bool) (tick seq : Nat) : List Byte :=
  leBytes 28 (layout [(0, 1, 1), (1, 1, (b2n replace + 4 * b2n f.preheat : Nat)), (2, 1, (f.row : Nat)), (3, 1, (f.slot : Nat)), (4, 4, (f.line : Nat)),
    (8, 2, (p.number : Nat)), (10, 1, (p.dir : Nat)), (11, 1, (f.context : Nat)), (12, 4, (tick : Nat)), (16, 2, (f.codes.length : Nat)),
    (18, 2, ((f.codes.length * (if f.preheat then 20 else 12) / 256 : Nat) : Nat)), (20, 4, (seq : Nat)), (24, 4, (p.layer : Nat))])
/-- frame_crc (R251). -/
def frameCrc (p : Pass) (f : Frame) (replace : Bool) (tick seq : Nat) (codes pre : List Nat) : Nat :=
  crc32c (frameHead p f replace tick seq ++ frameData f.preheat codes pre ++ leBytes 8 (2 + 2 ^ 32 * (seq % 2 ^ 32)))
/-- The blocks of data bytes. -/
def dataBlocks (data : List Byte) : List Nat := (List.range (data.length / 32)).map (fun i => bytesAt data (32 * i) 32)
/-- A frame leaves as consecutive stream blocks: FRAME_START, its data blocks, FRAME_END (R248 to R251). -/
def sendBlocks (p : Pass) (f : Frame) (replace : Bool) (tick seq crc : Nat) (codes pre : List Nat) (s : State) : State :=
  let s := emit (.rowFrame f.port f.row p.number f.line tick seq replace codes) s
  let s := sendStream f.port 1 (controlBlock (bytesAt (frameHead p f replace tick seq) 0 28)) s
  let s := each (dataBlocks (frameData f.preheat codes pre)) (sendStream f.port 0) s
  sendBlock f.port 2 [(4, 4, (seq : Nat)), (8, 4, (crc : Nat))] s
/-- What a queued frame reads as where a word of the outbound queue is uncorrectable: its codes are free, and the port sends them so; its
frame_crc stays the one formed before (R265, R373). -/
def damagedCodes (codes : List Nat) (s : State) : List Nat × State :=
  ((List.range codes.length).map (fun i => Config.freeNat (s.freeCtr + i) % 4096), { s with freeCtr := s.freeCtr + codes.length })
/-- One frame goes out on its port with its fire tick, under the prediction now in force (R208, R213, R248). -/
def sendRowFrame (p : Pass) (f : Frame) (tick : Nat) (damaged : Bool) (s : State) : State :=
  let seq := (portOf s f.port).frameSeq
  let crc := frameCrc p f false tick seq f.codes f.pre
  let c := s.dose.plc
  let sent : Sent := { tick, seq, crc, e0 := c.e0, e1 := c.e1, tLast := c.tLast, prof := if external s then none else (axisOf s 0).prof, sentE := nowE s }
  let s := modPort f.port (fun x => { x with frameSeq := (seq + 1) % 2 ^ 32 }) s
  let s := bumpLnk R.LNK_FRAMES_SENT f.port s
  let s := modPassOf p.index (fun q => { q with
    frames := q.frames.map (fun x => if x.row = f.row ∧ x.line = f.line then { x with sent := some sent } else x)
    sentLines := if f.blank || q.sentLines.contains f.line then q.sentLines else f.line :: q.sentLines }) s
  let (codes, s) := if damaged then damagedCodes f.codes s else (f.codes, s)
  sendBlocks p f false tick seq crc codes f.pre s
/-- A word of the outbound queue that the port reads, with a correctable (1) or an uncorrectable (2) error (R373); where it lies is a free
value (log entry 60). -/
def queueWord (found : Nat) (s : State) : State :=
  if found = 0 then s
  else
    let (v, s) := fresh s
    if found = 1 then sramCe 3 (v % 2 ^ 23 / 8 * 8) 0xFF s else sramUe 3 (v % 2 ^ 23 / 8 * 8) 0xFF 0 s
/-- Frames of a pass are late on a port: blanked, counted, and owed with cause LATE (R215, R268). -/
def lateRows (p : Pass) (port kind : Nat) (strips : List (Nat × Nat)) (rows : List (Nat × Nat)) (s : State) : State :=
  match rows with
  | [] => s
  | (r0, n0) :: _ =>
    let g := geom s
    let p := (passOf p.index s).getD p
    let s := match tget? p.late port with
      | some run => if run.kind = kind then s else endLate p port s
      | none => s
    let s := modPassOf p.index (fun q => { q with late := tmod { kind, row := r0, line := n0, count := 0 } q.late port (fun x => { x with count := x.count + rows.length }) }) s
    let s := bump R.PLC_LATE_FRAMES rows.length (satPlc 0x78) s
    let s := each rows (fun rn s => withholdRow p rn.2 rn.1 (ownBlocks g p rn.2 rn.1) 4 0 (crossingDone p rn.1 rn.2 s)) s
    tryComplete strips (linesDone (rows.map (·.2)).eraseDups strips s)
/-- Ticks that 20 lines take at the dwell of a frame (R213). -/
def twentyLines (p : Pass) (f : Frame) (s : State) : Nat := 20 * dwellAt p.dir f.fire s * rd R.PLC_TICK_RATE s / 2 ^ 30
/-- The earliest line event, in pass order, of which a port still has frames to send. -/
def nextSend (p : Pass) (port : Nat) : Option Nat :=
  match (p.frames.filter (fun f => f.port == port && f.sent.isNone)).map (·.event) with
  | [] => none
  | m :: r => some (r.foldl (fun a b => if eventBefore p b a then b else a) m)
/-- The position that the mark must reach before a set of frames is sent (R213). -/
def sendThreshold (p : Pass) (fs : List Frame) (s : State) : Int :=
  let lead : Int := (rd R.PLC_SEND_LEAD s * pitchOf s : Nat)
  let f0 := fs.foldl (fun a f => if p.dir = 0 then min a f.fire else max a f.fire) ((fs.head?.map (·.fire)).getD 0)
  if p.dir = 0 then f0 - lead else f0 + lead
/-- Ascending slot order (R248). -/
def bySlot (fs : List Frame) : List Frame := (List.range 32).flatMap (fun i => fs.filter (fun f => f.slot == i))
/-- Sending is held by a trip or by a fit that is not yet full (R211, R214). -/
def sendHeld (s : State) : Bool := rdb R.PLC_STATUS 5 s || s.dose.plc.needSamples != 0 || s.time.fitStale
/-- The frames of the next line event are sent on a port (R213): those too late are blanked.  `found`: what the port reads of the first
frame's queue words, 1 a correctable and 2 an uncorrectable one (R373). -/
def doFrameSend (port found : Nat) (strips : List (Nat × Nat)) (s : State) : State :=
  match curPass s with
  | none => s
  | some p =>
    match nextSend p port with
    | none => s
    | some m =>
      let fs := bySlot (p.frames.filter (fun f => f.port == port && f.event == m && f.sent.isNone))
      if sendHeld s || !exposing p s || !beyond p (rdI R.PLC_MARK s) (sendThreshold p fs s) then s
      else if lnkState port s = 11 then startFastExit port s
      else if lnkState port s ≠ 10 ∨ !s.dose.plc.anchors.contains port then s
      else
        let plan := fs.map (fun f => (f, tickAt port (predictTime p.dir f.fire s) s))
        let now := tickOf port s
        if plan.any (fun x => decide (sdiff 32 x.2 now > (twentyLines p x.1 s : Int)) || decide (sdiff 32 x.2 now > 2 ^ 28)) then s
        else
          let good := plan.filter (fun x => decide (sdiff 32 x.2 now ≥ 4096))
          let bad := plan.filter (fun x => decide (sdiff 32 x.2 now < 4096))
          let s := if good = [] then s else endLate p port s
          let s := sif (good ≠ []) (queueWord found) s
          let s := each good (fun x s => sendRowFrame p x.1 x.2 (found == 2 && good.head? == some x) s) s
          let s := modPassOf p.index (fun q => { q with frames := q.frames.filter (fun f => !(bad.any (fun b => b.1.row == f.row && b.1.line == f.line))) }) s
          let s := each bad (fun x s => dropCarrier x.1 s) s
          lateRows p port 1 strips (bad.map (fun x => (x.1.row, x.1.line))) s
/-- FRAME_SEND: port, the queue words found damaged, and the strips whose residue checks fail where a line completes (R213). -/
def execFrameSend (port found : Nat) (strips : List (Nat × Nat)) (s : State) : Host.Outcome State Fault Refusal :=
  .next (doFrameSend port found strips s)

/-- Frames of a line event have not reached their port in time: NOT_READY where BSC had not built them, PORT where the port did
not accept them (R215). -/
def doFrameLate (port event : Nat) (strips : List (Nat × Nat)) (s : State) : State :=
  match curPass s with
  | none => s
  | some p =>
    if p.sendOver || p.abandoned || !p.profileOn then s
    else if p.built.contains event then
      let fs := p.frames.filter (fun f => f.port == port && f.event == event && f.sent.isNone)
      let s := modPassOf p.index (fun q => { q with frames := q.frames.filter (fun f => !(f.port == port && f.event == event && f.sent.isNone)) }) s
      lateRows p port 3 strips (fs.map (fun f => (f.row, f.line))) (each fs dropCarrier s)
    else
      let g := geom s
      let rows := (rowsAt g p event).filter (fun rn => (rowAt g rn.1).port == port && !p.dropped.contains rn)
      lateRows p port 1 strips rows (modPassOf p.index (fun q => { q with dropped := q.dropped ++ rows }) s)
/-- FRAME_LATE (R215). -/
def execFrameLate (port event : Nat) (strips : List (Nat × Nat)) (s : State) : Host.Outcome State Fault Refusal := .next (doFrameLate port event strips s)

end Sys2Proof.Machine
end

