-- ==== Sys2Proof/Machine/Link.lean ====
section
/-! DEFINITION. The dose link's training, tick alignment, fast retrain, IDLE and telemetry (R229 to R247, R252, R259, R261). -/

namespace Sys2Proof.Machine

/-- A port in use has gone down: whether policy chooses HOLD the spec leaves to policy, and the choice is a free value (R26, log
entry 3). -/
def portLost (p : Nat) (s : State) : State :=
  let s := loseAnchor p s
  if !(portsInUse s).contains p then s
  else
    let (v, s) := fresh s
    if v % 2 = 1 then holdCause 9 (modCtl (fun c => { c with lostPorts := if c.lostPorts.contains p then c.lostPorts else p :: c.lostPorts }) s) else s
/-- A training fails: recorded, reported once in the run, and DETECT follows after 10 ms (R239). -/
def trainFail (p cause lane : Nat) (s : State) : State :=
  let n := min 65535 (rdf R.LNK_TRAIN_FAIL 16 16 s p + 1)
  let s := wr R.LNK_TRAIN_FAIL (lnkState p s + 2 ^ 8 * cause + 2 ^ 16 * n) s p
  let s := if (portOf s p).downPosted then s else postDown p cause lane (modPort p (fun x => { x with downPosted := true }) s)
  modPort p (fun x => { x with failed := true }) s
/-- A control block that takes part in tick alignment: kind, exchange number and a time in 1/16 tick (R244). -/
def sendTick (p kind : Nat) (t16 : Int) (s : State) : State :=
  let t := toBits 36 t16
  sendBlock p 7 [(1, 1, (kind : Nat)), (2, 2, ((portOf s p).exchange : Nat)), (4, 4, ((t / 16 : Nat) : Nat)), (8, 1, ((t % 16 : Nat) : Nat))] s
/-- The port's tick in 1/16 tick. -/
def tick16 (p : Nat) (s : State) : Nat := (portOf s p).tick256 / 16 % 2 ^ 36
/-- A SYNC or CHECK exchange starts (R244, R245). -/
def startExchange (p kind : Nat) (s : State) : State :=
  let t := tick16 p s
  let s := modPort p (fun x => { x with exchange := (x.exchange + 1) % 65536, t1 := t, kind, waiting := true }) s
  sendTick p kind t s
/-- A port that is ACTIVE again is tested against the line rate of the pass in execution (R231). -/
def slowAgain (p : Nat) (s : State) : State :=
  match curPass s with
  | none => setScale 6 p 0x8000 false (showCap p s)
  | some q => slowTest q.profileOn p s
/-- The port enters ACTIVE; after full training LINK_UP is posted and the frame sequence restarts (R239, R248). -/
def enterActive (p : Nat) (s : State) : State :=
  let s := setLnk p 10 s
  let s := modPort p (fun x => { x with frameSeq := 0, downPosted := false, openPosted := [], failed := false }) s
  let s := slowAgain p (wrf R.LNK_TRAIN_FAIL 16 16 0 s p)
  postEvent (80 + 8 * p) p 0 0 [(0, 1, (lnkVersion p s : Nat)), (1, 1, ((portOf s p).lanesOut : Nat)), (2, 1, ((portOf s p).lanesBack : Nat)),
    (4, 8, (rd R.LNK_BOARD_ID s p : Nat)), (12, 4, (rdf R.LNK_TICK_RTT 0 16 s p : Nat))] s
/-- A fast retrain starts (R246): timeouts are deferred, and the port is slow (R41); by how much the spec does not say, so the
scale is a free value below 1. -/
def startRetrain (p cause : Nat) (s : State) : State :=
  let s := clearTraining p s
  let s := modPort p (fun x => { x with retrain := some (cause, s.time.ns), deferEnding := false, module := rdf R.TSY_MODULE 0 10 s }) s
  let s := wrb R.LNK_STATUS 18 true (setLnk p 4 s) p
  let s := loseAnchor p (bumpLnk R.LNK_RETRAINS p s)
  match curPass s with
  | none => s
  | some q =>
    if (portsInUse s).contains p then
      let (v, s) := fresh s
      slowPort p (0x0800 + v % 0x7800) q.profileOn s
    else s
/-- A fast retrain ends, in ACTIVE or in DETECT (R246, R262). -/
def postRetrain (p outcome : Nat) (s : State) : State :=
  match (portOf s p).retrain with
  | none => s
  | some (cause, start) =>
    let s := modPort p (fun x => { x with retrain := none }) s
    let s := if outcome = 0 then slowAgain p s else s
    postEvent (82 + 8 * p) p 1 0 [(0, 1, (cause : Nat)), (1, 1, (outcome : Nat)), (2, 2, (min 65535 ((s.time.ns - start) / 1000) : Nat)),
      (4, 4, ((outstandingOn p s).length : Nat))] s
/-- The tick step of training, or the CHECK of a fast retrain, has passed (R244, R246). -/
def tickPassed (p : Nat) (s : State) : State :=
  if (portOf s p).retrain.isSome then
    postRetrain p 0 (modPort p (fun x => { x with deferEnding := true }) (setLnk p 10 s))
  else enterActive p s
/-- What the board has found on the outbound lanes no block tells: the logical lanes it inverted, at the end of POLARITY, and whether it
remapped them, at the end of MAP, are free values, and each is reported (R241, R262, R263, log entry 3). -/
def boardPolarity (p : Nat) (s : State) : State :=
  let (v, s) := fresh s
  let found := (List.range (portOf s p).lanesOut).filter (fun k => bit k v)
  each found (fun k s => laneFault p (physLane p k s) 0 4 s) (wrf R.LNK_LANE_POL 0 8 (maskOf found) s p)
def boardMap (p : Nat) (s : State) : State :=
  let (v, s) := fresh s
  let s := wrb R.LNK_LANE_POL 10 (bit 0 v) s p
  if bit 0 v then laneFault p (physLane p 0 s) 0 5 s else s
/-- The order of the return lanes that MAP has found (R241, R263). -/
def returnMap (p : Nat) (s : State) : State :=
  match (portOf s p).backMap.find? (fun e => e.1 != e.2) with
  | none => wrb R.LNK_LANE_POL 11 false s p
  | some e => laneFault p e.1 1 5 (wrb R.LNK_LANE_POL 11 true s p)
/-- The largest skew that is absorbed, 8 ns, in UI of the outbound lanes and of the return lanes (R242). -/
def skewOut (s : State) : Nat := if rdb R.LNK_RATE 0 s then 206 else 425
def skewBack (s : State) : Nat := if rdb R.LNK_RATE 0 s then 103 else 212
/-- Both sides meet the exit condition of the present state: the next one (R239, R240, R246).  The outbound skew is measured by the
board, and no block tells it: a free value up to the 8 ns (R242, R263, log entry 29). -/
def advance (p : Nat) (s : State) : State :=
  let x := portOf s p
  if !(x.mineDone && x.theirsDone) then s
  else
    let st := lnkState p s
    let s := modPort p (fun x => { x with mineDone := false, theirsDone := false, trainRuns := [], alignSeq := [] }) s
    match st with
    | 3 => setLnk p 4 (modPort p (fun x => { x with rx := x.rx.map (fun e => (e.1, { e.2 with locked := false, run := 0, window := [] })) }) s)
    | 5 => setLnk p 6 (boardPolarity p s)
    | 6 => setLnk p 7 (modTx p (fun t => { t with since := 0 }) (returnMap p (boardMap p s)))
    | 7 =>
      let (v, s) := fresh s
      let s := wrf R.LNK_SKEW 0 10 (v % (skewOut s + 1)) s p
      if x.retrain.isSome then startExchange p 2 (beginStream p (setLnk p 9 s))
      else
        let s := beginStream p (setLnk p 8 s)
        sendBlock p 8 [(1, 1, 0), (2, 1, (rdf R.LNK_CTRL 2 3 s p &&& (if rdb R.LNK_RATE 0 s then 1 else 6) : Nat)), (3, 1, (x.lanesOut : Nat)),
          (4, 1, (x.lanesBack : Nat)), (5, 1, (p : Nat)), (6, 2, ((portOf s p).module : Nat))] s
    | _ => setLnk p (st + 1) s

/-! ### Training commands -/

/-- The far-end test of DETECT (R239, R241): the clock lane is terminated, the data lanes that are, and those that are shorted. -/
def doLinkDetectPoll (p : Nat) (clock : Bool) (lanes shorts : Nat) (s : State) : State :=
  if p ≥ 4 ∨ lnkState p s ≠ 1 ∨ (portOf s p).failed then s
  else
    let healthy := onesOf 8 lanes
    let bad := (List.range 8).filter (fun i => !healthy.contains i)
    let s := each (bad.filter (fun i => !(portOf s p).openPosted.contains i)) (fun i s =>
      laneFault p i 0 (if bit i shorts then 2 else 1) (modPort p (fun x => { x with openPosted := i :: x.openPosted }) s)) s
    let use := if healthy.length = 8 then healthy else if rdb R.LNK_CTRL 5 s p ∧ healthy.length ≥ 4 then healthy.take 4 else []
    if !clock || use = [] then s
    else
      let narrow := use.length = 4
      let map := (List.range 8).foldl (fun m i => m + 2 ^ (4 * i) * (match use.findIdx? (· == i) with | some k => k | none => 15)) 0
      let s := wr R.LNK_LANE_MAP map s p
      let s := wrf R.LNK_STATUS 8 8 (maskOf use) (wrb R.LNK_STATUS 6 narrow s p) p
      let s := clearTraining p (modPort p (fun x => { x with lanesOut := use.length, module := rdf R.TSY_MODULE 0 10 s }) s)
      let s := if narrow then laneFault p (bad.headD 0) 0 7 s else s
      setLnk p 2 s
/-- LINK_DETECT_POLL (R239). -/
def execLinkDetectPoll (port : Nat) (clock : Bool) (lanes shorts : Nat) (s : State) : Host.Outcome State Fault Refusal := .next (doLinkDetectPoll port clock lanes shorts s)
/-- The return clock is locked: BITLOCK, on both return lanes or, with allow_x4, on the healthy one (R239, R241). -/
def doReturnClockLock (p : Nat) (lanes : Nat) (s : State) : State :=
  if p ≥ 4 ∨ lnkState p s ≠ 2 ∨ (portOf s p).failed then s
  else
    let one := decide (lanes % 4 = 1 ∨ lanes % 4 = 2) && rdb R.LNK_CTRL 5 s p
    let use := if one then lanes % 4 else 3
    let s := wrf R.LNK_STATUS 16 2 use (wrb R.LNK_STATUS 7 one s p) p
    let s := modPort p (fun x => { x with lanesBack := popcount 2 use, tx := {} }) s
    let s := if one then laneFault p (if use = 1 then 1 else 0) 1 7 s else s
    setLnk p 3 s
/-- RETURN_CLOCK_LOCK (R239): the healthy return lanes. -/
def execReturnClockLock (port lanes : Nat) (s : State) : Host.Outcome State Fault Refusal := .next (doReturnClockLock port lanes s)
/-- A training state's time is over (R239); a fast retrain has its own limit (R246). -/
def doLinkTrainTimeout (p : Nat) (s : State) : State :=
  let st := lnkState p s
  if p ≥ 4 ∨ (portOf s p).failed ∨ (portOf s p).retrain.isSome ∨ st < 2 ∨ st > 9 then s
  else trainFail p (match st with | 2 => 6 | 6 => 4 | 8 => 2 | 9 => 9 | _ => 1) 0xFF s
/-- LINK_TRAIN_TIMEOUT (R239). -/
def execLinkTrainTimeout (port : Nat) (s : State) : Host.Outcome State Fault Refusal := .next (doLinkTrainTimeout port s)
def doLinkRetryDelay (p : Nat) (s : State) : State :=
  if (portOf s p).failed ∧ lnkState p s ≠ 0 then clearPort p 1 (modPort p (fun x => { x with failed := false }) s) else s
/-- LINK_RETRY_DELAY: 10 ms after a training failure (R239). -/
def execLinkRetryDelay (port : Nat) (s : State) : Host.Outcome State Fault Refusal := .next (doLinkRetryDelay port s)
/-- A TRAIN block as it arrives, in either polarity: whether it is inverted, and its bytes upright (R240, R241). -/
def trainOf (bs : List Byte) : Option (Bool × List Byte) :=
  let known := fun (l : List Byte) => l.length == 32 && bytesAt l 0 1 == 6 && ((l.drop 6).take 22).all (· == 0x4B)
  let inv := bs.map (fun b => ~~~b)
  if known bs then some (false, bs) else if known inv then some (true, inv) else none
/-- block_crc of a control block holds (R234). -/
def blockOk (bs : List Byte) : Bool := bs.length == 32 && bytesAt bs 28 4 == crc32c (bs.take 28)
def modRx (p lane : Nat) (f : RxLane → RxLane) (s : State) : State := modPort p (fun x => { x with rx := tmod {} x.rx lane f }) s
/-- A lane loses lock (R237, R246): a return lane of this side, or an outbound lane of the board's. -/
def doLaneLockLoss (p lane : Nat) (back : Bool) (s : State) : State :=
  let used := if back then (backLanes p s).contains lane else bit lane (rdf R.LNK_STATUS 8 8 s p)
  if p < 4 ∧ used then
    let s := if back then modRx p lane (fun l => { l with locked := false, run := 0 }) s else s
    if lnkUp p s then startRetrain p 1 (laneFault p lane (b2n back) 3 s) else s
  else s
/-- LANE_LOCK_LOSS (R237). -/
def execLaneLockLoss (port lane : Nat) (back : Bool) (s : State) : Host.Outcome State Fault Refusal := .next (doLaneLockLoss port lane back s)
/-- A return block is discarded (R234, R236, R237, R246): 0 invalid header, 1 stuffing error, 2 failed block_crc, 3 reserved type.
`headers` counts the valid headers on the lane since the last command that gave them; 16 invalid ones among the last 64 lose lock. -/
def doReturnBlockInvalid (p lane kind headers : Nat) (s : State) : State :=
  if p ≥ 4 then s
  else if kind = 0 then
    let had := laneLocked p lane s
    let s := modRx p lane (fun l => badHeader (goodHeaders headers l)) (bumpLnk R.LNK_HDR_ERRORS p s)
    if had && !laneLocked p lane s then doLaneLockLoss p lane true s else s
  else if kind = 1 then bumpLnk R.LNK_STUFF_ERRORS p s
  else
    let s := bumpLnk R.LNK_BLOCK_CRC_ERRORS p s
    if kind ≠ 2 ∨ !lnkUp p s then s
    else
      let now := s.time.ns
      let l := now :: ((portOf s p).crcFails.filter (fun t => decide (now < t + 1000000)))
      let s := modPort p (fun x => { x with crcFails := l }) s
      if l.length ≥ 16 then startRetrain p 4 (modPort p (fun x => { x with crcFails := [] }) s) else s
/-- RETURN_BLOCK_INVALID (R234). -/
def execReturnBlockInvalid (port lane kind headers : Nat) (s : State) : Host.Outcome State Fault Refusal :=
  .next (doReturnBlockInvalid port lane kind headers s)
/-- The board's side of the present state's exit (R239, R240): it has gone further, or it stands there with done set and, in BITLOCK and
HUNT, reports lock on every outbound lane. -/
def partnerDone (p : Nat) (b : List Byte) (s : State) : Bool :=
  let st := lnkState p s
  let theirs := bytesAt b 3 1
  let all := 2 ^ (portOf s p).lanesOut - 1
  decide (theirs > st) || (theirs == st && bit 0 (bytesAt b 4 1) && (decide (st > 4) || bytesAt b 5 1 &&& all == all))
/-- This side's part: what a TRAIN block of ID `id` and polarity `inverted` on a return lane means in the present state (R239 to R241). -/
def ownDone (p lane : Nat) (inverted : Bool) (id : Nat) (s : State) : State :=
  let x := portOf s p
  let setDone := fun (b : Bool) (s : State) => modPort p (fun x => { x with mineDone := b }) s
  match lnkState p s with
  | 3 => setDone ((backLanes p s).all (fun l => laneLocked p l s)) s
  | 4 => setDone ((backLanes p s).all (fun l => laneLocked p l s)) s
  | 5 =>
    if inverted = bit lane x.backInverted then
      let s := modPort p (fun x => { x with trainRuns := tmod 0 x.trainRuns lane (· + 1) }) s
      setDone ((backLanes p s).all (fun l => decide (tget 0 (portOf s p).trainRuns l ≥ 16))) s
    else if inverted then
      laneFault p lane 1 4 (wrb R.LNK_LANE_POL (8 + lane) true (modPort p (fun x => { x with backInverted := setBit lane true x.backInverted, trainRuns := tset x.trainRuns lane 0 }) s) p)
    else modPort p (fun x => { x with trainRuns := tset x.trainRuns lane 0 }) s
  | 6 =>
    if inverted ≠ bit lane x.backInverted then s
    else
      let s := modPort p (fun x => { x with backMap := tset x.backMap lane id }) s
      let m := (portOf s p).backMap
      let n := (backLanes p s).length
      setDone (m.length == n && (List.range n).all (fun i => (m.filter (fun e => e.2 == i)).length == 1)) s
  | _ => s
/-- A TRAIN block on a return lane as it arrives (R240, R241): its 32 bytes in either polarity, whether the lane's receiver has bit lock,
and the valid headers on the lane since the last command that gave them, this block's included.  A block that is none, or whose
block_crc fails, is discarded (R234). -/
def doTrainBlockRx (p lane : Nat) (block : List Byte) (bitLock : Bool) (headers : Nat) (s : State) : State :=
  let st := lnkState p s
  if p ≥ 4 ∨ st < 3 ∨ st > 7 ∨ (portOf s p).failed ∨ !(backLanes p s).contains lane then s
  else
    let s := modRx p lane (fun l => goodHeaders headers { l with bitLocked := bitLock }) s
    match trainOf block with
    | none => doReturnBlockInvalid p lane 3 0 s
    | some (inverted, b) =>
      if !blockOk b then doReturnBlockInvalid p lane 2 0 s
      else
        let s := if partnerDone p b s then modPort p (fun x => { x with theirsDone := true }) s else s
        advance p (ownDone p lane inverted (bytesAt b 1 1) s)
/-- TRAIN_BLOCK_RX (R240). -/
def execTrainBlockRx (port lane : Nat) (block : List Byte) (bitLock : Bool) (headers : Nat) (s : State) : Host.Outcome State Fault Refusal :=
  .next (doTrainBlockRx port lane block bitLock headers s)
/-- An ALIGN block on a return lane with its sequence and the skew measured in UI (R242).  The commands of the return lanes bring blocks
that are already descrambled, so outside DESKEW it changes nothing that the model holds (R235, log entry 29). -/
def doAlignBlockRx (p lane seq skew : Nat) (s : State) : State :=
  if p ≥ 4 ∨ lnkState p s ≠ 7 ∨ (portOf s p).failed ∨ !(backLanes p s).contains lane then s
  else
    let s := wrf R.LNK_SKEW 16 10 (min skew 1023) s p
    if skew > skewBack s then
      let s := laneFault p lane 1 6 s
      if (portOf s p).retrain.isSome then s else trainFail p 1 lane s
    else
      let s := modPort p (fun x => { x with alignSeq := tset x.alignSeq lane seq }) s
      let ok := (backLanes p s).all (fun l => tget? (portOf s p).alignSeq l == some seq)
      advance p (modPort p (fun x => { x with mineDone := x.mineDone || ok }) s)
/-- ALIGN_BLOCK_RX (R242). -/
def execAlignBlockRx (port lane seq skew : Nat) (s : State) : Host.Outcome State Fault Refusal := .next (doAlignBlockRx port lane seq skew s)
/-- The module's version mask (R230, R243). -/
def ownMask (p : Nat) (s : State) : Nat := rdf R.LNK_CTRL 2 3 s p &&& (if rdb R.LNK_RATE 0 s then 1 else 6)
/-- The slots that the geometry asks of a port's board (R243). -/
def slotsNeeded (p : Nat) (s : State) : Nat := ((geom s).rows.filter (fun e => e.port == p)).foldl (fun m e => max m (e.slot + 1)) 0
/-- A CAPABILITY block, by the bytes of R243. -/
def doCapabilityRx (p : Nat) (body : List Byte) (s : State) : State :=
  if p ≥ 4 ∨ lnkState p s ≠ 8 ∨ (portOf s p).failed then s
  else if bytesAt body 1 1 = 0 then
    let theirs := bytesAt body 2 1 % 8
    let slots := bytesAt body 3 1
    let depth := bytesAt body 4 2
    let s := wr R.LNK_CAP (theirs + 2 ^ 8 * (slots % 64) + 2 ^ 15 * (bytesAt body 6 1 % 2) + 2 ^ 16 * depth) s p
    let s := wr R.LNK_BOARD_ID (bytesAt body 12 8) (wr R.LNK_BOARD_LAT (bytesAt body 8 2 + 2 ^ 16 * bytesAt body 10 2) s p) p
    let both := theirs &&& ownMask p s
    if both = 0 then trainFail p 2 0xFF s
    else if slots < slotsNeeded p s ∨ depth < 32 then trainFail p 3 0xFF s
    else
      let v := if bit 2 both then 3 else if bit 1 both then 2 else 1
      let s := modPort p (fun x => { x with offered := v }) s
      sendBlock p 8 [(1, 1, 1), (2, 1, (v : Nat)), (3, 1, ((portOf s p).lanesOut : Nat)), (4, 1, ((portOf s p).lanesBack : Nat)), (5, 1, (p : Nat)),
        (6, 2, ((portOf s p).module : Nat))] s
  else if bytesAt body 1 1 = 1 ∧ bytesAt body 2 1 = (portOf s p).offered ∧ (portOf s p).offered ≠ 0 then
    let v := (portOf s p).offered
    let s := setLnk p 9 (wrf R.LNK_STATUS 4 2 v s p)
    let cap := rd R.LNK_CAP s p
    let s := postEvent (87 + 8 * p) p 0 0 [(0, 1, (v : Nat)), (1, 1, (bits 0 3 cap : Nat)), (2, 1, (ownMask p s : Nat)), (3, 1, (bits 8 6 cap : Nat)),
      (4, 2, (bits 16 16 cap : Nat)), (6, 1, (bits 15 1 cap : Nat)), (8, 8, (rd R.LNK_BOARD_ID s p : Nat))] s
    startExchange p 0 (modPort p (fun x => { x with offsets := [], flights := [], repeats := 0 }) s)
  else s
/-- CAPABILITY_RX (R243). -/
def execCapabilityRx (port : Nat) (body : List Byte) (s : State) : Host.Outcome State Fault Refusal := .next (doCapabilityRx port body s)

/-! ### Tick alignment (R244, R245) -/

/-- A number added to a rising list. -/
def insertI (x : Int) : List Int → List Int
  | [] => [x]
  | y :: r => if x ≤ y then x :: y :: r else y :: insertI x r
/-- The offset and the flight of an exchange, both in 1/32 tick, so that the half of step 3 is exact (R7, R244). -/
def exchangeOf (p t2 t3 t4 : Nat) (s : State) : Int × Int :=
  let lmtx : Int := (rdf R.LNK_LAT 0 16 s p : Nat)
  let lmrx : Int := (rdf R.LNK_LAT 16 16 s p : Nat)
  let lbrx : Int := (rdf R.LNK_BOARD_LAT 0 16 s p : Nat)
  let lbtx : Int := (rdf R.LNK_BOARD_LAT 16 16 s p : Nat)
  let t1 := (portOf s p).t1
  let f := sdiff 36 t4 t1 - sdiff 36 t3 t2 - (lmtx + lbrx + lbtx + lmrx)
  (2 * (sdiff 36 t2 t1 - lmtx - lbrx) - f, f)
/-- Eight offsets have been measured (R244 steps 4 and 5): the mean of six is rounded to 1/16 tick, a half up (log entry 25). -/
def alignTicks (p : Nat) (s : State) : State :=
  let l := (portOf s p).offsets.foldl (fun a x => insertI x a) []
  let six := (l.drop 1).take 6
  let spread := ((six.getLast?).getD 0 - six.headD 0).toNat
  let s := wrf R.LNK_TICK_RTT 16 16 (min (spread / 2) 65535) s p
  if spread > 32 then
    if (portOf s p).repeats ≥ 3 then trainFail p 9 0xFF s
    else startExchange p 0 (modPort p (fun x => { x with offsets := [], flights := [], repeats := x.repeats + 1 }) s)
  else
    let mean := (six.foldl (· + ·) 0 + 6) / 12
    let s := modPort p (fun x => { x with exchange := (x.exchange + 1) % 65536, kind := 1, waiting := true }) s
    sendTick p 1 mean s
/-- The answer of the exchange under way: kind, number and the board's stamps in 1/16 tick (R244, R245). -/
def doTickReplyRx (p kind number t2 t3 : Nat) (s : State) : State :=
  let x := portOf s p
  let st := lnkState p s
  if p ≥ 4 ∨ !(st = 9 ∨ st = 10) ∨ x.failed ∨ !x.waiting ∨ x.kind ≠ kind ∨ x.exchange ≠ number then s
  else
    let s := modPort p (fun x => { x with waiting := false }) s
    if kind = 1 then startExchange p 2 s
    else
      let (o, f) := exchangeOf p t2 t3 (tick16 p s) s
      if kind = 0 then
        let s := wrf R.LNK_TICK_RTT 0 16 (toBits 16 (f / 2)) (modPort p (fun x => { x with offsets := x.offsets ++ [o], flights := x.flights ++ [f] }) s) p
        if (portOf s p).offsets.length ≥ 8 then alignTicks p s else startExchange p 0 s
      else
        let s := wrI R.LNK_TICK_OFFSET (o / 2) s p
        if st = 9 then (if o.natAbs ≤ 4 then tickPassed p s else s)
        else if o.natAbs > 32 then startRetrain p 2 s else s
/-- TICK_REPLY_RX (R244). -/
def execTickReplyRx (port kind number t2 t3 : Nat) (s : State) : Host.Outcome State Fault Refusal := .next (doTickReplyRx port kind number t2 t3 s)
def doTickCheckTimer (p : Nat) (s : State) : State :=
  if lnkState p s = 10 then startExchange p 2 s
  else if lnkState p s = 11 then startFastExit p (modPort p (fun x => { x with checkDue := true }) s) else s
/-- TICK_CHECK_TIMER: every 10 ms (R245, R247). -/
def execTickCheckTimer (port : Nat) (s : State) : Host.Outcome State Fault Refusal := .next (doTickCheckTimer port s)

/-! ### IDLE, fast exit, fast retrain (R246, R247) -/

def doLinkIdleEntry (p : Nat) (s : State) : State :=
  if lnkState p s = 10 ∧ rdb R.LNK_CTRL 6 s p ∧ outstandingOn p s = [] ∧ plcState s ≤ pTurn then setLnk p 11 s else s
/-- LINK_IDLE_ENTRY: no frame for LNK_IDLE_DELAY (R247). -/
def execLinkIdleEntry (port : Nat) (s : State) : Host.Outcome State Fault Refusal := .next (doLinkIdleEntry port s)
/-- A return-lane IDLE block with the board's version ends a FAST_EXIT (R239, R252). -/
def doReturnIdleRx (p version : Nat) (s : State) : State :=
  if lnkState p s = 12 ∧ version ≠ 0 then
    let s := setLnk p 10 s
    if (portOf s p).checkDue then startExchange p 2 (modPort p (fun x => { x with checkDue := false }) s) else s
  else s
/-- RETURN_IDLE_RX (R252). -/
def execReturnIdleRx (port version : Nat) (s : State) : Host.Outcome State Fault Refusal := .next (doReturnIdleRx port version s)
/-- FAST_EXIT_TIMEOUT: a fast retrain follows (R239). -/
def execFastExitTimeout (port : Nat) (s : State) : Host.Outcome State Fault Refusal := .next (if lnkState port s = 12 then startRetrain port 1 s else s)
/-- LINK_RETRAIN_REQUEST (R246). -/
def execLinkRetrainRequest (port : Nat) (s : State) : Host.Outcome State Fault Refusal := .next (if port < 4 ∧ lnkUp port s then startRetrain port 3 s else s)
/-- A TELEMETRY block: its 32 bytes go to UPLOAD stream 6 behind TT (R259).  One of another type, or whose block_crc fails, is discarded
(R234). -/
def doTelemetryRx (p : Nat) (block : List Byte) (s : State) : State :=
  if p ≥ 4 ∨ !lnkUp p s then s
  else if bytesAt block 0 1 ≠ 0x12 then doReturnBlockInvalid p 0 3 0 s
  else if !blockOk block then doReturnBlockInvalid p 0 2 0 s
  else uploadRecord stTelemetry (leBytes 8 (ttNow s) ++ block) s
/-- TELEMETRY_RX (R259). -/
def execTelemetryRx (port : Nat) (block : List Byte) (s : State) : Host.Outcome State Fault Refusal := .next (doTelemetryRx port block s)

/-- The port is turned off, or let train from DETECT, which it does not in STANDBY (R239, R261). -/
def writeLnkEnable (p : Nat) (on : Bool) (s : State) : State :=
  let was := lnkState p s
  let s := wrb R.LNK_CTRL 0 on s p
  if on then (if was = 0 ∧ s.pwr.asserted = [] ∧ s.pwr.due.isNone ∧ modeOf s > 1 then clearPort p 1 s else s)
  else if was = 0 then s
  else
    let s := postDown p 7 0xFF s
    let s := if (portOf s p).retrain.isSome then postRetrain p 1 s else s
    portLost p (clearPort p 0 (modPort p (fun x => { x with clockStopped := true, deferEnding := false, failed := false }) s))
/-- LINK_ENABLE_WRITE (R261). -/
def execLinkEnableWrite (port : Nat) (on : Bool) (s : State) : Host.Outcome State Fault Refusal := .next (if port < 4 then writeLnkEnable port on s else s)
/-- A geometry is accepted that gives a port a slot its board does not serve: the next negotiation is forced at once with a full retrain
(R261). -/
def checkSlots (p : Nat) (s : State) : State :=
  if (lnkUp p s || lnkState p s == 9 || (portOf s p).retrain.isSome) && decide (rdf R.LNK_CAP 8 6 s p < slotsNeeded p s) then
    portLost p (clearPort p 1 (modPort p (fun x => { x with failed := false, deferEnding := false }) (postRetrain p 1 s)))
  else s

end Sys2Proof.Machine
end

