-- ==== Sys2Proof/Machine/Ack.lean ====
section
/-! DEFINITION. Verdicts: how a frame that was sent resolves (R255 to R258, R261), make-up by replacement (R274), and discards of
the mend log (R281, R282). -/

namespace Sys2Proof.Machine

/-! ### Make-up after a verdict (R272 to R274) -/

/-- The slate of a frame's line and stagger. -/
def slateOf (f : Frame) (s : State) : Nat := slateKey f.line (rowAt (geom s) f.row).stagger
/-- Changes the blocks of the frame's slate, where it is in use. -/
def modFrameSlate (f : Frame) (g : Nat × SlateBlock → Nat × SlateBlock) (s : State) : State :=
  let key := slateOf f s
  if (tget? s.dose.mnd.slates key).isNone then s else modSlate key (fun t => t.map g) s
/-- The carried groups of a frame that fired are owed no more (R272). -/
def clearCarried (f : Frame) (carried : List (Nat × Nat)) (s : State) : State :=
  modFrameSlate f (fun jb =>
    match carried.find? (fun c => c.1 == jb.1) with
    | none => jb
    | some c => (jb.1, { jb.2 with groups := jb.2.groups.filter (fun x => !bit x.1 c.2), carrier := none })) s
/-- Blocks are in flight no more, and stay owed (R272, R274). -/
def freeBlocks (f : Frame) (blocks : List Nat) (s : State) : State :=
  modFrameSlate f (fun jb => if blocks.contains jb.1 then (jb.1, { jb.2 with carrier := none }) else jb) s
/-- What a frame carried is owed again under a cause that is not made up (R268, R272): the rows that owe it go toward the log. -/
def oweCarried (f : Frame) (carried : List (Nat × Nat)) (cause flags : Nat) (s : State) : State :=
  let g := geom s
  let st := (rowAt g f.row).stagger
  let s := clearCarried f carried s
  each carried (fun c s => each (onesOf 16 c.2) (fun k s =>
    oweLine f.line { row := rowOf g k st, blocks := 2 ^ c.1, cause := cause, flags := flags } s) s) s
/-- All blocks that a frame carries, its REPLACE included. -/
def allCarried (f : Frame) : List (Nat × Nat) := match f.replace with | some r => r.carried | none => f.carried
/-- A REPLACE of a frame may go out (R254, R266, R274): its port is ACTIVE at JNL3, replacement is enabled, the frame has neither been
recalled nor replaced, its tick lies far enough ahead, and its line's last crossing has not been built. -/
def mayReplace (p : Pass) (f : Frame) (s : State) : Bool :=
  rdb R.MND_CTRL 1 s && lnkVersion f.port s == 3 && lnkState f.port s == 10 && !f.recalled && f.replace.isNone && !f.blank && p.cut.isNone &&
    decide (sdiff 32 (fireTick f) (tickOf f.port s) ≥ 4096) && !p.built.contains (trailEvent (geom s) p f.line)
/-- Sets the REPLACE of a frame, or takes it back. -/
def setReplace (p : Pass) (f : Frame) (r : Option Replacement) (s : State) : State :=
  modPassOf p.index (fun q => { q with frames := q.frames.map (fun x => if x.row = f.row ∧ x.line = f.line then { x with replace := r } else x) }) s
/-- One REPLACE for a frame that was sent, with every block it can take and the preheat codes of the combined pulses (R187, R254, R271,
R274).  It counts as sent once Bezel has passed it. -/
def tryReplace (p : Pass) (f : Frame) (s : State) : State :=
  let g := geom s
  let i := rowIn p f.row f.line (dwellAt p.dir f.fire s) s
  let held := f.carried.map (fun c => (c.1, onesOf 16 c.2))
  let base := (eventFrames f.event s).foldl (fun a f => a + frameSum f) 0
  let l := (offers p g i base held s).filter (·.2.2)
  if l = [] ∨ !mayReplace p f s then s
  else
    let carried := held ++ l.map (fun o => (o.1, o.2.1))
    let beams := beamsOf g (liveEntry s) i carried
    let codes := beams.map (·.code)
    let pre := beams.map (·.pre)
    let seq := (portOf s f.port).frameSeq
    let crc := frameCrc p f true (fireTick f) seq codes pre
    let r : Replacement := { seq, crc, codes, pre, doses := beams.map (·.dose), carried := carried.map (fun c => (c.1, maskOf c.2)) }
    let (ok, s) := bezelLine f.event (setReplace p f (some r) (takeOffers g i l (countClamps i beams s)))
    if ok then
      let s := modPort f.port (fun x => { x with frameSeq := (seq + 1) % 2 ^ 32 }) s
      let s := bumpMnd R.MND_REPLACE_BLOCKS carried.length (bumpLnk R.LNK_REPLACED f.port (bumpLnk R.LNK_FRAMES_SENT f.port s))
      sendBlocks p f true (fireTick f) seq crc codes pre s
    else setReplace p f none (freeBlocks f (l.map (·.1)) s)
/-- Targets of a line and stagger that were sent before the verdict came take the block by REPLACE, in pass order (R273, R274). -/
def replaceTargets (i line stagger : Nat) (s : State) : State :=
  match passOf i s with
  | none => s
  | some p =>
    let g := geom s
    let ks := (List.range g.groupCount).map (fun k => if p.dir = 0 then k else g.groupCount - 1 - k)
    each ks (fun k s =>
      match ((passOf i s).map (fun q => q.frames.find? (fun f => f.line == line && f.row == rowOf g k stagger && f.sent.isSome))).join with
      | none => s
      | some f => tryReplace p f s) s

/-! ### Resolution (R256 to R258, R272, R282) -/

/-- The frame is resolved: it leaves the pass, its crossing is over, and its verdict is kept (R256, R258). -/
def resolve (p : Pass) (f : Frame) (fired timedOut : Bool) (s : State) : State :=
  let r : Resolved := { row := f.row, pass := p.number, line := f.line, fired, timedOut, crc := (f.sent.map (·.crc)).getD 0, tick := fireTick f,
                        replaced := f.replace.isSome }
  let s := modPassOf p.index (fun q => { q with frames := q.frames.filter (fun x => !(x.row == f.row && x.line == f.line)) }) s
  let s := modPort f.port (fun x => { x with resolved := r :: x.resolved }) s
  releaseEnable f.port (crossingDone p f.row f.line s)
/-- What follows every resolution: lines and the pass may be done (R114, R275). -/
def afterResolve (line : Nat) (strips : List (Nat × Nat)) (s : State) : State := tryComplete strips (linesDone [line] strips s)
/-- A run of blanked frames goes on or a new one starts (R262). -/
def blankRun (f : Frame) (reason echo blame : Nat) (truncated : Bool) (s : State) : State :=
  let s := endTimeouts f.port s
  let s := match (portOf s f.port).blankRun with
    | some r => if r.kind = reason then s else endBlank f.port s
    | none => s
  modPort f.port (fun x => { x with blankRun := some (match x.blankRun with
    | some r => { r with count := r.count + 1 }
    | none => { kind := reason, row := f.row, line := f.line, count := 1, extra := echo, blame := blame, flags := b2n truncated }) }) s
/-- CRC_ECHO_MISMATCH (R257, R258, R262). -/
def postEcho (port cause row pass line sent echo : Nat) (s : State) : State :=
  postEvent (84 + 8 * port) port 2 0 [(0, 1, (cause : Nat)), (1, 1, (row : Nat)), (2, 2, (pass : Nat)), (4, 4, (line : Nat)), (8, 4, (sent : Nat)), (12, 4, (echo : Nat))] (holdFlag 0 s)
/-- A frame resolves FIRED (R152, R257, R267, R272, R282, R514).  `rep`: its REPLACE superseded it. -/
def resolveFired (p : Pass) (f : Frame) (rep truncated : Bool) (echo : Nat) (s : State) : State :=
  let s := endTimeouts f.port (endBlank f.port s)
  let first := (f.codes, f.pre, f.doses, f.carried, (f.sent.map (·.crc)).getD 0)
  let (codes, pre, doses, carried, crc) : List Nat × List Nat × List Nat × List (Nat × Nat) × Nat := match f.replace with
    | some r => if rep then (r.codes, r.pre, r.doses, r.carried, r.crc) else first
    | none => first
  let s := freeBlocks f ((allCarried f).map (·.1)) s
  if lnkVersion f.port s = 3 ∧ echo ≠ crc then
    let s := bumpMnd R.MND_ECHO_FIRED 1 (bumpLnk R.LNK_ECHO_MISMATCH f.port s)
    resolve p f true false (postEcho f.port 1 f.row p.number f.line crc echo (clearCarried f carried s))
  else
    let s := bumpLnk R.LNK_FRAMES_FIRED f.port s
    let s := fireUsage ((List.range codes.length).map (fun b =>
      (beGroup (liveEntry s (entryNo f.row b)), codes.getD b 0 + 2 * pre.getD b 0))) s
    let s := emitDose p f codes doses s
    let s := if codes.any (· != 0) then modPassOf p.index (fun q => { q with firedLines := if q.firedLines.contains f.line then q.firedLines else f.line :: q.firedLines }) s else s
    if truncated then
      let s := withholdRow p f.line f.row (ownBlocks (geom s) p f.line f.row) 20 (flTruncated + flUncertain) s
      resolve p f true false (oweCarried f carried 20 (flTruncated + flUncertain) s)
    else
      let n := carried.length
      let s := clearCarried f carried s
      let s := if rep then modPassOf p.index (fun q => { q with replaced := q.replaced + n }) s
        else bumpMnd R.MND_MAKEUP_BLOCKS n (modPassOf p.index (fun q => { q with madeUp := q.madeUp + n }) s)
      resolve p f true false s
/-- The pulses of a frame that did not fire are withheld with a cause (R268, R272). -/
def withholdFrame (p : Pass) (f : Frame) (cause flags : Nat) (s : State) : State :=
  let carried := allCarried f
  let s := if makeupCause cause then freeBlocks f (carried.map (·.1)) s else oweCarried f carried cause flags s
  let s := withholdRow p f.line f.row (ownBlocks (geom s) p f.line f.row) cause flags s
  if makeupCause cause then replaceTargets p.index f.line (rowAt (geom s) f.row).stagger s else s
/-- A frame resolves BLANKED by a verdict (R213, R257, R268). -/
def resolveBlanked (p : Pass) (f : Frame) (reason : Nat) (truncated : Bool) (echo : Nat) (s : State) : State :=
  let v := lnkVersion f.port s
  let crc := (f.sent.map (·.crc)).getD 0
  let s := bumpLnk R.LNK_FRAMES_BLANKED f.port s
  let same := echo == crc || (f.replace.map (·.crc)) == some echo
  let (blame, s) : Nat × State :=
    if reason = 1 ∧ v = 3 then (if same then (2, bumpLnk R.LNK_CHECK_CORRUPT f.port s) else (1, bumpLnk R.LNK_DATA_CORRUPT f.port s))
    else if reason = 0 then (3, s)
    else (if reason = 1 then 0 else 3, bumpLnk (R.LNK_BLANK_REASON (reason - 1)) f.port s)
  let s := blankRun f reason echo blame truncated s
  let cause := if reason = 3 ∨ (reason = 4 ∧ v = 1 ∧ !truncated ∧ f.recalled) then 5 else 16 + reason
  let flags := if cause = 20 ∧ truncated then flTruncated + flUncertain else 0
  withholdFrame p f cause flags (resolve p f false false s)
/-- A frame resolves by the timeout (R256, R262, R268). -/
def resolveTimeout (p : Pass) (f : Frame) (s : State) : State :=
  let s := bumpLnk R.LNK_ACK_TIMEOUTS f.port (bumpLnk R.LNK_FRAMES_BLANKED f.port s)
  let s := endBlank f.port s
  let s := match (portOf s f.port).timeoutRun with
    | some r => if r.kind = 1 then s else endTimeouts f.port s
    | none => s
  let s := modPort f.port (fun x => { x with timeoutRun := some (match x.timeoutRun with
    | some r => { r with count := r.count + 1 }
    | none => { kind := 1, row := f.row, line := f.line, count := 1, extra := fireTick f }) }) s
  withholdFrame p f 7 flUncertain (resolve p f false true s)
/-- A FIRED record after a timeout (R258, R282): EV ACK_TIMEOUT LATE_FIRED, and the open UNCERTAIN entries that cover the frame are
marked. -/
def lateFired (port : Nat) (r : Resolved) (s : State) : State :=
  let s := endBlank port s
  let s := match (portOf s port).timeoutRun with
    | some x => if x.kind = 2 then s else endTimeouts port s
    | none => s
  let s := modPort port (fun x => { x with timeoutRun := some (match x.timeoutRun with
    | some y => { y with count := y.count + 1 }
    | none => { kind := 2, row := r.row, line := r.line, count := 1, extra := r.tick }) }) s
  let g := geom s
  modMnd (fun m => { m with log := m.log.map (fun e =>
    if e.status = 0 ∧ bit 1 e.flags ∧ e.pass = r.pass ∧ entryCovers g e r.line r.row then
      { e with flags := e.flags ||| flLateFired } else e) }) s
/-- A driver board that acknowledges late is slow: the stage is scaled, by how much the spec does not say (a free value below 1, log
entry 3), or its rows are blanked for the rest of the swath (R41, R222).  Once in a pass for a port. -/
def lateBoard (port : Nat) (s : State) : State :=
  match curPass s with
  | none => s
  | some p =>
    if !(portsInUse s).contains port || p.blankPorts.contains port || decide (tget 0x8000 s.dose.plc.scales (48 + port % 8) < 0x8000) then s
    else
      let (v, s) := fresh s
      slowPort port (0x0800 + v % 0x7800) p.profileOn s
/-- A record that matches no outstanding frame (R41, R258, R261). -/
def strayRecord (port : Nat) (a : AckRec) (s : State) : State :=
  let fired := a.verdict % 4 == 1
  match (portOf s port).resolved.find? (fun r => r.row == a.row && r.pass == a.pass && r.line == a.line) with
  | none => s
  | some r =>
    if r.timedOut then
      let s := lateBoard port (bumpLnk R.LNK_LATE_ACKS port s)
      if fired then lateFired port r s else s
    else if r.fired = fired then s
    else if r.replaced ∧ !fired ∧ a.verdict / 4 % 8 = 2 then s
    else postEcho port 2 a.row a.pass a.line r.crc a.echo s
/-- The frame's timeouts are deferred: a fast retrain runs or has just ended (R256). -/
def deferred (p : Nat) (s : State) : Bool := rdb R.LNK_STATUS 18 s p
/-- Ticks from the fire tick to the deadline: 50 µs at the lane rate (R256). -/
def ackTicks : Nat := 83008
/-- One verdict record (R255 to R258). -/
def takeRecord (port : Nat) (strips : List (Nat × Nat)) (a : AckRec) (s : State) : State :=
  match (s.dose.passes.filterMap (fun p => (p.frames.find? (fun f => f.port == port && f.sent.isSome && f.row == a.row && f.line == a.line && p.number == a.pass)).map (fun f => (p, f)))).head? with
  | none => strayRecord port a s
  | some (p, f) =>
    let verdict := a.verdict % 4
    let reason := a.verdict / 4 % 8
    let rep := bit 5 a.verdict && f.replace.isSome
    if sdiff 32 (tickOf port s) (fireTick f) > ackTicks ∧ !deferred port s then
      strayRecord port a (afterResolve f.line strips (resolveTimeout p f s))
    else if verdict = 1 then
      afterResolve f.line strips (resolveFired p f rep (bit 6 a.verdict) a.echo s)
    else if verdict = 2 then
      if reason = 2 ∧ f.replace.isSome ∧ !rep then
        let extra := (allCarried f).filter (fun c => !f.carried.any (fun o => o.1 == c.1))
        let s := freeBlocks f (extra.map (·.1)) s
        setReplace p f none s
      else afterResolve f.line strips (resolveBlanked p f reason (bit 6 a.verdict) a.echo s)
    else s
/-- ACK_BLOCK_RX (R255, R256): its one or two records, and the strips whose residue checks fail. -/
def execAckBlockRx (port : Nat) (recs : List AckRec) (strips : List (Nat × Nat)) (s : State) : Host.Outcome State Fault Refusal :=
  .next (if port < 4 ∧ lnkState port s ≠ 0 then each (recs.take 2) (takeRecord port strips) s else s)
/-- The outstanding frame of a port that fires first. -/
def oldestOn (port : Nat) (s : State) : Option (Pass × Frame) :=
  (s.dose.passes.filterMap (fun p =>
    match p.frames.filter (fun f => f.port == port && f.sent.isSome) with
    | [] => none
    | f :: r => some (p, r.foldl (fun a b => if sdiff 32 (fireTick b) (fireTick a) < 0 then b else a) f))).head?
/-- No ACK of the port's earliest frame by its deadline (R256). -/
def doAckTimeout (port : Nat) (strips : List (Nat × Nat)) (s : State) : State :=
  if deferred port s then s
  else
    match oldestOn port s with
    | none => s
    | some (p, f) => afterResolve f.line strips (resolveTimeout p f s)
/-- ACK_TIMEOUT (R256). -/
def execAckTimeout (port : Nat) (strips : List (Nat × Nat)) (s : State) : Host.Outcome State Fault Refusal := .next (doAckTimeout port strips s)
/-- ACK_DEFER_END: 50 µs after a fast retrain has ended (R256). -/
def execAckDeferEnd (port : Nat) (s : State) : Host.Outcome State Fault Refusal :=
  .next (if (portOf s port).deferEnding then wrb R.LNK_STATUS 18 false (modPort port (fun x => { x with deferEnding := false }) s) port else s)
/-- Every outstanding frame of a port resolves (R256, R261): `late n` gives the cause for a frame whose fire tick is n ticks ahead. -/
def resolveAll (port : Nat) (strips : List (Nat × Nat)) (timeout : Frame → Bool) (s : State) : State :=
  each (s.dose.passes.flatMap (fun p => (p.frames.filter (fun f => f.port == port && f.sent.isSome)).map (fun f => (p.index, f)))) (fun (x : Nat × Frame) s =>
    match passOf x.1 s with
    | none => s
    | some p => afterResolve x.2.line strips (if timeout x.2 then resolveTimeout p x.2 s else resolveBlanked p x.2 5 false 0 s)) s
/-- A fast retrain has not ended within 1 ms: the port falls to DETECT, and deferred frames time out (R246, R256). -/
def doFastRetrainTimeout (p : Nat) (strips : List (Nat × Nat)) (s : State) : State :=
  if (portOf s p).retrain.isNone then s
  else
    let n := min 65535 (rdf R.LNK_TRAIN_FAIL 16 16 s p + 1)
    let s := wr R.LNK_TRAIN_FAIL (lnkState p s + 2 ^ 8 * 5 + 2 ^ 16 * n) s p
    let s := if (portOf s p).downPosted then s else postDown p 5 0xFF (modPort p (fun x => { x with downPosted := true }) s)
    let s := postRetrain p 1 s
    let s := resolveAll p strips (fun _ => true) s
    portLost p (clearPort p 1 (modPort p (fun x => { x with deferEnding := false }) s))
/-- FAST_RETRAIN_TIMEOUT (R246). -/
def execFastRetrainTimeout (port : Nat) (strips : List (Nat × Nat)) (s : State) : Host.Outcome State Fault Refusal := .next (doFastRetrainTimeout port strips s)
/-- The forwarded clock of a port that was turned off has stood for 1 µs: its frames count as BLANKED, with the reason of duty 12 (R260,
R261). -/
def doLinkClockStopTimeout (p : Nat) (strips : List (Nat × Nat)) (s : State) : State :=
  if (portOf s p).clockStopped then
    resolveAll p strips (fun _ => false) (modPort p (fun x => { x with clockStopped := false }) s)
  else s
/-- LINK_CLOCK_STOP_TIMEOUT (R261). -/
def execLinkClockStopTimeout (port : Nat) (strips : List (Nat × Nat)) (s : State) : Host.Outcome State Fault Refusal := .next (doLinkClockStopTimeout port strips s)

/-- A write to MND_DISCARD: an OPEN entry leaves the log, unless a mend pass has selected it (R281). -/
def writeDiscard (seq : Nat) (s : State) : State :=
  match findEntry seq s with
  | none => s
  | some e => if s.dose.passes.any (fun p => p.mend && selectable p e) then s else removeEntry seq 3 s
/-- MEND_LOG_DISCARD (R281). -/
def execMendLogDiscard (value : Word32) (s : State) : Host.Outcome State Fault Refusal := .next (writeDiscard value.toNat s)

end Sys2Proof.Machine
end

