-- ==== Sys2Proof/Machine/Arb.lean ====
section
/-! DEFINITION. The arbiter (R375 to R383) and the end of a self-refresh entry (R361, R362). -/

namespace Sys2Proof.Machine

def modArb (f : ArbState → ArbState) (s : State) : State := { s with arb := f s.arb }
/-- The owner of slot `i` in the active bank; 10 and above is open (R375). -/
def slotOwner (i : Nat) (s : State) : Nat :=
  let v := if rdb R.ARB_STATUS 0 s then rd R.ARB_SLOT_BANK1 s (i / 8) else rd R.ARB_SLOT_BANK0 s (i / 8)
  bits (4 * (i % 8)) 4 v
def slotPointer (s : State) : Nat := rdf R.ARB_STATUS 8 8 s
def requesting (r : Nat) (s : State) : Bool := (tget? s.arb.requests r).isSome
/-- DP_INTAKE is urgent while the lead of the running pass is low (R378). -/
def intakeUrgent (s : State) : Bool := rdb R.DPI_STATUS 4 s && (curPass s).isSome
/-- THERM is urgent while THE has a line within 4 lines of its deadline, 21 lines before the leading row (R127, R378). -/
def thermUrgent (s : State) : Bool :=
  match curPass s with
  | none => false
  | some p =>
    thermalOn s && p.profileOn && (List.range p.count).any (fun i =>
      let n := p.first + i
      let d : Int := (25 * pitchOf s : Nat)
      let x := eventPos (pitchOf s) p (leadEvent (geom s) p n : Nat)
      released p n && !p.entered.contains n && !p.doneLines.contains n && !p.missed.contains n &&
        beyond p (rdI R.PLC_MARK s) (if p.dir = 0 then x - d else x + d))
/-- The urgent requesters, DP_INTAKE first. -/
def urgentOnes (s : State) : List Nat := (if intakeUrgent s then [rqIntake] else []) ++ (if thermUrgent s then [rqTherm] else [])
def owedOf (r : Nat) (s : State) : List Nat := tget [] s.arb.owed r
def setOwed (r : Nat) (l : List Nat) (s : State) : State :=
  wr R.ARB_OWED l.length (modArb (fun a => { a with owed := if l = [] then terase a.owed r else tset a.owed r l }) s) r
/-- ARB_STATUS shows the holder and who is urgent (R386). -/
def showArb (s : State) : State :=
  let u := urgentOnes s
  wrf R.ARB_STATUS 24 2 (b2n (u.contains 0) + 2 * b2n (u.contains 1)) (wrf R.ARB_STATUS 16 4 (s.arb.holder.getD 15) s)
/-- The requester with the highest credit, on a tie the lowest ID. -/
def bestCredit (l : List (Nat × Int)) : Option Nat :=
  match l with
  | [] => none
  | x :: r => some (r.foldl (fun (b : Nat × Int) e => if e.2 > b.2 then e else b) x).1
/-- Rule 4 of R378: credits rise by weight; the winner pays their sum. -/
def background (s : State) : Option Nat × State :=
  let rs := (List.range 10).filter (fun r => requesting r s && rdf R.ARB_CFG 0 8 s r != 0)
  let s := modArb (fun a => { a with credit := rs.foldl (fun t r => tmod 0 t r (· + (rdf R.ARB_CFG 0 8 s r : Nat))) a.credit }) s
  let total := rs.foldl (fun n r => n + rdf R.ARB_CFG 0 8 s r) 0
  match bestCredit (rs.map (fun r => (r, tget 0 s.arb.credit r))) with
  | none => (none, s)
  | some w => (some w, modArb (fun a => { a with credit := tmod 0 a.credit w (· - (total : Nat)) }) s)
/-- The owed requester whose oldest owed slot is oldest (R378 rule 2). -/
def oldestOwed (s : State) : Option Nat :=
  let l := (List.range 10).filterMap (fun r => if requesting r s then (owedOf r s).head?.map (fun n => (n, r)) else none)
  let best := l.foldl (fun m e => min m e.1) (s.arb.slotNo + 1)
  (l.find? (fun e => e.1 == best)).map (·.2)
/-- A grant under the requester's burst limit (R377, R383). -/
def grant (r : Nat) (s : State) : State := modArb (fun a => { a with holder := some r, limit := min 4096 (max 1 (rdf R.ARB_CFG 8 13 s r)) }) s
/-- The arbiter decides (R378) while no grant is held and DRAM is granted from. -/
def decideGrant (s : State) : State :=
  if s.arb.holder.isSome ∨ rdf R.MEMC_STATUS 0 3 s ≠ 2 then showArb s
  else
    match (urgentOnes s).find? (fun r => requesting r s) with
    | some r => showArb (grant r s)
    | none =>
      match oldestOwed s with
      | some r => showArb (grant r (setOwed r ((owedOf r s).drop 1) s))
      | none =>
        let o := slotOwner (slotPointer s) s
        if o < 10 && requesting o s then showArb (grant o s)
        else
          let (w, s) := background s
          showArb (match w with
            | some r => grant r s
            | none => s)
/-- A requester stops requesting: its credit is 0 and its owed slots are forfeited (R378, R379). -/
def dropRequest (r : Nat) (s : State) : State :=
  setOwed r [] (modArb (fun a => { a with requests := terase a.requests r, credit := terase a.credit r }) s)

def doArbRequest (r : Nat) (afterSre : Bool) (s : State) : State :=
  if r ≥ 10 then s
  else
    let now := s.time.ns
    let raise := fun (s : State) => if requesting r s then s else modArb (fun a => { a with requests := tset a.requests r now }) s
    match rdf R.MEMC_STATUS 0 3 s with
    | 3 =>
      if s.mem.srReason ≠ 0 then (if afterSre then s else decideGrant (raise (wrf R.MEMC_STATUS 0 3 2 s)))
      else if r = rqScrub then raise s
      else if !afterSre then decideGrant (raise (wrf R.MEMC_STATUS 0 3 2 s))
      else modMem (fun m => { m with srWake := if m.srWake.isNone then some (r, now) else m.srWake }) (raise s)
    | 4 =>
      if s.mem.srReason ≠ 0 then s
      else if r = rqScrub then raise s
      else decideGrant (raise (exitSelfRefresh r now s))
    | _ => decideGrant (raise s)
/-- ARB_REQUEST (R362, R363, R378): the requester, and whether the request falls after the start of step 3 of R361. -/
def execArbRequest (requester : Nat) (afterSre : Bool) (s : State) : Host.Outcome State Fault Refusal := .next (doArbRequest requester afterSre s)
/-- The entry that a request held off for STANDBY or at a reset goes on once nobody holds a grant (R363). -/
def resumeEntry (s : State) : State :=
  if s.mem.srReason ≠ 0 ∧ rdf R.MEMC_STATUS 0 3 s = 2 ∧ s.arb.holder = none then wrf R.MEMC_STATUS 0 3 3 s else s
def doSrEntryComplete (s : State) : State :=
  if rdf R.MEMC_STATUS 0 3 s ≠ 3 then s
  else
    let s := bumpMem R.MEMC_SR_COUNT 1 (wrf R.MEMC_STATUS 0 3 4 s)
    match s.mem.srWake with
    | none => s
    | some w => if s.mem.srReason ≠ 0 then s else decideGrant (exitSelfRefresh w.1 w.2 s)
/-- SR_ENTRY_COMPLETE (R361, R362). -/
def execSrEntryComplete (s : State) : Host.Outcome State Fault Refusal := .next (doSrEntryComplete s)
def doArbGrantEnd (dropAt : Option Nat) (s : State) : State :=
  match s.arb.holder with
  | none => s
  | some h =>
    let n := match dropAt with
      | none => s.arb.limit
      | some n => min n s.arb.limit
    let s := modArb (fun a => { a with holder := none }) (bump R.ARB_GRANTS n (satArb (0x100 + 4 * h)) s h)
    resumeEntry <| decideGrant (match dropAt with
      | none => modArb (fun a => { a with requests := tset a.requests h s.time.ns }) s
      | some _ => dropRequest h s)
/-- ARB_GRANT_END (R377): the holder reaches its burst limit, or drops its request after some accesses. -/
def execArbGrantEnd (dropAt : Option Nat) (s : State) : Host.Outcome State Fault Refusal := .next (doArbGrantEnd dropAt s)
/-- A requester's guarantee breaks: slots are lost (R379). -/
def breakGuarantee (r reason n : Nat) (s : State) : State :=
  let s := bump R.ARB_BROKEN n (satArb (0x140 + 4 * r)) s r
  let lost := tget 0 s.arb.lost r + n
  let wrap := s.arb.slotNo / 256 + 1
  if tget 0 s.arb.postedWrap r = wrap then modArb (fun a => { a with lost := tset a.lost r lost }) s
  else
    let by_ := match s.arb.holder with
      | some h => if (urgentOnes s).contains h then h else 0xFF
      | none => 0xFF
    postEvent 190 r 1 0 [(0, 1, (by_ : Nat)), (1, 1, (reason : Nat)), (4, 4, (lost : Nat))]
      (modArb (fun a => { a with lost := terase a.lost r, postedWrap := tset a.postedWrap r wrap }) s)
/-- A requester's owed slots against ARB_OWED_MAX and the age of 256 slots; what breaks is no longer owed (R379, log entry 33). -/
def checkOwed (r : Nat) (s : State) : State :=
  let old := (owedOf r s).filter (fun n => decide (n + 256 ≤ s.arb.slotNo))
  let s := if old = [] then s else breakGuarantee r 2 old.length (setOwed r ((owedOf r s).drop old.length) s)
  if (owedOf r s).length > max 1 (rdf R.ARB_OWED_MAX 0 8 s) then breakGuarantee r 1 1 (setOwed r ((owedOf r s).drop 1) s) else s
def doArbSlotAdvance (s : State) : State :=
  let i := (slotPointer s + 1) % 256
  let s := modArb (fun a => { a with slotNo := a.slotNo + 1 }) (wrf R.ARB_STATUS 8 8 i s)
  let s := if i = 0 ∧ rdb R.ARB_CTRL 0 s then wrb R.ARB_STATUS 0 (!rdb R.ARB_STATUS 0 s) (wrb R.ARB_CTRL 0 false s) else s
  let o := slotOwner i s
  let held := match s.arb.holder with
    | some h => h != o
    | none => false
  let s := if decide (o < 10) && requesting o s && held then setOwed o (owedOf o s ++ [s.arb.slotNo]) s else s
  showArb (each (List.range 10) checkOwed s)
/-- ARB_SLOT_ADVANCE (R375, R379, R383). -/
def execArbSlotAdvance (s : State) : Host.Outcome State Fault Refusal := .next (doArbSlotAdvance s)
def doArbWaitBreak (w : Nat) (s : State) : State :=
  match s.arb.holder, tget? s.arb.requests w with
  | some h, some tw =>
    if h = w then s
    else
      let th := tget 0 s.arb.requests h
      let young := if th > tw then h else w
      let other := if th > tw then w else h
      let s := dropRequest young s
      let s := if young = h then modArb (fun a => { a with holder := none }) s else s
      let s := bump R.ARB_WAIT_BREAKS 1 (satArb 0x10) s
      let s := postEvent 189 young 1 0 [(0, 1, (other : Nat)), (4, 4, (((s.time.ns - tw) * 8 / 5 : Nat) : Nat))] s
      decideGrant s
  | _, _ => s
/-- ARB_WAIT_BREAK (R382): the requester that has waited too long while the holder admits nothing. -/
def execArbWaitBreak (waiter : Nat) (s : State) : Host.Outcome State Fault Refusal := .next (doArbWaitBreak waiter s)
/-- ARB_STATUS as it reads: the urgent requesters stand as the pass and the thermal engine are at the read (R378, R386). -/
def arbStatus (s : State) : Nat :=
  let u := urgentOnes s
  setBits 24 2 (b2n (u.contains 0) + 2 * b2n (u.contains 1)) (rd R.ARB_STATUS s)
/-- Slots from the pointer to the next slot of a requester in the active bank, 1 to 256; none where it owns none (R381). -/
def nextOwnSlot (r : Nat) (s : State) : Option Nat := ((List.range 256).map (· + 1)).find? (fun d => slotOwner ((slotPointer s + d) % 256) s == r)
/-- ARB_FORECAST of a requester: the time to its next own slot, less what has passed of the present slot, which no register shows, and
an estimate of the wait for its next background win, which is a free value (R381, R386). -/
def forecast (r : Nat) (s : State) : Nat × State :=
  if r ≥ 10 then (0xFFFFFFFF, s)
  else
    let (a, s) := fresh s
    let (b, s) := fresh s
    let own := match nextOwnSlot r s with
      | some d => 20 * d - a % 20
      | none => 0xFFFF
    let bg := if rdf R.ARB_CFG 0 8 s r = 0 then 0xFFFF else b % 2 ^ 16
    (own + 2 ^ 16 * bg, s)
/-- A word of a slot bank is written: only of the inactive bank, and not while a switch is pending (R383). -/
def writeSlots (bank : Bool) (w v : Nat) (s : State) : State :=
  if rdb R.ARB_STATUS 0 s = bank ∨ rdb R.ARB_CTRL 0 s then s else wr (if bank then R.ARB_SLOT_BANK1 else R.ARB_SLOT_BANK0) v s w
def writeArbSwitch (v : Nat) (s : State) : State := if bit 0 v then wrb R.ARB_CTRL 0 true s else s
/-- ARB_BANK_SWITCH (R383). -/
def execArbBankSwitch (value : Word32) (s : State) : Host.Outcome State Fault Refusal := .next (writeArbSwitch value.toNat s)

end Sys2Proof.Machine
end

