-- ==== Sys2Proof/Machine/Evt.lean ====
section
/-! DEFINITION. The commands of the event controller (R551, R552). -/

namespace Sys2Proof.Machine

def doEvtPendingClear (w : Nat) (value : Word32) (s : State) : State :=
  if w < 8 then
    let v := rd R.EVT_PENDING s w
    wr R.EVT_PENDING (v ^^^ (v &&& value.toNat)) s w
  else s
/-- EVT_PENDING_CLEAR: a W1C write to word `w` of EVT_PENDING (R552). -/
def execEvtPendingClear (w : Nat) (value : Word32) (s : State) : Host.Outcome State Fault Refusal :=
  .next (doEvtPendingClear w value s)

def doVectorHoldoffExpiry (v : Nat) (s : State) : State :=
  if s.evt.holdoff.contains v then
    let due := s.evt.merged.contains v
    let s := { s with evt := { s.evt with holdoff := s.evt.holdoff.filter (· != v), merged := s.evt.merged.filter (· != v) } }
    if due then sendVector v s else s
  else s
/-- VECTOR_HOLDOFF_EXPIRY (R551). -/
def execVectorHoldoffExpiry (v : Nat) (s : State) : Host.Outcome State Fault Refusal := .next (doVectorHoldoffExpiry v s)

def doMsixUnmask (v : Nat) (s : State) : State :=
  if v < 64 then
    let s := wrb R.MSIX_CTRL 0 false s v
    if rdb R.MSIX_PBA v s then sendVector v (wrb R.MSIX_PBA v false s) else s
  else s
/-- MSIX_UNMASK (R551). -/
def execMsixUnmask (v : Nat) (s : State) : Host.Outcome State Fault Refusal := .next (doMsixUnmask v s)

end Sys2Proof.Machine
end

