-- ==== Sys2Proof/Machine/Loads.lean ====
section
/-! DEFINITION. What the host loads for the dose path: setting contexts (R112, R559), beam tables and their window (R168 to R173,
R191, R194), and the head geometry (R163 to R165). -/

namespace Sys2Proof.Machine

/-- A read of host data for the job `i`: it waits for a channel (R67, R72). -/
def fetchFor (k i addr len : Nat) (s : State) : State := startXfer k i addr len false [] s

/-- OP_LOAD_CONTEXT is read (R68). -/
def doLoadContext (k : Nat) (d : Desc) (s : State) : State :=
  let len := dfld d 16 4
  readDesc k d 0x03 (usedBits [(8, 8), (16, 4), (20, 4)])
    [(2, decide (1 ≤ dContext d)), (16, decide (64 ≤ len ∧ len ≤ 8192) && len % 64 == 0)]
    (fun i s => fetchFor k i (dfld d 8 8) len s) s
/-- LOAD_CONTEXT (R559). -/
def execLoadContext (ring : Nat) (d : Desc) (s : State) : Host.Outcome State Fault Refusal := .next (doLoadContext ring d s)
/-- A context that an accepted pass names is in use (R112). -/
def contextInUse (c : Nat) (s : State) : Bool := s.dose.passes.any (fun p => p.contexts.contains c)
/-- The data of a context is read: checked, then stored unless the context is in use (R559). -/
def contextDone (k : Nat) (j : Job) (bs : List Byte) (s : State) : State :=
  let crc := crc32c bs
  let c := dContext j.desc
  if crc ≠ dfld j.desc 20 4 then complete k j.index { status := stDataError, result := crc } s
  else if contextInUse c s then
    complete k j.index { status := stContextBusy, result := crc } (postEvent 56 c 1 (dCookie j.desc) [(0, 1, 3), (1, 1, (k : Nat))] s)
  else
    complete k j.index { status := stOk, result := crc }
      (modBsc (fun b => { b with contexts := tset b.contexts c bs, badContexts := b.badContexts.filter (· != c) }) s)

/-! ### Beam tables -/

/-- Entries of the two banks in the order of their bytes. -/
def entriesOf (n : Nat) (bs : List Byte) : List (BitVec 64) := (List.range n).map (fun i => BitVec.ofNat 64 (bytesAt bs (8 * i) 8))
/-- OP_LOAD_BEAM_TABLE is read: fields, then the active bank (R171). -/
def doLoadBeamTable (k : Nat) (d : Desc) (s : State) : State :=
  let first := dfld d 16 4
  let count := dfld d 20 4
  readDesc k d 0x04 (usedBits [(8, 8), (16, 4), (20, 4), (24, 1), (25, 1), (28, 4)])
    [(16, decide (first + count ≤ 262144)), (20, decide (1 ≤ count)), (24, decide (dfld d 24 1 < 2)), (25, decide (dfld d 25 1 < 2))]
    (fun i s => if dfld d 24 1 = activeBank s then finish k i stRefused 1 s else fetchFor k i (dfld d 8 8) (8 * count) s) s
/-- LOAD_BEAM_TABLE (R171). -/
def execLoadBeamTable (ring : Nat) (d : Desc) (s : State) : Host.Outcome State Fault Refusal := .next (doLoadBeamTable ring d s)
/-- The entries are read: CRC, each entry, and only then the write, the census and the mark (R171). -/
def beamTableDone (k : Nat) (j : Job) (bs : List Byte) (s : State) : State :=
  let d := j.desc
  let es := entriesOf (dfld d 20 4) bs
  let b := dfld d 24 1
  if crc32c bs ≠ dfld d 28 4 then finish k j.index stDataError 0 s
  else if b = activeBank s then finish k j.index stRefused 1 s
  else if es.any (fun e => beBad e.toNat) then finish k j.index stRefused 2 s
  else
    let s := census (each (es.zip (List.range es.length)) (fun e s => writeBank b (dfld d 16 4 + e.2) e.1 s) s)
    finish k j.index stOk 0 (if dfld d 25 1 = 1 then markSwap s else s)
/-- A write of 1 to BSC_BANK_CTRL.cancel removes the swap mark (R172). -/
def doBankSwapCancel (s : State) : State := wrb R.BSC_STATUS 3 false s
/-- BANK_SWAP_CANCEL (R172). -/
def execBankSwapCancel (s : State) : Host.Outcome State Fault Refusal := .next (doBankSwapCancel s)
/-- The entry that a window write stores: MASKED with its reserved bits clear where it sets a reserved status or bit (R194). -/
def windowEntry (v : Nat) : Nat := if beBad v then setBits 50 14 0 (setBits 28 4 0 v) else v
/-- A window write of an entry: of the active bank, and of a bank that a load fills, it has no effect (R191, R194). -/
def doBeamTableWindowWrite (bank entry : Nat) (v : Word) (s : State) : State :=
  if bank > 1 ∨ entry ≥ 262144 ∨ bank = activeBank s ∨ loadInto bank s then s
  else census (writeBank bank entry (BitVec.ofNat 64 (windowEntry v.toNat)) s)
/-- BEAM_TABLE_WINDOW_WRITE (R194). -/
def execBeamTableWindowWrite (bank entry : Nat) (value : Word) (s : State) : Host.Outcome State Fault Refusal :=
  .next (doBeamTableWindowWrite bank entry value s)

/-! ### The head geometry -/

/-- OP_SET_GEOMETRY is read: READY or SERVICE, and no open layer (R68, R164). -/
def doSetGeometry (k : Nat) (d : Desc) (s : State) : State :=
  readDesc k d 0x05 (usedBits [(8, 8), (16, 4), (20, 4)]) []
    (fun i s =>
      if modeOf s ≠ 3 ∧ modeOf s ≠ 7 then finish k i stMode (modeOf s) s
      else if s.dose.layer.isSome then finish k i stRefused 2 s
      else fetchFor k i (dfld d 8 8) (dfld d 16 4) s) s
/-- SET_GEOMETRY (R164). -/
def execSetGeometry (ring : Nat) (d : Desc) (s : State) : Host.Outcome State Fault Refusal := .next (doSetGeometry ring d s)
/-- A table that meets R164 becomes active at once (R165): its identity, both censuses, the slots and the rate of each port
(R231, R261), and the match with the head (R512). -/
def takeGeometry (bs : List Byte) (s : State) : State :=
  let s := modBsc (fun b => { b with geometry := bs }) s
  let s := each [0, 1, 2, 3] (fun (i : Nat) (s : State) => wr R.BSC_GEOM_ID (bytesAt bs (16 + 4 * i) 4) s i) s
  let s := each [0, 1, 2, 3] checkSlots (census s)
  showMatch (each [0, 1, 2, 3] showCap s)
/-- The table is read (R68, R164). -/
def geometryDone (k : Nat) (j : Job) (bs : List Byte) (s : State) : State :=
  if crc32c bs ≠ dfld j.desc 20 4 then finish k j.index stDataError 0 s
  else if s.dose.layer.isSome then finish k j.index stRefused 2 s
  else if geometryOk bs then finish k j.index stOk 0 (takeGeometry bs s)
  else finish k j.index stRefused 1 s

end Sys2Proof.Machine
end

