-- ==== Sys2Proof/Machine/Layer.lean ====
section
/-! DEFINITION. Layers (R84 to R126): LAYER_BEGIN, the acceptance of a SWATH or a MEND_PASS (R110, R111, R283, R284), the intake
and its group decoder (R97 to R101, R118, R119), LAYER_END and the layer boundary (R115, R138), and the assimilation of response
maps (R156). -/

namespace Sys2Proof.Machine

/-! ### Contexts at acceptance (R109, R111) -/

/-- Why a context cannot be used: 1 not loaded, 2 its thermal section (R143), 3 its BSC section (R175), 4 a damaged word (R373). -/
def contextFault (thermal : Bool) (c : Nat) (s : State) : Option Nat :=
  match tget? s.dose.bsc.contexts c with
  | none => some 1
  | some x =>
    if s.dose.bsc.badContexts.contains c then some 4
    else if !cxThermalOk thermal x then some 2
    else
      match geometry? s with
      | none => some 3
      | some g => if cxBscOk g x then none else some 3
/-- A descriptor names a context that is not valid: EV_CONTEXT_INVALID and its completion (R66, R111). -/
def contextInvalid (k i : Nat) (d : Desc) (c cause : Nat) (s : State) : State :=
  finish k i stContextInvalid 0
    (postEvent 57 c 1 (dCookie d) [(0, 1, (dOpcode d : Nat)), (1, 1, (k : Nat)), (2, 1, (cause : Nat))] s)

/-! ### LAYER_BEGIN (R109) -/

/-- The layer opens. -/
def openLayer (k i : Nat) (d : Desc) (s : State) : State :=
  let l : OpenLayer := { number := dfld d 8 4, context := dContext d, thermal := bit 0 (dfld d 12 1) }
  let s := wr R.THE_LAYER l.number s
  finish k i stOk 0 (showStates { s with dose := { s.dose with layer := some l } })
/-- LAYER_BEGIN is read. -/
def doLayerBegin (k : Nat) (d : Desc) (s : State) : State :=
  readDesc k d 0x20 (usedBits [(8, 4), (12, 1)]) [(2, decide (1 ≤ dContext d)), (12, decide (dfld d 12 1 < 2))]
    (fun i s =>
      let thermal := bit 0 (dfld d 12 1)
      if s.dose.layer.isSome then finish k i stBadField 8 s
      else if thermal && !rdb R.THE_CTRL 0 s then finish k i stBadField 12 s
      else
        match contextFault thermal (dContext d) s with
        | some c => contextInvalid k i d (dContext d) c s
        | none => openLayer k i d s) s
/-- LAYER_BEGIN (R109). -/
def execLayerBegin (ring : Nat) (d : Desc) (s : State) : Host.Outcome State Fault Refusal := .next (doLayerBegin ring d s)

/-! ### SWATH and MEND_PASS are accepted (R110, R111, R283, R284) -/

/-- The header and the tags of a stream in module DRAM; true where a read of them met an error. -/
def dramHead (a : Nat) (s : State) : Bool × List Byte × State :=
  let (b1, s) := checkedRead a 64 rqIntake s
  let n := min 4096 (readDramN s (a + 16) 4)
  let (b2, s) := checkedRead (a + 64) (16 * n) rqIntake s
  (b1 || b2, readDram s a (64 + 16 * n), s)
/-- The header checked against R88, R100 and R104, from module DRAM, or as the host's memory gives it. -/
def readHead (d : Desc) (host : List Byte) (s : State) : Except (Nat × Nat) StreamHead × State :=
  let t := (geom s).columns / 32
  let dir := dfld d 17 1
  let pass := dfld d 18 2
  if dfld d 16 1 = 0 then
    let (bad, bs, s) := dramHead (dfld d 8 8) s
    (checkHead t dir pass bs bad, s)
  else (checkHead t dir pass host, s)
/-- EV_FACET_FORMAT (R99), counted in DPI_FORMAT_FAILS. -/
def facetFormat (cookie layer group tile cause dir off : Nat) (s : State) : State :=
  postEvent 53 0 2 cookie [(0, 4, (layer : Nat)), (4, 4, (group : Nat)), (8, 2, (tile : Nat)), (10, 1, (cause : Nat)), (11, 1, (dir : Nat)),
    (12, 4, (sat32 off : Nat))] (bump R.DPI_FORMAT_FAILS 1 (postSaturated 53 2) s)
/-- EV_FACET_CRC (R99), counted in DPI_CRC_FAILS. -/
def facetCrc (cookie layer group tile cause dir computed : Nat) (s : State) : State :=
  postEvent 52 0 1 cookie [(0, 4, (layer : Nat)), (4, 4, (group : Nat)), (8, 2, (tile : Nat)), (10, 1, (cause : Nat)), (11, 1, (dir : Nat)),
    (12, 4, (computed : Nat))] (bump R.DPI_CRC_FAILS 1 (postSaturated 52 1) s)
/-- The pass that a descriptor asks for, under the open layer `l` and with its stream's header (R110, R112, R283). -/
def passFor (mend : Bool) (k i : Nat) (d : Desc) (l : OpenLayer) (h : StreamHead) : Pass :=
  let first := dfld d 20 4
  let count := if dfld d 24 4 = 0 then h.lines - first else dfld d 24 4
  let p : Pass :=
    { ring := k, index := i, cookie := dCookie d, mend := mend, stream := dfld d 8 8, source := dfld d 16 1, dir := dfld d 17 1,
      number := dfld d 18 2, first := first, count := count, layer := l.number, origin := sext 64 (dfld d 32 8),
      stepover := sext 64 (dfld d 40 8), scale := dfld d 48 2, swath := dfld d 50 2,
      context := if dContext d = 0 then l.context else dContext d, head := h, contexts := [] }
  let q := { p with contexts := namedContexts p }
  if mend then
    { q with entryFirst := dfld d 52 4, entryLast := dfld d 56 4, exclude := dfld d 60 2, uncertain := bit 0 (dfld d 62 1) }
  else q
/-- A pass is accepted: it waits for its execution, its intake starts, and where placement stands in TURN without a pass the
turnaround is its (R113, R218). -/
def acceptPass (p : Pass) (s : State) : State :=
  turnNext (showPass { s with dose := { s.dose with passes := s.dose.passes ++ [p] } })
/-- The checks of a MEND_PASS after those of R111 (R284): the offset of the field that fails. -/
def mendFault (p : Pass) (s : State) : Option Nat :=
  let sel := s.dose.mnd.log.filter (selectable p)
  if sel = [] then some 52
  else if sel.any (fun e => decide (e.first < p.first) || decide (lastLine p < e.first + e.count - 1)) then some 20
  else none
/-- Checks 2 to 5 of R111, then those of R284, in order. -/
def acceptChecks (mend : Bool) (k i : Nat) (d : Desc) (host : List Byte) (s : State) : State :=
  match s.dose.layer with
  | none => finish k i stBadField 28 s
  | some l =>
    if dfld d 28 4 ≠ l.number then finish k i stBadField 28 s
    else
      match readHead d host s with
      | (.error e, s) => finish k i stBadField 8 (facetFormat (dCookie d) l.number 0xFFFFFFFF 0xFFFF e.1 (dfld d 17 1) e.2 s)
      | (.ok h, s) =>
        let p := passFor mend k i d l h
        if p.count = 0 ∨ h.lines < p.first + p.count then finish k i stBadField 20 s
        else
          match p.contexts.findSome? (fun c => (contextFault l.thermal c s).map (fun f => (c, f))) with
          | some cf => contextInvalid k i d cf.1 cf.2 s
          | none =>
            match (if mend then mendFault p s else none) with
            | some o => finish k i stBadField o s
            | none => acceptPass p s
/-- Payload bytes of a SWATH (R110), and the fields with a range. -/
def swathFields : List (Nat × Nat) := [(8, 8), (16, 1), (17, 1), (18, 2), (20, 4), (24, 4), (28, 4), (32, 8), (40, 8), (48, 2), (50, 2)]
def swathTests (d : Desc) : List (Nat × Bool) := [(16, decide (dfld d 16 1 < 2)), (17, decide (dfld d 17 1 < 2))]
def doSwath (k : Nat) (d : Desc) (host : List Byte) (s : State) : State :=
  readDesc k d 0x21 (usedBits swathFields) (swathTests d) (fun i s => acceptChecks false k i d host s) s
/-- SWATH (R111): `head` is the header and tag array of a stream in host memory. -/
def execSwath (ring : Nat) (d : Desc) (head : List Byte) (s : State) : Host.Outcome State Fault Refusal := .next (doSwath ring d head s)
def doMendPass (k : Nat) (d : Desc) (host : List Byte) (s : State) : State :=
  readDesc k d 0x23 (usedBits (swathFields ++ [(52, 4), (56, 4), (60, 2), (62, 1)])) (swathTests d ++ [(62, decide (dfld d 62 1 < 2))])
    (fun i s => acceptChecks true k i d host s) s
/-- MEND_PASS (R284). -/
def execMendPass (ring : Nat) (d : Desc) (head : List Byte) (s : State) : Host.Outcome State Fault Refusal := .next (doMendPass ring d head s)

/-! ### The intake decodes a group (R97 to R101, R118, R119) -/

/-- The pass whose intake runs, the oldest first, and its next group. -/
def intakeNext (s : State) : Option (Pass × Nat) :=
  (s.dose.passes.filter (fun p => p.cut.isNone)).findSome? (fun p => (nextGroup p).map (fun g => (p, g)))
/-- The bytes of the next group and of its overflow entries as the intake reads them from module DRAM, in place or in the staging
area: whether a read met an error, the group's bytes, and the overflow area's (R117, R366). -/
def readGroup (p : Pass) (g : Nat) (s : State) : Bool × List Byte × (Nat → Nat → List Byte) × State :=
  if p.source = 0 then
    let a := p.stream + p.head.baseOff + g * strideOf p
    let o := p.stream + p.head.ovfOff
    let (b1, s) := checkedRead a (strideOf p) rqIntake s
    let bs := readDram s a (strideOf p)
    let r := (if b1 then [] else escapesOf p.head bs).foldl (fun (a : Bool × State) e =>
      let r := checkedRead (o + e) 1032 rqIntake a.2
      (a.1 || r.1, r.2)) (b1, s)
    (r.1, bs, fun off len => readDram s (o + off) len, r.2)
  else
    match p.staged.find? (fun x => x.group == g) with
    | none => (true, [], fun _ _ => [], s)
    | some x =>
      let r := ((x.off, x.len) :: x.escapes.map (fun e => (e.2, 1032))).foldl (fun (a : Bool × State) e =>
        let r := stageRead e.1 e.2 a.2
        (a.1 || r.1, r.2)) (false, s)
      (r.1, stageBytes x.off x.len s,
       fun off len => ((x.escapes.find? (fun e => e.1 == off)).map (fun e => stageBytes e.2 len s)).getD [], r.2)
/-- Decodes a group; a read error fails it as a wrong trailer crc does (R366), with a free value as the CRC. -/
def decodeNext (p : Pass) (g : Nat) (s : State) : GroupEnd × State :=
  let (bad, bs, ovf, s) := readGroup p g s
  if bad then
    let (v, s) := fresh s
    (.crc none (v % 2 ^ 32), s)
  else (decodeGroup p.head g bs ovf, s)
/-- The lines of a group that the pass exposes, less those already missed or withheld. -/
def groupLines (p : Pass) (g : Nat) : List Nat := (linesIn p g).filter (fun n => !p.missed.contains n && !p.residueLines.contains n)
/-- A group fails: none of its lines is exposed; each counts as missed and is logged for mend with cause FACET (R99,
R101).  They belong to no run of R123, and end one (log entry 54). -/
def failGroup (p : Pass) (g : Nat) (s : State) : State :=
  let lines := groupLines p g
  let s := modPassOf p.index (fun q => { q with failed := q.failed ++ [g], missed := lines ++ q.missed }) s
  let s := if p.executing then countMissed lines.length (each lines (fun n s => oweWhole p n 2 s) s) else countTotal lines.length s
  closeMissRun s
/-- A group ends: its lines are released, or the failure is reported and the group fails (R98, R99). -/
def endGroup (p : Pass) (g : Nat) (r : GroupEnd) (s : State) : State :=
  match r with
  | .ok tiles => modPassOf p.index (fun q => { q with released := tset q.released g tiles }) s
  | .crc tile v => failGroup p g (facetCrc p.cookie p.layer g (tile.getD 0xFFFF) (if tile.isSome then 2 else 1) p.dir v s)
  | .format tile c off inOvf =>
    let o := (if inOvf then p.head.ovfOff else p.head.baseOff + g * strideOf p) + off
    failGroup p g (facetFormat p.cookie p.layer g (tile.getD 0xFFFF) c p.dir o s)
/-- The intake decodes the next group of its pass, once it is resident; its bytes leave the staging area (R97, R117). -/
def doGroupDecode (s : State) : State :=
  match intakeNext s with
  | none => s
  | some (p, g) =>
    if !resident p g || !dramServes s then s
    else
      let (r, s) := decodeNext p g s
      let s := endGroup p g r s
      updateLead (intakeFetch (modPassOf p.index (fun q => { q with staged := q.staged.filter (fun x => x.group != g) }) s))
/-- GROUP_DECODE (R97). -/
def execGroupDecode (s : State) : Host.Outcome State Fault Refusal := .next (doGroupDecode s)

/-! ### LAYER_END and the layer boundary (R115) -/

def doLayerEnd (k : Nat) (d : Desc) (s : State) : State :=
  readDesc k d 0x22 (usedBits [(8, 4)]) []
    (fun i s =>
      match s.dose.layer with
      | none => finish k i stBadField 8 s
      | some l =>
        if dfld d 8 4 ≠ l.number then finish k i stBadField 8 s
        else { s with dose := { s.dose with boundary := some (k, i) } }) s
/-- LAYER_END (R115). -/
def execLayerEnd (ring : Nat) (d : Desc) (s : State) : Host.Outcome State Fault Refusal := .next (doLayerEnd ring d s)
/-- Every entry that is still open expires (R281). -/
def expireEntries (s : State) : State :=
  each (s.dose.mnd.log.filter (fun e => e.status == 0)) (fun e s => bumpMnd R.MND_ENTRIES_EXPIRED 1 (removeEntry e.seq 2 s)) s
/-- The number of entries that expired at the boundary, kept until LAYER_END completes. -/
def openEntries (s : State) : Nat := (s.dose.mnd.log.filter (fun e => e.status == 0)).length
/-- Steps 2 to 6 of the layer boundary; then placement is IDLE and a step that waited is applied (R115, R417). -/
def finishBoundary (u : UsageIn) (s : State) : State :=
  match s.dose.boundary, s.dose.layer with
  | some (k, i), some l =>
    let n := s.dose.expired
    let cookie := ((findJob k i s).map (fun j => dCookie j.desc)).getD 0
    let s := usageFlush 1 u (applyStaged [0, 1, 2, 3, 4] 2 l.number (swapBank l.number s))
    let s := postEvent 50 0 0 cookie [(0, 4, (l.number : Nat)), (4, 4, (l.missed : Nat)), (8, 4, (n : Nat)), (12, 1, (b2n l.thermal : Nat))] s
    let s := complete k i { status := stOk, result := l.missed + 2 ^ 32 * n } s
    applyPendingSteps (showStates { s with dose := { s.dose with
      layer := none, boundary := none, boundaryFill := false, layerGap := true, expired := 0 } })
  | _, _ => s
/-- Step 1 of the boundary: open entries expire and the thermal maps rotate; while the slot is filled, the rest waits (R138).  Where an
OP_SET_MODE(READY) came between, LAYER_END is read again and the boundary goes on after its step 1 (R24; log entry 15). -/
def doLayerBoundary (u : UsageIn) (s : State) : State :=
  if s.dose.boundary.isNone || !s.dose.passes.isEmpty || s.dose.the.filling.isSome ||
      (rdb R.BSC_STATUS 3 s && loadInto (1 - activeBank s) s) then s
  else if s.dose.boundaryFill then finishBoundary u s
  else
    let s := { s with dose := { s.dose with expired := openEntries s } }
    let s := expireEntries s
    if rdb R.THE_CTRL 0 s then
      let s := rotateMaps s
      { s with dose := { s.dose with boundaryFill := true } }
    else finishBoundary u s
/-- LAYER_BOUNDARY (R115): `usage` is what the head chip shows at the flush. -/
def execLayerBoundary (usage : UsageIn) (s : State) : Host.Outcome State Fault Refusal := .next (doLayerBoundary usage s)
/-- The slot fill ends; at a layer boundary the maps captured before it are discarded and the boundary goes on (R138, R139).  A fill that
an L2 reset has stopped does not end (R153). -/
def doMapSlotFillDone (u : UsageIn) (s : State) : State :=
  match s.dose.the.filling with
  | none => s
  | some start =>
    if s.dose.the.stopped then s
    else
      let s := fillSlot s
      if !s.dose.boundaryFill then s
      else
        let s := discardOldMaps start s
        if s.dose.boundary.isSome then finishBoundary u s else s
/-- MAP_SLOT_FILL_DONE (R138). -/
def execMapSlotFillDone (usage : UsageIn) (s : State) : Host.Outcome State Fault Refusal := .next (doMapSlotFillDone usage s)

/-- ASSIM_MAP_APPLY (R156): `strips` lists the strips whose residue checks fail. -/
def execAssimMapApply (strips : List (Nat × Nat)) (s : State) : Host.Outcome State Fault Refusal := .next (applyMap strips s)

end Sys2Proof.Machine
end

