-- ==== Sys2Proof/Machine/Codec.lean ====
section
/-! DEFINITION. The stream that COMPRESS writes (R403, R404), and the raw lines that DECOMPRESS gives back: functions of bytes. -/

namespace Sys2Proof.Machine

/-- The 1,024 bytes of tile `t` of group `g` in raw lines of `tiles` × 32 bytes; lines at or beyond `lines` are 0 (R85, R87). -/
def rawTile (src : List Byte) (tiles lines g t : Nat) : List Byte :=
  (List.range 1024).map (fun p =>
    let y := 32 * g + p / 32
    if y < lines then src.getD (y * (32 * tiles) + 32 * t + p % 32) 0 else 0)
/-- The maximal runs of a byte string, as (length, value), the newest first. -/
def runsOf : List Byte → List (Nat × Byte) → List (Nat × Byte)
  | [], acc => acc
  | b :: r, (n, v) :: acc => if b = v ∧ n < 256 then runsOf r ((n + 1, v) :: acc) else runsOf r ((1, b) :: (n, v) :: acc)
  | b :: r, [] => runsOf r [(1, b)]
/-- The 128 bytes of a bitmap: the bit of a pixel is 1 where it holds `hi`. -/
def bitmapOf (px : List Byte) (hi : Byte) : List Byte :=
  (List.range 128).map (fun i =>
    BitVec.ofNat 8 ((List.range 8).foldl (fun v k => if px.getD (8 * i + k) 0 = hi then v + 2 ^ k else v) 0))
/-- A byte string filled up to `n` bytes with 0. -/
def padTo (n : Nat) (bs : List Byte) : List Byte := bs ++ List.replicate (n - bs.length) 0
/-- A coded tile: its slot, whether it is a copy, and whether it is an escape. -/
structure TileCode where
  slot : List Byte
  copied : Bool := false
  escaped : Bool := false
  deriving DecidableEq, Repr
/-- Codes one tile in the first mode of R403 that applies; `prev` are the group's tiles before it, newest first, `next` the
offset of the next overflow entry. -/
def codeTile (slot next : Nat) (prev : List (List Byte)) (px : List Byte) : TileCode :=
  let b : Nat → Byte := BitVec.ofNat 8
  let v := px.getD 0 0
  if px.all (· == v) then { slot := padTo slot [0, v] }
  else
    match (prev.take 255).findIdx? (· == px) with
    | some d => { slot := padTo slot [b 0x20, b (d + 1)], copied := true }
    | none =>
      let runs := (runsOf px []).reverse
      if 1 + 2 * runs.length ≤ slot then { slot := padTo slot (b 0x60 :: runs.flatMap (fun r => [b (r.1 - 1), r.2])) }
      else
        let codes := px.eraseDups
        if slot = 256 ∧ codes.length = 2 then
          let lo := codes.foldl (fun m c => if c.toNat < m then c.toNat else m) 255
          let hi := codes.foldl (fun m c => max m c.toNat) 0
          { slot := padTo slot ([b 0x40, b lo, b hi] ++ bitmapOf px (b hi)) }
        else { slot := padTo slot (b 0xE0 :: leBytes 4 (next / 8)), escaped := true }
/-- What the compressor has written so far: the groups, the overflow entries, and its counts. -/
structure Coded where
  base : List Byte := []
  ovf : List Byte := []
  escapes : Nat := 0
  copies : Nat := 0
  deriving DecidableEq, Repr
/-- Codes the tiles `ts` of a group, first index `i` in the stream. -/
def codeTiles (slot : Nat) : (i : Nat) → (ts prev : List (List Byte)) → Coded → Coded
  | _, [], _, c => c
  | i, px :: ts, prev, c =>
    let x := codeTile slot c.ovf.length prev px
    let entry := if x.escaped then leBytes 4 i ++ leBytes 4 (crc32c px) ++ px else []
    codeTiles slot (i + 1) ts (px :: prev)
      { base := c.base ++ x.slot, ovf := c.ovf ++ entry, escapes := c.escapes + b2n x.escaped, copies := c.copies + b2n x.copied }
/-- Codes one group with its trailer (R95). -/
def codeGroup (src : List Byte) (tiles lines groups slot g : Nat) (c : Coded) : Coded :=
  let ts := (List.range tiles).map (rawTile src tiles lines g)
  let c := codeTiles slot (g * tiles) ts [] c
  { c with base := c.base ++ leBytes 16 (layout [(0, 4, (g : Nat)), (4, 2, (tiles : Nat)), (6, 2, (b2n (g + 1 == groups) : Nat)),
      (8, 4, (crc32c ts.flatten : Nat))]) }
/-- The groups in order; it stops at the first one whose overflow entries pass `room` bytes, whose index it gives. -/
def codeGroups (src : List Byte) (tiles lines groups slot room : Nat) : (n g : Nat) → Coded → Coded × Option Nat
  | 0, _, c => (c, none)
  | n + 1, g, c =>
    let c' := codeGroup src tiles lines groups slot g c
    if c'.ovf.length > room then (c', some g) else codeGroups src tiles lines groups slot room n (g + 1) c'
/-- Group count and base offset of a stream (R88, R403). -/
def groupsFor (lines : Nat) : Nat := (lines + 31) / 32
def baseFor (tags : Nat) : Nat := (64 + 16 * tags + 63) / 64 * 64
/-- The end of the base array: the overflow offset (R403). -/
def baseEnd (tiles rc lines tags : Nat) : Nat := baseFor tags + groupsFor lines * groupStride tiles rc
/-- The stream header (R88). -/
def headBytes (tiles rc lines : Nat) (tags : List Byte) (ovfLen : Nat) : List Byte :=
  let n := tags.length / 16
  let h := leBytes 60 (layout [(0, 4, (0x53544346 : Nat)), (4, 1, (1 : Nat)), (5, 1, (rc : Nat)), (6, 2, (tiles : Nat)), (8, 4, (groupsFor lines : Nat)),
    (12, 4, (lines : Nat)), (16, 4, (n : Nat)), (24, 8, (baseFor n : Nat)), (32, 8, (baseEnd tiles rc lines n : Nat)), (40, 8, (ovfLen : Nat))])
  h ++ leBytes 4 (crc32c (h ++ tags))
/-- The bytes between the tag array and the base array, which no rule fixes: the same for the same stream (R403, log entry 3). -/
def gapBytes (n : Nat) : List Byte :=
  (List.range (baseFor n - (64 + 16 * n))).map (fun i => BitVec.ofNat 8 (Config.freeNat (2 ^ 64 + i)))
/-- Direction and pass of a tag array: those of its first DIRECTION_PASS tag (R102), against which the others are checked. -/
def tagPass (tags : List Byte) : Nat × Nat :=
  match (List.range (tags.length / 16)).find? (fun i => bytesAt tags (16 * i + 4) 1 == 2) with
  | some i => (bytesAt tags (16 * i + 8) 1, bytesAt tags (16 * i + 10) 2)
  | none => (0, 0)
/-- A tag array meets R104 for a stream of `lines` lines. -/
def tagsOk (lines : Nat) (tags : List Byte) : Bool :=
  let d := tagPass tags
  match checkTags lines d.1 d.2 (tags.length / 16) 0 0 0 tags [] with
  | .ok _ => true
  | .error _ => false
/-- The header of a stream checked for DECOMPRESS: by R100, against its own T, direction and pass. -/
def ownHead (bs : List Byte) : Except (Nat × Nat) StreamHead :=
  let d := tagPass (bs.drop 64)
  checkHead (bytesAt bs 6 2) d.1 d.2 bs
/-- A decoded group as 32 raw lines of `tiles` × 32 bytes. -/
def rawLines (tiles : List (List Byte)) : List Byte :=
  (List.range 32).flatMap (fun y => tiles.flatMap (fun px => (px.drop (32 * y)).take 32))

end Sys2Proof.Machine
end

