-- ==== Sys2Proof/Machine/Utility.lean ====
section
/-! DEFINITION. The UTILITY jobs (R401 to R405): CRC, COMPRESS, DECOMPRESS, FILL, COPY and SCRUB, with the engines they wait for. -/

namespace Sys2Proof.Machine

/-- A saturating UDMA counter posts UDMA_ERROR with result 6 (R407). -/
def satUdma (off : Nat) (s : State) : State := postEvent 193 0 2 0 [(0, 1, 6), (4, 8, (off : Nat))] s
/-- UDMA_ERROR, counted (R407). -/
def udmaError (src cookie result space addr : Nat) (s : State) : State :=
  postEvent 193 src 2 cookie [(0, 1, (result : Nat)), (1, 1, (space : Nat)), (4, 8, (addr : Nat))] (bump R.UDMA_ERRORS 1 (satUdma 0x14) s)

/-! ### Engines and starts (R57, R405) -/

/-- An engine of a kind is free. -/
def engineFree (e : Nat) (s : State) : Bool :=
  decide (((runningJobs s).filter (fun j => engineOf j == e)).length < (if e = 2 then 8 else 1))
/-- The job has a side in host memory. -/
def hostSide (d : Desc) : Bool :=
  let c := dOpcode d
  if c = 0x40 ∨ c = 0x41 ∨ c = 0x43 then dfld d 16 1 == 1
  else if c = 0x44 then dfld d 24 1 == 1 || dfld d 25 1 == 1 else false
/-- The space numbers of R401 as bytes read, with a read error's address. -/
def readSide (space a n requester : Nat) (s : State) : Option Nat × List Byte × State :=
  if space = 2 then
    if a + n > sramSize then (some a, [], s)
    else
      match sramRead a n requester s with
      | (some e, s) => (some e, [], s)
      | (none, s) => (none, readSram s a n, s)
  else
    let (bad, s') := checkedRead a n requester s
    if bad then (some (((linesOf a n).find? (fun l => decide (64 * l + 64 > dramSize) || dramUE s (max a (64 * l)) (min (a + n) (64 * l + 64) - max a (64 * l)))).getD (a / 64) * 64), [], s')
    else (none, readDram s a n, s')
/-- A read of a job meets an error: DATA_ERROR and UDMA_ERROR (R402). -/
def jobError (k : Nat) (j : Job) (space a result : Nat) (s : State) : State :=
  complete k j.index { status := stDataError, result := result } (udmaError k (dCookie j.desc) 1 space a s)
/-- A codec job fails: counted, and where a rule says so reported (R402, R404, R410). -/
def codecFail (s : State) : State := bump R.FCD_FAILS 1 (postSaturated 198 2) s
def postCodecFail (k : Nat) (j : Job) (cause group bytes : Nat) (s : State) : State :=
  postEvent 198 k 2 (dCookie j.desc) [(0, 1, (dOpcode j.desc : Nat)), (1, 1, (cause : Nat)), (4, 4, (group : Nat)), (8, 8, (bytes : Nat))] s
/-- A codec job completes OK (R407, R410). -/
def codecOk (k : Nat) (j : Job) (groups bytes result : Nat) (s : State) : State :=
  let s := bump R.FCD_JOBS 1 (postSaturated 197 0) (complete k j.index { status := stOk, result := result } s)
  postEvent 197 k 0 (dCookie j.desc) [(0, 1, (dOpcode j.desc : Nat)), (4, 4, (groups : Nat)), (8, 8, (bytes : Nat))] s

/-! ### CRC (R398, R402) -/

/-- The CRC parameters of a job over bytes. -/
def jobCrc (d : Desc) (bs : List Byte) : Nat :=
  let w := dfld d 18 1
  crcOf w (dfld d 20 8 % 2 ^ w) (dfld d 28 8 % 2 ^ w) (dfld d 36 8 % 2 ^ w) (bit 0 (dfld d 19 1)) (bit 1 (dfld d 19 1)) bs
/-- The bytes of a CRC job are read. -/
def crcJobEnd (k : Nat) (j : Job) (bs : List Byte) (s : State) : State :=
  let d := j.desc
  let r := jobCrc d bs
  if bit 0 (dfld d 17 1) ∧ r ≠ dfld d 52 8 then
    postEvent 196 k 1 (dCookie d) [(0, 8, (r : Nat)), (8, 8, (dfld d 52 8 : Nat))] (complete k j.index { status := stDataError, result := r } s)
  else complete k j.index { status := stOk, result := r } s

/-! ### FILL, COPY, SCRUB (R391, R402) -/

/-- `n` bytes of a 64-bit pattern, repeated low byte first. -/
def patternBytes (v n : Nat) : List Byte := (List.range n).map (fun i => BitVec.ofNat 8 (v / 2 ^ (8 * (i % 8))))
/-- Bytes through a swap mode (R391); a part shorter than its unit stays. -/
def swapBytes (mode : Nat) : List Byte → List Byte
  | a :: b :: c :: d :: r =>
    (if mode = 1 then [b, a, d, c] else if mode = 2 then [c, d, a, b] else if mode = 3 then [d, c, b, a] else [a, b, c, d]) ++ swapBytes mode r
  | [a, b] => if mode = 1 then [b, a] else [a, b]
  | r => r
/-- The unit of a swap mode in bytes (R390). -/
def swapUnit (mode : Nat) : Nat := if mode = 0 then 1 else if mode = 1 then 2 else 4
/-- FILL ends (R402). -/
def fillEnd (k : Nat) (j : Job) (s : State) : State :=
  let d := j.desc
  postEvent 199 k 0 (dCookie d) [(0, 8, (dfld d 8 8 : Nat)), (8, 8, (dfld d 24 8 : Nat))]
    (complete k j.index { status := stOk, result := dfld d 24 8 } s)
/-- A job writes DRAM: an address beyond it ends the job as a read error does (R354, R402). -/
def jobWrite (k : Nat) (j : Job) (a : Nat) (bs : List Byte) (requester : Nat) (done : State → State) (s : State) : State :=
  let s' := memWrite a bs requester s
  if a + bs.length > dramSize then jobError k j 0 dramSize 0 s' else done s'
/-- COPY ends (R402). -/
def copyEnd (k : Nat) (j : Job) (s : State) : State := complete k j.index { status := stOk, result := dfld j.desc 32 8 } s
def copyRequester (d : Desc) : Nat := if hostSide d then rqHost else rqUdma
/-- SCRUB over the lines of its range: errors corrected and errors found (R364, R402). -/
def scrubLines (a n : Nat) (s : State) : Nat × Nat × State :=
  (linesOf a n).foldl (fun x l =>
    let s := x.2.2
    if 64 * l + 64 > dramSize ∨ dramUE s (64 * l) 64 then (x.1, x.2.1 + 1, dramUe (64 * l) rqScrub s)
    else
      match s.mem.injected.find? (fun e => e.1 == l) with
      | some e => (x.1 + 1, x.2.1, dramCe (64 * l) rqScrub e.2.1 true s)
      | none => x) (0, 0, s)
def scrubEnd (k : Nat) (j : Job) (s : State) : State :=
  let r := scrubLines (dfld j.desc 8 8) (dfld j.desc 16 8) s
  complete k j.index { status := stOk, result := min r.1 (2 ^ 32 - 1) + 2 ^ 32 * min r.2.1 (2 ^ 32 - 1) } r.2.2

/-! ### COMPRESS and DECOMPRESS (R402 to R404) -/

/-- COMPRESS has its lines and its tags: the stream is coded and written, the header last. -/
def compressEnd (k : Nat) (j : Job) (src tags : List Byte) (s : State) : State :=
  let d := j.desc
  let rc := dfld d 17 1
  let tiles := dfld d 18 2
  let lines := dfld d 20 4
  let dest := dfld d 24 8
  let groups := groupsFor lines
  if !tagsOk lines tags then codecFail (finish k j.index stBadField 48 s)
  else
    let n := tags.length / 16
    let ovfAt := baseEnd tiles rc lines n
    let (c, failed) := codeGroups src tiles lines groups (slotSize rc) (dfld d 32 8 - ovfAt) groups 0 {}
    let s := bump R.FCD_ESCAPES c.escapes (postSaturated 197 0) s
    let s := memWrite (dest + 64) (tags ++ gapBytes n ++ c.base) rqCodec s
    let s := memWrite (dest + ovfAt) (c.ovf.take (dfld d 32 8 - ovfAt)) rqCodec s
    match failed with
    | some g =>
      let (v, s) := fresh s
      codecFail (postCodecFail k j 13 g (v % 2 ^ 64) (finish k j.index stNoSpace 0 s))
    | none =>
      let total := ovfAt + c.ovf.length
      let s := memWrite dest (headBytes tiles rc lines tags c.ovf.length) rqCodec s
      if dest + total > dramSize then codecFail (jobError k j 0 dramSize 0 s)
      else codecOk k j groups total (total + 2 ^ 64 * (c.escapes % 2 ^ 32) + 2 ^ 96 * (c.copies % 2 ^ 32)) s
/-- Bytes COMPRESS reads. -/
def compressLen (d : Desc) : Nat := dfld d 20 4 * (32 * dfld d 18 2)
/-- Groups of a DECOMPRESS, decoded and written one after another until one fails: how many, and the failure. -/
def decompressGroups (d : Desc) (h : StreamHead) : (n g : Nat) → State → Nat × Option (Nat × Nat × Nat) × State
  | 0, _, s => (0, none, s)
  | n + 1, g, s =>
    let stride := groupStride h.tiles h.rc
    let a := dfld d 8 8 + h.baseOff + g * stride
    match readSide 0 a stride rqCodec s with
    | (some e, _, s) => (0, some (0, g, e), s)
    | (none, bs, s) =>
      let escs := (List.range h.tiles).filterMap (fun t =>
        let off := 8 * bytesAt bs (t * slotSize h.rc + 1) 4
        if bytesAt bs (t * slotSize h.rc) 1 / 32 = 7 ∧ off + 1032 ≤ h.ovfLen then some off else none)
      let (bad, s) := escs.foldl (fun x o =>
        match x.1, readSide 0 (dfld d 8 8 + h.ovfOff + o) 1032 rqCodec x.2 with
        | none, (e, _, s) => (e, s)
        | some e, _ => (some e, x.2)) ((none : Option Nat), s)
      match bad with
      | some e => (0, some (0, g, e), s)
      | none =>
        match decodeGroup h g bs (fun off len => readDram s (dfld d 8 8 + h.ovfOff + off) len) with
        | .format _ c _ _ => (0, some (c, g, 0), s)
        | .crc _ _ => (0, some (14, g, 0), s)
        | .ok tiles =>
          let s := memWrite (dfld d 16 8 + (g - dfld d 32 4) * (1024 * h.tiles)) (rawLines tiles) rqCodec s
          let r := decompressGroups d h n (g + 1) s
          (r.1 + 1, r.2)
/-- DECOMPRESS runs to its end (R402). -/
def decompressEnd (k : Nat) (j : Job) (s : State) : State :=
  let d := j.desc
  let (bad, hs, s) := dramHeadOf (dfld d 8 8) s
  match bad with
  | some e => codecFail (jobError k j 0 e 0 s)
  | none =>
    match ownHead hs with
    | .error e => codecFail (postCodecFail k j e.1 0xFFFFFFFF 0 (complete k j.index { status := stDataError, result := 2 ^ 32 * (2 ^ 32 - 1) + 2 ^ 64 * e.1 } s))
    | .ok h =>
      let first := dfld d 32 4
      let n := if dfld d 36 4 = 0 then h.groups - first else dfld d 36 4
      if first ≥ h.groups then codecFail (finish k j.index stBadField 32 s)
      else if first + n > h.groups then codecFail (finish k j.index stBadField 36 s)
      else if dfld d 24 8 < n * (1024 * h.tiles) then codecFail (finish k j.index stNoSpace 0 s)
      else
        match decompressGroups d h n first s with
        | (got, none, s) =>
          if dfld d 16 8 + n * (1024 * h.tiles) > dramSize then codecFail (jobError k j 0 dramSize got s)
          else codecOk k j got (got * (1024 * h.tiles)) got s
        | (got, some (0, g, e), s) => codecFail (jobError k j 0 e (got + 2 ^ 32 * g) s)
        | (got, some (c, g, _), s) =>
          codecFail (postCodecFail k j c g (got * (1024 * h.tiles))
            (complete k j.index { status := stDataError, result := got + 2 ^ 32 * g + 2 ^ 64 * c } s))
where
  /-- The header and tag array of a stream in DRAM, or the address of a read error. -/
  dramHeadOf (a : Nat) (s : State) : Option Nat × List Byte × State :=
    match readSide 0 a 64 rqCodec s with
    | (some e, _, s) => (some e, [], s)
    | (none, bs, s) =>
      match readSide 0 (a + 64) (16 * min 4096 (bytesAt bs 16 4)) rqCodec s with
      | (some e, _, s) => (some e, [], s)
      | (none, ts, s) => (none, bs ++ ts, s)

/-! ### Starts and ends -/

/-- A job starts: what is checked or written before any data is read, and a host transfer where it has one (R401 to R404). -/
def startJob (k : Nat) (j : Job) (s : State) : State :=
  let d := j.desc
  let i := j.index
  match dOpcode d with
  | 0x40 => if hostSide d then fetchIn (dfld d 8 8) (dfld d 44 8) s else s
  | 0x41 =>
    if dfld d 32 8 < baseEnd (dfld d 18 2) (dfld d 17 1) (dfld d 20 4) (dfld d 48 4) then codecFail (finish k i stNoSpace 0 s)
    else
      let s := memWrite (dfld d 24 8) (List.replicate 64 0) rqCodec s
      if hostSide d then fetchIn (dfld d 8 8) (compressLen d) s else s
  | 0x43 => if hostSide d then startXfer k i (dfld d 8 8) (dfld d 24 8) true (patternBytes (dfld d 32 8) (dfld d 24 8)) s else s
  | 0x44 =>
    if dfld d 24 1 = 1 then fetchIn (dfld d 8 8) (dfld d 32 8) s
    else if dfld d 25 1 = 1 then
      match readSide 0 (dfld d 8 8) (dfld d 32 8) rqHost s with
      | (some e, _, s) => jobError k j 0 e 0 s
      | (none, bs, s) => startXfer k i (dfld d 16 8) (dfld d 32 8) true (swapBytes (dfld d 26 1) bs) s
    else s
  | _ => s
where
  fetchIn (a n : Nat) (s : State) : State := startXfer k j.index a n false [] s
/-- The next job of a ring that waits, and whether it may start: its fence and its engine (R57, R405). -/
def nextWaiting (k : Nat) (s : State) : Option Job :=
  let jobs := (ringInt s k).jobs
  match jobs.find? (fun j => !j.started) with
  | none => none
  | some j =>
    let earlier := jobs.takeWhile (fun x => x.index != j.index)
    if ringType s k = tyUtility ∧ ringState s k = 2 ∧ engineFree (engineOf j) s ∧ (!dFence j.desc || earlier.all (·.cpl.isSome)) then some j else none
/-- Jobs that wait start where they may, ring by ring. -/
def pumpUtility : Nat → State → State
  | 0, s => s
  | fuel + 1, s =>
    match (List.range 32).findSome? (fun k => (nextWaiting k s).map (fun j => (k, j))) with
    | none => s
    | some (k, j) => pumpUtility fuel (startJob k j (modJob k j.index (fun x => { x with started := true }) s))
/-- A UTILITY descriptor is read: it waits for its turn and its engine. -/
def takeJob (k i : Nat) (s : State) : State := pumpUtility 64 (modJob k i (fun j => { j with started := false }) s)
/-- A job without a host side runs to its end. -/
def runJob (k : Nat) (j : Job) (s : State) : State :=
  let d := j.desc
  match dOpcode d with
  | 0x40 =>
    match readSide (dfld d 16 1) (dfld d 8 8) (dfld d 44 8) rqCrc s with
    | (some e, _, s) => jobError k j (if dfld d 16 1 = 2 then 1 else 0) e 0 s
    | (none, bs, s) => crcJobEnd k j bs s
  | 0x41 =>
    match readSide 0 (dfld d 8 8) (compressLen d) rqCodec s with
    | (some e, _, s) => codecFail (jobError k j 0 e 0 s)
    | (none, src, s) =>
      match readSide 0 (dfld d 40 8) (16 * dfld d 48 4) rqCodec s with
      | (some e, _, s) => codecFail (jobError k j 0 e 0 s)
      | (none, tags, s) => compressEnd k j src tags s
  | 0x42 => decompressEnd k j s
  | 0x43 => jobWrite k j (dfld d 8 8) (patternBytes (dfld d 32 8) (dfld d 24 8)) rqUdma (fillEnd k j) s
  | 0x44 =>
    match readSide 0 (dfld d 8 8) (dfld d 32 8) rqUdma s with
    | (some e, _, s) => jobError k j 0 e 0 s
    | (none, bs, s) => jobWrite k j (dfld d 16 8) (swapBytes (dfld d 26 1) bs) rqUdma (copyEnd k j) s
  | _ => scrubEnd k j s
/-- A UTILITY job without a host side ends: the one with index `i` of ring `k`, if it runs; then the jobs that waited. -/
def doUtilityJobDone (k i : Nat) (s : State) : State :=
  match findJob k i s with
  | none => s
  | some j =>
    if ringType s k = tyUtility ∧ j.started ∧ j.cpl.isNone ∧ !hostSide j.desc then pumpUtility 64 (runJob k j s) else pumpUtility 64 s
/-- UTILITY_JOB_DONE (R405). -/
def execUtilityJobDone (ring index : Nat) (s : State) : Host.Outcome State Fault Refusal := .next (doUtilityJobDone ring index s)
/-- The host transfer of a UTILITY job is through (R57). -/
def utilityXferDone (k : Nat) (j : Job) (data : List Byte) (s : State) : State :=
  let d := j.desc
  pumpUtility 64 (match dOpcode d with
  | 0x40 => crcJobEnd k j data s
  | 0x41 =>
    if j.phase = 0 ∧ dfld d 48 4 ≠ 0 then
      startXfer k j.index (dfld d 40 8) (16 * dfld d 48 4) false [] (modJob k j.index (fun x => { x with phase := 1, scratch := data }) s)
    else if j.phase = 0 then compressEnd k j data [] s else compressEnd k j j.scratch data s
  | 0x43 => fillEnd k j s
  | _ =>
    if dfld d 24 1 = 1 then jobWrite k j (dfld d 16 8) (swapBytes (dfld d 26 1) data) rqHost (copyEnd k j) s else copyEnd k j s)

/-! ### The descriptors (R401) -/

def doCrcJob (k : Nat) (d : Desc) (s : State) : State :=
  readDesc k d 0x40 (usedBits [(8, 8), (16, 1), (17, 1), (18, 1), (19, 1), (20, 8), (28, 8), (36, 8), (44, 8), (52, 8)])
    [(16, decide (dfld d 16 1 < 3)), (17, decide (dfld d 17 1 < 2)), (18, decide (1 ≤ dfld d 18 1 ∧ dfld d 18 1 ≤ 64)),
     (19, decide (dfld d 19 1 < 4)), (44, decide (1 ≤ dfld d 44 8 ∧ dfld d 44 8 ≤ 2 ^ 40))] (takeJob k) s
/-- CRC_JOB (R402). -/
def execCrcJob (ring : Nat) (d : Desc) (s : State) : Host.Outcome State Fault Refusal := .next (doCrcJob ring d s)
def doCompress (k : Nat) (d : Desc) (s : State) : State :=
  readDesc k d 0x41 (usedBits [(8, 8), (16, 1), (17, 1), (18, 2), (20, 4), (24, 8), (32, 8), (40, 8), (48, 4)])
    [(16, decide (dfld d 16 1 < 2)), (17, decide (dfld d 17 1 < 4)), (18, decide (1 ≤ dfld d 18 2 ∧ dfld d 18 2 ≤ 512)),
     (20, decide (1 ≤ dfld d 20 4 ∧ dfld d 20 4 ≤ 2 ^ 31)), (48, decide (dfld d 48 4 ≤ 4096))] (takeJob k) s
/-- COMPRESS (R403). -/
def execCompress (ring : Nat) (d : Desc) (s : State) : Host.Outcome State Fault Refusal := .next (doCompress ring d s)
def doDecompress (k : Nat) (d : Desc) (s : State) : State :=
  readDesc k d 0x42 (usedBits [(8, 8), (16, 8), (24, 8), (32, 4), (36, 4)]) [] (takeJob k) s
/-- DECOMPRESS (R402). -/
def execDecompress (ring : Nat) (d : Desc) (s : State) : Host.Outcome State Fault Refusal := .next (doDecompress ring d s)
def doFill (k : Nat) (d : Desc) (s : State) : State :=
  let dram := dfld d 16 1 == 0
  readDesc k d 0x43 (usedBits [(8, 8), (16, 1), (24, 8), (32, 8)])
    [(8, !dram || dfld d 8 8 % 64 == 0), (16, decide (dfld d 16 1 < 2)), (24, !dram || dfld d 24 8 % 64 == 0)] (takeJob k) s
/-- FILL (R402). -/
def execFill (ring : Nat) (d : Desc) (s : State) : Host.Outcome State Fault Refusal := .next (doFill ring d s)
def doCopy (k : Nat) (d : Desc) (s : State) : State :=
  let u := swapUnit (dfld d 26 1)
  readDesc k d 0x44 (usedBits [(8, 8), (16, 8), (24, 1), (25, 1), (26, 1), (32, 8)])
    [(8, dfld d 8 8 % u == 0), (16, dfld d 16 8 % u == 0), (24, decide (dfld d 24 1 < 2) && !(dfld d 24 1 == 1 && dfld d 25 1 == 1)),
     (25, decide (dfld d 25 1 < 2)), (26, decide (dfld d 26 1 < 4)), (32, dfld d 32 8 % u == 0)] (takeJob k) s
/-- COPY (R402). -/
def execCopy (ring : Nat) (d : Desc) (s : State) : Host.Outcome State Fault Refusal := .next (doCopy ring d s)
def doScrub (k : Nat) (d : Desc) (s : State) : State :=
  readDesc k d 0x45 (usedBits [(8, 8), (16, 8)]) [(8, dfld d 8 8 % 64 == 0), (16, dfld d 16 8 % 64 == 0)] (takeJob k) s
/-- SCRUB (R402). -/
def execScrub (ring : Nat) (d : Desc) (s : State) : Host.Outcome State Fault Refusal := .next (doScrub ring d s)

end Sys2Proof.Machine
end

