-- ==== Sys2Proof/Machine/HostCtl.lean ====
section
/-! DEFINITION. The host interface: the PCI Express function and the aperture (R42 to R48), ring control (R52 to R63, R80 to R83),
protocol versions (R64, R65), host DMA channels (R71 to R74), invalidation (R79), and the logs (R68). -/

namespace Sys2Proof.Machine

/-! ### The PCI Express function (R42 to R48) -/

def doPcieLinkDown (s : State) : State := assertSource 4 (hostReset { s with host := { s.host with linkUp := false } })
/-- PCIE_LINK_DOWN (R44). -/
def execPcieLinkDown (s : State) : Host.Outcome State Fault Refusal := .next (doPcieLinkDown s)
/-- The link trains again, or changes speed or width (R44). -/
def doPcieLinkChange (speed width : Nat) (s : State) : State :=
  let s := wrf R.HIF_STATUS 8 5 width (wrf R.HIF_STATUS 4 4 speed { s with host := { s.host with linkUp := true } })
  postEvent 3 0 1 0 [(0, 1, (speed : Nat)), (1, 1, (width : Nat))] s
/-- PCIE_LINK_CHANGE (R44). -/
def execPcieLinkChange (speed width : Nat) (s : State) : Host.Outcome State Fault Refusal := .next (doPcieLinkChange speed width s)
def doPcieHotReset (s : State) : State := assertSource 4 (hostReset s)
/-- PCIE_HOT_RESET: a hot reset or a function-level reset (R45). -/
def execPcieHotReset (s : State) : Host.Outcome State Fault Refusal := .next (doPcieHotReset s)
def doBusMasterEnableClear (s : State) : State := { s with host := { s.host with busMaster := false } }
/-- BUS_MASTER_ENABLE_CLEAR: each transfer stops at its next break point (R44). -/
def execBusMasterEnableClear (s : State) : Host.Outcome State Fault Refusal := .next (doBusMasterEnableClear s)
def doBusMasterEnableSet (s : State) : State :=
  each s.host.held emit { s with host := { s.host with busMaster := true, held := [] } }
/-- BUS_MASTER_ENABLE_SET: what waited leaves in order, and a stopped transfer goes on at its next HOST_DMA_BREAK_POINT (R44). -/
def execBusMasterEnableSet (s : State) : Host.Outcome State Fault Refusal := .next (doBusMasterEnableSet s)
/-- An access to the structures of an IDLE or ACTIVE ring has ended in a PCIe error (R61 cause 3). -/
def structError (ring : Option Nat) (s : State) : State :=
  match ring with
  | none => s
  | some k => if k < 32 ∧ (ringState s k = 1 ∨ ringState s k = 2) then ringError k 3 s else s
/-- The AER status bits as they then stand in the capability (R46); an access to the ring structures that ends in the error puts its
ring into ERROR (R61, R81). -/
def doPcieError (unc cor : Nat) (ring : Option Nat) (s : State) : State :=
  let u := s.host.aerUncorrectable ||| unc
  let c := s.host.aerCorrectable ||| cor
  structError ring <| postEvent 4 0 (if unc = 0 then 1 else 2) 0 [(0, 4, (u : Nat)), (4, 4, (c : Nat))]
    { s with host := { s.host with aerUncorrectable := u, aerCorrectable := c } }
/-- PCIE_ERROR (R46): `ring` names the ring whose descriptor or doorbell read, or completion or status write, ended in it. -/
def execPcieError (uncorrectable correctable : Word32) (ring : Option Nat) (s : State) : Host.Outcome State Fault Refusal :=
  .next (doPcieError uncorrectable.toNat correctable.toNat ring s)
/-- HIF_APERTURE_BASE takes a multiple of 1 GiB with 16 GiB above it (R47). -/
def doHifApertureBaseWrite (v : Nat) (s : State) : State :=
  if v % 2 ^ 30 = 0 ∧ v + 2 ^ 34 ≤ dramSize then wr R.HIF_APERTURE_BASE v s else s
/-- HIF_APERTURE_BASE_WRITE (R47). -/
def execHifApertureBaseWrite (value : Word) (s : State) : Host.Outcome State Fault Refusal := .next (doHifApertureBaseWrite value.toNat s)
/-- A BAR2 read of `len` bytes (R47, R48). -/
def doApertureRead (off len : Nat) (s : State) : State :=
  if off + len > 2 ^ 34 ∨ modeOf s = 0 then s
  else if modeOf s = 1 then emit .apertureUR s
  else
    let a := rd R.HIF_APERTURE_BASE s + off
    let (bad, s) := checkedRead a len rqHost s
    emit (.apertureData (readDram s a len) bad) s
/-- APERTURE_READ (R48). -/
def execApertureRead (offset len : Nat) (s : State) : Host.Outcome State Fault Refusal := .next (doApertureRead offset len s)
/-- A BAR2 write (R47, R48). -/
def doApertureWrite (off : Nat) (data : List Byte) (s : State) : State :=
  if off + data.length > 2 ^ 34 ∨ modeOf s = 0 then s
  else if modeOf s = 1 then emit .apertureUR s
  else memWrite (rd R.HIF_APERTURE_BASE s + off) data rqHost s
/-- APERTURE_WRITE (R48). -/
def execApertureWrite (offset : Nat) (data : List Byte) (s : State) : Host.Outcome State Fault Refusal := .next (doApertureWrite offset data s)

/-! ### Doorbells (R62, R63, R557) -/

/-- A write to HIF_NUDGE: the doorbell of every enabled ring that the module reads (R62). -/
def doHifNudge (reads : List DoorbellRead) (s : State) : State := each reads (fun r s => if ringReadable r.ring s then pollRing r s else s) s
/-- HIF_NUDGE (R62). -/
def execHifNudge (reads : List DoorbellRead) (s : State) : Host.Outcome State Fault Refusal := .next (doHifNudge reads s)
/-- The doorbell of a ring that is not idle, or that the module has only now begun to read; in STANDBY the latter alone, and the idle
sequence of a ring that a nudge has made ACTIVE and that is drained (R62, R63). -/
def doDoorbellPoll (r : DoorbellRead) (s : State) : State :=
  let i := ringInt s r.ring
  if !ringReadable r.ring s then s
  else if i.mustRead || (!i.idle && modeOf s != 1) then pollRing r s
  else idleRing r s
/-- DOORBELL_POLL (R62). -/
def execDoorbellPoll (read : DoorbellRead) (s : State) : Host.Outcome State Fault Refusal := .next (doDoorbellPoll read s)
/-- The doorbell of an EVENT ring holds the host's consumer index: an index more than 2^n behind the producer's is an overrun (R61);
otherwise entries that wait are written (R70, R557). -/
def takeConsumer (k : Nat) (v : Option Word32) (s : State) : State :=
  match v with
  | none => ringError k 3 s
  | some w =>
    let prod := rd R.HIF_RING_CONS s k
    let s := modRing k (fun r => { r with db := w.toNat, mustRead := false }) s
    if (prod + 2 ^ 32 - w.toNat) % 2 ^ 32 > 2 ^ ringLog2 s k then
      postEvent 2 k 2 0 [(0, 4, (w.toNat : Nat)), (4, 4, (prod : Nat))] (ringError k 2 s)
    else flushEvents s
def doEventRingSpacePoll (k : Nat) (v : Option Word32) (s : State) : State :=
  let i := ringInt s k
  if evRingOk k s && s.host.busMaster && (i.mustRead || !i.store.isEmpty || heldFor k s) then takeConsumer k v s else s
/-- EVENT_RING_SPACE_POLL (R557). -/
def execEventRingSpacePoll (ring : Nat) (doorbell : Option Word32) (s : State) : Host.Outcome State Fault Refusal :=
  .next (doEventRingSpacePoll ring doorbell s)

/-! ### Ring control (R49 to R54, R81) -/

/-- The configuration of ring `k` keeps R49 and R50. -/
def ringConfigOk (k : Nat) (s : State) : Bool :=
  let t := ringType s k
  let n := ringLog2 s k
  let others := (rangeP 32 (fun j => j != k && ringVisible j s && ringEnabled j s && ringType s j == t)).length
  decide (t ≤ tyEvent) && decide (4 ≤ n ∧ n ≤ 16) && rd R.HIF_RING_BASE s k % max 4096 (64 * 2 ^ n) == 0 &&
    (t == tyEvent || rd R.HIF_RING_CPL_BASE s k % (32 * 2 ^ n) == 0) && rd R.HIF_RING_DB_ADDR s k % 4 == 0 &&
    !(t == tyLayer && others != 0) && !(t == tyEvent && decide (others ≥ 4))
/-- HIF_RING_CTRL.enable of a DISABLED ring: it continues from its consumer index; its doorbell is read once where the module
reads the ring (R53, R54, R62, R81).  `v`: what the doorbell read gave; the outer none: the read is still to come. -/
def enableRing (k : Nat) (v : Option (Option Word32)) (s : State) : State :=
  if k ≥ 32 ∨ ringState s k ≠ 0 then s
  else if !ringConfigOk k s then ringError k 4 s
  else
    let cons := rd R.HIF_RING_CONS s k
    let s := modRing k (fun r => { r with next := cons, idle := false, mustRead := v.isNone, jobs := [], abortTo := none }) s
    let s := setRingState k 1 s
    if ringType s k = tyEvent then
      match v with
      | some v => if evRingOk k s && s.host.busMaster then takeConsumer k v s else modRing k (fun r => { r with mustRead := true }) s
      | none => flushEvents s
    else
      match v with
      | some v => if ringReadable k s then readDoorbell k v s else s
      | none => s
/-- RING_ENABLE (R53). -/
def execRingEnable (ring : Nat) (doorbell : Option Word32) (s : State) : Host.Outcome State Fault Refusal :=
  .next (enableRing ring (some doorbell) s)
/-- A job is ended by a SKIP, an ABORT or a disable, with a status and a reason (R54, R67, R81, R83).  A pass in execution is cut,
and completes once what it sent has resolved; the lines of a swath that has not begun are logged for mend; a firmware load returns
to WAIT_IMAGE. -/
def abandonJob (k : Nat) (j : Job) (status reason : Nat) (s : State) : State :=
  let s := wrb R.HIF_RING_STATE 3 false s k
  match s.dose.passes.find? (fun p => p.ring == k && p.index == j.index) with
  | none =>
    let s := if dOpcode j.desc = 0x0A ∧ rdf R.CTL_LOADER 0 3 s = 2 then setLoader 1 s else s
    complete k j.index { status := status, reason := reason, result := (j.cpl.map (·.result)).getD 0 } s
  | some p =>
    if p.executing then
      let s := if ((j.xfer.bind (·.chan)).isSome) then leavePage k (freeChan k s) else s
      let s := modJob k j.index (fun x => { x with xfer := none }) s
      let s := modPassOf p.index (fun q => { q with ending := some (status, reason) }) s
      tryComplete [] (cutPass 11 0 s)
    else
      let g := geom s
      let s := if p.mend then s
        else
          let s := sealNewest s
          sealNewest (logFrames p
            { first := p.first, count := p.count, rows := 2 ^ g.rowCount - 1, blocks := allBlocks g, cause := 11, flags := flCut,
              cutEvent := firstEvent g p, frames := p.count * g.rowCount } s)
      let n := if p.mend then 0 else p.count * g.rowCount
      let s := turnNext (showPass (dropPass p.index s))
      complete k j.index { status := status, reason := reason, result := 2 ^ 96 * (if n = 0 then 0 else 1) } s
/-- HIF_RING_CTRL.disable (R54, R81): what has not started is given up, a transfer that waits ends, one that runs ends at its next
break point, everything else runs on. -/
def disableRing (k : Nat) (s : State) : State :=
  let st := ringState s k
  if k ≥ 32 || st == 0 || st == 4 || rdb R.HIF_RING_STATE 4 s k then s
  else if ringType s k = tyLayer ∧ (modeOf s = 4 ∨ modeOf s = 5) then s
  else
    let bad := if st = 3 then findJob k (ringInt s k).faultIndex s else none
    let s := wrb R.HIF_RING_STATE 4 true s k
    let s := match bad with
      | none => s
      | some j => abandonJob k j stAborted 0 s
    let s := giveUp k (fun _ => true) s
    let s := match xferJob k s with
      | none => s
      | some (j, x) => if x.chan.isNone then abandonJob k j stAborted 0 s else s
    disableCheck k s
/-- RING_DISABLE (R54). -/
def execRingDisable (ring : Nat) (s : State) : Host.Outcome State Fault Refusal := .next (disableRing ring s)
/-- RING_DISABLE_DONE: the last descriptor that a disable waited for has been dealt with (R54). -/
def execRingDisableDone (ring : Nat) (s : State) : Host.Outcome State Fault Refusal := .next (if ring < 32 then disableCheck ring s else s)
/-- HIF_RING_CTRL.reset (R81): the consumer index is 0; what the status block shows of the doorbell and of dropped entries is kept
(log entry 53). -/
def resetRing (k : Nat) (s : State) : State :=
  if k < 32 ∧ (ringState s k = 0 ∨ ringState s k = 4) then
    let s := modRing k (fun r => { store := r.store, db := r.db, drops := r.drops }) s
    writeStatus k (wr R.HIF_RING_STATE 0 (wr R.HIF_RING_CONS 0 (leavePage k (freeChan k s)) k) k)
  else s
/-- RING_RESET (R81). -/
def execRingReset (ring : Nat) (s : State) : Host.Outcome State Fault Refusal := .next (resetRing ring s)
/-- The faulting descriptor of a FAULTED ring (R80). -/
def faultedJob (k : Nat) (s : State) : Option Job := if k < 32 ∧ ringState s k = 3 then findJob k (ringInt s k).faultIndex s else none
/-- A LAYER descriptor whose pass a rewind has given up (R24): it is read again. -/
def passGivenUp (k : Nat) (j : Job) (s : State) : Bool :=
  (dOpcode j.desc == 0x21 || dOpcode j.desc == 0x23) && !(s.dose.passes.any (fun p => p.ring == k && p.index == j.index))
/-- A RETRY (R81, R82): the ring is ACTIVE and the faulting page is walked again; the transfer goes on from there once it has a
channel.  Without the walk's reads the page is walked when the channel is granted.  Where the pass has ended meanwhile its completion
is written (R75, R83); where a rewind has given it up its descriptor is read again (R24). -/
def resumeRetry (k : Nat) (w : Option WalkReads) (s : State) : State :=
  match faultedJob k s with
  | none => s
  | some j =>
    let s := setRingState k 2 s
    if j.cpl.isSome then drainRing k ((ringInt s k).jobs.length) s
    else if passGivenUp k j s then
      modRing k (fun r => { r with jobs := r.jobs.filter (fun a => a.index != j.index), next := j.index }) s
    else
      match w, j.xfer with
      | some w, some x =>
        if !s.host.busMaster then s
        else
          let (r, s) := translateVa (ringAsid k s) (x.addr + x.done) x.toHost w s
          match r with
          | .fault c l => ringFault k j x c l s
          | _ => s
      | _, _ => s
/-- RING_RESUME_RETRY (R81). -/
def execRingResumeRetry (ring : Nat) (walk : WalkReads) (s : State) : Host.Outcome State Fault Refusal := .next (resumeRetry ring (some walk) s)
/-- A SKIP (R81): the descriptor completes with FAULT_SKIPPED and the fault's cause. -/
def resumeSkip (k : Nat) (s : State) : State :=
  match faultedJob k s with
  | none => s
  | some j => abandonJob k j stFaultSkipped (ringInt s k).faultCause (setRingState k 2 s)
/-- RING_RESUME_SKIP (R81). -/
def execRingResumeSkip (ring : Nat) (s : State) : Host.Outcome State Fault Refusal := .next (resumeSkip ring s)
/-- The descriptors `rest` from the next unread one up to the last doorbell read complete with ABORTED (R81). -/
def abortUnread (k : Nat) : List Desc → State → State
  | [], s => s
  | d :: r, s =>
    let i := (ringInt s k).next
    if i = (ringInt s k).db then s
    else if dPhase d ≠ phaseAt (ringLog2 s k) i then ringError k 1 s
    else
      let s := modRing k (fun x => { x with next := (i + 1) % 2 ^ 32, jobs := x.jobs ++ [{ index := i, desc := d }] }) s
      abortUnread k r (finish k i stAborted 0 s)
/-- An ABORT (R81): the faulting descriptor and every later one not started complete with ABORTED, and the ring is IDLE.  `rest`
holds the unread descriptors that the module reads with it; those below the last doorbell read that it does not hold end so when
they are read (`aborting`). -/
def resumeAbort (k : Nat) (rest : List Desc) (s : State) : State :=
  match faultedJob k s with
  | none => s
  | some j =>
    let s := modRing k (fun r => { r with abortTo := some r.db }) (setRingState k 1 s)
    let s := abandonJob k j stAborted 0 s
    if s.host.busMaster then abortUnread k rest s else s
/-- RING_RESUME_ABORT (R81): `rest` holds the descriptors of the ring from the next unread one on. -/
def execRingResumeAbort (ring : Nat) (rest : List Desc) (s : State) : Host.Outcome State Fault Refusal := .next (resumeAbort ring rest s)
/-- One write to HIF_RING_CTRL: its actions in the order disable, reset, enable, resume (R52).  What the module then reads from
host memory comes with its next reads of the ring. -/
def ringCtrl (k v : Nat) (s : State) : State :=
  let s := if bit 1 v then disableRing k s else s
  let s := if bit 2 v then resetRing k s else s
  let s := if bit 0 v then enableRing k none s else s
  match bits 3 3 v with
  | 1 => resumeRetry k none s
  | 2 => resumeSkip k s
  | 3 => resumeAbort k [] s
  | _ => s

/-! ### Host DMA (R57, R71 to R74) and invalidation (R79) -/

/-- HOST_DMA_CHANNEL_GRANT (R72). -/
def execHostDmaChannelGrant (walk : WalkReads) (s : State) : Host.Outcome State Fault Refusal := .next (grantChannel walk s)
def doHostDmaBreakPoint (k : Nat) (w : WalkReads) (s : State) : State :=
  breakPoint k w (fun k j s => abandonJob k j stAborted 0 s) s
/-- HOST_DMA_BREAK_POINT (R74). -/
def execHostDmaBreakPoint (ring : Nat) (walk : WalkReads) (s : State) : Host.Outcome State Fault Refusal :=
  .next (doHostDmaBreakPoint ring walk s)
/-- What the end of a transfer means for its descriptor (R57, R68). -/
def xferDone (k : Nat) (j : Job) (data : List Byte) (s : State) : State :=
  match dOpcode j.desc with
  | 0x03 => contextDone k j data s
  | 0x04 => beamTableDone k j data s
  | 0x05 => geometryDone k j data s
  | 0x0A => firmwareDone k j data s
  | 0x0B => policySetDone k j data s
  | 0x0C => complete k j.index { status := stOk, result := ofBytes j.scratch } s
  | 0x0D => camProgramDone k j data s
  | 0x21 => intakeDone k j.index data s
  | 0x23 => intakeDone k j.index data s
  | 0x60 => uploadBufferDone k j s
  | _ => utilityXferDone k j data s
/-- The running transfer of ring `k` ends: its last byte is through (R57). -/
def doHostDmaTransferDone (k : Nat) (data : List Byte) (s : State) : State :=
  match xferJob k s with
  | none => s
  | some (j, x) =>
    if xferCanEnd x data then
      xferDone k { j with xfer := none } data (endXfer k j x s)
    else s
/-- HOST_DMA_TRANSFER_DONE (R57). -/
def execHostDmaTransferDone (ring : Nat) (data : List Byte) (s : State) : Host.Outcome State Fault Refusal :=
  .next (doHostDmaTransferDone ring data s)
/-- A write of 1 to HIF_TLB_INVAL.go with its scope and space (R52, R79). -/
def startInval (scope asid : Nat) (s : State) : State :=
  let s := wr R.HIF_TLB_INVAL (asid % 16 + 16 * (scope % 4) + 2 ^ 31) s
  invalidate scope (asid % 16) (rd R.HIF_TLB_INVAL_ADDR s) s
/-- TLB_INVAL_ALL (R79). -/
def execTlbInvalAll (s : State) : Host.Outcome State Fault Refusal := .next (startInval 0 0 s)
/-- TLB_INVAL_SPACE (R79). -/
def execTlbInvalSpace (asid : Nat) (s : State) : Host.Outcome State Fault Refusal := .next (startInval 1 asid s)
/-- TLB_INVAL_PAGE (R79). -/
def execTlbInvalPage (asid : Nat) (s : State) : Host.Outcome State Fault Refusal := .next (startInval 2 asid s)
/-- The invalidation is complete once every transfer that used an entry has passed its page (R79). -/
def doTlbInvalDone (s : State) : State := if s.host.invalUsers = [] then wrb R.HIF_TLB_INVAL 31 false s else s
/-- TLB_INVAL_DONE (R79). -/
def execTlbInvalDone (s : State) : Host.Outcome State Fault Refusal := .next (doTlbInvalDone s)

/-! ### OP_HELLO, OP_RESUME_RING, OP_READ_LOG -/

/-- A LAYER, UTILITY or UPLOAD ring is not idle, or a transfer of any ring is in flight, running, waiting or faulted (R65). -/
def hostBusy (s : State) : Bool :=
  (List.range 32).any (fun k => let t := ringType s k; (t == tyLayer || t == tyUtility || t == tyUpload) && (ringState s k == 2 || ringState s k == 3)) ||
    (List.range 32).any (fun k => (ringInt s k).jobs.any (fun j => j.xfer.isSome))
def doHello (k : Nat) (d : Desc) (s : State) : State :=
  readDesc k d 0x01 (usedBits [(8, 1), (9, 1), (12, 4), (16, 8)]) [] (fun i s =>
    let lo := max 1 (dfld d 8 1)
    let hi := min 3 (dfld d 9 1)
    let old := hostVersion s
    if hi < lo then finish k i stRefused 1 s
    else if old ≠ 0 ∧ old ≠ hi ∧ hostBusy s then finish k i stRefused 2 s
    else
      let read := readableRings s
      let s := wrf R.HIF_STATUS 0 2 hi s
      let granted := if hi = 1 then 0 else dfld d 16 8 &&& rd R.IDC_FEATURES s
      let s := complete k i { status := stOk, result := hi + 2 ^ 32 * rd R.CTL_FW_VERSION s + 2 ^ 64 * granted } s
      flushEvents (markNewlyRead read (postEvent 5 0 0 0 [(0, 1, (hi : Nat))] s))) s
/-- HELLO (R65). -/
def execHello (ring : Nat) (d : Desc) (s : State) : Host.Outcome State Fault Refusal := .next (doHello ring d s)
def doResumeRing (k : Nat) (d : Desc) (w : WalkReads) (rest : List Desc) (s : State) : State :=
  let t := dfld d 8 1
  readDesc k d 0x06 (usedBits [(8, 1), (9, 1)]) [(8, decide (t < 32)), (9, decide (dfld d 9 1 < 3))] (fun i s =>
    if (faultedJob t s).isNone then finish k i stRefused 1 s
    else
      let s := match dfld d 9 1 with
        | 0 => resumeRetry t (some w) s
        | 1 => resumeSkip t s
        | _ => resumeAbort t rest s
      finish k i stOk 0 s) s
/-- RESUME_RING (R82). -/
def execResumeRing (ring : Nat) (d : Desc) (walk : WalkReads) (rest : List Desc) (s : State) : Host.Outcome State Fault Refusal :=
  .next (doResumeRing ring d walk rest s)
/-- The 44-byte entry of log 0 (chapter 14, after R455). -/
def resetEntry (s : State) : List Byte :=
  leBytes 4 (rd R.RST_TOTAL s) ++ (List.range 8).flatMap (fun w => leBytes 4 (rd R.RST_SRC_COUNT s w)) ++ leBytes 4 (rd R.RST_LAST s) ++
    leBytes 4 (rdf R.RST_STATUS 4 1 s)
/-- The entries of a log, each of the log's size (R68, R277, R368, R455, R516). -/
def logEntries (log : Nat) (s : State) : List (List Byte) :=
  match log with
  | 0 => [resetEntry s]
  | 1 => s.mem.log.map logBytes
  | 2 => (s.dose.mnd.log.filter (fun e => e.status == 0)).map mendBytes
  | 3 => [(List.range 16).flatMap (fun w => leBytes 4 (rd R.RST_FAULT_REC s w))]
  | _ => [usageEntry 0 s, usageEntry 1 s]
/-- The size of an entry of a log. -/
def logSize (log : Nat) : Nat :=
  match log with
  | 0 => 44
  | 1 => 32
  | 2 => 64
  | 3 => 64
  | _ => 544
def doReadLog (k : Nat) (d : Desc) (s : State) : State :=
  let log := dfld d 8 1
  readDesc k d 0x0C (usedBits [(8, 1), (12, 4), (16, 8), (24, 4)]) [(8, decide (log < 5))] (fun i s =>
    let es := (logEntries log s).drop (dfld d 12 4)
    let n := min es.length (dfld d 24 4 / logSize log)
    let bs := (es.take n).flatten
    let result := leBytes 4 bs.length ++ leBytes 4 n ++ leBytes 4 (es.length - n)
    if bs = [] then complete k i { status := stOk, result := ofBytes result } s
    else startXfer k i (dfld d 16 8) bs.length true bs (modJob k i (fun j => { j with scratch := result }) s)) s
/-- READ_LOG (R68). -/
def execReadLog (ring : Nat) (d : Desc) (s : State) : Host.Outcome State Fault Refusal := .next (doReadLog ring d s)

end Sys2Proof.Machine
end

