-- ==== Sys2Proof/Machine/Modes.lean ====
section
/-! DEFINITION. OP_SET_MODE with the build conditions (R20 to R25), the end of the entry to HOLD (R28), and the entry to READY of
an abandoned descriptor (R24). -/

namespace Sys2Proof.Machine

/-- A request is refused with a reason code of R25, and is over. -/
def refuseMode (q : ModeRequest) (reason : Nat) (s : State) : State :=
  finish q.ring q.index stRefused reason (wrb R.CTL_MODE 31 false (modCtl (fun c => { c with request := none }) s))
/-- The first of the build conditions 1 to 5 that fails (R25). -/
def buildBar (s : State) : Option Nat :=
  if !locked s then some 1
  else if !(s.ctl.estopOpen.isEmpty && !s.ctl.estopDisc && s.ctl.permit) then some 2
  else if !s.ctl.coolant then some 3
  else if !(portsInUse s).all (fun p => lnkUp p s) then some 4
  else if !headOk s then some 5
  else none
/-- The first of the build conditions 6 to 8 that fails, on the die reading that the conversion gave (R25). -/
def buildBarLate (s : State) : Option Nat :=
  if !(match dieReading s with | some d => decide (d ≥ 80) | none => false) then some 6
  else if !(homed 0 s && homed 1 s && homed 2 s) then some 7
  else if rdb R.TSY_CTRL 3 s && !rdb R.TSY_STATUS 3 s then some 8
  else none
/-- BUILD is entered; HSV_STATUS notes a head that is not authenticated (R25, R513). -/
def enterBuild (q : ModeRequest) (s : State) : State :=
  let s := changeMode 4 0 false (modCtl (fun c => { c with request := none }) s)
  let s := if rdf R.HSV_STATUS 0 2 s = 2 then s else wrb R.HSV_STATUS 3 true s
  finish q.ring q.index stOk 0 s
/-- The die conversion of OP_SET_MODE(BUILD) is done: conditions 6 to 8 are judged (R25). -/
def buildResult (s : State) : State :=
  match s.ctl.request with
  | none => s
  | some q =>
    if !q.waitDie then s
    else
      match buildBarLate s with
      | some r => refuseMode q r s
      | none => enterBuild q s
/-- The LAYER, UTILITY and UPLOAD rings are idle, and so is every helper DMA channel (R20). -/
def ringsIdle (s : State) : Bool :=
  (List.range 32).all (fun k =>
    let t := ringType s k
    t == tyCommand || t == tyEvent || !(ringState s k == 2 || ringState s k == 3)) && rd R.UDMA_BUSY s == 0
/-- The warm path out of STANDBY begins (R20, R357, R497). -/
def warmPath (s : State) : State :=
  let s := changeMode 2 0 true s
  let s := releasePorts (startTraining false (leaveSelfRefresh s))
  let s := startAuth (wr R.CTL_BRINGUP_DONE 0 s)
  let s := each ((List.range 9).filter (fun k => rdb R.THM_RESULT 16 s k)) calCheck s
  requestConv 0 2 whoCal s
/-- STANDBY is entered: self-refresh, camera outputs and ports off, the usage counters flushed (R20, R264, R325, R515). -/
def enterStandby (u : UsageIn) (s : State) : State :=
  let s := changeMode 1 0 false s
  let s := showCam (camPower (enterSelfRefresh 1 (usageFlush 3 u s)))
  each [0, 1, 2, 3] (fun p s => modPort p (fun x => { tick256 := x.tick256, resolved := x.resolved }) (clearPort p 0 s)) s
/-- OP_SET_MODE(READY) from BUILD (R24): after the pass, once the axes are at rest, or at once. -/
def leaveBuild (q : ModeRequest) (s : State) : State :=
  let wait := fun s => wrb R.CTL_MODE 31 true (modCtl (fun c => { c with request := some q }) s)
  match curPass s with
  | none => enterReady q s
  | some p =>
    if p.begun then wait s
    else
      let s := modPass (fun p => { p with abandoned := true, frames := p.frames.filter (fun f => f.sent.isSome) }) (recallAll s)
      wait (stopAxis 1 1 none (stopAxis 0 1 none s))
/-- A request that the table of R20 may contain, checked against the present mode (R20 to R25). -/
def setMode (q : ModeRequest) (usage : UsageIn) (s : State) : State :=
  let m := modeOf s
  let t := q.target
  if rdb R.CTL_MODE 31 s || s.ctl.request.isSome then finish q.ring q.index stRefused 9 s
  else if t = m then finish q.ring q.index stOk 0 s
  else
    match m, t with
    | 3, 6 | 4, 6 | 5, 6 | 7, 6 => finish q.ring q.index stOk 0 (holdCause 16 s)
    | 3, 4 =>
      let s := requestConv 0 2 whoBuild s
      match buildBar s with
      | some r => finish q.ring q.index stRefused r s
      | none => wrb R.CTL_MODE 31 true (modCtl (fun c => { c with request := some { q with waitDie := true } }) s)
    | 3, 1 =>
      if !ringsIdle s then finish q.ring q.index stRefused 13 s
      else if !axesStill s then finish q.ring q.index stRefused 14 s
      else finish q.ring q.index stOk 0 (enterStandby usage s)
    | 3, 7 | 6, 7 =>
      if !axesStill s then finish q.ring q.index stRefused 14 s else finish q.ring q.index stOk 0 (changeMode 7 0 false s)
    | 4, 3 => leaveBuild q s
    | 6, 3 =>
      if rd R.CTL_HOLD_CAUSE s ≠ 0 then finish q.ring q.index stRefused 12 s else finish q.ring q.index stOk 0 (changeMode 3 0 false s)
    | 7, 3 =>
      if !axesStill s then finish q.ring q.index stRefused 14 s else finish q.ring q.index stOk 0 (changeMode 3 0 false s)
    | 1, 3 => warmPath (modCtl (fun c => { c with request := some q }) s)
    | _, _ => finish q.ring q.index stRefused 10 s
def doSetMode (k : Nat) (d : Desc) (usage : UsageIn) (s : State) : State :=
  readDesc k d 0x02 (usedBits [(8, 1)]) [(8, decide (dfld d 8 1 ≤ 7))] (fun i s =>
    let s := if modeOf s = 5 ∧ s.ctl.calFrom = 3 then endGap s else s
    setMode { ring := k, index := i, target := dfld d 8 1 } usage s) s
/-- SET_MODE (R20 to R25).  In CALIBRATE entered from READY the gap ends where an OP_SET_MODE is read (R480). -/
def execSetMode (ring : Nat) (d : Desc) (usage : UsageIn) (s : State) : Host.Outcome State Fault Refusal := .next (doSetMode ring d usage s)

/-- Every axis stands still during the entry to HOLD: step 5 of R28. -/
def doHoldStandstill (usage : UsageIn) (s : State) : State :=
  if modeOf s = 6 ∧ rdb R.CTL_MODE 31 s ∧ axesStill s then
    updateBeam 4 (wrb R.CTL_MODE 31 false (usageFlush 2 usage s))
  else s
/-- HOLD_STANDSTILL (R28). -/
def execHoldStandstill (usage : UsageIn) (s : State) : Host.Outcome State Fault Refusal := .next (doHoldStandstill usage s)
/-- The axes of an abandoned descriptor are at rest: READY is entered (R24). -/
def doReadyEntryAtRest (s : State) : State :=
  match s.ctl.request with
  | none => s
  | some q =>
    if q.target = 3 ∧ modeOf s = 4 ∧ !((curPass s).map (·.begun)).getD false ∧ atRest 0 s ∧ atRest 1 s then enterReady q s else s
/-- READY_ENTRY_AT_REST (R24). -/
def execReadyEntryAtRest (s : State) : Host.Outcome State Fault Refusal := .next (doReadyEntryAtRest s)

end Sys2Proof.Machine
end

