-- ==== Sys2Proof/Machine/Pin.lean ====
section
/-! DEFINITION. The connectors (R525 to R542): protected outputs and their faults, the IO supply, the E-stop test pulses, the
coolant input, the general inputs and outputs. -/

namespace Sys2Proof.Machine

def modPin (f : PinState → PinState) (s : State) : State := modCtl (fun c => { c with pin := f c.pin }) s

/-! ### What PIN_IN and PIN_OUT_STATUS read (R19, R460, R532, R534, R540) -/

/-- PIN_IN: the general inputs and the reset, permit, coolant, E-stop and supply bits. -/
def pinIn (s : State) : Nat :=
  rdf R.PIN_IN 0 8 s + 2 ^ 8 * b2n (s.pwr.asserted.contains 2) + 2 ^ 9 * b2n s.ctl.permit + 2 ^ 10 * b2n s.ctl.coolant +
    2 ^ 11 * b2n (!s.ctl.estopOpen.contains 0) + 2 ^ 12 * b2n (!s.ctl.estopOpen.contains 1) + 2 ^ 13 * b2n s.ctl.pin.ioOk
/-- General output `n` is commanded on: PIN_OUT, or its fuse-mapped state before the first write (R460). -/
def gpCommand (n : Nat) (s : State) : Bool :=
  if s.ctl.pin.gpTaken then rdb R.PIN_OUT n s else rdf R.FUS_PIN_MAP (2 * n) 2 s 2 == 2
/-- Fault is active: HOLD with any cause but HOST_REQUEST (R19). -/
def faultWanted (s : State) : Bool := modeOf s == 6 && setBit 16 false (rd R.CTL_HOLD_CAUSE s) != 0
/-- Ready, Beam active and Fault as R19 commands them; before the first BRINGUP the fuse-mapped state (R460). -/
def statusCommand (n : Nat) (s : State) : Bool :=
  let m := modeOf s
  if !s.ctl.takenOver then n == 2 && rdf R.FUS_PIN_MAP 8 2 s == 2
  else if n = 0 then m == 3 || m == 4 || m == 5
  else if n = 1 then s.ctl.beamEnable
  else faultWanted s
/-- PIN_OUT_STATUS: an output is on where it is commanded on, not switched off by a fault, and IO_24V is there. -/
def pinOutStatus (s : State) : Nat :=
  if !s.ctl.pin.ioPresent then 0
  else maskOf (rangeP 11 (fun n => !rdb R.PIN_FAULT n s && (if n < 8 then gpCommand n s else statusCommand (n - 8) s)))

/-! ### Faults (R532, R533, R537) -/

/-- A saturating PIN counter posts EV_IO_FAULT with cause COUNTER (R537). -/
def satPin (off : Nat) (s : State) : State :=
  postEvent 245 0 1 0 [(0, 1, 0), (1, 1, 9), (4, 4, (off : Nat)), (8, 8, (ttNow s : Nat))] s
/-- EV_IO_FAULT of a class (R537). -/
def postIoFault (cls index cause measured : Nat) (s : State) : State :=
  let sev := if cause = 8 then 0 else if cls = 1 ∨ cls = 4 then 2 else 1
  postEvent 245 index sev 0 [(0, 1, (cls : Nat)), (1, 1, (cause : Nat)), (4, 4, (measured : Nat)), (8, 8, (ttNow s : Nat))] s
/-- The PIN_FAULT bit of a protected output: class and index within it (R532, R540). -/
def faultBit (cls index : Nat) : Option Nat :=
  match cls with
  | 2 => if index < 3 then some (8 + index) else none
  | 3 => if index < 8 then some index else none
  | 4 => if index < 2 then some 11 else none
  | 5 => if index < 6 then some (12 + index) else none
  | 6 => if index < 4 then some (18 + index) else none
  | 7 => if index = 0 then some 22 else none
  | 8 => if index < 6 then some (23 + index) else none
  | 9 => if index = 0 then some 29 else none
  | _ => none
/-- A status or general output is commanded on. -/
def outCommand (cls index : Nat) (s : State) : Bool := if cls = 3 then gpCommand index s else statusCommand index s
/-- A class has the cause: SHORT_HIGH is read back from an output that is commanded off, OPEN_LOAD from one that is on, only where
open_detect is set (R532). -/
def faultCauseOk (cls index cause : Nat) (s : State) : Bool :=
  match cause with
  | 1 => true
  | 2 => (cls == 2 || cls == 3) && !outCommand cls index s
  | 3 => cls == 3 && rdb R.PIN_OUT_CFG index s && outCommand cls index s
  | _ => false
/-- A pulse that runs on the trigger or PPS output of PIN_FAULT bit `b` starts or ends at the output: at its fault, and at the clear that
returns the output to its commanded state (R532). -/
def pulseAt (b : Nat) (on : Bool) (s : State) : State :=
  if b = 22 then (if s.time.ppsPulse then { ppsPulse on s with time := s.time } else s)
  else if 18 ≤ b ∧ b < 22 then (if (tget? s.cam.pulses (b - 18)).any (·.running) then trigOut (b - 18) on s else s)
  else s
/-- A protected output's fault is detected: it switches off and stays off until its bit is cleared. -/
def doIoOutputFault (cls index cause measured : Nat) (s : State) : State :=
  match faultBit cls index with
  | none => s
  | some b =>
    if !faultCauseOk cls index cause s || rdb R.PIN_FAULT b s then s
    else
      let s := bump R.PIN_FAULTS 1 (satPin 0x28) (wrb R.PIN_FAULT b true (pulseAt b false s))
      let s := postIoFault cls index cause measured s
      if cls = 5 then updateEnables s else s
/-- IO_OUTPUT_FAULT (R532). -/
def execIoOutputFault (cls index cause measured : Nat) (s : State) : Host.Outcome State Fault Refusal :=
  .next (doIoOutputFault cls index cause measured s)
/-- A W1C write to PIN_FAULT: bits 29 to 31 clear only once their condition has gone (R540); the output returns to its command
(R532).  `idGone`: the condition of bit 29 has gone. -/
def doPinFaultClear (value : Nat) (idGone : Bool) (s : State) : State :=
  let ok : Nat → Bool := fun b =>
    if b = 29 then idGone else if b = 30 then s.ctl.pin.ioOk else if b = 31 then s.ctl.pin.crossBad.isEmpty && !s.ctl.estopDisc else true
  let s := each (onesOf 32 value) (fun b s => if ok b && rdb R.PIN_FAULT b s then pulseAt b true (wrb R.PIN_FAULT b false s) else s) (modPin (fun p => { p with gpTaken := true }) s)
  updateEnables s
/-- PIN_FAULT_CLEAR (R532). -/
def execPinFaultClear (value : Word32) (idGone : Bool) (s : State) : Host.Outcome State Fault Refusal :=
  .next (doPinFaultClear value.toNat idGone s)
/-- The test pulse of channel `c` (R533); `cross`: the channel stayed high during it, or the other one fell.  A cross-short makes
both channels count as open until both have been seen open together. -/
def doEstopTestPulse (c : Nat) (cross : Bool) (s : State) : State :=
  if c > 1 ∨ !s.ctl.pin.ioPresent ∨ rdb R.PIN_FAULT 11 s then s
  else
    let s := emit .estopTestPulse s
    let s := modPin (fun p => { p with crossBad := (if cross then [c] else []) ++ p.crossBad.filter (· != c) }) s
    if !cross || rdb R.PIN_FAULT 31 s then s
    else
      let s := postIoFault 4 c 7 0 (bump R.PIN_FAULTS 1 (satPin 0x28) (wrb R.PIN_FAULT 31 true s))
      let first := s.ctl.estopOpen.isEmpty && !s.ctl.estopDisc
      if s.ctl.estopOpen.length = 2 then s
      else
        let s := modCtl (fun x => { x with estopDisc := true, estopReset := false }) (wrb R.SAF_STATUS 4 true s)
        if first then estopOpened s else s
/-- ESTOP_TEST_PULSE (R533). -/
def execEstopTestPulse (channel : Nat) (cross : Bool) (s : State) : Host.Outcome State Fault Refusal := .next (doEstopTestPulse channel cross s)

/-! ### Coolant input (R535) -/

/-- The coolant input as accepted; its change posts EV_COOLANT, and its fall sets hold cause COOLANT (R26, R537). -/
def coolantAccept (active : Bool) (s : State) : State :=
  if active = s.ctl.coolant then s
  else
    let mode := rdf R.PIN_COOLANT_CFG 0 1 s
    let s := modCtl (fun c => { c with coolant := active }) s
    let s := postEvent 248 0 (if active then 0 else 2) 0
      [(0, 1, (if active then 2 else 1)), (1, 1, (mode : Nat)), (4, 4, (if mode = 1 then (rdf R.PIN_COOLANT_RATE 0 16 s : Nat) else 0))] s
    if active then s else holdCause 5 s
/-- A 100 ms window of frequency mode ends with `edges` rising edges. -/
def doCoolantWindow (edges : Nat) (s : State) : State :=
  if rdb R.PIN_COOLANT_CFG 0 s then
    let rate := min 65535 (10 * edges)
    modPin (fun p => { p with coolRaw := decide (rate ≥ rdf R.PIN_COOLANT_CFG 16 16 s) }) (wr R.PIN_COOLANT_RATE rate s)
  else s
/-- COOLANT_WINDOW (R535). -/
def execCoolantWindow (edges : Nat) (s : State) : Host.Outcome State Fault Refusal := .next (doCoolantWindow edges s)
/-- A state that has held for the filter time: in level mode the level that held, in frequency mode what the last window judged;
inactive while IO_24V is ABSENT or REVERSED (R534). -/
def doCoolantChange (level : Bool) (s : State) : State :=
  let raw := if rdb R.PIN_COOLANT_CFG 0 s then s.ctl.pin.coolRaw else level != rdb R.PIN_COOLANT_CFG 1 s
  coolantAccept (raw && s.ctl.pin.ioPresent) s
/-- COOLANT_CHANGE (R535). -/
def execCoolantChange (level : Bool) (s : State) : Host.Outcome State Fault Refusal := .next (doCoolantChange level s)

/-! ### General inputs and outputs (R538, R460) -/

/-- An edge of input `n` to `level` has held for PIN_DEBOUNCE ms. -/
def doGpinEdgeAccept (n : Nat) (level : Bool) (s : State) : State :=
  if n > 7 ∨ !s.ctl.pin.ioPresent ∨ rdb R.PIN_IN n s = level then s
  else
    let s := bump R.PIN_GPIN_EDGES 1 (satPin 0x2C) (wrb R.PIN_IN n level s)
    let p := s.ctl.pin
    let more := tget 0 p.gpinMore n
    let open_ := match tget? p.gpinLast n with
      | none => true
      | some t => decide (s.time.ns - t ≥ rd R.PIN_DEBOUNCE s * 1000000)
    if !open_ then modPin (fun p => { p with gpinMore := tset p.gpinMore n (min 255 (more + 1)) }) s
    else if rdb R.PIN_GPIN_EDGE (if level then n else 8 + n) s then
      postEvent 246 n 0 0 [(0, 1, (b2n level : Nat)), (1, 1, (more : Nat)), (8, 8, (ttNow s : Nat))]
        (modPin (fun p => { p with gpinMore := terase p.gpinMore n, gpinLast := tset p.gpinLast n s.time.ns }) s)
    else s
/-- GPIN_EDGE_ACCEPT (R538). -/
def execGpinEdgeAccept (input : Nat) (level : Bool) (s : State) : Host.Outcome State Fault Refusal := .next (doGpinEdgeAccept input level s)
def doPinOutWrite (value : Nat) (s : State) : State := wr R.PIN_OUT (value % 256) (modPin (fun p => { p with gpTaken := true }) s)
/-- PIN_OUT_WRITE (R460). -/
def execPinOutWrite (value : Word32) (s : State) : Host.Outcome State Fault Refusal := .next (doPinOutWrite value.toNat s)

/-! ### IO_24V (R534) -/

/-- IO_24V has stayed within 20.4 to 28.8 V for 100 ms: the inputs are read.  `inputs`: [0] E-stop A closed, [1] B closed,
[2] permit, [7:3] 0, [15:8] the general inputs. -/
def doIoSupplyAccept (mv inputs : Nat) (s : State) : State :=
  if s.ctl.pin.ioOk then wr R.PIN_IO_SUPPLY mv s
  else
    let lost := s.ctl.pin.ioLost
    let s := wr R.PIN_IO_SUPPLY mv (modPin (fun p => { p with ioOk := true, ioPresent := true, ioLost := false }) s)
    let s := if lost then postIoFault 1 0 8 mv s else s
    let s := wrf R.PIN_IN 0 8 (bits 8 8 inputs) s
    let s := doBeamPermitChange (bit 2 inputs) s
    each (onesOf 2 inputs) doEstopClose s
/-- IO_SUPPLY_ACCEPT (R534). -/
def execIoSupplyAccept (mv inputs : Nat) (s : State) : Host.Outcome State Fault Refusal := .next (doIoSupplyAccept mv inputs s)
/-- IO_24V leaves its range: cause 4 UNDERVOLTAGE, 5 REVERSED, 6 ABSENT (R532).  ABSENT and REVERSED make every isolated input
read inactive and every isolated output off. -/
def doIoSupplyLoss (cause mv : Nat) (s : State) : State :=
  let act := if cause = 4 then s.ctl.pin.ioOk else (cause == 5 || cause == 6) && s.ctl.pin.ioPresent
  if !act then s
  else
    let s := modPin (fun p => { p with ioOk := false, ioPresent := decide (cause = 4), ioLost := true }) (wr R.PIN_IO_SUPPLY mv s)
    let s := postIoFault 1 0 cause mv (bump R.PIN_FAULTS 1 (satPin 0x28) (wrb R.PIN_FAULT 30 true s))
    if cause = 4 then s
    else
      let s := wrf R.PIN_IN 0 8 0 s
      let s := doEstopOpen 1 (doEstopOpen 0 s)
      coolantAccept false (doBeamPermitChange false s)
/-- IO_SUPPLY_LOSS (R534). -/
def execIoSupplyLoss (cause mv : Nat) (s : State) : Host.Outcome State Fault Refusal := .next (doIoSupplyLoss cause mv s)

end Sys2Proof.Machine
end

