-- ==== Sys2Proof/Machine/Thm.lean ====
section
/-! DEFINITION. Conversions (R466 to R468), the die sensor and its fallback (R469, R470), thresholds (R471), throttling (R473),
head sensors and head supply (R474 to R476). -/

namespace Sys2Proof.Machine

def value16 (n : Nat) (s : State) : Int := sext 16 (rdf R.THM_RESULT 0 16 s n)
/-- A valid result is written for a sensor (R468). -/
def putResult (n : Nat) (v : Int) (s : State) : State := wr R.THM_RESULT (2 ^ 16 + toBits 16 v) s n
/-- A result that fails its detection: the value stays, the fault is set and counted, and EV_REMOTE_SENSOR_FAULT is posted once
per run (R468, R482). -/
def faultResult (n cause raw : Nat) (s : State) : State :=
  let s := bump R.THM_SENSOR_FAULTS 1 (satThm 0x284) (wrb R.THM_RESULT 17 true s n)
  if s.thm.faultRun.contains n then s
  else postEvent 44 n 1 0 [(0, 1, (cause : Nat)), (2, 2, (min raw 65535 : Nat))] (modThm (fun t => { t with faultRun := n :: t.faultRun }) s)

/-! ### The die (R469 to R473) -/

/-- Thresholds 0 to 3 of R471: event, limit, below. -/
def thresholds : List (Nat × Nat × Int × Bool) := [(0, 34, 80, true), (1, 33, 160, true), (2, 35, 1520, false), (3, 37, 1760, false)]
/-- One threshold against a die reading (R471). -/
def checkThreshold (v : Int) (t : Nat × Nat × Int × Bool) (s : State) : State :=
  let inside := if t.2.2.2 then decide (v < t.2.2.1) else decide (v ≥ t.2.2.1)
  let away := if t.2.2.2 then decide (v ≥ t.2.2.1 + 32) else decide (v ≤ t.2.2.1 - 32)
  if inside then
    if s.thm.posted.contains t.1 then s
    else
      let s := modThm (fun x => { x with posted := t.1 :: x.posted }) s
      let s := postEvent t.2.1 0 (if t.1 = 3 then 2 else 1) 0 [(0, 2, v), (2, 1, (b2n (rdb R.THM_STATUS 5 s) : Nat))] s
      if t.1 = 3 then holdCause 3 s else s
  else if away then modThm (fun x => { x with posted := x.posted.filter (· != t.1) }) s
  else s
/-- dwell_us and scale of R473 at a die excess of x, in 1/16 °C. -/
def dieThrottle (x : Int) (s : State) : Nat × Nat :=
  if x ≤ 0 then (0, 0x8000)
  else
    let n := x.toNat
    ((min n 48 * rdf R.THM_DWELL_K 0 20 s) / 16,
     if n ≤ 48 then 0x8000 else max 0x0800 (0x8000 - ((n - 48) * rdf R.THM_SCALE_K 0 16 s) / 16))
/-- A die reading is compared with the thresholds and sets the die's throttle sources (R471, R473, R484). -/
def dieEval (v : Int) (s : State) : State :=
  let s := each thresholds (checkThreshold v) s
  let x := v - sext 16 (rdf R.THM_THROTTLE_START 0 16 s)
  let (dwell, scale) := dieThrottle x s
  let zone := if x ≤ 0 then 0 else if x ≤ 48 then 1 else 2
  let s := if zone = s.thm.zone then s
    else postEvent 36 0 (if zone = 2 then 1 else 0) 0 [(0, 2, v), (2, 1, (zone : Nat)), (4, 4, (dwell : Nat)), (8, 2, (scale : Nat))]
      (modThm (fun t => { t with zone := zone }) s)
  let s := setScale 4 0xFF scale false (setDwell 3 dwell s)
  wrf R.THM_STATUS 7 3 (if v ≥ 1760 then 6 else if x > 48 then 5 else if x > 0 then 4 else if v ≥ 1520 then 3 else if v < 80 then 0
    else if v < 160 then 1 else 2) s
/-- Fallback begins or ends (R469). -/
def setFallback (on : Bool) (v : Int) (s : State) : State :=
  let s := modThm (fun t => { t with plausible := if on then 0 else t.plausible }) (wrb R.THM_STATUS 5 on s)
  postEvent 38 0 1 0 [(0, 1, (if on then 1 else 2)), (2, 2, v), (4, 2, value16 1 s), (6, 2, value16 2 s)] s
/-- A die result is implausible (R469). -/
def dieImplausible (v : Int) (s : State) : Bool :=
  decide (v < -640 ∨ v > 2400) ||
  (match s.thm.prevDie with
   | none => false
   | some p => decide (s.time.ns < p.2 + 100000000 ∧ (v - p.1).natAbs > 240))
/-- A die result (R468 to R471, R473).  The cause in EV_REMOTE_SENSOR_FAULT of an implausible result is a free value (log entry 3). -/
def dieResult (v : Int) (raw : Nat) (s : State) : State :=
  let bad := dieImplausible v s
  let s := modThm (fun t => { t with prevDie := some (v, s.time.ns) }) s
  let s := if bad then
      let (c, s) := fresh s
      let s := faultResult 0 (c % 256) raw s
      let s := modThm (fun t => { t with plausible := 0, implausible := t.implausible + 1 }) s
      if s.thm.implausible = 3 ∧ !rdb R.THM_STATUS 5 s then setFallback true v s else s
    else
      let s := putResult 0 v (modThm (fun t => { t with implausible := 0, plausible := t.plausible + 1, faultRun := t.faultRun.filter (· != 0) }) s)
      let s := if s.thm.plausible ≥ 100 ∧ rdb R.THM_STATUS 5 s then setFallback false v s else s
      calCheck 0 s
  let s := checkDie s
  match dieReading s with
  | some d => if !bad ∨ rdb R.THM_STATUS 5 s then dieEval d s else s
  | none => s

/-! ### Head sensors and head supply (R474 to R476) -/

/-- EV_HEAD_TEMP_LIMIT (R482). -/
def postHeadTemp (i kind : Nat) (v limit : Int) (s : State) : State :=
  postEvent 39 i (if kind = 2 then 2 else 1) 0 [(0, 1, (kind : Nat)), (2, 2, v), (4, 2, limit)] s
/-- A result of a remote input with role HEAD (R474, R475). -/
def headResult (i : Nat) (faulty : Bool) (s : State) : State :=
  let soft := sext 16 (rdf R.THM_REMOTE_LIMIT 0 16 s i)
  let hard := sext 16 (rdf R.THM_REMOTE_LIMIT 16 16 s i)
  let v := value16 (i + 1) s
  let level := if faulty then 3 else if v ≥ hard then 2 else if v ≥ soft then 1 else 0
  let old := tget 0 s.thm.band i
  let s := modThm (fun t => { t with
    band := if level = 0 then terase t.band i else tset t.band i level
    softPosted := if !faulty && decide (v ≤ soft - 32) then t.softPosted.filter (· != i) else t.softPosted
    hardPosted := if !faulty && decide (v ≤ hard - 32) then t.hardPosted.filter (· != i) else t.hardPosted }) s
  let s :=
    if level = 3 ∧ old ≠ 3 then postHeadTemp i 3 v soft s
    else if level = 2 ∧ old ≠ 2 ∧ !s.thm.hardPosted.contains i then
      postHeadTemp i 2 v hard (modThm (fun t => { t with hardPosted := i :: t.hardPosted }) s)
    else if level = 1 ∧ (old = 2 ∨ (old ≠ 1 ∧ !s.thm.softPosted.contains i)) then
      postHeadTemp i 1 v soft (modThm (fun t => { t with softPosted := i :: t.softPosted.filter (· != i) }) s)
    else s
  let s := if level ≠ 0 then setScale 5 0xFF (rdf R.THM_HEAD_SCALE 0 16 s) true s else s
  if level = 2 ∧ old ≠ 2 then
    holdCause 4 (modThm (fun t => { t with hardBy := if t.hardBy.contains i then t.hardBy else i :: t.hardBy }) s)
  else s
/-- A head-supply result outside THM_SUPPLY_LIMIT (R476). -/
def supplyResult (mv : Nat) (s : State) : State :=
  let cause := if mv < rdf R.THM_SUPPLY_LIMIT 0 16 s then 1 else if mv > rdf R.THM_SUPPLY_LIMIT 16 16 s then 2 else 0
  let s := if cause ≠ 0 ∧ cause ≠ s.thm.supplyOut then postEvent 40 9 1 0 [(0, 1, (cause : Nat)), (2, 2, (mv : Nat))] (holdFlag 2 s) else s
  modThm (fun t => { t with supplyOut := cause }) s

/-! ### Conversions -/

/-- The fault that the detection of R466 finds: 0 none, 1 OPEN, 2 SHORT.  A diode is judged by its voltage at 10 µA in mV and a
thermistor by its resistance in Ω; what the head supply's two lines and an input of a reserved type show comes with the conversion. -/
def detect (n given raw : Nat) (s : State) : Nat :=
  match (if 1 ≤ n ∧ n ≤ 8 then rdf R.THM_REMOTE_CFG 0 2 s (n - 1) else 3) with
  | 1 => if raw > 1000 then 1 else if raw < 200 then 2 else 0
  | 2 => if raw > 1000000 then 1 else if raw < 10 then 2 else 0
  | _ => if n = 9 then min given 1 else given
/-- The result of sensor `n` (R468), and what follows from it. -/
def sensorResult (n : Nat) (reading : Int) (given raw : Nat) (s : State) : State :=
  let s := wr R.THM_RESULT_TT (ttNow s) s n
  let fault := detect n given raw s
  if inputOff n s then checkDie (wrb R.THM_RESULT 16 false (wrb R.THM_RESULT 17 false s n) n)
  else if n = 0 then dieResult reading raw s
  else
    let bad := decide (fault ≠ 0)
    let s := if bad then faultResult n fault raw s
      else
        let s := putResult n reading (modThm (fun t => { t with faultRun := t.faultRun.filter (· != n) }) s)
        let s := if n = 1 + rdf R.BSC_CTRL 4 3 s then modBsc (fun b => { b with newT := some reading }) s else s
        let s := if n = 9 then modBsc (fun b => { b with newV := some (reading % 65536) }) s else s
        if n < 9 then calCheck n s else s
    let s := if n = 1 ∨ n = 2 then checkDie s else s
    if n = 9 then (if bad then s else supplyResult (rdf R.THM_RESULT 0 16 s 9) s)
    else if isHead (n - 1) s then headResult (n - 1) bad s
    else s
/-- EV_THM_RESULT for tag and register requests (R482). -/
def reportResult (c : Conv) (s : State) : State :=
  let who := if c.who.contains whoTag then 3 else if c.who.contains whoHost then 4 else if c.who.contains whoPeriod then 5 else 0
  if who = 0 ∨ !rdb R.THM_CTRL 0 s then s
  else
    postEvent 32 c.sensor 0 0 [(0, 2, (rdf R.THM_RESULT 0 16 s c.sensor : Nat)), (2, 1, (rdf R.THM_RESULT 16 2 s c.sensor : Nat)), (3, 1, (who : Nat)),
      (8, 8, (rd R.THM_RESULT_TT s c.sensor : Nat))] s
def doThmConversionDone (reading : Int) (fault raw : Nat) (s : State) : State :=
  match s.thm.converting with
  | none => s
  | some c =>
    let s := modThm (fun t => { t with converting := none }) s
    let s := bump R.THM_CONVERSIONS 1 (satThm 0x280) s
    let s := reportResult c (sensorResult c.sensor reading fault raw s)
    let s := if c.who.contains whoPass then
        modPlc (fun p => if c.sensor = 9 then { p with convV := false } else { p with convT := false }) s else s
    let s := if c.who.contains whoBuild then buildResult s else s
    showQueue (startConv s)
/-- THM_CONVERSION_DONE (R468): the reading in the sensor's unit, the fault where the raw measurement alone does not show it, and the raw
measurement that `detect` judges. -/
def execThmConversionDone (reading : Int) (fault raw : Nat) (s : State) : Host.Outcome State Fault Refusal :=
  .next (doThmConversionDone reading fault raw s)
/-- A write to THM_REQ by the firmware or by host software (R467). -/
def writeThmReq (fw : Bool) (v : Nat) (s : State) : State :=
  each (onesOf 10 v) (fun n s => requestConv n (if fw then 5 else 4) (if fw then whoPeriod else whoHost) s) s
/-- THM_REQ (R467). -/
def execThmReq (fw : Bool) (value : Word32) (s : State) : Host.Outcome State Fault Refusal := .next (writeThmReq fw value.toNat s)
def doStandingRequest (s : State) : State :=
  if modeOf s = 0 then s
  else each (0 :: ((List.range 8).filter (fun i => isHead i s)).map (· + 1)) (fun n s => requestConv n 1 whoBezel s) s
/-- STANDING_REQUEST (R467). -/
def execStandingRequest (s : State) : Host.Outcome State Fault Refusal := .next (doStandingRequest s)

end Sys2Proof.Machine
end

