-- ==== Sys2Proof/Machine/Udma.lean ====
section
/-! DEFINITION. The helper DMA channels (R389 to R397, R406 to R408) and the CRC units (R398 to R400, R409). -/

namespace Sys2Proof.Machine

/-! ### Helper DMA channels -/

/-- UDMA_CH_STATUS.state: 0 IDLE, 1 RUN, 2 PACED, 3 ERR (R408). -/
def chState (c : Nat) (s : State) : Nat := rdf R.UDMA_CH_STATUS 0 2 s c
/-- A channel's state, with UDMA_BUSY and the start bit that follow it (R408). -/
def setCh (c st : Nat) (s : State) : State :=
  wrb R.UDMA_CTRL 0 (decide (st = 1 ∨ st = 2)) (wrb R.UDMA_BUSY c (decide (st ≠ 0)) (wrf R.UDMA_CH_STATUS 0 2 st s c)) c
def setResult (c r : Nat) (s : State) : State := wrf R.UDMA_CH_STATUS 4 4 r s c
def workOf (c : Nat) (s : State) : UdmaWork := tget {} s.mem.udma c
def setWork (c : Nat) (w : UdmaWork) (s : State) : State := modMem (fun m => { m with udma := tset m.udma c w }) s
/-- The pacing fields (R392, R408). -/
def paceQueue (c : Nat) (s : State) : Nat := rdf R.UDMA_PACE 0 5 s c
def paceLo (c : Nat) (s : State) : Nat := rdf R.UDMA_PACE 8 12 s c * 256
def paceHi (c : Nat) (s : State) : Nat := rdf R.UDMA_PACE 20 12 s c * 256
/-- The level of a queue: the bytes staged on an upload stream, else what the outside says (R392). -/
def queueLevel (q level : Nat) (s : State) : Nat := if 1 ≤ q ∧ q ≤ 8 then (streamOf s (q - 1)).stagedBytes else level
/-- The limit of a space; nothing exists beyond it, or in a space the field does not define. -/
def spaceSize (sp : Nat) : Nat := if sp = 0 then dramSize else if sp = 1 then sramSize else 0
/-- The result that refuses a setting, with the space and the address it names (R390). -/
def refusal (c : Nat) (w : UdmaWork) (src dst count : Nat) (s : State) : Option (Nat × Nat × Nat) :=
  let u := swapUnit w.swap
  let q := paceQueue c s
  if count = 0 ∨ src % u ≠ 0 ∨ count % u ≠ 0 then some (3, w.srcSpace, src)
  else if dst % u ≠ 0 then some (3, w.dstSpace, dst)
  else if src + count > spaceSize w.srcSpace then some (4, w.srcSpace, src)
  else if dst + count > spaceSize w.dstSpace then some (4, w.dstSpace, dst)
  else if q ≠ 0 ∧ (q > 10 ∨ paceHi c s ≤ paceLo c s) then some (5, w.srcSpace, src)
  else if 1 ≤ q ∧ q ≤ 9 ∧ !Config.inQueueWindow q w.srcSpace src count then some (5, w.srcSpace, src)
  else if q = 10 ∧ !Config.inQueueWindow q w.dstSpace dst count then some (5, w.dstSpace, dst)
  else none
/-- UDMA_DONE, where the setting or the descriptor asks for it (R393, R407). -/
def postDone (c result : Nat) (s : State) : State :=
  let w := workOf c s
  if w.irq || rdb R.UDMA_CTRL 9 s c then
    postEvent 192 c 0 0 [(0, 1, (result : Nat)), (4, 4, (w.total - rd R.UDMA_COUNT s c : Nat)), (8, 4, (if w.chain then rd R.UDMA_CHAIN s c else 0 : Nat))] s
  else s
/-- `n` free bytes: what an invalid destination holds (R396, log entry 3). -/
def freeBytes (n : Nat) (s : State) : List Byte × State :=
  let (v, s) := fresh s
  (leBytes n v, s)
/-- The 32 bytes of a descriptor in SRAM, as the channel reads them (R373, R393): free where a word of it is uncorrectable. -/
def readWork (off : Nat) (s : State) : List Byte × State :=
  match sramRead off 32 rqUdma s with
  | (none, s) => (readSram s off 32, s)
  | (some _, s) => freeBytes 32 s
/-- The descriptor at an SRAM offset becomes the one in progress (R393). -/
def loadWork (c off : Nat) (s : State) : State :=
  let (b, s) := readWork off s
  let f := bytesAt b 20 1
  let w : UdmaWork := { swap := bits 0 2 f, srcSpace := bits 2 2 f, dstSpace := bits 4 2 f, irq := bit 6 f, eoc := bit 7 f, next := bytesAt b 24 4,
                        chain := true, total := bytesAt b 16 4 }
  setWork c w (wr R.UDMA_CHAIN off (wr R.UDMA_COUNT (bytesAt b 16 4) (wr R.UDMA_DST (bytesAt b 8 8) (wr R.UDMA_SRC (bytesAt b 0 8) s c) c) c) c)
/-- The last descriptor of a chain that starts at `off`: the first one on it with its end mark set (R394). -/
def chainTail (s : State) : Nat → Nat → Nat
  | 0, off => off
  | fuel + 1, off => if bit 7 (bytesAt (readSram s (off + 20) 1) 0 1) then off else chainTail s fuel (bytesAt (readSram s (off + 24) 4) 0 4)
/-- A start is refused, or the channel runs, or waits for its queue (R390, R392). -/
def launch (c : Nat) (s : State) : State :=
  match refusal c (workOf c s) (rd R.UDMA_SRC s c) (rd R.UDMA_DST s c) (rd R.UDMA_COUNT s c) s with
  | some r => udmaError c 0 r.1 r.2.1 r.2.2 (setResult c r.1 (setCh c 0 s))
  | none => setCh c (if paceQueue c s = 0 then 1 else 2) (wrb R.UDMA_CH_STATUS 8 false (setResult c 0 s) c)
/-- A chain starts at the descriptor at `off`. -/
def startChain (c off : Nat) (s : State) : State := launch c (loadWork c off s)
/-- A write of 1 to UDMA_CTRL.start (R390): from IDLE a start, from ERR back to IDLE (R396), else nothing. -/
def doUdmaStart (c : Nat) (s : State) : State :=
  if c > 15 then s
  else if chState c s = 3 then setCh c 0 (wrb R.UDMA_CH_STATUS 8 false s c)
  else if chState c s ≠ 0 then s
  else if rdb R.UDMA_CTRL 8 s c then
    let off := rd R.UDMA_CHAIN s c
    startChain c off (wr R.UDMA_TAIL (chainTail s 3145728 off) s c)
  else
    let v := rd R.UDMA_CTRL s c
    launch c (setWork c { swap := bits 2 2 v, srcSpace := bits 4 2 v, dstSpace := bits 6 2 v, total := rd R.UDMA_COUNT s c } s)
/-- UDMA_START (R390). -/
def execUdmaStart (channel : Nat) (s : State) : Host.Outcome State Fault Refusal := .next (doUdmaStart channel s)

/-- Takes `n` bytes from the front of an upload stream's staging (R392). -/
def takeStaged (k n : Nat) (s : State) : List Byte × State :=
  let all := (streamOf s k).staged.flatten
  let rest := all.drop n
  (all.take n, modStream k (fun x => { x with staged := if rest = [] then [] else [rest], stagedBytes := rest.length }) s)
/-- The source bytes of a beat, or an error. -/
def readBeat (c : Nat) (w : UdmaWork) (a n : Nat) (s : State) : Bool × List Byte × State :=
  let q := paceQueue c s
  if 1 ≤ q ∧ q ≤ 8 then
    let (b, s) := takeStaged (q - 1) n s
    (false, b, s)
  else
    let (e, b, s) := readSide (if w.srcSpace = 0 then 0 else 2) a n rqUdma s
    (e.isSome, b, s)
/-- Writes the bytes of a beat. -/
def writeBeat (w : UdmaWork) (a : Nat) (b : List Byte) (s : State) : State :=
  if w.dstSpace = 0 then memWrite a b rqUdma s else if a + b.length ≤ sramSize then writeSram a b s else s
/-- A beat of `n` bytes that fails (R396). -/
def beatError (c n a : Nat) (w : UdmaWork) (dst : Nat) (s : State) : State :=
  let left := rd R.UDMA_COUNT s c
  let result := if left = n then 2 else 1
  let (b, s) := freeBytes n s
  let s := writeBeat w dst b s
  let s := wr R.UDMA_ERR_ADDR a (wrb R.UDMA_CH_STATUS 8 true (setResult c result (setCh c 3 s)) c) c
  udmaError c 0 result w.srcSpace a (if left = n then wr R.UDMA_COUNT 0 s c else s)
/-- Up to `fuel` beats of a running channel (R389 to R392): it stops at the end of the count, at an error, where its queue cannot
take part, or in PACED.  `level` is the level of queue 9 or 10. -/
def runBeats (c : Nat) : (fuel level : Nat) → State → State
  | 0, _, s => s
  | fuel + 1, level, s =>
    let left := rd R.UDMA_COUNT s c
    if chState c s ≠ 1 ∨ left = 0 then s
    else
      let w := workOf c s
      let moved := w.total - left
      let a := rd R.UDMA_SRC s c + moved
      let dst := rd R.UDMA_DST s c + moved
      let n := min (64 - dst % 64) left
      let q := paceQueue c s
      if q ≠ 0 ∧ queueLevel q level s < n then s
      else
        let (bad, b, s) := readBeat c w a n s
        if bad || (w.dstSpace = 0 && (decide (dst + n > dramSize) || rmwBad dst n s != [])) || (w.dstSpace ≠ 0 && decide (dst + n > sramSize)) then beatError c n a w dst s
        else
          let s := wr R.UDMA_COUNT (left - n) (writeBeat w dst (swapBytes w.swap b) s) c
          if q ≠ 0 ∧ left ≠ n ∧ queueLevel q (level - n) s ≤ paceLo c s then setCh c 2 s else runBeats c fuel (level - n) s
/-- A descriptor is through: UDMA_DONE, then the next one of the chain, after a re-read of a set end mark (R393, R394). -/
def finishWork (c : Nat) (s : State) : State :=
  let w := workOf c s
  let s := postDone c 0 (setResult c 0 s)
  if !w.chain then setCh c 0 s
  else if !w.eoc then loadWork c w.next s
  else
    let off := rd R.UDMA_CHAIN s c
    let (b, s) := readWork off s
    if bit 7 (bytesAt b 20 1) then postEvent 194 c 0 0 [(0, 4, (off : Nat))] (setCh c 0 s) else loadWork c (bytesAt b 24 4) s
/-- A channel runs on until its descriptor is through, or until it errs or waits for its queue (R394, R396). -/
def doUdmaDescriptorDone (c level : Nat) (s : State) : State :=
  if c > 15 ∨ chState c s ≠ 1 then s
  else
    let s := runBeats c (rd R.UDMA_COUNT s c + 1) level s
    if chState c s = 1 ∧ rd R.UDMA_COUNT s c = 0 then finishWork c s else s
/-- UDMA_DESCRIPTOR_DONE (R394); `level` is the level of queue 9 or 10 where the channel is paced by it. -/
def execUdmaDescriptorDone (channel level : Nat) (s : State) : Host.Outcome State Fault Refusal := .next (doUdmaDescriptorDone channel level s)
/-- UDMA_PACE_RESUME: the level of a paced channel's queue is at or above HI (R392). -/
def doUdmaPaceResume (c level : Nat) (s : State) : State :=
  if c ≤ 15 ∧ chState c s = 2 ∧ paceHi c s ≤ queueLevel (paceQueue c s) level s then setCh c 1 s else s
/-- UDMA_PACE_RESUME (R392). -/
def execUdmaPaceResume (channel level : Nat) (s : State) : Host.Outcome State Fault Refusal := .next (doUdmaPaceResume channel level s)
/-- A write of 1 to UDMA_CTRL.stop (R396, R397): a running channel ends after its current beat, `beats` of them being through by
then; one in ERR returns to IDLE. -/
def doUdmaStop (c beats level : Nat) (s : State) : State :=
  if c > 15 then s
  else if chState c s = 3 then setCh c 0 (wrb R.UDMA_CH_STATUS 8 false s c)
  else if chState c s = 0 then s
  else
    let s := runBeats c beats level s
    if chState c s = 3 then s else setCh c 0 (postDone c 6 (setResult c 6 s))
/-- UDMA_STOP (R397). -/
def execUdmaStop (channel beats level : Nat) (s : State) : Host.Outcome State Fault Refusal := .next (doUdmaStop channel beats level s)
/-- A write to UDMA_APPEND (R395). -/
def writeAppend (v : Nat) (s : State) : State :=
  let off := bits 0 27 v
  let c := bits 32 4 v
  if chState c s = 3 then wr R.UDMA_APPEND_RESULT (2 + 2 ^ 4 * c) s
  else
    let tail := rd R.UDMA_TAIL s c
    let f := bytesAt (readSram s (tail + 20) 1) 0 1
    let s := writeSram (tail + 20) (leBytes 1 (setBit 7 false f)) (writeSram (tail + 24) (leBytes 4 off) s)
    let s := wr R.UDMA_TAIL off s c
    if chState c s = 0 then wr R.UDMA_APPEND_RESULT (1 + 2 ^ 4 * c) (startChain c off s)
    else wr R.UDMA_APPEND_RESULT (2 ^ 4 * c) s
/-- UDMA_APPEND (R395). -/
def execUdmaAppend (value : Word) (s : State) : Host.Outcome State Fault Refusal := .next (writeAppend value.toNat s)

/-! ### CRC units (R398 to R400) -/

/-- Unit 3 belongs to the job engine while a UTILITY ring is enabled (R400). -/
def crcHeld (u : Nat) (s : State) : Bool := u == 3 && (List.range 32).any (fun k => ringType s k == tyUtility && ringEnabled k s)
/-- A register-driven action on a unit applies. -/
def crcFree (u : Nat) (s : State) : Bool := decide (u < 4) && !crcHeld u s
/-- CRC_DONE (R407). -/
def postCrcDone (u cause : Nat) (s : State) : State :=
  postEvent 195 u (if cause = 0 then 0 else 1) 0 [(0, 1, (cause : Nat)), (8, 8, (rd R.CRC_RESULT s u : Nat))] s
/-- A saturating CRC counter posts CRC_DONE with cause ERROR and its offset (R409). -/
def satCrc (u off : Nat) (s : State) : State := postEvent 195 u 1 0 [(0, 1, 1), (8, 4, (off : Nat))] s
/-- A write of 1 to CRC_CTRL.load_init. -/
def doCrcLoadInit (u : Nat) (s : State) : State := if crcFree u s then wr R.CRC_RUN (rd R.CRC_INIT s u) s u else s
/-- CRC_LOAD_INIT (R398). -/
def execCrcLoadInit (unit : Nat) (s : State) : Host.Outcome State Fault Refusal := .next (doCrcLoadInit unit s)
/-- A write of 1 to CRC_CTRL.start: the unit runs on from CRC_RUN (R398, R399). -/
def doCrcStart (u : Nat) (s : State) : State :=
  if crcFree u s && !rdb R.CRC_CTRL 12 s u then wrb R.CRC_CTRL 12 true (wrb R.CRC_CTRL 13 false s u) u else s
/-- CRC_START (R399). -/
def execCrcStart (unit : Nat) (s : State) : Host.Outcome State Fault Refusal := .next (doCrcStart unit s)
/-- The width of a unit in bits. -/
def crcWidth (u : Nat) (s : State) : Nat := rdf R.CRC_CTRL 2 6 s u + 1
/-- A unit consumes `n` bytes: CRC_RUN, CRC_ADDR and CRC_LEN advance by those read before an error (R399).  True: an error. -/
def crcConsume (u n : Nat) (s : State) : Bool × State :=
  let a := rd R.CRC_ADDR s u
  let (e, _, s) := readSide (if rdb R.CRC_CTRL 10 s u then 2 else 0) a n rqCrc s
  let good := match e with
    | none => n
    | some x => x - a
  let bs := if rdb R.CRC_CTRL 10 s u then readSram s a good else readDram s a good
  let w := crcWidth u s
  let run := crcRun w (rd R.CRC_POLY s u % 2 ^ w) (rdb R.CRC_CTRL 8 s u) (rd R.CRC_RUN s u % 2 ^ w) bs
  (e.isSome, wr R.CRC_LEN (rd R.CRC_LEN s u - good) (wr R.CRC_ADDR (a + good) (wr R.CRC_RUN run s u) u) u)
/-- A unit ends on a memory error (R399). -/
def crcError (u : Nat) (s : State) : State :=
  postCrcDone u 1 (bump R.CRC_ERRORS 1 (satCrc u (0x13C + 0x40 * u)) (wrb R.CRC_CTRL 13 true (wrb R.CRC_CTRL 12 false s u) u) u)
/-- The unit's last byte is through: CRC_RESULT and CRC_DONE (R398, R399). -/
def doCrcUnitDone (u : Nat) (s : State) : State :=
  if u < 4 ∧ rdb R.CRC_CTRL 12 s u then
    let (bad, s) := crcConsume u (rd R.CRC_LEN s u) s
    if bad then crcError u s
    else
      let w := crcWidth u s
      let r := rd R.CRC_RUN s u
      let out := ((if rdb R.CRC_CTRL 9 s u then reflect w r else r) ^^^ (rd R.CRC_XOROUT s u % 2 ^ w)) % 2 ^ w
      postCrcDone u 0 (wrb R.CRC_CTRL 12 false (wr R.CRC_RESULT out s u) u)
  else s
/-- CRC_UNIT_DONE (R399). -/
def execCrcUnitDone (unit : Nat) (s : State) : Host.Outcome State Fault Refusal := .next (doCrcUnitDone unit s)
/-- A write of 1 to CRC_CTRL.stop: the unit ends at a byte boundary, `n` bytes being consumed by then (R399). -/
def doCrcStop (u n : Nat) (s : State) : State :=
  if crcFree u s && rdb R.CRC_CTRL 12 s u then
    let (bad, s) := crcConsume u (min n (rd R.CRC_LEN s u)) s
    if bad then crcError u s else wrb R.CRC_CTRL 12 false s u
  else s
/-- CRC_STOP (R399). -/
def execCrcStop (unit bytes : Nat) (s : State) : Host.Outcome State Fault Refusal := .next (doCrcStop unit bytes s)

end Sys2Proof.Machine
end

