-- ==== Sys2Proof/Machine/RegAccess.lean ====
section
/-! DEFINITION. Reads and writes of BAR0: the access types (R10), reserved bits and addresses (R11), the halves of 64-bit registers
(R12), bad accesses (R545), the two windows (R194, R544), what a register that the module derives reads, and what a write of each
register with an effect of its own does. -/

namespace Sys2Proof.Machine

/-! ### Which register (R11, R543) -/

/-- The register row that an address belongs to. -/
def findReg (a : Nat) : Option RegInfo := R.all.find? (fun r => regCovers r a)
/-- A reserved event number (R554). -/
def eventReserved (n : Nat) : Bool :=
  [(8, 15), (25, 31), (45, 47), (74, 79), (141, 143), (166, 175), (200, 207), (215, 223), (236, 239), (249, 255)].any
    (fun e => decide (e.1 ≤ n ∧ n ≤ e.2))
/-- The module is powered and not held in DORMANT: its registers answer. -/
def answers (s : State) : Bool := modeOf s != 0 && !s.pwr.railsOff

/-- An access of a size other than 32 or 64 bits, or not naturally aligned (R545). -/
def badAccess (a size : Nat) : Bool := !(size == 4 || size == 8) || a % size != 0
/-- A bad access is counted; the counter's saturation posts EV_PCIE_ERROR (R545, R546). -/
def countBad (s : State) : State := bump R.IDC_BAD_ACCESS 1 (postEvent 4 0 1 0 [(8, 4, 0x44)]) s

/-! ### The windows (R194, R544) -/

/-- The bank and entry of an address of the beam-table window. -/
def beamWindow (a : Nat) : Option (Nat × Nat) :=
  if 0x1000000 ≤ a ∧ a < 0x1400000 then some ((a - 0x1000000) / 0x200000, (a - 0x1000000) % 0x200000 / 8) else none
/-- Eight bytes of the context-memory window: context c at 0x2000 × c, zeros beyond what was loaded (R544). -/
def contextWindow (a : Nat) (s : State) : Option Nat :=
  if 0x1400000 ≤ a ∧ a < 0x1500000 then
    let c := (a - 0x1400000) / 0x2000
    some (if c = 0 then 0 else bytesAt (contextBytes s c) ((a - 0x1400000) % 0x2000 / 8 * 8) 8)
  else none

/-! ### What a read returns (R10) -/

/-- A live reading of `len` bits: a free value (log entry 3). -/
def reading (len : Nat) (s : State) : Nat × State :=
  let (v, s) := fresh s
  (v % 2 ^ len, s)
/-- What register `r`, instance `i`, reads.  Registers that show a running state are formed here; measurements that nothing fixes
read free values (R463, R350, R385). -/
def readReg (r : RegInfo) (i : Nat) (s : State) : Nat × State :=
  if r.access = .wo then (0, s)
  else if r = R.TSY_TIME then (ttNow s, s)
  else if r = R.TSY_EXT then (s.time.ns % 2 ^ 64, s)
  else if r = R.TSY_WRAPS then (wrapCount s, s)
  else if r = R.TSY_WIDE_NS then (s.time.ns % 10 ^ 9, s)
  else if r = R.THE_TIME then (thermalTime s, s)
  else if r = R.LNK_TICK then (tickOf i s, s)
  else if r = R.LNK_OUTSTANDING then ((outstandingOn i s).length, s)
  else if r = R.PLC_STATUS then (setBit 6 (external s) (setBit 7 (openLoop s) (rd r s i)), s)
  else if r = R.BSC_STATUS then (setBit 4 (loadBusy s) (rd r s i), s)
  else if r = R.FCD_STATUS then (fcdStatus s, s)
  else if r = R.CRC_CTRL then (setBit 14 (crcHeld i s) (rd r s i), s)
  else if r = R.DBG_STATUS then (setBit 8 (rdb R.FUS_FLAGS 1 s) (rd r s i), s)
  else if r = R.PIN_IN then (pinIn s, s)
  else if r = R.PIN_OUT_STATUS then (pinOutStatus s, s)
  else if r = R.PWR_BULK ∨ r = R.PWR_BUS ∨ r = R.PWR_INPUT ∨ r = R.PWR_RAIL then reading 16 s
  else if r = R.PWR_MAINS then reading 26 s
  else if r = R.CAM_PWR_CURRENT then reading 32 s
  else if r = R.ARB_FORECAST then forecast i s
  else if r = R.ARB_STATUS then (arbStatus s, s)
  else if r = R.ECC_RANK_CE then (rankCe i s, s)
  else if (r = R.EVT_CFG ∨ r = R.EVT_COUNT) ∧ eventReserved i then (0, s)
  else (rd r s i, s)
/-- A read of an RC register clears it (R10); the last EVT_COUNT whose overflow bit is read clears EVT_STATUS bit 8 (R552). -/
def clearRead (r : RegInfo) (i : Nat) (s : State) : State :=
  if r.access ≠ .rc then s
  else
    let s := wr r r.reset s i
    if r = R.EVT_COUNT ∧ s.evt.overflowed.contains i then
      let s := { s with evt := { s.evt with overflowed := s.evt.overflowed.filter (· != i) } }
      if s.evt.overflowed = [] then wrb R.EVT_STATUS 8 false s else s
    else s
/-- A 64-bit register, window entry or context word at an address that is a multiple of 8. -/
def read64 (a : Nat) (s : State) : Option (Nat × State) :=
  match beamWindow a, contextWindow a s with
  | some (b, e), _ => some (bankEntry s b e, s)
  | none, some v => some (v, s)
  | none, none =>
    match findReg a with
    | some r => if r.bytes = 8 then some (readReg r (regIndex r a) s) else none
    | none => none
/-- A read returns a value. -/
def giveRead (a v : Nat) (s : State) : State := emit (.readData a v) s

/-- A 32-bit read of a 32-bit register: what it returns, and the state with what the read itself changes (R10, R433). -/
def read32 (a : Nat) (s : State) : Nat × State :=
  match findReg a with
  | none => (0, s)
  | some r =>
    let i := regIndex r a
    let (v, s) := readReg r i (sif (r = R.TSY_WIDE_NS) latchWide s)
    (v % 2 ^ 32, clearRead r i s)
/-- A 32-bit read at the address of a 64-bit register's low half returns it and latches the high half (R12). -/
def readLow (a v : Nat) (s : State) : State :=
  giveRead a (v % 2 ^ 32) { s with latchedHigh := tset s.latchedHigh (a + 4) (BitVec.ofNat 32 (v / 2 ^ 32)) }
/-- A 32-bit read at the address of a 64-bit register's high half: what the read of the low half latched, once; with nothing
latched, the high half as it stands (R12). -/
def readHigh (a v : Nat) (s : State) : State :=
  match tget? s.latchedHigh a with
  | some h => giveRead a h.toNat { s with latchedHigh := terase s.latchedHigh a }
  | none => giveRead a (v / 2 ^ 32) s
/-- A read of BAR0 at address `a` of `size` bytes (R10 to R12, R545).  A 64-bit read of a 64-bit register is atomic; one over two
32-bit registers reads both, the lower address first. -/
def doRcRead (a size : Nat) (s : State) : State :=
  if !answers s then s
  else if badAccess a size then countBad (giveRead a 0 s)
  else if size = 8 then
    match read64 a s with
    | some (v, s) => giveRead a v s
    | none =>
      let (lo, s) := read32 a s
      let (hi, s) := read32 (a + 4) s
      giveRead a (lo + 2 ^ 32 * hi) s
  else
    match (if a % 8 = 0 then read64 a s else none), (if a % 8 = 4 then read64 (a - 4) s else none) with
    | some (v, s), _ => readLow a v s
    | none, some (v, s) => readHigh a v s
    | none, none =>
      let (v, s) := read32 a s
      giveRead a v s
/-- RC_READ: a read of BAR0; an RC register is cleared by it (R10), and the halves of a 64-bit register follow R12. -/
def execRcRead (addr size : Nat) (s : State) : Host.Outcome State Fault Refusal := .next (doRcRead addr size s)
def doRegReadLowHalf (a : Nat) (s : State) : State := doRcRead a 4 s
/-- REG_READ_LOW_HALF: a 32-bit read at the address of a 64-bit register (R12). -/
def execRegReadLowHalf (addr : Nat) (s : State) : Host.Outcome State Fault Refusal := .next (doRegReadLowHalf addr s)

/-! ### Writes by access type (R10, R11) -/

/-- The owning block of a RWH register is halted (R51, R126, R160, R192, R227, R263, R291, R322, R350, R408, R409, R433). -/
def regHalted (r : RegInfo) (i : Nat) (s : State) : Bool :=
  let within : List RegInfo → Bool := fun l => l.any (fun x => x.base == r.base)
  if within R.allHif then ringState s i == 0
  else if within R.allDpi then rdf R.DPI_STATUS 0 2 s == 0
  else if within R.allThe then rdf R.THE_STATUS 0 2 s == 0
  else if within R.allBsc then rdf R.BSC_STATUS 0 2 s == 0
  else if within R.allPlc then rdf R.PLC_STATUS 0 3 s == 0
  else if within R.allLnk then [0, 1, 2, 3].all (fun p => lnkState p s == 0)
  else if within R.allMnd then rdf R.MND_STATUS 0 2 s == 0
  else if within R.allMot then motHalted i s
  else if r = R.CAM_PORT_CFG then !rdb R.CAM_PORT_CFG 0 s i
  else if within R.allCam then !ctxOn s i
  else if within R.allUdma then chState i s == 0 || chState i s == 3
  else if within R.allCrc then !rdb R.CRC_CTRL 12 s i && !crcHeld i s
  else tsySource s == 4
/-- The lock of a RWL register is set (R447, R486). -/
def regLocked (r : RegInfo) (s : State) : Bool := if r = R.RST_WDOG_CFG then rdb R.RST_WDOG_CFG 31 s else locked s
/-- The value that a write leaves in a register: bits that it cannot set stay, set-only bits are ORed, fields are clamped. -/
def written (r : RegInfo) (v old : Nat) : Nat :=
  let kept := old ^^^ (old &&& r.mask)
  let set := (v ||| old) &&& r.w1s
  let plain := v &&& (r.mask ^^^ (r.mask &&& r.w1s))
  clampReg { r with mask := 0xFFFFFFFFFFFFFFFF } (kept ||| set ||| plain)
/-- Stores a write. -/
def store (r : RegInfo) (i v : Nat) (s : State) : State := wr r (written r v (rd r s i)) s i
/-- The access type of a register for the host or the firmware (R485). -/
def accessOf (fw : Bool) (r : RegInfo) : Access := if fw then r.fwAccess.getD r.access else r.access
/-- A write with the effect of the access type alone (R10). -/
def writePlain (fw : Bool) (r : RegInfo) (i v : Nat) (s : State) : State :=
  match accessOf fw r with
  | .ro => s
  | .rc => s
  | .wo => s
  | .rw => store r i v s
  | .w1c => wr r (rd r s i ^^^ (rd r s i &&& v)) s i
  | .w1s => wr r (rd r s i ||| (v &&& r.mask)) s i
  | .rwl => if regLocked r s then (if fw && r != R.RST_WDOG_CFG then lockedWrite s else s) else store r i v s
  | .rwh => if regHalted r i s then store r i v s else s

/-! ### Writes with an effect of their own -/

/-- A write to LNK_CTRL: its fields, enable (R239, R261) and retrain. -/
def writeLnkCtrl (p v : Nat) (s : State) : State :=
  let s := store R.LNK_CTRL p (setBits 0 2 (rdf R.LNK_CTRL 0 1 s p) v) s
  let s := writeLnkEnable p (bit 0 v) s
  if bit 1 v && lnkUp p s then startRetrain p 3 s else s
/-- A write to UDMA_CTRL: its RWH fields where the channel is halted, then stop and start (R390, R397). -/
def writeUdmaCtrl (c v : Nat) (s : State) : State :=
  let s := if chState c s = 0 ∨ chState c s = 3 then wrf R.UDMA_CTRL 2 8 (bits 2 8 v) s c else s
  let s := if bit 1 v then doUdmaStop c 0 0 s else s
  if bit 0 v then doUdmaStart c s else s
/-- A write to CRC_CTRL: its RWH fields where the unit is halted, then stop, load_init and start (R398 to R400). -/
def writeCrcCtrl (u v : Nat) (s : State) : State :=
  let s := if !rdb R.CRC_CTRL 12 s u && !crcHeld u s then wrf R.CRC_CTRL 2 9 (bits 2 9 v) s u else s
  let s := if bit 11 v then doCrcStop u 0 s else s
  let s := if bit 1 v then doCrcLoadInit u s else s
  if bit 0 v then doCrcStart u s else s
/-- A write to CAM_CTX_CFG: enable, and the RWH fields while it is clear (R329, R350). -/
def writeCamCfg (c v : Nat) (s : State) : State :=
  if ctxOn s c then (if bit 0 v then s else doCamCtxDisable c s)
  else if bit 0 v then doCamCtxEnable c (BitVec.ofNat 32 v) s
  else bindCtx c v s
/-- A write to CAM_PORT_CFG: enable, and the RWH fields while it is clear (R325, R350). -/
def writeCamPort (p v : Nat) (s : State) : State :=
  let s := if rdb R.CAM_PORT_CFG 0 s p then wrb R.CAM_PORT_CFG 0 (bit 0 v) s p else store R.CAM_PORT_CFG p v s
  showCam s
/-- A write to CAM_CTX_SIZE of a context that is not enabled: a new size invalidates the reference (R339). -/
def writeCamSize (c v : Nat) (s : State) : State :=
  if ctxOn s c then s
  else
    let old := rd R.CAM_CTX_SIZE s c
    let s := store R.CAM_CTX_SIZE c v s
    if rd R.CAM_CTX_SIZE s c = old then s else camRefReset c 2 s
/-- A write to HIF_TLB_INVAL: its fields, and go (R52, R79). -/
def writeInval (v : Nat) (s : State) : State :=
  if bit 31 v then startInval (bits 4 2 v) (bits 0 4 v) s else store R.HIF_TLB_INVAL 0 v s
/-- A write to HIF_NUDGE: the doorbell of every ring that the module reads is due (R62). -/
def nudgeAll (s : State) : State := markNewlyRead [] s
/-- A write to MSIX_CTRL: the mask bit, and a pending message at its clearing (R551). -/
def writeVectorCtrl (v value : Nat) (s : State) : State :=
  if bit 0 value then wrb R.MSIX_CTRL 0 true s v else doMsixUnmask v s
/-- A write to PLC_SPEED_SCALE or PLC_TURN_DWELL is a throttle source (R222). -/
def writeScale (v : Nat) (s : State) : State :=
  let s := store R.PLC_SPEED_SCALE 0 v s
  setScale 1 0xFF (rd R.PLC_SPEED_SCALE s) false s
def writeDwell (v : Nat) (s : State) : State :=
  let s := store R.PLC_TURN_DWELL 0 v s
  setDwell 2 (rd R.PLC_TURN_DWELL s) s
/-- A write to THM_THROTTLE_START: locked with the Bezel limits, and at most 1,600 (R472). -/
def writeThrottle (fw : Bool) (v : Nat) (s : State) : State :=
  if locked s then (if fw then lockedWrite s else s)
  else store R.THM_THROTTLE_START 0 (if sext 16 v > 1600 then 1600 else v) s
/-- A write to a word of EVT_PENDING: reserved event numbers hold 0 anyway (R552). -/
def writePending (w v : Nat) (s : State) : State := doEvtPendingClear w (BitVec.ofNat 32 v) s
/-- A register whose write does more than its access type says: whether the writer is the firmware, the instance, the value. -/
abbrev Writer := Bool → Nat → Nat → State → State
/-- Those registers, in the order of the blocks. -/
def writers : List (RegInfo × Writer) :=
  [(R.CTL_HOLD_CAUSE, fun fw _ v => doHoldCauseClear fw v),
   (R.CTL_ROLLBACK_COMMIT, fun _ _ v => doRollbackCommit v),
   (R.CTL_BRINGUP_DONE, fun _ _ v => sif (bit 0 v) doCtlBringupDoneWrite),
   (R.CTL_HOLD_REQ, fun _ _ v => sif (bit 0 v) (holdCause 15)),
   (R.HIF_NUDGE, fun _ _ _ => nudgeAll),
   (R.HIF_APERTURE_BASE, fun _ _ v => doHifApertureBaseWrite v),
   (R.HIF_TLB_INVAL, fun _ _ v => writeInval v),
   (R.HIF_RING_CTRL, fun _ k v => ringCtrl k v),
   (R.THE_CTRL, fun _ _ v => writeTheCtrl v),
   (R.BSC_BANK_CTRL, fun _ _ v => sif (bit 0 v) doBankSwapCancel),
   (R.PLC_SPEED_SCALE, fun _ _ v => writeScale v),
   (R.PLC_TURN_DWELL, fun _ _ v => writeDwell v),
   (R.LNK_CTRL, fun _ p v => writeLnkCtrl p v),
   (R.MND_DISCARD, fun _ _ v => writeDiscard v),
   (R.MOT_CFG, fun _ a v => doMotSourceChange a v),
   (R.MOT_CMD, fun _ a v => writeMotCmd a v),
   (R.MOT_FAULT, fun _ a v => doMotFaultClear a v false)] ++
  [(R.CAM_PORT_CFG, fun _ p v => writeCamPort p v),
   (R.CAM_PWR_CTRL, fun _ _ v => doCamPwrCtrlWrite (BitVec.ofNat 32 v)),
   (R.CAM_TRIG_SW, fun _ p v => doCamTrigSw p (BitVec.ofNat 32 v)),
   (R.CAM_BUS_CMD, fun _ p v => doCamBusCmd p (BitVec.ofNat 32 v)),
   (R.CAM_CTX_CFG, fun _ c v => writeCamCfg c v),
   (R.CAM_CTX_SIZE, fun _ c v => writeCamSize c v),
   (R.CAM_CTX_COMMIT, fun _ c v => sif (bit 0 v) (doCamCommit c)),
   (R.CAM_CTX_RELEASE, fun _ c v => doCamBufferRelease c (BitVec.ofNat 32 v)),
   (R.ARB_CTRL, fun _ _ v => writeArbSwitch v),
   (R.ARB_SLOT_BANK0, fun _ w v => writeSlots false w v),
   (R.ARB_SLOT_BANK1, fun _ w v => writeSlots true w v),
   (R.MEMC_RANK_MAP, fun _ _ v => writeRankMap v),
   (R.MEMC_RETIRE, fun _ _ v => writeRetire v),
   (R.ECC_LOG_CLEAR, fun _ _ v => writeLogClear v),
   (R.ECC_INJECT, fun _ _ v => writeInject v),
   (R.UDMA_APPEND, fun _ _ v => writeAppend v),
   (R.UDMA_CTRL, fun _ c v => writeUdmaCtrl c v),
   (R.CRC_CTRL, fun _ u v => writeCrcCtrl u v)] ++
  [(R.TSY_CTRL, fun _ _ v => doTimeSourceChange (BitVec.ofNat 32 v)),
   (R.TSY_PORT_CFG, fun _ p v => writePortCfg p v),
   (R.TSY_OFFSET_IN, fun _ _ v => doServoSample (BitVec.ofNat 64 v)),
   (R.TSY_CMP_CTRL, fun _ c v => doTimeCompareArm c (BitVec.ofNat 32 v)),
   (R.RST_CMD, fun _ _ v => writeRstCmd v),
   (R.RST_BLOCK, fun _ _ v => writeRstBlock v),
   (R.RST_WDOG_KICK, fun _ _ _ => doWatchdogKick),
   (R.THM_REQ, fun fw _ v => writeThmReq fw v),
   (R.THM_CAL_RUN, fun _ _ v => writeCalRun (v % 128)),
   (R.THM_THROTTLE_START, fun fw _ v => writeThrottle fw v),
   (R.SAF_CTRL, fun _ _ v => sif (bit 0 v) doSafLock),
   (R.HSV_CTRL, fun _ _ v => sif (bit 1 v) (doHsvFlush {}) ∘ sif (bit 0 v) (fun s => if modeOf s < 2 then s else startAuth s)),
   (R.HSV_USAGE_DISCARD, fun _ _ v => doHsvUsageDiscard v),
   (R.DBG_REQUEST, fun _ _ v => doDbgRequest v),
   (R.DBG_RELOCK, fun _ _ _ => doDbgRelock),
   (R.DBG_CTRL, fun _ _ v => sif (bit 0 v) doDbgReset),
   (R.DBG_RESPONSE, fun _ i v s => if i = 23 then doDbgResponse v s else wr R.DBG_RESPONSE v s i),
   (R.DBG_PUBKEY, fun _ i v s => wr R.DBG_PUBKEY v s i),
   (R.PIN_OUT, fun _ _ v => doPinOutWrite v),
   (R.PIN_FAULT, fun _ _ v => doPinFaultClear v false),
   (R.EVT_PENDING, fun _ w v => writePending w v),
   (R.MSIX_CTRL, fun _ n v => writeVectorCtrl n v)]
/-- A write of register `r`, instance `i` (R10, R11, R485): the register's own effect, or that of its access type; the first write
to the PIN block takes over the general outputs (R460). -/
def writeReg (fw : Bool) (r : RegInfo) (i v : Nat) (s : State) : State :=
  let s := if R.allPin.any (fun x => x.base == r.base) then modPin (fun p => { p with gpTaken := true }) s else s
  if accessOf fw r = .ro ∨ (r = R.EVT_CFG ∧ eventReserved i) then s
  else
    match writers.find? (fun w => w.1.base == r.base) with
    | some w => w.2 fw i v s
    | none => writePlain fw r i v s

/-! ### Writes of BAR0 (R12, R545) -/

/-- One 64-bit write of a 64-bit register or a window entry; its held low half is discarded (R12). -/
def write64 (fw : Bool) (a v : Nat) (s : State) : State :=
  let s := { s with heldLow := terase s.heldLow a }
  match beamWindow a with
  | some (b, e) => doBeamTableWindowWrite b e (BitVec.ofNat 64 v) s
  | none =>
    match findReg a with
    | some r => if r.bytes = 8 then writeReg fw r (regIndex r a) v s else s
    | none => s
/-- One 32-bit write of a 32-bit register. -/
def write32 (fw : Bool) (a v : Nat) (s : State) : State :=
  match findReg a with
  | some r => if r.bytes = 4 then writeReg fw r (regIndex r a) v s else s
  | none => s
/-- The address is that of a 64-bit register or of a window entry. -/
def is64 (a : Nat) : Bool := (beamWindow a).isSome || ((findReg a).map (·.bytes) == some 8)
/-- What a 64-bit register or a window entry holds, for the half that a write leaves. -/
def held64 (a : Nat) (s : State) : Nat :=
  match beamWindow a with
  | some (b, e) => bankEntry s b e
  | none => match findReg a with
    | some r => rd r s (regIndex r a)
    | none => 0
/-- A 32-bit write of a low half is held (R12). -/
def writeLow (a v : Nat) (s : State) : State := { s with heldLow := tset s.heldLow a (BitVec.ofNat 32 v) }
/-- A 32-bit write of a high half, at the register's address plus 4: both halves as one 64-bit write (R12). -/
def writeHigh (fw : Bool) (a v : Nat) (s : State) : State :=
  let lo := match tget? s.heldLow a with
    | some w => w.toNat
    | none => held64 a s % 2 ^ 32
  write64 fw a (lo + 2 ^ 32 * (v % 2 ^ 32)) s
/-- A write of BAR0 at address `a` of `size` bytes. -/
def doRegisterWrite (fw : Bool) (a size v : Nat) (s : State) : State :=
  if !answers s then s
  else if badAccess a size then countBad s
  else if size = 8 then
    if is64 a then write64 fw a v s else write32 fw (a + 4) (v / 2 ^ 32) (write32 fw a (v % 2 ^ 32) s)
  else if a % 8 = 4 ∧ is64 (a - 4) then writeHigh fw (a - 4) v s
  else if is64 a then writeLow a v s
  else write32 fw a v s
/-- REGISTER_WRITE (R10). -/
def execRegisterWrite (fw : Bool) (addr size : Nat) (value : Word) (s : State) : Host.Outcome State Fault Refusal :=
  .next (doRegisterWrite fw addr size (value.toNat % 2 ^ (8 * size)) s)
def doRegWriteLowHalf (a v : Nat) (s : State) : State :=
  if answers s && !badAccess a 8 && is64 a then writeLow a v s else s
/-- REG_WRITE_LOW_HALF: a 32-bit write at the address of a 64-bit register (R12). -/
def execRegWriteLowHalf (addr : Nat) (value : Word32) (s : State) : Host.Outcome State Fault Refusal :=
  .next (doRegWriteLowHalf addr value.toNat s)
def doRegWriteHighHalf (fw : Bool) (a v : Nat) (s : State) : State :=
  if answers s && decide (a % 8 = 4) && is64 (a - 4) then writeHigh fw (a - 4) v s else s
/-- REG_WRITE_HIGH_HALF: a 32-bit write at the address of a 64-bit register plus 4 (R12). -/
def execRegWriteHighHalf (fw : Bool) (addr : Nat) (value : Word32) (s : State) : Host.Outcome State Fault Refusal :=
  .next (doRegWriteHighHalf fw addr value.toNat s)

end Sys2Proof.Machine
end

