-- ==== Sys2Proof/Machine/Dispatch.lean ====
section
/-! DEFINITION. One arm per command of the opcode table: each calls that command's meaning. -/

namespace Sys2Proof.Machine

/-- The effect of one command on everything but the queue. -/
def exec (i : Instr) (s : State) : Host.Outcome State Fault Refusal :=
  match i with
  | .registerWrite fw addr size value => Sys2Proof.Machine.execRegisterWrite fw addr size value s
  | .regWriteLowHalf addr value => Sys2Proof.Machine.execRegWriteLowHalf addr value s
  | .regWriteHighHalf fw addr value => Sys2Proof.Machine.execRegWriteHighHalf fw addr value s
  | .regReadLowHalf addr => Sys2Proof.Machine.execRegReadLowHalf addr s
  | .rcRead addr size => Sys2Proof.Machine.execRcRead addr size s
  | .ttWrap => Sys2Proof.Machine.execTtWrap s
  | .setMode ring d usage => Sys2Proof.Machine.execSetMode ring d usage s
  | .holdStandstill usage => Sys2Proof.Machine.execHoldStandstill usage s
  | .holdCauseClear fw value => Sys2Proof.Machine.execHoldCauseClear fw value s
  | .readyEntryAtRest => Sys2Proof.Machine.execReadyEntryAtRest s
  | .bringupDoneTimeout => Sys2Proof.Machine.execBringupDoneTimeout s
  | .busMasterEnableClear => Sys2Proof.Machine.execBusMasterEnableClear s
  | .busMasterEnableSet => Sys2Proof.Machine.execBusMasterEnableSet s
  | .pcieLinkDown => Sys2Proof.Machine.execPcieLinkDown s
  | .pcieLinkChange speed width => Sys2Proof.Machine.execPcieLinkChange speed width s
  | .pcieHotReset => Sys2Proof.Machine.execPcieHotReset s
  | .pcieError uncorrectable correctable ring => Sys2Proof.Machine.execPcieError uncorrectable correctable ring s
  | .hifApertureBaseWrite value => Sys2Proof.Machine.execHifApertureBaseWrite value s
  | .apertureRead offset len => Sys2Proof.Machine.execApertureRead offset len s
  | .apertureWrite offset data => Sys2Proof.Machine.execApertureWrite offset data s
  | .hifNudge reads => Sys2Proof.Machine.execHifNudge reads s
  | .doorbellPoll read => Sys2Proof.Machine.execDoorbellPoll read s
  | .ringEnable ring doorbell => Sys2Proof.Machine.execRingEnable ring doorbell s
  | .ringDisable ring => Sys2Proof.Machine.execRingDisable ring s
  | .ringDisableDone ring => Sys2Proof.Machine.execRingDisableDone ring s
  | .ringReset ring => Sys2Proof.Machine.execRingReset ring s
  | .ringResumeRetry ring walk => Sys2Proof.Machine.execRingResumeRetry ring walk s
  | .ringResumeSkip ring => Sys2Proof.Machine.execRingResumeSkip ring s
  | .ringResumeAbort ring rest => Sys2Proof.Machine.execRingResumeAbort ring rest s
  | .eventRingSpacePoll ring doorbell => Sys2Proof.Machine.execEventRingSpacePoll ring doorbell s
  | .tlbInvalAll => Sys2Proof.Machine.execTlbInvalAll s
  | .tlbInvalSpace asid => Sys2Proof.Machine.execTlbInvalSpace asid s
  | .tlbInvalPage asid => Sys2Proof.Machine.execTlbInvalPage asid s
  | .tlbInvalDone => Sys2Proof.Machine.execTlbInvalDone s
  | .hostDmaChannelGrant walk => Sys2Proof.Machine.execHostDmaChannelGrant walk s
  | .hostDmaBreakPoint ring walk => Sys2Proof.Machine.execHostDmaBreakPoint ring walk s
  | .hostDmaTransferDone ring data => Sys2Proof.Machine.execHostDmaTransferDone ring data s
  | .hello ring d => Sys2Proof.Machine.execHello ring d s
  | .loadContext ring d => Sys2Proof.Machine.execLoadContext ring d s
  | .loadBeamTable ring d => Sys2Proof.Machine.execLoadBeamTable ring d s
  | .setGeometry ring d => Sys2Proof.Machine.execSetGeometry ring d s
  | .resumeRing ring d walk rest => Sys2Proof.Machine.execResumeRing ring d walk rest s
  | .home ring d => Sys2Proof.Machine.execHome ring d s
  | .move ring d => Sys2Proof.Machine.execMove ring d s
  | .calRequest ring d => Sys2Proof.Machine.execCalRequest ring d s
  | .loadFirmware ring d => Sys2Proof.Machine.execLoadFirmware ring d s
  | .policySet ring d => Sys2Proof.Machine.execPolicySet ring d s
  | .readLog ring d => Sys2Proof.Machine.execReadLog ring d s
  | .camProgram ring d => Sys2Proof.Machine.execCamProgram ring d s
  | .timeCtrlSet ring d => Sys2Proof.Machine.execTimeCtrlSet ring d s
  | .timeCtrlStep ring d => Sys2Proof.Machine.execTimeCtrlStep ring d s
  | .timeCtrlSource ring d => Sys2Proof.Machine.execTimeCtrlSource ring d s
  | .timeCtrlIncrement ring d => Sys2Proof.Machine.execTimeCtrlIncrement ring d s
  | .timeCtrlCompare ring d => Sys2Proof.Machine.execTimeCtrlCompare ring d s
  | .timeCtrlRead ring d => Sys2Proof.Machine.execTimeCtrlRead ring d s
  | .layerBegin ring d => Sys2Proof.Machine.execLayerBegin ring d s
  | .swath ring d head => Sys2Proof.Machine.execSwath ring d head s
  | .layerEnd ring d => Sys2Proof.Machine.execLayerEnd ring d s
  | .mendPass ring d head => Sys2Proof.Machine.execMendPass ring d head s
  | .crcJob ring d => Sys2Proof.Machine.execCrcJob ring d s
  | .compress ring d => Sys2Proof.Machine.execCompress ring d s
  | .decompress ring d => Sys2Proof.Machine.execDecompress ring d s
  | .fill ring d => Sys2Proof.Machine.execFill ring d s
  | .copy ring d => Sys2Proof.Machine.execCopy ring d s
  | .scrub ring d => Sys2Proof.Machine.execScrub ring d s
  | .utilityJobDone ring index => Sys2Proof.Machine.execUtilityJobDone ring index s
  | .uploadBuffer ring d => Sys2Proof.Machine.execUploadBuffer ring d s
  | .uploadBufferTimeout stream => Sys2Proof.Machine.execUploadBufferTimeout stream s
  | .swathExecutionStart damaged => Sys2Proof.Machine.execSwathExecutionStart damaged s
  | .groupDecode => Sys2Proof.Machine.execGroupDecode s
  | .intakeStartWaitExpiry => Sys2Proof.Machine.execIntakeStartWaitExpiry s
  | .positionSample axis up z => Sys2Proof.Machine.execPositionSample axis up z s
  | .stepInputEdge dir setupBad => Sys2Proof.Machine.execStepInputEdge dir setupBad s
  | .layerBoundary usage => Sys2Proof.Machine.execLayerBoundary usage s
  | .lineWindowEntry line dFault kFaults => Sys2Proof.Machine.execLineWindowEntry line dFault kFaults s
  | .mapSlotFillDone usage => Sys2Proof.Machine.execMapSlotFillDone usage s
  | .theEnable value => Sys2Proof.Machine.execTheEnable value s
  | .assimMapApply strips => Sys2Proof.Machine.execAssimMapApply strips s
  | .frameBuild faults strips => Sys2Proof.Machine.execFrameBuild faults strips s
  | .bankSwapCancel => Sys2Proof.Machine.execBankSwapCancel s
  | .beamTableWindowWrite bank entry value => Sys2Proof.Machine.execBeamTableWindowWrite bank entry value s
  | .frameSend port found strips => Sys2Proof.Machine.execFrameSend port found strips s
  | .frameLate port event strips => Sys2Proof.Machine.execFrameLate port event strips s
  | .anchorLatch => Sys2Proof.Machine.execAnchorLatch s
  | .turnEntry => Sys2Proof.Machine.execTurnEntry s
  | .turnDwellExpiry => Sys2Proof.Machine.execTurnDwellExpiry s
  | .ax1Settle => Sys2Proof.Machine.execAx1Settle s
  | .runupStart => Sys2Proof.Machine.execRunupStart s
  | .exposeEntry => Sys2Proof.Machine.execExposeEntry s
  | .linkDetectPoll port clock lanes shorts => Sys2Proof.Machine.execLinkDetectPoll port clock lanes shorts s
  | .returnClockLock port lanes => Sys2Proof.Machine.execReturnClockLock port lanes s
  | .linkTrainTimeout port => Sys2Proof.Machine.execLinkTrainTimeout port s
  | .linkRetryDelay port => Sys2Proof.Machine.execLinkRetryDelay port s
  | .trainBlockRx port lane block bitLock headers => Sys2Proof.Machine.execTrainBlockRx port lane block bitLock headers s
  | .alignBlockRx port lane seq skew => Sys2Proof.Machine.execAlignBlockRx port lane seq skew s
  | .capabilityRx port body => Sys2Proof.Machine.execCapabilityRx port body s
  | .tickReplyRx port kind number t2 t3 => Sys2Proof.Machine.execTickReplyRx port kind number t2 t3 s
  | .tickCheckTimer port => Sys2Proof.Machine.execTickCheckTimer port s
  | .returnIdleRx port version => Sys2Proof.Machine.execReturnIdleRx port version s
  | .ackBlockRx port recs strips => Sys2Proof.Machine.execAckBlockRx port recs strips s
  | .telemetryRx port block => Sys2Proof.Machine.execTelemetryRx port block s
  | .laneLockLoss port lane back => Sys2Proof.Machine.execLaneLockLoss port lane back s
  | .fastRetrainTimeout port strips => Sys2Proof.Machine.execFastRetrainTimeout port strips s
  | .linkRetrainRequest port => Sys2Proof.Machine.execLinkRetrainRequest port s
  | .linkEnableWrite port on => Sys2Proof.Machine.execLinkEnableWrite port on s
  | .linkIdleEntry port => Sys2Proof.Machine.execLinkIdleEntry port s
  | .ackTimeout port strips => Sys2Proof.Machine.execAckTimeout port strips s
  | .ackDeferEnd port => Sys2Proof.Machine.execAckDeferEnd port s
  | .linkClockStopTimeout port strips => Sys2Proof.Machine.execLinkClockStopTimeout port strips s
  | .mendLogDiscard value => Sys2Proof.Machine.execMendLogDiscard value s
  | .motionLinkFrame => Sys2Proof.Machine.execMotionLinkFrame s
  | .moveComplete axis => Sys2Proof.Machine.execMoveComplete axis s
  | .runHoldExpiry axis => Sys2Proof.Machine.execRunHoldExpiry axis s
  | .motStop axis => Sys2Proof.Machine.execMotStop axis s
  | .motFlush axis => Sys2Proof.Machine.execMotFlush axis s
  | .motDeclareHomed axis => Sys2Proof.Machine.execMotDeclareHomed axis s
  | .motClearHomed axis => Sys2Proof.Machine.execMotClearHomed axis s
  | .motFaultClear axis value healthy => Sys2Proof.Machine.execMotFaultClear axis value healthy s
  | .motSourceChange axis value => Sys2Proof.Machine.execMotSourceChange axis value s
  | .standstillDelayExpiry axis => Sys2Proof.Machine.execStandstillDelayExpiry axis s
  | .motionLinkRetest axis cause => Sys2Proof.Machine.execMotionLinkRetest axis cause s
  | .encoderFault axis cause channels => Sys2Proof.Machine.execEncoderFault axis cause channels s
  | .switchClassify axis rNeg rPos rHome => Sys2Proof.Machine.execSwitchClassify axis rNeg rPos rHome s
  | .switchRawEdge axis input closed => Sys2Proof.Machine.execSwitchRawEdge axis input closed s
  | .switchDebounceAccept axis input => Sys2Proof.Machine.execSwitchDebounceAccept axis input s
  | .csiFrameStart port vc => Sys2Proof.Machine.execCsiFrameStart port vc s
  | .csiLinePacket line => Sys2Proof.Machine.execCsiLinePacket line s
  | .csiFrameEnd port vc => Sys2Proof.Machine.execCsiFrameEnd port vc s
  | .camFrameTimeout context => Sys2Proof.Machine.execCamFrameTimeout context s
  | .camLineProcess ecc => Sys2Proof.Machine.execCamLineProcess ecc s
  | .positionWaitTimeout context => Sys2Proof.Machine.execPositionWaitTimeout context s
  | .camTrigSw position value => Sys2Proof.Machine.execCamTrigSw position value s
  | .triggerPulseEnd position => Sys2Proof.Machine.execTriggerPulseEnd position s
  | .camBusCmd position value => Sys2Proof.Machine.execCamBusCmd position value s
  | .camBusTransactionDone position result data => Sys2Proof.Machine.execCamBusTransactionDone position result data s
  | .camCommit context => Sys2Proof.Machine.execCamCommit context s
  | .camCtxEnable context value => Sys2Proof.Machine.execCamCtxEnable context value s
  | .camCtxDisable context => Sys2Proof.Machine.execCamCtxDisable context s
  | .camBufferRelease context value => Sys2Proof.Machine.execCamBufferRelease context value s
  | .camPwrCtrlWrite value => Sys2Proof.Machine.execCamPwrCtrlWrite value s
  | .camPowerFault position cause current => Sys2Proof.Machine.execCamPowerFault position cause current s
  | .dramRefresh => Sys2Proof.Machine.execDramRefresh s
  | .dramTempPoll hot => Sys2Proof.Machine.execDramTempPoll hot s
  | .srIdleEntry => Sys2Proof.Machine.execSrIdleEntry s
  | .srEntryComplete => Sys2Proof.Machine.execSrEntryComplete s
  | .arbRequest requester afterSre => Sys2Proof.Machine.execArbRequest requester afterSre s
  | .arbGrantEnd dropAt => Sys2Proof.Machine.execArbGrantEnd dropAt s
  | .arbSlotAdvance => Sys2Proof.Machine.execArbSlotAdvance s
  | .arbWaitBreak waiter => Sys2Proof.Machine.execArbWaitBreak waiter s
  | .arbBankSwitch value => Sys2Proof.Machine.execArbBankSwitch value s
  | .dramReadComplete requester addr found device context => Sys2Proof.Machine.execDramReadComplete requester addr found device context s
  | .dramCmdAlert requester addr kind replays failed context => Sys2Proof.Machine.execDramCmdAlert requester addr kind replays failed context s
  | .memcRankMapWrite value => Sys2Proof.Machine.execMemcRankMapWrite value s
  | .mapLock => Sys2Proof.Machine.execMapLock s
  | .rankRetire value => Sys2Proof.Machine.execRankRetire value s
  | .rankMigrateDone => Sys2Proof.Machine.execRankMigrateDone s
  | .patrolScrubRead found device => Sys2Proof.Machine.execPatrolScrubRead found device s
  | .sramScrub region offset found => Sys2Proof.Machine.execSramScrub region offset found s
  | .eccLogClear value => Sys2Proof.Machine.execEccLogClear value s
  | .eccInjectArm value => Sys2Proof.Machine.execEccInjectArm value s
  | .dramTrainingDone channel fails retuneFailed us => Sys2Proof.Machine.execDramTrainingDone channel fails retuneFailed us s
  | .udmaStart channel => Sys2Proof.Machine.execUdmaStart channel s
  | .udmaStop channel beats level => Sys2Proof.Machine.execUdmaStop channel beats level s
  | .udmaAppend value => Sys2Proof.Machine.execUdmaAppend value s
  | .udmaDescriptorDone channel level => Sys2Proof.Machine.execUdmaDescriptorDone channel level s
  | .udmaPaceResume channel level => Sys2Proof.Machine.execUdmaPaceResume channel level s
  | .crcStart unit => Sys2Proof.Machine.execCrcStart unit s
  | .crcLoadInit unit => Sys2Proof.Machine.execCrcLoadInit unit s
  | .crcStop unit bytes => Sys2Proof.Machine.execCrcStop unit bytes s
  | .crcUnitDone unit => Sys2Proof.Machine.execCrcUnitDone unit s
  | .servoSample theta => Sys2Proof.Machine.execServoSample theta s
  | .servoNoSample => Sys2Proof.Machine.execServoNoSample s
  | .holdoverExpiry => Sys2Proof.Machine.execHoldoverExpiry s
  | .timeSourceChange value => Sys2Proof.Machine.execTimeSourceChange value s
  | .ppsInputEdge => Sys2Proof.Machine.execPpsInputEdge s
  | .ppsMissing => Sys2Proof.Machine.execPpsMissing s
  | .timeCompareFire c => Sys2Proof.Machine.execTimeCompareFire c s
  | .timeCompareArm c value => Sys2Proof.Machine.execTimeCompareArm c value s
  | .ptpMessageRx port isPtp kind seq correction residence => Sys2Proof.Machine.execPtpMessageRx port isPtp kind seq correction residence s
  | .ptpMessageTx port kind seq correction turnaround => Sys2Proof.Machine.execPtpMessageTx port kind seq correction turnaround s
  | .sfpCageFault port cause => Sys2Proof.Machine.execSfpCageFault port cause s
  | .sfpFaultClearDelay port => Sys2Proof.Machine.execSfpFaultClearDelay port s
  | .wideTimeRead => Sys2Proof.Machine.execWideTimeRead s
  | .powerUp lnSwapped cellLost inp => Sys2Proof.Machine.execPowerUp lnSwapped cellLost inp s
  | .mainsHalfCycle rms freq => Sys2Proof.Machine.execMainsHalfCycle rms freq s
  | .mainsLoss => Sys2Proof.Machine.execMainsLoss s
  | .supplyWarn bulk bus => Sys2Proof.Machine.execSupplyWarn bulk bus s
  | .supplyWarnExit bulk bus => Sys2Proof.Machine.execSupplyWarnExit bulk bus s
  | .supplyRecover bulk bus => Sys2Proof.Machine.execSupplyRecover bulk bus s
  | .supplyHoldExpiry => Sys2Proof.Machine.execSupplyHoldExpiry s
  | .brownoutAssert bulk bus => Sys2Proof.Machine.execBrownoutAssert bulk bus s
  | .brownoutRelease bulk bus inp => Sys2Proof.Machine.execBrownoutRelease bulk bus inp s
  | .dormantEntry => Sys2Proof.Machine.execDormantEntry s
  | .railFault rail cause mv => Sys2Proof.Machine.execRailFault rail cause mv s
  | .resetAssert source => Sys2Proof.Machine.execResetAssert source s
  | .resetRelease mask inp => Sys2Proof.Machine.execResetRelease mask inp s
  | .resetPinPulse => Sys2Proof.Machine.execResetPinPulse s
  | .resetPinHold => Sys2Proof.Machine.execResetPinHold s
  | .watchdogKick => Sys2Proof.Machine.execWatchdogKick s
  | .watchdogHalf => Sys2Proof.Machine.execWatchdogHalf s
  | .watchdogExpiry => Sys2Proof.Machine.execWatchdogExpiry s
  | .rstCmd value => Sys2Proof.Machine.execRstCmd value s
  | .rstBlock value => Sys2Proof.Machine.execRstBlock value s
  | .thermtrip => Sys2Proof.Machine.execThermtrip s
  | .thermtripCool inp => Sys2Proof.Machine.execThermtripCool inp s
  | .backupCellCheck mv => Sys2Proof.Machine.execBackupCellCheck mv s
  | .fuseLoadAttempt fuses => Sys2Proof.Machine.execFuseLoadAttempt fuses s
  | .bezelResetRelease inp => Sys2Proof.Machine.execBezelResetRelease inp s
  | .standingRequest => Sys2Proof.Machine.execStandingRequest s
  | .thmReq fw value => Sys2Proof.Machine.execThmReq fw value s
  | .thmConversionDone reading fault raw => Sys2Proof.Machine.execThmConversionDone reading fault raw s
  | .thmCalRun value => Sys2Proof.Machine.execThmCalRun value s
  | .calItemDone ok result => Sys2Proof.Machine.execCalItemDone ok result s
  | .safLock => Sys2Proof.Machine.execSafLock s
  | .envelopeCheck speeds => Sys2Proof.Machine.execEnvelopeCheck speeds s
  | .estopOpen channel => Sys2Proof.Machine.execEstopOpen channel s
  | .estopClose channel => Sys2Proof.Machine.execEstopClose channel s
  | .estopDiscrepancy => Sys2Proof.Machine.execEstopDiscrepancy s
  | .estopStopTimeout => Sys2Proof.Machine.execEstopStopTimeout s
  | .estopTestPulse channel cross => Sys2Proof.Machine.execEstopTestPulse channel cross s
  | .beamPermitChange active => Sys2Proof.Machine.execBeamPermitChange active s
  | .enableFeedbackFault port active => Sys2Proof.Machine.execEnableFeedbackFault port active s
  | .relayFeedbackFault closed => Sys2Proof.Machine.execRelayFeedbackFault closed s
  | .rollbackCommit value => Sys2Proof.Machine.execRollbackCommit value s
  | .ctlBringupDoneWrite => Sys2Proof.Machine.execCtlBringupDoneWrite s
  | .ctlHoldReq => Sys2Proof.Machine.execCtlHoldReq s
  | .dbgRequest value => Sys2Proof.Machine.execDbgRequest value s
  | .dbgResponse value => Sys2Proof.Machine.execDbgResponse value s
  | .dbgRelock => Sys2Proof.Machine.execDbgRelock s
  | .dbgReset => Sys2Proof.Machine.execDbgReset s
  | .headReauth => Sys2Proof.Machine.execHeadReauth s
  | .headAuthComplete head usage => Sys2Proof.Machine.execHeadAuthComplete head usage s
  | .headIdentityPoll serial => Sys2Proof.Machine.execHeadIdentityPoll serial s
  | .usageMerge => Sys2Proof.Machine.execUsageMerge s
  | .hsvFlush usage => Sys2Proof.Machine.execHsvFlush usage s
  | .hsvUsageDiscard value => Sys2Proof.Machine.execHsvUsageDiscard value s
  | .ioOutputFault cls index cause measured => Sys2Proof.Machine.execIoOutputFault cls index cause measured s
  | .pinFaultClear value idGone => Sys2Proof.Machine.execPinFaultClear value idGone s
  | .ioSupplyAccept mv inputs => Sys2Proof.Machine.execIoSupplyAccept mv inputs s
  | .ioSupplyLoss cause mv => Sys2Proof.Machine.execIoSupplyLoss cause mv s
  | .coolantWindow edges => Sys2Proof.Machine.execCoolantWindow edges s
  | .coolantChange level => Sys2Proof.Machine.execCoolantChange level s
  | .gpinEdgeAccept input level => Sys2Proof.Machine.execGpinEdgeAccept input level s
  | .pinOutWrite value => Sys2Proof.Machine.execPinOutWrite value s
  | .evtPendingClear w value => Sys2Proof.Machine.execEvtPendingClear w value s
  | .vectorHoldoffExpiry v => Sys2Proof.Machine.execVectorHoldoffExpiry v s
  | .msixUnmask v => Sys2Proof.Machine.execMsixUnmask v s
  | .fastExitTimeout port => Sys2Proof.Machine.execFastExitTimeout port s
  | .returnBlockInvalid port lane kind headers => Sys2Proof.Machine.execReturnBlockInvalid port lane kind headers s
  | .coreHalt debug => Sys2Proof.Machine.execCoreHalt debug s
  | .sfpCageFaultClear port => Sys2Proof.Machine.execSfpCageFaultClear port s
  | .ppsOutputPulseStart => Sys2Proof.Machine.execPpsOutputPulseStart s
  | .ppsOutputPulseEnd => Sys2Proof.Machine.execPpsOutputPulseEnd s

end Sys2Proof.Machine
end

