-- ==== Sys2Proof/Machine/Tick.lean ====
section
/-! DEFINITION. What happens where no command waits: one TCLK edge (R411, R210), and what waits inside the module for a resource
that has come free (R405, R506).  That an empty queue is one TCLK edge is the model's choice (log entry 6). -/

namespace Sys2Proof.Machine

/-- TCLK runs: the rails are on, the mode is not DORMANT, and no release stands before its step 4 (R450). -/
def clockRuns (s : State) : Bool :=
  modeOf s != 0 && !s.pwr.railsOff &&
    (match s.pwr.due with
     | none => true
     | some lvl => lvl == 2 || decide (4 ≤ s.pwr.step))
/-- Port ticks in one TCLK cycle, in 1/256 tick: LCLK is 1.66015625 GHz at rate 0 and 805.6640625 MHz at rate 1, and TCLK
1.25 GHz (R230, R411). -/
def tickStep (s : State) : Nat := if rd R.LNK_RATE s % 2 = 0 then 340 else 165
/-- E advances by TSY_INCREMENT (R411). -/
def advanceE (s : State) : State :=
  let e := (e32 s + rd R.TSY_INCREMENT s) % 2 ^ 96
  { s with time := { s.time with ns := e / 2 ^ 32, frac := e % 2 ^ 32 } }
/-- The tick counters of the four ports advance (R210, R244). -/
def advanceTicks (s : State) : State :=
  let d := tickStep s
  each [0, 1, 2, 3] (fun p s => modPort p (fun x => { x with tick256 := (x.tick256 + d) % 2 ^ 40 }) s) s
/-- Placement's heartbeat advances every 8,192 ns, within the 10 µs of R252 (log entry 29). -/
def advanceBeat (s : State) : State :=
  if s.dose.plc.beatNs + 8192 ≤ s.time.ns then modPlc (fun c => { c with heartbeat := (c.heartbeat + 1) % 65536, beatNs := s.time.ns }) s else s
/-- The running firmware writes CTL_HOLD_REQ where a HOLD_RULES threshold has been reached (R507; log entry 62). -/
def requestHold (s : State) : State :=
  if s.ctl.holdWanted ∧ rdf R.CTL_LOADER 0 3 s = 4 then holdCause 15 (modCtl (fun c => { c with holdWanted := false }) s) else s
/-- The running firmware's camera schedules: once a period, each output of the mask is pulsed for the context (R330, R503). -/
def runSchedules (s : State) : State :=
  if rdf R.CTL_LOADER 0 3 s ≠ 4 then s
  else
    each s.ctl.schedules (fun e s =>
      let period := 1000 * bytesAt e.2 4 4
      if period = 0 ∨ s.time.ns < tget 0 s.ctl.schedNs e.1 + period then s
      else
        each (onesOf 4 (bytesAt e.2 1 1)) (fun p s => camPulse p e.1 s) (modCtl (fun c => { c with schedNs := tset c.schedNs e.1 s.time.ns }) s)) s
/-- One TCLK edge.  A lane sends 42.5 line bits in it at rate 0, and 20.625 at rate 1: 32 in a tick of its port (R230, R232). -/
def tick (s : State) : State :=
  if clockRuns s then pumpUtility 64 (requestHold (runSchedules (policyWaiting (advanceBuses (advanceLanes (tickStep s) (advanceBeat (advanceTicks (advanceE s)))))))) else s

end Sys2Proof.Machine
end

