-- ==== Sys2Proof/WellFormed.lean ====
section
/-! DEFINITION. The operands a command can carry: rings 0 to 31, ports 0 to 3, axes 0 to 5, and so on (R51, R229, R293, R324,
R389, R398, R411, R551). -/

namespace Sys2Proof

/-- The operands of a command name things that the module has. -/
def Instr.wellFormed : Instr → Bool
  | .registerWrite _ addr size _ | .rcRead addr size =>
    decide (addr < 2 ^ 26) && (size == 1 || size == 2 || size == 4 || size == 8)
  | .regWriteLowHalf addr _ | .regWriteHighHalf _ addr _ | .regReadLowHalf addr =>
    decide (addr < 2 ^ 26)
  | .ttWrap | .holdStandstill _ | .holdCauseClear _ _ | .readyEntryAtRest | .bringupDoneTimeout | .busMasterEnableClear
  | .busMasterEnableSet | .pcieLinkDown | .pcieLinkChange _ _ | .pcieHotReset | .pcieError _ _ _ | .hifApertureBaseWrite _
  | .apertureRead _ _ | .apertureWrite _ _ | .tlbInvalAll | .tlbInvalDone | .hostDmaChannelGrant _ | .swathExecutionStart _
  | .groupDecode | .intakeStartWaitExpiry | .stepInputEdge _ _ | .layerBoundary _ | .lineWindowEntry _ _ _
  | .mapSlotFillDone _ | .theEnable _ | .assimMapApply _ | .frameBuild _ _ | .bankSwapCancel | .anchorLatch | .turnEntry
  | .turnDwellExpiry | .ax1Settle | .runupStart | .exposeEntry | .mendLogDiscard _ | .motionLinkFrame | .camLineProcess _
  | .camPwrCtrlWrite _ | .dramRefresh | .dramTempPoll _ | .srIdleEntry | .srEntryComplete | .arbGrantEnd _ | .arbSlotAdvance
  | .arbBankSwitch _ | .memcRankMapWrite _ | .mapLock | .rankRetire _ | .rankMigrateDone | .patrolScrubRead _ _
  | .eccLogClear _ | .eccInjectArm _ | .udmaAppend _ | .servoSample _ | .servoNoSample | .holdoverExpiry
  | .timeSourceChange _ | .ppsInputEdge | .ppsMissing | .wideTimeRead | .powerUp _ _ _ | .mainsHalfCycle _ _ | .mainsLoss
  | .supplyWarn _ _ | .supplyWarnExit _ _ | .supplyRecover _ _ | .supplyHoldExpiry | .brownoutAssert _ _
  | .brownoutRelease _ _ _ | .dormantEntry | .resetRelease _ _ | .resetPinPulse | .resetPinHold | .watchdogKick
  | .watchdogHalf | .watchdogExpiry | .rstCmd _ | .rstBlock _ | .thermtrip | .thermtripCool _ | .backupCellCheck _
  | .fuseLoadAttempt _ | .bezelResetRelease _ | .standingRequest | .thmReq _ _ | .thmConversionDone _ _ _ | .thmCalRun _
  | .calItemDone _ _ | .safLock | .envelopeCheck _ | .estopDiscrepancy | .estopStopTimeout | .beamPermitChange _
  | .relayFeedbackFault _ | .rollbackCommit _ | .ctlBringupDoneWrite | .ctlHoldReq | .dbgRequest _ | .dbgResponse _
  | .dbgRelock | .dbgReset | .headReauth | .headAuthComplete _ _ | .headIdentityPoll _ | .usageMerge | .hsvFlush _
  | .hsvUsageDiscard _ | .ioOutputFault _ _ _ _ | .pinFaultClear _ _ | .ioSupplyAccept _ _ | .ioSupplyLoss _ _
  | .coolantWindow _ | .coolantChange _ | .pinOutWrite _ | .coreHalt _ | .ppsOutputPulseStart | .ppsOutputPulseEnd =>
    true
  | .setMode ring _ _ | .ringEnable ring _ | .ringDisable ring | .ringDisableDone ring | .ringReset ring
  | .ringResumeRetry ring _ | .ringResumeSkip ring | .ringResumeAbort ring _ | .eventRingSpacePoll ring _
  | .hostDmaBreakPoint ring _ | .hostDmaTransferDone ring _ | .hello ring _ | .loadContext ring _ | .loadBeamTable ring _
  | .setGeometry ring _ | .resumeRing ring _ _ _ | .home ring _ | .move ring _ | .calRequest ring _ | .loadFirmware ring _
  | .policySet ring _ | .readLog ring _ | .camProgram ring _ | .timeCtrlSet ring _ | .timeCtrlStep ring _
  | .timeCtrlSource ring _ | .timeCtrlIncrement ring _ | .timeCtrlCompare ring _ | .timeCtrlRead ring _ | .layerBegin ring _
  | .swath ring _ _ | .layerEnd ring _ | .mendPass ring _ _ | .crcJob ring _ | .compress ring _ | .decompress ring _
  | .fill ring _ | .copy ring _ | .scrub ring _ | .utilityJobDone ring _ | .uploadBuffer ring _ =>
    decide (ring < 32)
  | .hifNudge reads =>
    reads.all (fun r => decide (r.ring < 32))
  | .doorbellPoll read =>
    decide (read.ring < 32)
  | .tlbInvalSpace asid | .tlbInvalPage asid =>
    decide (asid < 16)
  | .uploadBufferTimeout stream =>
    decide (stream < 8)
  | .positionSample axis _ _ | .moveComplete axis | .runHoldExpiry axis | .motStop axis | .motFlush axis
  | .motDeclareHomed axis | .motClearHomed axis | .motFaultClear axis _ _ | .motSourceChange axis _
  | .standstillDelayExpiry axis | .motionLinkRetest axis _ | .encoderFault axis _ _ | .switchClassify axis _ _ _ =>
    decide (axis < 6)
  | .beamTableWindowWrite bank entry _ =>
    decide (bank < 2) && decide (entry < 262144)
  | .frameSend port _ _ | .frameLate port _ _ | .linkDetectPoll port _ _ _ | .returnClockLock port _ | .linkTrainTimeout port
  | .linkRetryDelay port | .tickReplyRx port _ _ _ _ | .tickCheckTimer port | .returnIdleRx port _ | .ackBlockRx port _ _
  | .fastRetrainTimeout port _ | .linkRetrainRequest port | .linkEnableWrite port _ | .linkIdleEntry port
  | .ackTimeout port _ | .ackDeferEnd port | .linkClockStopTimeout port _ | .enableFeedbackFault port _
  | .fastExitTimeout port =>
    decide (port < 4)
  | .trainBlockRx port lane block _ _ =>
    decide (port < 4) && decide (lane < 8) && decide (block.length = 32)
  | .alignBlockRx port lane _ _ | .laneLockLoss port lane _ | .returnBlockInvalid port lane _ _ =>
    decide (port < 4) && decide (lane < 8)
  | .capabilityRx port body =>
    decide (port < 4) && decide (body.length = 28)
  | .telemetryRx port block =>
    decide (port < 4) && decide (block.length = 32)
  | .switchRawEdge axis input _ | .switchDebounceAccept axis input =>
    decide (axis < 6) && decide (input < 3)
  | .csiFrameStart port vc | .csiFrameEnd port vc =>
    decide (port < 4) && decide (vc < 4)
  | .csiLinePacket line =>
    decide (line.port < 4) && decide (line.vc < 4) && decide (line.samples.length ≤ 8 * line.bytes)
  | .camFrameTimeout context | .positionWaitTimeout context | .camCommit context | .camCtxEnable context _
  | .camCtxDisable context | .camBufferRelease context _ =>
    decide (context < 16)
  | .camTrigSw position _ | .triggerPulseEnd position | .camBusCmd position _ | .camBusTransactionDone position _ _
  | .camPowerFault position _ _ =>
    decide (position < 4)
  | .arbRequest requester _ | .dramReadComplete requester _ _ _ _ | .dramCmdAlert requester _ _ _ _ _ =>
    decide (requester < 10)
  | .arbWaitBreak waiter =>
    decide (waiter < 10)
  | .sramScrub region _ _ =>
    decide (region < 8)
  | .dramTrainingDone channel _ _ _ =>
    decide (channel < 4)
  | .udmaStart channel | .udmaStop channel _ _ | .udmaDescriptorDone channel _ | .udmaPaceResume channel _ =>
    decide (channel < 16)
  | .crcStart unit | .crcLoadInit unit | .crcStop unit _ | .crcUnitDone unit =>
    decide (unit < 4)
  | .timeCompareFire c | .timeCompareArm c _ =>
    decide (c < 4)
  | .ptpMessageRx port _ _ _ _ _ | .ptpMessageTx port _ _ _ _ | .sfpCageFault port _ | .sfpFaultClearDelay port
  | .sfpCageFaultClear port =>
    decide (port < 2)
  | .railFault rail _ _ =>
    decide (rail < 10)
  | .resetAssert source =>
    decide (source < 10)
  | .estopOpen channel | .estopClose channel | .estopTestPulse channel _ =>
    decide (channel < 2)
  | .gpinEdgeAccept input _ =>
    decide (input < 8)
  | .evtPendingClear w _ =>
    decide (w < 8)
  | .vectorHoldoffExpiry v | .msixUnmask v =>
    decide (v < 64)

end Sys2Proof
end

