-- ==== Sys2Proof/Safety.lean ====
section
/-! DEFINITION. What a sound state and a sound step are: the terms in which the invariants are stated. -/

namespace Sys2Proof

/-- The invariant of the module: the register file, DRAM and SRAM are in canonical form, and every waiting command names things
that the module has. -/
def Sound (s : Machine.State) : Prop :=
  Machine.tsorted s.regs = true ∧ Machine.Memory.wf s.mem.dram = true ∧ Machine.Memory.wf s.mem.sram = true ∧
    ∀ c ∈ s.pending, c.wellFormed = true

/-- What no step undoes: what has left the module stays sent, and a free value is used once. -/
def Grows (s t : Machine.State) : Prop :=
  (∃ l, t.out = l ++ s.out) ∧ s.freeCtr ≤ t.freeCtr

/-! ### The parts of the state -/

/-- A part of the state: a field of `State`, or the registers of one block of BAR0. -/
inductive StatePart where
  /-- The low halves that wait for their high half. -/
  | heldLow
  /-- The latched high halves. -/
  | latchedHigh
  /-- What has left the module. -/
  | out
  /-- The counter of free values. -/
  | freeCtr
  /-- The host side: rings, DMA, translations. -/
  | host
  /-- The event controller. -/
  | evt
  /-- The time base. -/
  | time
  /-- DRAM's bytes. -/
  | dram
  /-- SRAM's bytes. -/
  | sram
  /-- The rest of the memory state. -/
  | mem
  /-- The arbiter. -/
  | arb
  /-- The axes. -/
  | mot
  /-- Passes, frames, links, the mend log. -/
  | dose
  /-- The control and machine-input state. -/
  | ctl
  /-- Power and reset. -/
  | pwr
  /-- Temperatures and calibration. -/
  | thm
  /-- The head. -/
  | head
  /-- The cameras. -/
  | cam
  /-- The registers of block IDC. -/
  | IDC
  /-- The registers of block HIF. -/
  | HIF
  /-- The registers of block EVT. -/
  | EVT
  /-- The registers of block RST. -/
  | RST
  /-- The registers of block PWR. -/
  | PWR
  /-- The registers of block THM. -/
  | THM
  /-- The registers of block FUS. -/
  | FUS
  /-- The registers of block TSY. -/
  | TSY
  /-- The registers of block MOT. -/
  | MOT
  /-- The registers of block ARB. -/
  | ARB
  /-- The registers of block MEMC. -/
  | MEMC
  /-- The registers of block ECC. -/
  | ECC
  /-- The registers of block UDMA. -/
  | UDMA
  /-- The registers of block CRC. -/
  | CRC
  /-- The registers of block FCD. -/
  | FCD
  /-- The registers of block DPI. -/
  | DPI
  /-- The registers of block THE. -/
  | THE
  /-- The registers of block BSC. -/
  | BSC
  /-- The registers of block PLC. -/
  | PLC
  /-- The registers of block MND. -/
  | MND
  /-- The registers of block LNK. -/
  | LNK
  /-- The registers of block CAM. -/
  | CAM
  /-- The registers of block CAMP (the camera positions' status). -/
  | CAMP
  /-- The registers of block SAF. -/
  | SAF
  /-- The registers of block CTL. -/
  | CTL
  /-- The registers of block HSV. -/
  | HSV
  /-- The registers of block PIN. -/
  | PIN
  /-- The registers of block DBG. -/
  | DBG
  deriving DecidableEq, Repr

/-- The 64 KiB of BAR0 that a block of registers stands in. -/
def StatePart.block : StatePart → Option Nat
  | .IDC => some 0x0
  | .HIF => some 0x1
  | .EVT => some 0x2
  | .RST => some 0x3
  | .PWR => some 0x4
  | .THM => some 0x5
  | .FUS => some 0x6
  | .TSY => some 0x7
  | .MOT => some 0x8
  | .ARB => some 0xA
  | .MEMC => some 0xB
  | .ECC => some 0xC
  | .UDMA => some 0xD
  | .CRC => some 0xE
  | .FCD => some 0xF
  | .DPI => some 0x10
  | .THE => some 0x11
  | .BSC => some 0x12
  | .PLC => some 0x14
  | .MND => some 0x15
  | .LNK => some 0x16
  | .CAM => some 0x18
  | .CAMP => some 0x19
  | .SAF => some 0x1A
  | .CTL => some 0x1B
  | .HSV => some 0x1C
  | .PIN => some 0x1D
  | .DBG => some 0x1E
  | .heldLow | .latchedHigh | .out | .freeCtr | .host | .evt | .time | .dram | .sram
  | .mem | .arb | .mot | .dose | .ctl | .pwr | .thm | .head | .cam => none
/-- `t` has the part as `s` has it. -/
def StatePart.same (p : StatePart) (s t : Machine.State) : Prop :=
  match p with
  | .heldLow => t.heldLow = s.heldLow
  | .latchedHigh => t.latchedHigh = s.latchedHigh
  | .out => t.out = s.out
  | .freeCtr => t.freeCtr = s.freeCtr
  | .host => t.host = s.host
  | .evt => t.evt = s.evt
  | .time => t.time = s.time
  | .dram => t.mem.dram = s.mem.dram
  | .sram => t.mem.sram = s.mem.sram
  | .mem => t.mem = { s.mem with dram := t.mem.dram, sram := t.mem.sram }
  | .arb => t.arb = s.arb
  | .mot => t.mot = s.mot
  | .dose => t.dose = s.dose
  | .ctl => t.ctl = s.ctl
  | .pwr => t.pwr = s.pwr
  | .thm => t.thm = s.thm
  | .head => t.head = s.head
  | .cam => t.cam = s.cam
  | q => ∀ r i, q.block = some (Machine.regAddr r i / 65536 % 32) → Machine.rd r t i = Machine.rd r s i
/-- All of them. -/
def StatePart.all : List StatePart :=
  [.heldLow, .latchedHigh, .out, .freeCtr, .host, .evt, .time, .dram, .sram, .mem, .arb, .mot, .dose, .ctl, .pwr, .thm,
   .head, .cam, .IDC, .HIF, .EVT, .RST, .PWR, .THM, .FUS, .TSY, .MOT, .ARB, .MEMC, .ECC, .UDMA, .CRC,
   .FCD, .DPI, .THE, .BSC, .PLC, .MND, .LNK, .CAM, .CAMP, .SAF, .CTL, .HSV, .PIN, .DBG]
/-- Every part but those of a list. -/
def allBut (l : List StatePart) : List StatePart := StatePart.all.filter fun p => !l.contains p
/-- What posting an event may change: what leaves the module, the EVENT ring, the held queue, the vectors (R548 to R551). -/
def posting : List StatePart := [.out, .host, .evt, .HIF, .EVT]
/-- What entering HOLD may change (R22 to R28): the axes, the pass, the items of a calibration run, the mode. -/
def holding : List StatePart :=
  posting.append [.mot, .dose, .ctl, .thm, .THM, .MOT, .THE, .PLC, .MND, .SAF, .CTL]
/-- The parts of the state that a command may change; it leaves every other part as it is. -/
def mayChange : Instr → List StatePart
  | .registerWrite .. | .regWriteHighHalf .. | .pcieLinkDown | .pcieHotReset | .frameBuild .. | .ackBlockRx ..
  | .fastRetrainTimeout .. | .ackTimeout .. | .linkClockStopTimeout .. | .powerUp .. | .brownoutAssert ..
  | .brownoutRelease .. | .dormantEntry | .railFault .. | .resetAssert .. | .resetPinHold | .watchdogExpiry | .rstCmd ..
  | .thermtrip | .thermtripCool .. | .dbgReset | .coreHalt .. =>
    StatePart.all
  | .regWriteLowHalf .. =>
    [.heldLow]
  | .regReadLowHalf .. | .rcRead .. =>
    allBut [.heldLow, .time, .dram, .sram, .mem, .arb, .mot, .dose, .ctl, .pwr, .thm, .head, .cam]
  | .ttWrap =>
    posting.append [.time]
  | .setMode .. =>
    allBut [.heldLow, .latchedHigh, .dram, .sram, .arb, .pwr]
  | .holdStandstill .. =>
    posting.append [.freeCtr, .ctl, .head, .SAF, .CTL, .HSV]
  | .holdCauseClear .. =>
    [.ctl, .thm, .CTL]
  | .readyEntryAtRest =>
    posting.append [.freeCtr, .time, .mot, .dose, .ctl, .TSY, .MOT, .DPI, .THE, .BSC, .PLC, .MND, .LNK, .CAM, .SAF, .CTL]
  | .bringupDoneTimeout | .ctlBringupDoneWrite =>
    posting.append [.time, .mot, .dose, .ctl, .TSY, .MOT, .THE, .PLC, .CAM, .SAF, .CTL]
  | .busMasterEnableClear | .uploadBufferTimeout .. =>
    [.host]
  | .busMasterEnableSet =>
    [.out, .host]
  | .pcieLinkChange .. | .pcieError .. | .hifNudge .. | .doorbellPoll .. | .ringEnable .. | .eventRingSpacePoll ..
  | .hello .. | .loadContext .. | .loadBeamTable .. | .setGeometry .. | .policySet .. | .readLog .. | .camProgram ..
  | .timeCtrlRead .. | .uploadBuffer .. =>
    posting
  | .hifApertureBaseWrite .. | .tlbInvalDone =>
    [.HIF]
  | .apertureRead .. | .patrolScrubRead .. =>
    posting.append [.mem, .MEMC, .ECC]
  | .apertureWrite .. =>
    posting.append [.dram, .mem, .MEMC, .ECC]
  | .ringDisable .. | .ringResumeSkip .. | .ringResumeAbort .. | .hostDmaBreakPoint .. | .resumeRing .. | .positionSample ..
  | .stepInputEdge .. | .frameSend .. | .frameLate .. | .motionLinkFrame =>
    allBut [.heldLow, .latchedHigh, .sram, .arb, .pwr, .head]
  | .ringDisableDone .. | .ringReset .. =>
    [.out, .host, .HIF]
  | .ringResumeRetry .. | .hostDmaChannelGrant .. =>
    posting.append [.freeCtr, .dose]
  | .tlbInvalAll | .tlbInvalSpace .. | .tlbInvalPage .. =>
    [.host, .HIF]
  | .hostDmaTransferDone .. =>
    allBut [.heldLow, .latchedHigh, .sram, .arb, .pwr, .head,
      .IDC, .FUS, .CRC, .CAMP, .PIN, .DBG]
  | .home .. | .move .. | .turnEntry | .moveComplete .. | .motFaultClear .. | .motionLinkRetest .. | .encoderFault ..
  | .switchClassify .. | .switchRawEdge .. | .standingRequest | .thmReq .. | .envelopeCheck .. | .estopOpen ..
  | .beamPermitChange .. | .enableFeedbackFault .. | .relayFeedbackFault .. | .ctlHoldReq | .coolantChange .. =>
    holding.append [.time, .TSY, .DPI, .LNK, .CAM]
  | .calRequest .. =>
    posting.append [.thm, .THM]
  | .loadFirmware .. =>
    holding.append [.time, .RST, .PWR, .TSY, .ARB, .DPI, .LNK, .CAM]
  | .timeCtrlSet .. | .timeCtrlStep .. | .servoSample .. | .ppsInputEdge =>
    posting.append [.time, .mot, .dose, .ctl, .TSY, .PLC]
  | .timeCtrlSource .. | .holdoverExpiry | .timeSourceChange .. =>
    posting.append [.time, .ctl, .TSY]
  | .timeCtrlIncrement .. | .timeCtrlCompare .. | .ptpMessageRx .. | .ptpMessageTx .. =>
    posting.append [.TSY]
  | .layerBegin .. =>
    posting.append [.dose, .THE, .PLC]
  | .swath .. | .mendPass .. =>
    allBut [.heldLow, .latchedHigh, .dram, .sram, .arb, .pwr, .head, .cam, .IDC, .RST, .PWR, .FUS, .ARB, .UDMA, .CRC, .FCD, .CAMP, .HSV, .PIN, .DBG]
  | .layerEnd .. =>
    posting.append [.dose]
  | .crcJob .. | .compress .. | .decompress .. | .fill .. | .copy .. | .scrub .. | .utilityJobDone .. =>
    posting.append [.freeCtr, .dram, .mem, .MEMC, .ECC, .UDMA, .FCD]
  | .swathExecutionStart .. =>
    allBut [.heldLow, .latchedHigh, .dram, .sram, .arb, .pwr, .head, .cam, .IDC, .RST, .PWR, .FUS, .ARB, .MEMC, .UDMA, .CRC, .FCD, .CAMP, .HSV, .PIN, .DBG]
  | .groupDecode =>
    posting.append [.freeCtr, .mem, .dose, .MEMC, .ECC, .DPI, .MND]
  | .intakeStartWaitExpiry | .turnDwellExpiry | .ax1Settle =>
    [.dose]
  | .layerBoundary .. =>
    allBut [.heldLow, .latchedHigh, .dram, .sram, .mem, .arb, .pwr]
  | .lineWindowEntry .. =>
    posting.append [.freeCtr, .dose, .ctl, .DPI, .THE, .BSC, .MND]
  | .mapSlotFillDone .. =>
    allBut [.heldLow, .latchedHigh, .sram, .arb, .pwr]
  | .theEnable .. =>
    [.dose, .THE, .PLC]
  | .assimMapApply .. =>
    posting.append [.dram, .mem, .dose, .cam, .ECC, .THE, .CAM]
  | .bankSwapCancel =>
    [.BSC]
  | .beamTableWindowWrite .. =>
    [.dose, .BSC]
  | .anchorLatch =>
    [.dose, .PLC]
  | .runupStart | .thmCalRun .. | .calItemDone .. =>
    allBut [.heldLow, .latchedHigh, .freeCtr, .dram, .sram, .mem, .arb, .pwr, .head]
  | .exposeEntry =>
    [.PLC]
  | .linkDetectPoll .. | .returnClockLock .. | .linkTrainTimeout .. | .capabilityRx .. =>
    posting.append [.dose, .LNK]
  | .linkRetryDelay .. | .ackDeferEnd .. =>
    [.dose, .LNK]
  | .trainBlockRx .. | .tickReplyRx .. | .telemetryRx .. | .laneLockLoss .. | .linkRetrainRequest .. | .fastExitTimeout ..
  | .returnBlockInvalid .. =>
    posting.append [.freeCtr, .mot, .dose, .PLC, .LNK]
  | .alignBlockRx .. =>
    posting.append [.freeCtr, .dose, .LNK]
  | .tickCheckTimer .. | .returnIdleRx .. =>
    [.out, .dose, .LNK]
  | .linkEnableWrite .. =>
    holding.append [.freeCtr, .time, .TSY, .DPI, .LNK, .CAM]
  | .linkIdleEntry .. =>
    [.LNK]
  | .mendLogDiscard .. =>
    posting.append [.dose, .MND]
  | .runHoldExpiry .. | .standstillDelayExpiry .. =>
    [.mot]
  | .motStop .. =>
    [.mot, .MOT]
  | .motFlush .. | .motSourceChange .. | .switchDebounceAccept .. =>
    posting.append [.mot, .MOT]
  | .motDeclareHomed .. | .motClearHomed .. =>
    [.MOT]
  | .csiFrameStart .. =>
    posting.append [.freeCtr, .dram, .mem, .dose, .cam, .MEMC, .ECC, .THE, .CAM, .CAMP]
  | .csiLinePacket .. | .camTrigSw .. | .camCtxEnable .. =>
    posting.append [.cam, .CAM]
  | .csiFrameEnd .. | .camFrameTimeout .. | .camLineProcess .. | .positionWaitTimeout .. | .camCtxDisable .. =>
    posting.append [.freeCtr, .dram, .mem, .dose, .cam, .MEMC, .ECC, .THE, .CAM]
  | .triggerPulseEnd .. =>
    [.out, .cam]
  | .camBusCmd .. =>
    [.out, .cam, .CAM]
  | .camBusTransactionDone .. =>
    posting.append [.freeCtr, .cam, .CAM]
  | .camCommit .. | .camPwrCtrlWrite .. =>
    [.CAM]
  | .camBufferRelease .. =>
    [.cam, .CAM]
  | .camPowerFault .. =>
    posting.append [.CAM]
  | .dramRefresh =>
    []
  | .dramTempPoll .. | .mapLock =>
    [.MEMC]
  | .srIdleEntry =>
    [.mem, .MEMC]
  | .srEntryComplete | .arbRequest .. =>
    posting.append [.mem, .arb, .ARB, .MEMC]
  | .arbGrantEnd .. =>
    posting.append [.arb, .ARB, .MEMC]
  | .arbSlotAdvance | .arbWaitBreak .. =>
    posting.append [.arb, .ARB]
  | .arbBankSwitch .. =>
    [.ARB]
  | .dramReadComplete .. | .dramCmdAlert .. =>
    posting.append [.mem, .cam, .MEMC, .ECC, .CAM]
  | .memcRankMapWrite .. =>
    [.dram, .mem, .MEMC]
  | .rankRetire .. | .rankMigrateDone =>
    posting.append [.mem, .MEMC]
  | .sramScrub .. =>
    posting.append [.mem, .ECC]
  | .eccLogClear .. =>
    [.mem, .ECC]
  | .eccInjectArm .. =>
    [.ECC]
  | .dramTrainingDone .. | .resetRelease .. | .fuseLoadAttempt .. | .bezelResetRelease .. =>
    allBut [.heldLow, .latchedHigh, .sram, .arb]
  | .udmaStart .. =>
    posting.append [.freeCtr, .mem, .ECC, .UDMA]
  | .udmaStop .. | .udmaDescriptorDone .. =>
    posting.append [.freeCtr, .dram, .sram, .mem, .MEMC, .ECC, .UDMA]
  | .udmaAppend .. =>
    posting.append [.freeCtr, .sram, .mem, .ECC, .UDMA]
  | .udmaPaceResume .. =>
    [.UDMA]
  | .crcStart .. | .crcLoadInit .. =>
    [.CRC]
  | .crcStop .. | .crcUnitDone .. =>
    posting.append [.freeCtr, .mem, .MEMC, .ECC, .CRC]
  | .servoNoSample | .timeCompareArm .. =>
    [.TSY]
  | .ppsMissing | .timeCompareFire .. | .sfpCageFaultClear .. =>
    posting.append [.time, .TSY]
  | .sfpCageFault .. =>
    posting.append [.freeCtr, .time, .TSY]
  | .sfpFaultClearDelay .. =>
    posting.append [.freeCtr, .TSY]
  | .wideTimeRead =>
    [.out, .TSY]
  | .mainsHalfCycle .. =>
    posting.append [.freeCtr, .pwr, .PWR]
  | .mainsLoss =>
    posting.append [.pwr, .PWR]
  | .supplyWarn .. =>
    allBut [.heldLow, .latchedHigh, .freeCtr, .dram, .sram, .mem, .arb, .head]
  | .supplyWarnExit .. =>
    [.pwr, .PWR]
  | .supplyRecover .. =>
    holding.append [.freeCtr, .time, .pwr, .PWR, .TSY, .DPI, .LNK, .CAM]
  | .supplyHoldExpiry =>
    holding.append [.time, .pwr, .TSY, .DPI, .LNK, .CAM]
  | .resetPinPulse =>
    [.ctl]
  | .watchdogKick =>
    [.pwr]
  | .watchdogHalf =>
    posting.append [.pwr]
  | .rstBlock .. =>
    [.out, .mem, .mot, .dose, .cam, .RST, .THE, .CAM]
  | .backupCellCheck .. =>
    posting.append [.PWR]
  | .thmConversionDone .. =>
    holding.append [.freeCtr, .time, .TSY, .DPI, .LNK, .CAM, .HSV]
  | .safLock =>
    posting.append [.SAF]
  | .estopClose .. =>
    posting.append [.ctl, .MOT, .SAF]
  | .estopDiscrepancy =>
    posting.append [.ctl, .SAF]
  | .estopStopTimeout =>
    [.ctl, .MOT]
  | .estopTestPulse .. | .ioSupplyAccept .. | .ioSupplyLoss .. =>
    holding.append [.time, .TSY, .DPI, .LNK, .CAM, .PIN]
  | .rollbackCommit .. =>
    [.FUS, .CTL]
  | .dbgRequest .. =>
    posting.append [.freeCtr, .ctl, .DBG]
  | .dbgResponse .. =>
    posting.append [.ctl, .DBG]
  | .dbgRelock =>
    posting.append [.DBG]
  | .headReauth =>
    [.out, .freeCtr, .head, .HSV]
  | .headAuthComplete .. | .headIdentityPoll .. =>
    holding.append [.freeCtr, .time, .head, .TSY, .DPI, .LNK, .CAM, .HSV]
  | .usageMerge =>
    posting.append [.head, .HSV]
  | .hsvFlush .. =>
    posting.append [.freeCtr, .head, .HSV]
  | .hsvUsageDiscard .. =>
    [.head, .HSV]
  | .ioOutputFault .. =>
    posting.append [.time, .MOT, .PIN]
  | .pinFaultClear .. =>
    [.out, .time, .ctl, .MOT, .PIN]
  | .coolantWindow .. | .pinOutWrite .. =>
    [.ctl, .PIN]
  | .gpinEdgeAccept .. =>
    posting.append [.ctl, .PIN]
  | .evtPendingClear .. =>
    [.EVT]
  | .vectorHoldoffExpiry .. | .msixUnmask .. =>
    [.out, .host, .evt, .EVT]
  | .ppsOutputPulseStart | .ppsOutputPulseEnd =>
    [.out, .time]

/-- The pending bit of event `n` shows (R548, R551). -/
def EventShows (n : Nat) (s : Machine.State) : Prop := Machine.rdb Machine.R.EVT_PENDING (n % 32) s (n / 32) = true

/-- From state `s` reset source `k` asserts and leaves state `t` (R449, R451): it is asserted, an episode is open and knows it, a
release is due, and within the reach of level 1 the time and the dose path are lost. -/
def Asserts (k : Nat) (s t : Machine.State) : Prop :=
  t.pwr.asserted = k :: s.pwr.asserted ∧ t.pwr.episode = true ∧ Machine.bit k t.pwr.mask = true ∧ t.pwr.due.isSome = true ∧
    t.pwr.railsOff = s.pwr.railsOff ∧ (Machine.reachOf k s ≤ 1 → t.time = {} ∧ t.dose = {})

/-- The release of level 0 has come to step 2 and waits for the fuse load (R450): the rails are on, no source is asserted, and
RST_STATUS and FUS_STATUS show it. -/
def AtFuseLoad (t : Machine.State) : Prop :=
  t.pwr.railsOff = false ∧ t.pwr.asserted = [] ∧ t.pwr.step = 2 ∧ Machine.rdf Machine.R.RST_STATUS 8 4 t = 2 ∧
    Machine.rdb Machine.R.RST_STATUS 5 t = true ∧ Machine.rdf Machine.R.FUS_STATUS 0 4 t = 0

/-! ### Descriptors -/

/-- Ring `k` offers the module descriptor `d` of opcode `code`, and the checks common to all opcodes pass: the ring may be read
(R57, R62), the phase is valid (R59), OP_HELLO came first and the version has the opcode (R64), the ring's type takes it (R68), no
reserved bit is set and every field is in range (R66). -/
def Offers (k : Nat) (d : Desc) (code used : Nat) (tests : List (Nat × Bool)) (s : Machine.State) : Prop :=
  Machine.canFetch k s = true ∧ Machine.aborting k s = false ∧ Machine.dOpcode d = code ∧
    Machine.dPhase d = Machine.phaseAt (Machine.ringLog2 s k) (Machine.ringInt s k).next ∧
    (Machine.hostVersion s = 0 → code = 1) ∧
    (Machine.hostVersion s ≠ 0 → Machine.opcodeVersion code ≤ Machine.hostVersion s) ∧
    Machine.ringType s k = Machine.opcodeType code ∧ Machine.badField used tests d = none
/-- The completion of descriptor `j` of ring `k` has left the module, with a status and a reason (R57, R66). -/
def Completed (k : Nat) (j : Machine.Job) (status reason : Nat) (t : Machine.State) : Prop :=
  ∃ a e, Machine.Out.completion k a e ∈ t.out ∧ e.toNat % 2 ^ 8 = status ∧ e.toNat / 2 ^ 8 % 2 ^ 8 = reason ∧
    e.toNat / 2 ^ 32 % 2 ^ 32 = Machine.dCookie j.desc
/-- The index of the descriptor that ring `k` gives next. -/
def nextIndex (k : Nat) (s : Machine.State) : Nat := (Machine.ringInt s k).next
/-- The state once descriptor `d` of ring `k` has been read: it is the ring's newest open job (R57). -/
def taken (k : Nat) (d : Desc) (s : Machine.State) : Machine.State :=
  Machine.modRing k (fun r =>
    { r with next := (nextIndex k s + 1) % 2 ^ 32, jobs := r.jobs ++ [{ index := nextIndex k s, desc := d }] }) s
/-- The open job that descriptor `d` of ring `k` becomes. -/
def jobOf (k : Nat) (d : Desc) (s : Machine.State) : Machine.Job := { index := nextIndex k s, desc := d }
/-- Ring `k` has no open descriptor, and the module may send to the host (R44, R57). -/
def Alone (k : Nat) (s : Machine.State) : Prop := (Machine.ringInt s k).jobs = [] ∧ s.host.busMaster = true

end Sys2Proof
end

