-- ==== Sys2Proof/Certificates/Slice0/Obligations.lean ====
section
/-! DEFINITION. The statements for the provers. Each names the rules it rests on; `Offers` and `taken` (Safety.lean) say that a
ring offers a descriptor that passes the common checks, and what the module holds once it has read it. -/

open Sys2Proof Sys2Proof.Machine

/-- For every command c, every queue rest and every state, a step of the state with c at the front of its queue is exec of c
on the state with the queue's rest. (95_what_each_step_holds.md) -/
def Obligations.StepTakesTheFront : Prop :=
  ∀ (c : Instr) (rest : List Instr) (s : State), step { s with pending := c :: rest } = exec c { s with pending := rest }

/-- With an empty queue and TCLK running, a step answers a next state with the queue still empty. Where the running firmware
has no hold to request, its E is the old E plus TSY_INCREMENT (modulo 96 bits), with the mode registers, the axes and SRAM
as they were, and the cameras too where no sensor write is due and no schedule is in force (waiting policy records and
utility jobs may be taken at the edge). With TCLK stopped a step answers the state unchanged. That an idle step is the
edge is the model's choice (log entry 6); the increment is the rule's. (R411) -/
def Obligations.IdleStepIsOneTick : Prop :=
  ∀ s : State, s.pending = [] →
    (clockRuns s = true → ∃ t, step s = .next t ∧ t.pending = [] ∧
      (s.ctl.holdWanted = false → e32 t = (e32 s + rd R.TSY_INCREMENT s) % 2 ^ 96 ∧
        rd R.CTL_MODE t = rd R.CTL_MODE s ∧ t.mot = s.mot ∧ t.mem.sram = s.mem.sram ∧
        ((∀ p < 4, (camBus s p).due = []) → s.ctl.schedules = [] → t.cam = s.cam))) ∧
    (clockRuns s = false → step s = .next s)

/-- In State.reset every register of the map, in every instance, reads the reset value of its row; the mode is BRINGUP; the
queue is empty, nothing has left the module and no ring holds a descriptor. That the modelled state is the one right after
the release, with the memory still in training, is the model's choice (log entry 2). (R13, R20, R34) -/
def Obligations.ResetState : Prop :=
  (∀ r ∈ R.all, ∀ i, rd r State.reset i = r.reset) ∧ modeOf State.reset = 2 ∧ State.reset.pending = [] ∧ State.reset.out = [] ∧
    (∀ k, (ringInt State.reset k).jobs = []) ∧ State.reset.mem.dram = []

/-- The register file, DRAM and SRAM of State.reset are in canonical form and every waiting command is well formed. (R13,
R359) -/
def Obligations.SoundAtReset : Prop :=
  Sound State.reset

/-- From every state, reached or not, whose register file, DRAM and SRAM are in canonical form and whose waiting commands are
well formed, a step that answers a next state leads to such a state. (R13, R359, R364) -/
def Obligations.SoundEveryStep : Prop :=
  ∀ s t : State, Sound s → step s = .next t → Sound t

/-- Every command in every state answers a next state; every step answers a next state; what has left the module before is the
tail of what has left it after (no completion, event or status write is taken back); and no free value is used twice.
(R43, R57, R548) -/
def Obligations.EveryStepAnswers : Prop :=
  (∀ (c : Instr) (s : State), ∃ t, exec c s = .next t ∧ t.pending = s.pending ∧ Grows s t) ∧
    ∀ s : State, ∃ t, step s = .next t ∧ Grows s t

/-- For each of the 253 commands the list mayChange names the parts of the state it may change: fields of State and blocks of
registers. Whatever the operands and the state, when exec answers a next state every other part is unchanged: every
register of a block outside the list reads as before, and every byte of DRAM and of SRAM is unchanged where the list does
not name them. (R13, R26, R28, R449, R548, R551) -/
def Obligations.CommandFrame : Prop :=
  ∀ (c : Instr) (s t : State), exec c s = .next t → ∀ p : StatePart, p ∉ mayChange c → p.same s t

/-- REGISTER_WRITE of 4 bytes to a 32-bit RW register without an effect of its own stores the bits that a write can set,
leaves the others, and changes nothing else. REG_WRITE_LOW_HALF holds the low half of a 64-bit register and changes
nothing else; REG_WRITE_HIGH_HALF to a plain 64-bit RW register stores the held low half and the high half together and
gives the hold up. An access of a size or alignment that R12 does not allow changes no register of another block than HIF,
EVT and IDC. (R10, R11, R12, 18_register_map_and_events.md) -/
def Obligations.RegisterWrites : Prop :=
  (∀ (fw : Bool) (a : Nat) (v : Word) (r : RegInfo) (s : State), answers s = true → a % 4 = 0 → is64 a = false →
    (a % 8 = 4 → is64 (a - 4) = false) → findReg a = some r → r.bytes = 4 → accessOf fw r = .rw →
    R.allPin.any (fun x => x.base == r.base) = false → r ≠ R.EVT_CFG → writers.find? (fun w => w.1.base == r.base) = none →
    exec (.registerWrite fw a 4 v) s = .next (wr r (written r (v.toNat % 2 ^ 32) (rd r s (regIndex r a))) s (regIndex r a))) ∧
  (∀ (a : Nat) (v : Word32) (s : State), answers s = true → a % 8 = 0 → is64 a = true →
    exec (.regWriteLowHalf a v) s = .next { s with heldLow := tset s.heldLow a v }) ∧
  (∀ (fw : Bool) (a : Nat) (v lo : Word32) (r : RegInfo) (s : State), answers s = true → a % 8 = 0 → beamWindow a = none →
    findReg a = some r → r.bytes = 8 → accessOf fw r = .rw → R.allPin.any (fun x => x.base == r.base) = false →
    r ≠ R.EVT_CFG → writers.find? (fun w => w.1.base == r.base) = none → tget? s.heldLow a = some lo →
    exec (.regWriteHighHalf fw (a + 4) v) s =
      .next (wr r (written r (lo.toNat + 2 ^ 32 * v.toNat) (rd r s (regIndex r a))) { s with heldLow := terase s.heldLow a }
        (regIndex r a))) ∧
  (∀ (fw : Bool) (a size : Nat) (v : Word) (s : State), answers s = true → badAccess a size = true →
    ∃ t, exec (.registerWrite fw a size v) s = .next t ∧ t.mem = s.mem ∧ t.dose = s.dose ∧ t.mot = s.mot ∧
      ∀ q j, regAddr q j / 65536 % 32 ≠ 0 → regAddr q j / 65536 % 32 ≠ 1 → regAddr q j / 65536 % 32 ≠ 2 → rd q t j = rd q s j)

/-- REG_READ_LOW_HALF of a 64-bit register whose value is v returns the low half and latches the high half, and changes
nothing else. RC_READ of a 32-bit register that is not read-to-clear returns its content and changes nothing else; RC_READ
of a read-to-clear counter returns its content and leaves it at its reset value, and every register of another block reads
as before. The latched high half is returned once by a read of its address and given up. A 64-bit read of a 64-bit
register returns it whole. A read of a size or alignment that R12 does not allow returns 0 and is counted. (R10, R12,
18_register_map_and_events.md) -/
def Obligations.RegisterReads : Prop :=
  (∀ (a : Nat) (v : Nat) (s s' : State), answers s = true → a % 8 = 0 → read64 a s = some (v, s') →
    exec (.regReadLowHalf a) s = .next (emit (.readData a (v % 2 ^ 32))
      { s' with latchedHigh := tset s'.latchedHigh (a + 4) (BitVec.ofNat 32 (v / 2 ^ 32)) })) ∧
  (∀ (a : Nat) (r : RegInfo) (s : State), answers s = true → a % 4 = 0 → (read64 (a / 8 * 8) s).isSome = false →
    findReg a = some r → r ≠ R.TSY_WIDE_NS → r.access ≠ .rc → readReg r (regIndex r a) s = (rd r s (regIndex r a), s) →
    exec (.rcRead a 4) s = .next (emit (.readData a (rd r s (regIndex r a) % 2 ^ 32)) s)) ∧
  (∀ (a : Nat) (r : RegInfo) (s : State), answers s = true → a % 4 = 0 → (read64 (a / 8 * 8) s).isSome = false →
    findReg a = some r → r ≠ R.EVT_COUNT → r.access = .rc → r.bytes = 4 → r.reset < 2 ^ 32 →
    readReg r (regIndex r a) s = (rd r s (regIndex r a), s) →
    ∃ t, exec (.rcRead a 4) s = .next t ∧ t.out = .readData a (rd r s (regIndex r a) % 2 ^ 32) :: s.out ∧
      rd r t (regIndex r a) = r.reset ∧ t.mem = s.mem ∧ t.dose = s.dose ∧
      ∀ q j, regAddr q j ≠ regAddr r (regIndex r a) → rd q t j = rd q s j) ∧
  (∀ (a v : Nat) (h : Word32) (s s' : State), answers s = true → a % 8 = 4 → read64 (a - 4) s = some (v, s') →
    tget? s'.latchedHigh a = some h →
    exec (.rcRead a 4) s = .next (emit (.readData a h.toNat) { s' with latchedHigh := terase s'.latchedHigh a })) ∧
  (∀ (a v : Nat) (s s' : State), answers s = true → a % 8 = 0 → read64 a s = some (v, s') →
    exec (.rcRead a 8) s = .next (emit (.readData a v) s')) ∧
  (∀ (a size : Nat) (s : State), answers s = true → badAccess a size = true →
    exec (.rcRead a size) s = .next (countBad (emit (.readData a 0) s)))

/-- EVT_PENDING_CLEAR clears exactly the bits of word w that are written as 1 and changes nothing else. VECTOR_HOLDOFF_EXPIRY
ends the holdoff of the vector and, where signals merged meanwhile, sends it once, where the module may send to the host
(R44). MSIX_UNMASK clears the vector's mask bit, and a pending bit is cleared and its message sent. (R551, R552) -/
def Obligations.EventControllerCommands : Prop :=
  (∀ (w : Nat) (v : Word32) (s : State), w < 8 → exec (.evtPendingClear w v) s =
    .next (wr R.EVT_PENDING (rd R.EVT_PENDING s w ^^^ (rd R.EVT_PENDING s w &&& v.toNat)) s w)) ∧
  (∀ (v : Nat) (s : State), v ∈ s.evt.holdoff → v ∉ s.evt.merged → exec (.vectorHoldoffExpiry v) s =
    .next { s with evt := { s.evt with holdoff := s.evt.holdoff.filter (· != v), merged := s.evt.merged.filter (· != v) } }) ∧
  (∀ (v : Nat) (s : State), v ∈ s.evt.holdoff → v ∈ s.evt.merged → rdb R.MSIX_CTRL 0 s v = false → s.host.busMaster = true →
    ∃ t, exec (.vectorHoldoffExpiry v) s = .next t ∧ t.out = .msix v :: s.out ∧ v ∉ t.evt.merged ∧ t.regs = s.regs) ∧
  (∀ (v : Nat) (s : State), v < 64 → rdb R.MSIX_PBA v s = true → s.host.busMaster = true →
    ∃ t, exec (.msixUnmask v) s = .next t ∧ t.out = .msix v :: s.out ∧ rdb R.MSIX_CTRL 0 t v = false ∧
      rdb R.MSIX_PBA v t = false) ∧
  (∀ (v : Nat) (s : State), v < 64 → rdb R.MSIX_PBA v s = false → exec (.msixUnmask v) s = .next (wrb R.MSIX_CTRL 0 false s v))

/-- Clearing bus mastering changes that bit only; setting it also sends, in order, what had waited for it (R44). A trained
link shows its speed and width in HIF_STATUS and posts EV_PCIE_LINK_CHANGE with both. An error is added to the AER status,
and EV_PCIE_ERROR carries it; one that ends an access to the structures of an IDLE or ACTIVE ring puts that ring into
ERROR with cause 3 (R61). The aperture base takes a value on a 1 GiB boundary whose 16 GiB window lies in DRAM, and
ignores another one. (R44, R46, R47, R51, R61, 02_host_rings.md) -/
def Obligations.HostPortCommands : Prop :=
  (∀ s : State, exec .busMasterEnableClear s = .next { s with host := { s.host with busMaster := false } } ∧
    ∃ t, exec .busMasterEnableSet s = .next t ∧ t.host = { s.host with busMaster := true, held := [] } ∧
      t.out = s.host.held.reverse ++ s.out ∧ t.regs = s.regs ∧ t.mem = s.mem ∧ t.dose = s.dose) ∧
  (∀ (speed width : Nat) (s : State), speed < 16 → width < 32 → ∃ t, exec (.pcieLinkChange speed width) s = .next t ∧
    t = postEvent 3 0 1 0 [(0, 1, (speed : Nat)), (1, 1, (width : Nat))]
      (wrf R.HIF_STATUS 8 5 width (wrf R.HIF_STATUS 4 4 speed { s with host := { s.host with linkUp := true } })) ∧
    t.dose = s.dose ∧ t.mem = s.mem) ∧
  (∀ (u c : Word32) (s : State), exec (.pcieError u c none) s =
    .next (postEvent 4 0 (if u.toNat = 0 then 1 else 2) 0
      [(0, 4, ((s.host.aerUncorrectable ||| u.toNat : Nat) : Int)), (4, 4, ((s.host.aerCorrectable ||| c.toNat : Nat) : Int))]
      { s with host := { s.host with aerUncorrectable := s.host.aerUncorrectable ||| u.toNat
                                     aerCorrectable := s.host.aerCorrectable ||| c.toNat } })) ∧
  (∀ (u c : Word32) (k : Nat) (s s' : State), k < 32 → exec (.pcieError u c none) s = .next s' →
    ringState s' k = 1 ∨ ringState s' k = 2 → exec (.pcieError u c (some k)) s = .next (ringError k 3 s')) ∧
  (∀ (v : Word) (s : State),
    (v.toNat % 2 ^ 30 = 0 → v.toNat + 2 ^ 34 ≤ dramSize → ∃ t, exec (.hifApertureBaseWrite v) s = .next t ∧
      rd R.HIF_APERTURE_BASE t = v.toNat ∧ ∀ q j, regAddr q j ≠ regAddr R.HIF_APERTURE_BASE → rd q t j = rd q s j) ∧
    (v.toNat % 2 ^ 30 ≠ 0 ∨ v.toNat + 2 ^ 34 > dramSize → exec (.hifApertureBaseWrite v) s = .next s))

/-- In a mode above STANDBY, with DRAM in service, the window inside it and no command of the write failed (R367), an aperture
write of a list of bytes at an offset stores exactly those bytes at HIF_APERTURE_BASE plus the offset onward; every byte
of DRAM outside them, every byte of SRAM, the dose path, the axes and the mode registers are as before. (R48, R359, R364) -/
def Obligations.ApertureWriteStores : Prop :=
  ∀ (off : Nat) (data : List Byte) (s : State), 1 < modeOf s → off + data.length ≤ 2 ^ 34 →
    rd R.HIF_APERTURE_BASE s + off + data.length ≤ dramSize → dramServes s = true →
    cmdFailed (rd R.HIF_APERTURE_BASE s + off) data.length rqHost s = false →
    ∃ t, exec (.apertureWrite off data) s = .next t ∧
      (∀ i, i < data.length → dramByte? t (rd R.HIF_APERTURE_BASE s + off + i) = data[i]?) ∧
      (∀ a, a < rd R.HIF_APERTURE_BASE s + off ∨ rd R.HIF_APERTURE_BASE s + off + data.length ≤ a → dramByte? t a = dramByte? s a) ∧
      t.mem.sram = s.mem.sram ∧ t.dose = s.dose ∧ t.mot = s.mot ∧ rd R.CTL_MODE t = rd R.CTL_MODE s

/-- In a mode above STANDBY an aperture read inside the window returns the bytes of DRAM and the poison mark that the checked
read of the lines gives. In STANDBY a read and a write both answer Unsupported Request and change nothing else. (R48,
R365) -/
def Obligations.ApertureReads : Prop :=
  (∀ (off len : Nat) (s s' : State) (bad : Bool), off + len ≤ 2 ^ 34 → 1 < modeOf s →
    checkedRead (rd R.HIF_APERTURE_BASE s + off) len rqHost s = (bad, s') →
    exec (.apertureRead off len) s = .next (emit (.apertureData (readDram s' (rd R.HIF_APERTURE_BASE s + off) len) bad) s')) ∧
  (∀ (off len : Nat) (data : List Byte) (s : State), modeOf s = 1 →
    (off + len ≤ 2 ^ 34 → exec (.apertureRead off len) s = .next (emit .apertureUR s)) ∧
    (off + data.length ≤ 2 ^ 34 → exec (.apertureWrite off data) s = .next (emit .apertureUR s)))

/-- An IDLE ring that the mode reads, whose doorbell value covers at least one descriptor and no more than the ring has,
becomes ACTIVE and keeps the value, whether the read was a poll or a nudge's; the status entry of the ring leaves the
module, and the registers of every other block, the axes and the dose path are unchanged. (R55, R62, R63) -/
def Obligations.DoorbellMakesActive : Prop :=
  ∀ (r : DoorbellRead) (w : Word32) (s : State), r.value = some w → ringReadable r.ring s = true → ringState s r.ring = 1 →
    (ringInt s r.ring).idle = false → modeOf s ≠ 1 → w.toNat ≠ (ringInt s r.ring).next →
    w.toNat ≠ rd R.HIF_RING_CONS s r.ring → (w.toNat + 2 ^ 32 - rd R.HIF_RING_CONS s r.ring) % 2 ^ 32 ≤ 2 ^ ringLog2 s r.ring →
    ∃ t, exec (.doorbellPoll r) s = .next t ∧ exec (.hifNudge [r]) s = .next t ∧ ringState t r.ring = 2 ∧
      (ringInt t r.ring).db = w.toNat ∧ (∃ e, t.out = .status r.ring (rd R.HIF_STATUS_BASE s / 4096 * 4096 + 32 * r.ring) e :: s.out) ∧
      t.dose = s.dose ∧ t.mot = s.mot ∧ t.mem = s.mem

/-- RING_ENABLE of a DISABLED ring with a valid configuration makes it IDLE with its next index, its doorbell and its consumer
index equal and no open descriptor; with an invalid configuration the ring enters ERROR with cause 4. RING_DISABLE of a
ring with nothing open makes it DISABLED at once. RING_DISABLE_DONE of a ring not in ERROR whose disable waits and that
holds no descriptor makes it DISABLED. RING_RESET of a DISABLED or ERROR ring clears its indices, its state and what the
module holds of it but its store. (R49, R50, R53, R54, R55, R81) -/
def Obligations.RingStateCommands : Prop :=
  (∀ (k : Nat) (w : Word32) (s : State), k < 32 → ringState s k = 0 → ringConfigOk k s = true → ringType s k ≠ tyEvent →
    w.toNat = rd R.HIF_RING_CONS s k → ringReadable k s = true → ∃ t, exec (.ringEnable k (some w)) s = .next t ∧ ringState t k = 1 ∧
      (ringInt t k).next = w.toNat ∧ (ringInt t k).db = w.toNat ∧ (ringInt t k).jobs = [] ∧ t.dose = s.dose ∧ t.mem = s.mem) ∧
  (∀ (k : Nat) (v : Option Word32) (s : State), k < 32 → ringState s k = 0 → ringConfigOk k s = false →
    exec (.ringEnable k v) s = .next (ringError k 4 s)) ∧
  (∀ (k : Nat) (s : State), k < 32 → ringState s k = 1 ∨ ringState s k = 2 → rdb R.HIF_RING_STATE 4 s k = false →
    ringType s k ≠ tyLayer → (ringInt s k).jobs = [] → ∃ t, exec (.ringDisable k) s = .next t ∧ ringState t k = 0 ∧
      rdb R.HIF_RING_STATE 4 t k = false ∧ t.dose = s.dose ∧ t.mem = s.mem ∧ t.mot = s.mot) ∧
  (∀ (k : Nat) (s : State), k < 32 → rdb R.HIF_RING_STATE 4 s k = true → ringState s k ≠ 4 → (ringInt s k).jobs = [] →
    exec (.ringDisableDone k) s = .next (setRingState k 0 (wrb R.HIF_RING_STATE 4 false s k))) ∧
  (∀ (k : Nat) (s : State), k < 32 → ringState s k = 0 ∨ ringState s k = 4 → ∃ t, exec (.ringReset k) s = .next t ∧
    rd R.HIF_RING_STATE t k = 0 ∧ rd R.HIF_RING_CONS t k = 0 ∧ (ringInt t k).next = 0 ∧ (ringInt t k).jobs = [] ∧
      t.dose = s.dose ∧ t.mem = s.mem)

/-- RETRY of a FAULTED ring makes it ACTIVE and translates the faulting address again, and the transfer goes on where the
translation succeeds: where the ring's space bypasses translation the ring is ACTIVE with its descriptors as they were.
SKIP completes the faulting descriptor with FAULT_SKIPPED and the fault's cause on the ring made ACTIVE; ABORT completes
it with ABORTED on the ring made IDLE, and the descriptors from there to the doorbell are to end. For a ring whose only
open descriptor faulted and holds no pass, that completion leaves the module and nothing stays open. (R80, R81, R82, R83) -/
def Obligations.RingResumeCommands : Prop :=
  (∀ (k : Nat) (w : WalkReads) (j : Job) (x : Xfer) (s s' : State), faultedJob k s = some j → j.cpl = none → passGivenUp k j s = false →
    j.xfer = some x → s.host.busMaster = true →
    translateVa (ringAsid k s) (x.addr + x.done) x.toHost w (setRingState k 2 s) = (.bypass, s') →
    exec (.ringResumeRetry k w) s = .next s') ∧
  (∀ (k : Nat) (w : WalkReads) (j : Job) (s : State), faultedJob k s = some j → j.cpl = none → passGivenUp k j s = false →
    asMode (ringAsid k s) s = 2 → exec (.ringResumeRetry k w) s = .next (setRingState k 2 s) ∧ ringState (setRingState k 2 s) k = 2 ∧
      (ringInt (setRingState k 2 s) k).jobs = (ringInt s k).jobs) ∧
  (∀ (k : Nat) (j : Job) (s : State), faultedJob k s = some j → (ringInt s k).jobs = [j] → s.host.busMaster = true →
    s.dose.passes.all (fun p => !(p.ring == k && p.index == j.index)) = true → dOpcode j.desc ≠ 0x0A →
    (∃ t, exec (.ringResumeSkip k) s = .next t ∧ ringState t k = 2 ∧ (ringInt t k).jobs = [] ∧
      Completed k j 10 ((ringInt s k).faultCause % 256) t) ∧
    (∃ t, exec (.ringResumeAbort k []) s = .next t ∧ ringState t k = 1 ∧ (ringInt t k).jobs = [] ∧ Completed k j 11 0 t)) ∧
  (∀ (k : Nat) (j : Job) (s : State), faultedJob k s = some j → s.dose.passes = [] → dOpcode j.desc ≠ 0x0A → j.cpl = none →
    exec (.ringResumeSkip k) s = .next (finish k j.index stFaultSkipped (ringInt s k).faultCause
      (wrb R.HIF_RING_STATE 3 false (setRingState k 2 s) k)) ∧
    exec (.ringResumeAbort k []) s = .next (finish k j.index stAborted 0 (wrb R.HIF_RING_STATE 3 false
      (modRing k (fun r => { r with abortTo := some r.db }) (setRingState k 1 s)) k)))

/-- TLB_INVAL_ALL leaves no cached translation; TLB_INVAL_SPACE leaves none of its address space and every one of another;
TLB_INVAL_PAGE leaves every cached translation of another space. HIF_TLB_INVAL shows busy; once no transfer uses an
invalidated entry TLB_INVAL_DONE clears busy. (R79) -/
def Obligations.TranslationCacheCommands : Prop :=
  (∀ s : State, ∃ t, exec .tlbInvalAll s = .next t ∧ t.host.tlb = [] ∧ t.host.walk = [] ∧ rdb R.HIF_TLB_INVAL 31 t = true ∧
    t.out = s.out ∧ t.mem = s.mem) ∧
  (∀ (a : Nat) (s : State), a < 16 → ∃ t, exec (.tlbInvalSpace a) s = .next t ∧ (∀ e, e ∈ t.host.tlb ↔ e ∈ s.host.tlb ∧ e.asid ≠ a) ∧
    rdb R.HIF_TLB_INVAL 31 t = true ∧ t.out = s.out) ∧
  (∀ (a : Nat) (s : State), a < 16 → ∃ t, exec (.tlbInvalPage a) s = .next t ∧
    (∀ e ∈ s.host.tlb, e.asid ≠ a → e ∈ t.host.tlb) ∧ (∀ e ∈ t.host.tlb, TlbEntryCovers a (rd R.HIF_TLB_INVAL_ADDR s / 4096) e = false) ∧
    rdb R.HIF_TLB_INVAL 31 t = true) ∧
  (∀ s : State, s.host.invalUsers = [] → exec .tlbInvalDone s = .next (wrb R.HIF_TLB_INVAL 31 false s))

/-- With a free channel c, a waiting ring k of highest priority, bus mastering on and the link up, HOST_DMA_CHANNEL_GRANT
gives c to k and translates the page its transfer stands at. A running transfer at its break point that nothing stops or
pre-empts translates its next page. HOST_DMA_TRANSFER_DONE of a transfer that may end writes what it carries, frees the
channel and goes on as its opcode says. EVENT_RING_SPACE_POLL of an EVENT ring with stored entries takes the doorbell
value, not more than 2^n behind, and writes what now fits. (R70, R71, R72, R73, R74) -/
def Obligations.HostDmaCommands : Prop :=
  (∀ (w : WalkReads) (c k : Nat) (j : Job) (x : Xfer) (s : State),
    (List.range 4).find? (fun c => (tget? s.host.chans c).isNone) = some c → nextWaiter s = some k → xferJob k s = some (j, x) →
    s.host.busMaster = true → s.host.linkUp = true → exec (.hostDmaChannelGrant w) s =
      .next (enterPage k j x w (modXfer k j.index (fun x => { x with chan := some c }) (wrb R.HIF_RING_STATE 3 false
        { s with host := { s.host with chans := tset s.host.chans c k, lastGrant := k } } k)))) ∧
  (∀ (w : WalkReads) (k : Nat) (j : Job) (x : Xfer) (s : State), xferJob k s = some (j, x) → x.chan.isSome = true → x.atBoundary = true →
    rdb R.HIF_RING_STATE 4 (leavePage k (modXfer k j.index (fun _ => x) s)) k = false → s.host.busMaster = true → s.host.linkUp = true →
    preemptor k (leavePage k (modXfer k j.index (fun _ => x) s)) = none →
    exec (.hostDmaBreakPoint k w) s = .next (enterPage k j x w (leavePage k (modXfer k j.index (fun _ => x) s)))) ∧
  (∀ (k : Nat) (data : List Byte) (j : Job) (x : Xfer) (s : State), xferJob k s = some (j, x) → ringType s k ≠ tyLayer →
    xferCanEnd x data = true → exec (.hostDmaTransferDone k data) s =
      .next (xferDone k { j with xfer := none } data (endXfer k j x s))) ∧
  (∀ (k : Nat) (w : Word32) (s : State), evRingOk k s = true → (ringInt s k).store.isEmpty = false → s.host.busMaster = true →
    (rd R.HIF_RING_CONS s k + 2 ^ 32 - w.toNat) % 2 ^ 32 ≤ 2 ^ ringLog2 s k →
    exec (.eventRingSpacePoll k (some w)) s = .next (flushEvents (modRing k (fun r => { r with db := w.toNat, mustRead := false }) s)))

/-- A descriptor that its ring offers and that passes the common checks (Offers) is read (taken) and has the effect of its
opcode: OP_HELLO with a version in common sets the version and completes OK with version, firmware version and the granted
features; OP_SET_MODE of the current mode completes OK; OP_RESUME_RING with skip of a FAULTED ring resumes it; OP_READ_LOG
with nothing to copy completes OK with its result; the loads start their transfer; OP_CAL_REQUEST marks its items due;
OP_LOAD_FIRMWARE in BRINGUP with a loader that waits loads the image; an empty OP_POLICY_SET completes OK; OP_CAM_PROGRAM
fetches its block. (R23, R25, R65, R66, R68, R83, R506) -/
def Obligations.CommandOpcodes : Prop :=
  (∀ (k : Nat) (d : Desc) (s : State), Offers k d 0x01 (usedBits [(8, 1), (9, 1), (12, 4), (16, 8)]) [] s →
    max 1 (dfld d 8 1) ≤ min 3 (dfld d 9 1) → hostVersion s = 0 → min 3 (dfld d 9 1) ≠ 1 →
    exec (.hello k d) s = .next (flushEvents (markNewlyRead (readableRings (taken k d s)) (postEvent 5 0 0 0
      [(0, 1, ((min 3 (dfld d 9 1) : Nat) : Int))] (complete k (nextIndex k s) { status := stOk, result := (min 3 (dfld d 9 1) +
          2 ^ 32 * rd R.CTL_FW_VERSION (wrf R.HIF_STATUS 0 2 (min 3 (dfld d 9 1)) (taken k d s)) +
          2 ^ 64 * (dfld d 16 8 &&& rd R.IDC_FEATURES (wrf R.HIF_STATUS 0 2 (min 3 (dfld d 9 1)) (taken k d s)))) }
        (wrf R.HIF_STATUS 0 2 (min 3 (dfld d 9 1)) (taken k d s))))))) ∧
  (∀ (k : Nat) (d : Desc) (u : UsageIn) (s : State), Offers k d 0x02 (usedBits [(8, 1)]) [(8, decide (dfld d 8 1 ≤ 7))] s →
    modeOf s ≠ 5 → rdb R.CTL_MODE 31 s = false → s.ctl.request = none → dfld d 8 1 = modeOf s →
    exec (.setMode k d u) s = .next (finish k (nextIndex k s) stOk 0 (taken k d s))) ∧
  (∀ (k : Nat) (d : Desc) (w : WalkReads) (rest : List Desc) (s : State),
    Offers k d 0x06 (usedBits [(8, 1), (9, 1)]) [(8, decide (dfld d 8 1 < 32)), (9, decide (dfld d 9 1 < 3))] s →
    (faultedJob (dfld d 8 1) (taken k d s)).isSome = true → dfld d 9 1 = 1 →
    exec (.resumeRing k d w rest) s = .next (finish k (nextIndex k s) stOk 0 (resumeSkip (dfld d 8 1) (taken k d s)))) ∧
  (∀ (k : Nat) (d : Desc) (s : State), Offers k d 0x0C (usedBits [(8, 1), (12, 4), (16, 8), (24, 4)]) [(8, decide (dfld d 8 1 < 5))] s →
    logEntries (dfld d 8 1) (taken k d s) = [] →
    exec (.readLog k d) s = .next (complete k (nextIndex k s) { status := stOk, result := 0 } (taken k d s))) ∧
  (∀ (k : Nat) (d : Desc) (s : State), Offers k d 0x03 (usedBits [(8, 8), (16, 4), (20, 4)])
      [(2, decide (1 ≤ dContext d)), (16, decide (64 ≤ dfld d 16 4 ∧ dfld d 16 4 ≤ 8192) && dfld d 16 4 % 64 == 0)] s →
    exec (.loadContext k d) s = .next (fetchFor k (nextIndex k s) (dfld d 8 8) (dfld d 16 4) (taken k d s))) ∧
  (∀ (k : Nat) (d : Desc) (s : State), Offers k d 0x04 (usedBits [(8, 8), (16, 4), (20, 4), (24, 1), (25, 1), (28, 4)])
      [(16, decide (dfld d 16 4 + dfld d 20 4 ≤ 262144)), (20, decide (1 ≤ dfld d 20 4)), (24, decide (dfld d 24 1 < 2)),
       (25, decide (dfld d 25 1 < 2))] s → dfld d 24 1 ≠ activeBank s →
    exec (.loadBeamTable k d) s = .next (fetchFor k (nextIndex k s) (dfld d 8 8) (8 * dfld d 20 4) (taken k d s))) ∧
  (∀ (k : Nat) (d : Desc) (s : State), Offers k d 0x05 (usedBits [(8, 8), (16, 4), (20, 4)]) [] s →
    (modeOf s = 3 ∨ modeOf s = 7) → s.dose.layer = none →
    exec (.setGeometry k d) s = .next (fetchFor k (nextIndex k s) (dfld d 8 8) (dfld d 16 4) (taken k d s))) ∧
  (∀ (k : Nat) (d : Desc) (s : State), Offers k d 0x09 (usedBits [(8, 4)]) [] s → dfld d 8 4 < 128 → s.thm.run = none →
    exec (.calRequest k d) s =
      .next (finish k (nextIndex k s) stOk 0 (each (onesOf 7 (dfld d 8 4)) (fun x s => calDue x 3 s) (taken k d s)))) ∧
  (∀ (k : Nat) (d : Desc) (s : State), Offers k d 0x0A (usedBits [(8, 8), (16, 4)]) [] s → modeOf s = 2 →
    rdf R.CTL_LOADER 0 3 s = 1 → exec (.loadFirmware k d) s = .next (loadImage k (nextIndex k s) d (taken k d s))) ∧
  (∀ (k : Nat) (d : Desc) (s : State), Offers k d 0x0B (usedBits [(8, 8), (16, 4)]) [] s →
    (dfld d 16 4 = 0 → exec (.policySet k d) s = .next (finish k (nextIndex k s) stOk 0 (taken k d s))) ∧
    (dfld d 16 4 ≠ 0 → exec (.policySet k d) s =
      .next (startXfer k (nextIndex k s) (dfld d 8 8) (dfld d 16 4) false [] (taken k d s)))) ∧
  (∀ (k : Nat) (d : Desc) (s : State), Offers k d 0x0D (usedBits [(8, 1), (12, 4), (16, 8), (24, 4)]) [(8, decide (dfld d 8 1 < 16))] s →
    camMode s = true → 16 ≤ dfld d 24 4 → dfld d 24 4 ≤ 16384 →
    exec (.camProgram k d) s = .next (startXfer k (nextIndex k s) (dfld d 16 8) (dfld d 24 4) false [] (taken k d s)))

/-- An OP_SET_MODE that passes the common checks: while a transition runs it is refused with reason 9; HOLD asked for in
READY, BUILD or SERVICE sets the hold cause of the host and completes OK; READY asked for in HOLD with a cause set is
refused with reason 12; SERVICE asked for in READY with every axis still enters SERVICE; from BRINGUP no other mode can be
asked for (reason 10). (R20, R22, R23, R25, R26, R28) -/
def Obligations.ModeRequests : Prop :=
  ∀ (k : Nat) (d : Desc) (u : UsageIn) (s : State), Offers k d 0x02 (usedBits [(8, 1)]) [(8, decide (dfld d 8 1 ≤ 7))] s →
    modeOf s ≠ 5 →
    ((rdb R.CTL_MODE 31 s = true ∨ s.ctl.request.isSome = true) →
      exec (.setMode k d u) s = .next (finish k (nextIndex k s) stRefused 9 (taken k d s))) ∧
    (rdb R.CTL_MODE 31 s = false → s.ctl.request = none →
      ((modeOf s = 3 ∨ modeOf s = 4 ∨ modeOf s = 7) → dfld d 8 1 = 6 →
        exec (.setMode k d u) s = .next (finish k (nextIndex k s) stOk 0 (holdCause 16 (taken k d s)))) ∧
      (modeOf s = 6 → dfld d 8 1 = 3 → rd R.CTL_HOLD_CAUSE s ≠ 0 →
        exec (.setMode k d u) s = .next (finish k (nextIndex k s) stRefused 12 (taken k d s))) ∧
      (modeOf s = 3 → dfld d 8 1 = 7 → axesStill s = true →
        exec (.setMode k d u) s = .next (finish k (nextIndex k s) stOk 0 (changeMode 7 0 false (taken k d s)))) ∧
      (modeOf s = 2 → dfld d 8 1 ≠ 2 →
        exec (.setMode k d u) s = .next (finish k (nextIndex k s) stRefused 10 (taken k d s))))

/-- An OP_MOVE or OP_HOME that passes the common checks and that no rule refuses adds its entry at the end of the axis's
queue, completes OK, and starts the entry where the axis may. A refused one completes with the status and reason that the
first failing check gives and queues nothing. (R294, R297, R299, R317) -/
def Obligations.MotionOpcodes : Prop :=
  (∀ (k : Nat) (d : Desc) (s : State), Offers k d 0x08 (usedBits [(8, 1), (9, 1), (16, 8), (24, 4), (28, 4), (32, 4)])
      [(8, decide (dfld d 8 1 ≤ 5)), (9, decide (dfld d 9 1 ≤ 1)), (16, decide (sext 64 (dfld d 16 8) = sext 48 (dfld d 16 8)))] s →
    dfld d 9 1 = 0 →
    (moveRefusal (dfld d 8 1) true false (sext 48 (dfld d 16 8)) none (taken k d s) = none → exec (.move k d) s =
      .next (startEntry (dfld d 8 1) (finish k (nextIndex k s) stOk 0 (setQueue (dfld d 8 1)
        ((axisOf s (dfld d 8 1)).queue ++
          [{ home := false, cookie := dCookie d, target := sext 48 (dfld d 16 8), vmax := dfld d 24 4,
             amax := dfld d 28 4, jmax := dfld d 32 4 }]) (taken k d s))))) ∧
    (∀ r, moveRefusal (dfld d 8 1) true false (sext 48 (dfld d 16 8)) none (taken k d s) = some r →
      exec (.move k d) s = .next (finish k (nextIndex k s) r.1 r.2 (taken k d s)))) ∧
  (∀ (k : Nat) (d : Desc) (rc : List Byte) (s : State), Offers k d 0x07 (usedBits [(8, 1), (9, 1)]) [(8, decide (dfld d 8 1 ≤ 5))] s →
    dfld d 9 1 < 16 → tget? s.ctl.homing (16 * dfld d 8 1 + dfld d 9 1) = some rc →
    moveRefusal (dfld d 8 1) true true 0 (some rc) (taken k d s) = none → exec (.home k d) s =
      .next (startEntry (dfld d 8 1) (finish k (nextIndex k s) stOk 0 (setQueue (dfld d 8 1)
        ((axisOf s (dfld d 8 1)).queue ++
          [{ home := true, cookie := dCookie d, target := 0, vmax := 0, amax := 0, jmax := 0,
             record := rc, recIndex := dfld d 9 1 }]) (taken k d s)))))

/-- An OP_TIME_CTRL that passes the common checks: SET and STEP are refused with reason 1 while the servo holds the time, and
act at once otherwise when no pass runs; SOURCE changes the source and completes with E; INCREMENT with the source MANUAL
writes TSY_INCREMENT and is refused with reason 2 otherwise; COMPARE arms the comparator it names; READ completes with E
and changes nothing else. (R417, R429) -/
def Obligations.TimeOpcodes : Prop :=
  (∀ (k : Nat) (d : Desc) (s : State), Offers k d 0x0E (usedBits [(8, 1), (16, 16)]) [(8, dfld d 8 1 == 1)] s → dfld d 8 1 = 1 →
    (timeHeld s = true → exec (.timeCtrlSet k d) s = .next (finish k (nextIndex k s) stRefused 1 (taken k d s))) ∧
    (timeHeld s = false → passRunning s = false → exec (.timeCtrlSet k d) s = .next (markPending (applyHostStep false
      { ring := k, index := nextIndex k s, isSet := true, value := dfld d 16 8 } (taken k d s))))) ∧
  (∀ (k : Nat) (d : Desc) (s : State), Offers k d 0x0E (usedBits [(8, 1), (16, 16)]) [(8, dfld d 8 1 == 2)] s → dfld d 8 1 = 2 →
    timeHeld s = false → passRunning s = false → exec (.timeCtrlStep k d) s = .next (markPending (applyHostStep false
      { ring := k, index := nextIndex k s, isSet := false, value := dfld d 16 8 } (taken k d s)))) ∧
  (∀ (k : Nat) (d : Desc) (s : State), Offers k d 0x0E (usedBits [(8, 1), (16, 16)])
      [(8, dfld d 8 1 == 3), (16, decide (dfld d 16 8 ≤ 4))] s → dfld d 8 1 = 3 →
    exec (.timeCtrlSource k d) s = .next (finishTime k (nextIndex k s) (changeSource (dfld d 16 8) (taken k d s)))) ∧
  (∀ (k : Nat) (d : Desc) (s : State), Offers k d 0x0E (usedBits [(8, 1), (16, 16)]) [(8, dfld d 8 1 == 4)] s → dfld d 8 1 = 4 →
    (tsySource s = 4 → exec (.timeCtrlIncrement k d) s =
      .next (finishTime k (nextIndex k s) (wr R.TSY_INCREMENT (bits 0 40 (dfld d 16 8)) (taken k d s)))) ∧
    (tsySource s ≠ 4 → exec (.timeCtrlIncrement k d) s = .next (finish k (nextIndex k s) stRefused 2 (taken k d s)))) ∧
  (∀ (k : Nat) (d : Desc) (s : State), Offers k d 0x0E (usedBits [(8, 1), (16, 16)]) [(8, dfld d 8 1 == 5)] s → dfld d 8 1 = 5 →
    exec (.timeCtrlCompare k d) s = .next (finishTime k (nextIndex k s) (armComparator (bits 32 2 (dfld d 24 8)) (dfld d 16 8)
      (bits 0 32 (dfld d 24 8)) (bit 34 (dfld d 24 8)) (taken k d s)))) ∧
  (∀ (k : Nat) (d : Desc) (s : State), Offers k d 0x0E (usedBits [(8, 1), (16, 16)]) [(8, dfld d 8 1 == 6)] s → dfld d 8 1 = 6 →
    exec (.timeCtrlRead k d) s = .next (complete k (nextIndex k s)
      { status := stOk, result := timeResult s.time.ns s.time.ns } (taken k d s)))

/-- An OP_LAYER_BEGIN that passes the common checks, with no layer open, a context that is valid for it and the thermal engine
on where it asks for it, opens the layer and completes OK. An OP_SWATH or OP_MEND_PASS of the open layer whose stream
header fits, whose lines lie in the stream and whose contexts are valid (and whose mend range passes its checks) becomes
an accepted pass. An OP_LAYER_END of the open layer waits for the layer boundary. (R109, R110, R111, R115, R283) -/
def Obligations.LayerOpcodes : Prop :=
  (∀ (k : Nat) (d : Desc) (s : State), Offers k d 0x20 (usedBits [(8, 4), (12, 1)])
      [(2, decide (1 ≤ dContext d)), (12, decide (dfld d 12 1 < 2))] s → s.dose.layer = none →
    (bit 0 (dfld d 12 1) = true → rdb R.THE_CTRL 0 s = true) → contextFault (bit 0 (dfld d 12 1)) (dContext d) (taken k d s) = none →
    exec (.layerBegin k d) s = .next (openLayer k (nextIndex k s) d (taken k d s))) ∧
  (∀ (k : Nat) (d : Desc) (hd : List Byte) (l : OpenLayer) (h : StreamHead) (s s' : State),
    Offers k d 0x21 (usedBits swathFields) (swathTests d) s → s.dose.layer = some l → dfld d 28 4 = l.number →
    readHead d hd (taken k d s) = (.ok h, s') → (passFor false k (nextIndex k s) d l h).count ≠ 0 →
    (passFor false k (nextIndex k s) d l h).first + (passFor false k (nextIndex k s) d l h).count ≤ h.lines →
    (∀ c ∈ (passFor false k (nextIndex k s) d l h).contexts, contextFault l.thermal c s' = none) →
    exec (.swath k d hd) s = .next (acceptPass (passFor false k (nextIndex k s) d l h) s')) ∧
  (∀ (k : Nat) (d : Desc) (hd : List Byte) (l : OpenLayer) (h : StreamHead) (s s' : State),
    Offers k d 0x23 (usedBits (swathFields ++ [(52, 4), (56, 4), (60, 2), (62, 1)])) (swathTests d ++ [(62, decide (dfld d 62 1 < 2))]) s →
    s.dose.layer = some l → dfld d 28 4 = l.number → readHead d hd (taken k d s) = (.ok h, s') →
    (passFor true k (nextIndex k s) d l h).count ≠ 0 →
    (passFor true k (nextIndex k s) d l h).first + (passFor true k (nextIndex k s) d l h).count ≤ h.lines →
    (∀ c ∈ (passFor true k (nextIndex k s) d l h).contexts, contextFault l.thermal c s' = none) →
    mendFault (passFor true k (nextIndex k s) d l h) s' = none →
    exec (.mendPass k d hd) s = .next (acceptPass (passFor true k (nextIndex k s) d l h) s')) ∧
  (∀ (k : Nat) (d : Desc) (l : OpenLayer) (s : State), Offers k d 0x22 (usedBits [(8, 4)]) [] s → s.dose.layer = some l →
    dfld d 8 4 = l.number → exec (.layerEnd k d) s = .next { taken k d s with dose := { (taken k d s).dose with
      boundary := some (k, nextIndex k s) } })

/-- OP_CRC, OP_COMPRESS, OP_DECOMPRESS, OP_FILL, OP_COPY and OP_SCRUB descriptors that pass the common checks become jobs that
start as engines are free; UTILITY_JOB_DONE of a started job without a host side runs its rule and lets waiting jobs
start; an OP_UPLOAD_BUFFER that passes the checks is filled with what its stream has staged; the timeout of a buffer that
has taken a record closes it. (R401, R402, R403, R405, R69, R68) -/
def Obligations.UtilityOpcodes : Prop :=
  (∀ (k : Nat) (d : Desc) (s : State), Offers k d 0x40
      (usedBits [(8, 8), (16, 1), (17, 1), (18, 1), (19, 1), (20, 8), (28, 8), (36, 8), (44, 8), (52, 8)])
      [(16, decide (dfld d 16 1 < 3)), (17, decide (dfld d 17 1 < 2)), (18, decide (1 ≤ dfld d 18 1 ∧ dfld d 18 1 ≤ 64)),
       (19, decide (dfld d 19 1 < 4)), (44, decide (1 ≤ dfld d 44 8 ∧ dfld d 44 8 ≤ 2 ^ 40))] s →
    exec (.crcJob k d) s = .next (takeJob k (nextIndex k s) (taken k d s))) ∧
  (∀ (k : Nat) (d : Desc) (s : State), Offers k d 0x41
      (usedBits [(8, 8), (16, 1), (17, 1), (18, 2), (20, 4), (24, 8), (32, 8), (40, 8), (48, 4)])
      [(16, decide (dfld d 16 1 < 2)), (17, decide (dfld d 17 1 < 4)), (18, decide (1 ≤ dfld d 18 2 ∧ dfld d 18 2 ≤ 512)),
       (20, decide (1 ≤ dfld d 20 4 ∧ dfld d 20 4 ≤ 2 ^ 31)), (48, decide (dfld d 48 4 ≤ 4096))] s →
    exec (.compress k d) s = .next (takeJob k (nextIndex k s) (taken k d s))) ∧
  (∀ (k : Nat) (d : Desc) (s : State), Offers k d 0x42 (usedBits [(8, 8), (16, 8), (24, 8), (32, 4), (36, 4)]) [] s →
    exec (.decompress k d) s = .next (takeJob k (nextIndex k s) (taken k d s))) ∧
  (∀ (k : Nat) (d : Desc) (s : State), Offers k d 0x43 (usedBits [(8, 8), (16, 1), (24, 8), (32, 8)])
      [(8, !(dfld d 16 1 == 0) || dfld d 8 8 % 64 == 0), (16, decide (dfld d 16 1 < 2)), (24, !(dfld d 16 1 == 0) || dfld d 24 8 % 64 == 0)] s →
    exec (.fill k d) s = .next (takeJob k (nextIndex k s) (taken k d s))) ∧
  (∀ (k : Nat) (d : Desc) (s : State), Offers k d 0x44 (usedBits [(8, 8), (16, 8), (24, 1), (25, 1), (26, 1), (32, 8)])
      [(8, dfld d 8 8 % swapUnit (dfld d 26 1) == 0), (16, dfld d 16 8 % swapUnit (dfld d 26 1) == 0),
       (24, decide (dfld d 24 1 < 2) && !(dfld d 24 1 == 1 && dfld d 25 1 == 1)), (25, decide (dfld d 25 1 < 2)),
       (26, decide (dfld d 26 1 < 4)), (32, dfld d 32 8 % swapUnit (dfld d 26 1) == 0)] s →
    exec (.copy k d) s = .next (takeJob k (nextIndex k s) (taken k d s))) ∧
  (∀ (k : Nat) (d : Desc) (s : State), Offers k d 0x45 (usedBits [(8, 8), (16, 8)]) [(8, dfld d 8 8 % 64 == 0), (16, dfld d 16 8 % 64 == 0)] s →
    exec (.scrub k d) s = .next (takeJob k (nextIndex k s) (taken k d s))) ∧
  (∀ (k i : Nat) (j : Job) (s : State), findJob k i s = some j → ringType s k = tyUtility → j.started = true → j.cpl = none →
    hostSide j.desc = false → exec (.utilityJobDone k i) s = .next (pumpUtility 64 (runJob k j s))) ∧
  (∀ (k : Nat) (d : Desc) (s : State), Offers k d 0x60 (usedBits [(8, 8), (16, 4), (20, 1)])
      [(16, decide (4096 ≤ dfld d 16 4 ∧ dfld d 16 4 ≤ 16777216) && dfld d 16 4 % 64 == 0), (20, decide (dfld d 20 1 < 8))] s →
    exec (.uploadBuffer k d) s = .next (pumpStream (dfld d 20 1) ((streamOf s (dfld d 20 1)).staged.length + 2) (taken k d s))) ∧
  (∀ (n k : Nat) (j : Job) (s : State), waitingBuffer n s = some (k, j) → j.phase ≠ 0 →
    exec (.uploadBufferTimeout n) s = .next (closeBuffer k j s))

/-- For every mode m that the module is in and every mode asked for, with no transition running: if the pair is no OP_SET_MODE
row of the transition table (HOLD, which the host reaches by setting its hold cause, counts as a row of READY, BUILD,
CALIBRATE and SERVICE) and differs from the current mode, the request is refused with reason 10 (BAD_MODE), the mode
registers and every event's pending bit and count stay as they are. A request for the current mode completes OK, with the
mode registers and every pending bit and count as they are. In CALIBRATE entered from READY the read of the descriptor
ends the gap (R480), so the mode then is READY; that case is left to the rows of READY. (R23) -/
def Obligations.BadModeRefused : Prop :=
  ∀ (k : Nat) (d : Desc) (u : UsageIn) (s : State), Offers k d 0x02 (usedBits [(8, 1)]) [(8, decide (dfld d 8 1 ≤ 7))] s →
    rdb R.CTL_MODE 31 s = false → s.ctl.request = none → (modeOf s = 5 → s.ctl.calFrom ≠ 3) →
    (dfld d 8 1 ≠ modeOf s →
      (modeOf s, dfld d 8 1) ∉ [(3, 4), (3, 1), (3, 7), (6, 7), (4, 3), (6, 3), (7, 3), (1, 3), (3, 6), (4, 6), (5, 6), (7, 6)] →
      ∃ t, exec (.setMode k d u) s = .next t ∧ t = finish k (nextIndex k s) stRefused 10 (taken k d s) ∧
        rd R.CTL_MODE t = rd R.CTL_MODE s ∧ ∀ j, j < 256 → rd R.EVT_PENDING t (j / 32) = rd R.EVT_PENDING s (j / 32) ∧
          rd R.EVT_COUNT t j = rd R.EVT_COUNT s j) ∧
    (dfld d 8 1 = modeOf s →
      ∃ t, exec (.setMode k d u) s = .next t ∧ t = finish k (nextIndex k s) stOk 0 (taken k d s) ∧
        rd R.CTL_MODE t = rd R.CTL_MODE s ∧ ∀ j, j < 256 → rd R.EVT_PENDING t (j / 32) = rd R.EVT_PENDING s (j / 32) ∧
          rd R.EVT_COUNT t j = rd R.EVT_COUNT s j)

/-- Where ring k holds no open descriptor and reads d, a completion of d with status st and reason re writes one completion
entry into the slot of d's index and then the ring's status entry, in this order, frees the descriptor, and advances the
consumer index past it; the entry carries the status, the reason, the opcode and the descriptor's cookie. The ring is
ACTIVE, the module may send to the host, the descriptor asks for no interrupt, and the consumer index stood at d. (R43,
R55, R57) -/
def Obligations.CompletionOfANewDescriptor : Prop :=
  ∀ (k st re : Nat) (d : Desc) (s : State), k < 32 → (ringInt s k).jobs = [] → ringState s k = 2 → dIrq d = false → s.host.busMaster = true →
    rd R.HIF_RING_CONS s k = nextIndex k s → nextIndex k s < 2 ^ 32 → st < 256 → re < 256 →
    ∃ (e f : Entry) (t : State), finish k (nextIndex k s) st re (taken k d s) = t ∧
      t.out = .status k (rd R.HIF_STATUS_BASE s / 4096 * 4096 + 32 * k) f ::
        .completion k (rd R.HIF_RING_CPL_BASE s k + 32 * (nextIndex k s % 2 ^ ringLog2 s k)) e :: s.out ∧
      bits 0 8 e.toNat = st ∧ bits 8 8 e.toNat = re ∧ bits 16 8 e.toNat = dOpcode d ∧ bits 32 32 e.toNat = dCookie d ∧
      (ringInt t k).jobs = [] ∧ rd R.HIF_RING_CONS t k = (nextIndex k s + 1) % 2 ^ 32

/-- RING_ENABLE of a DISABLED ring whose configuration breaks R49 or R50 leaves the ring in state ERROR with cause 4 (CONFIG)
in HIF_RING_STATE. RING_ENABLE of a ring that is not DISABLED changes nothing. (R53) -/
def Obligations.BadEnableIsConfigError : Prop :=
  ∀ (k : Nat) (v : Option Word32) (s : State), k < 32 →
    (ringState s k = 0 → ringConfigOk k s = false → ∃ t, exec (.ringEnable k v) s = .next t ∧ ringState t k = 4 ∧
      rdf R.HIF_RING_STATE 8 8 t k = 4) ∧
    (ringState s k ≠ 0 → exec (.ringEnable k v) s = .next s)

/-- PCIE_ERROR with uncorrectable bits u and correctable bits c adds them to the AER status and posts event 4, EV_PCIE_ERROR,
whose detail bytes 0 to 3 are the uncorrectable and bytes 4 to 7 the correctable status bits as they then stand; the
event's pending bit shows, also where the error puts a ring into ERROR. (R46) -/
def Obligations.PcieErrorReported : Prop :=
  ∀ (u c : Word32) (r : Option Nat) (s : State), ∃ (sev : Nat) (p v : State), exec (.pcieError u c r) s = .next (structError r p) ∧
    v.host.aerUncorrectable = s.host.aerUncorrectable ||| u.toNat ∧ v.host.aerCorrectable = s.host.aerCorrectable ||| c.toNat ∧
    p = postEvent 4 0 sev 0 [(0, 4, ((v.host.aerUncorrectable : Nat) : Int)), (4, 4, ((v.host.aerCorrectable : Nat) : Int))] v ∧
    v = { s with host := v.host } ∧ EventShows 4 p ∧ EventShows 4 (structError r p)

/-- In READY, BUILD, CALIBRATE and SERVICE the firmware's hold request, the loss of the beam permit, the opening of the first
E-stop channel and the expiry of the supply hold enter HOLD, in transition, with the bit of their cause set. In STANDBY,
BRINGUP and HOLD the hold request sets its bit and changes nothing else. HOLD_CAUSE_CLEAR with a 1 in one bit clears
exactly that bit where its clearing condition holds and the writer may clear it (with the bits of a sensor or a port, also
the module's note of which set it), and changes nothing otherwise. (R26, R27, R28, R31, R38, R440, R493, R507) -/
def Obligations.HoldCausesEnterHold : Prop :=
  (∀ s : State, modeOf s = 3 ∨ modeOf s = 4 ∨ modeOf s = 5 ∨ modeOf s = 7 →
    (∃ t, exec .ctlHoldReq s = .next t ∧ modeOf t = 6 ∧ rdb R.CTL_MODE 31 t = true ∧ rdb R.CTL_HOLD_CAUSE 15 t = true) ∧
    (s.ctl.permit = true → ∃ t, exec (.beamPermitChange false) s = .next t ∧ modeOf t = 6 ∧ rdb R.CTL_MODE 31 t = true ∧
      rdb R.CTL_HOLD_CAUSE 2 t = true) ∧
    (s.ctl.estopOpen = [] → s.ctl.estopDisc = false → ∀ c, c < 2 → ∃ t, exec (.estopOpen c) s = .next t ∧ modeOf t = 6 ∧
      rdb R.CTL_MODE 31 t = true ∧ rdb R.CTL_HOLD_CAUSE 0 t = true) ∧
    (s.pwr.dip.isSome = true → s.pwr.holdDone = false → ∃ t, exec .supplyHoldExpiry s = .next t ∧ modeOf t = 6 ∧
      rdb R.CTL_MODE 31 t = true ∧ rdb R.CTL_HOLD_CAUSE 8 t = true)) ∧
  (∀ s : State, modeOf s = 1 ∨ modeOf s = 2 ∨ modeOf s = 6 → exec .ctlHoldReq s = .next (wrb R.CTL_HOLD_CAUSE 15 true s)) ∧
  (∀ (fw : Bool) (n : Nat) (v : Word32) (s : State), n < 17 → v.toNat = 2 ^ n →
    (clearable n s = true → (fw = true → 2 < n) → ∃ t, exec (.holdCauseClear fw v) s = .next t ∧
      t.regs = (wrb R.CTL_HOLD_CAUSE n false s).regs ∧ (n ≠ 4 → n ≠ 9 → t = wrb R.CTL_HOLD_CAUSE n false s)) ∧
    ((clearable n s = false ∨ fw = true ∧ n ≤ 2) → exec (.holdCauseClear fw v) s = .next s))

/-- HOLD_STANDSTILL in HOLD in transition with every axis still ends the transition and leaves the axes and the dose path.
READY_ENTRY_AT_REST of a request for READY out of BUILD with no pass enters READY, and leaves the axes where no time step
waits. CTL_BRINGUP_DONE_WRITE by the running firmware, with no reset, no training, no cause and every input good, enters
READY. BRINGUP_DONE_TIMEOUT enters HOLD with cause 15. (R20, R24, R28, R31, R497) -/
def Obligations.ModeEntries : Prop :=
  (∀ (u : UsageIn) (s : State), modeOf s = 6 → rdb R.CTL_MODE 31 s = true → axesStill s = true →
    ∃ t, exec (.holdStandstill u) s = .next t ∧ modeOf t = 6 ∧ rdb R.CTL_MODE 31 t = false ∧ t.mot = s.mot ∧ t.dose = s.dose) ∧
  (∀ (q : ModeRequest) (s : State), s.ctl.request = some q → q.target = 3 → modeOf s = 4 → curPass s = none → atRest 0 s = true →
    atRest 1 s = true → ∃ t, exec .readyEntryAtRest s = .next t ∧ modeOf t = 3 ∧ rdb R.CTL_MODE 31 t = false ∧
      (s.time.pendServo = none → s.time.pendHost = [] → t.mot = s.mot)) ∧
  (∀ s : State, rdf R.CTL_LOADER 0 3 s = 4 → modeOf s = 2 → s.pwr.due = none → s.pwr.asserted = [] → s.mem.training = [] →
    s.ctl.estopOpen = [] → s.ctl.estopDisc = false → s.ctl.permit = true → s.ctl.coolant = true → rd R.CTL_HOLD_CAUSE s = 0 →
    ∃ t, exec .ctlBringupDoneWrite s = .next t ∧ modeOf t = 3 ∧ rdb R.CTL_MODE 31 t = false ∧ rd R.CTL_HOLD_CAUSE t = 0) ∧
  (∀ s : State, modeOf s = 2 → rdf R.CTL_LOADER 0 3 s = 4 → rdb R.CTL_BRINGUP_DONE 0 s = false →
    ∃ t, exec .bringupDoneTimeout s = .next t ∧ modeOf t = 6 ∧ rdb R.CTL_HOLD_CAUSE 15 t = true)

/-- A source from 0 to 9 that is not yet asserted asserts (Asserts): by RESET_ASSERT, by a hot reset or a link-down of the
host interface, by the held machine reset input while the I/O supply is present, by the watchdog's expiry while it is
enabled, by a halt of the control core, by the debug reset under an unlock, by a keyed write to RST_CMD at a level it
allows, by a brownout, by a rail fault of rails 3 to 9, and by the thermal trip, which also switches the rails off. BULK
or BUS under its window is a brownout. (R435, R442, R444, R445, R446, R447, R448, R449, R451, R454, R509) -/
def Obligations.ResetSourcesAssert : Prop :=
  (∀ (k : Nat) (s : State), k ≤ 9 → s.pwr.asserted.contains k = false → k ≠ 4 → ∃ t, exec (.resetAssert k) s = .next t ∧ Asserts k s t) ∧
  (∀ s : State, s.pwr.asserted.contains 4 = false →
    (∃ t, exec .pcieHotReset s = .next t ∧ exec (.resetAssert 4) s = .next t ∧ Asserts 4 (hostReset s) t) ∧
    (∃ t, exec .pcieLinkDown s = .next t ∧ Asserts 4 (hostReset { s with host := { s.host with linkUp := false } }) t)) ∧
  (∀ s : State, s.pwr.asserted.contains 2 = false → s.ctl.pin.ioPresent = true → ∃ t, exec .resetPinHold s = .next t ∧ Asserts 2 s t) ∧
  (∀ s : State, s.pwr.asserted.contains 5 = false →
    (wdogOn s = true → ∃ t, exec .watchdogExpiry s = .next t ∧ Asserts 5 s t) ∧
    (∃ t, exec (.coreHalt false) s = .next t ∧ Asserts 5 s t)) ∧
  (∀ s : State, rdb R.DBG_STATUS 0 s = true → rdb R.DBG_STATUS 6 s = true →
    (s.pwr.asserted.contains 8 = false → ∃ t, exec .dbgReset s = .next t ∧ Asserts 8 s t) ∧
    exec (.coreHalt true) s = .next (holdCause 15 s)) ∧
  (∀ (v : Word32) (s : State), bits 8 8 v.toNat = 0xA5 → bits 0 2 v.toNat < 3 → rdf R.RST_REACH 14 2 s ≤ bits 0 2 v.toNat →
    s.pwr.asserted.contains 7 = false → ∃ t, exec (.rstCmd v) s = .next t ∧
      Asserts 7 { s with pwr := { s.pwr with hostLevel := bits 0 2 v.toNat } } t) ∧
  (∀ (v : Word32) (s : State), bits 8 8 v.toNat ≠ 0xA5 → exec (.rstCmd v) s = .next (wr R.RST_CMD_STATUS 2 s)) ∧
  (∀ (bulk bus : Nat) (s : State), bulk < 2400 ∨ bus < 10800 → s.pwr.asserted.contains 1 = false → s.pwr.railsOff = false →
    ∃ t, exec (.brownoutAssert bulk bus) s = .next t ∧ Asserts 1 s t) ∧
  (∀ (rail cause mv : Nat) (s : State), 3 ≤ rail → rail < 10 → cause = 1 ∨ cause = 2 → s.pwr.railsOff = false →
    s.pwr.asserted.contains 0 = false → ∃ t, exec (.railFault rail cause mv) s = .next t ∧ Asserts 0 s t) ∧
  (∀ (rail mv : Nat) (s : State), rail < 2 → s.pwr.railsOff = false → exec (.railFault rail 1 mv) s =
    exec (.brownoutAssert (if rail = 0 then mv else 3900) (if rail = 0 then 12000 else mv)) s) ∧
  (∀ s : State, s.pwr.asserted.contains 9 = false → ∃ t, exec .thermtrip s = .next t ∧
    Asserts 9 { s with pwr := { s.pwr with railsOff := true } } t)

/-- A release of the sources in a mask, with a release due at level l, the rails on and no other asserted source of that
reach, runs the steps of level l in order; the bezel's release is the one of its own source. A release with none due only
takes the sources off. The end of a thermal trip and of a brownout with the rails off, and power-up, bring the power stage
up. DORMANT_ENTRY under a brownout leaves mode 0, the rails off and nothing of the time, the dose path or DRAM. (R436,
R442, R443, R448, R450, R451, R491) -/
def Obligations.ReleasesRun : Prop :=
  (∀ (m : Nat) (inp : ReleaseIn) (l : Nat) (s : State), s.pwr.due = some l → s.pwr.railsOff = false → s.pwr.step = 0 →
    (∀ k ∈ s.pwr.asserted, bit k m = false → l < reachOf k s) → exec (.resetRelease m inp) s =
      .next (runRelease l (stepsOf l) { s with pwr := { s.pwr with asserted := s.pwr.asserted.filter (fun k => !bit k m), input := inp } })) ∧
  (∀ (m : Nat) (inp : ReleaseIn) (s : State), s.pwr.due = none → exec (.resetRelease m inp) s =
      .next { s with pwr := { s.pwr with asserted := s.pwr.asserted.filter (fun k => !bit k m), input := inp } }) ∧
  (∀ (inp : ReleaseIn) (s : State), exec (.bezelResetRelease inp) s = exec (.resetRelease 64 inp) s ∧ ∃ t, exec (.bezelResetRelease inp) s = .next t) ∧
  (∀ (inp : ReleaseIn) (s : State), s.pwr.asserted.contains 9 = true → (releaseSources (2 ^ 9) inp s).pwr.asserted.contains 1 = false →
    exec (.thermtripCool inp) s = .next (powerUp false false inp (releaseSources (2 ^ 9) inp s))) ∧
  (∀ (bulk bus : Nat) (inp : ReleaseIn) (s : State), 3300 < bulk → 11400 < bus → s.pwr.asserted.contains 1 = true →
    (releaseSources 2 inp (supplyReading bulk bus s)).pwr.railsOff = false →
    exec (.brownoutRelease bulk bus inp) s = .next (releaseSources 2 inp (supplyReading bulk bus s))) ∧
  (∀ (inp : ReleaseIn) (s : State), s.pwr.railsOff = true → s.pwr.asserted.contains 9 = false →
    exec (.powerUp false false inp) s = .next (releaseSources 1 inp (assertSource 0
      { s with pwr := { s.pwr with backupLost := false, railsOff := false, dip := none } }))) ∧
  (∀ s : State, s.pwr.asserted.contains 1 = true → modeOf s ≠ 0 → ∃ t, exec .dormantEntry s = .next t ∧ modeOf t = 0 ∧
    t.pwr.railsOff = true ∧ t.time = {} ∧ t.dose = {} ∧ t.mem.dram = [] ∧ t.mem.sram = [])

/-- MAINS_LOSS and the third valid half-cycle after it set and clear PWR_STATUS.mains_ok and post EV_MAINS_LOSS; a half-cycle
of present mains only shows its voltage and frequency. SUPPLY_WARN at or below 300 V shows WARN, takes the readings and
posts EV_SUPPLY_WARN; the first of a dip then acts on the mode. SUPPLY_WARN_EXIT at or above 310 V ends WARN and begins
the settling; SUPPLY_RECOVER ends the dip and lets what waited start. BACKUP_CELL_CHECK takes the reading and posts event
23 below the limit. (R33, R437, R440, R441, R456, R461, R463) -/
def Obligations.SupplyCommands : Prop :=
  (∀ s : State, s.pwr.lost = false → ∃ t, exec .mainsLoss s = .next t ∧ t.pwr.lost = true ∧ t.pwr.lossTt = ttNow s ∧
    rdb R.PWR_STATUS 0 t = false ∧ EventShows 19 t ∧ t.dose = s.dose ∧ t.mot = s.mot) ∧
  (∀ (rms freq : Nat) (s : State), s.pwr.lost = false → exec (.mainsHalfCycle rms freq) s =
    .next (wr R.PWR_MAINS (rms % 65536 + 2 ^ 16 * (freq % 1024)) { s with pwr := { s.pwr with lastPeak := s.time.ns } })) ∧
  (∀ (rms freq : Nat) (s : State), s.pwr.lost = true → 2 ≤ s.pwr.validRun → 2 * (s.time.ns - s.pwr.runPeak) ≤ 3 * halfPeriod freq →
    ∃ t, exec (.mainsHalfCycle rms freq) s = .next t ∧ t.pwr.lost = false ∧ rdb R.PWR_STATUS 0 t = true ∧ EventShows 19 t ∧
      rd R.PWR_MAINS t = rms % 65536 + 2 ^ 16 * (freq % 1024)) ∧
  (∀ (bulk bus : Nat) (s : State), rdb R.PWR_STATUS 1 s = false → bulk ≤ 3000 → s.pwr.asserted.contains 1 = false →
    s.pwr.railsOff = false → ∃ u, exec (.supplyWarn bulk bus) s = .next (if s.pwr.dip.isNone then warnActs u else u) ∧
      u.pwr.dip.isSome = true ∧ rdb R.PWR_STATUS 1 u = true ∧ rdb R.PWR_STATUS 2 u = false ∧ rd R.PWR_BULK u = bulk ∧ EventShows 17 u ∧
      modeOf u = modeOf s ∧ u.dose = s.dose) ∧
  (∀ (bulk bus : Nat) (s : State), rdb R.PWR_STATUS 1 s = true → 3100 ≤ bulk → exec (.supplyWarnExit bulk bus) s =
    .next (wrb R.PWR_STATUS 2 true (wrb R.PWR_STATUS 1 false (supplyReading bulk bus s)))) ∧
  (∀ (bulk bus t0 : Nat) (s : State), s.pwr.dip = some t0 → rdb R.PWR_STATUS 2 s = true →
    ∃ u t, exec (.supplyRecover bulk bus) s = .next t ∧ (t = startAll u ∨ ∃ p, t = turnFor p (startAll u)) ∧ u.pwr.dip = none ∧
      rdb R.PWR_STATUS 2 u = false ∧ u.dose.plc.noStart = false ∧ EventShows 18 u) ∧
  (∀ (mv : Nat) (s : State), ∃ t, exec (.backupCellCheck mv) s = .next t ∧ rd R.PWR_BACKUP t = mv % 65536 ∧
    (mv < rd R.PWR_BACKUP_LOW s → EventShows 23 t) ∧ t.dose = s.dose)

/-- WATCHDOG_KICK begins the period again. WATCHDOG_HALF of an enabled watchdog posts EV_WATCHDOG once per period.
RESET_PIN_PULSE counts as a reset pulse only with both E-stop channels closed. A write to RST_BLOCK with a wrong key or
block is refused with code 2, during a release with code 3, of a busy block with code 1; else the block returns to reset
and the status is 0. A failing first or second fuse load only counts the attempt and keeps its CRC; a passing load takes
the fuses. (R26, R445, R447, R452, R457, R517) -/
def Obligations.WatchdogAndBlockReset : Prop :=
  (∀ s : State, exec .watchdogKick s = .next { s with pwr := { s.pwr with wdogHalf := false } }) ∧
  (∀ s : State, wdogOn s = true → s.pwr.wdogHalf = false → ∃ t, exec .watchdogHalf s = .next t ∧ t.pwr.wdogHalf = true ∧
    EventShows 231 t ∧ t.dose = s.dose ∧ t.mem = s.mem) ∧
  (∀ s : State, (s.ctl.estopOpen = [] → s.ctl.estopDisc = false → exec .resetPinPulse s =
      .next { s with ctl := { s.ctl with estopReset := true } }) ∧
    (s.ctl.estopOpen ≠ [] ∨ s.ctl.estopDisc = true → exec .resetPinPulse s = .next s)) ∧
  (∀ (v : Word32) (s : State),
    (bits 8 8 v.toNat ≠ 0xA5 ∨ 18 < bits 0 5 v.toNat →
      exec (.rstBlock v) s = .next (wr R.RST_BLOCK_STATUS (2 + 2 ^ 8 * bits 0 5 v.toNat) s)) ∧
    (bits 8 8 v.toNat = 0xA5 → bits 0 5 v.toNat ≤ 18 →
      (s.pwr.due.isSome = true → exec (.rstBlock v) s = .next (wr R.RST_BLOCK_STATUS (3 + 2 ^ 8 * bits 0 5 v.toNat) s)) ∧
      (s.pwr.due = none → blockBusy (bits 0 5 v.toNat) s = true →
        exec (.rstBlock v) s = .next (wr R.RST_BLOCK_STATUS (1 + 2 ^ 8 * bits 0 5 v.toNat) s)) ∧
      (s.pwr.due = none → blockBusy (bits 0 5 v.toNat) s = false →
        exec (.rstBlock v) s = .next (wr R.RST_BLOCK_STATUS (2 ^ 8 * bits 0 5 v.toNat) (blockReset (bits 0 5 v.toNat) s))))) ∧
  (∀ (f : FuseIn) (s : State), rdf R.FUS_STATUS 0 2 s = 0 → s.pwr.due = none →
    (f.ok = false → rdf R.FUS_STATUS 2 2 s < 2 → exec (.fuseLoadAttempt f) s =
      .next (wr R.FUS_CRC f.crc (wrf R.FUS_STATUS 2 2 (rdf R.FUS_STATUS 2 2 s + 1) s))) ∧
    (f.ok = true → rdf R.FUS_STATUS 2 2 s = 0 → s.pwr.fuseCut = false → ∃ u, exec (.fuseLoadAttempt f) s = .next (loaderWaits u) ∧
      rdf R.FUS_STATUS 0 2 u = 1 ∧ rd R.FUS_FLAGS u = f.flags % 2 ^ 32 ∧ rd R.FUS_CRC u = f.crc % 2 ^ 32 ∧ u.dose = s.dose))

/-- SERVO_SAMPLE with source 1 or 3, stepping off, nothing pending and no holdover stores the offset, updates the adjustment
and judges the lock. SERVO_NO_SAMPLE in LOCKED enters HOLDOVER, still locked, with the adjustment held; HOLDOVER_EXPIRY
then leaves it for state 1, unlocked, with EV_TIME_UNLOCKED. TIME_SOURCE_CHANGE to another source selects it and starts in
the state of its kind. TT_WRAP reports a changed wrap count once. In the other states these change nothing. (R413, R415,
R416, R418, R432, R434) -/
def Obligations.ServoCommands : Prop :=
  (∀ (θ : Word) (s : State), tsySource s = 1 ∨ tsySource s = 3 → rdb R.TSY_CTRL 5 s = false → s.time.pendServo = none →
    s.time.pendHost = [] → tsyState s ≠ 3 → exec (.servoSample θ) s =
      .next (servoState θ.toInt (servoUpdate θ.toInt (wrI R.TSY_OFFSET θ.toInt s)))) ∧
  (∀ s : State, (tsyState s = 2 → ∃ t, exec .servoNoSample s = .next t ∧ t = holdAdj (setTsyState 3 s) ∧ tsyState t = 3 ∧
      rdb R.TSY_STATUS 3 t = true ∧ t.time = s.time) ∧
    (tsyState s ≠ 2 → exec .servoNoSample s = .next s)) ∧
  (∀ s : State, (tsyState s = 3 → ∃ t, exec .holdoverExpiry s = .next t ∧ tsyState t = 1 ∧ rdb R.TSY_STATUS 3 t = false ∧
      EventShows 209 t ∧ t.time.lockCount = 0) ∧
    (tsyState s ≠ 3 → exec .holdoverExpiry s = .next s)) ∧
  (∀ (v : Word32) (s : State), bits 0 3 v.toNat ≤ 4 → bits 0 3 v.toNat ≠ tsySource s → ∃ t, exec (.timeSourceChange v) s = .next t ∧
    tsySource t = bits 0 3 v.toNat ∧ tsyState t = (if bits 0 3 v.toNat = 0 then 0 else if bits 0 3 v.toNat = 4 then 4 else 1) ∧
      t.time.pendServo = none ∧ (tsyState s = 2 ∨ tsyState s = 3 → EventShows 209 t)) ∧
  (∀ s : State, (wrapCount s ≠ s.time.wrapSeen → ∃ t, exec .ttWrap s = .next t ∧ t.time.wrapSeen = wrapCount s ∧ EventShows 214 t) ∧
    (wrapCount s = s.time.wrapSeen → exec .ttWrap s = .next s))

/-- PPS_INPUT_EDGE shows PPS present and stores its stamp, and is a servo sample where PPS is the source. PPS_MISSING shows it
absent and posts EV_PPS_MISSING once where PPS is in use. TIME_COMPARE_FIRE of a one-shot comparator that is due posts its
event and disarms it. TIME_COMPARE_ARM sets the arm bit and takes drive_pps. WIDE_TIME_READ returns the nanoseconds and
latches the seconds. The PPS output pulse starts in its modes and ends. (R411, R425, R426, R427, R433) -/
def Obligations.TimeInputsAndOutputs : Prop :=
  (∀ s : State, tsySource s ≠ 2 → ∃ t, exec .ppsInputEdge s = .next t ∧ rdb R.TSY_STATUS 5 t = true ∧
    rd R.TSY_PPS_IN_TT t = (toBits 48 ((s.time.ns : Int) - sext 16 (rdf R.TSY_PPS_CFG 16 16 s)) * 65536 + s.time.frac / 65536) % 2 ^ 64 ∧
    t.time = { s.time with ppsMissPosted := false } ∧ t.out = s.out) ∧
  (∀ s : State, tsySource s = 2 → ∃ (θ : Int) (u : State), exec .ppsInputEdge s = .next (servoSample θ u) ∧ rdb R.TSY_STATUS 5 u = true ∧
    -500000000 * 65536 ≤ θ ∧ θ < 500000000 * 65536) ∧
  (∀ s : State, tsySource s = 2 ∨ rdb R.TSY_CTRL 8 s = true → s.time.ppsMissPosted = false → ∃ t, exec .ppsMissing s = .next t ∧
    rdb R.TSY_STATUS 5 t = false ∧ t.time.ppsMissPosted = true ∧ EventShows 213 t) ∧
  (∀ (c : Nat) (s : State), c < 4 →
    (comparatorDue c s = true → rd R.TSY_CMP_PERIOD s c = 0 → ∃ t, exec (.timeCompareFire c) s = .next t ∧ EventShows 212 t ∧
      rdb R.TSY_CMP_CTRL 0 t c = false) ∧
    (comparatorDue c s = false → exec (.timeCompareFire c) s = .next s)) ∧
  (∀ (c : Nat) (v : Word32) (s : State), c < 4 → exec (.timeCompareArm c v) s =
    .next (wr R.TSY_CMP_CTRL (rdf R.TSY_CMP_CTRL 0 1 s c ||| bits 0 2 v.toNat) s c)) ∧
  (∀ s : State, ∃ t, exec .wideTimeRead s = .next t ∧ t.out = .readData (regAddr R.TSY_WIDE_NS) (s.time.ns % 10 ^ 9) :: s.out ∧
    rd R.TSY_WIDE_SEC_LO t = s.time.ns / 10 ^ 9 % 2 ^ 32 ∧ rd R.TSY_WIDE_SEC_HI t = s.time.ns / 10 ^ 9 % 2 ^ 48 / 2 ^ 32 ∧ t.time = s.time) ∧
  (∀ s : State, (rdf R.TSY_CTRL 6 2 s = 1 ∨ rdf R.TSY_CTRL 6 2 s = 2 ∧ rdb R.TSY_STATUS 3 s = true) → rdb R.PIN_FAULT 22 s = false →
    exec .ppsOutputPulseStart s = .next (emit (.ppsOutput true (!rdb R.TSY_PPS_CFG 0 s)) { s with time := { s.time with ppsPulse := true } })) ∧
  (∀ s : State, s.time.ppsPulse = true → rdb R.PIN_FAULT 22 s = false →
    exec .ppsOutputPulseEnd s = .next (emit (.ppsOutput false (rdb R.TSY_PPS_CFG 0 s)) { s with time := { s.time with ppsPulse := false } }))

/-- A frame that is no PTP message on an enabled port is counted as discarded; a PTP message without the transparent clock is
counted and delivered to the firmware with its ingress stamp, and shows the port's module present and its link up; on a
disabled port nothing happens. A Sync sent without the transparent clock carries the egress stamp. SFP_CAGE_FAULT notes
the cause, makes the port FAULTY and posts EV_SYNC_PORT_FAULT; SFP_CAGE_FAULT_CLEAR gives the causes up, with no short's
supply off, and posts again for each; SFP_FAULT_CLEAR_DELAY makes a FAULTY port without a fault LISTEN. (R420, R422, R423,
R424, R431) -/
def Obligations.PtpPortCommands : Prop :=
  (∀ (p kind seq res : Nat) (isPtp : Bool) (corr : Word) (s : State), p < 2 →
    (rdb R.TSY_PORT_CFG 0 s p = false → exec (.ptpMessageRx p isPtp kind seq corr res) s = .next s) ∧
    (rdb R.TSY_PORT_CFG 0 s p = true → isPtp = false →
      exec (.ptpMessageRx p isPtp kind seq corr res) s = .next (bump R.TSY_PORT_DISCARDS 1 (satPort p 0x18) s p)) ∧
    (rdb R.TSY_PORT_CFG 0 s p = true → isPtp = true → kind ≠ 0xD →
      ∀ u : State, u = bump R.TSY_PORT_RX 1 (satPort p 0x10) (wrf R.TSY_PORT_STATE 8 2 3 s p) p → rdb R.TSY_CTRL 9 u = false →
        exec (.ptpMessageRx p isPtp kind seq corr res) s = .next (emit (.firmware kind seq
          (toBits 80 ((e32 u / 65536 : Int) - (rdf R.TSY_PORT_LAT 0 16 u p * 4096 : Nat)))) u))) ∧
  (∀ (p seq turn : Nat) (corr : Word) (s : State), p < 2 → rdb R.TSY_CTRL 9 s = false → rdb R.TSY_PORT_CFG 0 s p = true →
    exec (.ptpMessageTx p 0 seq corr turn) s = .next (sendPtp p 0 seq ((e32 s / 65536 + rdf R.TSY_PORT_LAT 16 16 s p * 4096) / 65536)
      (corr.toInt + ((e32 s / 65536 + rdf R.TSY_PORT_LAT 16 16 s p * 4096) % 65536 : Nat)) s)) ∧
  (∀ (p c : Nat) (s : State), p < 2 → 1 ≤ c → c ≤ 5 → ∃ t, exec (.sfpCageFault p c) s = .next t ∧ c ∈ tget [] t.time.cageFault p ∧
    rdf R.TSY_PORT_STATE 0 4 t p = 2 ∧ EventShows 247 t) ∧
  (∀ (p : Nat) (s : State), tget [] s.time.cageFault p ≠ [] → rdb R.TSY_PORT_STATE 10 s p = false → ∃ t, exec (.sfpCageFaultClear p) s = .next t ∧ EventShows 247 t ∧
    t.time.cageFault = terase s.time.cageFault p) ∧
  (∀ (p : Nat) (s : State), p < 2 → tget? s.time.cageFault p = none → rdf R.TSY_PORT_STATE 0 4 s p = 2 →
    rdb R.TSY_PORT_STATE 10 s p = false → ∃ t, exec (.sfpFaultClearDelay p) s = .next t ∧ rdf R.TSY_PORT_STATE 0 4 t p = 4 ∧ EventShows 211 t)

/-- DRAM_REFRESH changes nothing. DRAM_TEMP_POLL shows the hot channels. SR_IDLE_ENTRY under its conditions begins the entry
(state 3) and SR_ENTRY_COMPLETE with no wake ends it (state 4), DRAM's bytes being kept. With the map lock a write of the
rank map has no effect; without it each channel whose byte is valid takes it, and its ranks that did not fail read
IN_SERVICE, SPARE or RETIRED as the byte names them; bytes of a logical rank that keeps its physical rank stay; MAP_LOCK
sets the lock. RANK_MIGRATE_DONE ends the migration, maps the spare and posts EV_RANK_MIGRATED. A channel that ends a warm
retune while another still trains shows its training done and posts its event, with DRAM's bytes kept. ECC_LOG_CLEAR
empties the log; ECC_INJECT_ARM stores its fields in READY and SERVICE only. (R356, R357, R360, R361, R362, R368, R370,
R384, R388) -/
def Obligations.MemoryControllerCommands : Prop :=
  (∀ s : State, exec .dramRefresh s = .next s) ∧
  (∀ (hot : Nat) (s : State), ∃ t, exec (.dramTempPoll hot) s = .next t ∧ rdf R.MEMC_STATUS 8 4 t = hot % 16 ∧
    rdf R.MEMC_STATUS 0 3 t = rdf R.MEMC_STATUS 0 3 s ∧ t.mem = s.mem) ∧
  (∀ s : State, rdb R.MEMC_CTRL 1 s = true → modeOf s = 3 ∨ modeOf s = 6 → rdf R.MEMC_STATUS 0 3 s = 2 →
    (∀ e ∈ s.arb.requests, e.1 = rqScrub) → ∃ t, exec .srIdleEntry s = .next t ∧ rdf R.MEMC_STATUS 0 3 t = 3 ∧ t.mem.srWake = none ∧
      t.mem.dram = s.mem.dram ∧ t.mem.sram = s.mem.sram) ∧
  (∀ s : State, rdf R.MEMC_STATUS 0 3 s = 3 → s.mem.srWake = none → ∃ t, exec .srEntryComplete s = .next t ∧
    rdf R.MEMC_STATUS 0 3 t = 4 ∧ t.mem = s.mem) ∧
  (∀ (v : Word32) (s : State), rdb R.MEMC_CTRL 0 s = true → exec (.memcRankMapWrite v) s = .next s) ∧
  (∀ (v : Word32) (s : State), rdb R.MEMC_CTRL 0 s = false → ∃ t, exec (.memcRankMapWrite v) s = .next t ∧ t.mem.sram = s.mem.sram ∧
    (∀ a, (mapByteOk (chanOf a) (bits (8 * chanOf a) 6 v.toNat) s = true →
        bits (2 * logicalOf a) 2 (bits (8 * chanOf a) 6 v.toNat) = mapRank (chanOf a) (logicalOf a) s) →
      tget? t.mem.dram a = tget? s.mem.dram a) ∧
    ∀ c < 4, ∀ b, b = bits (8 * c) 6 v.toNat → rdf R.MEMC_RANK_MAP (8 * c) 6 t = (if mapByteOk c b s then b else rdf R.MEMC_RANK_MAP (8 * c) 6 s) ∧
      (mapByteOk c b s = true → ∀ p < 3, rankState c p s ≠ 3 →
        rankState c p t = if p = bits 0 2 b ∨ p = bits 2 2 b then 0 else if p = bits 4 2 b then 1 else 2)) ∧
  (∀ s : State, ∃ t, exec .mapLock s = .next t ∧ rdb R.MEMC_CTRL 0 t = true ∧ t.mem = s.mem) ∧
  (∀ (v : Word32) (s : State), (bit 31 v.toNat = false → exec (.rankRetire v) s = .next s) ∧
    (bit 31 v.toNat = true → exec (.rankRetire v) s =
      .next (retireDue (bits 0 2 v.toNat) (mapRank (bits 0 2 v.toNat) (bits 2 1 v.toNat) s) 3 s))) ∧
  (∀ (m : Migration) (s : State), dramServes s = true → s.mem.migration = some m → s.mem.retire = [] → ∃ t, exec .rankMigrateDone s = .next t ∧
    t.mem.migration = none ∧ rd R.MEMC_MIGRATE_PTR t = 0 ∧ rdf R.MEMC_STATUS 12 4 t = 0 ∧ EventShows 181 t ∧ t.mem.dram = s.mem.dram) ∧
  (∀ (c c2 us : Nat) (fails : List (Nat × Nat)) (s : State), c < 4 → c ∈ s.mem.training → c2 ∈ s.mem.training → c2 ≠ c →
    s.mem.cold = false → ∃ t, exec (.dramTrainingDone c fails false us) s = .next t ∧ rdb R.MEMC_STATUS (4 + c) t = true ∧
      t.mem.training = s.mem.training.filter (· != c) ∧ EventShows 184 t ∧ t.mem.dram = s.mem.dram) ∧
  (∀ (v : Word32) (s : State), (bit 0 v.toNat = true → ∃ t, exec (.eccLogClear v) s = .next t ∧ t.mem.log = [] ∧ rdf R.ECC_STATUS 16 9 t = 0) ∧
    (bit 0 v.toNat = false → exec (.eccLogClear v) s = .next s)) ∧
  (∀ (v : Word32) (s : State), (modeOf s = 3 ∨ modeOf s = 7 → exec (.eccInjectArm v) s =
      .next (wr R.ECC_INJECT ((v.toNat &&& 0x77) ||| (rd R.ECC_INJECT s &&& 1)) s)) ∧
    (modeOf s ≠ 3 → modeOf s ≠ 7 → exec (.eccInjectArm v) s = .next s))

/-- DRAM_READ_COMPLETE of a good line by a requester other than MIGRATE changes nothing; of a correctable one it counts, logs
and reports a CE; of an uncorrectable one, or beyond the memory, EV_ECC_UE shows for a requester other than CAM. A command
that fails with all its replays posts EV_DRAM_CMD. PATROL_SCRUB_READ of a good line moves to the next. SRAM_SCRUB of a
good word changes nothing and of an uncorrectable one posts EV_SRAM_UE. (R354, R364, R366, R367, R368, R372, R373, R384) -/
def Obligations.MemoryErrors : Prop :=
  (∀ (r a d ctx : Nat) (s : State), r < 10 → r ≠ rqMigrate → dramServes s = true → a < dramSize →
    (readFinds a 0 d s = (0, d) → exec (.dramReadComplete r a 0 d ctx) s = .next s) ∧
    (∀ f x, readFinds a f d s = (1, x) → exec (.dramReadComplete r a f d ctx) s = .next (dramCe a r x false s)) ∧
    (∀ f x, readFinds a f d s = (2, x) → exec (.dramReadComplete r a f d ctx) s = .next (requesterUe r ctx (dramUe a r s)))) ∧
  (∀ (r a f d ctx : Nat) (s : State), r < 10 → r ≠ rqCam → dramServes s = true → dramSize ≤ a →
    ∃ t, exec (.dramReadComplete r a f d ctx) s = .next t ∧ EventShows 177 t) ∧
  (∀ (r a kind n ctx : Nat) (s : State), r ≠ rqCam → ∃ t, exec (.dramCmdAlert r a kind n true ctx) s = .next t ∧ EventShows 179 t) ∧
  (∀ (r a kind n ctx : Nat) (s : State), ∃ t, exec (.dramCmdAlert r a kind n false ctx) s = .next t ∧ EventShows 179 t) ∧
  (∀ (d : Nat) (s : State), rdb R.MEMC_SCRUB_CFG 0 s = true → rdf R.MEMC_STATUS 0 3 s = 2 → s.mem.scrubLine + 1 < 2 ^ 32 →
    readFinds (64 * s.mem.scrubLine) 0 d s = (0, d) → exec (.patrolScrubRead 0 d) s =
      .next (wr R.MEMC_SCRUB_PTR ((s.mem.scrubLine + 1) / 16384) { s with mem := { s.mem with scrubLine := s.mem.scrubLine + 1 } })) ∧
  (∀ (reg off : Nat) (s : State), (∀ e ∈ s.mem.sramInjected, e.1 ≠ off / 8) →
    exec (.sramScrub reg off 0) s = .next s ∧
    exec (.sramScrub reg off 1) s = .next (sramCe reg off 0xFF s) ∧
    ∃ t, exec (.sramScrub reg off 2) s = .next t ∧ EventShows 188 t)

/-- ARB_REQUEST while DRAM is served records the request and lets the arbiter decide. ARB_GRANT_END at the burst limit counts
the accesses, frees the grant, keeps the request and decides. ARB_SLOT_ADVANCE moves the pointer and the slot number by
one and checks every requester's owed slots. ARB_WAIT_BREAK posts EV_ARB_WAIT, drops the younger of the two requests and
decides. ARB_BANK_SWITCH asks for the switch at the next wrap. (R362, R375, R377, R378, R379, R382, R383) -/
def Obligations.ArbiterCommands : Prop :=
  (∀ (r : Nat) (late : Bool) (s : State), r < 10 → rdf R.MEMC_STATUS 0 3 s = 2 →
    (requesting r s = false → exec (.arbRequest r late) s =
      .next (decideGrant { s with arb := { s.arb with requests := tset s.arb.requests r s.time.ns } })) ∧
    (requesting r s = true → exec (.arbRequest r late) s = .next (decideGrant s))) ∧
  (∀ (h : Nat) (s : State), s.arb.holder = some h → ∃ u, exec (.arbGrantEnd none) s = .next (resumeEntry (decideGrant u)) ∧ u.arb.holder = none ∧
    u.arb.requests = tset s.arb.requests h s.time.ns ∧ u.dose = s.dose) ∧
  (∀ s : State, s.arb.holder = none → exec (.arbGrantEnd none) s = .next s) ∧
  (∀ s : State, ∃ u, exec .arbSlotAdvance s = .next (showArb (each (List.range 10) checkOwed u)) ∧ u.arb.slotNo = s.arb.slotNo + 1 ∧
    (slotPointer s < 255 → slotPointer u = slotPointer s + 1) ∧ (slotPointer s = 255 → slotPointer u = 0)) ∧
  (∀ (w h tw : Nat) (s : State), s.arb.holder = some h → tget? s.arb.requests w = some tw → w ≠ h →
    ∃ u, exec (.arbWaitBreak w) s = .next (decideGrant u) ∧ EventShows 189 u ∧
      (tw < tget 0 s.arb.requests h → requesting h u = false ∧ u.arb.holder = none) ∧
      (tget 0 s.arb.requests h ≤ tw → requesting w u = false ∧ u.arb.holder = some h)) ∧
  (∀ (v : Word32) (s : State), (bit 0 v.toNat = true → exec (.arbBankSwitch v) s = .next (wrb R.ARB_CTRL 0 true s)) ∧
    (bit 0 v.toNat = false → exec (.arbBankSwitch v) s = .next s))

/-- UDMA_START of an IDLE channel with a setting that nothing refuses runs it (state 1, or 2 where it is paced), shows busy
and the start bit; a refused one stays IDLE with the reason; from ERR it returns to IDLE. UDMA_PACE_RESUME at the high
level runs a paced channel. UDMA_STOP of a running channel after no beat ends it with result 6 in IDLE.
UDMA_DESCRIPTOR_DONE of a channel whose beats are through finishes the descriptor. UDMA_APPEND to a channel in ERR is
refused with code 2, and to an IDLE one starts the chain. (R390, R392, R393, R394, R395, R396, R397, R408) -/
def Obligations.HelperDmaCommands : Prop :=
  (∀ (c : Nat) (s : State), c ≤ 15 → chState c s = 0 → rdb R.UDMA_CTRL 8 s c = false →
    refusal c { swap := bits 2 2 (rd R.UDMA_CTRL s c), srcSpace := bits 4 2 (rd R.UDMA_CTRL s c), dstSpace := bits 6 2 (rd R.UDMA_CTRL s c),
                total := rd R.UDMA_COUNT s c } (rd R.UDMA_SRC s c) (rd R.UDMA_DST s c) (rd R.UDMA_COUNT s c) s = none →
    ∃ t, exec (.udmaStart c) s = .next t ∧ chState c t = (if paceQueue c s = 0 then 1 else 2) ∧ rdb R.UDMA_BUSY c t = true ∧
      rdb R.UDMA_CTRL 0 t c = true ∧ t.mem.dram = s.mem.dram ∧ t.mem.sram = s.mem.sram) ∧
  (∀ (c : Nat) (s : State), c ≤ 15 → chState c s = 3 → ∃ t, exec (.udmaStart c) s = .next t ∧ chState c t = 0 ∧ rdb R.UDMA_BUSY c t = false) ∧
  (∀ (c l : Nat) (s : State), c ≤ 15 → chState c s = 2 → paceHi c s ≤ queueLevel (paceQueue c s) l s →
    ∃ t, exec (.udmaPaceResume c l) s = .next t ∧ chState c t = 1 ∧ t.mem = s.mem) ∧
  (∀ (c l : Nat) (s : State), c ≤ 15 → chState c s = 1 →
    ∃ t, exec (.udmaStop c 0 l) s = .next t ∧ t = setCh c 0 (postDone c 6 (setResult c 6 s)) ∧ chState c t = 0 ∧ rdb R.UDMA_BUSY c t = false ∧
      t.mem = s.mem) ∧
  (∀ (c l : Nat) (s : State), c ≤ 15 → chState c s = 1 → rd R.UDMA_COUNT s c = 0 → exec (.udmaDescriptorDone c l) s = .next (finishWork c s)) ∧
  (∀ (v : Word) (s : State), (chState (bits 32 4 v.toNat) s = 3 →
      exec (.udmaAppend v) s = .next (wr R.UDMA_APPEND_RESULT (2 + 2 ^ 4 * bits 32 4 v.toNat) s)) ∧
    (chState (bits 32 4 v.toNat) s ≠ 3 → ∃ t, exec (.udmaAppend v) s = .next t ∧
      (rd R.UDMA_APPEND_RESULT t = 2 ^ 4 * bits 32 4 v.toNat ∨ rd R.UDMA_APPEND_RESULT t = 1 + 2 ^ 4 * bits 32 4 v.toNat) ∧ t.mem.dram = s.mem.dram))

/-- On a unit that the job engine does not hold: CRC_LOAD_INIT copies CRC_INIT to CRC_RUN and changes nothing else; CRC_START
of a unit at rest sets busy and clears error; CRC_STOP of a running one, with no memory error, consumes the bytes and
clears busy. CRC_UNIT_DONE without a memory error consumes the rest, clears busy, stores the result and posts CRC_DONE;
with one it posts CRC_DONE too. A unit that does not run is left as it is. (R398, R399, R400, R407) -/
def Obligations.CrcUnitCommands : Prop :=
  (∀ (u : Nat) (s : State), crcFree u s = true → exec (.crcLoadInit u) s = .next (wr R.CRC_RUN (rd R.CRC_INIT s u) s u)) ∧
  (∀ (u : Nat) (s : State), crcFree u s = true → rdb R.CRC_CTRL 12 s u = false → ∃ t, exec (.crcStart u) s = .next t ∧
    rdb R.CRC_CTRL 12 t u = true ∧ rdb R.CRC_CTRL 13 t u = false ∧ t.mem = s.mem) ∧
  (∀ (u n : Nat) (s s' : State), crcFree u s = true → rdb R.CRC_CTRL 12 s u = true → crcConsume u (min n (rd R.CRC_LEN s u)) s = (false, s') →
    exec (.crcStop u n) s = .next (wrb R.CRC_CTRL 12 false s' u)) ∧
  (∀ (u : Nat) (s : State), u < 4 → rdb R.CRC_CTRL 12 s u = true → ∃ t, exec (.crcUnitDone u) s = .next t ∧ EventShows 195 t ∧
    rdb R.CRC_CTRL 12 t u = false) ∧
  (∀ (u : Nat) (s : State), rdb R.CRC_CTRL 12 s u = false → exec (.crcUnitDone u) s = .next s)

/-- A resident group that decodes is released with its tiles; one whose trailer or format is bad fails its lines after the
report. A line that may enter the window, with thermal correction off, enters with the intent dose of each pixel; a
group's bytes leave the staging area. LAYER_BOUNDARY with no pass left, no fill and thermal off ends the layer and posts
EV_LAYER_DONE; with thermal on it rotates the maps and waits. MAP_SLOT_FILL_DONE ends the fill. THE_CTRL takes enable only
where the geometry is good. With no open layer, or one with THERMAL, a map of one cell on the grid updates that strip; one
with alpha 0 is discarded. BANK_SWAP_CANCEL clears the mark; a window write stores the entry in a bank that is neither
active nor being loaded, and changes nothing in the active one. (R99, R115, R119, R127, R138, R139, R156, R159, R166,
R172, R194) -/
def Obligations.IntakeAndMaps : Prop :=
  (∀ (p : Pass) (g : Nat) (s s' : State), intakeNext s = some (p, g) → resident p g = true → dramServes s = true →
    (∀ tiles, decodeNext p g s = (.ok tiles, s') → ∃ t, exec .groupDecode s = .next t ∧
      (∀ q ∈ t.dose.passes, q.index = p.index → tget? q.released g = some tiles ∧ ∀ x ∈ q.staged, x.group ≠ g) ∧ t.mem = s'.mem) ∧
    (∀ v, decodeNext p g s = (.crc none v, s') → exec .groupDecode s =
      .next (updateLead (intakeFetch (modPassOf p.index (fun q => { q with staged := q.staged.filter (fun x => x.group != g) })
        (failGroup p g (facetCrc p.cookie p.layer g 0xFFFF 1 p.dir v s'))))))) ∧
  (∀ (n : Nat) (p : Pass) (s : State), curPass s = some p → thermalOn s = false → inPass p n = true → released p n = true →
    mayEnter (geom s) p n = true → p.cut = none → p.abandoned = false → modeOf s = 4 → n ∉ p.missed → n ∉ p.residueLines → n ∉ p.doneLines →
    n ∉ p.entered → p.runCount = 0 → ∃ t, exec (.lineWindowEntry n none []) s = .next t ∧
      (∀ q ∈ t.dose.passes, q.executing = true → n ∈ q.entered ∧ tget? q.window n = some ((List.range (geom s).columns).map (fun c =>
        intentDose (contextBytes s (contextAt p n)) (pixelOf (tget [] p.released (n / 32)) (n % 32) c) (scaleAt p n)))) ∧
      t.mem = s.mem ∧ t.time = s.time ∧ t.mot = s.mot) ∧
  (∀ (usage : UsageIn) (k i : Nat) (l : OpenLayer) (s : State), s.dose.boundary = some (k, i) → s.dose.layer = some l → s.dose.boundaryFill = false →
    s.dose.passes = [] → s.dose.the.filling = none → rdb R.BSC_STATUS 3 s = false →
    (rdb R.THE_CTRL 0 s = false → s.dose.mnd.log = [] → ∃ u, exec (.layerBoundary usage) s = .next (applyPendingSteps (showStates { u with dose := { u.dose with
        layer := none, boundary := none, boundaryFill := false, layerGap := true, expired := 0 } })) ∧ EventShows 50 u) ∧
    (rdb R.THE_CTRL 0 s = true → ∃ t, exec (.layerBoundary usage) s = .next t ∧ t.dose.boundaryFill = true)) ∧
  (∀ (usage : UsageIn) (start : Nat) (s : State), s.dose.the.filling = some start → s.dose.the.stopped = false → s.dose.boundaryFill = false →
    ∃ t, exec (.mapSlotFillDone usage) s = .next t ∧ t.dose.the.filling = none ∧ t.time = s.time) ∧
  (∀ (v : Word32) (s : State), rdf R.THE_STATUS 0 2 s = 0 → rdb R.THE_CTRL 0 s = false → bit 0 v.toNat = true →
    (theGeomOk s = true → ∃ t, exec (.theEnable v) s = .next t ∧ rdb R.THE_CTRL 0 t = true ∧ t.dose.the.filling = some s.time.ns) ∧
    (theGeomOk s = false → ∃ t, exec (.theEnable v) s = .next t ∧ rdb R.THE_CTRL 0 t = false ∧ t.dose = s.dose)) ∧
  (∀ (m : RespMap) (rest : List RespMap) (s : State), s.dose.the.queue = m :: rest → s.dose.the.filling = none → rdb R.THE_CTRL 0 s = true → s.dose.layer = none ∨ thermalOn s = true →
    (rdf R.THE_ASSIM_CFG 0 8 s m.context = 0 → ∃ u, exec (.assimMapApply []) s = .next (discardMap m rsAlpha u) ∧ u.dose.the.queue = rest) ∧
    (∀ (u v : Int) (r : Nat), rdf R.THE_ASSIM_CFG 0 8 s m.context ≠ 0 → m.partialFrame = false → rd R.THE_ASSIM_MAX_AGE s = 0 → mapCells m = [(u, v, r)] →
      onMap (theGeom s) u v = true → curPass s = none →
      0 ≤ sdiff 32 (m.captureNs / 2 ^ 20 % 2 ^ 32) (readDramN s (stampAddr (theGeom s) (curSlot s) u.toNat (v.toNat / 64)) 4) →
      ∃ f x, exec (.assimMapApply []) s = .next (mapFinished m 0 1 0 (updateStrip (curSlot s) u.toNat (v.toNat / 64) (m.captureNs / 2 ^ 20 % 2 ^ 32) f x)) ∧
        x.dose.the.queue = rest ∧ x.mem = s.mem)) ∧
  (∀ s : State, ∃ t, exec .bankSwapCancel s = .next t ∧ rdb R.BSC_STATUS 3 t = false ∧ activeBank t = activeBank s ∧ t.dose = s.dose) ∧
  (∀ (bank entry : Nat) (value : Word) (s : State), bank ≤ 1 → entry < 262144 →
    (bank = activeBank s → exec (.beamTableWindowWrite bank entry value) s = .next s) ∧
    (bank ≠ activeBank s → loadInto bank s = false → ∃ t, exec (.beamTableWindowWrite bank entry value) s = .next t ∧
      bankEntry t bank entry = windowEntry value.toNat))

/-- With no pass to run SWATH_EXECUTION_START changes nothing; in BUILD with no mode request, in TURN or on the step input,
the oldest pass starts. FRAME_BUILD of an event whose lines are not ready changes nothing; ready, it builds each row of
the event that is not dropped, marks the event built and lets bezel check it. FRAME_SEND of a lone frame whose position is
reached and whose tick lies at least 4,096 ticks and at most 20 lines ahead sends it with that tick and the port's next
sequence number; held, it changes nothing. FRAME_LATE of an event that is not built drops its rows on the port as late.
(R113, R208, R213, R215, R248) -/
def Obligations.FramesOfAPass : Prop :=
  (∀ (damaged : List Nat) (s : State), nextToRun s = none → exec (.swathExecutionStart damaged) s = .next s) ∧
  (∀ (p : Pass) (s : State), nextToRun s = some p → modeOf s = 4 → s.ctl.request = none → (external s = true ∨ plcState s = pTurn) →
    exec (.swathExecutionStart []) s = .next (startExecution p s)) ∧
  (∀ (faults : List (Nat × Nat × Nat)) (strips : List (Nat × Nat)) (p : Pass) (m : Nat) (s : State), curPass s = some p → nextBuild (geom s) p = some m →
    (linesReady (geom s) p m = false → p.cut = none → exec (.frameBuild faults strips) s = .next s) ∧
    (linesReady (geom s) p m = true → p.cut = none → exposing p s = true → external s = false → ∃ u, exec (.frameBuild faults strips) s =
        .next (tryComplete strips (if (bezelLine m u).1 then bezelBlock m (bezelLine m u).2 else (bezelLine m u).2)) ∧
      u = linesDone (((rowsAt (geom s) p m).filter (fun rn => !p.dropped.contains rn)).map (·.2)).eraseDups strips
        (eventBuilt m (each ((rowsAt (geom s) p m).filter (fun rn => !p.dropped.contains rn)) (buildRow p m faults) (factorUpdate s))))) ∧
  (∀ (port found : Nat) (strips : List (Nat × Nat)) (s : State), sendHeld s = true → exec (.frameSend port found strips) s = .next s) ∧
  (∀ (port m tick : Nat) (strips : List (Nat × Nat)) (p : Pass) (f : Frame) (s : State), curPass s = some p → p.frames = [f] → f.port = port → f.event = m →
    f.sent = none → f.slot < 32 → p.late = [] → sendHeld s = false → exposing p s = true →
    beyond p (rdI R.PLC_MARK s) (sendThreshold p [f] s) = true → lnkState port s = 10 → port ∈ s.dose.plc.anchors →
    tick = tickAt port (predictTime p.dir f.fire s) s → 4096 ≤ sdiff 32 tick (tickOf port s) →
    sdiff 32 tick (tickOf port s) ≤ (twentyLines p f s : Int) → sdiff 32 tick (tickOf port s) ≤ 2 ^ 28 →
    ∃ t, exec (.frameSend port 0 strips) s = .next t ∧
      Out.rowFrame port f.row p.number f.line tick (portOf s port).frameSeq false f.codes ∈ t.out ∧
      (portOf t port).frameSeq = ((portOf s port).frameSeq + 1) % 2 ^ 32) ∧
  (∀ (port event : Nat) (strips : List (Nat × Nat)) (p : Pass) (s : State), curPass s = some p → p.sendOver = false → p.abandoned = false → p.profileOn = true →
    event ∉ p.built → ∃ rows, exec (.frameLate port event strips) s =
        .next (lateRows p port 1 strips rows (modPassOf p.index (fun q => { q with dropped := q.dropped ++ rows }) s)) ∧
      ∀ rn, rn ∈ rows ↔ rn ∈ rowsAt (geom s) p event ∧ (rowAt (geom s) rn.1).port = port ∧ rn ∉ p.dropped)

/-- At rest in IDLE or RUNOUT with an open layer in BUILD, TURN_ENTRY enters TURN and, with a pass to come, prepares it. In
TURN the dwell, the settling and the start wait are noted and no register changes. RUNUP_START of a pass that may run up
enters RUNUP, or first moves back where there is no room. EXPOSE_ENTRY at the end of the ramp enters EXPOSE. A sample of
an encoder axis moves its position by one count; a STEP edge with no axis on the step input changes nothing. ANCHOR_LATCH
stores TT, the ticks of the ports and which of them are up. (R121, R196, R197, R200, R210, R212, R218, R219, R304, R311) -/
def Obligations.TurnAndRunup : Prop :=
  (∀ s : State, plcState s = pIdle ∨ plcState s = pRunout → s.dose.layer ≠ none → modeOf s = 4 → atRest 0 s = true → external s = false →
    exec .turnEntry s =
      .next (turnNext (modPlc (fun c => { c with turnOf := none }) (applyPendingSteps (setPlc pTurn s))))) ∧
  (∀ s : State, plcState s = pIdle ∨ plcState s = pRunout → s.dose.layer ≠ none → modeOf s = 4 → atRest 0 s = true → external s = false →
    s.dose.passes = [] → s.time.pendHost = [] → s.time.pendServo = none → ∃ t, exec .turnEntry s = .next t ∧ plcState t = pTurn ∧ t.dose.passes = s.dose.passes ∧
      t.dose.layer = s.dose.layer ∧ t.mot = s.mot) ∧
  (∀ s : State, plcState s = pTurn → ∃ t, exec .turnDwellExpiry s = .next t ∧ t.dose.plc.dwellDone = true ∧ t.regs = s.regs ∧ t.dose.passes = s.dose.passes) ∧
  (∀ s : State, plcState s = pTurn → ∃ t, exec .intakeStartWaitExpiry s = .next t ∧ t.dose.plc.waitOver = true ∧ t.regs = s.regs ∧ t.dose.passes = s.dose.passes) ∧
  (∀ (p : Pass) (s : State), plcState s = pTurn → nextPass s = some p → atRest 1 s = true → (pdiff (measPos 1 s) p.stepover).natAbs ≤ rd R.PLC_STEP_TOL s →
    ∃ t, exec .ax1Settle s = .next t ∧ t.dose.plc.settled = true ∧ t.regs = s.regs ∧ t.dose.passes = s.dose.passes) ∧
  (∀ (p : Pass) (s : State), nextPass s = some p → mayRunUp p s = true →
    (roomToRun p (withdrawHead s) = true → ∃ t, exec .runupStart s = .next t ∧ plcState t = pRunup ∧ rdb R.PLC_STATUS 4 t = false ∧ atRest 0 t = false) ∧
    (∀ w, w = withdrawHead s → roomToRun p w = false → exec .runupStart s =
      .next (startMove 0 (runupStart p w) (limitV 0 (rd R.MOT_ENV_VMAX w 0) w) (rd R.MOT_ENV_AMAX w 0) (rd R.MOT_ENV_JMAX w 0) mProfile w))) ∧
  (∀ (q : Prof) (s : State), (axisOf s 0).prof = some q → plcState s = pRunup → profDone q = true → (axisOf s 0).runHold = false →
    ∃ t, exec .exposeEntry s = .next t ∧ plcState t = pExpose ∧ t.dose = s.dose ∧ t.mot = s.mot) ∧
  (∀ (a : Nat) (up : Bool) (s : State), a < 6 → axisSource a s = 0 → rdb R.MOT_FAULT 1 s a = false →
    ∃ d : Int, exec (.positionSample a up false) s = .next (followCheck a (newPosition a (measPos a s) true (setMeas a (measPos a s + d) s))) ∧
      (up = rdb R.MOT_CFG 3 s a → d = -256) ∧ (up ≠ rdb R.MOT_CFG 3 s a → d = 256)) ∧
  (∀ (dir bad : Bool) (s : State), exec (.stepInputEdge dir bad) s = .next (each [0, 1, 2, 3, 4, 5] (fun a s => stepEdge a dir bad s) s)) ∧
  (∀ (dir bad : Bool) (s : State), (∀ a < 6, axisSource a s ≠ 2) → exec (.stepInputEdge dir bad) s = .next s) ∧
  (∀ s : State, ∃ t, exec .anchorLatch s = .next t ∧ rd R.PLC_ANCHOR_TT t = ttNow s % 2 ^ 64 ∧
    (∀ p < 4, rd R.PLC_ANCHOR_TICK t p = tickOf p s) ∧ (∀ p, p ∈ t.dose.plc.anchors ↔ p < 4 ∧ lnkUp p s = true) ∧ t.dose.passes = s.dose.passes)

/-- DETECT with a terminated clock lane and all eight lanes goes to CLOCK with eight lanes in order; without the clock it
stays. CLOCK goes to BITLOCK. A timeout of a training state records it, fails the port and posts LINK_DOWN once; after the
delay the port is in DETECT. BITLOCK goes on when both sides are done. A skew beyond the limit posts LANE_FAULT and fails
the port; within it the skew is shown. No common version fails the port; the accepted one is taken, posted as capability,
and the first tick exchange starts. A reply of another exchange changes nothing; an acknowledged offset is checked; the
timer starts a CHECK. (R234, R239, R240, R241, R242, R243, R244, R245) -/
def Obligations.LinkTraining : Prop :=
  (∀ (p shorts : Nat) (s : State), p < 4 → lnkState p s = 1 → (portOf s p).failed = false →
    (∃ t, exec (.linkDetectPoll p true 255 shorts) s = .next t ∧ lnkState p t = 2 ∧ rdf R.LNK_STATUS 8 8 t p = 255 ∧
      rdb R.LNK_STATUS 6 t p = false ∧ (portOf t p).lanesOut = 8 ∧ rd R.LNK_LANE_MAP t p = 0x76543210) ∧
    exec (.linkDetectPoll p false 255 shorts) s = .next s) ∧
  (∀ (p : Nat) (s : State), p < 4 → lnkState p s = 2 → (portOf s p).failed = false → ∃ t, exec (.returnClockLock p 3) s = .next t ∧
    lnkState p t = 3 ∧ rdf R.LNK_STATUS 16 2 t p = 3 ∧ (portOf t p).lanesBack = 2) ∧
  (∀ (p : Nat) (s : State), p < 4 → 2 ≤ lnkState p s → lnkState p s ≤ 9 → (portOf s p).failed = false → (portOf s p).retrain = none →
    ∃ t, exec (.linkTrainTimeout p) s = .next t ∧ (portOf t p).failed = true ∧ rdf R.LNK_TRAIN_FAIL 0 8 t p = lnkState p s ∧
      ((portOf s p).downPosted = false → EventShows (81 + 8 * p) t)) ∧
  (∀ (p : Nat) (s : State), (portOf s p).failed = true → lnkState p s ≠ 0 → ∃ t, exec (.linkRetryDelay p) s = .next t ∧
    lnkState p t = 1 ∧ (portOf t p).failed = false) ∧
  (∀ (p lane headers : Nat) (block up : List Byte) (inv : Bool) (s : State), p < 4 → lnkState p s = 3 → (portOf s p).failed = false →
    lane ∈ backLanes p s → trainOf block = some (inv, up) → blockOk up = true → 3 < bytesAt up 3 1 →
    (∀ l ∈ backLanes p s, l ≠ lane → laneLocked p l s = true) →
    ∃ t, exec (.trainBlockRx p lane block true headers) s = .next t ∧ lnkState p t = 4) ∧
  (∀ (p lane seq skew : Nat) (s : State), p < 4 → lnkState p s = 7 → (portOf s p).failed = false →
    (lane ∈ backLanes p s → skewBack s < skew → (portOf s p).retrain = none → ∃ t, exec (.alignBlockRx p lane seq skew) s = .next t ∧
      (portOf t p).failed = true ∧ EventShows (85 + 8 * p) t) ∧
    (backLanes p s = [lane] → skew ≤ skewBack s → (portOf s p).theirsDone = false → ∃ t, exec (.alignBlockRx p lane seq skew) s = .next t ∧
      (portOf t p).mineDone = true ∧ rdf R.LNK_SKEW 16 10 t p = skew ∧ lnkState p t = 7)) ∧
  (∀ (p : Nat) (body : List Byte) (s : State), p < 4 → lnkState p s = 8 → (portOf s p).failed = false →
    (bytesAt body 1 1 = 0 → (bytesAt body 2 1 % 8) &&& ownMask p s = 0 → ∃ t, exec (.capabilityRx p body) s = .next t ∧
      (portOf t p).failed = true) ∧
    (bytesAt body 1 1 = 1 → bytesAt body 2 1 = (portOf s p).offered → 1 ≤ (portOf s p).offered → (portOf s p).offered ≤ 3 →
      ∃ t, exec (.capabilityRx p body) s = .next t ∧ lnkState p t = 9 ∧ lnkVersion p t = (portOf s p).offered ∧ EventShows (87 + 8 * p) t ∧
        (portOf t p).waiting = true ∧ (portOf t p).kind = 0)) ∧
  (∀ (p kind n t2 t3 : Nat) (s : State), n ≠ (portOf s p).exchange → exec (.tickReplyRx p kind n t2 t3) s = .next s) ∧
  (∀ (p t2 t3 : Nat) (s : State), p < 4 → lnkState p s = 9 ∨ lnkState p s = 10 → (portOf s p).failed = false → (portOf s p).waiting = true →
    (portOf s p).kind = 1 → exec (.tickReplyRx p 1 (portOf s p).exchange t2 t3) s =
      .next (startExchange p 2 (modPort p (fun x => { x with waiting := false }) s))) ∧
  (∀ (p : Nat) (s : State), lnkState p s = 10 → 0 < (portOf s p).lanesOut → ∃ t b, exec (.tickCheckTimer p) s = .next t ∧ .linkBlock p 7 b ∈ t.out ∧
    (portOf t p).exchange = ((portOf s p).exchange + 1) % 65536 ∧ (portOf t p).waiting = true ∧ (portOf t p).kind = 2 ∧ lnkState p t = 10)

/-- An idle port enters IDLE under its conditions and leaves FAST_EXIT on an IDLE block; a FAST_EXIT timeout, a lock loss on a
lane in use and a request start a fast retrain: state 4, timeouts deferred. A retrain that times out falls to DETECT.
Invalid return blocks are counted. Telemetry goes to its stream. A FIRED verdict of the one outstanding frame resolves it
as fired; the earliest frame times out unless deferred; the deferral ends. A port turned on goes to DETECT, turned off to
OFF with LINK_DOWN. A stopped clock with nothing outstanding is over; an outstanding frame resolves as blanked by the
link. A discard removes an OPEN entry that no mend pass selects. (R237, R239, R246, R247, R252, R255, R256, R259, R261,
R281) -/
def Obligations.LinkRunning : Prop :=
  (∀ (p : Nat) (s : State), lnkState p s = 10 → rdb R.LNK_CTRL 6 s p = true → outstandingOn p s = [] → plcState s ≤ pTurn →
    ∃ t, exec (.linkIdleEntry p) s = .next t ∧ lnkState p t = 11 ∧ t.dose = s.dose) ∧
  (∀ (p version : Nat) (s : State), lnkState p s = 12 → version ≠ 0 → (portOf s p).checkDue = false →
    ∃ t, exec (.returnIdleRx p version) s = .next t ∧ lnkState p t = 10 ∧ t.dose = s.dose) ∧
  (∀ (p : Nat) (s : State), lnkState p s = 12 → ∃ t, exec (.fastExitTimeout p) s = .next t ∧ lnkState p t = 4 ∧
    rdb R.LNK_STATUS 18 t p = true ∧ (portOf t p).retrain = some (1, s.time.ns)) ∧
  (∀ (p lane : Nat) (s : State), p < 4 → lnkUp p s = true → bit lane (rdf R.LNK_STATUS 8 8 s p) = true →
    ∃ t, exec (.laneLockLoss p lane false) s = .next t ∧ lnkState p t = 4 ∧ rdb R.LNK_STATUS 18 t p = true ∧
      (portOf t p).retrain = some (1, s.time.ns)) ∧
  (∀ (p : Nat) (s : State), p < 4 → lnkUp p s = true → ∃ t, exec (.linkRetrainRequest p) s = .next t ∧ lnkState p t = 4 ∧
    rdb R.LNK_STATUS 18 t p = true ∧ (portOf t p).retrain = some (3, s.time.ns)) ∧
  (∀ (p : Nat) (strips : List (Nat × Nat)) (s : State), (portOf s p).retrain ≠ none → ∃ u, exec (.fastRetrainTimeout p strips) s = .next (portLost p u) ∧
    lnkState p u = 1 ∧ (portOf u p).waiting = false) ∧
  (∀ (p lane headers : Nat) (s : State), p < 4 →
    (laneLocked p lane s = false → exec (.returnBlockInvalid p lane 0 headers) s =
      .next (modRx p lane (fun l => badHeader (goodHeaders headers l)) (bumpLnk R.LNK_HDR_ERRORS p s))) ∧
    exec (.returnBlockInvalid p lane 1 headers) s = .next (bumpLnk R.LNK_STUFF_ERRORS p s) ∧
    exec (.returnBlockInvalid p lane 3 headers) s = .next (bumpLnk R.LNK_BLOCK_CRC_ERRORS p s)) ∧
  (∀ (p : Nat) (block : List Byte) (s : State), p < 4 → lnkUp p s = true → bytesAt block 0 1 = 0x12 → blockOk block = true →
    exec (.telemetryRx p block) s = .next (uploadRecord stTelemetry (leBytes 8 (ttNow s) ++ block) s)) ∧
  (∀ (p : Nat) (strips : List (Nat × Nat)) (q : Pass) (f : Frame) (a : AckRec) (s : State), p < 4 → lnkState p s ≠ 0 → s.dose.passes = [q] →
    q.frames = [f] → f.port = p → f.sent.isSome = true → f.row = a.row → f.line = a.line → q.number = a.pass → a.verdict = 1 →
    sdiff 32 (tickOf p s) (fireTick f) ≤ ackTicks →
    ∃ u, exec (.ackBlockRx p [a] strips) s = .next (afterResolve f.line strips u) ∧
      ∃ r ∈ (portOf u p).resolved, r.row = a.row ∧ r.line = a.line ∧ r.pass = a.pass ∧ r.fired = true ∧ r.timedOut = false) ∧
  (∀ (p : Nat) (strips : List (Nat × Nat)) (q : Pass) (f : Frame) (s : State), deferred p s = false → oldestOn p s = some (q, f) →
    exec (.ackTimeout p strips) s = .next (afterResolve f.line strips (resolveTimeout q f s))) ∧
  (∀ (p : Nat) (s : State), (portOf s p).deferEnding = true → ∃ t, exec (.ackDeferEnd p) s = .next t ∧ rdb R.LNK_STATUS 18 t p = false ∧
    (portOf t p).deferEnding = false) ∧
  (∀ (p : Nat) (strips : List (Nat × Nat)) (s : State), (portOf s p).clockStopped = true → outstandingOn p s = [] →
    exec (.linkClockStopTimeout p strips) s = .next (modPort p (fun x => { x with clockStopped := false }) s)) ∧
  (∀ (p : Nat) (strips : List (Nat × Nat)) (q : Pass) (f : Frame) (s : State), (portOf s p).clockStopped = true → s.dose.passes = [q] →
    q.frames = [f] → f.port = p → f.sent.isSome = true → exec (.linkClockStopTimeout p strips) s =
      .next (afterResolve f.line strips (resolveBlanked q f 5 false 0 (modPort p (fun x => { x with clockStopped := false }) s)))) ∧
  (∀ (p : Nat) (s : State), p < 4 →
    (lnkState p s = 0 → s.pwr.asserted = [] → s.pwr.due = none → 1 < modeOf s → ∃ t, exec (.linkEnableWrite p true) s = .next t ∧ lnkState p t = 1 ∧
      rdb R.LNK_CTRL 0 t p = true) ∧
    (lnkState p s ≠ 0 → ∃ u, exec (.linkEnableWrite p false) s = .next (portLost p u) ∧ lnkState p u = 0 ∧ lnkVersion p u = 0 ∧
      rdb R.LNK_CTRL 0 u p = false ∧ ((portOf s p).retrain = none → EventShows (81 + 8 * p) u))) ∧
  (∀ (v : Word32) (e : MendEntry) (s : State), findEntry v.toNat s = some e → (∀ q ∈ s.dose.passes, q.mend = false) →
    ∃ t, exec (.mendLogDiscard v) s = .next t ∧ t = removeEntry v.toNat 3 s ∧ findEntry v.toNat t = none)

/-- MOT_STOP of a running profile decelerates; of an axis that runs nothing it has no effect. MOT_FLUSH keeps only the running
entry. MOT_DECLARE_HOMED acts on a step source alone; MOT_CLEAR_HOMED on every axis. MOT_FAULT_CLEAR of a gone fault
clears its bit, keeping the others, and of the only one returns the axis to STANDSTILL and lets its next entry start. A
change of source on a halted axis zeroes the positions and clears homed; on an axis that is not halted it has no effect.
The standstill delay, the run hold and a retest act as stated. MOVE_COMPLETE removes the ended entry, posts MOVE_DONE or
HOMED and lets the next one start. (R298, R299, R300, R303, R304, R307, R308, R311, R319, R320, R323) -/
def Obligations.AxisCommands : Prop :=
  (∀ (a : Nat) (p : Prof) (s : State), a < 6 → (axisOf s a).running = true → (axisOf s a).prof = some p → (axisOf s a).runHold = false →
    rd R.MOT_ENV_AMAX s a ≠ 0 → rd R.MOT_ENV_JMAX s a ≠ 0 → ∃ t, exec (.motStop a) s = .next t ∧ axisState a t = mStopping ∧
      (axisOf t a).ending = some (max 1 ((axisOf s a).ending.getD 0)) ∧ (axisOf t a).queue = (axisOf s a).queue ∧ measPos a t = measPos a s) ∧
  (∀ (a : Nat) (s : State), (axisOf s a).running = false → exec (.motStop a) s = .next s) ∧
  (∀ (a : Nat) (s : State), a < 6 → ∃ t, exec (.motFlush a) s = .next t ∧
    (axisOf t a).queue = (if (axisOf s a).running then (axisOf s a).queue.take 1 else []) ∧ rdf R.MOT_STATUS 16 5 t a = (axisOf t a).queue.length) ∧
  (∀ (a : Nat) (s : State), a < 6 → (axisSource a s = 2 → ∃ t, exec (.motDeclareHomed a) s = .next t ∧ homed a t = true ∧ t.mot = s.mot) ∧
    (axisSource a s ≠ 2 → exec (.motDeclareHomed a) s = .next s)) ∧
  (∀ (a : Nat) (s : State), a < 6 → ∃ t, exec (.motClearHomed a) s = .next t ∧ homed a t = false ∧ t.mot = s.mot) ∧
  (∀ (a k : Nat) (v : Word32) (healthy : Bool) (s : State), a < 6 → 3 ≤ k → k < 9 → v.toNat = 2 ^ k → rdb R.MOT_FAULT k s a = true →
    (∀ j < 9, j ≠ k → rdb R.MOT_FAULT j s a = true → exec (.motFaultClear a v healthy) s = .next (updateEnables (wrb R.MOT_FAULT k false s a))) ∧
    (rd R.MOT_FAULT s a = 2 ^ k → axisState a s = mFault → ∃ u, exec (.motFaultClear a v healthy) s = .next (startEntry a (updateEnables u)) ∧
      rd R.MOT_FAULT u a = 0 ∧ axisState a u = mStandstill ∧ (axisOf u a).rested = true)) ∧
  (∀ (a : Nat) (v : Word32) (s : State), a < 6 → (motHalted a s = false → exec (.motSourceChange a v) s = .next s) ∧
    (motHalted a s = true → bits 0 2 v.toNat ≠ axisSource a s → ∃ t, exec (.motSourceChange a v) s = .next t ∧ axisSource a t = bits 0 2 v.toNat ∧
      measPos a t = 0 ∧ cmdPos a t = 0 ∧ homed a t = false)) ∧
  (∀ (a : Nat) (s : State), a < 6 → (axisOf s a).prof = none → (axisOf s a).queue = [] → rd R.MOT_STANDSTILL_DELAY s a ≠ 0 →
    ∃ t, exec (.standstillDelayExpiry a) s = .next t ∧ (axisOf t a).rested = true ∧ t.regs = s.regs) ∧
  (∀ (a : Nat) (s : State), a < 6 → (∃ t, exec (.motionLinkRetest a 0) s = .next t ∧ (axisOf t a).linkBad = false ∧ t.regs = s.regs) ∧
    ∀ c, 1 ≤ c → c ≤ 3 → rdb R.MOT_FAULT 2 s a = false → ∃ u, exec (.motionLinkRetest a c) s = .next (axisFault a 3 u) ∧
      (axisOf u a).linkStopped = true ∧ (axisOf u a).linkBad = true ∧ EventShows 138 u) ∧
  (∀ (a : Nat) (p : Prof) (s : State), a < 6 → (axisOf s a).runHold = true → (axisOf s a).prof = some p →
    ∃ t, exec (.runHoldExpiry a) s = .next t ∧ (axisOf t a).runHold = false ∧ (axisOf t a).prof = some { p with start := nowE s, frames := 0 } ∧
      t.regs = s.regs) ∧
  (∀ (a st : Nat) (e : QEntry) (s : State), a < 6 → headEntry a s = some e → (axisOf s a).ending = some st → (axisOf s a).prof = none →
    ∃ u, exec (.moveComplete a) s = .next (startEntry a u) ∧ (axisOf u a).queue = (axisOf s a).queue.drop 1 ∧ (axisOf u a).running = false ∧
      EventShows (if st = 0 ∧ e.home = true then 113 + 4 * a else 112 + 4 * a) u)

/-- With no rails, MOTION_LINK_FRAME does nothing; with all six axes at rest on encoders within their following limits, it
sends one frame per axis, in axis order. An encoder fault posts its event; of an encoder axis a lost count clears homed
and faults the axis. SWITCH_CLASSIFY with closed or opened loops shows each class. The first raw edge that does not make
the input active latches the position and counts the edge. A state held for the debounce time is accepted. (R301, R303,
R309, R310, R312, R313, R314, R315, R322) -/
def Obligations.MotionInputs : Prop :=
  (∀ s : State, modeOf s = 0 ∨ s.pwr.railsOff = true → exec .motionLinkFrame s = .next s) ∧
  (∀ s : State, modeOf s ≠ 0 → s.pwr.railsOff = false → s.pwr.due = none → s.dose.passes = [] → s.dose.plc.decelPending = false → s.dose.plc.runoutPending = false →
    s.ctl.estopOpen = [] → s.ctl.estopDisc = false → (∀ a < 6, (axisOf s a).prof = none ∧ (axisOf s a).running = false ∧
      (axisOf s a).linkStopped = false ∧ axisSource a s = 0 ∧ (pdiff (measPos a s) (cmdPos a s)).natAbs ≤ rd R.MOT_FOLLOW_LIMIT s a) →
    ∃ t w0 w1 w2 w3 w4 w5, exec .motionLinkFrame s = .next t ∧ t.mot = s.mot ∧
      t.out = .motionFrame 5 w5 :: .motionFrame 4 w4 :: .motionFrame 3 w3 :: .motionFrame 2 w2 :: .motionFrame 1 w1 :: .motionFrame 0 w0 :: s.out) ∧
  (∀ (a c ch : Nat) (s : State), a < 6 → (∃ t, exec (.encoderFault a 4 ch) s = .next t ∧ EventShows 136 t ∧ t.mot = s.mot) ∧
    (1 ≤ c → c ≤ 3 → axisSource a s = 0 → ∃ u, exec (.encoderFault a c ch) s = .next (axisFault a 2 u) ∧ homed a u = false ∧ EventShows 136 u)) ∧
  (∀ (a r0 r1 r2 : Nat) (s : State), a < 6 → loopClass r0 ≤ 1 → loopClass r1 ≤ 1 → loopClass r2 ≤ 1 → ∃ t, exec (.switchClassify a r0 r1 r2) s = .next t ∧
    rdf R.MOT_SWITCH_RAW 0 3 t a = loopClass r0 ∧ rdf R.MOT_SWITCH_RAW 4 3 t a = loopClass r1 ∧ rdf R.MOT_SWITCH_RAW 8 3 t a = loopClass r2) ∧
  (∀ (a i : Nat) (s : State), a < 6 → i < 3 → (tget {} (axisOf s a).sw i).edges = 0 → 1 ≤ rdf R.MOT_CHATTER_MAX 0 8 s a →
    ∃ t, exec (.switchRawEdge a i (rdb R.MOT_CFG (5 + i) s a)) s = .next t ∧ (tget {} (axisOf t a).sw i).edges = 1 ∧
      (tget {} (axisOf t a).sw i).closed = rdb R.MOT_CFG (5 + i) s a ∧ rd R.MOT_HOME_CAPTURE t a = toBits 64 (measPos a s)) ∧
  (∀ (a i : Nat) (s : State), a < 6 → i < 3 → (tget {} (axisOf s a).sw i).edges ≠ 0 → (axisOf s a).running = false →
    ∃ t, exec (.switchDebounceAccept a i) s = .next t ∧ (tget {} (axisOf t a).sw i).active = rawActive a i s ∧ (tget {} (axisOf t a).sw i).edges = 0 ∧
      rdb R.MOT_STATUS (4 + i) t a = switchActive a i t)

/-- Nothing happens on a port that does not run. A frame that follows no trigger goes to the lowest enabled context of its
port and virtual channel that takes free-running frames: its counter advances, it holds the context's active page and
size, with no line received. With no such context the frame is unassigned: PORT_ERROR. A good line that fits the buffer
joins the port's buffer as the frame's next line; a line past the height counts as extra; a line of a type the module does
not take counts as a port error. A Frame End before the height makes the frame SHORT, as a time-out does. The pipeline
takes a buffered line of the next port. (R325, R328, R331, R338, R340, R347) -/
def Obligations.CameraFrames : Prop :=
  (∀ (p v : Nat) (l : CsiLine) (s : State), portRuns p s = false → exec (.csiFrameStart p v) s = .next s ∧ exec (.csiFrameEnd p v) s = .next s ∧
    (l.port = p → exec (.csiLinePacket l) s = .next s)) ∧
  (∀ (p v c : Nat) (s : State), portRuns p s = true → v < 4 → c < 16 → frameOn p v s = none → tget? s.cam.pulses p = none →
    ctxOn s c = true → ctxPort s c = p → ctxVc s c = v → rdb R.CAM_CTX_CFG 5 s c = true →
    (∀ d < c, ¬(ctxOn s d = true ∧ ctxPort s d = p ∧ ctxVc s d = v ∧ rdb R.CAM_CTX_CFG 5 s d = true)) →
    rdb R.CAM_CTX_COMMIT 0 s c = false → (camCtx s c).queue = [] →
    ∃ t f, exec (.csiFrameStart p v) s = .next t ∧ t.cam.frames = s.cam.frames ++ [f] ∧ f.context = c ∧ f.port = p ∧ f.vc = v ∧
      f.number = (ctxFrame s c + 1) % 2 ^ 32 ∧ f.triggered = false ∧ f.page = (camCtx s c).active ∧ f.width = rdf R.CAM_CTX_SIZE 0 14 s c ∧
      f.height = rdf R.CAM_CTX_SIZE 16 14 s c ∧ f.received = 0 ∧ f.ended = false ∧ ctxFrame t c = (ctxFrame s c + 1) % 2 ^ 32 ∧
      rdf R.CAM_CTX_STATUS 0 2 t c = 2) ∧
  (∀ (p v : Nat) (s : State), portRuns p s = true → v < 4 → frameOn p v s = none → tget? s.cam.pulses p = none →
    (∀ d < 16, ¬(ctxOn s d = true ∧ ctxPort s d = p ∧ ctxVc s d = v ∧ rdb R.CAM_CTX_CFG 5 s d = true)) →
    ∃ u, exec (.csiFrameStart p v) s = .next (bumpPort R.CAM_PORT_UNASSIGNED p 1 u) ∧ EventShows (147 + 4 * p) u ∧ u.cam = s.cam) ∧
  (∀ (l : CsiLine) (f : CamFrame) (s : State), portRuns l.port s = true → rawType l.dataType = true → frameOn l.port l.vc s = some f → l.errors = 0 →
    f.received < f.height → l.bytes = f.width * rawBits (rdf R.CAM_CTX_CFG 6 6 s f.context) / 8 → bufferedBytes l.port s + l.bytes ≤ 2 ^ 20 →
    ∃ t, exec (.csiLinePacket l) s = .next t ∧ tget [] t.cam.buffers l.port = tget [] s.cam.buffers l.port ++
        [{ context := f.context, frame := f.number, line := f.received, bytes := l.bytes, samples := l.samples }] ∧
      (∃ g, frameOn l.port l.vc t = some g ∧ g.received = f.received + 1 ∧ g.waiting = f.waiting + 1 ∧ g.validCount = f.validCount + 1 ∧
        g.invalid = f.invalid) ∧ rdf R.CAM_CTX_STATUS 16 16 t f.context = (f.received + 1) % 2 ^ 16) ∧
  (∀ (l : CsiLine) (f : CamFrame) (s : State), portRuns l.port s = true → rawType l.dataType = true → frameOn l.port l.vc s = some f → l.errors = 0 →
    f.height ≤ f.received → l.bytes = f.width * rawBits (rdf R.CAM_CTX_CFG 6 6 s f.context) / 8 →
    exec (.csiLinePacket l) s = .next (bumpCtx R.CAM_CTX_EXTRA_LINES f.context 1 (modFrameOf f.context f.number (fun g => { g with extra := g.extra + 1 }) (packetSeen l.port 0 s)))) ∧
  (∀ (l : CsiLine) (s : State), portRuns l.port s = true → l.dataType < 0x2A → l.dataType ∉ [2, 3, 0x12] →
    exec (.csiLinePacket l) s = .next (bumpPort R.CAM_PORT_ERRORS l.port 1 s)) ∧
  (∀ (p v : Nat) (f : CamFrame) (s : State), portRuns p s = true → s.cam.frames = [f] → f.ended = false → f.port = p → f.vc = v → f.waiting ≠ 0 →
    f.extra = 0 → f.errBits = 0 → (camCtx s f.context).queue = [] →
    (f.received < f.height → ∃ t, exec (.csiFrameEnd p v) s = .next t ∧ t.cam.frames = [{ f with ended := true, isShort := true, isLong := false, doubt := f.doubt || rdb R.CAM_CTX_STATUS 3 s f.context }] ∧
      EventShows (145 + 4 * p) t) ∧
    (f.received = f.height → f.overrun = 0 → f.invalid = 0 → ∃ t, exec (.csiFrameEnd p v) s = .next t ∧
      t.cam.frames = [{ f with ended := true, isShort := false, isLong := false, doubt := f.doubt || rdb R.CAM_CTX_STATUS 3 s f.context }] ∧ (ctxEvents s f.context = true → EventShows (144 + 4 * p) t))) ∧
  (∀ (c : Nat) (f : CamFrame) (s : State), f.port < 4 → s.cam.frames = [f] → f.ended = false → f.context = c → f.waiting ≠ 0 → f.extra = 0 → f.errBits = 0 →
    (camCtx s c).queue = [] → ∃ t, exec (.camFrameTimeout c) s = .next t ∧
      t.cam.frames = [{ f with ended := true, isShort := true, isLong := false, doubt := f.doubt || rdb R.CAM_CTX_STATUS 3 s f.context }] ∧ EventShows (145 + 4 * f.port) t) ∧
  (∀ (p : Nat) (b : BufLine) (rest : List BufLine) (f : CamFrame) (s : State), p < 4 → s.cam.lastPort < 4 → tget [] s.cam.buffers p = b :: rest →
    (∀ q < 4, q ≠ p → tget [] s.cam.buffers q = []) → s.cam.frames = [f] → f.context = b.context → f.number = b.frame → f.ended = false →
    pageN f.page 0x10 2 = 0 → ∃ t, exec (.camLineProcess 0) s = .next t ∧ tget [] t.cam.buffers p = rest ∧ t.cam.lastPort = p ∧
      t.cam.frames = [{ f with
        waiting := f.waiting - 1
        lines := tset f.lines b.line (stageBlack f.page (rawBits (rdf R.CAM_CTX_CFG 6 6 s b.context)) b.line [] b.samples) }] ∧
      t.regs = s.regs ∧ t.mem = s.mem) ∧
  (∀ (c : Nat) (f : CamFrame) (s : State), s.cam.frames = [f] → f.context = c → f.ended = true → f.waiting = 0 → f.buffer = none → pageFlag f.page 1 = false →
    ∃ t, exec (.positionWaitTimeout c) s = .next t ∧ t.cam.frames = [] ∧ t.cam.ctxs = s.cam.ctxs)

/-- A software trigger of a running port starts a pulse of the context it names, stamped with the time; on a port that does
not run it does nothing, and one that arrives while the output pulses is dropped and counted. The width elapsed, the pulse
ends. A direct bus command on an idle bus is sent at once and shown busy; its end shows the result, an error posting
CTRL_BUS_ERROR. COMMIT is held for the next frame. A context whose settings are legal is enabled with an invalid
reference, and can be disabled; a buffer release frees a buffer that only host software held. A power output follows its
enable; an overload turns it off until its enable is written 0. (R326, R327, R329, R330, R332, R339, R344) -/
def Obligations.CameraControl : Prop :=
  (∀ (p : Nat) (v : Word32) (s : State), (portRuns p s = false → exec (.camTrigSw p v) s = .next s) ∧
    (∀ x, portRuns p s = true → tget? s.cam.pulses p = some x → x.running = true →
      exec (.camTrigSw p v) s = .next (bumpPort R.CAM_TRIG_DROPS p 1 s)) ∧
    (portRuns p s = true → tget? s.cam.pulses p = none → ∃ t, exec (.camTrigSw p v) s = .next t ∧
      tget? t.cam.pulses p = some { context := v.toNat % 16, tt := ttNow s, e := nowE s } ∧ rd R.CAM_TRIG_LAST_TT t p = ttNow s ∧
      (rdb R.PIN_FAULT (18 + p) s = false → t.out = .triggerPulse p true (true != rdb R.CAM_TRIG_CFG 0 s p) :: s.out) ∧ (rdb R.PIN_FAULT (18 + p) s = true → t.out = s.out))) ∧
  (∀ (p : Nat) (x : Pulse) (s : State), tget? s.cam.pulses p = some x → x.running = true → rdb R.PIN_FAULT (18 + p) s = false → ∃ t, exec (.triggerPulseEnd p) s = .next t ∧
    tget? t.cam.pulses p = some { x with running := false } ∧ t.out = .triggerPulse p false (false != rdb R.CAM_TRIG_CFG 0 s p) :: s.out ∧ t.regs = s.regs) ∧
  (∀ (p : Nat) (v : Word32) (s : State), p < 4 → (camBus s p).current = none → (camBus s p).direct = none → (camBus s p).due = [] →
    ∃ t d, exec (.camBusCmd p v) s = .next t ∧ t.out = .busTransaction p (rdf R.CAM_BUS_CFG 0 2 s p) (bits 0 7 v.toNat) (bit 7 v.toNat) (bits 8 2 v.toNat)
        (rdf R.CAM_BUS_REG 0 16 s p) (max 1 (min 16 (bits 16 5 v.toNat))) d :: s.out ∧
      (bit 7 v.toNat = true → d = []) ∧ rdb R.CAM_BUS_STATUS 0 t p = true ∧ (camBus t p).current.isSome = true ∧ (camBus t p).read = bit 7 v.toNat) ∧
  (∀ (p result : Nat) (o : SensorOp) (data : List Byte) (s : State), p < 4 → (camBus s p).current = some (false, o) → (camBus s p).direct = none →
    (camBus s p).due = [] → result < 8 →
    (result = 0 → (camBus s p).read = false → ∃ t, exec (.camBusTransactionDone p result data) s = .next t ∧ (camBus t p).current = none ∧
      rdf R.CAM_BUS_STATUS 1 3 t p = 0 ∧ rdb R.CAM_BUS_STATUS 0 t p = false) ∧
    (result ≠ 0 → ∃ u, exec (.camBusTransactionDone p result data) s = .next (wrb R.CAM_BUS_STATUS 0 false (bumpPort R.CAM_BUS_ERRORS p 1 u) p) ∧
      EventShows 163 u ∧ (camBus u p).current = none ∧ rdf R.CAM_BUS_STATUS 1 3 u p = result)) ∧
  (∀ (c : Nat) (s : State), c < 16 → ∃ t, exec (.camCommit c) s = .next t ∧ rdb R.CAM_CTX_COMMIT 0 t c = true ∧ t.cam = s.cam ∧ t.out = s.out) ∧
  (∀ (c : Nat) (v : Word32) (s : State), c < 16 → bit 0 v.toNat = true → (ctxOn s c = true → exec (.camCtxEnable c v) s = .next s) ∧
    (ctxOn s c = false → frameOf s c = none → rawType (bits 6 6 v.toNat) = true → 16 ≤ rdf R.CAM_CTX_SIZE 0 14 s c → rdf R.CAM_CTX_SIZE 0 14 s c ≤ 8192 →
      rdf R.CAM_CTX_SIZE 0 14 s c % 16 = 0 → 2 ≤ rdf R.CAM_CTX_SIZE 16 14 s c → rdf R.CAM_CTX_SIZE 16 14 s c ≤ 8192 →
      rd R.CAM_CTX_REF_BASE s c % 2 ^ 20 = 0 → rd R.CAM_CTX_MAP_BASE s c % 2 ^ 20 = 0 →
      rd R.CAM_CTX_REF_BASE s c + rdf R.CAM_CTX_SIZE 0 14 s c * rdf R.CAM_CTX_SIZE 16 14 s c * 2 ≤ dramSize →
      rd R.CAM_CTX_MAP_BASE s c + 32 * 2 ^ 20 ≤ dramSize → ∃ t, exec (.camCtxEnable c v) s = .next t ∧ ctxOn t c = true ∧
      EventShows 165 t ∧ rdf R.CAM_CTX_STATUS 0 2 t c = 1 ∧ rdb R.CAM_CTX_STATUS 2 t c = false)) ∧
  (∀ (c : Nat) (s : State), c < 16 → (ctxOn s c = false → exec (.camCtxDisable c) s = .next s) ∧
    (ctxOn s c = true → frameOf s c = none → (camCtx s c).queue = [] → rdb R.CAM_CTX_COMMIT 0 s c = false → ∃ t, exec (.camCtxDisable c) s = .next t ∧ ctxOn t c = false ∧
      rdf R.CAM_CTX_STATUS 0 2 t c = 0 ∧ t.out = s.out)) ∧
  (∀ (c : Nat) (v : Word32) (s : State), c < 16 → ∃ t, exec (.camBufferRelease c v) s = .next t ∧
    (camCtx t c).heldHost = (camCtx s c).heldHost.filter (· != v.toNat % 4) ∧ (camCtx t c).heldThe = (camCtx s c).heldThe ∧
    (v.toNat % 4 ∉ (camCtx s c).heldThe → rdb R.CAM_CTX_STATUS (8 + v.toNat % 4) t c = false) ∧ t.out = s.out) ∧
  (∀ (v : Word32) (s : State), ∃ t, exec (.camPwrCtrlWrite v) s = .next t ∧ rd R.CAM_PWR_CTRL t = v.toNat % 16 ∧
    rdf R.CAM_PWR_STATUS 8 4 t = (rdf R.CAM_PWR_STATUS 8 4 s &&& (v.toNat % 16)) ∧
    rdf R.CAM_PWR_STATUS 0 4 t = (if modeOf s ≤ 1 ∨ camInReset s = true then 0 else v.toNat % 16 &&& (15 - (rdf R.CAM_PWR_STATUS 8 4 s &&& (v.toNat % 16)))) ∧ t.cam = s.cam) ∧
  (∀ (p cause ma : Nat) (s : State), (p < 4 → rdb R.CAM_PWR_STATUS p s = false → exec (.camPowerFault p cause ma) s = .next s) ∧
    (p < 4 → rdb R.CAM_PWR_STATUS p s = true → ∃ t, exec (.camPowerFault p cause ma) s = .next t ∧ rdb R.CAM_PWR_STATUS p t = false ∧
      rdb R.CAM_PWR_STATUS (8 + p) t = true ∧ EventShows 24 t ∧ t.cam = s.cam))

/-- A request for an input that is off converts nothing and reads not valid, stamped; else it starts an idle converter, or
joins the queue. STANDING_REQUEST does nothing in DORMANT, else asks for the die. A result of a remote input that carries
no head is stored, valid and stamped; one that fails its detection keeps the value, sets the fault and posts it once a
run. THM_CAL_RUN outside READY and BUILD is refused; of items whose gap exists it enters CALIBRATE. An item done OK stages
its result and clears its due bit; one that failed stages nothing; the last one returns to the mode it came from. (R466,
R467, R468, R479, R480, R481) -/
def Obligations.ThermalSensing : Prop :=
  (∀ (fw : Bool) (n : Nat) (v : Word32) (s : State), n < 10 → v.toNat = 2 ^ n →
    (inputOff n s = true → ∃ u, exec (.thmReq fw v) s = .next (checkDie u) ∧ rdf R.THM_RESULT 16 2 u n = 0 ∧ rd R.THM_RESULT_TT u n = ttNow s ∧
      rdf R.THM_RESULT 0 16 u n = rdf R.THM_RESULT 0 16 s n ∧ u.thm = s.thm) ∧
    (inputOff n s = false → s.thm.converting = none → s.thm.queue = [] → ∃ t, exec (.thmReq fw v) s = .next t ∧ t.thm.queue = [] ∧
      t.thm.converting = some { sensor := n, prio := if fw then 5 else 4, who := [if fw then whoPeriod else whoHost] } ∧ rdb R.THM_STATUS 0 t = true) ∧
    (inputOff n s = false → ∀ c, s.thm.converting = some c → (∀ x ∈ s.thm.queue, x.sensor ≠ n) → ∃ t, exec (.thmReq fw v) s = .next t ∧
      t.thm.converting = some c ∧ t.thm.queue = s.thm.queue ++ [{ sensor := n, prio := if fw then 5 else 4, who := [if fw then whoPeriod else whoHost] }])) ∧
  (∀ s : State, (modeOf s = 0 → exec .standingRequest s = .next s) ∧
    (modeOf s ≠ 0 → (∀ i < 8, isHead i s = false) → s.thm.converting = none → s.thm.queue = [] → ∃ t, exec .standingRequest s = .next t ∧
      t.thm.converting = some { sensor := 0, prio := 1, who := [whoBezel] } ∧ t.thm.queue = [] ∧ rdb R.THM_STATUS 0 t = true)) ∧
  (∀ (reading : Int) (fault raw : Nat) (s : State), s.thm.converting = none → exec (.thmConversionDone reading fault raw) s = .next s) ∧
  (∀ (reading : Int) (given raw : Nat) (c : Conv) (s : State), s.thm.converting = some c → s.thm.queue = [] → 1 ≤ c.sensor → c.sensor < 9 →
    inputOff c.sensor s = false → isHead (c.sensor - 1) s = false → c.who.contains whoBuild = false → detect c.sensor given raw s = 0 →
    (c.sensor ≤ 2 → rdb R.THM_STATUS 5 s = false) →
    ∃ t, exec (.thmConversionDone reading given raw) s = .next t ∧ rdf R.THM_RESULT 0 16 t c.sensor = toBits 16 reading ∧ rdb R.THM_RESULT 16 t c.sensor = true ∧
      rdb R.THM_RESULT 17 t c.sensor = false ∧ rd R.THM_RESULT_TT t c.sensor = ttNow s ∧ t.thm.converting = none ∧ rdb R.THM_STATUS 0 t = false) ∧
  (∀ (reading : Int) (fault raw : Nat) (c : Conv) (s : State), detect c.sensor fault raw s ≠ 0 → s.thm.converting = some c → s.thm.queue = [] → 1 ≤ c.sensor → c.sensor < 9 →
    inputOff c.sensor s = false → isHead (c.sensor - 1) s = false → c.who = [whoCal] → s.thm.faultRun.contains c.sensor = false →
    (c.sensor ≤ 2 → rdb R.THM_STATUS 5 s = false) →
    ∃ t, exec (.thmConversionDone reading fault raw) s = .next t ∧ rdf R.THM_RESULT 0 16 t c.sensor = rdf R.THM_RESULT 0 16 s c.sensor ∧
      rdb R.THM_RESULT 17 t c.sensor = true ∧ EventShows 44 t ∧ c.sensor ∈ t.thm.faultRun) ∧
  (∀ (v : Word32) (s : State), (modeOf s ≠ 3 → modeOf s ≠ 4 → exec (.thmCalRun v) s = .next (wrb R.THM_CAL_STATUS 18 true s)) ∧
    (modeOf s = 3 → onesOf 7 (v.toNat % 128) ≠ [] → (∀ k ∈ onesOf 7 (v.toNat % 128), rdb R.THM_CAL_ITEM 6 s k = true) →
      ∃ t, exec (.thmCalRun v) s = .next t ∧ modeOf t = 5 ∧ t.thm.run = some { items := onesOf 7 (v.toNat % 128), startNs := s.time.ns, gap := 3 })) ∧
  (∀ (ok : Bool) (r : CalResult) (s : State), s.thm.run = none → exec (.calItemDone ok r) s = .next s) ∧
  (∀ (r : CalResult) (run : CalRun) (k k2 : Nat) (l : List Nat) (s : State), s.thm.run = some run → run.items = k :: k2 :: l → k < 7 →
    (∃ t, exec (.calItemDone true r) s = .next t ∧ t.thm.run = some { run with items := k2 :: l, startNs := s.time.ns, again := false } ∧
      tget? t.thm.staged k = some r ∧ (run.again = false → rdb R.THM_CAL_DUE k t = false) ∧ EventShows 42 t) ∧
    (∃ t, exec (.calItemDone false r) s = .next t ∧ t.thm.run = some { run with items := k2 :: l, startNs := s.time.ns, again := false } ∧
      t.thm.staged = s.thm.staged ∧ rdb R.THM_CAL_DUE k t = rdb R.THM_CAL_DUE k s ∧ EventShows 42 t)) ∧
  (∀ (ok : Bool) (r : CalResult) (run : CalRun) (k : Nat) (s : State), s.thm.run = some run → run.items = [k] → s.ctl.calFrom = 4 →
    ∃ t, exec (.calItemDone ok r) s = .next t ∧ modeOf t = 4 ∧ t.thm.run = none)

/-- Setting SAF_CTRL.lock posts EV_LIMIT_LOCKED with cause LOCKED and locks; a second write has no further effect. After the
lock a firmware write to a locked register, by REGISTER_WRITE of 4 or 8 bytes or from a policy record, leaves every
register as it was; the first in the lock period posts EV_LIMIT_LOCKED with cause WRITE_AFTER_LOCK, a later one nothing.
(An 8-byte write gives up a held low half, R12.) (R487) -/
def Obligations.LimitsLock : Prop :=
  (∀ s : State, locked s = false → ∃ d, exec .safLock s = .next (postEvent 227 0 0 0 ((0, 1, 1) :: d) (wr R.SAF_CTRL 3 s)) ∧
    locked (postEvent 227 0 0 0 ((0, 1, 1) :: d) (wr R.SAF_CTRL 3 s)) = true) ∧
  (∀ s : State, locked s = true → exec .safLock s = .next s) ∧
  (∀ (a : Nat) (v : Word) (r : RegInfo) (s : State), locked s = true → answers s = true → findReg a = some r →
    r = R.THM_THROTTLE_START ∨ (accessOf true r = .rwl ∧ r ≠ R.RST_WDOG_CFG ∧ writers.find? (fun w => w.1.base == r.base) = none ∧
      R.allPin.any (fun x => x.base == r.base) = false ∧ r ≠ R.EVT_CFG) →
    (r.bytes = 4 → a % 4 = 0 → is64 a = false → (a % 8 = 4 → is64 (a - 4) = false) →
      (s.ctl.lockWrite = true → exec (.registerWrite true a 4 v) s = .next s) ∧
      (s.ctl.lockWrite = false → ∃ d, exec (.registerWrite true a 4 v) s =
        .next (postEvent 227 0 1 0 ((0, 1, 2) :: d) (modCtl (fun c => { c with lockWrite := true }) s)))) ∧
    (r.bytes = 8 → a % 8 = 0 → beamWindow a = none →
      (s.ctl.lockWrite = true → exec (.registerWrite true a 8 v) s = .next { s with heldLow := terase s.heldLow a }) ∧
      (s.ctl.lockWrite = false → ∃ d, exec (.registerWrite true a 8 v) s =
        .next (postEvent 227 0 1 0 ((0, 1, 2) :: d) (modCtl (fun c => { c with lockWrite := true }) { s with heldLow := terase s.heldLow a }))))) ∧
  (∀ (r : RegInfo) (v i : Nat) (s : State), locked s = true → (s.ctl.lockWrite = true → wrLocked r v s i = s) ∧
    (s.ctl.lockWrite = false → ∃ d, wrLocked r v s i = postEvent 227 0 1 0 ((0, 1, 2) :: d) (modCtl (fun c => { c with lockWrite := true }) s)))

/-- ENVELOPE_CHECK does nothing in DORMANT or while every axis is inside its envelope; the first axis found outside trips with
cause ENVELOPE and that axis, posts EV_ENVELOPE_TRIP and is shorted before the next is checked. A channel of the open
E-stop that closes while the other is open shows closed; the last one posts EV_ESTOP, ends the discrepancy bit and lets
motion go. Channels that disagree latch DISCREPANCY. The stop time-out withholds the enables while the E-stop is open. A
test pulse that finds no cross-short changes nothing but its record; a cross-short is a fault and opens the E-stop. A
permit that returns lets the beam follow. A readback that agrees trips nothing and ends the trip condition of its own that
stands, SAF_STATUS.trip showing whether another still does; one that disagrees trips. (R18, R490, R491, R493, R494, R495,
R533) -/
def Obligations.BezelCommands : Prop :=
  (∀ (speeds : List Nat) (s : State), modeOf s = 0 ∨ (s.ctl.envBad = [] ∧ ∀ a < 6, envKind a (speeds.getD a 0) s = 0) →
    exec (.envelopeCheck speeds) s = .next s) ∧
  (∀ (speeds : List Nat) (a : Nat) (s : State), modeOf s ≠ 0 → a < 6 → s.ctl.envBad = [] → (∀ b < a, envKind b (speeds.getD b 0) s = 0) →
    envKind a (speeds.getD a 0) s ≠ 0 → ∃ m lim d, exec (.envelopeCheck speeds) s = .next (each ((List.range 6).drop (a + 1)) (fun b u =>
      envCheck b (speeds.getD b 0) u) (shortAxis a 1 (postEvent 230 a 2 0 ((0, 1, (envKind a (speeds.getD a 0) s : Nat)) :: d)
        (bezelTrip 4 a m lim 0 (modCtl (fun c => { c with envBad := [a] }) s)))))) ∧
  (∀ (c : Nat) (s : State), c < 2 → (c ∉ s.ctl.estopOpen ∨ s.ctl.pin.ioPresent = false → exec (.estopClose c) s = .next s) ∧
    (s.ctl.pin.ioPresent = true → c ∈ s.ctl.estopOpen → 1 - c ∈ s.ctl.estopOpen → ∃ t, exec (.estopClose c) s = .next t ∧
      t.ctl.estopOpen = s.ctl.estopOpen.filter (· != c) ∧ rdb R.SAF_STATUS (2 + c) t = true ∧ t.ctl.beamEnable = s.ctl.beamEnable ∧ t.out = s.out) ∧
    (s.ctl.pin.ioPresent = true → s.ctl.estopOpen = [c] → s.ctl.estopDisc = false → ∃ u, exec (.estopClose c) s = .next (updateBeam 1 (updateEnables u)) ∧
      u.ctl.estopOpen = [] ∧ u.ctl.motionHold = false ∧ rdb R.SAF_STATUS (2 + c) u = true ∧ rdb R.SAF_STATUS 4 u = false ∧ EventShows 225 u)) ∧
  (∀ s : State, (s.ctl.estopOpen.length = 1 → s.ctl.estopDisc = false → ∃ t, exec .estopDiscrepancy s = .next t ∧ t.ctl.estopDisc = true ∧
      rdb R.SAF_STATUS 4 t = true ∧ EventShows 225 t) ∧
    (s.ctl.estopOpen.length ≠ 1 ∨ s.ctl.estopDisc = true → exec .estopDiscrepancy s = .next s)) ∧
  (∀ s : State, (estopMask s = 0 → exec .estopStopTimeout s = .next s) ∧
    (estopMask s ≠ 0 → exec .estopStopTimeout s = .next (updateEnables (modCtl (fun x => { x with motionHold := true }) s)))) ∧
  (∀ (c : Nat) (s : State), c < 2 → s.ctl.pin.ioPresent = true → rdb R.PIN_FAULT 11 s = false →
    (∃ t, exec (.estopTestPulse c false) s = .next t ∧ t.out = .estopTestPulse :: s.out ∧ t.regs = s.regs ∧ c ∉ t.ctl.pin.crossBad) ∧
    (rdb R.PIN_FAULT 31 s = false → s.ctl.estopOpen = [] → s.ctl.estopDisc = false → ∃ u, exec (.estopTestPulse c true) s = .next (estopOpened u) ∧
      u.ctl.estopDisc = true ∧ c ∈ u.ctl.pin.crossBad ∧ rdb R.SAF_STATUS 4 u = true ∧ rdb R.PIN_FAULT 31 u = true ∧ EventShows 245 u)) ∧
  (∀ s : State, s.ctl.permit = false → s.ctl.pin.ioPresent = true → ∃ u, exec (.beamPermitChange true) s = .next (updateBeam 2 u) ∧
    u.ctl.permit = true ∧ rdb R.SAF_STATUS 1 u = true) ∧
  (∀ (p : Nat) (active : Bool) (s : State), p < 4 → (active = enableOf p s → ∃ t, exec (.enableFeedbackFault p active) s = .next t ∧
      t.ctl.trips = s.ctl.trips.filter (fun x => !(x == (6, p))) ∧ rdb R.SAF_STATUS 7 t = !t.ctl.trips.isEmpty ∧ t.ctl.beamEnable = s.ctl.beamEnable ∧
      t.out = s.out ∧ t.mem = s.mem) ∧
    (active ≠ enableOf p s → exec (.enableFeedbackFault p active) s = .next (bezelTrip 6 p (b2n active) (b2n (enableOf p s)) 0 s))) ∧
  (∀ (closed : Bool) (s : State), (closed = s.ctl.relay → ∃ t, exec (.relayFeedbackFault closed) s = .next t ∧
      rdb R.SAF_STATUS 6 t = closed ∧ t.ctl = { s.ctl with trips := s.ctl.trips.filter (fun x => !(x.1 == 5)) } ∧
      rdb R.SAF_STATUS 7 t = !t.ctl.trips.isEmpty ∧ t.out = s.out) ∧
    (closed ≠ s.ctl.relay → ∃ u, exec (.relayFeedbackFault closed) s = .next (bezelTrip 5 0xFF (b2n closed) (b2n s.ctl.relay) 0 u) ∧
      rdb R.SAF_STATUS 6 u = closed ∧ u.ctl = s.ctl))

/-- Whatever the cause, the axis or port and the measured value, a trip in a mode that HOLD can be entered from sets hold
cause BEZEL_TRIP and enters HOLD; before the hold, the trip condition and its cause are recorded, the beam is off and the
relay open, and EV_BEZEL_TRIP shows. (R18, R19, R26, R28, R491) -/
def Obligations.BezelTrips : Prop :=
  ∀ (cause unit measured limit line : Nat) (s : State), cause < 16 → unit < 256 →
    (∃ u, bezelTrip cause unit measured limit line s = holdCause 1 u ∧ rd R.SAF_TRIP u = cause + 2 ^ 8 * unit ∧ rdb R.SAF_STATUS 7 u = true ∧
      u.ctl.beamEnable = false ∧ u.ctl.relay = false ∧ rdb R.SAF_STATUS 0 u = false ∧ EventShows 224 u) ∧
    (modeOf s = 3 ∨ modeOf s = 4 ∨ modeOf s = 5 ∨ modeOf s = 7 → modeOf (bezelTrip cause unit measured limit line s) = 6 ∧
      rdb R.CTL_HOLD_CAUSE 1 (bezelTrip cause unit measured limit line s) = true)

/-- ROLLBACK_COMMIT with the key, the firmware running in READY and a level above the fused one burns the level and shows it;
else it changes nothing. HEAD_REAUTH does nothing before BRINGUP, else sends a fresh challenge. An authentication that is
not running is not ended; one that fails shows its cause, posts HEAD_AUTH_FAIL and sets hold cause 12, one that passes
shows PASSED and the serial, posts its event and flushes the usage. A poll of the authenticated serial changes nothing but
the chip bit; another serial or none fails it. USAGE_MERGE empties the running sums and shows the counters; HSV_FLUSH in
READY, HOLD and SERVICE with an authenticated head present and no earlier write open, the write verifying, writes and
empties the sets; a keyed discard empties the orphans. (R501, R512, R513, R514, R515, R516) -/
def Obligations.HeadServices : Prop :=
  (∀ (v : Word32) (s : State), (v.toNat % 256 = 0xA5 → rdf R.CTL_LOADER 0 3 s = 4 → modeOf s = 3 → fusedLevel s < rdf R.CTL_FW_ROLLBACK 0 6 s →
      ∃ t, exec (.rollbackCommit v) s = .next t ∧ rd R.FUS_ROLLBACK t = (rd R.FUS_ROLLBACK s ||| (2 ^ rdf R.CTL_FW_ROLLBACK 0 6 s - 1)) % 2 ^ 32 ∧
        rdf R.CTL_FW_ROLLBACK 8 6 t = fusedLevel t % 64 ∧ rdf R.CTL_FW_ROLLBACK 0 6 t = rdf R.CTL_FW_ROLLBACK 0 6 s) ∧
    (v.toNat % 256 ≠ 0xA5 ∨ modeOf s ≠ 3 → exec (.rollbackCommit v) s = .next s)) ∧
  (∀ s : State, (modeOf s < 2 → exec .headReauth s = .next s) ∧
    (2 ≤ modeOf s → ∃ t, exec .headReauth s = .next t ∧ rdf R.HSV_STATUS 0 2 t = 1 ∧ t.head.challenge = leBytes 32 (Config.freeNat s.freeCtr) ∧
      t.out = .challenge 1 (Config.freeNat s.freeCtr % 2 ^ 256) :: s.out ∧ t.freeCtr = s.freeCtr + 1)) ∧
  (∀ (h : HeadIn) (u : UsageIn) (s : State), (rdf R.HSV_STATUS 0 2 s ≠ 1 → exec (.headAuthComplete h u) s = .next s) ∧
    (rdf R.HSV_STATUS 0 2 s = 1 → ∀ c, c = authCause h (wrb R.HSV_STATUS 2 h.chip s) → ∃ w, rdf R.HSV_STATUS 0 2 w = (if c = 0 then 2 else 3) ∧
      exec (.headAuthComplete h u) s = .next (if c = 0 then usageFlush 4 u w else holdCause 12 w) ∧ EventShows (if c = 0 then 240 else 241) w ∧
      (c = 0 → w.head.serial = bytesAt h.identity 12 16) ∧ (c ≠ 0 → rdf R.HSV_STATUS 8 8 w = c))) ∧
  (∀ (x : Option Nat) (s : State), rdf R.HSV_STATUS 0 2 s = 2 →
    (x = some s.head.serial → rdb R.HSV_STATUS 2 s = true → exec (.headIdentityPoll x) s = .next (wrb R.HSV_STATUS 2 true s)) ∧
    (x ≠ some s.head.serial → ∃ w, exec (.headIdentityPoll x) s = .next (if x.isSome then startAuth (holdCause 12 w) else holdCause 12 w) ∧
      rdf R.HSV_STATUS 0 2 w = 3 ∧ rdf R.HSV_STATUS 8 8 w = 9 ∧ rdb R.HSV_STATUS 2 w = x.isSome ∧ EventShows 241 w)) ∧
  (∀ s : State, ∃ t, exec .usageMerge s = .next t ∧ t.head.running = [] ∧ t.head.delta = (joinUse s.head.delta s.head.running).1 ∧
    t.head.inflight = s.head.inflight ∧ ∀ g < 64, rd R.HSV_USAGE t g = min useMax (tget 0 t.head.delta g + tget 0 t.head.inflight g)) ∧
  (∀ (u : UsageIn) (s : State), (modeOf s ≠ 3 → modeOf s ≠ 6 → modeOf s ≠ 7 → exec (.hsvFlush u) s = .next s) ∧
    (modeOf s = 3 ∨ modeOf s = 6 ∨ modeOf s = 7 → rdb R.HSV_STATUS 2 s = true → rdf R.HSV_STATUS 0 2 s = 2 → s.head.pending = none → u.verify = true →
      ∃ t, exec (.hsvFlush u) s = .next t ∧ t.head.running = [] ∧ t.head.delta = [] ∧ t.head.inflight = [] ∧ t.head.pending = none ∧ EventShows 242 t)) ∧
  (∀ (v : Word32) (s : State), (v.toNat % 256 = 0xA5 → ∃ t, exec (.hsvUsageDiscard v) s = .next t ∧ t.head.orphan = [] ∧ rdb R.HSV_STATUS 6 t = false ∧
      t.head.delta = s.head.delta) ∧ (v.toNat % 256 ≠ 0xA5 → exec (.hsvUsageDiscard v) s = .next s))

/-- A request that R508 bars posts its refusal and leaves no challenge open; else a fresh challenge is shown and sent. A
response with no open request is only stored. One with an open request ends it and posts the outcome, and unlocks with the
scope asked for exactly where nothing bars it, the key slot is usable and its hash fits, and the signature verifies. A
relock ends an unlock and reports it; without one it changes nothing. (R508, R517) -/
def Obligations.DebugUnlock : Prop :=
  (∀ (v : Word32) (s : State), (debugBar (bits 8 2 v.toNat) s ≠ 0 → ∃ t, exec (.dbgRequest v) s = .next t ∧ t.ctl.debug = none ∧ EventShows 235 t ∧
      (∀ i, rd R.DBG_CHALLENGE t i = rd R.DBG_CHALLENGE s i)) ∧
    (debugBar (bits 8 2 v.toNat) s = 0 → ∃ t, exec (.dbgRequest v) s = .next t ∧ t.ctl.debug = some (bits 0 3 v.toNat, bits 8 2 v.toNat) ∧
      t.out = .challenge 2 (Config.freeNat s.freeCtr % 2 ^ 256) :: s.out ∧
      (∀ i < 8, rd R.DBG_CHALLENGE t i = bits (32 * i) 32 (Config.freeNat s.freeCtr % 2 ^ 256)) ∧ t.freeCtr = s.freeCtr + 1)) ∧
  (∀ (v : Word32) (s : State), (s.ctl.debug = none → exec (.dbgResponse v) s = .next (wr R.DBG_RESPONSE v.toNat s 23)) ∧
    (∀ scope slot, s.ctl.debug = some (scope, slot) → scope < 8 → ∀ ok, ok = (debugBar slot s == 0 && slotUsable slot s &&
        sha384Bytes (wordsOf R.DBG_PUBKEY 24 s) == fuseKey slot s && Config.ecdsaP384 (wordsOf R.DBG_PUBKEY 24 s) (Config.sha384 (wordsOf R.DBG_CHALLENGE 8 s ++
          wordsOf R.IDC_SERIAL 4 s ++ [BitVec.ofNat 8 scope, BitVec.ofNat 8 slot])) (wordsOf R.DBG_RESPONSE 24 (wr R.DBG_RESPONSE v.toNat s 23))) →
      ∃ t, exec (.dbgResponse v) s = .next t ∧ t.ctl.debug = none ∧ EventShows 235 t ∧ rdb R.DBG_STATUS 0 t = (ok || rdb R.DBG_STATUS 0 s) ∧
        rdf R.DBG_STATUS 4 3 t = (if ok then scope else rdf R.DBG_STATUS 4 3 s))) ∧
  (∀ s : State, (rdb R.DBG_STATUS 0 s = true → ∃ t, exec .dbgRelock s = .next t ∧ rdb R.DBG_STATUS 0 t = false ∧ rdf R.DBG_STATUS 4 3 t = 0 ∧ EventShows 235 t) ∧
    (rdb R.DBG_STATUS 0 s = false → exec .dbgRelock s = .next s))

/-- A fault of a protected output sets its PIN_FAULT bit and posts EV_IO_FAULT; one already set changes nothing. A clear of
one output's bit clears it; the bit of the ID supply stays while its condition does. IO_24V accepted shows the inputs;
lost by undervoltage it sets its fault, absent or reversed it makes every isolated input inactive. A coolant window shows
its rate in frequency mode only; an accepted change posts EV_COOLANT, a fall sets hold cause COOLANT. An accepted edge of
a general input shows its level, and is posted where its edge is selected. PIN_OUT_WRITE takes the outputs over. (R460,
R532, R534, R535, R537, R538, R540) -/
def Obligations.PinCommands : Prop :=
  (∀ (cls index cause measured b : Nat) (s : State), faultBit cls index = some b →
    (faultCauseOk cls index cause s = true → rdb R.PIN_FAULT b s = false → ∃ u, exec (.ioOutputFault cls index cause measured) s =
      .next (if cls = 5 then updateEnables u else u) ∧ rdb R.PIN_FAULT b u = true ∧ EventShows 245 u ∧ u.ctl = s.ctl) ∧
    (rdb R.PIN_FAULT b s = true → exec (.ioOutputFault cls index cause measured) s = .next s)) ∧
  (∀ (v : Word32) (b : Nat) (s : State), b < 30 → v.toNat = 2 ^ b → ∀ idGone : Bool, (b = 29 → idGone = true → ∃ u,
      exec (.pinFaultClear v idGone) s = .next (updateEnables u) ∧ rdb R.PIN_FAULT 29 u = false ∧ u.ctl.pin.gpTaken = true) ∧
    (b = 29 → idGone = false → exec (.pinFaultClear v idGone) s = .next (updateEnables (modPin (fun p => { p with gpTaken := true }) s))) ∧
    (b < 29 → ∃ u, exec (.pinFaultClear v idGone) s = .next (updateEnables u) ∧ rdb R.PIN_FAULT b u = false ∧ u.ctl.pin.gpTaken = true)) ∧
  (∀ (mv inputs : Nat) (s : State), (s.ctl.pin.ioOk = true → exec (.ioSupplyAccept mv inputs) s = .next (wr R.PIN_IO_SUPPLY mv s)) ∧
    (s.ctl.pin.ioOk = false → mv < 2 ^ 32 → ∃ u, exec (.ioSupplyAccept mv inputs) s =
        .next (each (onesOf 2 inputs) doEstopClose (doBeamPermitChange (bit 2 inputs) u)) ∧ u.ctl.pin.ioOk = true ∧ u.ctl.pin.ioPresent = true ∧
      rdf R.PIN_IN 0 8 u = bits 8 8 inputs ∧ rd R.PIN_IO_SUPPLY u = mv ∧ (s.ctl.pin.ioLost = true → EventShows 245 u))) ∧
  (∀ (mv : Nat) (s : State), (s.ctl.pin.ioOk = true → ∃ t, exec (.ioSupplyLoss 4 mv) s = .next t ∧ t.ctl.pin.ioOk = false ∧ t.ctl.pin.ioPresent = true ∧
      rdb R.PIN_FAULT 30 t = true ∧ EventShows 245 t ∧ t.ctl.estopOpen = s.ctl.estopOpen) ∧
    (∀ cause, cause = 5 ∨ cause = 6 → s.ctl.pin.ioPresent = true → ∃ u, exec (.ioSupplyLoss cause mv) s =
        .next (coolantAccept false (doBeamPermitChange false (doEstopOpen 1 (doEstopOpen 0 u)))) ∧ u.ctl.pin.ioPresent = false ∧
      rdf R.PIN_IN 0 8 u = 0 ∧ rdb R.PIN_FAULT 30 u = true ∧ EventShows 245 u)) ∧
  (∀ (edges : Nat) (s : State), (rdb R.PIN_COOLANT_CFG 0 s = false → exec (.coolantWindow edges) s = .next s) ∧
    (rdb R.PIN_COOLANT_CFG 0 s = true → ∃ t, exec (.coolantWindow edges) s = .next t ∧ rd R.PIN_COOLANT_RATE t = min 65535 (10 * edges) ∧
      t.ctl.pin.coolRaw = decide (rdf R.PIN_COOLANT_CFG 16 16 s ≤ min 65535 (10 * edges)) ∧ t.ctl.coolant = s.ctl.coolant)) ∧
  (∀ (level : Bool) (s : State), s.ctl.pin.ioPresent = true → rdb R.PIN_COOLANT_CFG 0 s = false →
    ((level != rdb R.PIN_COOLANT_CFG 1 s) = s.ctl.coolant → exec (.coolantChange level) s = .next s) ∧
    ((level != rdb R.PIN_COOLANT_CFG 1 s) = true → s.ctl.coolant = false → ∃ t, exec (.coolantChange level) s = .next t ∧ t.ctl.coolant = true ∧ EventShows 248 t) ∧
    ((level != rdb R.PIN_COOLANT_CFG 1 s) = false → s.ctl.coolant = true → ∃ u, exec (.coolantChange level) s = .next (holdCause 5 u) ∧
      u.ctl.coolant = false ∧ EventShows 248 u)) ∧
  (∀ (n : Nat) (level : Bool) (s : State), n < 8 → (rdb R.PIN_IN n s = level → exec (.gpinEdgeAccept n level) s = .next s) ∧
    (s.ctl.pin.ioPresent = true → rdb R.PIN_IN n s ≠ level → tget? s.ctl.pin.gpinLast n = none → ∃ t, exec (.gpinEdgeAccept n level) s = .next t ∧
      rdb R.PIN_IN n t = level ∧ (rdb R.PIN_GPIN_EDGE (if level then n else 8 + n) s = true → EventShows 246 t ∧ tget? t.ctl.pin.gpinLast n = some s.time.ns))) ∧
  (∀ (v : Word32) (s : State), ∃ t, exec (.pinOutWrite v) s = .next t ∧ rd R.PIN_OUT t = v.toNat % 256 ∧ t.ctl.pin.gpTaken = true ∧ t.out = s.out)

/-- A descriptor that its ring offers, that passes the common checks (Offers) and that is its ring's only open one (Alone):
OP_MOVE and OP_HOME under the conditions of R294 queue their entry at the end of their axis's queue and complete OK, and
the axis starts the entry where it may; OP_TIME_CTRL SET and STEP set E, SOURCE sets the source, INCREMENT the increment,
COMPARE target, period and arm bit, READ nothing, and each completes OK; OP_LAYER_BEGIN opens the layer and completes OK,
OP_SWATH and OP_MEND_PASS add their pass, OP_LAYER_END waits for the boundary; a utility job without a host side starts
where no other ring has open descriptors; FILL writes its pattern and SCRUB ends, both completing OK; an OP_UPLOAD_BUFFER
waits where nothing is staged and takes a record that is staged; the timeout of a buffer that has taken a record starts
its transfer. (R68, R109, R115, R283, R294, R299, R402, R405, R411, R417, R427, R429) -/
def Obligations.DescriptorsTakeEffect : Prop :=
  (∀ (k a : Nat) (d : Desc) (x : Int) (s : State), Offers k d 0x08 (usedBits [(8, 1), (9, 1), (16, 8), (24, 4), (28, 4), (32, 4)])
      [(8, decide (dfld d 8 1 ≤ 5)), (9, decide (dfld d 9 1 ≤ 1)), (16, decide (sext 64 (dfld d 16 8) = sext 48 (dfld d 16 8)))] s →
    Alone k s → dfld d 8 1 = a → (if dfld d 9 1 = 0 then sext 48 (dfld d 16 8) else queueEnd a s + sext 48 (dfld d 16 8)) = x →
    (modeOf s = 3 ∨ modeOf s = 7 ∨ ((modeOf s = 4 ∨ modeOf s = 5) ∧ 2 ≤ a)) → (axisOf s a).queue.length < 16 →
    (dfld d 9 1 = 0 → homed a s = true) → ownedByPlacement a s = false → axisSource a s ≠ 2 → envOk a s = true →
    (homed a s = true → rdI R.MOT_ENV_MIN s a ≤ x ∧ x ≤ rdI R.MOT_ENV_MAX s a) → axisState a s ≠ mFault →
    ∃ t u, exec (.move k d) s = .next t ∧ t = startEntry a u ∧ (axisOf u a).queue = (axisOf s a).queue ++
        [{ home := false, cookie := dCookie d, target := x, vmax := dfld d 24 4, amax := dfld d 28 4, jmax := dfld d 32 4 }] ∧
      Completed k (jobOf k d s) stOk 0 t ∧ (mayStart a u = false → t = u)) ∧
  (∀ (k a : Nat) (d : Desc) (rc : List Byte) (s : State), Offers k d 0x07 (usedBits [(8, 1), (9, 1)]) [(8, decide (dfld d 8 1 ≤ 5))] s →
    Alone k s → dfld d 8 1 = a → dfld d 9 1 < 16 → tget? s.ctl.homing (16 * a + dfld d 9 1) = some rc →
    (modeOf s = 3 ∨ modeOf s = 7 ∨ ((modeOf s = 4 ∨ modeOf s = 5) ∧ 2 ≤ a)) → (axisOf s a).queue.length < 16 →
    ownedByPlacement a s = false → axisSource a s ≠ 2 → envOk a s = true → axisState a s ≠ mFault →
    ∃ t u, exec (.home k d) s = .next t ∧ t = startEntry a u ∧ (axisOf u a).queue = (axisOf s a).queue ++
        [{ home := true, cookie := dCookie d, target := 0, vmax := 0, amax := 0, jmax := 0, record := rc, recIndex := dfld d 9 1 }] ∧
      Completed k (jobOf k d s) stOk 0 t ∧ (mayStart a u = false → t = u)) ∧
  (∀ (k : Nat) (d : Desc) (s : State), Alone k s →
    (Offers k d 0x0E (usedBits [(8, 1), (16, 16)]) [(8, dfld d 8 1 == 1)] s → dfld d 8 1 = 1 → timeHeld s = false → passRunning s = false →
      ∃ t, exec (.timeCtrlSet k d) s = .next t ∧ e32 t = dfld d 16 8 * 2 ^ 32 % 2 ^ 96 ∧ Completed k (jobOf k d s) stOk 0 t) ∧
    (Offers k d 0x0E (usedBits [(8, 1), (16, 16)]) [(8, dfld d 8 1 == 2)] s → dfld d 8 1 = 2 → timeHeld s = false → passRunning s = false →
      ∃ t, exec (.timeCtrlStep k d) s = .next t ∧ (e32 t : Int) = (e32 s + sext 64 (dfld d 16 8) * 2 ^ 32) % 2 ^ 96 ∧
        Completed k (jobOf k d s) stOk 0 t) ∧
    (Offers k d 0x0E (usedBits [(8, 1), (16, 16)]) [(8, dfld d 8 1 == 3), (16, decide (dfld d 16 8 ≤ 4))] s → dfld d 8 1 = 3 →
      ∃ t, exec (.timeCtrlSource k d) s = .next t ∧ tsySource t = dfld d 16 8 ∧ Completed k (jobOf k d s) stOk 0 t) ∧
    (Offers k d 0x0E (usedBits [(8, 1), (16, 16)]) [(8, dfld d 8 1 == 4)] s → dfld d 8 1 = 4 → tsySource s = 4 →
      ∃ t, exec (.timeCtrlIncrement k d) s = .next t ∧ rd R.TSY_INCREMENT t = bits 0 40 (dfld d 16 8) ∧
        Completed k (jobOf k d s) stOk 0 t) ∧
    (∀ c, Offers k d 0x0E (usedBits [(8, 1), (16, 16)]) [(8, dfld d 8 1 == 5)] s → dfld d 8 1 = 5 → bits 32 2 (dfld d 24 8) = c →
      ∃ t, exec (.timeCtrlCompare k d) s = .next t ∧ rd R.TSY_CMP_TARGET t c = dfld d 16 8 ∧
        rd R.TSY_CMP_PERIOD t c = bits 0 32 (dfld d 24 8) ∧ rdb R.TSY_CMP_CTRL 0 t c = true ∧
        rdb R.TSY_CMP_CTRL 1 t c = bit 34 (dfld d 24 8) ∧ Completed k (jobOf k d s) stOk 0 t) ∧
    (Offers k d 0x0E (usedBits [(8, 1), (16, 16)]) [(8, dfld d 8 1 == 6)] s → dfld d 8 1 = 6 →
      ∃ t, exec (.timeCtrlRead k d) s = .next t ∧ t.time = s.time ∧ Completed k (jobOf k d s) stOk 0 t)) ∧
  (∀ (k : Nat) (d : Desc) (s : State), Offers k d 0x20 (usedBits [(8, 4), (12, 1)])
      [(2, decide (1 ≤ dContext d)), (12, decide (dfld d 12 1 < 2))] s → Alone k s → s.dose.layer = none →
    (bit 0 (dfld d 12 1) = true → rdb R.THE_CTRL 0 s = true) → contextFault (bit 0 (dfld d 12 1)) (dContext d) s = none →
    ∃ t, exec (.layerBegin k d) s = .next t ∧
      t.dose = { s.dose with layer := some { number := dfld d 8 4, context := dContext d, thermal := bit 0 (dfld d 12 1) } } ∧
      rd R.THE_LAYER t = dfld d 8 4 ∧ Completed k (jobOf k d s) stOk 0 t) ∧
  (∀ (k : Nat) (d : Desc) (hd : List Byte) (l : OpenLayer) (h : StreamHead) (s s' : State),
    Offers k d 0x21 (usedBits swathFields) (swathTests d) s → s.dose.layer = some l → dfld d 28 4 = l.number → plcState s ≠ pTurn →
    readHead d hd (taken k d s) = (.ok h, s') → (passFor false k (nextIndex k s) d l h).count ≠ 0 →
    (passFor false k (nextIndex k s) d l h).first + (passFor false k (nextIndex k s) d l h).count ≤ h.lines →
    (∀ c ∈ (passFor false k (nextIndex k s) d l h).contexts, contextFault l.thermal c s' = none) →
    ∃ t b, exec (.swath k d hd) s = .next t ∧ { passFor false k (nextIndex k s) d l h with leadLow := b } ∈ t.dose.passes) ∧
  (∀ (k : Nat) (d : Desc) (hd : List Byte) (l : OpenLayer) (h : StreamHead) (s s' : State),
    Offers k d 0x23 (usedBits (swathFields ++ [(52, 4), (56, 4), (60, 2), (62, 1)])) (swathTests d ++ [(62, decide (dfld d 62 1 < 2))]) s →
    s.dose.layer = some l → dfld d 28 4 = l.number → plcState s ≠ pTurn → readHead d hd (taken k d s) = (.ok h, s') →
    (passFor true k (nextIndex k s) d l h).count ≠ 0 →
    (passFor true k (nextIndex k s) d l h).first + (passFor true k (nextIndex k s) d l h).count ≤ h.lines →
    (∀ c ∈ (passFor true k (nextIndex k s) d l h).contexts, contextFault l.thermal c s' = none) →
    mendFault (passFor true k (nextIndex k s) d l h) s' = none →
    ∃ t b, exec (.mendPass k d hd) s = .next t ∧ { passFor true k (nextIndex k s) d l h with leadLow := b } ∈ t.dose.passes) ∧
  (∀ (k : Nat) (d : Desc) (l : OpenLayer) (s : State), Offers k d 0x22 (usedBits [(8, 4)]) [] s → Alone k s → s.dose.layer = some l →
    dfld d 8 4 = l.number → ∃ t, exec (.layerEnd k d) s = .next t ∧ t.dose = { s.dose with boundary := some (k, nextIndex k s) } ∧
      (ringInt t k).jobs = [jobOf k d s]) ∧
  (∀ (k : Nat) (d : Desc) (s : State), k < 32 → (∀ n, (ringInt s n).jobs = []) → ringState s k = 2 → hostSide d = false →
    (Offers k d 0x40 (usedBits [(8, 8), (16, 1), (17, 1), (18, 1), (19, 1), (20, 8), (28, 8), (36, 8), (44, 8), (52, 8)])
        [(16, decide (dfld d 16 1 < 3)), (17, decide (dfld d 17 1 < 2)), (18, decide (1 ≤ dfld d 18 1 ∧ dfld d 18 1 ≤ 64)),
         (19, decide (dfld d 19 1 < 4)), (44, decide (1 ≤ dfld d 44 8 ∧ dfld d 44 8 ≤ 2 ^ 40))] s →
      ∃ t, exec (.crcJob k d) s = .next t ∧ (ringInt t k).jobs = [jobOf k d s] ∧ t.mem = s.mem ∧ t.out = s.out) ∧
    (Offers k d 0x41 (usedBits [(8, 8), (16, 1), (17, 1), (18, 2), (20, 4), (24, 8), (32, 8), (40, 8), (48, 4)])
        [(16, decide (dfld d 16 1 < 2)), (17, decide (dfld d 17 1 < 4)), (18, decide (1 ≤ dfld d 18 2 ∧ dfld d 18 2 ≤ 512)),
         (20, decide (1 ≤ dfld d 20 4 ∧ dfld d 20 4 ≤ 2 ^ 31)), (48, decide (dfld d 48 4 ≤ 4096))] s →
      baseEnd (dfld d 18 2) (dfld d 17 1) (dfld d 20 4) (dfld d 48 4) ≤ dfld d 32 8 → dfld d 24 8 + 64 ≤ dramSize → dramServes s = true →
      cmdFailed (dfld d 24 8) 64 rqCodec s = false →
      ∃ t, exec (.compress k d) s = .next t ∧ (ringInt t k).jobs = [jobOf k d s] ∧
        t.mem.dram = putBytes s.mem.dram (dfld d 24 8) (List.replicate 64 0)) ∧
    (Offers k d 0x42 (usedBits [(8, 8), (16, 8), (24, 8), (32, 4), (36, 4)]) [] s →
      ∃ t, exec (.decompress k d) s = .next t ∧ (ringInt t k).jobs = [jobOf k d s] ∧ t.mem = s.mem ∧ t.out = s.out) ∧
    (Offers k d 0x43 (usedBits [(8, 8), (16, 1), (24, 8), (32, 8)])
        [(8, !(dfld d 16 1 == 0) || dfld d 8 8 % 64 == 0), (16, decide (dfld d 16 1 < 2)), (24, !(dfld d 16 1 == 0) || dfld d 24 8 % 64 == 0)] s →
      ∃ t, exec (.fill k d) s = .next t ∧ (ringInt t k).jobs = [jobOf k d s] ∧ t.mem = s.mem ∧ t.out = s.out) ∧
    (Offers k d 0x44 (usedBits [(8, 8), (16, 8), (24, 1), (25, 1), (26, 1), (32, 8)])
        [(8, dfld d 8 8 % swapUnit (dfld d 26 1) == 0), (16, dfld d 16 8 % swapUnit (dfld d 26 1) == 0),
         (24, decide (dfld d 24 1 < 2) && !(dfld d 24 1 == 1 && dfld d 25 1 == 1)), (25, decide (dfld d 25 1 < 2)),
         (26, decide (dfld d 26 1 < 4)), (32, dfld d 32 8 % swapUnit (dfld d 26 1) == 0)] s →
      ∃ t, exec (.copy k d) s = .next t ∧ (ringInt t k).jobs = [jobOf k d s] ∧ t.mem = s.mem ∧ t.out = s.out) ∧
    (Offers k d 0x45 (usedBits [(8, 8), (16, 8)]) [(8, dfld d 8 8 % 64 == 0), (16, dfld d 16 8 % 64 == 0)] s →
      ∃ t, exec (.scrub k d) s = .next t ∧ (ringInt t k).jobs = [jobOf k d s] ∧ t.mem = s.mem ∧ t.out = s.out)) ∧
  (∀ (k : Nat) (j : Job) (s : State), (ringInt s k).jobs = [j] → s.host.busMaster = true → ringType s k = tyUtility → ringState s k = 2 →
    j.started = true → j.cpl = none → (∀ n, n ≠ k → (ringInt s n).jobs = []) →
    (dOpcode j.desc = 0x43 → dfld j.desc 16 1 = 0 → dfld j.desc 8 8 + dfld j.desc 24 8 ≤ dramSize → dramServes s = true →
      cmdFailed (dfld j.desc 8 8) (dfld j.desc 24 8) rqUdma s = false →
      ∃ t, exec (.utilityJobDone k j.index) s = .next t ∧ Completed k j stOk 0 t ∧ EventShows 199 t ∧
        t.mem.dram = putBytes s.mem.dram (dfld j.desc 8 8) (patternBytes (dfld j.desc 32 8) (dfld j.desc 24 8))) ∧
    (dOpcode j.desc = 0x45 → ∃ t, exec (.utilityJobDone k j.index) s = .next t ∧ Completed k j stOk 0 t)) ∧
  (∀ (k n : Nat) (d : Desc) (s : State), Offers k d 0x60 (usedBits [(8, 8), (16, 4), (20, 1)])
      [(16, decide (4096 ≤ dfld d 16 4 ∧ dfld d 16 4 ≤ 16777216) && dfld d 16 4 % 64 == 0), (20, decide (dfld d 20 1 < 8))] s →
    k < 32 → Alone k s → ringState s k = 2 → dfld d 20 1 = n → waitingBuffer n s = none →
    ((streamOf s n).staged = [] → exec (.uploadBuffer k d) s = .next (taken k d s)) ∧
    (∀ r, (streamOf s n).staged = [r] → r.length < dfld d 16 4 → ∃ t, exec (.uploadBuffer k d) s = .next t ∧
      (ringInt t k).jobs = [{ jobOf k d s with scratch := r, phase := 1 }] ∧ (streamOf t n).staged = [])) ∧
  (∀ (n k : Nat) (j : Job) (s : State), waitingBuffer n s = some (k, j) → findJob k j.index s = some j → j.phase ≠ 0 →
    ∃ t, exec (.uploadBufferTimeout n) s = .next t ∧ findJob k j.index t =
      some { j with xfer := some { addr := dfld j.desc 8 8, len := j.scratch.length, toHost := true, data := j.scratch } })

/-- SWATH_EXECUTION_START makes the oldest pass the one in execution; FRAME_BUILD of an event with one row appends the frame
of that row and line and marks the event built; FRAME_LATE drops the port's rows of its event; POSITION_SAMPLE moves the
measured position by 256 units; STEP_INPUT_EDGE moves the step count of the axis by one; an acknowledged CHECK or SYNC
opens the next exchange; telemetry is staged for its stream; ACK_TIMEOUT and LINK_CLOCK_STOP_TIMEOUT record the frame as
resolved; ARB_REQUEST waits beside a holder, which keeps its grant; RANK_RETIRE starts a migration; the last beat of a
descriptor outside a chain is written and ends its channel; SERVO_SAMPLE stores its offset; PTP_MESSAGE_TX sends; a
release, a power-up, the end of a brownout and of a thermal trip run the sequence of L0 to the fuse load at step 2, and a
release beside another source of its reach only takes the source off; ENVELOPE_CHECK shorts the axis and reports it;
ESTOP_STOP_TIMEOUT holds motion. (R113, R196, R197, R213, R215, R244, R259, R261, R371, R376, R416, R450) -/
def Obligations.CommandsTakeEffect : Prop :=
  (∀ (p : Pass) (s : State), nextToRun s = some p → p.mend = false → p.missed = [] → modeOf s = 4 → s.ctl.request = none →
    external s = false → plcState s = pTurn → geometryBar p s = none → ∃ t, exec (.swathExecutionStart []) s = .next t ∧
      ∃ q ∈ t.dose.passes, q.index = p.index ∧ q.executing = true) ∧
  (∀ (strips : List (Nat × Nat)) (p : Pass) (m r n : Nat) (s : State), curPass s = some p → nextBuild (geom s) p = some m →
    linesReady (geom s) p m = true → p.cut = none → exposing p s = true → external s = false → s.dose.bsc.newT = none →
    s.dose.bsc.newV = none → (rowsAt (geom s) p m).filter (fun rn => !p.dropped.contains rn) = [(r, n)] →
    p.blankPorts = [] → memoryBad (geom s) (rowIn p r n (dwellAt p.dir (firePos (geom s) p r n s) s) s) s = false →
    ∃ t u q f, exec (.frameBuild [] strips) s = .next t ∧ t = tryComplete strips (if (bezelLine m (linesDone [n] strips u)).1
        then bezelBlock m (bezelLine m (linesDone [n] strips u)).2 else (bezelLine m (linesDone [n] strips u)).2) ∧
      curPass u = some q ∧ q.index = p.index ∧ m ∈ q.built ∧ q.frames = p.frames ++ [f] ∧ f.row = r ∧ f.line = n ∧ f.event = m ∧
      f.port = (rowAt (geom s) r).port ∧ f.sent = none ∧ f.blank = false) ∧
  (∀ (port event : Nat) (strips : List (Nat × Nat)) (p : Pass) (s : State), curPass s = some p → p.sendOver = false → p.abandoned = false →
    p.profileOn = true → event ∉ p.built → ∃ t u q rows, exec (.frameLate port event strips) s = .next t ∧
      t = lateRows p port 1 strips rows u ∧ q ∈ u.dose.passes ∧ q.index = p.index ∧ (∀ rn ∈ rows, rn ∈ q.dropped) ∧
      (∀ rn, rn ∈ rows ↔ rn ∈ rowsAt (geom s) p event ∧ (rowAt (geom s) rn.1).port = port ∧ rn ∉ p.dropped) ∧ (rows = [] → t = u)) ∧
  (∀ (a : Nat) (up : Bool) (s : State), 1 ≤ a → a < 6 → axisSource a s = 0 → rdb R.MOT_FAULT 1 s a = false →
    (pdiff (wrap48 (measPos a s + if up = rdb R.MOT_CFG 3 s a then -256 else 256)) (cmdPos a s)).natAbs ≤ rd R.MOT_FOLLOW_LIMIT s a →
    ∃ t, exec (.positionSample a up false) s = .next t ∧ measPos a t = wrap48 (measPos a s + if up = rdb R.MOT_CFG 3 s a then -256 else 256)) ∧
  (∀ (a : Nat) (dir bad : Bool) (s : State), 1 ≤ a → a < 6 → axisSource a s = 2 → (∀ b < 6, b ≠ a → axisSource b s ≠ 2) →
    ∃ t, exec (.stepInputEdge dir bad) s = .next t ∧ (axisOf t a).stepPos = (axisOf s a).stepPos + (if dir then -1 else 1) ∧
      (axisOf t a).stepDir = dir ∧ (axisOf t a).stepNs = s.time.ns) ∧
  (∀ (p t2 t3 : Nat) (s : State), p < 4 → lnkState p s = 9 ∨ lnkState p s = 10 → (portOf s p).failed = false → (portOf s p).waiting = true →
    (portOf s p).kind = 1 → 0 < (portOf s p).lanesOut → ∃ t b, exec (.tickReplyRx p 1 (portOf s p).exchange t2 t3) s = .next t ∧ .linkBlock p 7 b ∈ t.out ∧
      (portOf t p).exchange = ((portOf s p).exchange + 1) % 65536 ∧ (portOf t p).waiting = true ∧ (portOf t p).kind = 2 ∧
      lnkState p t = lnkState p s) ∧
  (∀ (p : Nat) (block : List Byte) (s : State), p < 4 → lnkUp p s = true → bytesAt block 0 1 = 0x12 → blockOk block = true →
    waitingBuffer stTelemetry s = none → (streamOf s stTelemetry).stagedBytes + (8 + block.length) ≤ 262144 →
    ∃ t, exec (.telemetryRx p block) s = .next t ∧ t.out = .upload stTelemetry (leBytes 8 (ttNow s) ++ block) :: s.out ∧
      (streamOf t stTelemetry).staged = (streamOf s stTelemetry).staged ++ [leBytes 8 (ttNow s) ++ block]) ∧
  (∀ (p : Nat) (strips : List (Nat × Nat)) (q : Pass) (f : Frame) (s : State), deferred p s = false → s.dose.passes = [q] → q.frames = [f] →
    f.port = p → f.sent.isSome = true → ∃ u, exec (.ackTimeout p strips) s = .next (afterResolve f.line strips (withholdFrame q f 7 flUncertain u)) ∧
      ∃ r ∈ (portOf u p).resolved, r.row = f.row ∧ r.line = f.line ∧ r.pass = q.number ∧ r.fired = false ∧ r.timedOut = true) ∧
  (∀ (p : Nat) (strips : List (Nat × Nat)) (q : Pass) (f : Frame) (s : State), (portOf s p).clockStopped = true → s.dose.passes = [q] →
    q.frames = [f] → f.port = p → f.sent.isSome = true → ∃ u, exec (.linkClockStopTimeout p strips) s =
      .next (afterResolve f.line strips (withholdFrame q f 21 0 u)) ∧
      ∃ r ∈ (portOf u p).resolved, r.row = f.row ∧ r.line = f.line ∧ r.pass = q.number ∧ r.fired = false ∧ r.timedOut = false) ∧
  (∀ (r h : Nat) (late : Bool) (s : State), r < 10 → rdf R.MEMC_STATUS 0 3 s = 2 → s.arb.holder = some h → requesting r s = false →
    ∃ t, exec (.arbRequest r late) s = .next t ∧ t.arb = { s.arb with requests := tset s.arb.requests r s.time.ns } ∧ requesting r t = true) ∧
  (∀ (v : Word32) (c l p : Nat) (s : State), bit 31 v.toNat = true → bits 0 2 v.toNat = c → mapRank c (bits 2 1 v.toNat) s = p →
    s.mem.migration = none → logicalFor c p s = some l → spareOk c s = true → ∃ t, exec (.rankRetire v) s = .next t ∧
      t.mem.migration = some { channel := c, logical := l, old := p, new := mapSpare c s, cause := 3, start := s.time.ns } ∧
      EventShows 180 t ∧ rd R.MEMC_MIGRATE_PTR t = 0 ∧ t.mem.dram = s.mem.dram) ∧
  (∀ (c l n dst : Nat) (b : List Byte) (s : State), c ≤ 15 → chState c s = 1 → paceQueue c s = 0 → rd R.UDMA_COUNT s c = n → 0 < n →
    (workOf c s).chain = false → (workOf c s).dstSpace = 1 → rd R.UDMA_DST s c + ((workOf c s).total - n) = dst → n ≤ 64 - dst % 64 →
    dst + n ≤ sramSize → dst + (swapBytes (workOf c s).swap b).length ≤ sramSize →
    readBeat c (workOf c s) (rd R.UDMA_SRC s c + ((workOf c s).total - n)) n s = (false, b, s) →
    ∃ t, exec (.udmaDescriptorDone c l) s = .next t ∧ chState c t = 0 ∧ rdb R.UDMA_BUSY c t = false ∧ rd R.UDMA_COUNT t c = 0 ∧
      t.mem = (writeSram dst (swapBytes (workOf c s).swap b) s).mem ∧ ((workOf c s).irq = true → EventShows 192 t)) ∧
  (∀ (θ : Word) (s : State), tsySource s = 1 ∨ tsySource s = 3 → rdb R.TSY_CTRL 5 s = false → s.time.pendServo = none →
    s.time.pendHost = [] → tsyState s ≠ 3 → ∃ t, exec (.servoSample θ) s = .next t ∧ rdI R.TSY_OFFSET t = θ.toInt ∧ e32 t = e32 s) ∧
  (∀ (p kind seq turn : Nat) (corr : Word) (s : State), p < 2 → rdb R.TSY_CTRL 9 s = false → rdb R.TSY_PORT_CFG 0 s p = true →
    ∃ t o c u, exec (.ptpMessageTx p kind seq corr turn) s = .next t ∧ t.out = .ptpMessage p kind seq o c :: u ∧
      (kind = 0 → o = (e32 s / 65536 + rdf R.TSY_PORT_LAT 16 16 s p * 4096) / 65536 ∧
        c = corr.toInt + ((e32 s / 65536 + rdf R.TSY_PORT_LAT 16 16 s p * 4096) % 65536 : Nat)) ∧
      (kind ≠ 0 → kind ≠ 3 → o = 0 ∧ c = corr.toInt) ∧ (kind = 3 → o = 0 ∧ c = corr.toInt + turn)) ∧
  (∀ (m : Nat) (inp : ReleaseIn) (s : State), s.pwr.due = some 0 → s.pwr.railsOff = false → s.pwr.step = 0 →
    (∀ k ∈ s.pwr.asserted, bit k m = true) → ∃ t, exec (.resetRelease m inp) s = .next t ∧ AtFuseLoad t) ∧
  (∀ (m k l : Nat) (inp : ReleaseIn) (s : State), s.pwr.due = some l → k ∈ s.pwr.asserted → bit k m = false → reachOf k s ≤ l →
    exec (.resetRelease m inp) s =
      .next { s with pwr := { s.pwr with asserted := s.pwr.asserted.filter (fun k => !bit k m), input := inp } }) ∧
  (∀ (inp : ReleaseIn) (s : State), s.pwr.due = some 0 → s.pwr.railsOff = false → s.pwr.step = 0 → s.pwr.asserted = [6] →
    ∃ t, exec (.bezelResetRelease inp) s = .next t ∧ AtFuseLoad t) ∧
  (∀ (bulk bus : Nat) (inp : ReleaseIn) (s : State), 3300 < bulk → 11400 < bus → s.pwr.asserted = [1] → s.pwr.due = some 0 →
    s.pwr.railsOff = false → s.pwr.step = 0 → ∃ t, exec (.brownoutRelease bulk bus inp) s = .next t ∧ AtFuseLoad t) ∧
  (∀ (inp : ReleaseIn) (s : State), s.pwr.railsOff = true → s.pwr.asserted = [] → reachOf 0 s = 0 →
    ∃ t, exec (.powerUp false false inp) s = .next t ∧ AtFuseLoad t) ∧
  (∀ (inp : ReleaseIn) (s : State), s.pwr.railsOff = true → s.pwr.asserted = [9] → reachOf 0 s = 0 →
    ∃ t, exec (.thermtripCool inp) s = .next t ∧ AtFuseLoad t) ∧
  (∀ (speeds : List Nat) (a : Nat) (s : State), modeOf s ≠ 0 → a < 6 → s.ctl.envBad = [] → (∀ b < a, envKind b (speeds.getD b 0) s = 0) →
    envKind a (speeds.getD a 0) s ≠ 0 → ∃ t u, exec (.envelopeCheck speeds) s = .next t ∧
      t = each ((List.range 6).drop (a + 1)) (fun b w => envCheck b (speeds.getD b 0) w) u ∧ EventShows 230 u ∧
      (axisOf u a).prof = none ∧ (axisOf u a).rested = true ∧ (a = 5 → t = u)) ∧
  (∀ s : State, estopMask s ≠ 0 → ∃ t, exec .estopStopTimeout s = .next t ∧ t.ctl = { s.ctl with motionHold := true } ∧ t.out = s.out)
end

