-- ==== Sys2Proof/Laws/Keeps/Base.lean ====
section
/-! SUPPORT. The relation that every operation of the model keeps: the queue is untouched, the register file, DRAM and SRAM stay
in canonical form, what has left the module stays sent, and the counter of free values never falls. -/

namespace Sys2Proof.Laws
open Sys2Proof.Machine

/-- A part of the state, by its bit in a mask of parts: 0 heldLow, 1 latchedHigh, 2 out, 3 freeCtr, 4 host, 5 evt, 6 time, 7 DRAM's
bytes, 8 SRAM's bytes, 9 the rest of memory's state, 10 arb, 11 mot, 12 dose, 13 ctl, 14 pwr, 15 thm, 16 head, 17 cam, and from
bit 32 on the register blocks by the 64 KiB of BAR0 that they stand in; 4294967295 × 2^32 is all of them. -/
abbrev off (m k : Nat) : Prop := m.testBit k = false

/-- What no operation on the state undoes, and the parts of the state outside `m` that it leaves alone. -/
structure Keeps (m : Nat) (s t : State) : Prop where
  queue : t.pending = s.pending
  regs : tsorted s.regs = true → tsorted t.regs = true
  dram : tsorted s.mem.dram = true → tsorted t.mem.dram = true
  sram : tsorted s.mem.sram = true → tsorted t.mem.sram = true
  out : ∃ l, t.out = l ++ s.out
  free : s.freeCtr ≤ t.freeCtr
  same_heldLow : off m 0 → t.heldLow = s.heldLow
  same_latchedHigh : off m 1 → t.latchedHigh = s.latchedHigh
  same_host : off m 4 → t.host = s.host
  same_evt : off m 5 → t.evt = s.evt
  same_time : off m 6 → t.time = s.time
  same_arb : off m 10 → t.arb = s.arb
  same_mot : off m 11 → t.mot = s.mot
  same_dose : off m 12 → t.dose = s.dose
  same_ctl : off m 13 → t.ctl = s.ctl
  same_pwr : off m 14 → t.pwr = s.pwr
  same_thm : off m 15 → t.thm = s.thm
  same_head : off m 16 → t.head = s.head
  same_cam : off m 17 → t.cam = s.cam
  same_out : off m 2 → t.out = s.out
  same_freeCtr : off m 3 → t.freeCtr = s.freeCtr
  same_dram : off m 7 → t.mem.dram = s.mem.dram
  same_sram : off m 8 → t.mem.sram = s.mem.sram
  same_mem : off m 9 → t.mem = { s.mem with dram := t.mem.dram, sram := t.mem.sram }
  same_regs : ∀ a, off m (32 + a / 65536 % 32) → tget? t.regs a = tget? s.regs a

theorem Keeps.refl (m : Nat) (s : State) : Keeps m s s where
  queue := rfl
  regs := id
  dram := id
  sram := id
  out := ⟨[], rfl⟩
  free := Nat.le_refl _
  same_heldLow _ := rfl
  same_latchedHigh _ := rfl
  same_host _ := rfl
  same_evt _ := rfl
  same_time _ := rfl
  same_arb _ := rfl
  same_mot _ := rfl
  same_dose _ := rfl
  same_ctl _ := rfl
  same_pwr _ := rfl
  same_thm _ := rfl
  same_head _ := rfl
  same_cam _ := rfl
  same_out _ := rfl
  same_freeCtr _ := rfl
  same_dram _ := rfl
  same_sram _ := rfl
  same_mem _ := rfl
  same_regs _ _ := rfl

theorem Keeps.trans {m : Nat} {s t u : State} (h : Keeps m s t) (k : Keeps m t u) : Keeps m s u where
  queue := k.queue.trans h.queue
  regs x := k.regs (h.regs x)
  dram x := k.dram (h.dram x)
  sram x := k.sram (h.sram x)
  out := let ⟨l, hl⟩ := h.out; let ⟨n, hn⟩ := k.out; ⟨n ++ l, by rw [hn, hl, List.append_assoc]⟩
  free := Nat.le_trans h.free k.free
  same_heldLow x := (k.same_heldLow x).trans (h.same_heldLow x)
  same_latchedHigh x := (k.same_latchedHigh x).trans (h.same_latchedHigh x)
  same_host x := (k.same_host x).trans (h.same_host x)
  same_evt x := (k.same_evt x).trans (h.same_evt x)
  same_time x := (k.same_time x).trans (h.same_time x)
  same_arb x := (k.same_arb x).trans (h.same_arb x)
  same_mot x := (k.same_mot x).trans (h.same_mot x)
  same_dose x := (k.same_dose x).trans (h.same_dose x)
  same_ctl x := (k.same_ctl x).trans (h.same_ctl x)
  same_pwr x := (k.same_pwr x).trans (h.same_pwr x)
  same_thm x := (k.same_thm x).trans (h.same_thm x)
  same_head x := (k.same_head x).trans (h.same_head x)
  same_cam x := (k.same_cam x).trans (h.same_cam x)
  same_out x := (k.same_out x).trans (h.same_out x)
  same_freeCtr x := (k.same_freeCtr x).trans (h.same_freeCtr x)
  same_dram x := (k.same_dram x).trans (h.same_dram x)
  same_sram x := (k.same_sram x).trans (h.same_sram x)
  same_mem x := by
    have e1 := k.same_mem x
    have e2 := h.same_mem x
    rw [e2] at e1
    exact e1
  same_regs a x := (k.same_regs a x).trans (h.same_regs a x)

/-- A mask within a mask. -/
theorem Sub.trans {a b m : Nat} (h : b ||| m = m) (k : a ||| b = b) : a ||| m = m := by
  rw [← h, ← Nat.or_assoc, k]
theorem off_of_sub {a m k : Nat} (h : a ||| m = m) (x : off m k) : off a k := by
  unfold off at *
  rw [← h, Nat.testBit_or] at x
  exact (Bool.or_eq_false_iff.1 x).1
theorem not_off {a m k : Nat} (h : a ||| m = m) (e : a.testBit k = true) (x : off m k) : False := by
  have y := off_of_sub h x
  unfold off at y
  rw [e] at y
  cases y
/-- A wider mask says less. -/
theorem Keeps.mono {m n : Nat} {s t : State} (h : Keeps m s t) (hm : m ||| n = n) : Keeps n s t where
  queue := h.queue
  regs := h.regs
  dram := h.dram
  sram := h.sram
  out := h.out
  free := h.free
  same_heldLow x := h.same_heldLow (off_of_sub hm x)
  same_latchedHigh x := h.same_latchedHigh (off_of_sub hm x)
  same_host x := h.same_host (off_of_sub hm x)
  same_evt x := h.same_evt (off_of_sub hm x)
  same_time x := h.same_time (off_of_sub hm x)
  same_arb x := h.same_arb (off_of_sub hm x)
  same_mot x := h.same_mot (off_of_sub hm x)
  same_dose x := h.same_dose (off_of_sub hm x)
  same_ctl x := h.same_ctl (off_of_sub hm x)
  same_pwr x := h.same_pwr (off_of_sub hm x)
  same_thm x := h.same_thm (off_of_sub hm x)
  same_head x := h.same_head (off_of_sub hm x)
  same_cam x := h.same_cam (off_of_sub hm x)
  same_out x := h.same_out (off_of_sub hm x)
  same_freeCtr x := h.same_freeCtr (off_of_sub hm x)
  same_dram x := h.same_dram (off_of_sub hm x)
  same_sram x := h.same_sram (off_of_sub hm x)
  same_mem x := h.same_mem (off_of_sub hm x)
  same_regs a x := h.same_regs a (off_of_sub hm x)

/-- An update of some parts of the state: each part either lies in the mask or is unchanged. -/
theorem Keeps.upd {m : Nat} {s0 s : State} {a b : Table (BitVec 32)} {c : HostState} {d : EvtState}
    {e : TimeState} {q : MemState} {f : ArbState} {g : Table Axis} {i : DoseState} {j : CtlState} {k : PwrState}
    {l : ThmState} {n : HeadState} {o : CamState} (h : Keeps m s0 s)
    (hd : tsorted s.mem.dram = true → tsorted q.dram = true) (hs : tsorted s.mem.sram = true → tsorted q.sram = true)
    (h0 : off m 0 → a = s.heldLow) (h1 : off m 1 → b = s.latchedHigh) (h4 : off m 4 → c = s.host) (h5 : off m 5 → d = s.evt)
    (h6 : off m 6 → e = s.time) (h7 : off m 7 → q.dram = s.mem.dram) (h8 : off m 8 → q.sram = s.mem.sram)
    (h9 : off m 9 → q = { s.mem with dram := q.dram, sram := q.sram }) (h10 : off m 10 → f = s.arb) (h11 : off m 11 → g = s.mot)
    (h12 : off m 12 → i = s.dose) (h13 : off m 13 → j = s.ctl) (h14 : off m 14 → k = s.pwr) (h15 : off m 15 → l = s.thm)
    (h16 : off m 16 → n = s.head) (h17 : off m 17 → o = s.cam) :
    Keeps m s0 ⟨s.pending, s.regs, a, b, s.out, s.freeCtr, c, d, e, q, f, g, i, j, k, l, n, o⟩ :=
  h.trans ⟨rfl, id, hd, hs, ⟨[], rfl⟩, Nat.le_refl _, h0, h1, h4, h5, h6, h10, h11, h12, h13, h14, h15, h16, h17,
    fun _ => rfl, fun _ => rfl, h7, h8, h9, fun _ _ => rfl⟩
/-- What lies in the mask is not outside it. -/
theorem in_mask {a m k : Nat} {P : Prop} (h : a ||| m = m) (e : a.testBit k = true) : off m k → P :=
  fun x => (not_off h e x).elim
/-- Every block lies in the mask of all blocks. -/
theorem all_blocks {m : Nat} {P : Prop} (h : 18446744069414584320 ||| m = m) (a : Nat) : off m (32 + a / 65536 % 32) → P :=
  in_mask h ((by decide : ∀ k < 32, (18446744069414584320 : Nat).testBit (32 + k) = true) _ (Nat.mod_lt _ (by decide)))
theorem Keeps.updRegs {m : Nat} {s0 s : State} {r : Table (BitVec 64)} (h : Keeps m s0 s)
    (hr : tsorted s.regs = true → tsorted r = true) (hm : ∀ a, off m (32 + a / 65536 % 32) → tget? r a = tget? s.regs a) :
    Keeps m s0 { s with regs := r } :=
  h.trans { Keeps.refl m s with regs := hr, same_regs := hm }
theorem Keeps.addFree {m : Nat} {s0 s : State} {n : Nat} (hm : 8 ||| m = m) (h : Keeps m s0 s) :
    Keeps m s0 { s with freeCtr := s.freeCtr + n } :=
  h.trans { Keeps.refl m s with free := Nat.le_add_right _ _, same_freeCtr := in_mask hm rfl }
/-- The state between two operations, by a name. -/
theorem Keeps.cut {m : Nat} {s t u : State} (h : Keeps m s t) (k : Keeps m s t → Keeps m s u) : Keeps m s u := k h
/-- The same for a pair and a triple that end in a state. -/
theorem Keeps.cut2 {m : Nat} {α : Type} {s u : State} {t : α × State} (h : Keeps m s t.2) (k : Keeps m s t.2 → Keeps m s u) :
    Keeps m s u := k h
theorem Keeps.cut3 {m : Nat} {α β : Type} {s u : State} {t : α × β × State} (h : Keeps m s t.2.2)
    (k : Keeps m s t.2.2 → Keeps m s u) : Keeps m s u := k h
theorem Keeps.cut1 {m : Nat} {α : Type} {s u : State} {t : State × α} (h : Keeps m s t.1) (k : Keeps m s t.1 → Keeps m s u) :
    Keeps m s u := k h
theorem id_keeps {m : Nat} {s0 s : State} (h : Keeps m s0 s) : Keeps m s0 (id s) := h
/-- The state that ends a pair or a triple, by the equation that names it. -/
theorem Keeps.eq2 {m : Nat} {α : Type} {s0 s' : State} {t : α × State} {v : α} (e : t = (v, s')) (h : Keeps m s0 t.2) :
    Keeps m s0 s' := by
  rw [e] at h; exact h
theorem Keeps.eq3 {m : Nat} {α β : Type} {s0 s' : State} {t : α × β × State} {v : α} {w : β} (e : t = (v, w, s'))
    (h : Keeps m s0 t.2.2) : Keeps m s0 s' := by
  rw [e] at h; exact h
theorem Keeps.eq4 {m : Nat} {α β γ : Type} {s0 s' : State} {t : α × β × γ × State} {v : α} {w : β} {x : γ} (e : t = (v, w, x, s'))
    (h : Keeps m s0 t.2.2.2) : Keeps m s0 s' := by
  rw [e] at h; exact h

/-! ### Tables -/

/-- A table whose first key lies above `k`. -/
def firstAbove {α : Type} (k : Nat) : Table α → Prop
  | [] => True
  | (j, _) :: _ => k < j
theorem tsorted_cons {α : Type} (k : Nat) (v : α) (m : Table α) :
    tsorted ((k, v) :: m) = true ↔ firstAbove k m ∧ tsorted m = true := by
  cases m with
  | nil => simp [tsorted, firstAbove]
  | cons e r => simp [tsorted, firstAbove]
theorem firstAbove_tset {α : Type} {i k : Nat} (v : α) (h : i < k) :
    ∀ m : Table α, firstAbove i m → firstAbove i (tset m k v)
  | [], _ => h
  | (j, w) :: r, hm => by
    unfold tset
    split
    · exact h
    · split
      · exact h
      · exact hm
theorem tsorted_tset {α : Type} (k : Nat) (v : α) : ∀ m : Table α, tsorted m = true → tsorted (tset m k v) = true
  | [], _ => rfl
  | (j, w) :: r, h => by
    have h' := (tsorted_cons j w r).1 h
    unfold tset
    split
    · exact (tsorted_cons _ _ _).2 ⟨by assumption, h⟩
    · split
      · next hk => subst hk; exact (tsorted_cons _ _ _).2 h'
      · exact (tsorted_cons _ _ _).2 ⟨firstAbove_tset v (by omega) r h'.1, tsorted_tset k v r h'.2⟩
theorem firstAbove_lt {α : Type} {i j : Nat} {m : Table α} (h : i < j) (hm : firstAbove j m) : firstAbove i m := by
  cases m with
  | nil => trivial
  | cons e r => exact Nat.lt_trans h hm
theorem firstAbove_filter {α : Type} (p : Nat × α → Bool) {i : Nat} :
    ∀ m : Table α, firstAbove i m → tsorted m = true → firstAbove i (m.filter p)
  | [], _, _ => trivial
  | (j, w) :: r, hm, hs => by
    have h' := (tsorted_cons j w r).1 hs
    by_cases hp : p (j, w) = true
    · rw [List.filter_cons_of_pos hp]; exact hm
    · rw [List.filter_cons_of_neg hp]
      exact firstAbove_filter p r (firstAbove_lt hm h'.1) h'.2
theorem tsorted_filter {α : Type} (p : Nat × α → Bool) : ∀ m : Table α, tsorted m = true → tsorted (m.filter p) = true
  | [], _ => rfl
  | (j, w) :: r, hs => by
    have h' := (tsorted_cons j w r).1 hs
    by_cases hp : p (j, w) = true
    · rw [List.filter_cons_of_pos hp]
      exact (tsorted_cons _ _ _).2 ⟨firstAbove_filter p r h'.1 h'.2, tsorted_filter p r h'.2⟩
    · rw [List.filter_cons_of_neg hp]; exact tsorted_filter p r h'.2
theorem tsorted_terase {α : Type} (m : Table α) (k : Nat) (h : tsorted m = true) : tsorted (terase m k) = true :=
  tsorted_filter _ m h

theorem tsorted_putBytes : ∀ (m : Table Byte) (a : Nat) (bs : List Byte), tsorted m = true → tsorted (putBytes m a bs) = true
  | _, _, [], h => h
  | m, a, b :: r, h => tsorted_putBytes (tset m a b) (a + 1) r (tsorted_tset a b m h)

/-! ### The operations of Machine/Ops.lean -/

/-- The bit of the block that a register stands in. -/
def regMask (r : RegInfo) : Nat := 2 ^ (32 + r.base / 65536 % 32)
/-- Every instance of a register row stands in one block. -/
def oneBlock (r : RegInfo) : Bool := decide (0 < r.count) && (r.base + r.stride * (r.count - 1)) / 65536 == r.base / 65536
theorem lnkReason_mask (n : Nat) : regMask (R.LNK_BLANK_REASON n) = 2 ^ 54 := by
  have : (0x160090 + 4 * (n % 7)) / 65536 = 22 := by omega
  simp [regMask, R.LNK_BLANK_REASON, this]
theorem lnkReason_block (n : Nat) : oneBlock (R.LNK_BLANK_REASON n) = true := by
  have h1 : (0x160090 + 4 * (n % 7)) / 65536 = 22 := by omega
  have h2 : (0x160090 + 4 * (n % 7) + 0x4000 * 3) / 65536 = 22 := by omega
  simp [oneBlock, R.LNK_BLANK_REASON, h1, h2]
theorem camData_mask (n : Nat) : regMask (R.CAM_BUS_DATA n) = 2 ^ 56 := by
  have : (0x180110 + 4 * (n % 4)) / 65536 = 24 := by omega
  simp [regMask, R.CAM_BUS_DATA, this]
theorem camData_block (n : Nat) : oneBlock (R.CAM_BUS_DATA n) = true := by
  have h1 : (0x180110 + 4 * (n % 4)) / 65536 = 24 := by omega
  have h2 : (0x180110 + 4 * (n % 4) + 0x40 * 3) / 65536 = 24 := by omega
  simp [oneBlock, R.CAM_BUS_DATA, h1, h2]
theorem regAddr_block {r : RegInfo} (h : oneBlock r = true) (i : Nat) : regAddr r i / 65536 = r.base / 65536 := by
  unfold oneBlock at h
  simp only [Bool.and_eq_true, decide_eq_true_eq, beq_iff_eq] at h
  have h1 : r.base ≤ regAddr r i := Nat.le_add_right _ _
  have h2 : regAddr r i ≤ r.base + r.stride * (r.count - 1) := by
    unfold regAddr
    exact Nat.add_le_add_left (Nat.mul_le_mul_left _ (by have := Nat.mod_lt i h.1; omega)) _
  have h3 := Nat.div_le_div_right (c := 65536) h1
  have h4 := Nat.div_le_div_right (c := 65536) h2
  omega
theorem tget?_tset {α : Type} (k : Nat) (v : α) (j : Nat) :
    ∀ m : Table α, tget? (tset m k v) j = if j = k then some v else tget? m j
  | [] => by
    by_cases h : j = k
    · subst h; simp [tset, tget?]
    · simp [tset, tget?, h, Ne.symm h]
  | (i, w) :: r => by
    unfold tset
    split
    · by_cases h : j = k
      · subst h; simp [tget?]
      · simp [tget?, h, Ne.symm h]
    · split
      · next h1 h2 =>
        subst h2
        by_cases h : j = k
        · subst h; simp [tget?]
        · simp [tget?, h, Ne.symm h]
      · next h1 h2 =>
        by_cases h : i = j
        · subst h
          simp [tget?, Ne.symm h2]
        · simp [tget?, h, tget?_tset k v j r]
theorem wr_keeps {m : Nat} {s0 s : State} {r : RegInfo} {v i : Nat} (hr : regMask r ||| m = m) (hk : oneBlock r = true)
    (h : Keeps m s0 s) : Keeps m s0 (wr r v s i) :=
  h.trans { Keeps.refl m s with
    regs := tsorted_tset _ _ _
    same_regs := fun a x => by
      unfold wr
      rw [tget?_tset]
      split
      · next e =>
        subst e
        rw [regAddr_block hk] at x
        exact (not_off hr (by unfold regMask; exact Nat.testBit_two_pow_self) x).elim
      · rfl }
/-- Where every block lies in the mask, any register may be written. -/
theorem wr_keeps_all {m : Nat} {s0 s : State} {r : RegInfo} {v i : Nat} (hm : 18446744069414584320 ||| m = m) (h : Keeps m s0 s) :
    Keeps m s0 (wr r v s i) :=
  h.trans { Keeps.refl m s with regs := tsorted_tset _ _ _, same_regs := fun a => all_blocks hm a }
theorem emit_keeps {m : Nat} {s0 s : State} {o : Out} (hm : 4 ||| m = m) (h : Keeps m s0 s) : Keeps m s0 (emit o s) :=
  h.trans { Keeps.refl m s with out := ⟨[o], rfl⟩, same_out := in_mask hm rfl }
theorem fresh_keeps {m : Nat} {s0 s : State} (hm : 8 ||| m = m) (h : Keeps m s0 s) : Keeps m s0 (fresh s).2 :=
  h.trans { Keeps.refl m s with free := Nat.le_succ _, same_freeCtr := in_mask hm rfl }
theorem fresh_keeps_eq {m : Nat} {s0 s s' : State} {v : Nat} (hm : 8 ||| m = m) (h : Keeps m s0 s) (e : fresh s = (v, s')) :
    Keeps m s0 s' := by
  have k := fresh_keeps hm h
  rw [e] at k
  exact k
theorem foldl_keeps {m : Nat} {s0 s : State} {α : Type} {l : List α} {f : State → α → State} (h : Keeps m s0 s)
    (hf : ∀ s a, Keeps m s0 s → Keeps m s0 (f s a)) : Keeps m s0 (l.foldl f s) := by
  induction l generalizing s with
  | nil => exact h
  | cons a r ih => exact ih (hf s a h)
theorem foldl_snd_keeps {m : Nat} {s0 : State} {α β : Type} {l : List α} {f : β × State → α → β × State} {x : β × State}
    (h : Keeps m s0 x.2) (hf : ∀ x a, Keeps m s0 x.2 → Keeps m s0 (f x a).2) : Keeps m s0 (l.foldl f x).2 := by
  induction l generalizing x with
  | nil => exact h
  | cons a r ih => exact ih (hf x a h)
theorem foldl_fst_keeps {m : Nat} {s0 : State} {α β : Type} {l : List α} {f : State × β → α → State × β} {x : State × β}
    (h : Keeps m s0 x.1) (hf : ∀ x a, Keeps m s0 x.1 → Keeps m s0 (f x a).1) : Keeps m s0 (l.foldl f x).1 := by
  induction l generalizing x with
  | nil => exact h
  | cons a r ih => exact ih (hf x a h)
theorem foldl_trd_keeps {m : Nat} {s0 : State} {α β γ : Type} {l : List α} {f : β × γ × State → α → β × γ × State} {x : β × γ × State}
    (h : Keeps m s0 x.2.2) (hf : ∀ x a, Keeps m s0 x.2.2 → Keeps m s0 (f x a).2.2) : Keeps m s0 (l.foldl f x).2.2 := by
  induction l generalizing x with
  | nil => exact h
  | cons a r ih => exact ih (hf x a h)
theorem foldl_fth_keeps {m : Nat} {s0 : State} {α β γ δ : Type} {l : List α} {f : β × γ × δ × State → α → β × γ × δ × State}
    {x : β × γ × δ × State} (h : Keeps m s0 x.2.2.2) (hf : ∀ x a, Keeps m s0 x.2.2.2 → Keeps m s0 (f x a).2.2.2) :
    Keeps m s0 (l.foldl f x).2.2.2 := by
  induction l generalizing x with
  | nil => exact h
  | cons a r ih => exact ih (hf x a h)
theorem each_keeps {m : Nat} {s0 s : State} {α : Type} {l : List α} {f : α → State → State} (h : Keeps m s0 s)
    (hf : ∀ a s, Keeps m s0 s → Keeps m s0 (f a s)) : Keeps m s0 (each l f s) :=
  foldl_keeps h (fun s a => hf a s)
theorem sif_keeps {m : Nat} {s0 s : State} {b : Bool} {f : State → State} (h : Keeps m s0 s)
    (hf : ∀ s, Keeps m s0 s → Keeps m s0 (f s)) : Keeps m s0 (sif b f s) := by
  unfold sif
  split
  · exact hf s h
  · exact h

end Sys2Proof.Laws
end

