-- ==== Sys2Proof/Laws/Keeps/Ops.lean ====
section
/-! SUPPORT. Every operation of Machine/Ops.lean keeps what Laws/Keeps/Base.lean states. -/

namespace Sys2Proof.Laws
open Sys2Proof Sys2Proof.Machine

theorem wrf_keeps {m : Nat} {s0 s : State} {x1 x2 x3 x4 x5} (hm : 0 ||| m = m) (hr0 : regMask x1 ||| m = m) (hk0 : oneBlock x1 = true) (h : Keeps m s0 s) : Keeps m s0 (wrf x1 x2 x3 x4 s x5) := by
  unfold wrf
  repeat' first
    | (with_reducible assumption)
    | (exact Sub.trans hm rfl)
    | (intro _)
    | (with_reducible exact rfl)
    | (with_reducible apply wr_keeps)
    | (with_reducible apply id_keeps)
    | (with_reducible refine Keeps.eq2 ‹_› ?_)
    | (with_reducible refine Keeps.eq3 ‹_› ?_)
    | split
    | (dsimp only)
    | (exact rfl)

theorem wrb_keeps {m : Nat} {s0 s : State} {x1 x2 x3 x4} (hm : 0 ||| m = m) (hr0 : regMask x1 ||| m = m) (hk0 : oneBlock x1 = true) (h : Keeps m s0 s) : Keeps m s0 (wrb x1 x2 x3 s x4) := by
  unfold wrb
  repeat' first
    | (with_reducible assumption)
    | (exact Sub.trans hm rfl)
    | (intro _)
    | (with_reducible exact rfl)
    | (with_reducible apply wrf_keeps)
    | (with_reducible apply id_keeps)
    | (with_reducible refine Keeps.eq2 ‹_› ?_)
    | (with_reducible refine Keeps.eq3 ‹_› ?_)
    | split
    | (dsimp only)
    | (exact rfl)

theorem wrI_keeps {m : Nat} {s0 s : State} {x1 x2 x3} (hm : 0 ||| m = m) (hr0 : regMask x1 ||| m = m) (hk0 : oneBlock x1 = true) (h : Keeps m s0 s) : Keeps m s0 (wrI x1 x2 s x3) := by
  unfold wrI
  repeat' first
    | (with_reducible assumption)
    | (exact Sub.trans hm rfl)
    | (intro _)
    | (with_reducible exact rfl)
    | (with_reducible apply wr_keeps)
    | (with_reducible apply id_keeps)
    | (with_reducible refine Keeps.eq2 ‹_› ?_)
    | (with_reducible refine Keeps.eq3 ‹_› ?_)
    | split
    | (dsimp only)
    | (exact rfl)

theorem askHold_keeps {m : Nat} {s0 s : State} {x1 x2} (hm : 8192 ||| m = m) (h : Keeps m s0 s) : Keeps m s0 (askHold x1 x2 s) := by
  unfold askHold
  repeat' first
    | (with_reducible assumption)
    | (with_reducible exact id)
    | (exact in_mask hm rfl)
    | (with_reducible exact fun _ => rfl)
    | (exact Sub.trans hm rfl)
    | (intro _)
    | (extract_lets +onlyGivenNames s1; first | (refine Keeps.cut (t := s1) ?_ ?_; rotate_left; intro hs1; clear_value s1; rotate_right; subst s1) | (refine Keeps.cut2 (t := s1) ?_ ?_; rotate_left; intro hs1; clear_value s1; rotate_right; subst s1) | (refine Keeps.cut3 (t := s1) ?_ ?_; rotate_left; intro hs1; clear_value s1; rotate_right; subst s1) | (refine Keeps.cut1 (t := s1) ?_ ?_; rotate_left; intro hs1; clear_value s1; rotate_right; subst s1) | clear_value s1 | (have hm := s1; clear hm))
    | (with_reducible exact rfl)
    | (with_reducible apply id_keeps)
    | (with_reducible refine Keeps.eq2 ‹_› ?_)
    | (with_reducible refine Keeps.eq3 ‹_› ?_)
    | split
    | (with_reducible apply Keeps.upd)
    | (dsimp only)
    | (exact rfl)

theorem holdFlag_keeps {m : Nat} {s0 s : State} {x1} (hm : 8192 ||| m = m) (h : Keeps m s0 s) : Keeps m s0 (holdFlag x1 s) := by
  unfold holdFlag
  repeat' first
    | (with_reducible assumption)
    | (with_reducible exact id)
    | (exact in_mask hm rfl)
    | (with_reducible exact fun _ => rfl)
    | (exact Sub.trans hm rfl)
    | (intro _)
    | (extract_lets +onlyGivenNames s1; first | (refine Keeps.cut (t := s1) ?_ ?_; rotate_left; intro hs1; clear_value s1; rotate_right; subst s1) | (refine Keeps.cut2 (t := s1) ?_ ?_; rotate_left; intro hs1; clear_value s1; rotate_right; subst s1) | (refine Keeps.cut3 (t := s1) ?_ ?_; rotate_left; intro hs1; clear_value s1; rotate_right; subst s1) | (refine Keeps.cut1 (t := s1) ?_ ?_; rotate_left; intro hs1; clear_value s1; rotate_right; subst s1) | clear_value s1 | (have hm := s1; clear hm))
    | (with_reducible exact rfl)
    | (with_reducible apply askHold_keeps)
    | (with_reducible apply id_keeps)
    | (with_reducible refine Keeps.eq2 ‹_› ?_)
    | (with_reducible refine Keeps.eq3 ‹_› ?_)
    | split
    | (with_reducible apply Keeps.upd)
    | (dsimp only)
    | (exact rfl)

theorem bumpW_keeps {m : Nat} {s0 s : State} {x1 x2 x3 x4 x5} (hm : 0 ||| m = m) (hr1 : regMask x2 ||| m = m) (hk1 : oneBlock x2 = true) (h : Keeps m s0 s) (hf : ∀ s, Keeps m s0 s → Keeps m s0 (x4 s)) : Keeps m s0 (bumpW x1 x2 x3 x4 s x5) := by
  unfold bumpW
  repeat' first
    | (with_reducible assumption)
    | (with_reducible exact id)
    | (exact in_mask hm rfl)
    | (with_reducible exact fun _ => rfl)
    | (exact Sub.trans hm rfl)
    | (intro _)
    | (extract_lets +onlyGivenNames s1; first | (refine Keeps.cut (t := s1) ?_ ?_; rotate_left; intro hs1; clear_value s1; rotate_right; subst s1) | (refine Keeps.cut2 (t := s1) ?_ ?_; rotate_left; intro hs1; clear_value s1; rotate_right; subst s1) | (refine Keeps.cut3 (t := s1) ?_ ?_; rotate_left; intro hs1; clear_value s1; rotate_right; subst s1) | (refine Keeps.cut1 (t := s1) ?_ ?_; rotate_left; intro hs1; clear_value s1; rotate_right; subst s1) | clear_value s1 | (have hm := s1; clear hm))
    | (with_reducible exact rfl)
    | (with_reducible apply wr_keeps)
    | (with_reducible apply hf)
    | (with_reducible apply id_keeps)
    | (with_reducible refine Keeps.eq2 ‹_› ?_)
    | (with_reducible refine Keeps.eq3 ‹_› ?_)
    | split
    | (with_reducible apply Keeps.upd)
    | (dsimp only)
    | (exact rfl)

theorem bump_keeps {m : Nat} {s0 s : State} {x1 x2 x3 x4} (hm : 0 ||| m = m) (hr0 : regMask x1 ||| m = m) (hk0 : oneBlock x1 = true) (h : Keeps m s0 s) (hf : ∀ s, Keeps m s0 s → Keeps m s0 (x3 s)) : Keeps m s0 (bump x1 x2 x3 s x4) := by
  unfold bump
  repeat' first
    | (with_reducible assumption)
    | (exact Sub.trans hm rfl)
    | (intro _)
    | (with_reducible exact rfl)
    | (with_reducible apply bumpW_keeps)
    | (with_reducible apply hf)
    | (with_reducible apply id_keeps)
    | (with_reducible refine Keeps.eq2 ‹_› ?_)
    | (with_reducible refine Keeps.eq3 ‹_› ?_)
    | split
    | (dsimp only)
    | (exact rfl)

theorem peak_keeps {m : Nat} {s0 s : State} {x1 x2 x3} (hm : 0 ||| m = m) (hr0 : regMask x1 ||| m = m) (hk0 : oneBlock x1 = true) (h : Keeps m s0 s) : Keeps m s0 (peak x1 x2 s x3) := by
  unfold peak
  repeat' first
    | (with_reducible assumption)
    | (exact Sub.trans hm rfl)
    | (intro _)
    | (with_reducible exact rfl)
    | (with_reducible apply wr_keeps)
    | (with_reducible apply id_keeps)
    | (with_reducible refine Keeps.eq2 ‹_› ?_)
    | (with_reducible refine Keeps.eq3 ‹_› ?_)
    | split
    | (dsimp only)
    | (exact rfl)

end Sys2Proof.Laws
end

