-- ==== Sys2Proof/Laws/Keeps/Events.lean ====
section
/-! SUPPORT. Every operation of Machine/Events.lean keeps what Laws/Keeps/Base.lean states. -/

namespace Sys2Proof.Laws
open Sys2Proof Sys2Proof.Machine

theorem modRing_keeps {m : Nat} {s0 s : State} {x1 x2} (hm : 16 ||| m = m) (h : Keeps m s0 s) : Keeps m s0 (modRing x1 x2 s) := by
  unfold modRing
  repeat' first
    | (with_reducible assumption)
    | (with_reducible exact id)
    | (exact in_mask hm rfl)
    | (with_reducible exact fun _ => rfl)
    | (exact Sub.trans hm rfl)
    | (intro _)
    | (extract_lets +onlyGivenNames s1; first | (refine Keeps.cut (t := s1) ?_ ?_; rotate_left; intro hs1; clear_value s1; rotate_right; subst s1) | (refine Keeps.cut2 (t := s1) ?_ ?_; rotate_left; intro hs1; clear_value s1; rotate_right; subst s1) | (refine Keeps.cut3 (t := s1) ?_ ?_; rotate_left; intro hs1; clear_value s1; rotate_right; subst s1) | (refine Keeps.cut1 (t := s1) ?_ ?_; rotate_left; intro hs1; clear_value s1; rotate_right; subst s1) | clear_value s1 | (have hm := s1; clear hm))
    | (with_reducible exact rfl)
    | (with_reducible apply id_keeps)
    | (with_reducible refine Keeps.eq2 ‹_› ?_)
    | (with_reducible refine Keeps.eq3 ‹_› ?_)
    | split
    | (with_reducible apply Keeps.upd)
    | (dsimp only)
    | (exact rfl)

theorem toHost_keeps {m : Nat} {s0 s : State} {x1} (hm : 20 ||| m = m) (h : Keeps m s0 s) : Keeps m s0 (toHost x1 s) := by
  unfold toHost
  repeat' first
    | (with_reducible assumption)
    | (with_reducible exact id)
    | (exact in_mask hm rfl)
    | (with_reducible exact fun _ => rfl)
    | (exact Sub.trans hm rfl)
    | (intro _)
    | (extract_lets +onlyGivenNames s1; first | (refine Keeps.cut (t := s1) ?_ ?_; rotate_left; intro hs1; clear_value s1; rotate_right; subst s1) | (refine Keeps.cut2 (t := s1) ?_ ?_; rotate_left; intro hs1; clear_value s1; rotate_right; subst s1) | (refine Keeps.cut3 (t := s1) ?_ ?_; rotate_left; intro hs1; clear_value s1; rotate_right; subst s1) | (refine Keeps.cut1 (t := s1) ?_ ?_; rotate_left; intro hs1; clear_value s1; rotate_right; subst s1) | clear_value s1 | (have hm := s1; clear hm))
    | (with_reducible exact rfl)
    | (with_reducible apply emit_keeps)
    | (with_reducible apply id_keeps)
    | (with_reducible refine Keeps.eq2 ‹_› ?_)
    | (with_reducible refine Keeps.eq3 ‹_› ?_)
    | split
    | (with_reducible apply Keeps.upd)
    | (dsimp only)
    | (exact rfl)

theorem writeStatus_keeps {m : Nat} {s0 s : State} {x1} (hm : 20 ||| m = m) (h : Keeps m s0 s) : Keeps m s0 (writeStatus x1 s) := by
  unfold writeStatus
  repeat' first
    | (with_reducible assumption)
    | (with_reducible exact id)
    | (exact in_mask hm rfl)
    | (with_reducible exact fun _ => rfl)
    | (exact Sub.trans hm rfl)
    | (intro _)
    | (extract_lets +onlyGivenNames s1; first | (refine Keeps.cut (t := s1) ?_ ?_; rotate_left; intro hs1; clear_value s1; rotate_right; subst s1) | (refine Keeps.cut2 (t := s1) ?_ ?_; rotate_left; intro hs1; clear_value s1; rotate_right; subst s1) | (refine Keeps.cut3 (t := s1) ?_ ?_; rotate_left; intro hs1; clear_value s1; rotate_right; subst s1) | (refine Keeps.cut1 (t := s1) ?_ ?_; rotate_left; intro hs1; clear_value s1; rotate_right; subst s1) | clear_value s1 | (have hm := s1; clear hm))
    | (with_reducible exact rfl)
    | (with_reducible apply toHost_keeps)
    | (with_reducible apply id_keeps)
    | (with_reducible refine Keeps.eq2 ‹_› ?_)
    | (with_reducible refine Keeps.eq3 ‹_› ?_)
    | split
    | (with_reducible apply Keeps.upd)
    | (dsimp only)
    | (exact rfl)

theorem setRingState_keeps {m : Nat} {s0 s : State} {x1 x2} (hm : 8589934612 ||| m = m) (h : Keeps m s0 s) : Keeps m s0 (setRingState x1 x2 s) := by
  unfold setRingState
  repeat' first
    | (with_reducible assumption)
    | (exact Sub.trans hm rfl)
    | (intro _)
    | (with_reducible exact rfl)
    | (with_reducible apply writeStatus_keeps)
    | (with_reducible apply wrf_keeps)
    | (with_reducible apply id_keeps)
    | (with_reducible refine Keeps.eq2 ‹_› ?_)
    | (with_reducible refine Keeps.eq3 ‹_› ?_)
    | split
    | (dsimp only)
    | (exact rfl)

theorem sendVector_keeps {m : Nat} {s0 s : State} {x1} (hm : 17179869236 ||| m = m) (h : Keeps m s0 s) : Keeps m s0 (sendVector x1 s) := by
  unfold sendVector
  repeat' first
    | (with_reducible assumption)
    | (with_reducible exact id)
    | (exact in_mask hm rfl)
    | (with_reducible exact fun _ => rfl)
    | (exact Sub.trans hm rfl)
    | (intro _)
    | (extract_lets +onlyGivenNames s1; first | (refine Keeps.cut (t := s1) ?_ ?_; rotate_left; intro hs1; clear_value s1; rotate_right; subst s1) | (refine Keeps.cut2 (t := s1) ?_ ?_; rotate_left; intro hs1; clear_value s1; rotate_right; subst s1) | (refine Keeps.cut3 (t := s1) ?_ ?_; rotate_left; intro hs1; clear_value s1; rotate_right; subst s1) | (refine Keeps.cut1 (t := s1) ?_ ?_; rotate_left; intro hs1; clear_value s1; rotate_right; subst s1) | clear_value s1 | (have hm := s1; clear hm))
    | (with_reducible exact rfl)
    | (with_reducible apply wrb_keeps)
    | (with_reducible apply toHost_keeps)
    | (with_reducible apply id_keeps)
    | (with_reducible refine Keeps.eq2 ‹_› ?_)
    | (with_reducible refine Keeps.eq3 ‹_› ?_)
    | split
    | (with_reducible apply Keeps.upd)
    | (dsimp only)
    | (exact rfl)

theorem signalVector_keeps {m : Nat} {s0 s : State} {x1} (hm : 17179869236 ||| m = m) (h : Keeps m s0 s) : Keeps m s0 (signalVector x1 s) := by
  unfold signalVector
  repeat' first
    | (with_reducible assumption)
    | (with_reducible exact id)
    | (exact in_mask hm rfl)
    | (with_reducible exact fun _ => rfl)
    | (exact Sub.trans hm rfl)
    | (intro _)
    | (extract_lets +onlyGivenNames s1; first | (refine Keeps.cut (t := s1) ?_ ?_; rotate_left; intro hs1; clear_value s1; rotate_right; subst s1) | (refine Keeps.cut2 (t := s1) ?_ ?_; rotate_left; intro hs1; clear_value s1; rotate_right; subst s1) | (refine Keeps.cut3 (t := s1) ?_ ?_; rotate_left; intro hs1; clear_value s1; rotate_right; subst s1) | (refine Keeps.cut1 (t := s1) ?_ ?_; rotate_left; intro hs1; clear_value s1; rotate_right; subst s1) | clear_value s1 | (have hm := s1; clear hm))
    | (with_reducible exact rfl)
    | (with_reducible apply sendVector_keeps)
    | (with_reducible apply id_keeps)
    | (with_reducible refine Keeps.eq2 ‹_› ?_)
    | (with_reducible refine Keeps.eq3 ‹_› ?_)
    | split
    | (with_reducible apply Keeps.upd)
    | (dsimp only)
    | (exact rfl)

theorem writeEvent_keeps {m : Nat} {s0 s : State} {x1 x2} (hm : 25769803828 ||| m = m) (h : Keeps m s0 s) : Keeps m s0 (writeEvent x1 x2 s) := by
  unfold writeEvent
  repeat' first
    | (with_reducible assumption)
    | (exact Sub.trans hm rfl)
    | (intro _)
    | (extract_lets +onlyGivenNames s1; first | (refine Keeps.cut (t := s1) ?_ ?_; rotate_left; intro hs1; clear_value s1; rotate_right; subst s1) | (refine Keeps.cut2 (t := s1) ?_ ?_; rotate_left; intro hs1; clear_value s1; rotate_right; subst s1) | (refine Keeps.cut3 (t := s1) ?_ ?_; rotate_left; intro hs1; clear_value s1; rotate_right; subst s1) | (refine Keeps.cut1 (t := s1) ?_ ?_; rotate_left; intro hs1; clear_value s1; rotate_right; subst s1) | clear_value s1 | (have hm := s1; clear hm))
    | (with_reducible exact rfl)
    | (with_reducible apply toHost_keeps)
    | (with_reducible apply writeStatus_keeps)
    | (with_reducible apply wr_keeps)
    | (with_reducible apply signalVector_keeps)
    | (with_reducible apply id_keeps)
    | (with_reducible refine Keeps.eq2 ‹_› ?_)
    | (with_reducible refine Keeps.eq3 ‹_› ?_)
    | split
    | (dsimp only)
    | (exact rfl)

theorem holdEvent_keeps {m : Nat} {s0 s : State} {x1 x2} (hm : 32 ||| m = m) (h : Keeps m s0 s) (hf : ∀ s, Keeps m s0 s → Keeps m s0 (x1 s)) : Keeps m s0 (holdEvent x1 x2 s) := by
  unfold holdEvent
  repeat' first
    | (with_reducible assumption)
    | (with_reducible exact id)
    | (exact in_mask hm rfl)
    | (with_reducible exact fun _ => rfl)
    | (exact Sub.trans hm rfl)
    | (intro _)
    | (extract_lets +onlyGivenNames s1; first | (refine Keeps.cut (t := s1) ?_ ?_; rotate_left; intro hs1; clear_value s1; rotate_right; subst s1) | (refine Keeps.cut2 (t := s1) ?_ ?_; rotate_left; intro hs1; clear_value s1; rotate_right; subst s1) | (refine Keeps.cut3 (t := s1) ?_ ?_; rotate_left; intro hs1; clear_value s1; rotate_right; subst s1) | (refine Keeps.cut1 (t := s1) ?_ ?_; rotate_left; intro hs1; clear_value s1; rotate_right; subst s1) | clear_value s1 | (have hm := s1; clear hm))
    | (with_reducible exact rfl)
    | (with_reducible apply hf)
    | (with_reducible apply id_keeps)
    | (with_reducible refine Keeps.eq2 ‹_› ?_)
    | (with_reducible refine Keeps.eq3 ‹_› ?_)
    | split
    | (with_reducible apply Keeps.upd)
    | (dsimp only)
    | (exact rfl)

theorem storeEvent_keeps {m : Nat} {s0 s : State} {x1 x2 x3} (hm : 20 ||| m = m) (h : Keeps m s0 s) (hf : ∀ s, Keeps m s0 s → Keeps m s0 (x1 s)) : Keeps m s0 (storeEvent x1 x2 x3 s) := by
  unfold storeEvent
  repeat' first
    | (with_reducible assumption)
    | (with_reducible exact id)
    | (exact in_mask hm rfl)
    | (with_reducible exact fun _ => rfl)
    | (exact Sub.trans hm rfl)
    | (intro _)
    | (extract_lets +onlyGivenNames s1; first | (refine Keeps.cut (t := s1) ?_ ?_; rotate_left; intro hs1; clear_value s1; rotate_right; subst s1) | (refine Keeps.cut2 (t := s1) ?_ ?_; rotate_left; intro hs1; clear_value s1; rotate_right; subst s1) | (refine Keeps.cut3 (t := s1) ?_ ?_; rotate_left; intro hs1; clear_value s1; rotate_right; subst s1) | (refine Keeps.cut1 (t := s1) ?_ ?_; rotate_left; intro hs1; clear_value s1; rotate_right; subst s1) | clear_value s1 | (have hm := s1; clear hm))
    | (with_reducible exact rfl)
    | (with_reducible apply writeStatus_keeps)
    | (with_reducible apply modRing_keeps)
    | (with_reducible apply hf)
    | (with_reducible apply id_keeps)
    | (with_reducible refine Keeps.eq2 ‹_› ?_)
    | (with_reducible refine Keeps.eq3 ‹_› ?_)
    | split
    | (with_reducible apply Keeps.upd)
    | (dsimp only)
    | (exact rfl)

theorem routeEvent_keeps {m : Nat} {s0 s : State} {x1 x2} (hm : 25769803828 ||| m = m) (h : Keeps m s0 s) (hf : ∀ s, Keeps m s0 s → Keeps m s0 (x1 s)) : Keeps m s0 (routeEvent x1 x2 s) := by
  unfold routeEvent
  repeat' first
    | (with_reducible assumption)
    | (with_reducible exact id)
    | (exact in_mask hm rfl)
    | (with_reducible exact fun _ => rfl)
    | (exact Sub.trans hm rfl)
    | (intro _)
    | (extract_lets +onlyGivenNames s1; first | (refine Keeps.cut (t := s1) ?_ ?_; rotate_left; intro hs1; clear_value s1; rotate_right; subst s1) | (refine Keeps.cut2 (t := s1) ?_ ?_; rotate_left; intro hs1; clear_value s1; rotate_right; subst s1) | (refine Keeps.cut3 (t := s1) ?_ ?_; rotate_left; intro hs1; clear_value s1; rotate_right; subst s1) | (refine Keeps.cut1 (t := s1) ?_ ?_; rotate_left; intro hs1; clear_value s1; rotate_right; subst s1) | clear_value s1 | (have hm := s1; clear hm))
    | (with_reducible exact rfl)
    | (with_reducible apply holdEvent_keeps)
    | (with_reducible apply storeEvent_keeps)
    | (with_reducible apply writeEvent_keeps)
    | (with_reducible apply hf)
    | (with_reducible apply id_keeps)
    | (with_reducible refine Keeps.eq2 ‹_› ?_)
    | (with_reducible refine Keeps.eq3 ‹_› ?_)
    | split
    | (with_reducible apply Keeps.upd)
    | (dsimp only)
    | (exact rfl)

theorem postEventBy_keeps {m : Nat} {s0 s : State} {x1 x2 x3 x4 x5 x6} (hm : 25769803828 ||| m = m) (h : Keeps m s0 s) (hf : ∀ s, Keeps m s0 s → Keeps m s0 (x1 s)) : Keeps m s0 (postEventBy x1 x2 x3 x4 x5 x6 s) := by
  unfold postEventBy
  repeat' first
    | (with_reducible assumption)
    | (with_reducible exact id)
    | (exact in_mask hm rfl)
    | (with_reducible exact fun _ => rfl)
    | (exact Sub.trans hm rfl)
    | (intro _)
    | (extract_lets +onlyGivenNames s1; first | (refine Keeps.cut (t := s1) ?_ ?_; rotate_left; intro hs1; clear_value s1; rotate_right; subst s1) | (refine Keeps.cut2 (t := s1) ?_ ?_; rotate_left; intro hs1; clear_value s1; rotate_right; subst s1) | (refine Keeps.cut3 (t := s1) ?_ ?_; rotate_left; intro hs1; clear_value s1; rotate_right; subst s1) | (refine Keeps.cut1 (t := s1) ?_ ?_; rotate_left; intro hs1; clear_value s1; rotate_right; subst s1) | clear_value s1 | (have hm := s1; clear hm))
    | (with_reducible exact rfl)
    | (with_reducible apply wrb_keeps)
    | (with_reducible apply bumpW_keeps)
    | (with_reducible apply routeEvent_keeps)
    | (with_reducible apply wrf_keeps)
    | (with_reducible apply signalVector_keeps)
    | (with_reducible apply hf)
    | (with_reducible apply id_keeps)
    | (with_reducible refine Keeps.eq2 ‹_› ?_)
    | (with_reducible refine Keeps.eq3 ‹_› ?_)
    | split
    | (with_reducible apply Keeps.upd)
    | (dsimp only)
    | (exact rfl)

theorem dropEvent_keeps {m : Nat} {s0 s : State} (hm : 25769803828 ||| m = m) (h : Keeps m s0 s) : Keeps m s0 (dropEvent s) := by
  unfold dropEvent
  repeat' first
    | (with_reducible assumption)
    | (with_reducible exact id)
    | (exact in_mask hm rfl)
    | (with_reducible exact fun _ => rfl)
    | (exact Sub.trans hm rfl)
    | (intro _)
    | (extract_lets +onlyGivenNames s1; first | (refine Keeps.cut (t := s1) ?_ ?_; rotate_left; intro hs1; clear_value s1; rotate_right; subst s1) | (refine Keeps.cut2 (t := s1) ?_ ?_; rotate_left; intro hs1; clear_value s1; rotate_right; subst s1) | (refine Keeps.cut3 (t := s1) ?_ ?_; rotate_left; intro hs1; clear_value s1; rotate_right; subst s1) | (refine Keeps.cut1 (t := s1) ?_ ?_; rotate_left; intro hs1; clear_value s1; rotate_right; subst s1) | clear_value s1 | (have hm := s1; clear hm))
    | (with_reducible exact rfl)
    | (with_reducible apply bump_keeps)
    | (with_reducible apply postEventBy_keeps)
    | (with_reducible apply id_keeps)
    | (with_reducible refine Keeps.eq2 ‹_› ?_)
    | (with_reducible refine Keeps.eq3 ‹_› ?_)
    | split
    | (with_reducible apply Keeps.upd)
    | (dsimp only)
    | (exact rfl)

theorem postEvent_keeps {m : Nat} {s0 s : State} {x1 x2 x3 x4 x5} (hm : 25769803828 ||| m = m) (h : Keeps m s0 s) : Keeps m s0 (postEvent x1 x2 x3 x4 x5 s) := by
  unfold postEvent
  repeat' first
    | (with_reducible assumption)
    | (with_reducible exact id)
    | (exact in_mask hm rfl)
    | (with_reducible exact fun _ => rfl)
    | (exact Sub.trans hm rfl)
    | (intro _)
    | (extract_lets +onlyGivenNames s1; first | (refine Keeps.cut (t := s1) ?_ ?_; rotate_left; intro hs1; clear_value s1; rotate_right; subst s1) | (refine Keeps.cut2 (t := s1) ?_ ?_; rotate_left; intro hs1; clear_value s1; rotate_right; subst s1) | (refine Keeps.cut3 (t := s1) ?_ ?_; rotate_left; intro hs1; clear_value s1; rotate_right; subst s1) | (refine Keeps.cut1 (t := s1) ?_ ?_; rotate_left; intro hs1; clear_value s1; rotate_right; subst s1) | clear_value s1 | (have hm := s1; clear hm))
    | (with_reducible exact rfl)
    | (with_reducible apply postEventBy_keeps)
    | (with_reducible apply dropEvent_keeps)
    | (with_reducible apply id_keeps)
    | (with_reducible refine Keeps.eq2 ‹_› ?_)
    | (with_reducible refine Keeps.eq3 ‹_› ?_)
    | split
    | (with_reducible apply Keeps.upd)
    | (dsimp only)
    | (exact rfl)

theorem postSaturated_keeps {m : Nat} {s0 s : State} {x1 x2} (hm : 25769803836 ||| m = m) (h : Keeps m s0 s) : Keeps m s0 (postSaturated x1 x2 s) := by
  unfold postSaturated
  repeat' first
    | (with_reducible assumption)
    | (exact Sub.trans hm rfl)
    | (intro _)
    | (extract_lets +onlyGivenNames s1; first | (refine Keeps.cut (t := s1) ?_ ?_; rotate_left; intro hs1; clear_value s1; rotate_right; subst s1) | (refine Keeps.cut2 (t := s1) ?_ ?_; rotate_left; intro hs1; clear_value s1; rotate_right; subst s1) | (refine Keeps.cut3 (t := s1) ?_ ?_; rotate_left; intro hs1; clear_value s1; rotate_right; subst s1) | (refine Keeps.cut1 (t := s1) ?_ ?_; rotate_left; intro hs1; clear_value s1; rotate_right; subst s1) | clear_value s1 | (have hm := s1; clear hm))
    | (with_reducible exact rfl)
    | (with_reducible refine fresh_keeps_eq ?_ ?_ ‹_›)
    | (with_reducible apply fresh_keeps)
    | (with_reducible apply postEvent_keeps)
    | (with_reducible apply id_keeps)
    | (with_reducible refine Keeps.eq2 ‹_› ?_)
    | (with_reducible refine Keeps.eq3 ‹_› ?_)
    | split
    | (dsimp only)
    | (exact rfl)

theorem flushStore_keeps {m : Nat} {s0 s : State} {x1 x2} (hm : 25769803828 ||| m = m) (h : Keeps m s0 s) : Keeps m s0 (flushStore x1 x2 s) := by
  induction x2 generalizing s  with
  | zero =>
    rw [flushStore]
    repeat' first
      | (with_reducible assumption)
      | (with_reducible exact id)
      | (exact in_mask hm rfl)
      | (with_reducible exact fun _ => rfl)
      | (exact Sub.trans hm rfl)
      | (intro _)
      | (extract_lets +onlyGivenNames s1; first | (refine Keeps.cut (t := s1) ?_ ?_; rotate_left; intro hs1; clear_value s1; rotate_right; subst s1) | (refine Keeps.cut2 (t := s1) ?_ ?_; rotate_left; intro hs1; clear_value s1; rotate_right; subst s1) | (refine Keeps.cut3 (t := s1) ?_ ?_; rotate_left; intro hs1; clear_value s1; rotate_right; subst s1) | (refine Keeps.cut1 (t := s1) ?_ ?_; rotate_left; intro hs1; clear_value s1; rotate_right; subst s1) | clear_value s1 | (have hm := s1; clear hm))
      | (with_reducible exact rfl)
      | (with_reducible apply writeEvent_keeps)
      | (with_reducible apply modRing_keeps)
      | (with_reducible apply id_keeps)
      | (with_reducible refine Keeps.eq2 ‹_› ?_)
      | (with_reducible refine Keeps.eq3 ‹_› ?_)
      | split
      | (with_reducible apply Keeps.upd)
      | (dsimp only)
      | (exact rfl)
  | succ n ih =>
    rw [flushStore]
    repeat' first
      | (with_reducible apply ih)
      | (with_reducible assumption)
      | (with_reducible exact id)
      | (exact in_mask hm rfl)
      | (with_reducible exact fun _ => rfl)
      | (exact Sub.trans hm rfl)
      | (intro _)
      | (extract_lets +onlyGivenNames s1; first | (refine Keeps.cut (t := s1) ?_ ?_; rotate_left; intro hs1; clear_value s1; rotate_right; subst s1) | (refine Keeps.cut2 (t := s1) ?_ ?_; rotate_left; intro hs1; clear_value s1; rotate_right; subst s1) | (refine Keeps.cut3 (t := s1) ?_ ?_; rotate_left; intro hs1; clear_value s1; rotate_right; subst s1) | (refine Keeps.cut1 (t := s1) ?_ ?_; rotate_left; intro hs1; clear_value s1; rotate_right; subst s1) | clear_value s1 | (have hm := s1; clear hm))
      | (with_reducible exact rfl)
      | (with_reducible apply writeEvent_keeps)
      | (with_reducible apply modRing_keeps)
      | (with_reducible apply id_keeps)
      | (with_reducible refine Keeps.eq2 ‹_› ?_)
      | (with_reducible refine Keeps.eq3 ‹_› ?_)
      | split
      | (with_reducible apply Keeps.upd)
      | (dsimp only)
      | (exact rfl)

theorem flushHeldGo_keeps {m : Nat} {s0 s : State} {x1 x2} (hm : 25769803828 ||| m = m) (h : Keeps m s0 s) : Keeps m s0 (flushHeldGo x1 x2 s) := by
  induction x1 generalizing s x2 with
  | nil =>
    rw [flushHeldGo]
    repeat' first
      | (with_reducible assumption)
      | (with_reducible exact id)
      | (exact in_mask hm rfl)
      | (with_reducible exact fun _ => rfl)
      | (exact Sub.trans hm rfl)
      | (intro _)
      | (extract_lets +onlyGivenNames s1; first | (refine Keeps.cut (t := s1) ?_ ?_; rotate_left; intro hs1; clear_value s1; rotate_right; subst s1) | (refine Keeps.cut2 (t := s1) ?_ ?_; rotate_left; intro hs1; clear_value s1; rotate_right; subst s1) | (refine Keeps.cut3 (t := s1) ?_ ?_; rotate_left; intro hs1; clear_value s1; rotate_right; subst s1) | (refine Keeps.cut1 (t := s1) ?_ ?_; rotate_left; intro hs1; clear_value s1; rotate_right; subst s1) | clear_value s1 | (have hm := s1; clear hm))
      | (with_reducible exact rfl)
      | (with_reducible apply storeEvent_keeps)
      | (with_reducible apply dropEvent_keeps)
      | (with_reducible apply writeEvent_keeps)
      | (with_reducible apply id_keeps)
      | (with_reducible refine Keeps.eq2 ‹_› ?_)
      | (with_reducible refine Keeps.eq3 ‹_› ?_)
      | split
      | (with_reducible apply Keeps.upd)
      | (dsimp only)
      | (exact rfl)
  | cons a r ih =>
    rw [flushHeldGo]
    repeat' first
      | (with_reducible apply ih)
      | (with_reducible assumption)
      | (with_reducible exact id)
      | (exact in_mask hm rfl)
      | (with_reducible exact fun _ => rfl)
      | (exact Sub.trans hm rfl)
      | (intro _)
      | (extract_lets +onlyGivenNames s1; first | (refine Keeps.cut (t := s1) ?_ ?_; rotate_left; intro hs1; clear_value s1; rotate_right; subst s1) | (refine Keeps.cut2 (t := s1) ?_ ?_; rotate_left; intro hs1; clear_value s1; rotate_right; subst s1) | (refine Keeps.cut3 (t := s1) ?_ ?_; rotate_left; intro hs1; clear_value s1; rotate_right; subst s1) | (refine Keeps.cut1 (t := s1) ?_ ?_; rotate_left; intro hs1; clear_value s1; rotate_right; subst s1) | clear_value s1 | (have hm := s1; clear hm))
      | (with_reducible exact rfl)
      | (with_reducible apply storeEvent_keeps)
      | (with_reducible apply dropEvent_keeps)
      | (with_reducible apply writeEvent_keeps)
      | (with_reducible apply id_keeps)
      | (with_reducible refine Keeps.eq2 ‹_› ?_)
      | (with_reducible refine Keeps.eq3 ‹_› ?_)
      | split
      | (with_reducible apply Keeps.upd)
      | (dsimp only)
      | (exact rfl)

theorem flushEvents_keeps {m : Nat} {s0 s : State} (hm : 25769803828 ||| m = m) (h : Keeps m s0 s) : Keeps m s0 (flushEvents s) := by
  unfold flushEvents
  repeat' first
    | (with_reducible assumption)
    | (exact Sub.trans hm rfl)
    | (intro _)
    | (extract_lets +onlyGivenNames s1; first | (refine Keeps.cut (t := s1) ?_ ?_; rotate_left; intro hs1; clear_value s1; rotate_right; subst s1) | (refine Keeps.cut2 (t := s1) ?_ ?_; rotate_left; intro hs1; clear_value s1; rotate_right; subst s1) | (refine Keeps.cut3 (t := s1) ?_ ?_; rotate_left; intro hs1; clear_value s1; rotate_right; subst s1) | (refine Keeps.cut1 (t := s1) ?_ ?_; rotate_left; intro hs1; clear_value s1; rotate_right; subst s1) | clear_value s1 | (have hm := s1; clear hm))
    | (with_reducible exact rfl)
    | (with_reducible apply each_keeps)
    | (with_reducible apply flushStore_keeps)
    | (with_reducible apply flushHeldGo_keeps)
    | (with_reducible apply wrf_keeps)
    | (with_reducible apply id_keeps)
    | (with_reducible refine Keeps.eq2 ‹_› ?_)
    | (with_reducible refine Keeps.eq3 ‹_› ?_)
    | split
    | (dsimp only)
    | (exact rfl)

end Sys2Proof.Laws
end

