-- ==== Sys2Proof/Laws/State.lean ====
section
/-! SUPPORT. What each named update of the state leaves alone, one lemma per field, each true by definition. -/

namespace Sys2Proof.Laws
open Sys2Proof Sys2Proof.Machine

/-! ### wr -/

@[simp] theorem wr_pending (r : RegInfo) (v : Nat) (s : State) (i : Nat) : (wr r v s i).pending = s.pending := rfl
@[simp] theorem wr_heldLow (r : RegInfo) (v : Nat) (s : State) (i : Nat) : (wr r v s i).heldLow = s.heldLow := rfl
@[simp] theorem wr_latchedHigh (r : RegInfo) (v : Nat) (s : State) (i : Nat) : (wr r v s i).latchedHigh = s.latchedHigh := rfl
@[simp] theorem wr_out (r : RegInfo) (v : Nat) (s : State) (i : Nat) : (wr r v s i).out = s.out := rfl
@[simp] theorem wr_freeCtr (r : RegInfo) (v : Nat) (s : State) (i : Nat) : (wr r v s i).freeCtr = s.freeCtr := rfl
@[simp] theorem wr_host (r : RegInfo) (v : Nat) (s : State) (i : Nat) : (wr r v s i).host = s.host := rfl
@[simp] theorem wr_evt (r : RegInfo) (v : Nat) (s : State) (i : Nat) : (wr r v s i).evt = s.evt := rfl
@[simp] theorem wr_time (r : RegInfo) (v : Nat) (s : State) (i : Nat) : (wr r v s i).time = s.time := rfl
@[simp] theorem wr_mem (r : RegInfo) (v : Nat) (s : State) (i : Nat) : (wr r v s i).mem = s.mem := rfl
@[simp] theorem wr_arb (r : RegInfo) (v : Nat) (s : State) (i : Nat) : (wr r v s i).arb = s.arb := rfl
@[simp] theorem wr_mot (r : RegInfo) (v : Nat) (s : State) (i : Nat) : (wr r v s i).mot = s.mot := rfl
@[simp] theorem wr_dose (r : RegInfo) (v : Nat) (s : State) (i : Nat) : (wr r v s i).dose = s.dose := rfl
@[simp] theorem wr_ctl (r : RegInfo) (v : Nat) (s : State) (i : Nat) : (wr r v s i).ctl = s.ctl := rfl
@[simp] theorem wr_pwr (r : RegInfo) (v : Nat) (s : State) (i : Nat) : (wr r v s i).pwr = s.pwr := rfl
@[simp] theorem wr_thm (r : RegInfo) (v : Nat) (s : State) (i : Nat) : (wr r v s i).thm = s.thm := rfl
@[simp] theorem wr_head (r : RegInfo) (v : Nat) (s : State) (i : Nat) : (wr r v s i).head = s.head := rfl
@[simp] theorem wr_cam (r : RegInfo) (v : Nat) (s : State) (i : Nat) : (wr r v s i).cam = s.cam := rfl

/-! ### wrf -/

@[simp] theorem wrf_pending (r : RegInfo) (lo len v : Nat) (s : State) (i : Nat) : (wrf r lo len v s i).pending = s.pending := rfl
@[simp] theorem wrf_heldLow (r : RegInfo) (lo len v : Nat) (s : State) (i : Nat) : (wrf r lo len v s i).heldLow = s.heldLow := rfl
@[simp] theorem wrf_latchedHigh (r : RegInfo) (lo len v : Nat) (s : State) (i : Nat) : (wrf r lo len v s i).latchedHigh = s.latchedHigh := rfl
@[simp] theorem wrf_out (r : RegInfo) (lo len v : Nat) (s : State) (i : Nat) : (wrf r lo len v s i).out = s.out := rfl
@[simp] theorem wrf_freeCtr (r : RegInfo) (lo len v : Nat) (s : State) (i : Nat) : (wrf r lo len v s i).freeCtr = s.freeCtr := rfl
@[simp] theorem wrf_host (r : RegInfo) (lo len v : Nat) (s : State) (i : Nat) : (wrf r lo len v s i).host = s.host := rfl
@[simp] theorem wrf_evt (r : RegInfo) (lo len v : Nat) (s : State) (i : Nat) : (wrf r lo len v s i).evt = s.evt := rfl
@[simp] theorem wrf_time (r : RegInfo) (lo len v : Nat) (s : State) (i : Nat) : (wrf r lo len v s i).time = s.time := rfl
@[simp] theorem wrf_mem (r : RegInfo) (lo len v : Nat) (s : State) (i : Nat) : (wrf r lo len v s i).mem = s.mem := rfl
@[simp] theorem wrf_arb (r : RegInfo) (lo len v : Nat) (s : State) (i : Nat) : (wrf r lo len v s i).arb = s.arb := rfl
@[simp] theorem wrf_mot (r : RegInfo) (lo len v : Nat) (s : State) (i : Nat) : (wrf r lo len v s i).mot = s.mot := rfl
@[simp] theorem wrf_dose (r : RegInfo) (lo len v : Nat) (s : State) (i : Nat) : (wrf r lo len v s i).dose = s.dose := rfl
@[simp] theorem wrf_ctl (r : RegInfo) (lo len v : Nat) (s : State) (i : Nat) : (wrf r lo len v s i).ctl = s.ctl := rfl
@[simp] theorem wrf_pwr (r : RegInfo) (lo len v : Nat) (s : State) (i : Nat) : (wrf r lo len v s i).pwr = s.pwr := rfl
@[simp] theorem wrf_thm (r : RegInfo) (lo len v : Nat) (s : State) (i : Nat) : (wrf r lo len v s i).thm = s.thm := rfl
@[simp] theorem wrf_head (r : RegInfo) (lo len v : Nat) (s : State) (i : Nat) : (wrf r lo len v s i).head = s.head := rfl
@[simp] theorem wrf_cam (r : RegInfo) (lo len v : Nat) (s : State) (i : Nat) : (wrf r lo len v s i).cam = s.cam := rfl

/-! ### wrb -/

@[simp] theorem wrb_pending (r : RegInfo) (n : Nat) (b : Bool) (s : State) (i : Nat) : (wrb r n b s i).pending = s.pending := rfl
@[simp] theorem wrb_heldLow (r : RegInfo) (n : Nat) (b : Bool) (s : State) (i : Nat) : (wrb r n b s i).heldLow = s.heldLow := rfl
@[simp] theorem wrb_latchedHigh (r : RegInfo) (n : Nat) (b : Bool) (s : State) (i : Nat) : (wrb r n b s i).latchedHigh = s.latchedHigh := rfl
@[simp] theorem wrb_out (r : RegInfo) (n : Nat) (b : Bool) (s : State) (i : Nat) : (wrb r n b s i).out = s.out := rfl
@[simp] theorem wrb_freeCtr (r : RegInfo) (n : Nat) (b : Bool) (s : State) (i : Nat) : (wrb r n b s i).freeCtr = s.freeCtr := rfl
@[simp] theorem wrb_host (r : RegInfo) (n : Nat) (b : Bool) (s : State) (i : Nat) : (wrb r n b s i).host = s.host := rfl
@[simp] theorem wrb_evt (r : RegInfo) (n : Nat) (b : Bool) (s : State) (i : Nat) : (wrb r n b s i).evt = s.evt := rfl
@[simp] theorem wrb_time (r : RegInfo) (n : Nat) (b : Bool) (s : State) (i : Nat) : (wrb r n b s i).time = s.time := rfl
@[simp] theorem wrb_mem (r : RegInfo) (n : Nat) (b : Bool) (s : State) (i : Nat) : (wrb r n b s i).mem = s.mem := rfl
@[simp] theorem wrb_arb (r : RegInfo) (n : Nat) (b : Bool) (s : State) (i : Nat) : (wrb r n b s i).arb = s.arb := rfl
@[simp] theorem wrb_mot (r : RegInfo) (n : Nat) (b : Bool) (s : State) (i : Nat) : (wrb r n b s i).mot = s.mot := rfl
@[simp] theorem wrb_dose (r : RegInfo) (n : Nat) (b : Bool) (s : State) (i : Nat) : (wrb r n b s i).dose = s.dose := rfl
@[simp] theorem wrb_ctl (r : RegInfo) (n : Nat) (b : Bool) (s : State) (i : Nat) : (wrb r n b s i).ctl = s.ctl := rfl
@[simp] theorem wrb_pwr (r : RegInfo) (n : Nat) (b : Bool) (s : State) (i : Nat) : (wrb r n b s i).pwr = s.pwr := rfl
@[simp] theorem wrb_thm (r : RegInfo) (n : Nat) (b : Bool) (s : State) (i : Nat) : (wrb r n b s i).thm = s.thm := rfl
@[simp] theorem wrb_head (r : RegInfo) (n : Nat) (b : Bool) (s : State) (i : Nat) : (wrb r n b s i).head = s.head := rfl
@[simp] theorem wrb_cam (r : RegInfo) (n : Nat) (b : Bool) (s : State) (i : Nat) : (wrb r n b s i).cam = s.cam := rfl

/-! ### wrI -/

@[simp] theorem wrI_pending (r : RegInfo) (v : Int) (s : State) (i : Nat) : (wrI r v s i).pending = s.pending := rfl
@[simp] theorem wrI_heldLow (r : RegInfo) (v : Int) (s : State) (i : Nat) : (wrI r v s i).heldLow = s.heldLow := rfl
@[simp] theorem wrI_latchedHigh (r : RegInfo) (v : Int) (s : State) (i : Nat) : (wrI r v s i).latchedHigh = s.latchedHigh := rfl
@[simp] theorem wrI_out (r : RegInfo) (v : Int) (s : State) (i : Nat) : (wrI r v s i).out = s.out := rfl
@[simp] theorem wrI_freeCtr (r : RegInfo) (v : Int) (s : State) (i : Nat) : (wrI r v s i).freeCtr = s.freeCtr := rfl
@[simp] theorem wrI_host (r : RegInfo) (v : Int) (s : State) (i : Nat) : (wrI r v s i).host = s.host := rfl
@[simp] theorem wrI_evt (r : RegInfo) (v : Int) (s : State) (i : Nat) : (wrI r v s i).evt = s.evt := rfl
@[simp] theorem wrI_time (r : RegInfo) (v : Int) (s : State) (i : Nat) : (wrI r v s i).time = s.time := rfl
@[simp] theorem wrI_mem (r : RegInfo) (v : Int) (s : State) (i : Nat) : (wrI r v s i).mem = s.mem := rfl
@[simp] theorem wrI_arb (r : RegInfo) (v : Int) (s : State) (i : Nat) : (wrI r v s i).arb = s.arb := rfl
@[simp] theorem wrI_mot (r : RegInfo) (v : Int) (s : State) (i : Nat) : (wrI r v s i).mot = s.mot := rfl
@[simp] theorem wrI_dose (r : RegInfo) (v : Int) (s : State) (i : Nat) : (wrI r v s i).dose = s.dose := rfl
@[simp] theorem wrI_ctl (r : RegInfo) (v : Int) (s : State) (i : Nat) : (wrI r v s i).ctl = s.ctl := rfl
@[simp] theorem wrI_pwr (r : RegInfo) (v : Int) (s : State) (i : Nat) : (wrI r v s i).pwr = s.pwr := rfl
@[simp] theorem wrI_thm (r : RegInfo) (v : Int) (s : State) (i : Nat) : (wrI r v s i).thm = s.thm := rfl
@[simp] theorem wrI_head (r : RegInfo) (v : Int) (s : State) (i : Nat) : (wrI r v s i).head = s.head := rfl
@[simp] theorem wrI_cam (r : RegInfo) (v : Int) (s : State) (i : Nat) : (wrI r v s i).cam = s.cam := rfl

/-! ### emit -/

@[simp] theorem emit_pending (o : Out) (s : State) : (emit o s).pending = s.pending := rfl
@[simp] theorem emit_regs (o : Out) (s : State) : (emit o s).regs = s.regs := rfl
@[simp] theorem emit_heldLow (o : Out) (s : State) : (emit o s).heldLow = s.heldLow := rfl
@[simp] theorem emit_latchedHigh (o : Out) (s : State) : (emit o s).latchedHigh = s.latchedHigh := rfl
@[simp] theorem emit_freeCtr (o : Out) (s : State) : (emit o s).freeCtr = s.freeCtr := rfl
@[simp] theorem emit_host (o : Out) (s : State) : (emit o s).host = s.host := rfl
@[simp] theorem emit_evt (o : Out) (s : State) : (emit o s).evt = s.evt := rfl
@[simp] theorem emit_time (o : Out) (s : State) : (emit o s).time = s.time := rfl
@[simp] theorem emit_mem (o : Out) (s : State) : (emit o s).mem = s.mem := rfl
@[simp] theorem emit_arb (o : Out) (s : State) : (emit o s).arb = s.arb := rfl
@[simp] theorem emit_mot (o : Out) (s : State) : (emit o s).mot = s.mot := rfl
@[simp] theorem emit_dose (o : Out) (s : State) : (emit o s).dose = s.dose := rfl
@[simp] theorem emit_ctl (o : Out) (s : State) : (emit o s).ctl = s.ctl := rfl
@[simp] theorem emit_pwr (o : Out) (s : State) : (emit o s).pwr = s.pwr := rfl
@[simp] theorem emit_thm (o : Out) (s : State) : (emit o s).thm = s.thm := rfl
@[simp] theorem emit_head (o : Out) (s : State) : (emit o s).head = s.head := rfl
@[simp] theorem emit_cam (o : Out) (s : State) : (emit o s).cam = s.cam := rfl
@[simp] theorem emit_rd (o : Out) (s : State) (q : RegInfo) (j : Nat) : rd q (emit o s) j = rd q s j := rfl

/-! ### fresh -/

@[simp] theorem fresh_pending (s : State) : ((fresh s).2).pending = s.pending := rfl
@[simp] theorem fresh_regs (s : State) : ((fresh s).2).regs = s.regs := rfl
@[simp] theorem fresh_heldLow (s : State) : ((fresh s).2).heldLow = s.heldLow := rfl
@[simp] theorem fresh_latchedHigh (s : State) : ((fresh s).2).latchedHigh = s.latchedHigh := rfl
@[simp] theorem fresh_out (s : State) : ((fresh s).2).out = s.out := rfl
@[simp] theorem fresh_host (s : State) : ((fresh s).2).host = s.host := rfl
@[simp] theorem fresh_evt (s : State) : ((fresh s).2).evt = s.evt := rfl
@[simp] theorem fresh_time (s : State) : ((fresh s).2).time = s.time := rfl
@[simp] theorem fresh_mem (s : State) : ((fresh s).2).mem = s.mem := rfl
@[simp] theorem fresh_arb (s : State) : ((fresh s).2).arb = s.arb := rfl
@[simp] theorem fresh_mot (s : State) : ((fresh s).2).mot = s.mot := rfl
@[simp] theorem fresh_dose (s : State) : ((fresh s).2).dose = s.dose := rfl
@[simp] theorem fresh_ctl (s : State) : ((fresh s).2).ctl = s.ctl := rfl
@[simp] theorem fresh_pwr (s : State) : ((fresh s).2).pwr = s.pwr := rfl
@[simp] theorem fresh_thm (s : State) : ((fresh s).2).thm = s.thm := rfl
@[simp] theorem fresh_head (s : State) : ((fresh s).2).head = s.head := rfl
@[simp] theorem fresh_cam (s : State) : ((fresh s).2).cam = s.cam := rfl
@[simp] theorem fresh_rd (s : State) (q : RegInfo) (j : Nat) : rd q ((fresh s).2) j = rd q s j := rfl

/-! ### modRing -/

@[simp] theorem modRing_pending (k : Nat) (f : RingInt → RingInt) (s : State) : (modRing k f s).pending = s.pending := rfl
@[simp] theorem modRing_regs (k : Nat) (f : RingInt → RingInt) (s : State) : (modRing k f s).regs = s.regs := rfl
@[simp] theorem modRing_heldLow (k : Nat) (f : RingInt → RingInt) (s : State) : (modRing k f s).heldLow = s.heldLow := rfl
@[simp] theorem modRing_latchedHigh (k : Nat) (f : RingInt → RingInt) (s : State) : (modRing k f s).latchedHigh = s.latchedHigh := rfl
@[simp] theorem modRing_out (k : Nat) (f : RingInt → RingInt) (s : State) : (modRing k f s).out = s.out := rfl
@[simp] theorem modRing_freeCtr (k : Nat) (f : RingInt → RingInt) (s : State) : (modRing k f s).freeCtr = s.freeCtr := rfl
@[simp] theorem modRing_evt (k : Nat) (f : RingInt → RingInt) (s : State) : (modRing k f s).evt = s.evt := rfl
@[simp] theorem modRing_time (k : Nat) (f : RingInt → RingInt) (s : State) : (modRing k f s).time = s.time := rfl
@[simp] theorem modRing_mem (k : Nat) (f : RingInt → RingInt) (s : State) : (modRing k f s).mem = s.mem := rfl
@[simp] theorem modRing_arb (k : Nat) (f : RingInt → RingInt) (s : State) : (modRing k f s).arb = s.arb := rfl
@[simp] theorem modRing_mot (k : Nat) (f : RingInt → RingInt) (s : State) : (modRing k f s).mot = s.mot := rfl
@[simp] theorem modRing_dose (k : Nat) (f : RingInt → RingInt) (s : State) : (modRing k f s).dose = s.dose := rfl
@[simp] theorem modRing_ctl (k : Nat) (f : RingInt → RingInt) (s : State) : (modRing k f s).ctl = s.ctl := rfl
@[simp] theorem modRing_pwr (k : Nat) (f : RingInt → RingInt) (s : State) : (modRing k f s).pwr = s.pwr := rfl
@[simp] theorem modRing_thm (k : Nat) (f : RingInt → RingInt) (s : State) : (modRing k f s).thm = s.thm := rfl
@[simp] theorem modRing_head (k : Nat) (f : RingInt → RingInt) (s : State) : (modRing k f s).head = s.head := rfl
@[simp] theorem modRing_cam (k : Nat) (f : RingInt → RingInt) (s : State) : (modRing k f s).cam = s.cam := rfl
@[simp] theorem modRing_rd (k : Nat) (f : RingInt → RingInt) (s : State) (q : RegInfo) (j : Nat) : rd q (modRing k f s) j = rd q s j := rfl

/-! ### freeChan -/

@[simp] theorem freeChan_pending (k : Nat) (s : State) : (freeChan k s).pending = s.pending := rfl
@[simp] theorem freeChan_regs (k : Nat) (s : State) : (freeChan k s).regs = s.regs := rfl
@[simp] theorem freeChan_heldLow (k : Nat) (s : State) : (freeChan k s).heldLow = s.heldLow := rfl
@[simp] theorem freeChan_latchedHigh (k : Nat) (s : State) : (freeChan k s).latchedHigh = s.latchedHigh := rfl
@[simp] theorem freeChan_out (k : Nat) (s : State) : (freeChan k s).out = s.out := rfl
@[simp] theorem freeChan_freeCtr (k : Nat) (s : State) : (freeChan k s).freeCtr = s.freeCtr := rfl
@[simp] theorem freeChan_evt (k : Nat) (s : State) : (freeChan k s).evt = s.evt := rfl
@[simp] theorem freeChan_time (k : Nat) (s : State) : (freeChan k s).time = s.time := rfl
@[simp] theorem freeChan_mem (k : Nat) (s : State) : (freeChan k s).mem = s.mem := rfl
@[simp] theorem freeChan_arb (k : Nat) (s : State) : (freeChan k s).arb = s.arb := rfl
@[simp] theorem freeChan_mot (k : Nat) (s : State) : (freeChan k s).mot = s.mot := rfl
@[simp] theorem freeChan_dose (k : Nat) (s : State) : (freeChan k s).dose = s.dose := rfl
@[simp] theorem freeChan_ctl (k : Nat) (s : State) : (freeChan k s).ctl = s.ctl := rfl
@[simp] theorem freeChan_pwr (k : Nat) (s : State) : (freeChan k s).pwr = s.pwr := rfl
@[simp] theorem freeChan_thm (k : Nat) (s : State) : (freeChan k s).thm = s.thm := rfl
@[simp] theorem freeChan_head (k : Nat) (s : State) : (freeChan k s).head = s.head := rfl
@[simp] theorem freeChan_cam (k : Nat) (s : State) : (freeChan k s).cam = s.cam := rfl
@[simp] theorem freeChan_rd (k : Nat) (s : State) (q : RegInfo) (j : Nat) : rd q (freeChan k s) j = rd q s j := rfl

/-! ### modMem -/

@[simp] theorem modMem_pending (f : MemState → MemState) (s : State) : (modMem f s).pending = s.pending := rfl
@[simp] theorem modMem_regs (f : MemState → MemState) (s : State) : (modMem f s).regs = s.regs := rfl
@[simp] theorem modMem_heldLow (f : MemState → MemState) (s : State) : (modMem f s).heldLow = s.heldLow := rfl
@[simp] theorem modMem_latchedHigh (f : MemState → MemState) (s : State) : (modMem f s).latchedHigh = s.latchedHigh := rfl
@[simp] theorem modMem_out (f : MemState → MemState) (s : State) : (modMem f s).out = s.out := rfl
@[simp] theorem modMem_freeCtr (f : MemState → MemState) (s : State) : (modMem f s).freeCtr = s.freeCtr := rfl
@[simp] theorem modMem_host (f : MemState → MemState) (s : State) : (modMem f s).host = s.host := rfl
@[simp] theorem modMem_evt (f : MemState → MemState) (s : State) : (modMem f s).evt = s.evt := rfl
@[simp] theorem modMem_time (f : MemState → MemState) (s : State) : (modMem f s).time = s.time := rfl
@[simp] theorem modMem_arb (f : MemState → MemState) (s : State) : (modMem f s).arb = s.arb := rfl
@[simp] theorem modMem_mot (f : MemState → MemState) (s : State) : (modMem f s).mot = s.mot := rfl
@[simp] theorem modMem_dose (f : MemState → MemState) (s : State) : (modMem f s).dose = s.dose := rfl
@[simp] theorem modMem_ctl (f : MemState → MemState) (s : State) : (modMem f s).ctl = s.ctl := rfl
@[simp] theorem modMem_pwr (f : MemState → MemState) (s : State) : (modMem f s).pwr = s.pwr := rfl
@[simp] theorem modMem_thm (f : MemState → MemState) (s : State) : (modMem f s).thm = s.thm := rfl
@[simp] theorem modMem_head (f : MemState → MemState) (s : State) : (modMem f s).head = s.head := rfl
@[simp] theorem modMem_cam (f : MemState → MemState) (s : State) : (modMem f s).cam = s.cam := rfl
@[simp] theorem modMem_rd (f : MemState → MemState) (s : State) (q : RegInfo) (j : Nat) : rd q (modMem f s) j = rd q s j := rfl
@[simp] theorem modMem_get (f : MemState → MemState) (s : State) : (modMem f s).mem = f s.mem := rfl

/-! ### modCtl -/

@[simp] theorem modCtl_pending (f : CtlState → CtlState) (s : State) : (modCtl f s).pending = s.pending := rfl
@[simp] theorem modCtl_regs (f : CtlState → CtlState) (s : State) : (modCtl f s).regs = s.regs := rfl
@[simp] theorem modCtl_heldLow (f : CtlState → CtlState) (s : State) : (modCtl f s).heldLow = s.heldLow := rfl
@[simp] theorem modCtl_latchedHigh (f : CtlState → CtlState) (s : State) : (modCtl f s).latchedHigh = s.latchedHigh := rfl
@[simp] theorem modCtl_out (f : CtlState → CtlState) (s : State) : (modCtl f s).out = s.out := rfl
@[simp] theorem modCtl_freeCtr (f : CtlState → CtlState) (s : State) : (modCtl f s).freeCtr = s.freeCtr := rfl
@[simp] theorem modCtl_host (f : CtlState → CtlState) (s : State) : (modCtl f s).host = s.host := rfl
@[simp] theorem modCtl_evt (f : CtlState → CtlState) (s : State) : (modCtl f s).evt = s.evt := rfl
@[simp] theorem modCtl_time (f : CtlState → CtlState) (s : State) : (modCtl f s).time = s.time := rfl
@[simp] theorem modCtl_mem (f : CtlState → CtlState) (s : State) : (modCtl f s).mem = s.mem := rfl
@[simp] theorem modCtl_arb (f : CtlState → CtlState) (s : State) : (modCtl f s).arb = s.arb := rfl
@[simp] theorem modCtl_mot (f : CtlState → CtlState) (s : State) : (modCtl f s).mot = s.mot := rfl
@[simp] theorem modCtl_dose (f : CtlState → CtlState) (s : State) : (modCtl f s).dose = s.dose := rfl
@[simp] theorem modCtl_pwr (f : CtlState → CtlState) (s : State) : (modCtl f s).pwr = s.pwr := rfl
@[simp] theorem modCtl_thm (f : CtlState → CtlState) (s : State) : (modCtl f s).thm = s.thm := rfl
@[simp] theorem modCtl_head (f : CtlState → CtlState) (s : State) : (modCtl f s).head = s.head := rfl
@[simp] theorem modCtl_cam (f : CtlState → CtlState) (s : State) : (modCtl f s).cam = s.cam := rfl
@[simp] theorem modCtl_rd (f : CtlState → CtlState) (s : State) (q : RegInfo) (j : Nat) : rd q (modCtl f s) j = rd q s j := rfl
@[simp] theorem modCtl_get (f : CtlState → CtlState) (s : State) : (modCtl f s).ctl = f s.ctl := rfl

/-! ### modPin -/

@[simp] theorem modPin_pending (f : PinState → PinState) (s : State) : (modPin f s).pending = s.pending := rfl
@[simp] theorem modPin_regs (f : PinState → PinState) (s : State) : (modPin f s).regs = s.regs := rfl
@[simp] theorem modPin_heldLow (f : PinState → PinState) (s : State) : (modPin f s).heldLow = s.heldLow := rfl
@[simp] theorem modPin_latchedHigh (f : PinState → PinState) (s : State) : (modPin f s).latchedHigh = s.latchedHigh := rfl
@[simp] theorem modPin_out (f : PinState → PinState) (s : State) : (modPin f s).out = s.out := rfl
@[simp] theorem modPin_freeCtr (f : PinState → PinState) (s : State) : (modPin f s).freeCtr = s.freeCtr := rfl
@[simp] theorem modPin_host (f : PinState → PinState) (s : State) : (modPin f s).host = s.host := rfl
@[simp] theorem modPin_evt (f : PinState → PinState) (s : State) : (modPin f s).evt = s.evt := rfl
@[simp] theorem modPin_time (f : PinState → PinState) (s : State) : (modPin f s).time = s.time := rfl
@[simp] theorem modPin_mem (f : PinState → PinState) (s : State) : (modPin f s).mem = s.mem := rfl
@[simp] theorem modPin_arb (f : PinState → PinState) (s : State) : (modPin f s).arb = s.arb := rfl
@[simp] theorem modPin_mot (f : PinState → PinState) (s : State) : (modPin f s).mot = s.mot := rfl
@[simp] theorem modPin_dose (f : PinState → PinState) (s : State) : (modPin f s).dose = s.dose := rfl
@[simp] theorem modPin_pwr (f : PinState → PinState) (s : State) : (modPin f s).pwr = s.pwr := rfl
@[simp] theorem modPin_thm (f : PinState → PinState) (s : State) : (modPin f s).thm = s.thm := rfl
@[simp] theorem modPin_head (f : PinState → PinState) (s : State) : (modPin f s).head = s.head := rfl
@[simp] theorem modPin_cam (f : PinState → PinState) (s : State) : (modPin f s).cam = s.cam := rfl
@[simp] theorem modPin_rd (f : PinState → PinState) (s : State) (q : RegInfo) (j : Nat) : rd q (modPin f s) j = rd q s j := rfl

/-! ### modPwr -/

@[simp] theorem modPwr_pending (f : PwrState → PwrState) (s : State) : (modPwr f s).pending = s.pending := rfl
@[simp] theorem modPwr_regs (f : PwrState → PwrState) (s : State) : (modPwr f s).regs = s.regs := rfl
@[simp] theorem modPwr_heldLow (f : PwrState → PwrState) (s : State) : (modPwr f s).heldLow = s.heldLow := rfl
@[simp] theorem modPwr_latchedHigh (f : PwrState → PwrState) (s : State) : (modPwr f s).latchedHigh = s.latchedHigh := rfl
@[simp] theorem modPwr_out (f : PwrState → PwrState) (s : State) : (modPwr f s).out = s.out := rfl
@[simp] theorem modPwr_freeCtr (f : PwrState → PwrState) (s : State) : (modPwr f s).freeCtr = s.freeCtr := rfl
@[simp] theorem modPwr_host (f : PwrState → PwrState) (s : State) : (modPwr f s).host = s.host := rfl
@[simp] theorem modPwr_evt (f : PwrState → PwrState) (s : State) : (modPwr f s).evt = s.evt := rfl
@[simp] theorem modPwr_time (f : PwrState → PwrState) (s : State) : (modPwr f s).time = s.time := rfl
@[simp] theorem modPwr_mem (f : PwrState → PwrState) (s : State) : (modPwr f s).mem = s.mem := rfl
@[simp] theorem modPwr_arb (f : PwrState → PwrState) (s : State) : (modPwr f s).arb = s.arb := rfl
@[simp] theorem modPwr_mot (f : PwrState → PwrState) (s : State) : (modPwr f s).mot = s.mot := rfl
@[simp] theorem modPwr_dose (f : PwrState → PwrState) (s : State) : (modPwr f s).dose = s.dose := rfl
@[simp] theorem modPwr_ctl (f : PwrState → PwrState) (s : State) : (modPwr f s).ctl = s.ctl := rfl
@[simp] theorem modPwr_thm (f : PwrState → PwrState) (s : State) : (modPwr f s).thm = s.thm := rfl
@[simp] theorem modPwr_head (f : PwrState → PwrState) (s : State) : (modPwr f s).head = s.head := rfl
@[simp] theorem modPwr_cam (f : PwrState → PwrState) (s : State) : (modPwr f s).cam = s.cam := rfl
@[simp] theorem modPwr_rd (f : PwrState → PwrState) (s : State) (q : RegInfo) (j : Nat) : rd q (modPwr f s) j = rd q s j := rfl
@[simp] theorem modPwr_get (f : PwrState → PwrState) (s : State) : (modPwr f s).pwr = f s.pwr := rfl

/-! ### modThm -/

@[simp] theorem modThm_pending (f : ThmState → ThmState) (s : State) : (modThm f s).pending = s.pending := rfl
@[simp] theorem modThm_regs (f : ThmState → ThmState) (s : State) : (modThm f s).regs = s.regs := rfl
@[simp] theorem modThm_heldLow (f : ThmState → ThmState) (s : State) : (modThm f s).heldLow = s.heldLow := rfl
@[simp] theorem modThm_latchedHigh (f : ThmState → ThmState) (s : State) : (modThm f s).latchedHigh = s.latchedHigh := rfl
@[simp] theorem modThm_out (f : ThmState → ThmState) (s : State) : (modThm f s).out = s.out := rfl
@[simp] theorem modThm_freeCtr (f : ThmState → ThmState) (s : State) : (modThm f s).freeCtr = s.freeCtr := rfl
@[simp] theorem modThm_host (f : ThmState → ThmState) (s : State) : (modThm f s).host = s.host := rfl
@[simp] theorem modThm_evt (f : ThmState → ThmState) (s : State) : (modThm f s).evt = s.evt := rfl
@[simp] theorem modThm_time (f : ThmState → ThmState) (s : State) : (modThm f s).time = s.time := rfl
@[simp] theorem modThm_mem (f : ThmState → ThmState) (s : State) : (modThm f s).mem = s.mem := rfl
@[simp] theorem modThm_arb (f : ThmState → ThmState) (s : State) : (modThm f s).arb = s.arb := rfl
@[simp] theorem modThm_mot (f : ThmState → ThmState) (s : State) : (modThm f s).mot = s.mot := rfl
@[simp] theorem modThm_dose (f : ThmState → ThmState) (s : State) : (modThm f s).dose = s.dose := rfl
@[simp] theorem modThm_ctl (f : ThmState → ThmState) (s : State) : (modThm f s).ctl = s.ctl := rfl
@[simp] theorem modThm_pwr (f : ThmState → ThmState) (s : State) : (modThm f s).pwr = s.pwr := rfl
@[simp] theorem modThm_head (f : ThmState → ThmState) (s : State) : (modThm f s).head = s.head := rfl
@[simp] theorem modThm_cam (f : ThmState → ThmState) (s : State) : (modThm f s).cam = s.cam := rfl
@[simp] theorem modThm_rd (f : ThmState → ThmState) (s : State) (q : RegInfo) (j : Nat) : rd q (modThm f s) j = rd q s j := rfl
@[simp] theorem modThm_get (f : ThmState → ThmState) (s : State) : (modThm f s).thm = f s.thm := rfl

/-! ### modHead -/

@[simp] theorem modHead_pending (f : HeadState → HeadState) (s : State) : (modHead f s).pending = s.pending := rfl
@[simp] theorem modHead_regs (f : HeadState → HeadState) (s : State) : (modHead f s).regs = s.regs := rfl
@[simp] theorem modHead_heldLow (f : HeadState → HeadState) (s : State) : (modHead f s).heldLow = s.heldLow := rfl
@[simp] theorem modHead_latchedHigh (f : HeadState → HeadState) (s : State) : (modHead f s).latchedHigh = s.latchedHigh := rfl
@[simp] theorem modHead_out (f : HeadState → HeadState) (s : State) : (modHead f s).out = s.out := rfl
@[simp] theorem modHead_freeCtr (f : HeadState → HeadState) (s : State) : (modHead f s).freeCtr = s.freeCtr := rfl
@[simp] theorem modHead_host (f : HeadState → HeadState) (s : State) : (modHead f s).host = s.host := rfl
@[simp] theorem modHead_evt (f : HeadState → HeadState) (s : State) : (modHead f s).evt = s.evt := rfl
@[simp] theorem modHead_time (f : HeadState → HeadState) (s : State) : (modHead f s).time = s.time := rfl
@[simp] theorem modHead_mem (f : HeadState → HeadState) (s : State) : (modHead f s).mem = s.mem := rfl
@[simp] theorem modHead_arb (f : HeadState → HeadState) (s : State) : (modHead f s).arb = s.arb := rfl
@[simp] theorem modHead_mot (f : HeadState → HeadState) (s : State) : (modHead f s).mot = s.mot := rfl
@[simp] theorem modHead_dose (f : HeadState → HeadState) (s : State) : (modHead f s).dose = s.dose := rfl
@[simp] theorem modHead_ctl (f : HeadState → HeadState) (s : State) : (modHead f s).ctl = s.ctl := rfl
@[simp] theorem modHead_pwr (f : HeadState → HeadState) (s : State) : (modHead f s).pwr = s.pwr := rfl
@[simp] theorem modHead_thm (f : HeadState → HeadState) (s : State) : (modHead f s).thm = s.thm := rfl
@[simp] theorem modHead_cam (f : HeadState → HeadState) (s : State) : (modHead f s).cam = s.cam := rfl
@[simp] theorem modHead_rd (f : HeadState → HeadState) (s : State) (q : RegInfo) (j : Nat) : rd q (modHead f s) j = rd q s j := rfl
@[simp] theorem modHead_get (f : HeadState → HeadState) (s : State) : (modHead f s).head = f s.head := rfl

/-! ### modCam -/

@[simp] theorem modCam_pending (f : CamState → CamState) (s : State) : (modCam f s).pending = s.pending := rfl
@[simp] theorem modCam_regs (f : CamState → CamState) (s : State) : (modCam f s).regs = s.regs := rfl
@[simp] theorem modCam_heldLow (f : CamState → CamState) (s : State) : (modCam f s).heldLow = s.heldLow := rfl
@[simp] theorem modCam_latchedHigh (f : CamState → CamState) (s : State) : (modCam f s).latchedHigh = s.latchedHigh := rfl
@[simp] theorem modCam_out (f : CamState → CamState) (s : State) : (modCam f s).out = s.out := rfl
@[simp] theorem modCam_freeCtr (f : CamState → CamState) (s : State) : (modCam f s).freeCtr = s.freeCtr := rfl
@[simp] theorem modCam_host (f : CamState → CamState) (s : State) : (modCam f s).host = s.host := rfl
@[simp] theorem modCam_evt (f : CamState → CamState) (s : State) : (modCam f s).evt = s.evt := rfl
@[simp] theorem modCam_time (f : CamState → CamState) (s : State) : (modCam f s).time = s.time := rfl
@[simp] theorem modCam_mem (f : CamState → CamState) (s : State) : (modCam f s).mem = s.mem := rfl
@[simp] theorem modCam_arb (f : CamState → CamState) (s : State) : (modCam f s).arb = s.arb := rfl
@[simp] theorem modCam_mot (f : CamState → CamState) (s : State) : (modCam f s).mot = s.mot := rfl
@[simp] theorem modCam_dose (f : CamState → CamState) (s : State) : (modCam f s).dose = s.dose := rfl
@[simp] theorem modCam_ctl (f : CamState → CamState) (s : State) : (modCam f s).ctl = s.ctl := rfl
@[simp] theorem modCam_pwr (f : CamState → CamState) (s : State) : (modCam f s).pwr = s.pwr := rfl
@[simp] theorem modCam_thm (f : CamState → CamState) (s : State) : (modCam f s).thm = s.thm := rfl
@[simp] theorem modCam_head (f : CamState → CamState) (s : State) : (modCam f s).head = s.head := rfl
@[simp] theorem modCam_rd (f : CamState → CamState) (s : State) (q : RegInfo) (j : Nat) : rd q (modCam f s) j = rd q s j := rfl
@[simp] theorem modCam_get (f : CamState → CamState) (s : State) : (modCam f s).cam = f s.cam := rfl

/-! ### modCtx -/

@[simp] theorem modCtx_pending (c : Nat) (f : CamCtx → CamCtx) (s : State) : (modCtx c f s).pending = s.pending := rfl
@[simp] theorem modCtx_regs (c : Nat) (f : CamCtx → CamCtx) (s : State) : (modCtx c f s).regs = s.regs := rfl
@[simp] theorem modCtx_heldLow (c : Nat) (f : CamCtx → CamCtx) (s : State) : (modCtx c f s).heldLow = s.heldLow := rfl
@[simp] theorem modCtx_latchedHigh (c : Nat) (f : CamCtx → CamCtx) (s : State) : (modCtx c f s).latchedHigh = s.latchedHigh := rfl
@[simp] theorem modCtx_out (c : Nat) (f : CamCtx → CamCtx) (s : State) : (modCtx c f s).out = s.out := rfl
@[simp] theorem modCtx_freeCtr (c : Nat) (f : CamCtx → CamCtx) (s : State) : (modCtx c f s).freeCtr = s.freeCtr := rfl
@[simp] theorem modCtx_host (c : Nat) (f : CamCtx → CamCtx) (s : State) : (modCtx c f s).host = s.host := rfl
@[simp] theorem modCtx_evt (c : Nat) (f : CamCtx → CamCtx) (s : State) : (modCtx c f s).evt = s.evt := rfl
@[simp] theorem modCtx_time (c : Nat) (f : CamCtx → CamCtx) (s : State) : (modCtx c f s).time = s.time := rfl
@[simp] theorem modCtx_mem (c : Nat) (f : CamCtx → CamCtx) (s : State) : (modCtx c f s).mem = s.mem := rfl
@[simp] theorem modCtx_arb (c : Nat) (f : CamCtx → CamCtx) (s : State) : (modCtx c f s).arb = s.arb := rfl
@[simp] theorem modCtx_mot (c : Nat) (f : CamCtx → CamCtx) (s : State) : (modCtx c f s).mot = s.mot := rfl
@[simp] theorem modCtx_dose (c : Nat) (f : CamCtx → CamCtx) (s : State) : (modCtx c f s).dose = s.dose := rfl
@[simp] theorem modCtx_ctl (c : Nat) (f : CamCtx → CamCtx) (s : State) : (modCtx c f s).ctl = s.ctl := rfl
@[simp] theorem modCtx_pwr (c : Nat) (f : CamCtx → CamCtx) (s : State) : (modCtx c f s).pwr = s.pwr := rfl
@[simp] theorem modCtx_thm (c : Nat) (f : CamCtx → CamCtx) (s : State) : (modCtx c f s).thm = s.thm := rfl
@[simp] theorem modCtx_head (c : Nat) (f : CamCtx → CamCtx) (s : State) : (modCtx c f s).head = s.head := rfl
@[simp] theorem modCtx_rd (c : Nat) (f : CamCtx → CamCtx) (s : State) (q : RegInfo) (j : Nat) : rd q (modCtx c f s) j = rd q s j := rfl

/-! ### modArb -/

@[simp] theorem modArb_pending (f : ArbState → ArbState) (s : State) : (modArb f s).pending = s.pending := rfl
@[simp] theorem modArb_regs (f : ArbState → ArbState) (s : State) : (modArb f s).regs = s.regs := rfl
@[simp] theorem modArb_heldLow (f : ArbState → ArbState) (s : State) : (modArb f s).heldLow = s.heldLow := rfl
@[simp] theorem modArb_latchedHigh (f : ArbState → ArbState) (s : State) : (modArb f s).latchedHigh = s.latchedHigh := rfl
@[simp] theorem modArb_out (f : ArbState → ArbState) (s : State) : (modArb f s).out = s.out := rfl
@[simp] theorem modArb_freeCtr (f : ArbState → ArbState) (s : State) : (modArb f s).freeCtr = s.freeCtr := rfl
@[simp] theorem modArb_host (f : ArbState → ArbState) (s : State) : (modArb f s).host = s.host := rfl
@[simp] theorem modArb_evt (f : ArbState → ArbState) (s : State) : (modArb f s).evt = s.evt := rfl
@[simp] theorem modArb_time (f : ArbState → ArbState) (s : State) : (modArb f s).time = s.time := rfl
@[simp] theorem modArb_mem (f : ArbState → ArbState) (s : State) : (modArb f s).mem = s.mem := rfl
@[simp] theorem modArb_mot (f : ArbState → ArbState) (s : State) : (modArb f s).mot = s.mot := rfl
@[simp] theorem modArb_dose (f : ArbState → ArbState) (s : State) : (modArb f s).dose = s.dose := rfl
@[simp] theorem modArb_ctl (f : ArbState → ArbState) (s : State) : (modArb f s).ctl = s.ctl := rfl
@[simp] theorem modArb_pwr (f : ArbState → ArbState) (s : State) : (modArb f s).pwr = s.pwr := rfl
@[simp] theorem modArb_thm (f : ArbState → ArbState) (s : State) : (modArb f s).thm = s.thm := rfl
@[simp] theorem modArb_head (f : ArbState → ArbState) (s : State) : (modArb f s).head = s.head := rfl
@[simp] theorem modArb_cam (f : ArbState → ArbState) (s : State) : (modArb f s).cam = s.cam := rfl
@[simp] theorem modArb_rd (f : ArbState → ArbState) (s : State) (q : RegInfo) (j : Nat) : rd q (modArb f s) j = rd q s j := rfl
@[simp] theorem modArb_get (f : ArbState → ArbState) (s : State) : (modArb f s).arb = f s.arb := rfl

/-! ### modAxis -/

@[simp] theorem modAxis_pending (a : Nat) (f : Axis → Axis) (s : State) : (modAxis a f s).pending = s.pending := rfl
@[simp] theorem modAxis_regs (a : Nat) (f : Axis → Axis) (s : State) : (modAxis a f s).regs = s.regs := rfl
@[simp] theorem modAxis_heldLow (a : Nat) (f : Axis → Axis) (s : State) : (modAxis a f s).heldLow = s.heldLow := rfl
@[simp] theorem modAxis_latchedHigh (a : Nat) (f : Axis → Axis) (s : State) : (modAxis a f s).latchedHigh = s.latchedHigh := rfl
@[simp] theorem modAxis_out (a : Nat) (f : Axis → Axis) (s : State) : (modAxis a f s).out = s.out := rfl
@[simp] theorem modAxis_freeCtr (a : Nat) (f : Axis → Axis) (s : State) : (modAxis a f s).freeCtr = s.freeCtr := rfl
@[simp] theorem modAxis_host (a : Nat) (f : Axis → Axis) (s : State) : (modAxis a f s).host = s.host := rfl
@[simp] theorem modAxis_evt (a : Nat) (f : Axis → Axis) (s : State) : (modAxis a f s).evt = s.evt := rfl
@[simp] theorem modAxis_time (a : Nat) (f : Axis → Axis) (s : State) : (modAxis a f s).time = s.time := rfl
@[simp] theorem modAxis_mem (a : Nat) (f : Axis → Axis) (s : State) : (modAxis a f s).mem = s.mem := rfl
@[simp] theorem modAxis_arb (a : Nat) (f : Axis → Axis) (s : State) : (modAxis a f s).arb = s.arb := rfl
@[simp] theorem modAxis_dose (a : Nat) (f : Axis → Axis) (s : State) : (modAxis a f s).dose = s.dose := rfl
@[simp] theorem modAxis_ctl (a : Nat) (f : Axis → Axis) (s : State) : (modAxis a f s).ctl = s.ctl := rfl
@[simp] theorem modAxis_pwr (a : Nat) (f : Axis → Axis) (s : State) : (modAxis a f s).pwr = s.pwr := rfl
@[simp] theorem modAxis_thm (a : Nat) (f : Axis → Axis) (s : State) : (modAxis a f s).thm = s.thm := rfl
@[simp] theorem modAxis_head (a : Nat) (f : Axis → Axis) (s : State) : (modAxis a f s).head = s.head := rfl
@[simp] theorem modAxis_cam (a : Nat) (f : Axis → Axis) (s : State) : (modAxis a f s).cam = s.cam := rfl
@[simp] theorem modAxis_rd (a : Nat) (f : Axis → Axis) (s : State) (q : RegInfo) (j : Nat) : rd q (modAxis a f s) j = rd q s j := rfl

/-! ### modPort -/

@[simp] theorem modPort_pending (p : Nat) (f : Port → Port) (s : State) : (modPort p f s).pending = s.pending := rfl
@[simp] theorem modPort_regs (p : Nat) (f : Port → Port) (s : State) : (modPort p f s).regs = s.regs := rfl
@[simp] theorem modPort_heldLow (p : Nat) (f : Port → Port) (s : State) : (modPort p f s).heldLow = s.heldLow := rfl
@[simp] theorem modPort_latchedHigh (p : Nat) (f : Port → Port) (s : State) : (modPort p f s).latchedHigh = s.latchedHigh := rfl
@[simp] theorem modPort_out (p : Nat) (f : Port → Port) (s : State) : (modPort p f s).out = s.out := rfl
@[simp] theorem modPort_freeCtr (p : Nat) (f : Port → Port) (s : State) : (modPort p f s).freeCtr = s.freeCtr := rfl
@[simp] theorem modPort_host (p : Nat) (f : Port → Port) (s : State) : (modPort p f s).host = s.host := rfl
@[simp] theorem modPort_evt (p : Nat) (f : Port → Port) (s : State) : (modPort p f s).evt = s.evt := rfl
@[simp] theorem modPort_time (p : Nat) (f : Port → Port) (s : State) : (modPort p f s).time = s.time := rfl
@[simp] theorem modPort_mem (p : Nat) (f : Port → Port) (s : State) : (modPort p f s).mem = s.mem := rfl
@[simp] theorem modPort_arb (p : Nat) (f : Port → Port) (s : State) : (modPort p f s).arb = s.arb := rfl
@[simp] theorem modPort_mot (p : Nat) (f : Port → Port) (s : State) : (modPort p f s).mot = s.mot := rfl
@[simp] theorem modPort_ctl (p : Nat) (f : Port → Port) (s : State) : (modPort p f s).ctl = s.ctl := rfl
@[simp] theorem modPort_pwr (p : Nat) (f : Port → Port) (s : State) : (modPort p f s).pwr = s.pwr := rfl
@[simp] theorem modPort_thm (p : Nat) (f : Port → Port) (s : State) : (modPort p f s).thm = s.thm := rfl
@[simp] theorem modPort_head (p : Nat) (f : Port → Port) (s : State) : (modPort p f s).head = s.head := rfl
@[simp] theorem modPort_cam (p : Nat) (f : Port → Port) (s : State) : (modPort p f s).cam = s.cam := rfl
@[simp] theorem modPort_rd (p : Nat) (f : Port → Port) (s : State) (q : RegInfo) (j : Nat) : rd q (modPort p f s) j = rd q s j := rfl

/-! ### modPassOf -/

@[simp] theorem modPassOf_pending (i : Nat) (f : Pass → Pass) (s : State) : (modPassOf i f s).pending = s.pending := rfl
@[simp] theorem modPassOf_regs (i : Nat) (f : Pass → Pass) (s : State) : (modPassOf i f s).regs = s.regs := rfl
@[simp] theorem modPassOf_heldLow (i : Nat) (f : Pass → Pass) (s : State) : (modPassOf i f s).heldLow = s.heldLow := rfl
@[simp] theorem modPassOf_latchedHigh (i : Nat) (f : Pass → Pass) (s : State) : (modPassOf i f s).latchedHigh = s.latchedHigh := rfl
@[simp] theorem modPassOf_out (i : Nat) (f : Pass → Pass) (s : State) : (modPassOf i f s).out = s.out := rfl
@[simp] theorem modPassOf_freeCtr (i : Nat) (f : Pass → Pass) (s : State) : (modPassOf i f s).freeCtr = s.freeCtr := rfl
@[simp] theorem modPassOf_host (i : Nat) (f : Pass → Pass) (s : State) : (modPassOf i f s).host = s.host := rfl
@[simp] theorem modPassOf_evt (i : Nat) (f : Pass → Pass) (s : State) : (modPassOf i f s).evt = s.evt := rfl
@[simp] theorem modPassOf_time (i : Nat) (f : Pass → Pass) (s : State) : (modPassOf i f s).time = s.time := rfl
@[simp] theorem modPassOf_mem (i : Nat) (f : Pass → Pass) (s : State) : (modPassOf i f s).mem = s.mem := rfl
@[simp] theorem modPassOf_arb (i : Nat) (f : Pass → Pass) (s : State) : (modPassOf i f s).arb = s.arb := rfl
@[simp] theorem modPassOf_mot (i : Nat) (f : Pass → Pass) (s : State) : (modPassOf i f s).mot = s.mot := rfl
@[simp] theorem modPassOf_ctl (i : Nat) (f : Pass → Pass) (s : State) : (modPassOf i f s).ctl = s.ctl := rfl
@[simp] theorem modPassOf_pwr (i : Nat) (f : Pass → Pass) (s : State) : (modPassOf i f s).pwr = s.pwr := rfl
@[simp] theorem modPassOf_thm (i : Nat) (f : Pass → Pass) (s : State) : (modPassOf i f s).thm = s.thm := rfl
@[simp] theorem modPassOf_head (i : Nat) (f : Pass → Pass) (s : State) : (modPassOf i f s).head = s.head := rfl
@[simp] theorem modPassOf_cam (i : Nat) (f : Pass → Pass) (s : State) : (modPassOf i f s).cam = s.cam := rfl
@[simp] theorem modPassOf_rd (i : Nat) (f : Pass → Pass) (s : State) (q : RegInfo) (j : Nat) : rd q (modPassOf i f s) j = rd q s j := rfl

/-! ### modMnd -/

@[simp] theorem modMnd_pending (f : MndState → MndState) (s : State) : (modMnd f s).pending = s.pending := rfl
@[simp] theorem modMnd_regs (f : MndState → MndState) (s : State) : (modMnd f s).regs = s.regs := rfl
@[simp] theorem modMnd_heldLow (f : MndState → MndState) (s : State) : (modMnd f s).heldLow = s.heldLow := rfl
@[simp] theorem modMnd_latchedHigh (f : MndState → MndState) (s : State) : (modMnd f s).latchedHigh = s.latchedHigh := rfl
@[simp] theorem modMnd_out (f : MndState → MndState) (s : State) : (modMnd f s).out = s.out := rfl
@[simp] theorem modMnd_freeCtr (f : MndState → MndState) (s : State) : (modMnd f s).freeCtr = s.freeCtr := rfl
@[simp] theorem modMnd_host (f : MndState → MndState) (s : State) : (modMnd f s).host = s.host := rfl
@[simp] theorem modMnd_evt (f : MndState → MndState) (s : State) : (modMnd f s).evt = s.evt := rfl
@[simp] theorem modMnd_time (f : MndState → MndState) (s : State) : (modMnd f s).time = s.time := rfl
@[simp] theorem modMnd_mem (f : MndState → MndState) (s : State) : (modMnd f s).mem = s.mem := rfl
@[simp] theorem modMnd_arb (f : MndState → MndState) (s : State) : (modMnd f s).arb = s.arb := rfl
@[simp] theorem modMnd_mot (f : MndState → MndState) (s : State) : (modMnd f s).mot = s.mot := rfl
@[simp] theorem modMnd_ctl (f : MndState → MndState) (s : State) : (modMnd f s).ctl = s.ctl := rfl
@[simp] theorem modMnd_pwr (f : MndState → MndState) (s : State) : (modMnd f s).pwr = s.pwr := rfl
@[simp] theorem modMnd_thm (f : MndState → MndState) (s : State) : (modMnd f s).thm = s.thm := rfl
@[simp] theorem modMnd_head (f : MndState → MndState) (s : State) : (modMnd f s).head = s.head := rfl
@[simp] theorem modMnd_cam (f : MndState → MndState) (s : State) : (modMnd f s).cam = s.cam := rfl
@[simp] theorem modMnd_rd (f : MndState → MndState) (s : State) (q : RegInfo) (j : Nat) : rd q (modMnd f s) j = rd q s j := rfl

/-! ### modPlc -/

@[simp] theorem modPlc_pending (f : PlcState → PlcState) (s : State) : (modPlc f s).pending = s.pending := rfl
@[simp] theorem modPlc_regs (f : PlcState → PlcState) (s : State) : (modPlc f s).regs = s.regs := rfl
@[simp] theorem modPlc_heldLow (f : PlcState → PlcState) (s : State) : (modPlc f s).heldLow = s.heldLow := rfl
@[simp] theorem modPlc_latchedHigh (f : PlcState → PlcState) (s : State) : (modPlc f s).latchedHigh = s.latchedHigh := rfl
@[simp] theorem modPlc_out (f : PlcState → PlcState) (s : State) : (modPlc f s).out = s.out := rfl
@[simp] theorem modPlc_freeCtr (f : PlcState → PlcState) (s : State) : (modPlc f s).freeCtr = s.freeCtr := rfl
@[simp] theorem modPlc_host (f : PlcState → PlcState) (s : State) : (modPlc f s).host = s.host := rfl
@[simp] theorem modPlc_evt (f : PlcState → PlcState) (s : State) : (modPlc f s).evt = s.evt := rfl
@[simp] theorem modPlc_time (f : PlcState → PlcState) (s : State) : (modPlc f s).time = s.time := rfl
@[simp] theorem modPlc_mem (f : PlcState → PlcState) (s : State) : (modPlc f s).mem = s.mem := rfl
@[simp] theorem modPlc_arb (f : PlcState → PlcState) (s : State) : (modPlc f s).arb = s.arb := rfl
@[simp] theorem modPlc_mot (f : PlcState → PlcState) (s : State) : (modPlc f s).mot = s.mot := rfl
@[simp] theorem modPlc_ctl (f : PlcState → PlcState) (s : State) : (modPlc f s).ctl = s.ctl := rfl
@[simp] theorem modPlc_pwr (f : PlcState → PlcState) (s : State) : (modPlc f s).pwr = s.pwr := rfl
@[simp] theorem modPlc_thm (f : PlcState → PlcState) (s : State) : (modPlc f s).thm = s.thm := rfl
@[simp] theorem modPlc_head (f : PlcState → PlcState) (s : State) : (modPlc f s).head = s.head := rfl
@[simp] theorem modPlc_cam (f : PlcState → PlcState) (s : State) : (modPlc f s).cam = s.cam := rfl
@[simp] theorem modPlc_rd (f : PlcState → PlcState) (s : State) (q : RegInfo) (j : Nat) : rd q (modPlc f s) j = rd q s j := rfl

/-! ### modBsc -/

@[simp] theorem modBsc_pending (f : BscState → BscState) (s : State) : (modBsc f s).pending = s.pending := rfl
@[simp] theorem modBsc_regs (f : BscState → BscState) (s : State) : (modBsc f s).regs = s.regs := rfl
@[simp] theorem modBsc_heldLow (f : BscState → BscState) (s : State) : (modBsc f s).heldLow = s.heldLow := rfl
@[simp] theorem modBsc_latchedHigh (f : BscState → BscState) (s : State) : (modBsc f s).latchedHigh = s.latchedHigh := rfl
@[simp] theorem modBsc_out (f : BscState → BscState) (s : State) : (modBsc f s).out = s.out := rfl
@[simp] theorem modBsc_freeCtr (f : BscState → BscState) (s : State) : (modBsc f s).freeCtr = s.freeCtr := rfl
@[simp] theorem modBsc_host (f : BscState → BscState) (s : State) : (modBsc f s).host = s.host := rfl
@[simp] theorem modBsc_evt (f : BscState → BscState) (s : State) : (modBsc f s).evt = s.evt := rfl
@[simp] theorem modBsc_time (f : BscState → BscState) (s : State) : (modBsc f s).time = s.time := rfl
@[simp] theorem modBsc_mem (f : BscState → BscState) (s : State) : (modBsc f s).mem = s.mem := rfl
@[simp] theorem modBsc_arb (f : BscState → BscState) (s : State) : (modBsc f s).arb = s.arb := rfl
@[simp] theorem modBsc_mot (f : BscState → BscState) (s : State) : (modBsc f s).mot = s.mot := rfl
@[simp] theorem modBsc_ctl (f : BscState → BscState) (s : State) : (modBsc f s).ctl = s.ctl := rfl
@[simp] theorem modBsc_pwr (f : BscState → BscState) (s : State) : (modBsc f s).pwr = s.pwr := rfl
@[simp] theorem modBsc_thm (f : BscState → BscState) (s : State) : (modBsc f s).thm = s.thm := rfl
@[simp] theorem modBsc_head (f : BscState → BscState) (s : State) : (modBsc f s).head = s.head := rfl
@[simp] theorem modBsc_cam (f : BscState → BscState) (s : State) : (modBsc f s).cam = s.cam := rfl
@[simp] theorem modBsc_rd (f : BscState → BscState) (s : State) (q : RegInfo) (j : Nat) : rd q (modBsc f s) j = rd q s j := rfl

/-! ### modThe -/

@[simp] theorem modThe_pending (f : TheState → TheState) (s : State) : (modThe f s).pending = s.pending := rfl
@[simp] theorem modThe_regs (f : TheState → TheState) (s : State) : (modThe f s).regs = s.regs := rfl
@[simp] theorem modThe_heldLow (f : TheState → TheState) (s : State) : (modThe f s).heldLow = s.heldLow := rfl
@[simp] theorem modThe_latchedHigh (f : TheState → TheState) (s : State) : (modThe f s).latchedHigh = s.latchedHigh := rfl
@[simp] theorem modThe_out (f : TheState → TheState) (s : State) : (modThe f s).out = s.out := rfl
@[simp] theorem modThe_freeCtr (f : TheState → TheState) (s : State) : (modThe f s).freeCtr = s.freeCtr := rfl
@[simp] theorem modThe_host (f : TheState → TheState) (s : State) : (modThe f s).host = s.host := rfl
@[simp] theorem modThe_evt (f : TheState → TheState) (s : State) : (modThe f s).evt = s.evt := rfl
@[simp] theorem modThe_time (f : TheState → TheState) (s : State) : (modThe f s).time = s.time := rfl
@[simp] theorem modThe_mem (f : TheState → TheState) (s : State) : (modThe f s).mem = s.mem := rfl
@[simp] theorem modThe_arb (f : TheState → TheState) (s : State) : (modThe f s).arb = s.arb := rfl
@[simp] theorem modThe_mot (f : TheState → TheState) (s : State) : (modThe f s).mot = s.mot := rfl
@[simp] theorem modThe_ctl (f : TheState → TheState) (s : State) : (modThe f s).ctl = s.ctl := rfl
@[simp] theorem modThe_pwr (f : TheState → TheState) (s : State) : (modThe f s).pwr = s.pwr := rfl
@[simp] theorem modThe_thm (f : TheState → TheState) (s : State) : (modThe f s).thm = s.thm := rfl
@[simp] theorem modThe_head (f : TheState → TheState) (s : State) : (modThe f s).head = s.head := rfl
@[simp] theorem modThe_cam (f : TheState → TheState) (s : State) : (modThe f s).cam = s.cam := rfl
@[simp] theorem modThe_rd (f : TheState → TheState) (s : State) (q : RegInfo) (j : Nat) : rd q (modThe f s) j = rd q s j := rfl

/-! ### Fields and bits of a register follow its content -/

theorem rdf_eq (r : RegInfo) (lo len : Nat) (s : State) (i : Nat) : rdf r lo len s i = bits lo len (rd r s i) := rfl
theorem rdb_eq (r : RegInfo) (n : Nat) (s : State) (i : Nat) : rdb r n s i = bit n (rd r s i) := rfl

end Sys2Proof.Laws
end

