-- ==== Sys2Proof/Laws/Regs.lean ====
section
/-! SUPPORT. What a register reads after the module's own write of it or of another one, and after an operation whose mask
leaves its block out. -/

namespace Sys2Proof.Laws
open Sys2Proof Sys2Proof.Machine

theorem setBits_eq (lo len x v : Nat) : setBits lo len x v = v % 2 ^ lo + 2 ^ lo * (x % 2 ^ len + 2 ^ len * (v / 2 ^ (lo + len))) := by
  unfold setBits
  have e : v / 2 ^ (lo + len) * 2 ^ (lo + len) = 2 ^ lo * (2 ^ len * (v / 2 ^ (lo + len))) := by
    rw [← Nat.mul_assoc, ← Nat.pow_add, Nat.mul_comm]
  rw [e, Nat.mul_add, Nat.mul_comm (x % 2 ^ len)]
  omega
/-- A field of a register that has just been given another field. -/
theorem bits_setBits_same (lo len x v : Nat) : bits lo len (setBits lo len x v) = x % 2 ^ len := by
  have h1 : v % 2 ^ lo < 2 ^ lo := Nat.mod_lt _ (Nat.two_pow_pos lo)
  have e : setBits lo len x v = v % 2 ^ lo + 2 ^ lo * (x % 2 ^ len + 2 ^ len * (v / 2 ^ (lo + len))) := setBits_eq lo len x v
  unfold bits
  rw [e, Nat.add_mul_div_left _ _ (Nat.two_pow_pos lo), Nat.div_eq_of_lt h1, Nat.zero_add, Nat.add_mul_mod_self_left, Nat.mod_mod]
/-- A field below the one that is written. -/
theorem bits_setBits_low {lo len a n x v : Nat} (h : a + n ≤ lo) : bits a n (setBits lo len x v) = bits a n v := by
  have hp : 2 ^ lo = 2 ^ a * (2 ^ n * 2 ^ (lo - (a + n))) := by rw [← Nat.pow_add, ← Nat.pow_add]; congr 1; omega
  have e : setBits lo len x v = v % 2 ^ lo + 2 ^ lo * (x % 2 ^ len + 2 ^ len * (v / 2 ^ (lo + len))) := setBits_eq lo len x v
  have e2 : v = v % 2 ^ lo + 2 ^ lo * (v / 2 ^ lo) := (Nat.mod_add_div v _).symm
  unfold bits
  rw [e, hp]
  conv => rhs; rw [e2, hp]
  rw [Nat.mul_assoc (2 ^ a), Nat.mul_assoc (2 ^ a), Nat.add_mul_div_left _ _ (Nat.two_pow_pos a),
    Nat.add_mul_div_left _ _ (Nat.two_pow_pos a), Nat.mul_assoc (2 ^ n), Nat.mul_assoc (2 ^ n), Nat.add_mul_mod_self_left,
    Nat.add_mul_mod_self_left]
/-- A field above the one that is written. -/
theorem bits_setBits_high {lo len a n x v : Nat} (h : lo + len ≤ a) : bits a n (setBits lo len x v) = bits a n v := by
  have h1 : v % 2 ^ lo < 2 ^ lo := Nat.mod_lt _ (Nat.two_pow_pos lo)
  have h2 : x % 2 ^ len < 2 ^ len := Nat.mod_lt _ (Nat.two_pow_pos len)
  have hlt : x % 2 ^ len * 2 ^ lo + v % 2 ^ lo < 2 ^ (lo + len) := by
    have := Nat.mul_le_mul_right (2 ^ lo) h2
    rw [Nat.pow_add, Nat.mul_comm (2 ^ lo)]
    have e : (x % 2 ^ len).succ * 2 ^ lo = x % 2 ^ len * 2 ^ lo + 2 ^ lo := Nat.succ_mul _ _
    omega
  have hp : 2 ^ a = 2 ^ (lo + len) * 2 ^ (a - (lo + len)) := by rw [← Nat.pow_add]; congr 1; omega
  have e : setBits lo len x v / 2 ^ a = v / 2 ^ a := by
    unfold setBits
    rw [hp, ← Nat.div_div_eq_div_mul, ← Nat.div_div_eq_div_mul, Nat.add_assoc, Nat.mul_comm (v / _), Nat.mul_add_div (Nat.two_pow_pos _),
      Nat.div_eq_of_lt hlt, Nat.add_zero]
  unfold bits
  rw [e]
theorem bits_mod {lo len w v : Nat} (h : lo + len ≤ w) : bits lo len (v % 2 ^ w) = bits lo len v := by
  have hp : 2 ^ w = 2 ^ lo * (2 ^ len * 2 ^ (w - (lo + len))) := by rw [← Nat.pow_add, ← Nat.pow_add]; congr 1; omega
  unfold bits
  rw [hp, Nat.mod_mul_right_div_self, Nat.mod_mul_right_mod]
theorem bit_eq_bits (n v : Nat) : bit n v = (bits n 1 v == 1) := rfl

/-- A register reads what the module wrote into it, cut to its width. -/
theorem rd_wr {r : RegInfo} (h : r.bytes ≤ 8) (v : Nat) (s : State) (i : Nat) :
    rd r (wr r v s i) i = v % 2 ^ (8 * r.bytes) := by
  unfold rd wr tget
  rw [tget?_tset]
  simp only [if_pos, Option.getD_some, BitVec.toNat_ofNat]
  exact Nat.mod_eq_of_lt (Nat.lt_of_lt_of_le (Nat.mod_lt _ (Nat.two_pow_pos _)) (Nat.pow_le_pow_right (by omega) (by omega)))
/-- Another register reads as before. -/
theorem rd_wr_ne {r q : RegInfo} {i j : Nat} (h : regAddr q j ≠ regAddr r i) (v : Nat) (s : State) :
    rd q (wr r v s i) j = rd q s j := by
  unfold rd wr tget
  rw [tget?_tset, if_neg h]
theorem rd_wrf_ne {r q : RegInfo} {i j : Nat} (h : regAddr q j ≠ regAddr r i) (lo len v : Nat) (s : State) :
    rd q (wrf r lo len v s i) j = rd q s j := rd_wr_ne h _ _
theorem rd_wrb_ne {r q : RegInfo} {i j : Nat} (h : regAddr q j ≠ regAddr r i) (n : Nat) (b : Bool) (s : State) :
    rd q (wrb r n b s i) j = rd q s j := rd_wr_ne h _ _
/-- The written field reads what was written, cut to its width. -/
theorem rdf_wrf {r : RegInfo} {lo len : Nat} (h : r.bytes ≤ 8) (k : lo + len ≤ 8 * r.bytes) (v : Nat) (s : State) (i : Nat) :
    rdf r lo len (wrf r lo len v s i) i = v % 2 ^ len := by
  unfold rdf wrf
  rw [rd_wr h, bits_mod k, bits_setBits_same]
/-- A field beside the written one reads as before. -/
theorem rdf_wrf_ne {r : RegInfo} {lo len a n : Nat} (h : r.bytes ≤ 8) (k : a + n ≤ 8 * r.bytes) (d : a + n ≤ lo ∨ lo + len ≤ a)
    (v : Nat) (s : State) (i : Nat) : rdf r a n (wrf r lo len v s i) i = rdf r a n s i := by
  unfold rdf wrf
  rw [rd_wr h, bits_mod k]
  rcases d with d | d
  · exact bits_setBits_low d
  · exact bits_setBits_high d
theorem rdb_wrb {r : RegInfo} {n : Nat} (h : r.bytes ≤ 8) (k : n + 1 ≤ 8 * r.bytes) (b : Bool) (s : State) (i : Nat) :
    rdb r n (wrb r n b s i) i = b := by
  unfold rdb wrb
  rw [bit_eq_bits]
  have e : bits n 1 (rd r (wrf r n 1 (b2n b) s i) i) = b2n b % 2 ^ 1 := rdf_wrf h k _ _ _
  rw [e]
  cases b <;> rfl
theorem rdb_wrb_ne {r : RegInfo} {n a : Nat} (h : r.bytes ≤ 8) (k : a + 1 ≤ 8 * r.bytes) (d : a ≠ n) (b : Bool) (s : State) (i : Nat) :
    rdb r a (wrb r n b s i) i = rdb r a s i := by
  unfold rdb wrb
  rw [bit_eq_bits, bit_eq_bits]
  have e : bits a 1 (rd r (wrf r n 1 (b2n b) s i) i) = bits a 1 (rd r s i) := rdf_wrf_ne h k (by omega) _ _ _
  rw [e]
/-- A register outside the mask of what was done reads as before. -/
theorem rd_keeps {m : Nat} {s t : State} (k : Keeps m s t) {r : RegInfo} {i : Nat} (h : off m (32 + regAddr r i / 65536 % 32)) :
    rd r t i = rd r s i := by
  unfold rd tget
  rw [k.same_regs _ h]

/-! ### What posting an event leaves alone (R548 to R551) -/

/-- Posting an event touches what leaves the module, the host side, the event controller and the registers of HIF and EVT. -/
theorem postEvent_only (n src sev w1 : Nat) (d : List (Nat × Nat × Int)) (s : State) :
    Keeps 25769803828 s (postEvent n src sev w1 d s) := postEvent_keeps (hm := rfl) (h := Keeps.refl _ s)
theorem rd_postEvent {q : RegInfo} {j : Nat} (h : off 25769803828 (32 + regAddr q j / 65536 % 32)) (n src sev w1 : Nat)
    (d : List (Nat × Nat × Int)) (s : State) : rd q (postEvent n src sev w1 d s) j = rd q s j :=
  rd_keeps (postEvent_only n src sev w1 d s) h
@[simp] theorem postEvent_time (n src sev w1 : Nat) (d : List (Nat × Nat × Int)) (s : State) :
    (postEvent n src sev w1 d s).time = s.time := (postEvent_only n src sev w1 d s).same_time rfl
@[simp] theorem postEvent_mem (n src sev w1 : Nat) (d : List (Nat × Nat × Int)) (s : State) :
    (postEvent n src sev w1 d s).mem = s.mem := by
  have k := postEvent_only n src sev w1 d s
  rw [k.same_mem rfl, k.same_dram rfl, k.same_sram rfl]
@[simp] theorem postEvent_arb (n src sev w1 : Nat) (d : List (Nat × Nat × Int)) (s : State) :
    (postEvent n src sev w1 d s).arb = s.arb := (postEvent_only n src sev w1 d s).same_arb rfl
@[simp] theorem postEvent_mot (n src sev w1 : Nat) (d : List (Nat × Nat × Int)) (s : State) :
    (postEvent n src sev w1 d s).mot = s.mot := (postEvent_only n src sev w1 d s).same_mot rfl
@[simp] theorem postEvent_dose (n src sev w1 : Nat) (d : List (Nat × Nat × Int)) (s : State) :
    (postEvent n src sev w1 d s).dose = s.dose := (postEvent_only n src sev w1 d s).same_dose rfl
@[simp] theorem postEvent_ctl (n src sev w1 : Nat) (d : List (Nat × Nat × Int)) (s : State) :
    (postEvent n src sev w1 d s).ctl = s.ctl := (postEvent_only n src sev w1 d s).same_ctl rfl
@[simp] theorem postEvent_pwr (n src sev w1 : Nat) (d : List (Nat × Nat × Int)) (s : State) :
    (postEvent n src sev w1 d s).pwr = s.pwr := (postEvent_only n src sev w1 d s).same_pwr rfl
@[simp] theorem postEvent_thm (n src sev w1 : Nat) (d : List (Nat × Nat × Int)) (s : State) :
    (postEvent n src sev w1 d s).thm = s.thm := (postEvent_only n src sev w1 d s).same_thm rfl
@[simp] theorem postEvent_head (n src sev w1 : Nat) (d : List (Nat × Nat × Int)) (s : State) :
    (postEvent n src sev w1 d s).head = s.head := (postEvent_only n src sev w1 d s).same_head rfl
@[simp] theorem postEvent_cam (n src sev w1 : Nat) (d : List (Nat × Nat × Int)) (s : State) :
    (postEvent n src sev w1 d s).cam = s.cam := (postEvent_only n src sev w1 d s).same_cam rfl
@[simp] theorem postEvent_freeCtr (n src sev w1 : Nat) (d : List (Nat × Nat × Int)) (s : State) :
    (postEvent n src sev w1 d s).freeCtr = s.freeCtr := (postEvent_only n src sev w1 d s).same_freeCtr rfl
@[simp] theorem postEvent_pending (n src sev w1 : Nat) (d : List (Nat × Nat × Int)) (s : State) :
    (postEvent n src sev w1 d s).pending = s.pending := (postEvent_only n src sev w1 d s).queue

end Sys2Proof.Laws
end

