-- ==== Sys2Proof/Laws/Rings.lean ====
section
/-! SUPPORT. What reading a descriptor does (R56 to R68): where the common checks pass the opcode's own rule runs. -/

namespace Sys2Proof.Laws
open Sys2Proof Sys2Proof.Machine

@[simp] theorem ringInt_modRing (k : Nat) (f : RingInt → RingInt) (s : State) : ringInt (modRing k f s) k = f (ringInt s k) := by
  simp [ringInt, modRing, tmod, tget, tget?_tset]
theorem ringInt_modRing_ne {k j : Nat} (h : j ≠ k) (f : RingInt → RingInt) (s : State) : ringInt (modRing k f s) j = ringInt s j := by
  simp [ringInt, modRing, tmod, tget, tget?_tset, h]
/-- What goes to the host changes no register and none of the blocks; with Bus Master Enable clear it is held (R44). -/
@[simp] theorem toHost_rd (o : Out) (s : State) (q : RegInfo) (j : Nat) : rd q (toHost o s) j = rd q s j := by
  unfold toHost; split <;> rfl
theorem toHost_on {o : Out} {s : State} (h : s.host.busMaster = true) : toHost o s = emit o s := if_pos h
@[simp] theorem toHost_dose (o : Out) (s : State) : (toHost o s).dose = s.dose := by unfold toHost; split <;> rfl
@[simp] theorem toHost_mem (o : Out) (s : State) : (toHost o s).mem = s.mem := by unfold toHost; split <;> rfl
@[simp] theorem toHost_mot (o : Out) (s : State) : (toHost o s).mot = s.mot := by unfold toHost; split <;> rfl
@[simp] theorem toHost_ringInt (o : Out) (s : State) (k : Nat) : ringInt (toHost o s) k = ringInt s k := by unfold toHost; split <;> rfl
@[simp] theorem writeStatus_rd (k : Nat) (s : State) (q : RegInfo) (j : Nat) : rd q (writeStatus k s) j = rd q s j := by
  unfold writeStatus; rw [toHost_rd]
theorem rd_setRingState_ne {q : RegInfo} {j k : Nat} (h : regAddr q j ≠ regAddr R.HIF_RING_STATE k) (st : Nat) (s : State) :
    rd q (setRingState k st s) j = rd q s j := by
  unfold setRingState
  rw [writeStatus_rd, rd_wrf_ne h]
/-- A ring stands in the state it is given. -/
theorem ringState_setRingState {k st : Nat} (h : st < 8) (s : State) : ringState (setRingState k st s) k = st := by
  unfold ringState setRingState rdf
  rw [writeStatus_rd]
  exact (rdf_wrf (r := R.HIF_RING_STATE) (by decide) (by decide) st s k).trans (Nat.mod_eq_of_lt h)
@[simp] theorem setRingState_ringInt (k st j : Nat) (s : State) : ringInt (setRingState k st s) j = ringInt s j := toHost_ringInt ..
@[simp] theorem setRingState_dose (k st : Nat) (s : State) : (setRingState k st s).dose = s.dose := toHost_dose ..
@[simp] theorem setRingState_mem (k st : Nat) (s : State) : (setRingState k st s).mem = s.mem := toHost_mem ..
@[simp] theorem setRingState_mot (k st : Nat) (s : State) : (setRingState k st s).mot = s.mot := toHost_mot ..

/-- A descriptor that passes the common checks goes on to its opcode's rule. -/
theorem readDesc_offers {k code used : Nat} {d : Desc} {tests : List (Nat × Bool)} {body : Nat → State → State} {s : State}
    (h : Offers k d code used tests s) (hc : opcodes.contains code = true) :
    readDesc k d code used tests body s = body (nextIndex k s) (taken k d s) := by
  obtain ⟨hf, ha, ho, hp, hv, hw, ht, hb⟩ := h
  have e : hostVersion (taken k d s) = hostVersion s := rfl
  have e2 : ringType (taken k d s) k = ringType s k := rfl
  unfold readDesc
  simp only [hf, ha, ho, bne_self_eq_false, Bool.false_and, Bool.not_true, Bool.or_false, Bool.false_eq_true, if_false, hp, ne_eq,
    not_true]
  have h1 : ¬ (hostVersion (taken k d s) = 0 ∧ ¬ code = 1) := fun x => x.2 (hv (e ▸ x.1))
  have h2 : ¬ (¬ ringType (taken k d s) k = opcodeType code ∨
      ¬ hostVersion (taken k d s) = 0 ∧ hostVersion (taken k d s) < opcodeVersion code) := by
    rintro (x | x)
    · exact x (e2 ▸ ht)
    · exact Nat.not_lt.2 (hw (e ▸ x.1)) (e ▸ x.2)
  simp only [taken, nextIndex] at h1 h2
  rw [if_neg h1, if_neg (by simpa using h2), hb]
  rfl

end Sys2Proof.Laws
end

