-- ==== Sys2Proof/Laws/Events.lean ====
section
/-! SUPPORT. Which registers posting an event and completing a descriptor may write (R43, R548, R551); the pending bit of a posted
event shows, and no post clears one. -/

namespace Sys2Proof.Laws
open Sys2Proof Sys2Proof.Machine

/-- Register `q` is none of those that the delivery of events, completions and vectors writes. -/
structure Aside (q : RegInfo) (j : Nat) : Prop where
  cons : ∀ k, regAddr q j ≠ regAddr R.HIF_RING_CONS k
  pba : regAddr q j ≠ regAddr R.MSIX_PBA
  drop : regAddr q j ≠ regAddr R.HIF_EVT_DROP
  status : regAddr q j ≠ regAddr R.EVT_STATUS

/-- What `lost` may have added: register `q` reads in `t` as in `s`, or as `lost` leaves it in a state where it reads as in `s`. -/
def Via (q : RegInfo) (j : Nat) (lost : State → State) (s t : State) : Prop :=
  rd q t j = rd q s j ∨ ∃ u, rd q u j = rd q s j ∧ rd q t j = rd q (lost u) j
theorem Via.of {q : RegInfo} {j : Nat} {lost : State → State} {s s' t t' : State} (h : Via q j lost s' t') (hs : rd q s' j = rd q s j)
    (ht : rd q t j = rd q t' j) : Via q j lost s t :=
  h.imp (fun h => ht.trans (h.trans hs)) fun ⟨u, h, k⟩ => ⟨u, h.trans hs, ht.trans k⟩

theorem rd_bumpBy {r q : RegInfo} {i j : Nat} (h : regAddr q j ≠ regAddr r i) (w n : Nat) (f : State → State) (s : State) :
    Via q j f s (bumpW w r n f s i) := by
  unfold bumpW
  dsimp only
  split
  · exact .inl rfl
  · split
    · exact .inr ⟨_, rd_wr_ne h _ _, rfl⟩
    · exact .inl (rd_wr_ne h _ _)
theorem rd_bumpW {r q : RegInfo} {i j : Nat} (h : regAddr q j ≠ regAddr r i) (w n : Nat) (s : State) :
    rd q (bumpW w r n id s i) j = rd q s j := by
  rcases rd_bumpBy h w n id s with e | ⟨u, hu, e⟩
  · exact e
  · exact e.trans hu
theorem rd_signal {q : RegInfo} {j : Nat} (h : Aside q j) (v : Nat) (s : State) : rd q (signalVector v s) j = rd q s j := by
  unfold signalVector sendVector
  split
  · rfl
  · split
    · exact rd_wrb_ne h.pba _ _ _
    · dsimp only
      split <;> exact toHost_rd ..
theorem rd_writeEvent {q : RegInfo} {j : Nat} (h : Aside q j) (k : Nat) (e : EvEntry) (s : State) : rd q (writeEvent k e s) j = rd q s j := by
  unfold writeEvent
  dsimp only
  split
  · rw [rd_signal h, writeStatus_rd, rd_wr_ne (h.cons k), toHost_rd]
  · rw [writeStatus_rd, rd_wr_ne (h.cons k), toHost_rd]
theorem rd_holdEvent {q : RegInfo} {j : Nat} (lost : State → State) (e : EvEntry) (s : State) : Via q j lost s (holdEvent lost e s) := by
  unfold holdEvent
  split
  · exact .inr ⟨s, rfl, rfl⟩
  · exact .inl rfl
theorem rd_storeEvent {q : RegInfo} {j : Nat} (lost : State → State) (k : Nat) (e : EvEntry) (s : State) :
    Via q j lost s (storeEvent lost k e s) := by
  unfold storeEvent
  split
  · exact .inr ⟨modRing k (fun r => { r with drops := min (r.drops + 1) (2 ^ 32 - 1) }) s, rfl, writeStatus_rd ..⟩
  · exact .inl rfl
/-- Routing an entry changes a register aside of the delivery only by what the loss of an entry does. -/
theorem rd_routeEvent {q : RegInfo} {j : Nat} (h : Aside q j) (lost : State → State) (e : EvEntry) (s : State) :
    Via q j lost s (routeEvent lost e s) := by
  unfold routeEvent
  split
  · exact rd_holdEvent lost e s
  · split
    · exact rd_holdEvent lost e s
    · split
      · exact rd_storeEvent lost _ e s
      · exact .inl (rd_writeEvent h _ e s)
/-- After a post a register aside of the delivery reads as after the post's first step, which sets the pending bit (R548), but for
what the loss of an entry does. -/
theorem rd_postBy {q : RegInfo} {n j : Nat} (h : Aside q j) (hc : regAddr q j ≠ regAddr R.EVT_COUNT n) (lost : State → State)
    (src sev w1 : Nat) (d : List (Nat × Nat × Int)) (s : State) :
    Via q j lost (wrb R.EVT_PENDING (n % 32) true s (n / 32)) (postEventBy lost n src sev w1 d s) := by
  unfold postEventBy
  extract_lets rose s1 sat s2 ev s3 cfg irq vec ring e s4
  have e3 : rd q s3 j = rd q s1 j := by
    have e2 : rd q s2 j = rd q s1 j := rd_bumpW hc _ _ _
    rw [← e2]
    unfold s3
    split
    · exact (rd_wrb_ne h.status _ _ _).trans rfl
    · rfl
  split
  · exact (rd_routeEvent h lost e s3).of e3 (rd_wrf_ne h.status _ _ _ _)
  · split
    · exact .inl ((rd_signal h _ _).trans e3)
    · exact .inl e3
/-- After a post a register that is no register of the event controller reads as before. -/
theorem rd_post_aside {q : RegInfo} {j : Nat} {n : Nat} (h : Aside q j) (hc : ∀ n, regAddr q j ≠ regAddr R.EVT_COUNT n)
    (hp : ∀ w, regAddr q j ≠ regAddr R.EVT_PENDING w) (src sev w1 : Nat) (d : List (Nat × Nat × Int)) (s : State) :
    rd q (postEvent n src sev w1 d s) j = rd q s j := by
  have inner : ∀ u, rd q (dropEvent u) j = rd q u j := fun u => by
    rcases rd_bumpBy h.drop 31 1 (postEventBy (bump R.HIF_EVT_DROP 1 id) 4 0 1 0 [(8, 4, 0x30)]) u with e | ⟨v, hv, e⟩
    · exact e
    · refine e.trans ?_
      rcases rd_postBy h (hc 4) (bump R.HIF_EVT_DROP 1 id) 0 1 0 [(8, 4, 0x30)] v with f | ⟨x, hx, f⟩
      · rw [f, rd_wrb_ne (hp _), hv]
      · exact f.trans ((rd_bumpW h.drop 31 1 x).trans (hx.trans ((rd_wrb_ne (hp _) _ _ _).trans hv)))
  rcases rd_postBy h (hc n) dropEvent src sev w1 d s with e | ⟨u, hu, e⟩
  · exact e.trans (rd_wrb_ne (hp _) _ _ _)
  · exact e.trans ((inner u).trans (hu.trans (rd_wrb_ne (hp _) _ _ _)))
theorem pending_aside (j : Nat) : Aside R.EVT_PENDING j where
  cons k := by simp [regAddr, R.EVT_PENDING, R.HIF_RING_CONS]; omega
  pba := by simp [regAddr, R.EVT_PENDING, R.MSIX_PBA]; omega
  drop := by simp [regAddr, R.EVT_PENDING, R.HIF_EVT_DROP]; omega
  status := by simp [regAddr, R.EVT_PENDING, R.EVT_STATUS]; omega
theorem shows_read {n : Nat} {s t : State} (e : rd R.EVT_PENDING t (n / 32) = rd R.EVT_PENDING s (n / 32)) (x : EventShows n s) :
    EventShows n t := by
  unfold EventShows rdb at *
  rwa [e]
/-- The first step of a post sets its pending bit and clears none. -/
theorem shows_set {n m : Nat} (hn : n < 256) (hm : m < 256) {s : State} (h : m = n ∨ EventShows m s) :
    EventShows m (wrb R.EVT_PENDING (n % 32) true s (n / 32)) := by
  unfold EventShows rdb at *
  by_cases e : m = n
  · subst e
    exact rdb_wrb (by decide) (by simp [R.EVT_PENDING]; omega) true s (m / 32)
  · have h := h.resolve_left e
    by_cases e2 : m / 32 = n / 32
    · rw [← e2]
      have := rdb_wrb_ne (r := R.EVT_PENDING) (n := n % 32) (a := m % 32) (by decide) (by simp [R.EVT_PENDING]; omega) (by omega) true s (m / 32)
      unfold rdb at this
      rw [this, h]
    · rw [rd_wrb_ne (by simp [regAddr, R.EVT_PENDING]; omega)]
      exact h
/-- A post whose lost entries clear no pending bit clears none and sets its own. -/
theorem shows_postBy {n m : Nat} (hn : n < 256) (hm : m < 256) {lost : State → State} (hl : ∀ u, EventShows m u → EventShows m (lost u))
    (src sev w1 : Nat) (d : List (Nat × Nat × Int)) {s : State} (h : m = n ∨ EventShows m s) :
    EventShows m (postEventBy lost n src sev w1 d s) := by
  rcases rd_postBy (q := R.EVT_PENDING) (j := m / 32) (n := n) (pending_aside _) (by simp [regAddr, R.EVT_PENDING, R.EVT_COUNT]; omega)
    lost src sev w1 d s with e | ⟨u, hu, e⟩
  · exact shows_read e (shows_set hn hm h)
  · exact shows_read e (hl u (shows_read hu (shows_set hn hm h)))
theorem shows_drop {m : Nat} (hm : m < 256) {u : State} (h : EventShows m u) : EventShows m (dropEvent u) := by
  have hb : ∀ v, EventShows m v → EventShows m (bump R.HIF_EVT_DROP 1 id v) := fun v =>
    shows_read (rd_bumpW (pending_aside _).drop 31 1 v)
  rcases rd_bumpBy (q := R.EVT_PENDING) (j := m / 32) (pending_aside _).drop 31 1
    (postEventBy (bump R.HIF_EVT_DROP 1 id) 4 0 1 0 [(8, 4, 0x30)]) u with e | ⟨v, hv, e⟩
  · exact shows_read e h
  · exact shows_read e (shows_postBy (by decide) hm hb _ _ _ _ (.inr (shows_read hv h)))
/-- A posted event shows its pending bit (R548, R551). -/
theorem posted {n : Nat} (src sev w1 : Nat) (d : List (Nat × Nat × Int)) (s : State) (hn : n < 256 := by omega) :
    EventShows n (postEvent n src sev w1 d s) :=
  shows_postBy hn hn (fun _ => shows_drop hn) _ _ _ _ (.inl rfl)
/-- A post clears no pending bit. -/
theorem posted_stays {n m : Nat} (hn : n < 256) (hm : m < 256) (src sev w1 : Nat) (d : List (Nat × Nat × Int)) {s : State}
    (h : EventShows m s) : EventShows m (postEvent n src sev w1 d s) :=
  shows_postBy hn hm (fun _ => shows_drop hm) _ _ _ _ (.inr h)
/-- A pending bit that shows stays where the event controller is not touched. -/
theorem shows_keeps {n m : Nat} {s t : State} (k : Keeps m s t) (h : off m 34) (x : EventShows n s) : EventShows n t := by
  unfold EventShows rdb at *
  rw [rd_keeps k (by
    have e : regAddr R.EVT_PENDING (n / 32) / 65536 % 32 = 2 := by simp [regAddr, R.EVT_PENDING]; omega
    rw [e]; exact h)]
  exact x

/-! ### Completions -/

theorem rd_writeCompletion {q : RegInfo} {j : Nat} (h : Aside q j) (k : Nat) (o : Job) (c : Cpl) (s : State) :
    rd q (writeCompletion k o c s) j = rd q s j := by
  unfold writeCompletion
  extract_lets n w0 e s1 s2 s3
  have e2 : rd q s2 j = rd q s j := by
    unfold s2
    split
    · exact (rd_wr_ne (h.cons k) _ _).trans (toHost_rd ..)
    · exact toHost_rd ..
  have e3 : rd q s3 j = rd q s j := (writeStatus_rd k s2 q j).trans e2
  split
  · rw [rd_signal h, e3]
  · exact e3
theorem rd_drainRing {q : RegInfo} {j : Nat} (h : Aside q j) (k n : Nat) (s : State) : rd q (drainRing k n s) j = rd q s j := by
  induction n generalizing s with
  | zero => rfl
  | succ n ih =>
    unfold drainRing
    split
    · rfl
    · split
      · rfl
      · split
        · rfl
        · rw [ih, rd_writeCompletion h]; rfl
/-- A completion writes no register but those of the delivery. -/
theorem rd_complete {q : RegInfo} {j : Nat} (h : Aside q j) (k i : Nat) (c : Cpl) (s : State) : rd q (complete k i c s) j = rd q s j := by
  unfold complete
  extract_lets c s1
  rw [rd_drainRing h]
  show rd q s1 j = _
  unfold s1
  split <;> rfl
theorem shows_complete {n : Nat} (k i : Nat) (c : Cpl) {s : State} (x : EventShows n s) : EventShows n (complete k i c s) := by
  unfold EventShows rdb at *
  rw [rd_complete (pending_aside _)]
  exact x

theorem signal_host (v : Nat) (s : State) : (signalVector v s).host.rings = s.host.rings := by
  unfold signalVector sendVector toHost
  split
  · rfl
  · split
    · rfl
    · split <;> dsimp only <;> split <;> rfl
theorem out_toHost {o : Out} {x : Out} {s : State} (h : x ∈ s.out) : x ∈ (toHost o s).out := by
  unfold toHost
  split
  · exact List.mem_cons_of_mem _ h
  · exact h
theorem out_signal {v : Nat} {x : Out} {s : State} (h : x ∈ s.out) : x ∈ (signalVector v s).out := by
  unfold signalVector sendVector
  split
  · exact h
  · split
    · exact h
    · dsimp only
      split <;> exact out_toHost h
/-- The completion that is written leaves the module, where it may send to the host (R44, R57). -/
theorem writeCompletion_done (k : Nat) (j : Job) {c : Cpl} {s : State} (hb : s.host.busMaster = true) :
    Completed k j (c.status % 256) (c.reason % 256) (writeCompletion k j c s) := by
  unfold writeCompletion
  extract_lets n w0 e s1 s2 s3
  have ho : Out.completion k (rd R.HIF_RING_CPL_BASE s k + 32 * (j.index % 2 ^ n)) (BitVec.ofNat 256 e) ∈ s3.out := by
    refine out_toHost ?_
    have : Out.completion k (rd R.HIF_RING_CPL_BASE s k + 32 * (j.index % 2 ^ n)) (BitVec.ofNat 256 e) ∈ s1.out := by
      unfold s1 toHost
      rw [if_pos hb]
      exact List.mem_cons_self ..
    unfold s2
    split <;> exact this
  refine ⟨_, _, (?_ : Out.completion k (rd R.HIF_RING_CPL_BASE s k + 32 * (j.index % 2 ^ n)) (BitVec.ofNat 256 e) ∈ _), ?_, ?_, ?_⟩
  · split
    · exact out_signal ho
    · exact ho
  all_goals
    rw [BitVec.toNat_ofNat]
    have hop : dOpcode j.desc < 2 ^ 8 := Nat.mod_lt _ (by decide)
    have hph : dPhase j.desc < 2 := Nat.mod_lt _ (by decide)
    have hck : dCookie j.desc < 2 ^ 32 := Nat.mod_lt _ (by decide)
    unfold e w0
    omega
/-- A ring's only open descriptor completes: its completion leaves the module, and nothing is open (R57). -/
theorem complete_one {k : Nat} {j : Job} {c : Cpl} {s : State} (hj : (ringInt s k).jobs = [j]) (hr : ringState s k ≠ 3)
    (hb : s.host.busMaster = true) :
    Completed k j (c.status % 256) (c.reason % 256) (complete k j.index c s) ∧ (ringInt (complete k j.index c s) k).jobs = [] := by
  unfold complete
  extract_lets on s1
  have e1 : ringInt s1 k = ringInt s k := by unfold s1; split <;> rfl
  have e2 : s1.host.busMaster = true := by unfold s1; split <;> exact hb
  have e3 : ringState s1 k ≠ 3 := by unfold s1; split <;> exact hr
  generalize s1 = u at e1 e2 e3
  rw [show (ringInt u k).jobs.length = 1 by rw [e1, hj]; rfl]
  unfold drainRing
  have e4 : (ringInt (modJob k j.index (fun j => { j with cpl := some c, xfer := none }) u) k).jobs = [{ j with cpl := some c, xfer := none }] := by
    unfold modJob
    rw [ringInt_modRing]
    simp [e1, hj]
  rw [e4]
  dsimp only
  rw [if_neg (fun x => e3 x.1)]
  unfold drainRing
  constructor
  · obtain ⟨a, e, h⟩ := writeCompletion_done k { j with cpl := some c, xfer := none } (c := c)
      (s := modRing k (fun x => { x with jobs := [] }) (modJob k j.index (fun j => { j with cpl := some c, xfer := none }) u)) e2
    exact ⟨a, e, h⟩
  · unfold writeCompletion
    extract_lets n w0 e t1 t2 t3
    have f : (ringInt t3 k).jobs = [] := by
      unfold t3 writeStatus
      rw [toHost_ringInt]
      have f1 : (ringInt t1 k).jobs = [] := by unfold t1; rw [toHost_ringInt, ringInt_modRing]
      unfold t2
      split <;> exact f1
    split
    · unfold ringInt at f ⊢
      rw [signal_host]
      exact f
    · exact f

end Sys2Proof.Laws
end

