-- ==== Sys2Proof/Laws/Counters.lean ====
section
/-! SUPPORT. What a saturating counter leaves alone (R14), a field that fits its width, and tables of ports. -/

namespace Sys2Proof.Laws
open Sys2Proof Sys2Proof.Machine

/-- A counter's step leaves every other register alone that its saturation event leaves alone. -/
theorem rd_bump {q r : RegInfo} {i j n : Nat} {sat : State → State} (h : regAddr q j ≠ regAddr r i)
    (hs : ∀ s, rd q (sat s) j = rd q s j) (s : State) : rd q (bump r n sat s i) j = rd q s j := by
  unfold bump bumpW
  extract_lets v c top
  split
  · rfl
  · split
    · rw [hs, rd_wr_ne h]
    · rw [rd_wr_ne h]
/-- A counter's step leaves every part of the state alone that register writes and its saturation event leave alone. -/
theorem bump_part {α : Type} {r : RegInfo} {i n : Nat} {sat : State → State} (f : State → α) (hw : ∀ v s, f (wr r v s i) = f s)
    (hs : ∀ s, f (sat s) = f s) (s : State) : f (bump r n sat s i) = f s := by
  unfold bump bumpW
  extract_lets v c top
  split
  · rfl
  · split
    · rw [hs, hw]
    · rw [hw]
/-- A field reads the value written where the value fits it. -/
theorem rdf_wrf_fits {r : RegInfo} {lo len : Nat} (h : r.bytes ≤ 8) (k : lo + len ≤ 8 * r.bytes) {v : Nat} (hv : v < 2 ^ len) (s : State) (i : Nat) :
    rdf r lo len (wrf r lo len v s i) i = v := (rdf_wrf h k v s i).trans (Nat.mod_eq_of_lt hv)
/-- A bit outside a written field reads as before. -/
theorem rdb_wrf_ne {r : RegInfo} {lo len a : Nat} (h : r.bytes ≤ 8) (k : a + 1 ≤ 8 * r.bytes) (d : a + 1 ≤ lo ∨ lo + len ≤ a)
    (v : Nat) (s : State) (i : Nat) : rdb r a (wrf r lo len v s i) i = rdb r a s i := by
  have := rdf_wrf_ne (n := 1) h k d v s i
  unfold rdb
  rw [bit_eq_bits, bit_eq_bits]
  exact congrArg (· == 1) this
/-- A field that does not hold a written bit reads as before. -/
theorem rdf_wrb_ne {r : RegInfo} {n a w : Nat} (h : r.bytes ≤ 8) (k : a + w ≤ 8 * r.bytes) (d : a + w ≤ n ∨ n + 1 ≤ a)
    (b : Bool) (s : State) (i : Nat) : rdf r a w (wrb r n b s i) i = rdf r a w s i :=
  rdf_wrf_ne h k d (b2n b) s i
theorem tget?_terase {α : Type} (t : Table α) (k : Nat) : tget? (terase t k) k = none := by
  induction t with
  | nil => rfl
  | cons x r ih =>
    unfold terase at *
    rw [List.filter_cons]
    split
    · rename_i hx
      obtain ⟨a, b⟩ := x
      unfold tget?
      rw [if_neg (by simpa using hx)]
      exact ih
    · exact ih
theorem tget_tset {α : Type} (d : α) (t : Table α) (k : Nat) (v : α) (j : Nat) : tget d (tset t k v) j = if j = k then v else tget d t j := by
  unfold tget
  rw [tget?_tset]
  split <;> rfl
@[simp] theorem portOf_modPort (p : Nat) (f : Port → Port) (s : State) : portOf (modPort p f s) p = f (portOf s p) := by
  show tget {} (tmod {} s.dose.ports p f) p = _
  unfold tmod
  rw [tget_tset, if_pos rfl]
  rfl
theorem portOf_modPort_ne {p k : Nat} (h : k ≠ p) (f : Port → Port) (s : State) : portOf (modPort p f s) k = portOf s k := by
  show tget {} (tmod {} s.dose.ports p f) k = _
  unfold tmod
  rw [tget_tset, if_neg h]
  rfl
/-- A port's own data is no register. -/
@[simp] theorem rd_modPort (r : RegInfo) (p : Nat) (f : Port → Port) (s : State) (i : Nat) : rd r (modPort p f s) i = rd r s i := rfl
@[simp] theorem rdf_modPort (r : RegInfo) (lo len p : Nat) (f : Port → Port) (s : State) (i : Nat) :
    rdf r lo len (modPort p f s) i = rdf r lo len s i := rfl
@[simp] theorem rdb_modPort (r : RegInfo) (n p : Nat) (f : Port → Port) (s : State) (i : Nat) : rdb r n (modPort p f s) i = rdb r n s i := rfl
@[simp] theorem lnkState_modPort (p k : Nat) (f : Port → Port) (s : State) : lnkState k (modPort p f s) = lnkState k s := rfl

end Sys2Proof.Laws
end

