-- ==== Sys2Proof/Laws/Keeps/Memory.lean ====
section
/-! SUPPORT. Every operation of Machine/Memory.lean keeps what Laws/Keeps/Base.lean states. -/

namespace Sys2Proof.Laws
open Sys2Proof Sys2Proof.Machine

theorem writeDram_keeps {m : Nat} {s0 s : State} {x1 x2} (hm : 17592186045056 ||| m = m) (h : Keeps m s0 s) : Keeps m s0 (writeDram x1 x2 s) := by
  unfold writeDram
  repeat' first
    | (with_reducible assumption)
    | rfl
    | (with_reducible exact id)
    | (exact in_mask hm rfl)
    | (with_reducible exact fun _ => rfl)
    | (exact tsorted_putBytes _ _ _)
    | (exact Sub.trans hm rfl)
    | (intro _)
    | (extract_lets +onlyGivenNames s1; first | (refine Keeps.cut (t := s1) ?_ ?_; rotate_left; intro hs1; clear_value s1; rotate_right; subst s1) | (refine Keeps.cut2 (t := s1) ?_ ?_; rotate_left; intro hs1; clear_value s1; rotate_right; subst s1) | (refine Keeps.cut3 (t := s1) ?_ ?_; rotate_left; intro hs1; clear_value s1; rotate_right; subst s1) | (refine Keeps.cut1 (t := s1) ?_ ?_; rotate_left; intro hs1; clear_value s1; rotate_right; subst s1) | (have hm : MemState := s1; clear hm) | clear_value s1 | (have hm := s1; clear hm))
    | (with_reducible exact rfl)
    | (with_reducible apply wrb_keeps)
    | (with_reducible apply id_keeps)
    | (with_reducible refine Keeps.eq2 ‹_› ?_)
    | (with_reducible refine Keeps.eq3 ‹_› ?_)
    | split
    | (with_reducible apply Keeps.upd)
    | (dsimp only)
    | (exact rfl)

theorem writeDramN_keeps {m : Nat} {s0 s : State} {x1 x2 x3} (hm : 17592186045056 ||| m = m) (h : Keeps m s0 s) : Keeps m s0 (writeDramN x1 x2 x3 s) := by
  unfold writeDramN
  repeat' first
    | (with_reducible assumption)
    | (with_reducible exact id)
    | (exact in_mask hm rfl)
    | (with_reducible exact fun _ => rfl)
    | (exact Sub.trans hm rfl)
    | (intro _)
    | (extract_lets +onlyGivenNames s1; first | (refine Keeps.cut (t := s1) ?_ ?_; rotate_left; intro hs1; clear_value s1; rotate_right; subst s1) | (refine Keeps.cut2 (t := s1) ?_ ?_; rotate_left; intro hs1; clear_value s1; rotate_right; subst s1) | (refine Keeps.cut3 (t := s1) ?_ ?_; rotate_left; intro hs1; clear_value s1; rotate_right; subst s1) | (refine Keeps.cut1 (t := s1) ?_ ?_; rotate_left; intro hs1; clear_value s1; rotate_right; subst s1) | clear_value s1 | (have hm := s1; clear hm))
    | (with_reducible exact rfl)
    | (with_reducible apply writeDram_keeps)
    | (with_reducible apply id_keeps)
    | (with_reducible refine Keeps.eq2 ‹_› ?_)
    | (with_reducible refine Keeps.eq3 ‹_› ?_)
    | split
    | (with_reducible apply Keeps.upd)
    | (dsimp only)
    | (exact rfl)

theorem writeSram_keeps {m : Nat} {s0 s : State} {x1 x2} (hm : 17592186045184 ||| m = m) (h : Keeps m s0 s) : Keeps m s0 (writeSram x1 x2 s) := by
  unfold writeSram
  repeat' first
    | (with_reducible assumption)
    | rfl
    | (with_reducible exact id)
    | (exact in_mask hm rfl)
    | (with_reducible exact fun _ => rfl)
    | (exact tsorted_putBytes _ _ _)
    | (exact Sub.trans hm rfl)
    | (intro _)
    | (extract_lets +onlyGivenNames s1; first | (refine Keeps.cut (t := s1) ?_ ?_; rotate_left; intro hs1; clear_value s1; rotate_right; subst s1) | (refine Keeps.cut2 (t := s1) ?_ ?_; rotate_left; intro hs1; clear_value s1; rotate_right; subst s1) | (refine Keeps.cut3 (t := s1) ?_ ?_; rotate_left; intro hs1; clear_value s1; rotate_right; subst s1) | (refine Keeps.cut1 (t := s1) ?_ ?_; rotate_left; intro hs1; clear_value s1; rotate_right; subst s1) | (have hm : MemState := s1; clear hm) | clear_value s1 | (have hm := s1; clear hm))
    | (with_reducible exact rfl)
    | (with_reducible apply wrb_keeps)
    | (with_reducible apply id_keeps)
    | (with_reducible refine Keeps.eq2 ‹_› ?_)
    | (with_reducible refine Keeps.eq3 ‹_› ?_)
    | split
    | (with_reducible apply Keeps.upd)
    | (dsimp only)
    | (exact rfl)

end Sys2Proof.Laws
end

