-- ==== Sys2Proof/Laws/Keeps/MotionBase.lean ====
section
/-! SUPPORT. Every operation of Machine/MotionBase.lean keeps what Laws/Keeps/Base.lean states. -/

namespace Sys2Proof.Laws
open Sys2Proof Sys2Proof.Machine

theorem modAxis_keeps {m : Nat} {s0 s : State} {x1 x2} (hm : 2048 ||| m = m) (h : Keeps m s0 s) : Keeps m s0 (modAxis x1 x2 s) := by
  unfold modAxis
  repeat' first
    | (with_reducible assumption)
    | (with_reducible exact id)
    | (exact in_mask hm rfl)
    | (with_reducible exact fun _ => rfl)
    | (exact Sub.trans hm rfl)
    | (intro _)
    | (extract_lets +onlyGivenNames s1; first | (refine Keeps.cut (t := s1) ?_ ?_; rotate_left; intro hs1; clear_value s1; rotate_right; subst s1) | clear_value s1 | (have hm := s1; clear hm))
    | (with_reducible exact rfl)
    | (with_reducible apply id_keeps)
    | split
    | (with_reducible apply Keeps.upd)
    | (dsimp only)
    | (exact rfl)

theorem setAxisState_keeps {m : Nat} {s0 s : State} {x1 x2} (hm : 1099511627776 ||| m = m) (h : Keeps m s0 s) : Keeps m s0 (setAxisState x1 x2 s) := by
  unfold setAxisState
  repeat' first
    | (with_reducible assumption)
    | (exact Sub.trans hm rfl)
    | (intro _)
    | (with_reducible exact rfl)
    | (with_reducible apply wrf_keeps)
    | (with_reducible apply id_keeps)
    | split
    | (dsimp only)
    | (exact rfl)

theorem setHomed_keeps {m : Nat} {s0 s : State} {x1 x2} (hm : 1099511627776 ||| m = m) (h : Keeps m s0 s) : Keeps m s0 (setHomed x1 x2 s) := by
  unfold setHomed
  repeat' first
    | (with_reducible assumption)
    | (exact Sub.trans hm rfl)
    | (intro _)
    | (with_reducible exact rfl)
    | (with_reducible apply wrb_keeps)
    | (with_reducible apply id_keeps)
    | split
    | (dsimp only)
    | (exact rfl)

theorem setQueue_keeps {m : Nat} {s0 s : State} {x1 x2} (hm : 1099511629824 ||| m = m) (h : Keeps m s0 s) : Keeps m s0 (setQueue x1 x2 s) := by
  unfold setQueue
  repeat' first
    | (with_reducible assumption)
    | (with_reducible exact id)
    | (exact in_mask hm rfl)
    | (with_reducible exact fun _ => rfl)
    | (exact Sub.trans hm rfl)
    | (intro _)
    | (extract_lets +onlyGivenNames s1; first | (refine Keeps.cut (t := s1) ?_ ?_; rotate_left; intro hs1; clear_value s1; rotate_right; subst s1) | clear_value s1 | (have hm := s1; clear hm))
    | (with_reducible exact rfl)
    | (with_reducible apply wrf_keeps)
    | (with_reducible apply modAxis_keeps)
    | (with_reducible apply id_keeps)
    | split
    | (with_reducible apply Keeps.upd)
    | (dsimp only)
    | (exact rfl)

theorem setCmd_keeps {m : Nat} {s0 s : State} {x1 x2} (hm : 1099511627776 ||| m = m) (h : Keeps m s0 s) : Keeps m s0 (setCmd x1 x2 s) := by
  unfold setCmd
  repeat' first
    | (with_reducible assumption)
    | (exact Sub.trans hm rfl)
    | (intro _)
    | (with_reducible exact rfl)
    | (with_reducible apply wrI_keeps)
    | (with_reducible apply id_keeps)
    | split
    | (dsimp only)
    | (exact rfl)

theorem setMeas_keeps {m : Nat} {s0 s : State} {x1 x2} (hm : 1099511627776 ||| m = m) (h : Keeps m s0 s) : Keeps m s0 (setMeas x1 x2 s) := by
  unfold setMeas
  repeat' first
    | (with_reducible assumption)
    | (exact Sub.trans hm rfl)
    | (intro _)
    | (with_reducible exact rfl)
    | (with_reducible apply wrI_keeps)
    | (with_reducible apply id_keeps)
    | split
    | (dsimp only)
    | (exact rfl)

theorem moveDone_keeps {m : Nat} {s0 s : State} {x1 x2 x3} (hm : 25769803828 ||| m = m) (h : Keeps m s0 s) : Keeps m s0 (moveDone x1 x2 x3 s) := by
  unfold moveDone
  repeat' first
    | (with_reducible assumption)
    | (with_reducible exact id)
    | (exact in_mask hm rfl)
    | (with_reducible exact fun _ => rfl)
    | (exact Sub.trans hm rfl)
    | (intro _)
    | (extract_lets +onlyGivenNames s1; first | (refine Keeps.cut (t := s1) ?_ ?_; rotate_left; intro hs1; clear_value s1; rotate_right; subst s1) | clear_value s1 | (have hm := s1; clear hm))
    | (with_reducible exact rfl)
    | (with_reducible apply postEvent_keeps)
    | (with_reducible apply id_keeps)
    | split
    | (with_reducible apply Keeps.upd)
    | (dsimp only)
    | (exact rfl)

theorem flushQueue_keeps {m : Nat} {s0 s : State} {x1 x2} (hm : 1125281433652 ||| m = m) (h : Keeps m s0 s) : Keeps m s0 (flushQueue x1 x2 s) := by
  unfold flushQueue
  repeat' first
    | (with_reducible assumption)
    | (with_reducible exact id)
    | (exact Sub.trans hm rfl)
    | (intro _)
    | (extract_lets +onlyGivenNames s1; first | (refine Keeps.cut (t := s1) ?_ ?_; rotate_left; intro hs1; clear_value s1; rotate_right; subst s1) | clear_value s1 | (have hm := s1; clear hm))
    | (with_reducible exact rfl)
    | (with_reducible apply each_keeps)
    | (with_reducible apply moveDone_keeps)
    | (with_reducible apply setQueue_keeps)
    | (with_reducible apply id_keeps)
    | split
    | (dsimp only)
    | (exact rfl)

theorem shortAxis_keeps {m : Nat} {s0 s : State} {x1 x2} (hm : 1099511629824 ||| m = m) (h : Keeps m s0 s) : Keeps m s0 (shortAxis x1 x2 s) := by
  unfold shortAxis
  repeat' first
    | (with_reducible assumption)
    | (with_reducible exact id)
    | (exact in_mask hm rfl)
    | (with_reducible exact fun _ => rfl)
    | (exact Sub.trans hm rfl)
    | (intro _)
    | (extract_lets +onlyGivenNames s1; first | (refine Keeps.cut (t := s1) ?_ ?_; rotate_left; intro hs1; clear_value s1; rotate_right; subst s1) | clear_value s1 | (have hm := s1; clear hm))
    | (with_reducible exact rfl)
    | (with_reducible apply modAxis_keeps)
    | (with_reducible apply setAxisState_keeps)
    | (with_reducible apply id_keeps)
    | split
    | (with_reducible apply Keeps.upd)
    | (dsimp only)
    | (exact rfl)

theorem replan_keeps {m : Nat} {s0 s : State} {x1 x2 x3} (hm : 2048 ||| m = m) (h : Keeps m s0 s) : Keeps m s0 (replan x1 x2 x3 s) := by
  unfold replan
  repeat' first
    | (with_reducible assumption)
    | (with_reducible exact id)
    | (exact in_mask hm rfl)
    | (with_reducible exact fun _ => rfl)
    | (exact Sub.trans hm rfl)
    | (intro _)
    | (extract_lets +onlyGivenNames s1; first | (refine Keeps.cut (t := s1) ?_ ?_; rotate_left; intro hs1; clear_value s1; rotate_right; subst s1) | clear_value s1 | (have hm := s1; clear hm))
    | (with_reducible exact rfl)
    | (with_reducible apply modAxis_keeps)
    | (with_reducible apply id_keeps)
    | split
    | (with_reducible apply Keeps.upd)
    | (dsimp only)
    | (exact rfl)

theorem stopAxis_keeps {m : Nat} {s0 s : State} {x1 x2 x3} (hm : 1099511629824 ||| m = m) (h : Keeps m s0 s) : Keeps m s0 (stopAxis x1 x2 x3 s) := by
  unfold stopAxis
  repeat' first
    | (with_reducible assumption)
    | (with_reducible exact id)
    | (exact in_mask hm rfl)
    | (with_reducible exact fun _ => rfl)
    | (exact Sub.trans hm rfl)
    | (intro _)
    | (extract_lets +onlyGivenNames s1; first | (refine Keeps.cut (t := s1) ?_ ?_; rotate_left; intro hs1; clear_value s1; rotate_right; subst s1) | clear_value s1 | (have hm := s1; clear hm))
    | (with_reducible exact rfl)
    | (with_reducible apply modAxis_keeps)
    | (with_reducible apply shortAxis_keeps)
    | (with_reducible apply replan_keeps)
    | (with_reducible apply setAxisState_keeps)
    | (with_reducible apply id_keeps)
    | split
    | (with_reducible apply Keeps.upd)
    | (dsimp only)
    | (exact rfl)

theorem homeBrake_keeps {m : Nat} {s0 s : State} {x1} (hm : 1099511629824 ||| m = m) (h : Keeps m s0 s) : Keeps m s0 (homeBrake x1 s) := by
  unfold homeBrake
  repeat' first
    | (with_reducible assumption)
    | (exact Sub.trans hm rfl)
    | (intro _)
    | (with_reducible exact rfl)
    | (with_reducible apply shortAxis_keeps)
    | (with_reducible apply replan_keeps)
    | (with_reducible apply id_keeps)
    | split
    | (dsimp only)
    | (exact rfl)

theorem stopAndFlush_keeps {m : Nat} {s0 s : State} {x1 x2} (hm : 1125281433652 ||| m = m) (h : Keeps m s0 s) : Keeps m s0 (stopAndFlush x1 x2 s) := by
  unfold stopAndFlush
  repeat' first
    | (with_reducible assumption)
    | (exact Sub.trans hm rfl)
    | (intro _)
    | (with_reducible exact rfl)
    | (with_reducible apply flushQueue_keeps)
    | (with_reducible apply stopAxis_keeps)
    | (with_reducible apply id_keeps)
    | split
    | (dsimp only)
    | (exact rfl)

theorem takePosition_keeps {m : Nat} {s0 s : State} {x1} (hm : 1099511627776 ||| m = m) (h : Keeps m s0 s) : Keeps m s0 (takePosition x1 s) := by
  unfold takePosition
  repeat' first
    | (with_reducible assumption)
    | (exact Sub.trans hm rfl)
    | (intro _)
    | (with_reducible exact rfl)
    | (with_reducible apply setCmd_keeps)
    | (with_reducible apply id_keeps)
    | split
    | (dsimp only)
    | (exact rfl)

theorem startProf_keeps {m : Nat} {s0 s : State} {x1 x2 x3 x4} (hm : 1099511629824 ||| m = m) (h : Keeps m s0 s) : Keeps m s0 (startProf x1 x2 x3 s x4) := by
  unfold startProf
  repeat' first
    | (with_reducible assumption)
    | (with_reducible exact id)
    | (exact in_mask hm rfl)
    | (with_reducible exact fun _ => rfl)
    | (exact Sub.trans hm rfl)
    | (intro _)
    | (extract_lets +onlyGivenNames s1; first | (refine Keeps.cut (t := s1) ?_ ?_; rotate_left; intro hs1; clear_value s1; rotate_right; subst s1) | clear_value s1 | (have hm := s1; clear hm))
    | (with_reducible exact rfl)
    | (with_reducible apply takePosition_keeps)
    | (with_reducible apply modAxis_keeps)
    | (with_reducible apply setAxisState_keeps)
    | (with_reducible apply id_keeps)
    | split
    | (with_reducible apply Keeps.upd)
    | (dsimp only)
    | (exact rfl)

theorem startMove_keeps {m : Nat} {s0 s : State} {x1 x2 x3 x4 x5 x6} (hm : 1099511629824 ||| m = m) (h : Keeps m s0 s) : Keeps m s0 (startMove x1 x2 x3 x4 x5 x6 s) := by
  unfold startMove
  repeat' first
    | (with_reducible assumption)
    | (with_reducible exact id)
    | (exact in_mask hm rfl)
    | (with_reducible exact fun _ => rfl)
    | (exact Sub.trans hm rfl)
    | (intro _)
    | (extract_lets +onlyGivenNames s1; first | (refine Keeps.cut (t := s1) ?_ ?_; rotate_left; intro hs1; clear_value s1; rotate_right; subst s1) | clear_value s1 | (have hm := s1; clear hm))
    | (with_reducible exact rfl)
    | (with_reducible apply startProf_keeps)
    | (with_reducible apply id_keeps)
    | split
    | (with_reducible apply Keeps.upd)
    | (dsimp only)
    | (exact rfl)

theorem showSwitches_keeps {m : Nat} {s0 s : State} {x1} (hm : 1099511627776 ||| m = m) (h : Keeps m s0 s) : Keeps m s0 (showSwitches x1 s) := by
  unfold showSwitches
  repeat' first
    | (with_reducible assumption)
    | (exact Sub.trans hm rfl)
    | (intro _)
    | (with_reducible exact rfl)
    | (with_reducible apply wrb_keeps)
    | (with_reducible apply id_keeps)
    | split
    | (dsimp only)
    | (exact rfl)

theorem updateEnables_keeps {m : Nat} {s0 s : State} (hm : 1099511627776 ||| m = m) (h : Keeps m s0 s) : Keeps m s0 (updateEnables s) := by
  unfold updateEnables
  repeat' first
    | (with_reducible assumption)
    | (exact Sub.trans hm rfl)
    | (intro _)
    | (extract_lets +onlyGivenNames s1; first | (refine Keeps.cut (t := s1) ?_ ?_; rotate_left; intro hs1; clear_value s1; rotate_right; subst s1) | clear_value s1 | (have hm := s1; clear hm))
    | (with_reducible exact rfl)
    | (with_reducible apply each_keeps)
    | (with_reducible apply wrb_keeps)
    | (with_reducible apply setAxisState_keeps)
    | (with_reducible apply id_keeps)
    | split
    | (dsimp only)
    | (exact rfl)

end Sys2Proof.Laws
end

