-- ==== Sys2Proof/Laws/Keeps/Rings.lean ====
section
/-! SUPPORT. Every operation of Machine/Rings.lean keeps what Laws/Keeps/Base.lean states. -/

namespace Sys2Proof.Laws
open Sys2Proof Sys2Proof.Machine

theorem markNewlyRead_keeps {m : Nat} {s0 s : State} {x1} (hm : 16 ||| m = m) (h : Keeps m s0 s) : Keeps m s0 (markNewlyRead x1 s) := by
  unfold markNewlyRead
  repeat' first
    | (with_reducible assumption)
    | (with_reducible exact id)
    | (exact in_mask hm rfl)
    | (with_reducible exact fun _ => rfl)
    | (exact Sub.trans hm rfl)
    | (intro _)
    | (extract_lets +onlyGivenNames s1; first | (refine Keeps.cut (t := s1) ?_ ?_; rotate_left; intro hs1; clear_value s1; rotate_right; subst s1) | clear_value s1 | (have hm := s1; clear hm))
    | (with_reducible exact rfl)
    | (with_reducible apply each_keeps)
    | (with_reducible apply modRing_keeps)
    | (with_reducible apply id_keeps)
    | split
    | (with_reducible apply Keeps.upd)
    | (dsimp only)
    | (exact rfl)

theorem ringError_keeps {m : Nat} {s0 s : State} {x1 x2} (hm : 25769803828 ||| m = m) (h : Keeps m s0 s) : Keeps m s0 (ringError x1 x2 s) := by
  unfold ringError
  repeat' first
    | (with_reducible assumption)
    | (exact Sub.trans hm rfl)
    | (intro _)
    | (extract_lets +onlyGivenNames s1; first | (refine Keeps.cut (t := s1) ?_ ?_; rotate_left; intro hs1; clear_value s1; rotate_right; subst s1) | clear_value s1 | (have hm := s1; clear hm))
    | (with_reducible exact rfl)
    | (with_reducible apply wrf_keeps)
    | (with_reducible apply wrb_keeps)
    | (with_reducible apply postEvent_keeps)
    | (with_reducible apply setRingState_keeps)
    | (with_reducible apply id_keeps)
    | split
    | (dsimp only)
    | (exact rfl)

theorem takeDoorbell_keeps {m : Nat} {s0 s : State} {x1 x2} (hm : 25769803828 ||| m = m) (h : Keeps m s0 s) : Keeps m s0 (takeDoorbell x1 x2 s) := by
  unfold takeDoorbell
  repeat' first
    | (with_reducible assumption)
    | (with_reducible exact id)
    | (exact in_mask hm rfl)
    | (with_reducible exact fun _ => rfl)
    | (exact Sub.trans hm rfl)
    | (intro _)
    | (extract_lets +onlyGivenNames s1; first | (refine Keeps.cut (t := s1) ?_ ?_; rotate_left; intro hs1; clear_value s1; rotate_right; subst s1) | clear_value s1 | (have hm := s1; clear hm))
    | (with_reducible exact rfl)
    | (with_reducible apply modRing_keeps)
    | (with_reducible apply postEvent_keeps)
    | (with_reducible apply ringError_keeps)
    | (with_reducible apply setRingState_keeps)
    | (with_reducible apply id_keeps)
    | split
    | (with_reducible apply Keeps.upd)
    | (dsimp only)
    | (exact rfl)

theorem readDoorbell_keeps {m : Nat} {s0 s : State} {x1 x2} (hm : 25769803828 ||| m = m) (h : Keeps m s0 s) : Keeps m s0 (readDoorbell x1 x2 s) := by
  unfold readDoorbell
  repeat' first
    | (with_reducible assumption)
    | (with_reducible exact id)
    | (exact in_mask hm rfl)
    | (with_reducible exact fun _ => rfl)
    | (exact Sub.trans hm rfl)
    | (intro _)
    | (extract_lets +onlyGivenNames s1; first | (refine Keeps.cut (t := s1) ?_ ?_; rotate_left; intro hs1; clear_value s1; rotate_right; subst s1) | clear_value s1 | (have hm := s1; clear hm))
    | (with_reducible exact rfl)
    | (with_reducible apply ringError_keeps)
    | (with_reducible apply takeDoorbell_keeps)
    | (with_reducible apply id_keeps)
    | split
    | (with_reducible apply Keeps.upd)
    | (dsimp only)
    | (exact rfl)

theorem goIdle_keeps {m : Nat} {s0 s : State} {x1 x2} (hm : 25769803828 ||| m = m) (h : Keeps m s0 s) : Keeps m s0 (goIdle x1 x2 s) := by
  unfold goIdle
  repeat' first
    | (with_reducible assumption)
    | (with_reducible exact id)
    | (exact in_mask hm rfl)
    | (with_reducible exact fun _ => rfl)
    | (exact Sub.trans hm rfl)
    | (intro _)
    | (extract_lets +onlyGivenNames s1; first | (refine Keeps.cut (t := s1) ?_ ?_; rotate_left; intro hs1; clear_value s1; rotate_right; subst s1) | clear_value s1 | (have hm := s1; clear hm))
    | (with_reducible exact rfl)
    | (with_reducible apply setRingState_keeps)
    | (with_reducible apply modRing_keeps)
    | (with_reducible apply ringError_keeps)
    | (with_reducible apply takeDoorbell_keeps)
    | (with_reducible apply id_keeps)
    | split
    | (with_reducible apply Keeps.upd)
    | (dsimp only)
    | (exact rfl)

theorem idleRing_keeps {m : Nat} {s0 s : State} {x1} (hm : 25769803828 ||| m = m) (h : Keeps m s0 s) : Keeps m s0 (idleRing x1 s) := by
  unfold idleRing
  repeat' first
    | (with_reducible assumption)
    | (with_reducible exact id)
    | (exact in_mask hm rfl)
    | (with_reducible exact fun _ => rfl)
    | (exact Sub.trans hm rfl)
    | (intro _)
    | (extract_lets +onlyGivenNames s1; first | (refine Keeps.cut (t := s1) ?_ ?_; rotate_left; intro hs1; clear_value s1; rotate_right; subst s1) | clear_value s1 | (have hm := s1; clear hm))
    | (with_reducible exact rfl)
    | (with_reducible apply readDoorbell_keeps)
    | (with_reducible apply goIdle_keeps)
    | (with_reducible apply id_keeps)
    | split
    | (with_reducible apply Keeps.upd)
    | (dsimp only)
    | (exact rfl)

theorem pollRing_keeps {m : Nat} {s0 s : State} {x1} (hm : 25769803828 ||| m = m) (h : Keeps m s0 s) : Keeps m s0 (pollRing x1 s) := by
  unfold pollRing
  repeat' first
    | (with_reducible assumption)
    | (exact Sub.trans hm rfl)
    | (intro _)
    | (with_reducible exact rfl)
    | (with_reducible apply idleRing_keeps)
    | (with_reducible apply readDoorbell_keeps)
    | (with_reducible apply id_keeps)
    | split
    | (dsimp only)
    | (exact rfl)

theorem writeCompletion_keeps {m : Nat} {s0 s : State} {x1 x2 x3} (hm : 25769803828 ||| m = m) (h : Keeps m s0 s) : Keeps m s0 (writeCompletion x1 x2 x3 s) := by
  unfold writeCompletion
  repeat' first
    | (with_reducible assumption)
    | (exact Sub.trans hm rfl)
    | (intro _)
    | (extract_lets +onlyGivenNames s1; first | (refine Keeps.cut (t := s1) ?_ ?_; rotate_left; intro hs1; clear_value s1; rotate_right; subst s1) | clear_value s1 | (have hm := s1; clear hm))
    | (with_reducible exact rfl)
    | (with_reducible apply toHost_keeps)
    | (with_reducible apply wr_keeps)
    | (with_reducible apply writeStatus_keeps)
    | (with_reducible apply signalVector_keeps)
    | (with_reducible apply id_keeps)
    | split
    | (dsimp only)
    | (exact rfl)

theorem drainRing_keeps {m : Nat} {s0 s : State} {x1 x2} (hm : 25769803828 ||| m = m) (h : Keeps m s0 s) : Keeps m s0 (drainRing x1 x2 s) := by
  induction x2 generalizing s  with
  | zero =>
    rw [drainRing]
    repeat' first
      | (with_reducible assumption)
      | (with_reducible exact id)
      | (exact in_mask hm rfl)
      | (with_reducible exact fun _ => rfl)
      | (exact Sub.trans hm rfl)
      | (intro _)
      | (extract_lets +onlyGivenNames s1; first | (refine Keeps.cut (t := s1) ?_ ?_; rotate_left; intro hs1; clear_value s1; rotate_right; subst s1) | clear_value s1 | (have hm := s1; clear hm))
      | (with_reducible exact rfl)
      | (with_reducible apply writeCompletion_keeps)
      | (with_reducible apply modRing_keeps)
      | (with_reducible apply id_keeps)
      | split
      | (with_reducible apply Keeps.upd)
      | (dsimp only)
      | (exact rfl)
  | succ n ih =>
    rw [drainRing]
    repeat' first
      | (with_reducible apply ih)
      | (with_reducible assumption)
      | (with_reducible exact id)
      | (exact in_mask hm rfl)
      | (with_reducible exact fun _ => rfl)
      | (exact Sub.trans hm rfl)
      | (intro _)
      | (extract_lets +onlyGivenNames s1; first | (refine Keeps.cut (t := s1) ?_ ?_; rotate_left; intro hs1; clear_value s1; rotate_right; subst s1) | clear_value s1 | (have hm := s1; clear hm))
      | (with_reducible exact rfl)
      | (with_reducible apply writeCompletion_keeps)
      | (with_reducible apply modRing_keeps)
      | (with_reducible apply id_keeps)
      | split
      | (with_reducible apply Keeps.upd)
      | (dsimp only)
      | (exact rfl)

theorem modJob_keeps {m : Nat} {s0 s : State} {x1 x2 x3} (hm : 16 ||| m = m) (h : Keeps m s0 s) : Keeps m s0 (modJob x1 x2 x3 s) := by
  unfold modJob
  repeat' first
    | (with_reducible assumption)
    | (with_reducible exact id)
    | (exact in_mask hm rfl)
    | (with_reducible exact fun _ => rfl)
    | (exact Sub.trans hm rfl)
    | (intro _)
    | (extract_lets +onlyGivenNames s1; first | (refine Keeps.cut (t := s1) ?_ ?_; rotate_left; intro hs1; clear_value s1; rotate_right; subst s1) | clear_value s1 | (have hm := s1; clear hm))
    | (with_reducible exact rfl)
    | (with_reducible apply modRing_keeps)
    | (with_reducible apply id_keeps)
    | split
    | (with_reducible apply Keeps.upd)
    | (dsimp only)
    | (exact rfl)

theorem freeChan_keeps {m : Nat} {s0 s : State} {x1} (hm : 16 ||| m = m) (h : Keeps m s0 s) : Keeps m s0 (freeChan x1 s) := by
  unfold freeChan
  repeat' first
    | (with_reducible assumption)
    | (with_reducible exact id)
    | (exact in_mask hm rfl)
    | (with_reducible exact fun _ => rfl)
    | (exact Sub.trans hm rfl)
    | (intro _)
    | (extract_lets +onlyGivenNames s1; first | (refine Keeps.cut (t := s1) ?_ ?_; rotate_left; intro hs1; clear_value s1; rotate_right; subst s1) | clear_value s1 | (have hm := s1; clear hm))
    | (with_reducible exact rfl)
    | (with_reducible apply id_keeps)
    | split
    | (with_reducible apply Keeps.upd)
    | (dsimp only)
    | (exact rfl)

theorem leavePage_keeps {m : Nat} {s0 s : State} {x1} (hm : 16 ||| m = m) (h : Keeps m s0 s) : Keeps m s0 (leavePage x1 s) := by
  unfold leavePage
  repeat' first
    | (with_reducible assumption)
    | (with_reducible exact id)
    | (exact in_mask hm rfl)
    | (with_reducible exact fun _ => rfl)
    | (exact Sub.trans hm rfl)
    | (intro _)
    | (extract_lets +onlyGivenNames s1; first | (refine Keeps.cut (t := s1) ?_ ?_; rotate_left; intro hs1; clear_value s1; rotate_right; subst s1) | clear_value s1 | (have hm := s1; clear hm))
    | (with_reducible exact rfl)
    | (with_reducible apply id_keeps)
    | split
    | (with_reducible apply Keeps.upd)
    | (dsimp only)
    | (exact rfl)

theorem disableCheck_keeps {m : Nat} {s0 s : State} {x1} (hm : 8589934612 ||| m = m) (h : Keeps m s0 s) : Keeps m s0 (disableCheck x1 s) := by
  unfold disableCheck
  repeat' first
    | (with_reducible assumption)
    | (exact Sub.trans hm rfl)
    | (intro _)
    | (extract_lets +onlyGivenNames s1; first | (refine Keeps.cut (t := s1) ?_ ?_; rotate_left; intro hs1; clear_value s1; rotate_right; subst s1) | clear_value s1 | (have hm := s1; clear hm))
    | (with_reducible exact rfl)
    | (with_reducible apply setRingState_keeps)
    | (with_reducible apply wrb_keeps)
    | (with_reducible apply id_keeps)
    | split
    | (dsimp only)
    | (exact rfl)

theorem complete_keeps {m : Nat} {s0 s : State} {x1 x2 x3} (hm : 25769803828 ||| m = m) (h : Keeps m s0 s) : Keeps m s0 (complete x1 x2 x3 s) := by
  unfold complete
  repeat' first
    | (with_reducible assumption)
    | (with_reducible exact id)
    | (exact in_mask hm rfl)
    | (with_reducible exact fun _ => rfl)
    | (exact Sub.trans hm rfl)
    | (intro _)
    | (extract_lets +onlyGivenNames s1; first | (refine Keeps.cut (t := s1) ?_ ?_; rotate_left; intro hs1; clear_value s1; rotate_right; subst s1) | clear_value s1 | (have hm := s1; clear hm))
    | (with_reducible exact rfl)
    | (with_reducible apply leavePage_keeps)
    | (with_reducible apply freeChan_keeps)
    | (with_reducible apply drainRing_keeps)
    | (with_reducible apply modJob_keeps)
    | (with_reducible apply id_keeps)
    | split
    | (with_reducible apply Keeps.upd)
    | (dsimp only)
    | (exact rfl)

theorem finish_keeps {m : Nat} {s0 s : State} {x1 x2 x3 x4} (hm : 25769803828 ||| m = m) (h : Keeps m s0 s) : Keeps m s0 (finish x1 x2 x3 x4 s) := by
  unfold finish
  repeat' first
    | (with_reducible assumption)
    | (exact Sub.trans hm rfl)
    | (intro _)
    | (extract_lets +onlyGivenNames s1; first | (refine Keeps.cut (t := s1) ?_ ?_; rotate_left; intro hs1; clear_value s1; rotate_right; subst s1) | clear_value s1 | (have hm := s1; clear hm))
    | (with_reducible exact rfl)
    | (with_reducible apply complete_keeps)
    | (with_reducible apply id_keeps)
    | split
    | (dsimp only)
    | (exact rfl)

theorem readDesc_keeps {m : Nat} {s0 s : State} {x1 x2 x3 x4 x5 x6} (hm : 25769803828 ||| m = m) (h : Keeps m s0 s) (hf : ∀ y0 s, Keeps m s0 s → Keeps m s0 (x6 y0 s)) : Keeps m s0 (readDesc x1 x2 x3 x4 x5 x6 s) := by
  unfold readDesc
  repeat' first
    | (with_reducible assumption)
    | (with_reducible exact id)
    | (exact in_mask hm rfl)
    | (with_reducible exact fun _ => rfl)
    | (exact Sub.trans hm rfl)
    | (intro _)
    | (extract_lets +onlyGivenNames s1; first | (refine Keeps.cut (t := s1) ?_ ?_; rotate_left; intro hs1; clear_value s1; rotate_right; subst s1) | clear_value s1 | (have hm := s1; clear hm))
    | (with_reducible exact rfl)
    | (with_reducible apply ringError_keeps)
    | (with_reducible apply modRing_keeps)
    | (with_reducible apply finish_keeps)
    | (with_reducible apply hf)
    | (with_reducible apply id_keeps)
    | split
    | (with_reducible apply Keeps.upd)
    | (dsimp only)
    | (exact rfl)

end Sys2Proof.Laws
end

