-- ==== Sys2Proof/Laws/Keeps/Dma.lean ====
section
/-! SUPPORT. Every operation of Machine/Dma.lean keeps what Laws/Keeps/Base.lean states. -/

namespace Sys2Proof.Laws
open Sys2Proof Sys2Proof.Machine

theorem addTlb_keeps {m : Nat} {s0 s : State} {x1} (hm : 24 ||| m = m) (h : Keeps m s0 s) : Keeps m s0 (addTlb x1 s) := by
  unfold addTlb
  repeat' first
    | (with_reducible assumption)
    | (with_reducible exact id)
    | (exact in_mask hm rfl)
    | (with_reducible exact fun _ => rfl)
    | (exact Sub.trans hm rfl)
    | (intro _)
    | (extract_lets +onlyGivenNames s1; first | (refine Keeps.cut (t := s1) ?_ ?_; rotate_left; intro hs1; clear_value s1; rotate_right; subst s1) | (refine Keeps.cut2 (t := s1) ?_ ?_; rotate_left; intro hs1; clear_value s1; rotate_right; subst s1) | (refine Keeps.cut3 (t := s1) ?_ ?_; rotate_left; intro hs1; clear_value s1; rotate_right; subst s1) | (refine Keeps.cut1 (t := s1) ?_ ?_; rotate_left; intro hs1; clear_value s1; rotate_right; subst s1) | clear_value s1 | (have hm := s1; clear hm))
    | (with_reducible exact rfl)
    | (with_reducible refine fresh_keeps_eq ?_ ?_ ‹_›)
    | (with_reducible apply fresh_keeps)
    | (with_reducible apply id_keeps)
    | (with_reducible refine Keeps.eq2 ‹_› ?_)
    | (with_reducible refine Keeps.eq3 ‹_› ?_)
    | split
    | (with_reducible apply Keeps.upd)
    | (dsimp only)
    | (exact rfl)

theorem addWalk_keeps {m : Nat} {s0 s : State} {x1} (hm : 24 ||| m = m) (h : Keeps m s0 s) : Keeps m s0 (addWalk x1 s) := by
  unfold addWalk
  repeat' first
    | (with_reducible assumption)
    | (with_reducible exact id)
    | (exact in_mask hm rfl)
    | (with_reducible exact fun _ => rfl)
    | (exact Sub.trans hm rfl)
    | (intro _)
    | (extract_lets +onlyGivenNames s1; first | (refine Keeps.cut (t := s1) ?_ ?_; rotate_left; intro hs1; clear_value s1; rotate_right; subst s1) | (refine Keeps.cut2 (t := s1) ?_ ?_; rotate_left; intro hs1; clear_value s1; rotate_right; subst s1) | (refine Keeps.cut3 (t := s1) ?_ ?_; rotate_left; intro hs1; clear_value s1; rotate_right; subst s1) | (refine Keeps.cut1 (t := s1) ?_ ?_; rotate_left; intro hs1; clear_value s1; rotate_right; subst s1) | clear_value s1 | (have hm := s1; clear hm))
    | (with_reducible exact rfl)
    | (with_reducible refine fresh_keeps_eq ?_ ?_ ‹_›)
    | (with_reducible apply fresh_keeps)
    | (with_reducible apply id_keeps)
    | (with_reducible refine Keeps.eq2 ‹_› ?_)
    | (with_reducible refine Keeps.eq3 ‹_› ?_)
    | split
    | (with_reducible apply Keeps.upd)
    | (dsimp only)
    | (exact rfl)

theorem takeLeaf_keeps {m : Nat} {s0 s : State} {x1 x2 x3} (hm : 24 ||| m = m) (h : Keeps m s0 s) : Keeps m s0 (takeLeaf x1 x2 x3 s).2 := by
  unfold takeLeaf
  repeat' first
    | (with_reducible assumption)
    | (exact Sub.trans hm rfl)
    | (intro _)
    | (extract_lets +onlyGivenNames s1; first | (refine Keeps.cut (t := s1) ?_ ?_; rotate_left; intro hs1; clear_value s1; rotate_right; subst s1) | (refine Keeps.cut2 (t := s1) ?_ ?_; rotate_left; intro hs1; clear_value s1; rotate_right; subst s1) | (refine Keeps.cut3 (t := s1) ?_ ?_; rotate_left; intro hs1; clear_value s1; rotate_right; subst s1) | (refine Keeps.cut1 (t := s1) ?_ ?_; rotate_left; intro hs1; clear_value s1; rotate_right; subst s1) | clear_value s1 | (have hm := s1; clear hm))
    | (with_reducible exact rfl)
    | (with_reducible apply addTlb_keeps)
    | (with_reducible apply id_keeps)
    | (with_reducible refine Keeps.eq2 ‹_› ?_)
    | (with_reducible refine Keeps.eq3 ‹_› ?_)
    | split
    | (dsimp only)
    | (exact rfl)

theorem takeLeaf_keeps_eq {m : Nat} {s0 s s' : State} {x1 x2 x3} {z0} (hm : 24 ||| m = m) (h : Keeps m s0 s) (e : takeLeaf x1 x2 x3 s = (z0, s')) :
    Keeps m s0 s' := by
  have k := takeLeaf_keeps (hm := hm) (h := h) (x1 := x1) (x2 := x2) (x3 := x3)
  rw [e] at k
  exact k

theorem walkL0_keeps {m : Nat} {s0 s : State} {x1 x2 x3 x4 x5} (hm : 28 ||| m = m) (h : Keeps m s0 s) : Keeps m s0 (walkL0 x1 x2 x3 x4 x5 s).2 := by
  unfold walkL0
  repeat' first
    | (with_reducible assumption)
    | (with_reducible exact id)
    | (exact in_mask hm rfl)
    | (with_reducible exact fun _ => rfl)
    | (exact Sub.trans hm rfl)
    | (intro _)
    | (extract_lets +onlyGivenNames s1; first | (refine Keeps.cut (t := s1) ?_ ?_; rotate_left; intro hs1; clear_value s1; rotate_right; subst s1) | (refine Keeps.cut2 (t := s1) ?_ ?_; rotate_left; intro hs1; clear_value s1; rotate_right; subst s1) | (refine Keeps.cut3 (t := s1) ?_ ?_; rotate_left; intro hs1; clear_value s1; rotate_right; subst s1) | (refine Keeps.cut1 (t := s1) ?_ ?_; rotate_left; intro hs1; clear_value s1; rotate_right; subst s1) | clear_value s1 | (have hm := s1; clear hm))
    | (with_reducible exact rfl)
    | (with_reducible apply emit_keeps)
    | (with_reducible refine takeLeaf_keeps_eq ?_ ?_ ‹_›)
    | (with_reducible apply takeLeaf_keeps)
    | (with_reducible apply id_keeps)
    | (with_reducible refine Keeps.eq2 ‹_› ?_)
    | (with_reducible refine Keeps.eq3 ‹_› ?_)
    | split
    | (with_reducible apply Keeps.upd)
    | (dsimp only)
    | (exact rfl)

theorem walkL0_keeps_eq {m : Nat} {s0 s s' : State} {x1 x2 x3 x4 x5} {z0} (hm : 28 ||| m = m) (h : Keeps m s0 s) (e : walkL0 x1 x2 x3 x4 x5 s = (z0, s')) :
    Keeps m s0 s' := by
  have k := walkL0_keeps (hm := hm) (h := h) (x1 := x1) (x2 := x2) (x3 := x3) (x4 := x4) (x5 := x5)
  rw [e] at k
  exact k

theorem walkL1_keeps {m : Nat} {s0 s : State} {x1 x2 x3 x4 x5} (hm : 28 ||| m = m) (h : Keeps m s0 s) : Keeps m s0 (walkL1 x1 x2 x3 x4 x5 s).2 := by
  unfold walkL1
  repeat' first
    | (with_reducible assumption)
    | (with_reducible exact id)
    | (exact in_mask hm rfl)
    | (with_reducible exact fun _ => rfl)
    | (exact Sub.trans hm rfl)
    | (intro _)
    | (extract_lets +onlyGivenNames s1; first | (refine Keeps.cut (t := s1) ?_ ?_; rotate_left; intro hs1; clear_value s1; rotate_right; subst s1) | (refine Keeps.cut2 (t := s1) ?_ ?_; rotate_left; intro hs1; clear_value s1; rotate_right; subst s1) | (refine Keeps.cut3 (t := s1) ?_ ?_; rotate_left; intro hs1; clear_value s1; rotate_right; subst s1) | (refine Keeps.cut1 (t := s1) ?_ ?_; rotate_left; intro hs1; clear_value s1; rotate_right; subst s1) | clear_value s1 | (have hm := s1; clear hm))
    | (with_reducible exact rfl)
    | (with_reducible apply emit_keeps)
    | (with_reducible refine takeLeaf_keeps_eq ?_ ?_ ‹_›)
    | (with_reducible apply takeLeaf_keeps)
    | (with_reducible apply addWalk_keeps)
    | (with_reducible refine walkL0_keeps_eq ?_ ?_ ‹_›)
    | (with_reducible apply walkL0_keeps)
    | (with_reducible apply id_keeps)
    | (with_reducible refine Keeps.eq2 ‹_› ?_)
    | (with_reducible refine Keeps.eq3 ‹_› ?_)
    | split
    | (with_reducible apply Keeps.upd)
    | (dsimp only)
    | (exact rfl)

theorem walkL1_keeps_eq {m : Nat} {s0 s s' : State} {x1 x2 x3 x4 x5} {z0} (hm : 28 ||| m = m) (h : Keeps m s0 s) (e : walkL1 x1 x2 x3 x4 x5 s = (z0, s')) :
    Keeps m s0 s' := by
  have k := walkL1_keeps (hm := hm) (h := h) (x1 := x1) (x2 := x2) (x3 := x3) (x4 := x4) (x5 := x5)
  rw [e] at k
  exact k

theorem translateVa_keeps {m : Nat} {s0 s : State} {x1 x2 x3 x4} (hm : 28 ||| m = m) (h : Keeps m s0 s) : Keeps m s0 (translateVa x1 x2 x3 x4 s).2 := by
  unfold translateVa
  repeat' first
    | (with_reducible assumption)
    | (with_reducible exact id)
    | (exact in_mask hm rfl)
    | (with_reducible exact fun _ => rfl)
    | (exact Sub.trans hm rfl)
    | (intro _)
    | (extract_lets +onlyGivenNames s1; first | (refine Keeps.cut (t := s1) ?_ ?_; rotate_left; intro hs1; clear_value s1; rotate_right; subst s1) | (refine Keeps.cut2 (t := s1) ?_ ?_; rotate_left; intro hs1; clear_value s1; rotate_right; subst s1) | (refine Keeps.cut3 (t := s1) ?_ ?_; rotate_left; intro hs1; clear_value s1; rotate_right; subst s1) | (refine Keeps.cut1 (t := s1) ?_ ?_; rotate_left; intro hs1; clear_value s1; rotate_right; subst s1) | clear_value s1 | (have hm := s1; clear hm))
    | (with_reducible exact rfl)
    | (with_reducible refine walkL0_keeps_eq ?_ ?_ ‹_›)
    | (with_reducible apply walkL0_keeps)
    | (with_reducible refine walkL1_keeps_eq ?_ ?_ ‹_›)
    | (with_reducible apply walkL1_keeps)
    | (with_reducible apply emit_keeps)
    | (with_reducible apply addWalk_keeps)
    | (with_reducible apply id_keeps)
    | (with_reducible refine Keeps.eq2 ‹_› ?_)
    | (with_reducible refine Keeps.eq3 ‹_› ?_)
    | split
    | (with_reducible apply Keeps.upd)
    | (dsimp only)
    | (exact rfl)

theorem translateVa_keeps_eq {m : Nat} {s0 s s' : State} {x1 x2 x3 x4} {z0} (hm : 28 ||| m = m) (h : Keeps m s0 s) (e : translateVa x1 x2 x3 x4 s = (z0, s')) :
    Keeps m s0 s' := by
  have k := translateVa_keeps (hm := hm) (h := h) (x1 := x1) (x2 := x2) (x3 := x3) (x4 := x4)
  rw [e] at k
  exact k

theorem startXfer_keeps {m : Nat} {s0 s : State} {x1 x2 x3 x4 x5 x6} (hm : 16 ||| m = m) (h : Keeps m s0 s) : Keeps m s0 (startXfer x1 x2 x3 x4 x5 x6 s) := by
  unfold startXfer
  repeat' first
    | (with_reducible assumption)
    | (with_reducible exact id)
    | (exact in_mask hm rfl)
    | (with_reducible exact fun _ => rfl)
    | (exact Sub.trans hm rfl)
    | (intro _)
    | (extract_lets +onlyGivenNames s1; first | (refine Keeps.cut (t := s1) ?_ ?_; rotate_left; intro hs1; clear_value s1; rotate_right; subst s1) | (refine Keeps.cut2 (t := s1) ?_ ?_; rotate_left; intro hs1; clear_value s1; rotate_right; subst s1) | (refine Keeps.cut3 (t := s1) ?_ ?_; rotate_left; intro hs1; clear_value s1; rotate_right; subst s1) | (refine Keeps.cut1 (t := s1) ?_ ?_; rotate_left; intro hs1; clear_value s1; rotate_right; subst s1) | clear_value s1 | (have hm := s1; clear hm))
    | (with_reducible exact rfl)
    | (with_reducible apply modJob_keeps)
    | (with_reducible apply id_keeps)
    | (with_reducible refine Keeps.eq2 ‹_› ?_)
    | (with_reducible refine Keeps.eq3 ‹_› ?_)
    | split
    | (with_reducible apply Keeps.upd)
    | (dsimp only)
    | (exact rfl)

theorem modXfer_keeps {m : Nat} {s0 s : State} {x1 x2 x3} (hm : 16 ||| m = m) (h : Keeps m s0 s) : Keeps m s0 (modXfer x1 x2 x3 s) := by
  unfold modXfer
  repeat' first
    | (with_reducible assumption)
    | (with_reducible exact id)
    | (exact in_mask hm rfl)
    | (with_reducible exact fun _ => rfl)
    | (exact Sub.trans hm rfl)
    | (intro _)
    | (extract_lets +onlyGivenNames s1; first | (refine Keeps.cut (t := s1) ?_ ?_; rotate_left; intro hs1; clear_value s1; rotate_right; subst s1) | (refine Keeps.cut2 (t := s1) ?_ ?_; rotate_left; intro hs1; clear_value s1; rotate_right; subst s1) | (refine Keeps.cut3 (t := s1) ?_ ?_; rotate_left; intro hs1; clear_value s1; rotate_right; subst s1) | (refine Keeps.cut1 (t := s1) ?_ ?_; rotate_left; intro hs1; clear_value s1; rotate_right; subst s1) | clear_value s1 | (have hm := s1; clear hm))
    | (with_reducible exact rfl)
    | (with_reducible apply modJob_keeps)
    | (with_reducible apply id_keeps)
    | (with_reducible refine Keeps.eq2 ‹_› ?_)
    | (with_reducible refine Keeps.eq3 ‹_› ?_)
    | split
    | (with_reducible apply Keeps.upd)
    | (dsimp only)
    | (exact rfl)

theorem giveUp_keeps {m : Nat} {s0 s : State} {x1 x2} (hm : 4112 ||| m = m) (h : Keeps m s0 s) : Keeps m s0 (giveUp x1 x2 s) := by
  unfold giveUp
  repeat' first
    | (with_reducible assumption)
    | (with_reducible exact id)
    | (exact in_mask hm rfl)
    | (with_reducible exact fun _ => rfl)
    | (exact Sub.trans hm rfl)
    | (intro _)
    | (extract_lets +onlyGivenNames s1; first | (refine Keeps.cut (t := s1) ?_ ?_; rotate_left; intro hs1; clear_value s1; rotate_right; subst s1) | (refine Keeps.cut2 (t := s1) ?_ ?_; rotate_left; intro hs1; clear_value s1; rotate_right; subst s1) | (refine Keeps.cut3 (t := s1) ?_ ?_; rotate_left; intro hs1; clear_value s1; rotate_right; subst s1) | (refine Keeps.cut1 (t := s1) ?_ ?_; rotate_left; intro hs1; clear_value s1; rotate_right; subst s1) | clear_value s1 | (have hm := s1; clear hm))
    | (with_reducible exact rfl)
    | (with_reducible apply leavePage_keeps)
    | (with_reducible apply freeChan_keeps)
    | (with_reducible apply modRing_keeps)
    | (with_reducible apply id_keeps)
    | (with_reducible refine Keeps.eq2 ‹_› ?_)
    | (with_reducible refine Keeps.eq3 ‹_› ?_)
    | split
    | (with_reducible apply Keeps.upd)
    | (dsimp only)
    | (exact rfl)

theorem ringFault_keeps {m : Nat} {s0 s : State} {x1 x2 x3 x4 x5} (hm : 25769807924 ||| m = m) (h : Keeps m s0 s) : Keeps m s0 (ringFault x1 x2 x3 x4 x5 s) := by
  unfold ringFault
  repeat' first
    | (with_reducible assumption)
    | (with_reducible exact id)
    | (exact in_mask hm rfl)
    | (with_reducible exact fun _ => rfl)
    | (exact Sub.trans hm rfl)
    | (intro _)
    | (extract_lets +onlyGivenNames s1; first | (refine Keeps.cut (t := s1) ?_ ?_; rotate_left; intro hs1; clear_value s1; rotate_right; subst s1) | (refine Keeps.cut2 (t := s1) ?_ ?_; rotate_left; intro hs1; clear_value s1; rotate_right; subst s1) | (refine Keeps.cut3 (t := s1) ?_ ?_; rotate_left; intro hs1; clear_value s1; rotate_right; subst s1) | (refine Keeps.cut1 (t := s1) ?_ ?_; rotate_left; intro hs1; clear_value s1; rotate_right; subst s1) | clear_value s1 | (have hm := s1; clear hm))
    | (with_reducible exact rfl)
    | (with_reducible apply freeChan_keeps)
    | (with_reducible apply modXfer_keeps)
    | (with_reducible apply wr_keeps)
    | (with_reducible apply giveUp_keeps)
    | (with_reducible apply modRing_keeps)
    | (with_reducible apply setRingState_keeps)
    | (with_reducible apply postEvent_keeps)
    | (with_reducible apply id_keeps)
    | (with_reducible refine Keeps.eq2 ‹_› ?_)
    | (with_reducible refine Keeps.eq3 ‹_› ?_)
    | split
    | (with_reducible apply Keeps.upd)
    | (dsimp only)
    | (exact rfl)

theorem runPage_keeps {m : Nat} {s0 s : State} {x1 x2 x3 x4} (hm : 20 ||| m = m) (h : Keeps m s0 s) : Keeps m s0 (runPage x1 x2 x3 x4 s) := by
  unfold runPage
  repeat' first
    | (with_reducible assumption)
    | (with_reducible exact id)
    | (exact in_mask hm rfl)
    | (with_reducible exact fun _ => rfl)
    | (exact Sub.trans hm rfl)
    | (intro _)
    | (extract_lets +onlyGivenNames s1; first | (refine Keeps.cut (t := s1) ?_ ?_; rotate_left; intro hs1; clear_value s1; rotate_right; subst s1) | (refine Keeps.cut2 (t := s1) ?_ ?_; rotate_left; intro hs1; clear_value s1; rotate_right; subst s1) | (refine Keeps.cut3 (t := s1) ?_ ?_; rotate_left; intro hs1; clear_value s1; rotate_right; subst s1) | (refine Keeps.cut1 (t := s1) ?_ ?_; rotate_left; intro hs1; clear_value s1; rotate_right; subst s1) | clear_value s1 | (have hm := s1; clear hm))
    | (with_reducible exact rfl)
    | (with_reducible apply modXfer_keeps)
    | (with_reducible apply emit_keeps)
    | (with_reducible apply id_keeps)
    | (with_reducible refine Keeps.eq2 ‹_› ?_)
    | (with_reducible refine Keeps.eq3 ‹_› ?_)
    | split
    | (with_reducible apply Keeps.upd)
    | (dsimp only)
    | (exact rfl)

theorem writePage_keeps {m : Nat} {s0 s : State} {x1 x2} (hm : 4 ||| m = m) (h : Keeps m s0 s) : Keeps m s0 (writePage x1 x2 s) := by
  unfold writePage
  repeat' first
    | (with_reducible assumption)
    | (exact Sub.trans hm rfl)
    | (intro _)
    | (with_reducible exact rfl)
    | (with_reducible apply emit_keeps)
    | (with_reducible apply id_keeps)
    | (with_reducible refine Keeps.eq2 ‹_› ?_)
    | (with_reducible refine Keeps.eq3 ‹_› ?_)
    | split
    | (dsimp only)
    | (exact rfl)

theorem enterPage_keeps {m : Nat} {s0 s : State} {x1 x2 x3 x4} (hm : 25769807932 ||| m = m) (h : Keeps m s0 s) : Keeps m s0 (enterPage x1 x2 x3 x4 s) := by
  unfold enterPage
  repeat' first
    | (with_reducible assumption)
    | (with_reducible exact id)
    | (exact in_mask hm rfl)
    | (with_reducible exact fun _ => rfl)
    | (exact Sub.trans hm rfl)
    | (intro _)
    | (extract_lets +onlyGivenNames s1; first | (refine Keeps.cut (t := s1) ?_ ?_; rotate_left; intro hs1; clear_value s1; rotate_right; subst s1) | (refine Keeps.cut2 (t := s1) ?_ ?_; rotate_left; intro hs1; clear_value s1; rotate_right; subst s1) | (refine Keeps.cut3 (t := s1) ?_ ?_; rotate_left; intro hs1; clear_value s1; rotate_right; subst s1) | (refine Keeps.cut1 (t := s1) ?_ ?_; rotate_left; intro hs1; clear_value s1; rotate_right; subst s1) | clear_value s1 | (have hm := s1; clear hm))
    | (with_reducible exact rfl)
    | (with_reducible refine translateVa_keeps_eq ?_ ?_ ‹_›)
    | (with_reducible apply translateVa_keeps)
    | (with_reducible apply ringFault_keeps)
    | (with_reducible apply runPage_keeps)
    | (with_reducible apply id_keeps)
    | (with_reducible refine Keeps.eq2 ‹_› ?_)
    | (with_reducible refine Keeps.eq3 ‹_› ?_)
    | split
    | (with_reducible apply Keeps.upd)
    | (dsimp only)
    | (exact rfl)

theorem yieldXfer_keeps {m : Nat} {s0 s : State} {x1 x2 x3 x4} (hm : 25769803828 ||| m = m) (h : Keeps m s0 s) : Keeps m s0 (yieldXfer x1 x2 x3 x4 s) := by
  unfold yieldXfer
  repeat' first
    | (with_reducible assumption)
    | (with_reducible exact id)
    | (exact in_mask hm rfl)
    | (with_reducible exact fun _ => rfl)
    | (exact Sub.trans hm rfl)
    | (intro _)
    | (extract_lets +onlyGivenNames s1; first | (refine Keeps.cut (t := s1) ?_ ?_; rotate_left; intro hs1; clear_value s1; rotate_right; subst s1) | (refine Keeps.cut2 (t := s1) ?_ ?_; rotate_left; intro hs1; clear_value s1; rotate_right; subst s1) | (refine Keeps.cut3 (t := s1) ?_ ?_; rotate_left; intro hs1; clear_value s1; rotate_right; subst s1) | (refine Keeps.cut1 (t := s1) ?_ ?_; rotate_left; intro hs1; clear_value s1; rotate_right; subst s1) | clear_value s1 | (have hm := s1; clear hm))
    | (with_reducible exact rfl)
    | (with_reducible apply modXfer_keeps)
    | (with_reducible apply wrb_keeps)
    | (with_reducible apply freeChan_keeps)
    | (with_reducible apply postEvent_keeps)
    | (with_reducible apply writeStatus_keeps)
    | (with_reducible apply id_keeps)
    | (with_reducible refine Keeps.eq2 ‹_› ?_)
    | (with_reducible refine Keeps.eq3 ‹_› ?_)
    | split
    | (with_reducible apply Keeps.upd)
    | (dsimp only)
    | (exact rfl)

theorem grantChannel_keeps {m : Nat} {s0 s : State} {x1} (hm : 25769807932 ||| m = m) (h : Keeps m s0 s) : Keeps m s0 (grantChannel x1 s) := by
  unfold grantChannel
  repeat' first
    | (with_reducible assumption)
    | (with_reducible exact id)
    | (exact in_mask hm rfl)
    | (with_reducible exact fun _ => rfl)
    | (exact Sub.trans hm rfl)
    | (intro _)
    | (extract_lets +onlyGivenNames s1; first | (refine Keeps.cut (t := s1) ?_ ?_; rotate_left; intro hs1; clear_value s1; rotate_right; subst s1) | (refine Keeps.cut2 (t := s1) ?_ ?_; rotate_left; intro hs1; clear_value s1; rotate_right; subst s1) | (refine Keeps.cut3 (t := s1) ?_ ?_; rotate_left; intro hs1; clear_value s1; rotate_right; subst s1) | (refine Keeps.cut1 (t := s1) ?_ ?_; rotate_left; intro hs1; clear_value s1; rotate_right; subst s1) | clear_value s1 | (have hm := s1; clear hm))
    | (with_reducible exact rfl)
    | (with_reducible apply wrb_keeps)
    | (with_reducible apply modXfer_keeps)
    | (with_reducible apply enterPage_keeps)
    | (with_reducible apply id_keeps)
    | (with_reducible refine Keeps.eq2 ‹_› ?_)
    | (with_reducible refine Keeps.eq3 ‹_› ?_)
    | split
    | (with_reducible apply Keeps.upd)
    | (dsimp only)
    | (exact rfl)

theorem breakPoint_keeps {m : Nat} {s0 s : State} {x1 x2 x3} (hm : 25769807932 ||| m = m) (h : Keeps m s0 s) (hf : ∀ y0 y1 s, Keeps m s0 s → Keeps m s0 (x3 y0 y1 s)) : Keeps m s0 (breakPoint x1 x2 x3 s) := by
  unfold breakPoint
  repeat' first
    | (with_reducible assumption)
    | (with_reducible exact id)
    | (exact in_mask hm rfl)
    | (with_reducible exact fun _ => rfl)
    | (exact Sub.trans hm rfl)
    | (intro _)
    | (extract_lets +onlyGivenNames s1; first | (refine Keeps.cut (t := s1) ?_ ?_; rotate_left; intro hs1; clear_value s1; rotate_right; subst s1) | (refine Keeps.cut2 (t := s1) ?_ ?_; rotate_left; intro hs1; clear_value s1; rotate_right; subst s1) | (refine Keeps.cut3 (t := s1) ?_ ?_; rotate_left; intro hs1; clear_value s1; rotate_right; subst s1) | (refine Keeps.cut1 (t := s1) ?_ ?_; rotate_left; intro hs1; clear_value s1; rotate_right; subst s1) | clear_value s1 | (have hm := s1; clear hm))
    | (with_reducible exact rfl)
    | (with_reducible apply writePage_keeps)
    | (with_reducible apply leavePage_keeps)
    | (with_reducible apply modXfer_keeps)
    | (with_reducible apply yieldXfer_keeps)
    | (with_reducible apply enterPage_keeps)
    | (with_reducible apply hf)
    | (with_reducible apply id_keeps)
    | (with_reducible refine Keeps.eq2 ‹_› ?_)
    | (with_reducible refine Keeps.eq3 ‹_› ?_)
    | split
    | (with_reducible apply Keeps.upd)
    | (dsimp only)
    | (exact rfl)

theorem endXfer_keeps {m : Nat} {s0 s : State} {x1 x2 x3} (hm : 20 ||| m = m) (h : Keeps m s0 s) : Keeps m s0 (endXfer x1 x2 x3 s) := by
  unfold endXfer
  repeat' first
    | (with_reducible assumption)
    | (with_reducible exact id)
    | (exact in_mask hm rfl)
    | (with_reducible exact fun _ => rfl)
    | (exact Sub.trans hm rfl)
    | (intro _)
    | (extract_lets +onlyGivenNames s1; first | (refine Keeps.cut (t := s1) ?_ ?_; rotate_left; intro hs1; clear_value s1; rotate_right; subst s1) | (refine Keeps.cut2 (t := s1) ?_ ?_; rotate_left; intro hs1; clear_value s1; rotate_right; subst s1) | (refine Keeps.cut3 (t := s1) ?_ ?_; rotate_left; intro hs1; clear_value s1; rotate_right; subst s1) | (refine Keeps.cut1 (t := s1) ?_ ?_; rotate_left; intro hs1; clear_value s1; rotate_right; subst s1) | clear_value s1 | (have hm := s1; clear hm))
    | (with_reducible exact rfl)
    | (with_reducible apply writePage_keeps)
    | (with_reducible apply modJob_keeps)
    | (with_reducible apply leavePage_keeps)
    | (with_reducible apply freeChan_keeps)
    | (with_reducible apply id_keeps)
    | (with_reducible refine Keeps.eq2 ‹_› ?_)
    | (with_reducible refine Keeps.eq3 ‹_› ?_)
    | split
    | (with_reducible apply Keeps.upd)
    | (dsimp only)
    | (exact rfl)

theorem invalidate_keeps {m : Nat} {s0 s : State} {x1 x2 x3} (hm : 16 ||| m = m) (h : Keeps m s0 s) : Keeps m s0 (invalidate x1 x2 x3 s) := by
  unfold invalidate
  repeat' first
    | (with_reducible assumption)
    | (with_reducible exact id)
    | (exact in_mask hm rfl)
    | (with_reducible exact fun _ => rfl)
    | (exact Sub.trans hm rfl)
    | (intro _)
    | (extract_lets +onlyGivenNames s1; first | (refine Keeps.cut (t := s1) ?_ ?_; rotate_left; intro hs1; clear_value s1; rotate_right; subst s1) | (refine Keeps.cut2 (t := s1) ?_ ?_; rotate_left; intro hs1; clear_value s1; rotate_right; subst s1) | (refine Keeps.cut3 (t := s1) ?_ ?_; rotate_left; intro hs1; clear_value s1; rotate_right; subst s1) | (refine Keeps.cut1 (t := s1) ?_ ?_; rotate_left; intro hs1; clear_value s1; rotate_right; subst s1) | clear_value s1 | (have hm := s1; clear hm))
    | (with_reducible exact rfl)
    | (with_reducible apply id_keeps)
    | (with_reducible refine Keeps.eq2 ‹_› ?_)
    | (with_reducible refine Keeps.eq3 ‹_› ?_)
    | split
    | (with_reducible apply Keeps.upd)
    | (dsimp only)
    | (exact rfl)

end Sys2Proof.Laws
end

