-- ==== Sys2Proof/Laws/Keeps/Streams.lean ====
section
/-! SUPPORT. Every operation of Machine/Streams.lean keeps what Laws/Keeps/Base.lean states. -/

namespace Sys2Proof.Laws
open Sys2Proof Sys2Proof.Machine

theorem modStream_keeps {m : Nat} {s0 s : State} {x1 x2} (hm : 16 ||| m = m) (h : Keeps m s0 s) : Keeps m s0 (modStream x1 x2 s) := by
  unfold modStream
  repeat' first
    | (with_reducible assumption)
    | (with_reducible exact id)
    | (exact in_mask hm rfl)
    | (with_reducible exact fun _ => rfl)
    | (exact Sub.trans hm rfl)
    | (intro _)
    | (extract_lets +onlyGivenNames s1; first | (refine Keeps.cut (t := s1) ?_ ?_; rotate_left; intro hs1; clear_value s1; rotate_right; subst s1) | (refine Keeps.cut2 (t := s1) ?_ ?_; rotate_left; intro hs1; clear_value s1; rotate_right; subst s1) | (refine Keeps.cut3 (t := s1) ?_ ?_; rotate_left; intro hs1; clear_value s1; rotate_right; subst s1) | (refine Keeps.cut1 (t := s1) ?_ ?_; rotate_left; intro hs1; clear_value s1; rotate_right; subst s1) | clear_value s1 | (have hm := s1; clear hm))
    | (with_reducible exact rfl)
    | (with_reducible apply id_keeps)
    | (with_reducible refine Keeps.eq2 ‹_› ?_)
    | (with_reducible refine Keeps.eq3 ‹_› ?_)
    | split
    | (with_reducible apply Keeps.upd)
    | (dsimp only)
    | (exact rfl)

theorem closeBuffer_keeps {m : Nat} {s0 s : State} {x1 x2} (hm : 16 ||| m = m) (h : Keeps m s0 s) : Keeps m s0 (closeBuffer x1 x2 s) := by
  unfold closeBuffer
  repeat' first
    | (with_reducible assumption)
    | (exact Sub.trans hm rfl)
    | (intro _)
    | (with_reducible exact rfl)
    | (with_reducible apply startXfer_keeps)
    | (with_reducible apply id_keeps)
    | (with_reducible refine Keeps.eq2 ‹_› ?_)
    | (with_reducible refine Keeps.eq3 ‹_› ?_)
    | split
    | (dsimp only)
    | (exact rfl)

theorem pumpStream_keeps {m : Nat} {s0 s : State} {x1 x2} (hm : 16 ||| m = m) (h : Keeps m s0 s) : Keeps m s0 (pumpStream x1 x2 s) := by
  induction x2 generalizing s  with
  | zero =>
    rw [pumpStream]
    repeat' first
      | (with_reducible assumption)
      | (with_reducible exact id)
      | (exact in_mask hm rfl)
      | (with_reducible exact fun _ => rfl)
      | (exact Sub.trans hm rfl)
      | (intro _)
      | (extract_lets +onlyGivenNames s1; first | (refine Keeps.cut (t := s1) ?_ ?_; rotate_left; intro hs1; clear_value s1; rotate_right; subst s1) | (refine Keeps.cut2 (t := s1) ?_ ?_; rotate_left; intro hs1; clear_value s1; rotate_right; subst s1) | (refine Keeps.cut3 (t := s1) ?_ ?_; rotate_left; intro hs1; clear_value s1; rotate_right; subst s1) | (refine Keeps.cut1 (t := s1) ?_ ?_; rotate_left; intro hs1; clear_value s1; rotate_right; subst s1) | clear_value s1 | (have hm := s1; clear hm))
      | (with_reducible exact rfl)
      | (with_reducible apply modStream_keeps)
      | (with_reducible apply modJob_keeps)
      | (with_reducible apply closeBuffer_keeps)
      | (with_reducible apply id_keeps)
      | (with_reducible refine Keeps.eq2 ‹_› ?_)
      | (with_reducible refine Keeps.eq3 ‹_› ?_)
      | split
      | (with_reducible apply Keeps.upd)
      | (dsimp only)
      | (exact rfl)
  | succ n ih =>
    rw [pumpStream]
    repeat' first
      | (with_reducible apply ih)
      | (with_reducible assumption)
      | (with_reducible exact id)
      | (exact in_mask hm rfl)
      | (with_reducible exact fun _ => rfl)
      | (exact Sub.trans hm rfl)
      | (intro _)
      | (extract_lets +onlyGivenNames s1; first | (refine Keeps.cut (t := s1) ?_ ?_; rotate_left; intro hs1; clear_value s1; rotate_right; subst s1) | (refine Keeps.cut2 (t := s1) ?_ ?_; rotate_left; intro hs1; clear_value s1; rotate_right; subst s1) | (refine Keeps.cut3 (t := s1) ?_ ?_; rotate_left; intro hs1; clear_value s1; rotate_right; subst s1) | (refine Keeps.cut1 (t := s1) ?_ ?_; rotate_left; intro hs1; clear_value s1; rotate_right; subst s1) | clear_value s1 | (have hm := s1; clear hm))
      | (with_reducible exact rfl)
      | (with_reducible apply modStream_keeps)
      | (with_reducible apply modJob_keeps)
      | (with_reducible apply closeBuffer_keeps)
      | (with_reducible apply id_keeps)
      | (with_reducible refine Keeps.eq2 ‹_› ?_)
      | (with_reducible refine Keeps.eq3 ‹_› ?_)
      | split
      | (with_reducible apply Keeps.upd)
      | (dsimp only)
      | (exact rfl)

theorem uploadRecord_keeps {m : Nat} {s0 s : State} {x1 x2} (hm : 25769803828 ||| m = m) (h : Keeps m s0 s) : Keeps m s0 (uploadRecord x1 x2 s) := by
  unfold uploadRecord
  repeat' first
    | (with_reducible assumption)
    | (with_reducible exact id)
    | (exact in_mask hm rfl)
    | (with_reducible exact fun _ => rfl)
    | (exact Sub.trans hm rfl)
    | (intro _)
    | (extract_lets +onlyGivenNames s1; first | (refine Keeps.cut (t := s1) ?_ ?_; rotate_left; intro hs1; clear_value s1; rotate_right; subst s1) | (refine Keeps.cut2 (t := s1) ?_ ?_; rotate_left; intro hs1; clear_value s1; rotate_right; subst s1) | (refine Keeps.cut3 (t := s1) ?_ ?_; rotate_left; intro hs1; clear_value s1; rotate_right; subst s1) | (refine Keeps.cut1 (t := s1) ?_ ?_; rotate_left; intro hs1; clear_value s1; rotate_right; subst s1) | clear_value s1 | (have hm := s1; clear hm))
    | (with_reducible exact rfl)
    | (with_reducible apply emit_keeps)
    | (with_reducible apply modStream_keeps)
    | (with_reducible apply pumpStream_keeps)
    | (with_reducible apply postEvent_keeps)
    | (with_reducible apply id_keeps)
    | (with_reducible refine Keeps.eq2 ‹_› ?_)
    | (with_reducible refine Keeps.eq3 ‹_› ?_)
    | split
    | (with_reducible apply Keeps.upd)
    | (dsimp only)
    | (exact rfl)

theorem doUploadBuffer_keeps {m : Nat} {s0 s : State} {x1 x2} (hm : 25769803828 ||| m = m) (h : Keeps m s0 s) : Keeps m s0 (doUploadBuffer x1 x2 s) := by
  unfold doUploadBuffer
  repeat' first
    | (with_reducible assumption)
    | (exact Sub.trans hm rfl)
    | (intro _)
    | (extract_lets +onlyGivenNames s1; first | (refine Keeps.cut (t := s1) ?_ ?_; rotate_left; intro hs1; clear_value s1; rotate_right; subst s1) | (refine Keeps.cut2 (t := s1) ?_ ?_; rotate_left; intro hs1; clear_value s1; rotate_right; subst s1) | (refine Keeps.cut3 (t := s1) ?_ ?_; rotate_left; intro hs1; clear_value s1; rotate_right; subst s1) | (refine Keeps.cut1 (t := s1) ?_ ?_; rotate_left; intro hs1; clear_value s1; rotate_right; subst s1) | clear_value s1 | (have hm := s1; clear hm))
    | (with_reducible exact rfl)
    | (with_reducible apply readDesc_keeps)
    | (with_reducible apply pumpStream_keeps)
    | (with_reducible apply id_keeps)
    | (with_reducible refine Keeps.eq2 ‹_› ?_)
    | (with_reducible refine Keeps.eq3 ‹_› ?_)
    | split
    | (dsimp only)
    | (exact rfl)

theorem doUploadBufferTimeout_keeps {m : Nat} {s0 s : State} {x1} (hm : 16 ||| m = m) (h : Keeps m s0 s) : Keeps m s0 (doUploadBufferTimeout x1 s) := by
  unfold doUploadBufferTimeout
  repeat' first
    | (with_reducible assumption)
    | (with_reducible exact id)
    | (exact in_mask hm rfl)
    | (with_reducible exact fun _ => rfl)
    | (exact Sub.trans hm rfl)
    | (intro _)
    | (extract_lets +onlyGivenNames s1; first | (refine Keeps.cut (t := s1) ?_ ?_; rotate_left; intro hs1; clear_value s1; rotate_right; subst s1) | (refine Keeps.cut2 (t := s1) ?_ ?_; rotate_left; intro hs1; clear_value s1; rotate_right; subst s1) | (refine Keeps.cut3 (t := s1) ?_ ?_; rotate_left; intro hs1; clear_value s1; rotate_right; subst s1) | (refine Keeps.cut1 (t := s1) ?_ ?_; rotate_left; intro hs1; clear_value s1; rotate_right; subst s1) | clear_value s1 | (have hm := s1; clear hm))
    | (with_reducible exact rfl)
    | (with_reducible apply closeBuffer_keeps)
    | (with_reducible apply id_keeps)
    | (with_reducible refine Keeps.eq2 ‹_› ?_)
    | (with_reducible refine Keeps.eq3 ‹_› ?_)
    | split
    | (with_reducible apply Keeps.upd)
    | (dsimp only)
    | (exact rfl)

theorem uploadBufferDone_keeps {m : Nat} {s0 s : State} {x1 x2} (hm : 25769803828 ||| m = m) (h : Keeps m s0 s) : Keeps m s0 (uploadBufferDone x1 x2 s) := by
  unfold uploadBufferDone
  repeat' first
    | (with_reducible assumption)
    | (with_reducible exact id)
    | (exact in_mask hm rfl)
    | (with_reducible exact fun _ => rfl)
    | (exact Sub.trans hm rfl)
    | (intro _)
    | (extract_lets +onlyGivenNames s1; first | (refine Keeps.cut (t := s1) ?_ ?_; rotate_left; intro hs1; clear_value s1; rotate_right; subst s1) | (refine Keeps.cut2 (t := s1) ?_ ?_; rotate_left; intro hs1; clear_value s1; rotate_right; subst s1) | (refine Keeps.cut3 (t := s1) ?_ ?_; rotate_left; intro hs1; clear_value s1; rotate_right; subst s1) | (refine Keeps.cut1 (t := s1) ?_ ?_; rotate_left; intro hs1; clear_value s1; rotate_right; subst s1) | clear_value s1 | (have hm := s1; clear hm))
    | (with_reducible exact rfl)
    | (with_reducible apply modStream_keeps)
    | (with_reducible apply complete_keeps)
    | (with_reducible apply pumpStream_keeps)
    | (with_reducible apply id_keeps)
    | (with_reducible refine Keeps.eq2 ‹_› ?_)
    | (with_reducible refine Keeps.eq3 ‹_› ?_)
    | split
    | (with_reducible apply Keeps.upd)
    | (dsimp only)
    | (exact rfl)

end Sys2Proof.Laws
end

