-- ==== Sys2Proof/Laws/Keeps/PassBase.lean ====
section
/-! SUPPORT. Every operation of Machine/PassBase.lean keeps what Laws/Keeps/Base.lean states. -/

namespace Sys2Proof.Laws
open Sys2Proof Sys2Proof.Machine

theorem modPassOf_keeps {m : Nat} {s0 s : State} {x1 x2} (hm : 4096 ||| m = m) (h : Keeps m s0 s) : Keeps m s0 (modPassOf x1 x2 s) := by
  unfold modPassOf
  repeat' first
    | (with_reducible assumption)
    | (with_reducible exact id)
    | (exact in_mask hm rfl)
    | (with_reducible exact fun _ => rfl)
    | (exact Sub.trans hm rfl)
    | (intro _)
    | (extract_lets +onlyGivenNames s1; first | (refine Keeps.cut (t := s1) ?_ ?_; rotate_left; intro hs1; clear_value s1; rotate_right; subst s1) | clear_value s1 | (have hm := s1; clear hm))
    | (with_reducible exact rfl)
    | (with_reducible apply id_keeps)
    | split
    | (with_reducible apply Keeps.upd)
    | (dsimp only)
    | (exact rfl)

theorem modPass_keeps {m : Nat} {s0 s : State} {x1} (hm : 4096 ||| m = m) (h : Keeps m s0 s) : Keeps m s0 (modPass x1 s) := by
  unfold modPass
  repeat' first
    | (with_reducible assumption)
    | (with_reducible exact id)
    | (exact in_mask hm rfl)
    | (with_reducible exact fun _ => rfl)
    | (exact Sub.trans hm rfl)
    | (intro _)
    | (extract_lets +onlyGivenNames s1; first | (refine Keeps.cut (t := s1) ?_ ?_; rotate_left; intro hs1; clear_value s1; rotate_right; subst s1) | clear_value s1 | (have hm := s1; clear hm))
    | (with_reducible exact rfl)
    | (with_reducible apply id_keeps)
    | split
    | (with_reducible apply Keeps.upd)
    | (dsimp only)
    | (exact rfl)

theorem modMnd_keeps {m : Nat} {s0 s : State} {x1} (hm : 4096 ||| m = m) (h : Keeps m s0 s) : Keeps m s0 (modMnd x1 s) := by
  unfold modMnd
  repeat' first
    | (with_reducible assumption)
    | (with_reducible exact id)
    | (exact in_mask hm rfl)
    | (with_reducible exact fun _ => rfl)
    | (exact Sub.trans hm rfl)
    | (intro _)
    | (extract_lets +onlyGivenNames s1; first | (refine Keeps.cut (t := s1) ?_ ?_; rotate_left; intro hs1; clear_value s1; rotate_right; subst s1) | clear_value s1 | (have hm := s1; clear hm))
    | (with_reducible exact rfl)
    | (with_reducible apply id_keeps)
    | split
    | (with_reducible apply Keeps.upd)
    | (dsimp only)
    | (exact rfl)

theorem modPlc_keeps {m : Nat} {s0 s : State} {x1} (hm : 4096 ||| m = m) (h : Keeps m s0 s) : Keeps m s0 (modPlc x1 s) := by
  unfold modPlc
  repeat' first
    | (with_reducible assumption)
    | (with_reducible exact id)
    | (exact in_mask hm rfl)
    | (with_reducible exact fun _ => rfl)
    | (exact Sub.trans hm rfl)
    | (intro _)
    | (extract_lets +onlyGivenNames s1; first | (refine Keeps.cut (t := s1) ?_ ?_; rotate_left; intro hs1; clear_value s1; rotate_right; subst s1) | clear_value s1 | (have hm := s1; clear hm))
    | (with_reducible exact rfl)
    | (with_reducible apply id_keeps)
    | split
    | (with_reducible apply Keeps.upd)
    | (dsimp only)
    | (exact rfl)

theorem modBsc_keeps {m : Nat} {s0 s : State} {x1} (hm : 4096 ||| m = m) (h : Keeps m s0 s) : Keeps m s0 (modBsc x1 s) := by
  unfold modBsc
  repeat' first
    | (with_reducible assumption)
    | (with_reducible exact id)
    | (exact in_mask hm rfl)
    | (with_reducible exact fun _ => rfl)
    | (exact Sub.trans hm rfl)
    | (intro _)
    | (extract_lets +onlyGivenNames s1; first | (refine Keeps.cut (t := s1) ?_ ?_; rotate_left; intro hs1; clear_value s1; rotate_right; subst s1) | clear_value s1 | (have hm := s1; clear hm))
    | (with_reducible exact rfl)
    | (with_reducible apply id_keeps)
    | split
    | (with_reducible apply Keeps.upd)
    | (dsimp only)
    | (exact rfl)

theorem modThe_keeps {m : Nat} {s0 s : State} {x1} (hm : 4096 ||| m = m) (h : Keeps m s0 s) : Keeps m s0 (modThe x1 s) := by
  unfold modThe
  repeat' first
    | (with_reducible assumption)
    | (with_reducible exact id)
    | (exact in_mask hm rfl)
    | (with_reducible exact fun _ => rfl)
    | (exact Sub.trans hm rfl)
    | (intro _)
    | (extract_lets +onlyGivenNames s1; first | (refine Keeps.cut (t := s1) ?_ ?_; rotate_left; intro hs1; clear_value s1; rotate_right; subst s1) | clear_value s1 | (have hm := s1; clear hm))
    | (with_reducible exact rfl)
    | (with_reducible apply id_keeps)
    | split
    | (with_reducible apply Keeps.upd)
    | (dsimp only)
    | (exact rfl)

theorem modPort_keeps {m : Nat} {s0 s : State} {x1 x2} (hm : 4096 ||| m = m) (h : Keeps m s0 s) : Keeps m s0 (modPort x1 x2 s) := by
  unfold modPort
  repeat' first
    | (with_reducible assumption)
    | (with_reducible exact id)
    | (exact in_mask hm rfl)
    | (with_reducible exact fun _ => rfl)
    | (exact Sub.trans hm rfl)
    | (intro _)
    | (extract_lets +onlyGivenNames s1; first | (refine Keeps.cut (t := s1) ?_ ?_; rotate_left; intro hs1; clear_value s1; rotate_right; subst s1) | clear_value s1 | (have hm := s1; clear hm))
    | (with_reducible exact rfl)
    | (with_reducible apply id_keeps)
    | split
    | (with_reducible apply Keeps.upd)
    | (dsimp only)
    | (exact rfl)

theorem satMnd_keeps {m : Nat} {s0 s : State} {x1} (hm : 25769803828 ||| m = m) (h : Keeps m s0 s) : Keeps m s0 (satMnd x1 s) := by
  unfold satMnd
  repeat' first
    | (with_reducible assumption)
    | (exact Sub.trans hm rfl)
    | (intro _)
    | (with_reducible exact rfl)
    | (with_reducible apply postEvent_keeps)
    | (with_reducible apply id_keeps)
    | split
    | (dsimp only)
    | (exact rfl)

theorem bumpMnd_keeps {m : Nat} {s0 s : State} {x1 x2 x3} (hm : 25769803828 ||| m = m) (hr0 : regMask x1 ||| m = m) (hk0 : oneBlock x1 = true) (h : Keeps m s0 s) : Keeps m s0 (bumpMnd x1 x2 s x3) := by
  unfold bumpMnd
  repeat' first
    | (with_reducible assumption)
    | (exact Sub.trans hm rfl)
    | (intro _)
    | (with_reducible exact rfl)
    | (with_reducible apply bump_keeps)
    | (with_reducible apply satMnd_keeps)
    | (with_reducible apply id_keeps)
    | split
    | (dsimp only)
    | (exact rfl)

theorem modEntry_keeps {m : Nat} {s0 s : State} {x1 x2} (hm : 4096 ||| m = m) (h : Keeps m s0 s) : Keeps m s0 (modEntry x1 x2 s) := by
  unfold modEntry
  repeat' first
    | (with_reducible assumption)
    | (with_reducible exact id)
    | (exact in_mask hm rfl)
    | (with_reducible exact fun _ => rfl)
    | (exact Sub.trans hm rfl)
    | (intro _)
    | (extract_lets +onlyGivenNames s1; first | (refine Keeps.cut (t := s1) ?_ ?_; rotate_left; intro hs1; clear_value s1; rotate_right; subst s1) | clear_value s1 | (have hm := s1; clear hm))
    | (with_reducible exact rfl)
    | (with_reducible apply modMnd_keeps)
    | (with_reducible apply id_keeps)
    | split
    | (with_reducible apply Keeps.upd)
    | (dsimp only)
    | (exact rfl)

theorem showOpen_keeps {m : Nat} {s0 s : State} (hm : 9007199254740992 ||| m = m) (h : Keeps m s0 s) : Keeps m s0 (showOpen s) := by
  unfold showOpen
  repeat' first
    | (with_reducible assumption)
    | (exact Sub.trans hm rfl)
    | (intro _)
    | (with_reducible exact rfl)
    | (with_reducible apply wrf_keeps)
    | (with_reducible apply id_keeps)
    | split
    | (dsimp only)
    | (exact rfl)

theorem sealEntry_keeps {m : Nat} {s0 s : State} {x1} (hm : 25769807924 ||| m = m) (h : Keeps m s0 s) : Keeps m s0 (sealEntry x1 s) := by
  unfold sealEntry
  repeat' first
    | (with_reducible assumption)
    | (with_reducible exact id)
    | (exact in_mask hm rfl)
    | (with_reducible exact fun _ => rfl)
    | (exact Sub.trans hm rfl)
    | (intro _)
    | (extract_lets +onlyGivenNames s1; first | (refine Keeps.cut (t := s1) ?_ ?_; rotate_left; intro hs1; clear_value s1; rotate_right; subst s1) | clear_value s1 | (have hm := s1; clear hm))
    | (with_reducible exact rfl)
    | (with_reducible apply uploadRecord_keeps)
    | (with_reducible apply modEntry_keeps)
    | (with_reducible apply id_keeps)
    | split
    | (with_reducible apply Keeps.upd)
    | (dsimp only)
    | (exact rfl)

theorem sealNewest_keeps {m : Nat} {s0 s : State} (hm : 25769807924 ||| m = m) (h : Keeps m s0 s) : Keeps m s0 (sealNewest s) := by
  unfold sealNewest
  repeat' first
    | (with_reducible assumption)
    | (with_reducible exact id)
    | (exact in_mask hm rfl)
    | (with_reducible exact fun _ => rfl)
    | (exact Sub.trans hm rfl)
    | (intro _)
    | (extract_lets +onlyGivenNames s1; first | (refine Keeps.cut (t := s1) ?_ ?_; rotate_left; intro hs1; clear_value s1; rotate_right; subst s1) | clear_value s1 | (have hm := s1; clear hm))
    | (with_reducible exact rfl)
    | (with_reducible apply sealEntry_keeps)
    | (with_reducible apply modMnd_keeps)
    | (with_reducible apply id_keeps)
    | split
    | (with_reducible apply Keeps.upd)
    | (dsimp only)
    | (exact rfl)

theorem removeEntry_keeps {m : Nat} {s0 s : State} {x1 x2} (hm : 9007225024548916 ||| m = m) (h : Keeps m s0 s) : Keeps m s0 (removeEntry x1 x2 s) := by
  unfold removeEntry
  repeat' first
    | (with_reducible assumption)
    | (with_reducible exact id)
    | (exact in_mask hm rfl)
    | (with_reducible exact fun _ => rfl)
    | (exact Sub.trans hm rfl)
    | (intro _)
    | (extract_lets +onlyGivenNames s1; first | (refine Keeps.cut (t := s1) ?_ ?_; rotate_left; intro hs1; clear_value s1; rotate_right; subst s1) | clear_value s1 | (have hm := s1; clear hm))
    | (with_reducible exact rfl)
    | (with_reducible apply modMnd_keeps)
    | (with_reducible apply wrb_keeps)
    | (with_reducible apply showOpen_keeps)
    | (with_reducible apply uploadRecord_keeps)
    | (with_reducible apply id_keeps)
    | split
    | (with_reducible apply Keeps.upd)
    | (dsimp only)
    | (exact rfl)

theorem reportLogged_keeps {m : Nat} {s0 s : State} {x1 x2} (hm : 25769807924 ||| m = m) (h : Keeps m s0 s) : Keeps m s0 (reportLogged x1 x2 s) := by
  unfold reportLogged
  repeat' first
    | (with_reducible assumption)
    | (with_reducible exact id)
    | (exact in_mask hm rfl)
    | (with_reducible exact fun _ => rfl)
    | (exact Sub.trans hm rfl)
    | (intro _)
    | (extract_lets +onlyGivenNames s1; first | (refine Keeps.cut (t := s1) ?_ ?_; rotate_left; intro hs1; clear_value s1; rotate_right; subst s1) | clear_value s1 | (have hm := s1; clear hm))
    | (with_reducible exact rfl)
    | (with_reducible apply postEvent_keeps)
    | (with_reducible apply modPassOf_keeps)
    | (with_reducible apply id_keeps)
    | split
    | (with_reducible apply Keeps.upd)
    | (dsimp only)
    | (exact rfl)

theorem newEntry_keeps {m : Nat} {s0 s : State} {x1 x2 x3} (hm : 9007225024548916 ||| m = m) (h : Keeps m s0 s) : Keeps m s0 (newEntry x1 x2 x3 s) := by
  unfold newEntry
  repeat' first
    | (with_reducible assumption)
    | (with_reducible exact id)
    | (exact in_mask hm rfl)
    | (with_reducible exact fun _ => rfl)
    | (exact Sub.trans hm rfl)
    | (intro _)
    | (extract_lets +onlyGivenNames s1; first | (refine Keeps.cut (t := s1) ?_ ?_; rotate_left; intro hs1; clear_value s1; rotate_right; subst s1) | clear_value s1 | (have hm := s1; clear hm))
    | (with_reducible exact rfl)
    | (with_reducible apply sealNewest_keeps)
    | (with_reducible apply wr_keeps)
    | (with_reducible apply modMnd_keeps)
    | (with_reducible apply bumpMnd_keeps)
    | (with_reducible apply modPassOf_keeps)
    | (with_reducible apply showOpen_keeps)
    | (with_reducible apply reportLogged_keeps)
    | (with_reducible apply id_keeps)
    | split
    | (with_reducible apply Keeps.upd)
    | (dsimp only)
    | (exact rfl)

theorem logSet.logFresh_keeps {m : Nat} {s0 s : State} {x1 x2} (hm : 9007225024548916 ||| m = m) (h : Keeps m s0 s) : Keeps m s0 (logSet.logFresh x1 x2 s) := by
  unfold logSet.logFresh
  repeat' first
    | (with_reducible assumption)
    | (exact Sub.trans hm rfl)
    | (intro _)
    | (with_reducible exact rfl)
    | (with_reducible apply newEntry_keeps)
    | (with_reducible apply sealNewest_keeps)
    | (with_reducible apply bumpMnd_keeps)
    | (with_reducible apply modEntry_keeps)
    | (with_reducible apply wrb_keeps)
    | (with_reducible apply modMnd_keeps)
    | (with_reducible apply postEvent_keeps)
    | (with_reducible apply id_keeps)
    | split
    | (dsimp only)
    | (exact rfl)

theorem logSet_keeps {m : Nat} {s0 s : State} {x1 x2} (hm : 9007225024548916 ||| m = m) (h : Keeps m s0 s) : Keeps m s0 (logSet x1 x2 s) := by
  unfold logSet
  repeat' first
    | (with_reducible assumption)
    | (with_reducible exact id)
    | (exact in_mask hm rfl)
    | (with_reducible exact fun _ => rfl)
    | (exact Sub.trans hm rfl)
    | (intro _)
    | (extract_lets +onlyGivenNames s1; first | (refine Keeps.cut (t := s1) ?_ ?_; rotate_left; intro hs1; clear_value s1; rotate_right; subst s1) | clear_value s1 | (have hm := s1; clear hm))
    | (with_reducible exact rfl)
    | (with_reducible apply modEntry_keeps)
    | (with_reducible apply logSet.logFresh_keeps)
    | (with_reducible apply id_keeps)
    | split
    | (with_reducible apply Keeps.upd)
    | (dsimp only)
    | (exact rfl)

theorem logOwed_keeps {m : Nat} {s0 s : State} {x1 x2 x3} (hm : 9007225024548916 ||| m = m) (h : Keeps m s0 s) : Keeps m s0 (logOwed x1 x2 x3 s) := by
  unfold logOwed
  repeat' first
    | (with_reducible assumption)
    | (exact Sub.trans hm rfl)
    | (intro _)
    | (with_reducible exact rfl)
    | (with_reducible apply each_keeps)
    | (with_reducible apply logSet_keeps)
    | (with_reducible apply id_keeps)
    | split
    | (dsimp only)
    | (exact rfl)

theorem showSlates_keeps {m : Nat} {s0 s : State} (hm : 9007199254740992 ||| m = m) (h : Keeps m s0 s) : Keeps m s0 (showSlates s) := by
  unfold showSlates
  repeat' first
    | (with_reducible assumption)
    | (exact Sub.trans hm rfl)
    | (intro _)
    | (extract_lets +onlyGivenNames s1; first | (refine Keeps.cut (t := s1) ?_ ?_; rotate_left; intro hs1; clear_value s1; rotate_right; subst s1) | clear_value s1 | (have hm := s1; clear hm))
    | (with_reducible exact rfl)
    | (with_reducible apply peak_keeps)
    | (with_reducible apply wr_keeps)
    | (with_reducible apply id_keeps)
    | split
    | (dsimp only)
    | (exact rfl)

theorem oweLine_keeps {m : Nat} {s0 s : State} {x1 x2} (hm : 4096 ||| m = m) (h : Keeps m s0 s) : Keeps m s0 (oweLine x1 x2 s) := by
  unfold oweLine
  repeat' first
    | (with_reducible assumption)
    | (with_reducible exact id)
    | (exact in_mask hm rfl)
    | (with_reducible exact fun _ => rfl)
    | (exact Sub.trans hm rfl)
    | (intro _)
    | (extract_lets +onlyGivenNames s1; first | (refine Keeps.cut (t := s1) ?_ ?_; rotate_left; intro hs1; clear_value s1; rotate_right; subst s1) | clear_value s1 | (have hm := s1; clear hm))
    | (with_reducible exact rfl)
    | (with_reducible apply modMnd_keeps)
    | (with_reducible apply id_keeps)
    | split
    | (with_reducible apply Keeps.upd)
    | (dsimp only)
    | (exact rfl)

theorem enterSlate_keeps {m : Nat} {s0 s : State} {x1 x2 x3 x4 x5 x6 x7} (hm : 9007225024548916 ||| m = m) (h : Keeps m s0 s) : Keeps m s0 (enterSlate x1 x2 x3 x4 x5 x6 x7 s) := by
  unfold enterSlate
  repeat' first
    | (with_reducible assumption)
    | (with_reducible exact id)
    | (exact in_mask hm rfl)
    | (with_reducible exact fun _ => rfl)
    | (exact Sub.trans hm rfl)
    | (intro _)
    | (extract_lets +onlyGivenNames s1; first | (refine Keeps.cut (t := s1) ?_ ?_; rotate_left; intro hs1; clear_value s1; rotate_right; subst s1) | clear_value s1 | (have hm := s1; clear hm))
    | (with_reducible exact rfl)
    | (with_reducible apply bumpMnd_keeps)
    | (with_reducible apply logSet_keeps)
    | (with_reducible apply showSlates_keeps)
    | (with_reducible apply modMnd_keeps)
    | (with_reducible apply foldl_keeps)
    | (with_reducible apply foldl_snd_keeps)
    | (with_reducible apply foldl_fst_keeps)
    | (with_reducible apply foldl_trd_keeps)
    | (with_reducible apply id_keeps)
    | split
    | (with_reducible apply Keeps.upd)
    | (dsimp only)
    | (exact rfl)

theorem withhold_keeps {m : Nat} {s0 s : State} {x1 x2 x3 x4 x5 x6} (hm : 9007225024548916 ||| m = m) (h : Keeps m s0 s) : Keeps m s0 (withhold x1 x2 x3 x4 x5 x6 s) := by
  unfold withhold
  repeat' first
    | (with_reducible assumption)
    | (with_reducible exact id)
    | (exact Sub.trans hm rfl)
    | (intro _)
    | (extract_lets +onlyGivenNames s1; first | (refine Keeps.cut (t := s1) ?_ ?_; rotate_left; intro hs1; clear_value s1; rotate_right; subst s1) | clear_value s1 | (have hm := s1; clear hm))
    | (with_reducible exact rfl)
    | (with_reducible apply enterSlate_keeps)
    | (with_reducible apply oweLine_keeps)
    | (with_reducible apply id_keeps)
    | split
    | (dsimp only)
    | (exact rfl)

theorem dropCarrier_keeps {m : Nat} {s0 s : State} {x1} (hm : 4096 ||| m = m) (h : Keeps m s0 s) : Keeps m s0 (dropCarrier x1 s) := by
  unfold dropCarrier
  repeat' first
    | (with_reducible assumption)
    | (with_reducible exact id)
    | (exact in_mask hm rfl)
    | (with_reducible exact fun _ => rfl)
    | (exact Sub.trans hm rfl)
    | (intro _)
    | (extract_lets +onlyGivenNames s1; first | (refine Keeps.cut (t := s1) ?_ ?_; rotate_left; intro hs1; clear_value s1; rotate_right; subst s1) | clear_value s1 | (have hm := s1; clear hm))
    | (with_reducible exact rfl)
    | (with_reducible apply modMnd_keeps)
    | (with_reducible apply id_keeps)
    | split
    | (with_reducible apply Keeps.upd)
    | (dsimp only)
    | (exact rfl)

theorem countFrames_keeps {m : Nat} {s0 s : State} {x1 x2} (hm : 9007225024544820 ||| m = m) (h : Keeps m s0 s) : Keeps m s0 (countFrames x1 x2 s) := by
  unfold countFrames
  repeat' first
    | (with_reducible assumption)
    | (with_reducible exact id)
    | (exact in_mask hm rfl)
    | (with_reducible exact fun _ => rfl)
    | (exact Sub.trans hm rfl)
    | (intro _)
    | (extract_lets +onlyGivenNames s1; first | (refine Keeps.cut (t := s1) ?_ ?_; rotate_left; intro hs1; clear_value s1; rotate_right; subst s1) | clear_value s1 | (have hm := s1; clear hm))
    | (with_reducible exact rfl)
    | (with_reducible apply bumpMnd_keeps)
    | (with_reducible apply id_keeps)
    | split
    | (with_reducible apply Keeps.upd)
    | (dsimp only)
    | (exact rfl)

theorem withholdRow_keeps {m : Nat} {s0 s : State} {x1 x2 x3 x4 x5 x6} (hm : 9007225024548916 ||| m = m) (h : Keeps m s0 s) : Keeps m s0 (withholdRow x1 x2 x3 x4 x5 x6 s) := by
  unfold withholdRow
  repeat' first
    | (with_reducible assumption)
    | (with_reducible exact id)
    | (exact Sub.trans hm rfl)
    | (intro _)
    | (extract_lets +onlyGivenNames s1; first | (refine Keeps.cut (t := s1) ?_ ?_; rotate_left; intro hs1; clear_value s1; rotate_right; subst s1) | clear_value s1 | (have hm := s1; clear hm))
    | (with_reducible exact rfl)
    | (with_reducible apply countFrames_keeps)
    | (with_reducible apply withhold_keeps)
    | (with_reducible apply id_keeps)
    | split
    | (dsimp only)
    | (exact rfl)

theorem logFrames_keeps {m : Nat} {s0 s : State} {x1 x2} (hm : 9007225024548916 ||| m = m) (h : Keeps m s0 s) : Keeps m s0 (logFrames x1 x2 s) := by
  unfold logFrames
  repeat' first
    | (with_reducible assumption)
    | (with_reducible exact id)
    | (exact in_mask hm rfl)
    | (with_reducible exact fun _ => rfl)
    | (exact Sub.trans hm rfl)
    | (intro _)
    | (extract_lets +onlyGivenNames s1; first | (refine Keeps.cut (t := s1) ?_ ?_; rotate_left; intro hs1; clear_value s1; rotate_right; subst s1) | clear_value s1 | (have hm := s1; clear hm))
    | (with_reducible exact rfl)
    | (with_reducible apply countFrames_keeps)
    | (with_reducible apply logSet_keeps)
    | (with_reducible apply id_keeps)
    | split
    | (with_reducible apply Keeps.upd)
    | (dsimp only)
    | (exact rfl)

theorem dropOwed_keeps {m : Nat} {s0 s : State} {x1 x2 x3} (hm : 4096 ||| m = m) (h : Keeps m s0 s) : Keeps m s0 (dropOwed x1 x2 x3 s) := by
  unfold dropOwed
  repeat' first
    | (with_reducible assumption)
    | (with_reducible exact id)
    | (exact in_mask hm rfl)
    | (with_reducible exact fun _ => rfl)
    | (exact Sub.trans hm rfl)
    | (intro _)
    | (extract_lets +onlyGivenNames s1; first | (refine Keeps.cut (t := s1) ?_ ?_; rotate_left; intro hs1; clear_value s1; rotate_right; subst s1) | clear_value s1 | (have hm := s1; clear hm))
    | (with_reducible exact rfl)
    | (with_reducible apply modMnd_keeps)
    | (with_reducible apply id_keeps)
    | split
    | (with_reducible apply Keeps.upd)
    | (dsimp only)
    | (exact rfl)

theorem freeSlates_keeps {m : Nat} {s0 s : State} {x1 x2} (hm : 9007199254745088 ||| m = m) (h : Keeps m s0 s) : Keeps m s0 (freeSlates x1 x2 s) := by
  unfold freeSlates
  repeat' first
    | (with_reducible assumption)
    | (with_reducible exact id)
    | (exact in_mask hm rfl)
    | (with_reducible exact fun _ => rfl)
    | (exact Sub.trans hm rfl)
    | (intro _)
    | (extract_lets +onlyGivenNames s1; first | (refine Keeps.cut (t := s1) ?_ ?_; rotate_left; intro hs1; clear_value s1; rotate_right; subst s1) | clear_value s1 | (have hm := s1; clear hm))
    | (with_reducible exact rfl)
    | (with_reducible apply showSlates_keeps)
    | (with_reducible apply modMnd_keeps)
    | (with_reducible apply foldl_keeps)
    | (with_reducible apply foldl_snd_keeps)
    | (with_reducible apply foldl_fst_keeps)
    | (with_reducible apply foldl_trd_keeps)
    | (with_reducible apply id_keeps)
    | split
    | (with_reducible apply Keeps.upd)
    | (dsimp only)
    | (exact rfl)

theorem logRemainder_keeps {m : Nat} {s0 s : State} {x1 x2} (hm : 9007225024548916 ||| m = m) (h : Keeps m s0 s) : Keeps m s0 (logRemainder x1 x2 s) := by
  unfold logRemainder
  repeat' first
    | (with_reducible assumption)
    | (with_reducible exact id)
    | (exact in_mask hm rfl)
    | (with_reducible exact fun _ => rfl)
    | (exact Sub.trans hm rfl)
    | (intro _)
    | (extract_lets +onlyGivenNames s1; first | (refine Keeps.cut (t := s1) ?_ ?_; rotate_left; intro hs1; clear_value s1; rotate_right; subst s1) | clear_value s1 | (have hm := s1; clear hm))
    | (with_reducible exact rfl)
    | (with_reducible apply bumpMnd_keeps)
    | (with_reducible apply modPassOf_keeps)
    | (with_reducible apply dropOwed_keeps)
    | (with_reducible apply logOwed_keeps)
    | (with_reducible apply foldl_keeps)
    | (with_reducible apply foldl_snd_keeps)
    | (with_reducible apply foldl_fst_keeps)
    | (with_reducible apply foldl_trd_keeps)
    | (with_reducible apply id_keeps)
    | split
    | (with_reducible apply Keeps.upd)
    | (dsimp only)
    | (exact rfl)

theorem logLine_keeps {m : Nat} {s0 s : State} {x1 x2} (hm : 9007225024548916 ||| m = m) (h : Keeps m s0 s) : Keeps m s0 (logLine x1 x2 s) := by
  unfold logLine
  repeat' first
    | (with_reducible assumption)
    | (with_reducible exact id)
    | (exact in_mask hm rfl)
    | (with_reducible exact fun _ => rfl)
    | (exact Sub.trans hm rfl)
    | (intro _)
    | (extract_lets +onlyGivenNames s1; first | (refine Keeps.cut (t := s1) ?_ ?_; rotate_left; intro hs1; clear_value s1; rotate_right; subst s1) | clear_value s1 | (have hm := s1; clear hm))
    | (with_reducible exact rfl)
    | (with_reducible apply freeSlates_keeps)
    | (with_reducible apply logRemainder_keeps)
    | (with_reducible apply id_keeps)
    | split
    | (with_reducible apply Keeps.upd)
    | (dsimp only)
    | (exact rfl)

end Sys2Proof.Laws
end

