-- ==== Sys2Proof/Laws/Keeps/LinkBase.lean ====
section
/-! SUPPORT. Every operation of Machine/LinkBase.lean keeps what Laws/Keeps/Base.lean states. -/

namespace Sys2Proof.Laws
open Sys2Proof Sys2Proof.Machine

theorem modFrames_keeps {m : Nat} {s0 s : State} {x1} (hm : 4096 ||| m = m) (h : Keeps m s0 s) : Keeps m s0 (modFrames x1 s) := by
  unfold modFrames
  repeat' first
    | (with_reducible assumption)
    | (with_reducible exact id)
    | (exact in_mask hm rfl)
    | (with_reducible exact fun _ => rfl)
    | (exact Sub.trans hm rfl)
    | (intro _)
    | (extract_lets +onlyGivenNames s1; first | (refine Keeps.cut (t := s1) ?_ ?_; rotate_left; intro hs1; clear_value s1; rotate_right; subst s1) | clear_value s1 | (have hm := s1; clear hm))
    | (with_reducible exact rfl)
    | (with_reducible apply id_keeps)
    | split
    | (with_reducible apply Keeps.upd)
    | (dsimp only)
    | (exact rfl)

theorem setLnk_keeps {m : Nat} {s0 s : State} {x1 x2} (hm : 18014398509481984 ||| m = m) (h : Keeps m s0 s) : Keeps m s0 (setLnk x1 x2 s) := by
  unfold setLnk
  repeat' first
    | (with_reducible assumption)
    | (exact Sub.trans hm rfl)
    | (intro _)
    | (with_reducible exact rfl)
    | (with_reducible apply wrf_keeps)
    | (with_reducible apply id_keeps)
    | split
    | (dsimp only)
    | (exact rfl)

theorem modTx_keeps {m : Nat} {s0 s : State} {x1 x2} (hm : 4096 ||| m = m) (h : Keeps m s0 s) : Keeps m s0 (modTx x1 x2 s) := by
  unfold modTx
  repeat' first
    | (with_reducible assumption)
    | (with_reducible exact id)
    | (exact in_mask hm rfl)
    | (with_reducible exact fun _ => rfl)
    | (exact Sub.trans hm rfl)
    | (intro _)
    | (extract_lets +onlyGivenNames s1; first | (refine Keeps.cut (t := s1) ?_ ?_; rotate_left; intro hs1; clear_value s1; rotate_right; subst s1) | clear_value s1 | (have hm := s1; clear hm))
    | (with_reducible exact rfl)
    | (with_reducible apply modPort_keeps)
    | (with_reducible apply id_keeps)
    | split
    | (with_reducible apply Keeps.upd)
    | (dsimp only)
    | (exact rfl)

theorem laneSend_keeps {m : Nat} {s0 s : State} {x1 x2 x3 x4 x5} (hm : 4100 ||| m = m) (h : Keeps m s0 s) : Keeps m s0 (laneSend x1 x2 x3 x4 x5 s) := by
  unfold laneSend
  repeat' first
    | (with_reducible assumption)
    | (with_reducible exact id)
    | (exact in_mask hm rfl)
    | (with_reducible exact fun _ => rfl)
    | (exact Sub.trans hm rfl)
    | (intro _)
    | (extract_lets +onlyGivenNames s1; first | (refine Keeps.cut (t := s1) ?_ ?_; rotate_left; intro hs1; clear_value s1; rotate_right; subst s1) | clear_value s1 | (have hm := s1; clear hm))
    | (with_reducible exact rfl)
    | (with_reducible apply emit_keeps)
    | (with_reducible apply modTx_keeps)
    | (with_reducible apply id_keeps)
    | split
    | (with_reducible apply Keeps.upd)
    | (dsimp only)
    | (exact rfl)

theorem sendAlign_keeps {m : Nat} {s0 s : State} {x1} (hm : 4100 ||| m = m) (h : Keeps m s0 s) : Keeps m s0 (sendAlign x1 s) := by
  unfold sendAlign
  repeat' first
    | (with_reducible assumption)
    | (with_reducible exact id)
    | (exact in_mask hm rfl)
    | (with_reducible exact fun _ => rfl)
    | (exact Sub.trans hm rfl)
    | (intro _)
    | (extract_lets +onlyGivenNames s1; first | (refine Keeps.cut (t := s1) ?_ ?_; rotate_left; intro hs1; clear_value s1; rotate_right; subst s1) | clear_value s1 | (have hm := s1; clear hm))
    | (with_reducible exact rfl)
    | (with_reducible apply each_keeps)
    | (with_reducible apply modTx_keeps)
    | (with_reducible apply laneSend_keeps)
    | (with_reducible apply id_keeps)
    | split
    | (with_reducible apply Keeps.upd)
    | (dsimp only)
    | (exact rfl)

theorem beginStream_keeps {m : Nat} {s0 s : State} {x1} (hm : 4100 ||| m = m) (h : Keeps m s0 s) : Keeps m s0 (beginStream x1 s) := by
  unfold beginStream
  repeat' first
    | (with_reducible assumption)
    | (with_reducible exact id)
    | (exact in_mask hm rfl)
    | (with_reducible exact fun _ => rfl)
    | (exact Sub.trans hm rfl)
    | (intro _)
    | (extract_lets +onlyGivenNames s1; first | (refine Keeps.cut (t := s1) ?_ ?_; rotate_left; intro hs1; clear_value s1; rotate_right; subst s1) | clear_value s1 | (have hm := s1; clear hm))
    | (with_reducible exact rfl)
    | (with_reducible apply modTx_keeps)
    | (with_reducible apply sendAlign_keeps)
    | (with_reducible apply id_keeps)
    | split
    | (with_reducible apply Keeps.upd)
    | (dsimp only)
    | (exact rfl)

theorem sendStream_keeps {m : Nat} {s0 s : State} {x1 x2 x3} (hm : 4100 ||| m = m) (h : Keeps m s0 s) : Keeps m s0 (sendStream x1 x2 x3 s) := by
  unfold sendStream
  repeat' first
    | (with_reducible assumption)
    | (with_reducible exact id)
    | (exact in_mask hm rfl)
    | (with_reducible exact fun _ => rfl)
    | (exact Sub.trans hm rfl)
    | (intro _)
    | (extract_lets +onlyGivenNames s1; first | (refine Keeps.cut (t := s1) ?_ ?_; rotate_left; intro hs1; clear_value s1; rotate_right; subst s1) | clear_value s1 | (have hm := s1; clear hm))
    | (with_reducible exact rfl)
    | (with_reducible apply laneSend_keeps)
    | (with_reducible apply emit_keeps)
    | (with_reducible apply modTx_keeps)
    | (with_reducible apply sendAlign_keeps)
    | (with_reducible apply id_keeps)
    | split
    | (with_reducible apply Keeps.upd)
    | (dsimp only)
    | (exact rfl)

theorem sendBlock_keeps {m : Nat} {s0 s : State} {x1 x2 x3} (hm : 4100 ||| m = m) (h : Keeps m s0 s) : Keeps m s0 (sendBlock x1 x2 x3 s) := by
  unfold sendBlock
  repeat' first
    | (with_reducible assumption)
    | (exact Sub.trans hm rfl)
    | (intro _)
    | (with_reducible exact rfl)
    | (with_reducible apply sendStream_keeps)
    | (with_reducible apply id_keeps)
    | split
    | (dsimp only)
    | (exact rfl)

theorem sendFill_keeps {m : Nat} {s0 s : State} {x1} (hm : 4100 ||| m = m) (h : Keeps m s0 s) : Keeps m s0 (sendFill x1 s) := by
  unfold sendFill
  dsimp only
  repeat' first
    | (with_reducible assumption)
    | (with_reducible exact id)
    | (exact in_mask hm rfl)
    | (with_reducible exact fun _ => rfl)
    | (exact Sub.trans hm rfl)
    | (intro _)
    | (extract_lets +onlyGivenNames s1; first | (refine Keeps.cut (t := s1) ?_ ?_; rotate_left; intro hs1; clear_value s1; rotate_right; subst s1) | clear_value s1 | (have hm := s1; clear hm))
    | (with_reducible exact rfl)
    | (with_reducible apply sendStream_keeps)
    | (with_reducible apply modTx_keeps)
    | (with_reducible apply beginStream_keeps)
    | (with_reducible apply sendBlock_keeps)
    | (with_reducible apply id_keeps)
    | split
    | (with_reducible apply Keeps.upd)
    | (dsimp only)
    | (exact rfl)

theorem fillLanes_keeps {m : Nat} {s0 s : State} {x1 x2} (hm : 4100 ||| m = m) (h : Keeps m s0 s) : Keeps m s0 (fillLanes x1 x2 s) := by
  induction x2 generalizing s  with
  | zero =>
    rw [fillLanes]
    repeat' first
      | (with_reducible assumption)
      | (exact Sub.trans hm rfl)
      | (intro _)
      | (with_reducible exact rfl)
      | (with_reducible apply sendFill_keeps)
      | (with_reducible apply id_keeps)
      | split
      | (dsimp only)
      | (exact rfl)
  | succ n ih =>
    rw [fillLanes]
    repeat' first
      | (with_reducible apply ih)
      | (with_reducible assumption)
      | (exact Sub.trans hm rfl)
      | (intro _)
      | (with_reducible exact rfl)
      | (with_reducible apply sendFill_keeps)
      | (with_reducible apply id_keeps)
      | split
      | (dsimp only)
      | (exact rfl)

theorem advanceLanes_keeps {m : Nat} {s0 s : State} {x1} (hm : 4100 ||| m = m) (h : Keeps m s0 s) : Keeps m s0 (advanceLanes x1 s) := by
  unfold advanceLanes
  repeat' first
    | (with_reducible assumption)
    | (with_reducible exact id)
    | (exact in_mask hm rfl)
    | (with_reducible exact fun _ => rfl)
    | (exact Sub.trans hm rfl)
    | (intro _)
    | (extract_lets +onlyGivenNames s1; first | (refine Keeps.cut (t := s1) ?_ ?_; rotate_left; intro hs1; clear_value s1; rotate_right; subst s1) | clear_value s1 | (have hm := s1; clear hm))
    | (with_reducible exact rfl)
    | (with_reducible apply each_keeps)
    | (with_reducible apply fillLanes_keeps)
    | (with_reducible apply modTx_keeps)
    | (with_reducible apply id_keeps)
    | split
    | (with_reducible apply Keeps.upd)
    | (dsimp only)
    | (exact rfl)

theorem laneFault_keeps {m : Nat} {s0 s : State} {x1 x2 x3 x4} (hm : 25769803828 ||| m = m) (h : Keeps m s0 s) : Keeps m s0 (laneFault x1 x2 x3 x4 s) := by
  unfold laneFault
  repeat' first
    | (with_reducible assumption)
    | (exact Sub.trans hm rfl)
    | (intro _)
    | (with_reducible exact rfl)
    | (with_reducible apply postEvent_keeps)
    | (with_reducible apply id_keeps)
    | split
    | (dsimp only)
    | (exact rfl)

theorem postDown_keeps {m : Nat} {s0 s : State} {x1 x2 x3} (hm : 25769803828 ||| m = m) (h : Keeps m s0 s) : Keeps m s0 (postDown x1 x2 x3 s) := by
  unfold postDown
  repeat' first
    | (with_reducible assumption)
    | (exact Sub.trans hm rfl)
    | (intro _)
    | (with_reducible exact rfl)
    | (with_reducible apply postEvent_keeps)
    | (with_reducible apply id_keeps)
    | split
    | (dsimp only)
    | (exact rfl)

theorem loseAnchor_keeps {m : Nat} {s0 s : State} {x1} (hm : 4096 ||| m = m) (h : Keeps m s0 s) : Keeps m s0 (loseAnchor x1 s) := by
  unfold loseAnchor
  repeat' first
    | (with_reducible assumption)
    | (with_reducible exact id)
    | (exact in_mask hm rfl)
    | (with_reducible exact fun _ => rfl)
    | (exact Sub.trans hm rfl)
    | (intro _)
    | (extract_lets +onlyGivenNames s1; first | (refine Keeps.cut (t := s1) ?_ ?_; rotate_left; intro hs1; clear_value s1; rotate_right; subst s1) | clear_value s1 | (have hm := s1; clear hm))
    | (with_reducible exact rfl)
    | (with_reducible apply modPlc_keeps)
    | (with_reducible apply id_keeps)
    | split
    | (with_reducible apply Keeps.upd)
    | (dsimp only)
    | (exact rfl)

theorem clearTraining_keeps {m : Nat} {s0 s : State} {x1} (hm : 4096 ||| m = m) (h : Keeps m s0 s) : Keeps m s0 (clearTraining x1 s) := by
  unfold clearTraining
  repeat' first
    | (with_reducible assumption)
    | (with_reducible exact id)
    | (exact in_mask hm rfl)
    | (with_reducible exact fun _ => rfl)
    | (exact Sub.trans hm rfl)
    | (intro _)
    | (extract_lets +onlyGivenNames s1; first | (refine Keeps.cut (t := s1) ?_ ?_; rotate_left; intro hs1; clear_value s1; rotate_right; subst s1) | clear_value s1 | (have hm := s1; clear hm))
    | (with_reducible exact rfl)
    | (with_reducible apply modPort_keeps)
    | (with_reducible apply id_keeps)
    | split
    | (with_reducible apply Keeps.upd)
    | (dsimp only)
    | (exact rfl)

theorem clearPort_keeps {m : Nat} {s0 s : State} {x1 x2} (hm : 18014398509486080 ||| m = m) (h : Keeps m s0 s) : Keeps m s0 (clearPort x1 x2 s) := by
  unfold clearPort
  repeat' first
    | (with_reducible assumption)
    | (with_reducible exact id)
    | (exact in_mask hm rfl)
    | (with_reducible exact fun _ => rfl)
    | (exact Sub.trans hm rfl)
    | (intro _)
    | (extract_lets +onlyGivenNames s1; first | (refine Keeps.cut (t := s1) ?_ ?_; rotate_left; intro hs1; clear_value s1; rotate_right; subst s1) | clear_value s1 | (have hm := s1; clear hm))
    | (with_reducible exact rfl)
    | (with_reducible apply wr_keeps)
    | (with_reducible apply clearTraining_keeps)
    | (with_reducible apply modPort_keeps)
    | (with_reducible apply id_keeps)
    | split
    | (with_reducible apply Keeps.upd)
    | (dsimp only)
    | (exact rfl)

theorem satLnk_keeps {m : Nat} {s0 s : State} {x1 x2} (hm : 25769803828 ||| m = m) (h : Keeps m s0 s) : Keeps m s0 (satLnk x1 x2 s) := by
  unfold satLnk
  repeat' first
    | (with_reducible assumption)
    | (exact Sub.trans hm rfl)
    | (intro _)
    | (with_reducible exact rfl)
    | (with_reducible apply postEvent_keeps)
    | (with_reducible apply id_keeps)
    | split
    | (dsimp only)
    | (exact rfl)

theorem bumpLnk_keeps {m : Nat} {s0 s : State} {x1 x2} (hm : 25769803828 ||| m = m) (hr0 : regMask x1 ||| m = m) (hk0 : oneBlock x1 = true) (h : Keeps m s0 s) : Keeps m s0 (bumpLnk x1 x2 s) := by
  unfold bumpLnk
  repeat' first
    | (with_reducible assumption)
    | (with_reducible exact id)
    | (exact in_mask hm rfl)
    | (with_reducible exact fun _ => rfl)
    | (exact Sub.trans hm rfl)
    | (intro _)
    | (extract_lets +onlyGivenNames s1; first | (refine Keeps.cut (t := s1) ?_ ?_; rotate_left; intro hs1; clear_value s1; rotate_right; subst s1) | clear_value s1 | (have hm := s1; clear hm))
    | (with_reducible exact rfl)
    | (with_reducible apply bump_keeps)
    | (with_reducible apply satLnk_keeps)
    | (with_reducible apply id_keeps)
    | split
    | (with_reducible apply Keeps.upd)
    | (dsimp only)
    | (exact rfl)

theorem satSaf_keeps {m : Nat} {s0 s : State} {x1} (hm : 25769803828 ||| m = m) (h : Keeps m s0 s) : Keeps m s0 (satSaf x1 s) := by
  unfold satSaf
  repeat' first
    | (with_reducible assumption)
    | (exact Sub.trans hm rfl)
    | (intro _)
    | (with_reducible exact rfl)
    | (with_reducible apply postEvent_keeps)
    | (with_reducible apply id_keeps)
    | split
    | (dsimp only)
    | (exact rfl)

theorem postDrop_keeps {m : Nat} {s0 s : State} {x1 x2} (hm : 25769803828 ||| m = m) (h : Keeps m s0 s) : Keeps m s0 (postDrop x1 x2 s) := by
  unfold postDrop
  repeat' first
    | (with_reducible assumption)
    | (with_reducible exact id)
    | (exact in_mask hm rfl)
    | (with_reducible exact fun _ => rfl)
    | (exact Sub.trans hm rfl)
    | (intro _)
    | (extract_lets +onlyGivenNames s1; first | (refine Keeps.cut (t := s1) ?_ ?_; rotate_left; intro hs1; clear_value s1; rotate_right; subst s1) | clear_value s1 | (have hm := s1; clear hm))
    | (with_reducible exact rfl)
    | (with_reducible apply postEvent_keeps)
    | (with_reducible apply foldl_keeps)
    | (with_reducible apply foldl_snd_keeps)
    | (with_reducible apply foldl_fst_keeps)
    | (with_reducible apply foldl_trd_keeps)
    | (with_reducible apply id_keeps)
    | split
    | (with_reducible apply Keeps.upd)
    | (dsimp only)
    | (exact rfl)

theorem holdEnable_keeps {m : Nat} {s0 s : State} {x1} (hm : 288230401921519668 ||| m = m) (h : Keeps m s0 s) : Keeps m s0 (holdEnable x1 s) := by
  unfold holdEnable
  repeat' first
    | (with_reducible assumption)
    | (with_reducible exact id)
    | (exact in_mask hm rfl)
    | (with_reducible exact fun _ => rfl)
    | (exact Sub.trans hm rfl)
    | (intro _)
    | (extract_lets +onlyGivenNames s1; first | (refine Keeps.cut (t := s1) ?_ ?_; rotate_left; intro hs1; clear_value s1; rotate_right; subst s1) | clear_value s1 | (have hm := s1; clear hm))
    | (with_reducible exact rfl)
    | (with_reducible apply postDrop_keeps)
    | (with_reducible apply bump_keeps)
    | (with_reducible apply satSaf_keeps)
    | (with_reducible apply modPort_keeps)
    | (with_reducible apply id_keeps)
    | split
    | (with_reducible apply Keeps.upd)
    | (dsimp only)
    | (exact rfl)

theorem recallPort_keeps {m : Nat} {s0 s : State} {x1} (hm : 306244800431001652 ||| m = m) (h : Keeps m s0 s) : Keeps m s0 (recallPort x1 s) := by
  unfold recallPort
  repeat' first
    | (with_reducible assumption)
    | (with_reducible exact id)
    | (exact in_mask hm rfl)
    | (with_reducible exact fun _ => rfl)
    | (exact Sub.trans hm rfl)
    | (intro _)
    | (extract_lets +onlyGivenNames s1; first | (refine Keeps.cut (t := s1) ?_ ?_; rotate_left; intro hs1; clear_value s1; rotate_right; subst s1) | clear_value s1 | (have hm := s1; clear hm))
    | (with_reducible exact rfl)
    | (with_reducible apply modFrames_keeps)
    | (with_reducible apply sendBlock_keeps)
    | (with_reducible apply bumpLnk_keeps)
    | (with_reducible apply modPort_keeps)
    | (with_reducible apply holdEnable_keeps)
    | (with_reducible apply id_keeps)
    | split
    | (with_reducible apply Keeps.upd)
    | (dsimp only)
    | (exact rfl)

theorem recallAll_keeps {m : Nat} {s0 s : State} (hm : 306244800431001652 ||| m = m) (h : Keeps m s0 s) : Keeps m s0 (recallAll s) := by
  unfold recallAll
  repeat' first
    | (with_reducible assumption)
    | (exact Sub.trans hm rfl)
    | (intro _)
    | (with_reducible exact rfl)
    | (with_reducible apply each_keeps)
    | (with_reducible apply recallPort_keeps)
    | (with_reducible apply id_keeps)
    | split
    | (dsimp only)
    | (exact rfl)

theorem releaseEnable_keeps {m : Nat} {s0 s : State} {x1} (hm : 4096 ||| m = m) (h : Keeps m s0 s) : Keeps m s0 (releaseEnable x1 s) := by
  unfold releaseEnable
  repeat' first
    | (with_reducible assumption)
    | (with_reducible exact id)
    | (exact in_mask hm rfl)
    | (with_reducible exact fun _ => rfl)
    | (exact Sub.trans hm rfl)
    | (intro _)
    | (extract_lets +onlyGivenNames s1; first | (refine Keeps.cut (t := s1) ?_ ?_; rotate_left; intro hs1; clear_value s1; rotate_right; subst s1) | clear_value s1 | (have hm := s1; clear hm))
    | (with_reducible exact rfl)
    | (with_reducible apply modPort_keeps)
    | (with_reducible apply id_keeps)
    | split
    | (with_reducible apply Keeps.upd)
    | (dsimp only)
    | (exact rfl)

end Sys2Proof.Laws
end

