-- ==== Sys2Proof/Laws/Keeps/Time.lean ====
section
/-! SUPPORT. Every operation of Machine/Time.lean keeps what Laws/Keeps/Base.lean states. -/

namespace Sys2Proof.Laws
open Sys2Proof Sys2Proof.Machine

theorem putE32_keeps {m : Nat} {s0 s : State} {x1} (hm : 64 ||| m = m) (h : Keeps m s0 s) : Keeps m s0 (putE32 x1 s) := by
  unfold putE32
  repeat' first
    | (with_reducible assumption)
    | (with_reducible exact id)
    | (exact in_mask hm rfl)
    | (with_reducible exact fun _ => rfl)
    | (exact Sub.trans hm rfl)
    | (intro _)
    | (extract_lets +onlyGivenNames s1; first | (refine Keeps.cut (t := s1) ?_ ?_; rotate_left; intro hs1; clear_value s1; rotate_right; subst s1) | clear_value s1 | (have hm := s1; clear hm))
    | (with_reducible exact rfl)
    | (with_reducible apply id_keeps)
    | split
    | (with_reducible apply Keeps.upd)
    | (dsimp only)
    | (exact rfl)

theorem setTsyState_keeps {m : Nat} {s0 s : State} {x1} (hm : 549755813888 ||| m = m) (h : Keeps m s0 s) : Keeps m s0 (setTsyState x1 s) := by
  unfold setTsyState
  repeat' first
    | (with_reducible assumption)
    | (exact Sub.trans hm rfl)
    | (intro _)
    | (with_reducible exact rfl)
    | (with_reducible apply wrb_keeps)
    | (with_reducible apply wrf_keeps)
    | (with_reducible apply id_keeps)
    | split
    | (dsimp only)
    | (exact rfl)

theorem setAdj_keeps {m : Nat} {s0 s : State} {x1} (hm : 549755813888 ||| m = m) (h : Keeps m s0 s) : Keeps m s0 (setAdj x1 s) := by
  unfold setAdj
  repeat' first
    | (with_reducible assumption)
    | (exact Sub.trans hm rfl)
    | (intro _)
    | (extract_lets +onlyGivenNames s1; first | (refine Keeps.cut (t := s1) ?_ ?_; rotate_left; intro hs1; clear_value s1; rotate_right; subst s1) | clear_value s1 | (have hm := s1; clear hm))
    | (with_reducible exact rfl)
    | (with_reducible apply wrI_keeps)
    | (with_reducible apply wr_keeps)
    | (with_reducible apply id_keeps)
    | split
    | (dsimp only)
    | (exact rfl)

theorem holdAdj_keeps {m : Nat} {s0 s : State} (hm : 549755813888 ||| m = m) (h : Keeps m s0 s) : Keeps m s0 (holdAdj s) := by
  unfold holdAdj
  repeat' first
    | (with_reducible assumption)
    | (with_reducible exact id)
    | (exact in_mask hm rfl)
    | (with_reducible exact fun _ => rfl)
    | (exact Sub.trans hm rfl)
    | (intro _)
    | (extract_lets +onlyGivenNames s1; first | (refine Keeps.cut (t := s1) ?_ ?_; rotate_left; intro hs1; clear_value s1; rotate_right; subst s1) | clear_value s1 | (have hm := s1; clear hm))
    | (with_reducible exact rfl)
    | (with_reducible apply setAdj_keeps)
    | (with_reducible apply id_keeps)
    | split
    | (with_reducible apply Keeps.upd)
    | (dsimp only)
    | (exact rfl)

theorem postUnlocked_keeps {m : Nat} {s0 s : State} {x1} (hm : 25769812020 ||| m = m) (h : Keeps m s0 s) : Keeps m s0 (postUnlocked x1 s) := by
  unfold postUnlocked
  repeat' first
    | (with_reducible assumption)
    | (exact Sub.trans hm rfl)
    | (intro _)
    | (with_reducible exact rfl)
    | (with_reducible apply postEvent_keeps)
    | (with_reducible apply holdFlag_keeps)
    | (with_reducible apply id_keeps)
    | split
    | (dsimp only)
    | (exact rfl)

theorem postLocked_keeps {m : Nat} {s0 s : State} (hm : 25769803828 ||| m = m) (h : Keeps m s0 s) : Keeps m s0 (postLocked s) := by
  unfold postLocked
  repeat' first
    | (with_reducible assumption)
    | (exact Sub.trans hm rfl)
    | (intro _)
    | (with_reducible exact rfl)
    | (with_reducible apply postEvent_keeps)
    | (with_reducible apply id_keeps)
    | split
    | (dsimp only)
    | (exact rfl)

theorem reportWrap_keeps {m : Nat} {s0 s : State} {x1} (hm : 25769803892 ||| m = m) (h : Keeps m s0 s) : Keeps m s0 (reportWrap x1 s) := by
  unfold reportWrap
  repeat' first
    | (with_reducible assumption)
    | (with_reducible exact id)
    | (exact in_mask hm rfl)
    | (with_reducible exact fun _ => rfl)
    | (exact Sub.trans hm rfl)
    | (intro _)
    | (extract_lets +onlyGivenNames s1; first | (refine Keeps.cut (t := s1) ?_ ?_; rotate_left; intro hs1; clear_value s1; rotate_right; subst s1) | clear_value s1 | (have hm := s1; clear hm))
    | (with_reducible exact rfl)
    | (with_reducible apply postEvent_keeps)
    | (with_reducible apply id_keeps)
    | split
    | (with_reducible apply Keeps.upd)
    | (dsimp only)
    | (exact rfl)

theorem ppsPulse_keeps {m : Nat} {s0 s : State} {x1} (hm : 68 ||| m = m) (h : Keeps m s0 s) : Keeps m s0 (ppsPulse x1 s) := by
  unfold ppsPulse
  repeat' first
    | (with_reducible assumption)
    | (with_reducible exact id)
    | (exact in_mask hm rfl)
    | (with_reducible exact fun _ => rfl)
    | (exact Sub.trans hm rfl)
    | (intro _)
    | (extract_lets +onlyGivenNames s1; first | (refine Keeps.cut (t := s1) ?_ ?_; rotate_left; intro hs1; clear_value s1; rotate_right; subst s1) | clear_value s1 | (have hm := s1; clear hm))
    | (with_reducible exact rfl)
    | (with_reducible apply sif_keeps)
    | (with_reducible apply emit_keeps)
    | (with_reducible apply id_keeps)
    | split
    | (with_reducible apply Keeps.upd)
    | (dsimp only)
    | (exact rfl)

theorem startPps_keeps {m : Nat} {s0 s : State} (hm : 68 ||| m = m) (h : Keeps m s0 s) : Keeps m s0 (startPps s) := by
  unfold startPps
  repeat' first
    | (with_reducible assumption)
    | (exact Sub.trans hm rfl)
    | (intro _)
    | (with_reducible exact rfl)
    | (with_reducible apply ppsPulse_keeps)
    | (with_reducible apply id_keeps)
    | split
    | (dsimp only)
    | (exact rfl)

theorem fireComparator_keeps {m : Nat} {s0 s : State} {x1 x2} (hm : 575525617780 ||| m = m) (h : Keeps m s0 s) : Keeps m s0 (fireComparator x1 x2 s) := by
  unfold fireComparator
  repeat' first
    | (with_reducible assumption)
    | (exact Sub.trans hm rfl)
    | (intro _)
    | (extract_lets +onlyGivenNames s1; first | (refine Keeps.cut (t := s1) ?_ ?_; rotate_left; intro hs1; clear_value s1; rotate_right; subst s1) | clear_value s1 | (have hm := s1; clear hm))
    | (with_reducible exact rfl)
    | (with_reducible apply postEvent_keeps)
    | (with_reducible apply startPps_keeps)
    | (with_reducible apply wrb_keeps)
    | (with_reducible apply wr_keeps)
    | (with_reducible apply id_keeps)
    | split
    | (dsimp only)
    | (exact rfl)

theorem satSteps_keeps {m : Nat} {s0 s : State} (hm : 25769803828 ||| m = m) (h : Keeps m s0 s) : Keeps m s0 (satSteps s) := by
  unfold satSteps
  repeat' first
    | (with_reducible assumption)
    | (exact Sub.trans hm rfl)
    | (intro _)
    | (with_reducible exact rfl)
    | (with_reducible apply postEvent_keeps)
    | (with_reducible apply id_keeps)
    | split
    | (dsimp only)
    | (exact rfl)

theorem latchAnchor_keeps {m : Nat} {s0 s : State} {x1} (hm : 4503599627374592 ||| m = m) (h : Keeps m s0 s) : Keeps m s0 (latchAnchor x1 s) := by
  unfold latchAnchor
  repeat' first
    | (with_reducible assumption)
    | (with_reducible exact id)
    | (exact in_mask hm rfl)
    | (with_reducible exact fun _ => rfl)
    | (exact Sub.trans hm rfl)
    | (intro _)
    | (extract_lets +onlyGivenNames s1; first | (refine Keeps.cut (t := s1) ?_ ?_; rotate_left; intro hs1; clear_value s1; rotate_right; subst s1) | clear_value s1 | (have hm := s1; clear hm))
    | (with_reducible exact rfl)
    | (with_reducible apply wr_keeps)
    | (with_reducible apply each_keeps)
    | (with_reducible apply id_keeps)
    | split
    | (with_reducible apply Keeps.upd)
    | (dsimp only)
    | (exact rfl)

theorem shiftTimes_keeps {m : Nat} {s0 s : State} {x1} (hm : 6144 ||| m = m) (h : Keeps m s0 s) : Keeps m s0 (shiftTimes x1 s) := by
  unfold shiftTimes
  repeat' first
    | (with_reducible assumption)
    | (with_reducible exact id)
    | (exact in_mask hm rfl)
    | (with_reducible exact fun _ => rfl)
    | (exact Sub.trans hm rfl)
    | (intro _)
    | (extract_lets +onlyGivenNames s1; first | (refine Keeps.cut (t := s1) ?_ ?_; rotate_left; intro hs1; clear_value s1; rotate_right; subst s1) | clear_value s1 | (have hm := s1; clear hm))
    | (with_reducible exact rfl)
    | (with_reducible apply id_keeps)
    | split
    | (with_reducible apply Keeps.upd)
    | (dsimp only)
    | (exact rfl)

theorem stepE_keeps {m : Nat} {s0 s : State} {x1 x2 x3} (hm : 4504175153002612 ||| m = m) (h : Keeps m s0 s) : Keeps m s0 (stepE x1 x2 x3 s) := by
  unfold stepE
  repeat' first
    | (with_reducible assumption)
    | (with_reducible exact id)
    | (exact in_mask hm rfl)
    | (with_reducible exact fun _ => rfl)
    | (exact Sub.trans hm rfl)
    | (intro _)
    | (extract_lets +onlyGivenNames s1; first | (refine Keeps.cut (t := s1) ?_ ?_; rotate_left; intro hs1; clear_value s1; rotate_right; subst s1) | clear_value s1 | (have hm := s1; clear hm))
    | (with_reducible exact rfl)
    | (with_reducible apply putE32_keeps)
    | (with_reducible apply bump_keeps)
    | (with_reducible apply satSteps_keeps)
    | (with_reducible apply postEvent_keeps)
    | (with_reducible apply latchAnchor_keeps)
    | (with_reducible apply shiftTimes_keeps)
    | (with_reducible apply postUnlocked_keeps)
    | (with_reducible apply setTsyState_keeps)
    | (with_reducible apply reportWrap_keeps)
    | (with_reducible apply each_keeps)
    | (with_reducible apply fireComparator_keeps)
    | (with_reducible apply id_keeps)
    | split
    | (with_reducible apply Keeps.upd)
    | (dsimp only)
    | (exact rfl)

theorem markPending_keeps {m : Nat} {s0 s : State} (hm : 549755813888 ||| m = m) (h : Keeps m s0 s) : Keeps m s0 (markPending s) := by
  unfold markPending
  repeat' first
    | (with_reducible assumption)
    | (exact Sub.trans hm rfl)
    | (intro _)
    | (with_reducible exact rfl)
    | (with_reducible apply wrb_keeps)
    | (with_reducible apply id_keeps)
    | split
    | (dsimp only)
    | (exact rfl)

theorem applyHostStep_keeps {m : Nat} {s0 s : State} {x1 x2} (hm : 4504175153002612 ||| m = m) (h : Keeps m s0 s) : Keeps m s0 (applyHostStep x1 x2 s) := by
  unfold applyHostStep
  repeat' first
    | (with_reducible assumption)
    | (with_reducible exact id)
    | (exact in_mask hm rfl)
    | (with_reducible exact fun _ => rfl)
    | (exact Sub.trans hm rfl)
    | (intro _)
    | (extract_lets +onlyGivenNames s1; first | (refine Keeps.cut (t := s1) ?_ ?_; rotate_left; intro hs1; clear_value s1; rotate_right; subst s1) | clear_value s1 | (have hm := s1; clear hm))
    | (with_reducible exact rfl)
    | (with_reducible apply stepE_keeps)
    | (with_reducible apply complete_keeps)
    | (with_reducible apply id_keeps)
    | split
    | (with_reducible apply Keeps.upd)
    | (dsimp only)
    | (exact rfl)

theorem applyPendingSteps_keeps {m : Nat} {s0 s : State} (hm : 4504175153002612 ||| m = m) (h : Keeps m s0 s) : Keeps m s0 (applyPendingSteps s) := by
  unfold applyPendingSteps
  repeat' first
    | (with_reducible assumption)
    | (with_reducible exact id)
    | (exact in_mask hm rfl)
    | (with_reducible exact fun _ => rfl)
    | (exact Sub.trans hm rfl)
    | (intro _)
    | (extract_lets +onlyGivenNames s1; first | (refine Keeps.cut (t := s1) ?_ ?_; rotate_left; intro hs1; clear_value s1; rotate_right; subst s1) | clear_value s1 | (have hm := s1; clear hm))
    | (with_reducible exact rfl)
    | (with_reducible apply each_keeps)
    | (with_reducible apply applyHostStep_keeps)
    | (with_reducible apply stepE_keeps)
    | (with_reducible apply markPending_keeps)
    | (with_reducible apply id_keeps)
    | split
    | (with_reducible apply Keeps.upd)
    | (dsimp only)
    | (exact rfl)

theorem releaseSteps_keeps {m : Nat} {s0 s : State} (hm : 4504175153002612 ||| m = m) (h : Keeps m s0 s) : Keeps m s0 (releaseSteps s) := by
  unfold releaseSteps
  repeat' first
    | (with_reducible assumption)
    | (exact Sub.trans hm rfl)
    | (intro _)
    | (with_reducible exact rfl)
    | (with_reducible apply applyPendingSteps_keeps)
    | (with_reducible apply id_keeps)
    | split
    | (dsimp only)
    | (exact rfl)

theorem servoUpdate_keeps {m : Nat} {s0 s : State} {x1} (hm : 549755813888 ||| m = m) (h : Keeps m s0 s) : Keeps m s0 (servoUpdate x1 s) := by
  unfold servoUpdate
  repeat' first
    | (with_reducible assumption)
    | (exact Sub.trans hm rfl)
    | (intro _)
    | (extract_lets +onlyGivenNames s1; first | (refine Keeps.cut (t := s1) ?_ ?_; rotate_left; intro hs1; clear_value s1; rotate_right; subst s1) | clear_value s1 | (have hm := s1; clear hm))
    | (with_reducible exact rfl)
    | (with_reducible apply wrI_keeps)
    | (with_reducible apply setAdj_keeps)
    | (with_reducible apply id_keeps)
    | split
    | (dsimp only)
    | (exact rfl)

theorem servoState_keeps {m : Nat} {s0 s : State} {x1} (hm : 575525625972 ||| m = m) (h : Keeps m s0 s) : Keeps m s0 (servoState x1 s) := by
  unfold servoState
  repeat' first
    | (with_reducible assumption)
    | (with_reducible exact id)
    | (exact in_mask hm rfl)
    | (with_reducible exact fun _ => rfl)
    | (exact Sub.trans hm rfl)
    | (intro _)
    | (extract_lets +onlyGivenNames s1; first | (refine Keeps.cut (t := s1) ?_ ?_; rotate_left; intro hs1; clear_value s1; rotate_right; subst s1) | clear_value s1 | (have hm := s1; clear hm))
    | (with_reducible exact rfl)
    | (with_reducible apply postLocked_keeps)
    | (with_reducible apply setTsyState_keeps)
    | (with_reducible apply postUnlocked_keeps)
    | (with_reducible apply id_keeps)
    | split
    | (with_reducible apply Keeps.upd)
    | (dsimp only)
    | (exact rfl)

theorem sampleState_keeps {m : Nat} {s0 s : State} {x1} (hm : 575525625972 ||| m = m) (h : Keeps m s0 s) : Keeps m s0 (sampleState x1 s) := by
  unfold sampleState
  repeat' first
    | (with_reducible assumption)
    | (with_reducible exact id)
    | (exact in_mask hm rfl)
    | (with_reducible exact fun _ => rfl)
    | (exact Sub.trans hm rfl)
    | (intro _)
    | (extract_lets +onlyGivenNames s1; first | (refine Keeps.cut (t := s1) ?_ ?_; rotate_left; intro hs1; clear_value s1; rotate_right; subst s1) | clear_value s1 | (have hm := s1; clear hm))
    | (with_reducible exact rfl)
    | (with_reducible apply servoState_keeps)
    | (with_reducible apply setTsyState_keeps)
    | (with_reducible apply postUnlocked_keeps)
    | (with_reducible apply id_keeps)
    | split
    | (with_reducible apply Keeps.upd)
    | (dsimp only)
    | (exact rfl)

theorem servoSample_keeps {m : Nat} {s0 s : State} {x1} (hm : 4504175153002612 ||| m = m) (h : Keeps m s0 s) : Keeps m s0 (servoSample x1 s) := by
  unfold servoSample
  repeat' first
    | (with_reducible assumption)
    | (with_reducible exact id)
    | (exact in_mask hm rfl)
    | (with_reducible exact fun _ => rfl)
    | (exact Sub.trans hm rfl)
    | (intro _)
    | (extract_lets +onlyGivenNames s1; first | (refine Keeps.cut (t := s1) ?_ ?_; rotate_left; intro hs1; clear_value s1; rotate_right; subst s1) | clear_value s1 | (have hm := s1; clear hm))
    | (with_reducible exact rfl)
    | (with_reducible apply wrI_keeps)
    | (with_reducible apply sampleState_keeps)
    | (with_reducible apply markPending_keeps)
    | (with_reducible apply stepE_keeps)
    | (with_reducible apply servoState_keeps)
    | (with_reducible apply servoUpdate_keeps)
    | (with_reducible apply id_keeps)
    | split
    | (with_reducible apply Keeps.upd)
    | (dsimp only)
    | (exact rfl)

theorem changeSource_keeps {m : Nat} {s0 s : State} {x1} (hm : 575525625972 ||| m = m) (h : Keeps m s0 s) : Keeps m s0 (changeSource x1 s) := by
  unfold changeSource
  repeat' first
    | (with_reducible assumption)
    | (with_reducible exact id)
    | (exact in_mask hm rfl)
    | (with_reducible exact fun _ => rfl)
    | (exact Sub.trans hm rfl)
    | (intro _)
    | (extract_lets +onlyGivenNames s1; first | (refine Keeps.cut (t := s1) ?_ ?_; rotate_left; intro hs1; clear_value s1; rotate_right; subst s1) | clear_value s1 | (have hm := s1; clear hm))
    | (with_reducible exact rfl)
    | (with_reducible apply wrf_keeps)
    | (with_reducible apply setTsyState_keeps)
    | (with_reducible apply holdAdj_keeps)
    | (with_reducible apply markPending_keeps)
    | (with_reducible apply postUnlocked_keeps)
    | (with_reducible apply id_keeps)
    | split
    | (with_reducible apply Keeps.upd)
    | (dsimp only)
    | (exact rfl)

theorem timeCtrl_keeps {m : Nat} {s0 s : State} {x1 x2 x3 x4 x5} (hm : 25769803828 ||| m = m) (h : Keeps m s0 s) (hf : ∀ y0 s, Keeps m s0 s → Keeps m s0 (x5 y0 s)) : Keeps m s0 (timeCtrl x1 x2 x3 x4 x5 s) := by
  unfold timeCtrl
  repeat' first
    | (with_reducible assumption)
    | (exact Sub.trans hm rfl)
    | (intro _)
    | (extract_lets +onlyGivenNames s1; first | (refine Keeps.cut (t := s1) ?_ ?_; rotate_left; intro hs1; clear_value s1; rotate_right; subst s1) | clear_value s1 | (have hm := s1; clear hm))
    | (with_reducible exact rfl)
    | (with_reducible apply readDesc_keeps)
    | (with_reducible apply hf)
    | (with_reducible apply id_keeps)
    | split
    | (dsimp only)
    | (exact rfl)

theorem hostStep_keeps {m : Nat} {s0 s : State} {x1 x2 x3 x4} (hm : 4504175153002612 ||| m = m) (h : Keeps m s0 s) : Keeps m s0 (hostStep x1 x2 x3 x4 s) := by
  unfold hostStep
  repeat' first
    | (with_reducible assumption)
    | (with_reducible exact id)
    | (exact in_mask hm rfl)
    | (with_reducible exact fun _ => rfl)
    | (exact Sub.trans hm rfl)
    | (intro _)
    | (extract_lets +onlyGivenNames s1; first | (refine Keeps.cut (t := s1) ?_ ?_; rotate_left; intro hs1; clear_value s1; rotate_right; subst s1) | clear_value s1 | (have hm := s1; clear hm))
    | (with_reducible exact rfl)
    | (with_reducible apply finish_keeps)
    | (with_reducible apply markPending_keeps)
    | (with_reducible apply applyHostStep_keeps)
    | (with_reducible apply id_keeps)
    | split
    | (with_reducible apply Keeps.upd)
    | (dsimp only)
    | (exact rfl)

theorem finishTime_keeps {m : Nat} {s0 s : State} {x1 x2} (hm : 25769803828 ||| m = m) (h : Keeps m s0 s) : Keeps m s0 (finishTime x1 x2 s) := by
  unfold finishTime
  repeat' first
    | (with_reducible assumption)
    | (exact Sub.trans hm rfl)
    | (intro _)
    | (extract_lets +onlyGivenNames s1; first | (refine Keeps.cut (t := s1) ?_ ?_; rotate_left; intro hs1; clear_value s1; rotate_right; subst s1) | clear_value s1 | (have hm := s1; clear hm))
    | (with_reducible exact rfl)
    | (with_reducible apply complete_keeps)
    | (with_reducible apply id_keeps)
    | split
    | (dsimp only)
    | (exact rfl)

theorem armComparator_keeps {m : Nat} {s0 s : State} {x1 x2 x3 x4} (hm : 549755813888 ||| m = m) (h : Keeps m s0 s) : Keeps m s0 (armComparator x1 x2 x3 x4 s) := by
  unfold armComparator
  repeat' first
    | (with_reducible assumption)
    | (exact Sub.trans hm rfl)
    | (intro _)
    | (with_reducible exact rfl)
    | (with_reducible apply wr_keeps)
    | (with_reducible apply id_keeps)
    | split
    | (dsimp only)
    | (exact rfl)

theorem doTtWrap_keeps {m : Nat} {s0 s : State} (hm : 25769803892 ||| m = m) (h : Keeps m s0 s) : Keeps m s0 (doTtWrap s) := by
  unfold doTtWrap
  repeat' first
    | (with_reducible assumption)
    | (exact Sub.trans hm rfl)
    | (intro _)
    | (with_reducible exact rfl)
    | (with_reducible apply reportWrap_keeps)
    | (with_reducible apply id_keeps)
    | split
    | (dsimp only)
    | (exact rfl)

theorem doTimeCtrlSet_keeps {m : Nat} {s0 s : State} {x1 x2} (hm : 4504175153002612 ||| m = m) (h : Keeps m s0 s) : Keeps m s0 (doTimeCtrlSet x1 x2 s) := by
  unfold doTimeCtrlSet
  repeat' first
    | (with_reducible assumption)
    | (exact Sub.trans hm rfl)
    | (intro _)
    | (with_reducible exact rfl)
    | (with_reducible apply timeCtrl_keeps)
    | (with_reducible apply hostStep_keeps)
    | (with_reducible apply id_keeps)
    | split
    | (dsimp only)
    | (exact rfl)

theorem doTimeCtrlStep_keeps {m : Nat} {s0 s : State} {x1 x2} (hm : 4504175153002612 ||| m = m) (h : Keeps m s0 s) : Keeps m s0 (doTimeCtrlStep x1 x2 s) := by
  unfold doTimeCtrlStep
  repeat' first
    | (with_reducible assumption)
    | (exact Sub.trans hm rfl)
    | (intro _)
    | (with_reducible exact rfl)
    | (with_reducible apply timeCtrl_keeps)
    | (with_reducible apply hostStep_keeps)
    | (with_reducible apply id_keeps)
    | split
    | (dsimp only)
    | (exact rfl)

theorem doTimeCtrlSource_keeps {m : Nat} {s0 s : State} {x1 x2} (hm : 575525625972 ||| m = m) (h : Keeps m s0 s) : Keeps m s0 (doTimeCtrlSource x1 x2 s) := by
  unfold doTimeCtrlSource
  repeat' first
    | (with_reducible assumption)
    | (exact Sub.trans hm rfl)
    | (intro _)
    | (with_reducible exact rfl)
    | (with_reducible apply timeCtrl_keeps)
    | (with_reducible apply finishTime_keeps)
    | (with_reducible apply changeSource_keeps)
    | (with_reducible apply id_keeps)
    | split
    | (dsimp only)
    | (exact rfl)

theorem doTimeCtrlIncrement_keeps {m : Nat} {s0 s : State} {x1 x2} (hm : 575525617716 ||| m = m) (h : Keeps m s0 s) : Keeps m s0 (doTimeCtrlIncrement x1 x2 s) := by
  unfold doTimeCtrlIncrement
  repeat' first
    | (with_reducible assumption)
    | (exact Sub.trans hm rfl)
    | (intro _)
    | (with_reducible exact rfl)
    | (with_reducible apply timeCtrl_keeps)
    | (with_reducible apply finish_keeps)
    | (with_reducible apply finishTime_keeps)
    | (with_reducible apply wr_keeps)
    | (with_reducible apply id_keeps)
    | split
    | (dsimp only)
    | (exact rfl)

theorem doTimeCtrlCompare_keeps {m : Nat} {s0 s : State} {x1 x2} (hm : 575525617716 ||| m = m) (h : Keeps m s0 s) : Keeps m s0 (doTimeCtrlCompare x1 x2 s) := by
  unfold doTimeCtrlCompare
  repeat' first
    | (with_reducible assumption)
    | (exact Sub.trans hm rfl)
    | (intro _)
    | (extract_lets +onlyGivenNames s1; first | (refine Keeps.cut (t := s1) ?_ ?_; rotate_left; intro hs1; clear_value s1; rotate_right; subst s1) | clear_value s1 | (have hm := s1; clear hm))
    | (with_reducible exact rfl)
    | (with_reducible apply timeCtrl_keeps)
    | (with_reducible apply finishTime_keeps)
    | (with_reducible apply armComparator_keeps)
    | (with_reducible apply id_keeps)
    | split
    | (dsimp only)
    | (exact rfl)

theorem doTimeCtrlRead_keeps {m : Nat} {s0 s : State} {x1 x2} (hm : 25769803828 ||| m = m) (h : Keeps m s0 s) : Keeps m s0 (doTimeCtrlRead x1 x2 s) := by
  unfold doTimeCtrlRead
  repeat' first
    | (with_reducible assumption)
    | (exact Sub.trans hm rfl)
    | (intro _)
    | (with_reducible exact rfl)
    | (with_reducible apply timeCtrl_keeps)
    | (with_reducible apply finishTime_keeps)
    | (with_reducible apply id_keeps)
    | split
    | (dsimp only)
    | (exact rfl)

theorem doServoSample_keeps {m : Nat} {s0 s : State} {x1} (hm : 4504175153002612 ||| m = m) (h : Keeps m s0 s) : Keeps m s0 (doServoSample x1 s) := by
  unfold doServoSample
  repeat' first
    | (with_reducible assumption)
    | (exact Sub.trans hm rfl)
    | (intro _)
    | (with_reducible exact rfl)
    | (with_reducible apply servoSample_keeps)
    | (with_reducible apply id_keeps)
    | split
    | (dsimp only)
    | (exact rfl)

theorem doServoNoSample_keeps {m : Nat} {s0 s : State} (hm : 549755813888 ||| m = m) (h : Keeps m s0 s) : Keeps m s0 (doServoNoSample s) := by
  unfold doServoNoSample
  repeat' first
    | (with_reducible assumption)
    | (with_reducible exact id)
    | (exact Sub.trans hm rfl)
    | (intro _)
    | (extract_lets +onlyGivenNames s1; first | (refine Keeps.cut (t := s1) ?_ ?_; rotate_left; intro hs1; clear_value s1; rotate_right; subst s1) | clear_value s1 | (have hm := s1; clear hm))
    | (with_reducible exact rfl)
    | (with_reducible apply holdAdj_keeps)
    | (with_reducible apply setTsyState_keeps)
    | (with_reducible apply id_keeps)
    | split
    | (dsimp only)
    | (exact rfl)

theorem doHoldoverExpiry_keeps {m : Nat} {s0 s : State} (hm : 575525625972 ||| m = m) (h : Keeps m s0 s) : Keeps m s0 (doHoldoverExpiry s) := by
  unfold doHoldoverExpiry
  repeat' first
    | (with_reducible assumption)
    | (with_reducible exact id)
    | (exact in_mask hm rfl)
    | (with_reducible exact fun _ => rfl)
    | (exact Sub.trans hm rfl)
    | (intro _)
    | (extract_lets +onlyGivenNames s1; first | (refine Keeps.cut (t := s1) ?_ ?_; rotate_left; intro hs1; clear_value s1; rotate_right; subst s1) | clear_value s1 | (have hm := s1; clear hm))
    | (with_reducible exact rfl)
    | (with_reducible apply postUnlocked_keeps)
    | (with_reducible apply setTsyState_keeps)
    | (with_reducible apply id_keeps)
    | split
    | (with_reducible apply Keeps.upd)
    | (dsimp only)
    | (exact rfl)

theorem doTimeSourceChange_keeps {m : Nat} {s0 s : State} {x1} (hm : 575525625972 ||| m = m) (h : Keeps m s0 s) : Keeps m s0 (doTimeSourceChange x1 s) := by
  unfold doTimeSourceChange
  repeat' first
    | (with_reducible assumption)
    | (exact Sub.trans hm rfl)
    | (intro _)
    | (extract_lets +onlyGivenNames s1; first | (refine Keeps.cut (t := s1) ?_ ?_; rotate_left; intro hs1; clear_value s1; rotate_right; subst s1) | clear_value s1 | (have hm := s1; clear hm))
    | (with_reducible exact rfl)
    | (with_reducible apply changeSource_keeps)
    | (with_reducible apply wr_keeps)
    | (with_reducible apply ppsPulse_keeps)
    | (with_reducible apply id_keeps)
    | split
    | (dsimp only)
    | (exact rfl)

theorem doPpsInputEdge_keeps {m : Nat} {s0 s : State} (hm : 4504175153002612 ||| m = m) (h : Keeps m s0 s) : Keeps m s0 (doPpsInputEdge s) := by
  unfold doPpsInputEdge
  repeat' first
    | (with_reducible assumption)
    | (with_reducible exact id)
    | (exact in_mask hm rfl)
    | (with_reducible exact fun _ => rfl)
    | (exact Sub.trans hm rfl)
    | (intro _)
    | (extract_lets +onlyGivenNames s1; first | (refine Keeps.cut (t := s1) ?_ ?_; rotate_left; intro hs1; clear_value s1; rotate_right; subst s1) | clear_value s1 | (have hm := s1; clear hm))
    | (with_reducible exact rfl)
    | (with_reducible apply wrb_keeps)
    | (with_reducible apply wr_keeps)
    | (with_reducible apply servoSample_keeps)
    | (with_reducible apply id_keeps)
    | split
    | (with_reducible apply Keeps.upd)
    | (dsimp only)
    | (exact rfl)

theorem doPpsMissing_keeps {m : Nat} {s0 s : State} (hm : 575525617780 ||| m = m) (h : Keeps m s0 s) : Keeps m s0 (doPpsMissing s) := by
  unfold doPpsMissing
  repeat' first
    | (with_reducible assumption)
    | (with_reducible exact id)
    | (exact in_mask hm rfl)
    | (with_reducible exact fun _ => rfl)
    | (exact Sub.trans hm rfl)
    | (intro _)
    | (extract_lets +onlyGivenNames s1; first | (refine Keeps.cut (t := s1) ?_ ?_; rotate_left; intro hs1; clear_value s1; rotate_right; subst s1) | clear_value s1 | (have hm := s1; clear hm))
    | (with_reducible exact rfl)
    | (with_reducible apply wrb_keeps)
    | (with_reducible apply bump_keeps)
    | (with_reducible apply postEvent_keeps)
    | (with_reducible apply id_keeps)
    | split
    | (with_reducible apply Keeps.upd)
    | (dsimp only)
    | (exact rfl)

theorem doTimeCompareFire_keeps {m : Nat} {s0 s : State} {x1} (hm : 575525617780 ||| m = m) (h : Keeps m s0 s) : Keeps m s0 (doTimeCompareFire x1 s) := by
  unfold doTimeCompareFire
  repeat' first
    | (with_reducible assumption)
    | (exact Sub.trans hm rfl)
    | (intro _)
    | (with_reducible exact rfl)
    | (with_reducible apply fireComparator_keeps)
    | (with_reducible apply id_keeps)
    | split
    | (dsimp only)
    | (exact rfl)

theorem doTimeCompareArm_keeps {m : Nat} {s0 s : State} {x1 x2} (hm : 549755813888 ||| m = m) (h : Keeps m s0 s) : Keeps m s0 (doTimeCompareArm x1 x2 s) := by
  unfold doTimeCompareArm
  repeat' first
    | (with_reducible assumption)
    | (exact Sub.trans hm rfl)
    | (intro _)
    | (with_reducible exact rfl)
    | (with_reducible apply wr_keeps)
    | (with_reducible apply id_keeps)
    | split
    | (dsimp only)
    | (exact rfl)

theorem satPort_keeps {m : Nat} {s0 s : State} {x1 x2} (hm : 25769803828 ||| m = m) (h : Keeps m s0 s) : Keeps m s0 (satPort x1 x2 s) := by
  unfold satPort
  repeat' first
    | (with_reducible assumption)
    | (exact Sub.trans hm rfl)
    | (intro _)
    | (with_reducible exact rfl)
    | (with_reducible apply postEvent_keeps)
    | (with_reducible apply id_keeps)
    | split
    | (dsimp only)
    | (exact rfl)

theorem sendPtp_keeps {m : Nat} {s0 s : State} {x1 x2 x3 x4 x5} (hm : 575525617716 ||| m = m) (h : Keeps m s0 s) : Keeps m s0 (sendPtp x1 x2 x3 x4 x5 s) := by
  unfold sendPtp
  repeat' first
    | (with_reducible assumption)
    | (exact Sub.trans hm rfl)
    | (intro _)
    | (with_reducible exact rfl)
    | (with_reducible apply emit_keeps)
    | (with_reducible apply bump_keeps)
    | (with_reducible apply satPort_keeps)
    | (with_reducible apply id_keeps)
    | split
    | (dsimp only)
    | (exact rfl)

theorem doPtpMessageRx_keeps {m : Nat} {s0 s : State} {x1 x2 x3 x4 x5 x6} (hm : 575525617716 ||| m = m) (h : Keeps m s0 s) : Keeps m s0 (doPtpMessageRx x1 x2 x3 x4 x5 x6 s) := by
  unfold doPtpMessageRx
  repeat' first
    | (with_reducible assumption)
    | (exact Sub.trans hm rfl)
    | (intro _)
    | (extract_lets +onlyGivenNames s1; first | (refine Keeps.cut (t := s1) ?_ ?_; rotate_left; intro hs1; clear_value s1; rotate_right; subst s1) | clear_value s1 | (have hm := s1; clear hm))
    | (with_reducible exact rfl)
    | (with_reducible apply bump_keeps)
    | (with_reducible apply satPort_keeps)
    | (with_reducible apply wrf_keeps)
    | (with_reducible apply emit_keeps)
    | (with_reducible apply sendPtp_keeps)
    | (with_reducible apply id_keeps)
    | split
    | (dsimp only)
    | (exact rfl)

theorem doPtpMessageTx_keeps {m : Nat} {s0 s : State} {x1 x2 x3 x4 x5} (hm : 575525617716 ||| m = m) (h : Keeps m s0 s) : Keeps m s0 (doPtpMessageTx x1 x2 x3 x4 x5 s) := by
  unfold doPtpMessageTx
  dsimp only
  repeat' first
    | (with_reducible assumption)
    | (exact Sub.trans hm rfl)
    | (intro _)
    | (extract_lets +onlyGivenNames s1; first | (refine Keeps.cut (t := s1) ?_ ?_; rotate_left; intro hs1; clear_value s1; rotate_right; subst s1) | clear_value s1 | (have hm := s1; clear hm))
    | (with_reducible exact rfl)
    | (with_reducible apply sendPtp_keeps)
    | (with_reducible apply id_keeps)
    | split
    | (dsimp only)
    | (exact rfl)

theorem setPortState_keeps {m : Nat} {s0 s : State} {x1 x2 x3} (hm : 575525617724 ||| m = m) (h : Keeps m s0 s) : Keeps m s0 (setPortState x1 x2 x3 s) := by
  unfold setPortState
  repeat' first
    | (with_reducible assumption)
    | (exact Sub.trans hm rfl)
    | (intro _)
    | (extract_lets +onlyGivenNames s1; first | (refine Keeps.cut (t := s1) ?_ ?_; rotate_left; intro hs1; clear_value s1; rotate_right; subst s1) | clear_value s1 | (have hm := s1; clear hm))
    | (with_reducible exact rfl)
    | (with_reducible apply wrf_keeps)
    | (with_reducible refine fresh_keeps_eq ?_ ?_ ‹_›)
    | (with_reducible apply fresh_keeps)
    | (with_reducible apply postEvent_keeps)
    | (with_reducible apply id_keeps)
    | split
    | (dsimp only)
    | (exact rfl)

theorem doSfpCageFault_keeps {m : Nat} {s0 s : State} {x1 x2} (hm : 575525617788 ||| m = m) (h : Keeps m s0 s) : Keeps m s0 (doSfpCageFault x1 x2 s) := by
  unfold doSfpCageFault
  repeat' first
    | (with_reducible assumption)
    | (with_reducible exact id)
    | (exact in_mask hm rfl)
    | (with_reducible exact fun _ => rfl)
    | (exact Sub.trans hm rfl)
    | (intro _)
    | (extract_lets +onlyGivenNames s1; first | (refine Keeps.cut (t := s1) ?_ ?_; rotate_left; intro hs1; clear_value s1; rotate_right; subst s1) | clear_value s1 | (have hm := s1; clear hm))
    | (with_reducible exact rfl)
    | (with_reducible apply wrb_keeps)
    | (with_reducible apply postEvent_keeps)
    | (with_reducible apply setPortState_keeps)
    | (with_reducible apply id_keeps)
    | split
    | (with_reducible apply Keeps.upd)
    | (dsimp only)
    | (exact rfl)

theorem doSfpCageFaultClear_keeps {m : Nat} {s0 s : State} {x1} (hm : 575525617780 ||| m = m) (h : Keeps m s0 s) : Keeps m s0 (doSfpCageFaultClear x1 s) := by
  unfold doSfpCageFaultClear
  repeat' first
    | (with_reducible assumption)
    | (with_reducible exact id)
    | (exact in_mask hm rfl)
    | (with_reducible exact fun _ => rfl)
    | (exact Sub.trans hm rfl)
    | (intro _)
    | (extract_lets +onlyGivenNames s1; first | (refine Keeps.cut (t := s1) ?_ ?_; rotate_left; intro hs1; clear_value s1; rotate_right; subst s1) | clear_value s1 | (have hm := s1; clear hm))
    | (with_reducible exact rfl)
    | (with_reducible apply each_keeps)
    | (with_reducible apply wrb_keeps)
    | (with_reducible apply postEvent_keeps)
    | (with_reducible apply id_keeps)
    | split
    | (with_reducible apply Keeps.upd)
    | (dsimp only)
    | (exact rfl)

theorem doSfpFaultClearDelay_keeps {m : Nat} {s0 s : State} {x1} (hm : 575525617724 ||| m = m) (h : Keeps m s0 s) : Keeps m s0 (doSfpFaultClearDelay x1 s) := by
  unfold doSfpFaultClearDelay
  repeat' first
    | (with_reducible assumption)
    | (exact Sub.trans hm rfl)
    | (intro _)
    | (with_reducible exact rfl)
    | (with_reducible apply setPortState_keeps)
    | (with_reducible apply id_keeps)
    | split
    | (dsimp only)
    | (exact rfl)

theorem writePortCfg_keeps {m : Nat} {s0 s : State} {x1 x2} (hm : 575525617724 ||| m = m) (h : Keeps m s0 s) : Keeps m s0 (writePortCfg x1 x2 s) := by
  unfold writePortCfg
  repeat' first
    | (with_reducible assumption)
    | (exact Sub.trans hm rfl)
    | (intro _)
    | (extract_lets +onlyGivenNames s1; first | (refine Keeps.cut (t := s1) ?_ ?_; rotate_left; intro hs1; clear_value s1; rotate_right; subst s1) | clear_value s1 | (have hm := s1; clear hm))
    | (with_reducible exact rfl)
    | (with_reducible apply wrb_keeps)
    | (with_reducible apply setPortState_keeps)
    | (with_reducible apply id_keeps)
    | split
    | (dsimp only)
    | (exact rfl)

theorem latchWide_keeps {m : Nat} {s0 s : State} (hm : 549755813888 ||| m = m) (h : Keeps m s0 s) : Keeps m s0 (latchWide s) := by
  unfold latchWide
  repeat' first
    | (with_reducible assumption)
    | (exact Sub.trans hm rfl)
    | (intro _)
    | (extract_lets +onlyGivenNames s1; first | (refine Keeps.cut (t := s1) ?_ ?_; rotate_left; intro hs1; clear_value s1; rotate_right; subst s1) | clear_value s1 | (have hm := s1; clear hm))
    | (with_reducible exact rfl)
    | (with_reducible apply wr_keeps)
    | (with_reducible apply id_keeps)
    | split
    | (dsimp only)
    | (exact rfl)

theorem doWideTimeRead_keeps {m : Nat} {s0 s : State} (hm : 549755813892 ||| m = m) (h : Keeps m s0 s) : Keeps m s0 (doWideTimeRead s) := by
  unfold doWideTimeRead
  repeat' first
    | (with_reducible assumption)
    | (exact Sub.trans hm rfl)
    | (intro _)
    | (with_reducible exact rfl)
    | (with_reducible apply emit_keeps)
    | (with_reducible apply latchWide_keeps)
    | (with_reducible apply id_keeps)
    | split
    | (dsimp only)
    | (exact rfl)

theorem doPpsOutputPulseStart_keeps {m : Nat} {s0 s : State} (hm : 68 ||| m = m) (h : Keeps m s0 s) : Keeps m s0 (doPpsOutputPulseStart s) := by
  unfold doPpsOutputPulseStart
  repeat' first
    | (with_reducible assumption)
    | (exact Sub.trans hm rfl)
    | (intro _)
    | (extract_lets +onlyGivenNames s1; first | (refine Keeps.cut (t := s1) ?_ ?_; rotate_left; intro hs1; clear_value s1; rotate_right; subst s1) | clear_value s1 | (have hm := s1; clear hm))
    | (with_reducible exact rfl)
    | (with_reducible apply startPps_keeps)
    | (with_reducible apply id_keeps)
    | split
    | (dsimp only)
    | (exact rfl)

theorem doPpsOutputPulseEnd_keeps {m : Nat} {s0 s : State} (hm : 68 ||| m = m) (h : Keeps m s0 s) : Keeps m s0 (doPpsOutputPulseEnd s) := by
  unfold doPpsOutputPulseEnd
  repeat' first
    | (with_reducible assumption)
    | (exact Sub.trans hm rfl)
    | (intro _)
    | (with_reducible exact rfl)
    | (with_reducible apply ppsPulse_keeps)
    | (with_reducible apply id_keeps)
    | split
    | (dsimp only)
    | (exact rfl)

end Sys2Proof.Laws
end

