-- ==== Sys2Proof/Laws/Keeps/Guard.lean ====
section
/-! SUPPORT. Every operation of Machine/Guard.lean keeps what Laws/Keeps/Base.lean states. -/

namespace Sys2Proof.Laws
open Sys2Proof Sys2Proof.Machine

theorem modCtl_keeps {m : Nat} {s0 s : State} {x1} (hm : 8192 ||| m = m) (h : Keeps m s0 s) : Keeps m s0 (modCtl x1 s) := by
  unfold modCtl
  repeat' first
    | (with_reducible assumption)
    | (with_reducible exact id)
    | (exact in_mask hm rfl)
    | (with_reducible exact fun _ => rfl)
    | (exact Sub.trans hm rfl)
    | (intro _)
    | (extract_lets +onlyGivenNames s1; first | (refine Keeps.cut (t := s1) ?_ ?_; rotate_left; intro hs1; clear_value s1; rotate_right; subst s1) | clear_value s1 | (have hm := s1; clear hm))
    | (with_reducible exact rfl)
    | (with_reducible apply id_keeps)
    | split
    | (with_reducible apply Keeps.upd)
    | (dsimp only)
    | (exact rfl)

theorem modPwr_keeps {m : Nat} {s0 s : State} {x1} (hm : 16384 ||| m = m) (h : Keeps m s0 s) : Keeps m s0 (modPwr x1 s) := by
  unfold modPwr
  repeat' first
    | (with_reducible assumption)
    | (with_reducible exact id)
    | (exact in_mask hm rfl)
    | (with_reducible exact fun _ => rfl)
    | (exact Sub.trans hm rfl)
    | (intro _)
    | (extract_lets +onlyGivenNames s1; first | (refine Keeps.cut (t := s1) ?_ ?_; rotate_left; intro hs1; clear_value s1; rotate_right; subst s1) | clear_value s1 | (have hm := s1; clear hm))
    | (with_reducible exact rfl)
    | (with_reducible apply id_keeps)
    | split
    | (with_reducible apply Keeps.upd)
    | (dsimp only)
    | (exact rfl)

theorem updateBeam_keeps {m : Nat} {s0 s : State} {x1} (hm : 288230401921523764 ||| m = m) (h : Keeps m s0 s) : Keeps m s0 (updateBeam x1 s) := by
  unfold updateBeam
  repeat' first
    | (with_reducible assumption)
    | (with_reducible exact id)
    | (exact in_mask hm rfl)
    | (with_reducible exact fun _ => rfl)
    | (exact Sub.trans hm rfl)
    | (intro _)
    | (extract_lets +onlyGivenNames s1; first | (refine Keeps.cut (t := s1) ?_ ?_; rotate_left; intro hs1; clear_value s1; rotate_right; subst s1) | clear_value s1 | (have hm := s1; clear hm))
    | (with_reducible exact rfl)
    | (with_reducible apply modCtl_keeps)
    | (with_reducible apply wrb_keeps)
    | (with_reducible apply postDrop_keeps)
    | (with_reducible apply bump_keeps)
    | (with_reducible apply satSaf_keeps)
    | (with_reducible apply id_keeps)
    | split
    | (with_reducible apply Keeps.upd)
    | (dsimp only)
    | (exact rfl)

theorem showStates_keeps {m : Nat} {s0 s : State} (hm : 5066549580791808 ||| m = m) (h : Keeps m s0 s) : Keeps m s0 (showStates s) := by
  unfold showStates
  repeat' first
    | (with_reducible assumption)
    | (with_reducible exact id)
    | (exact in_mask hm rfl)
    | (with_reducible exact fun _ => rfl)
    | (exact Sub.trans hm rfl)
    | (intro _)
    | (extract_lets +onlyGivenNames s1; first | (refine Keeps.cut (t := s1) ?_ ?_; rotate_left; intro hs1; clear_value s1; rotate_right; subst s1) | clear_value s1 | (have hm := s1; clear hm))
    | (with_reducible exact rfl)
    | (with_reducible apply wrf_keeps)
    | (with_reducible apply id_keeps)
    | split
    | (with_reducible apply Keeps.upd)
    | (dsimp only)
    | (exact rfl)

theorem modCam_keeps {m : Nat} {s0 s : State} {x1} (hm : 131072 ||| m = m) (h : Keeps m s0 s) : Keeps m s0 (modCam x1 s) := by
  unfold modCam
  repeat' first
    | (with_reducible assumption)
    | (with_reducible exact id)
    | (exact in_mask hm rfl)
    | (with_reducible exact fun _ => rfl)
    | (exact Sub.trans hm rfl)
    | (intro _)
    | (extract_lets +onlyGivenNames s1; first | (refine Keeps.cut (t := s1) ?_ ?_; rotate_left; intro hs1; clear_value s1; rotate_right; subst s1) | clear_value s1 | (have hm := s1; clear hm))
    | (with_reducible exact rfl)
    | (with_reducible apply id_keeps)
    | split
    | (with_reducible apply Keeps.upd)
    | (dsimp only)
    | (exact rfl)

theorem modCtx_keeps {m : Nat} {s0 s : State} {x1 x2} (hm : 131072 ||| m = m) (h : Keeps m s0 s) : Keeps m s0 (modCtx x1 x2 s) := by
  unfold modCtx
  repeat' first
    | (with_reducible assumption)
    | (with_reducible exact id)
    | (exact in_mask hm rfl)
    | (with_reducible exact fun _ => rfl)
    | (exact Sub.trans hm rfl)
    | (intro _)
    | (extract_lets +onlyGivenNames s1; first | (refine Keeps.cut (t := s1) ?_ ?_; rotate_left; intro hs1; clear_value s1; rotate_right; subst s1) | clear_value s1 | (have hm := s1; clear hm))
    | (with_reducible exact rfl)
    | (with_reducible apply modCam_keeps)
    | (with_reducible apply id_keeps)
    | split
    | (with_reducible apply Keeps.upd)
    | (dsimp only)
    | (exact rfl)

theorem modBus_keeps {m : Nat} {s0 s : State} {x1 x2} (hm : 131072 ||| m = m) (h : Keeps m s0 s) : Keeps m s0 (modBus x1 x2 s) := by
  unfold modBus
  repeat' first
    | (with_reducible assumption)
    | (with_reducible exact id)
    | (exact in_mask hm rfl)
    | (with_reducible exact fun _ => rfl)
    | (exact Sub.trans hm rfl)
    | (intro _)
    | (extract_lets +onlyGivenNames s1; first | (refine Keeps.cut (t := s1) ?_ ?_; rotate_left; intro hs1; clear_value s1; rotate_right; subst s1) | clear_value s1 | (have hm := s1; clear hm))
    | (with_reducible exact rfl)
    | (with_reducible apply modCam_keeps)
    | (with_reducible apply id_keeps)
    | split
    | (with_reducible apply Keeps.upd)
    | (dsimp only)
    | (exact rfl)

theorem showCam_keeps {m : Nat} {s0 s : State} (hm : 72057594037927936 ||| m = m) (h : Keeps m s0 s) : Keeps m s0 (showCam s) := by
  unfold showCam
  repeat' first
    | (with_reducible assumption)
    | (exact Sub.trans hm rfl)
    | (intro _)
    | (extract_lets +onlyGivenNames s1; first | (refine Keeps.cut (t := s1) ?_ ?_; rotate_left; intro hs1; clear_value s1; rotate_right; subst s1) | clear_value s1 | (have hm := s1; clear hm))
    | (with_reducible exact rfl)
    | (with_reducible apply wr_keeps)
    | (with_reducible apply each_keeps)
    | (with_reducible apply wrf_keeps)
    | (with_reducible apply id_keeps)
    | split
    | (dsimp only)
    | (exact rfl)

theorem changeMode_keeps {m : Nat} {s0 s : State} {x1 x2 x3} (hm : 941816947111114868 ||| m = m) (h : Keeps m s0 s) : Keeps m s0 (changeMode x1 x2 x3 s) := by
  unfold changeMode
  repeat' first
    | (with_reducible assumption)
    | (exact Sub.trans hm rfl)
    | (intro _)
    | (extract_lets +onlyGivenNames s1; first | (refine Keeps.cut (t := s1) ?_ ?_; rotate_left; intro hs1; clear_value s1; rotate_right; subst s1) | clear_value s1 | (have hm := s1; clear hm))
    | (with_reducible exact rfl)
    | (with_reducible apply wr_keeps)
    | (with_reducible apply postEvent_keeps)
    | (with_reducible apply markNewlyRead_keeps)
    | (with_reducible apply releaseSteps_keeps)
    | (with_reducible apply showCam_keeps)
    | (with_reducible apply showStates_keeps)
    | (with_reducible apply updateBeam_keeps)
    | (with_reducible apply updateEnables_keeps)
    | (with_reducible apply id_keeps)
    | split
    | (dsimp only)
    | (exact rfl)

theorem logCut_keeps {m : Nat} {s0 s : State} {x1 x2 x3 x4 x5} (hm : 9007225024548916 ||| m = m) (h : Keeps m s0 s) : Keeps m s0 (logCut x1 x2 x3 x4 x5 s) := by
  unfold logCut
  repeat' first
    | (with_reducible assumption)
    | (with_reducible exact id)
    | (exact in_mask hm rfl)
    | (with_reducible exact fun _ => rfl)
    | (exact Sub.trans hm rfl)
    | (intro _)
    | (extract_lets +onlyGivenNames s1; first | (refine Keeps.cut (t := s1) ?_ ?_; rotate_left; intro hs1; clear_value s1; rotate_right; subst s1) | clear_value s1 | (have hm := s1; clear hm))
    | (with_reducible exact rfl)
    | (with_reducible apply each_keeps)
    | (with_reducible apply logFrames_keeps)
    | (with_reducible apply dropOwed_keeps)
    | (with_reducible apply id_keeps)
    | split
    | (with_reducible apply Keeps.upd)
    | (dsimp only)
    | (exact rfl)

theorem logPart_keeps {m : Nat} {s0 s : State} {x1 x2 x3 x4 x5} (hm : 9007225024548916 ||| m = m) (h : Keeps m s0 s) : Keeps m s0 (logPart x1 x2 x3 x4 x5 s) := by
  unfold logPart
  repeat' first
    | (with_reducible assumption)
    | (with_reducible exact id)
    | (exact Sub.trans hm rfl)
    | (intro _)
    | (extract_lets +onlyGivenNames s1; first | (refine Keeps.cut (t := s1) ?_ ?_; rotate_left; intro hs1; clear_value s1; rotate_right; subst s1) | clear_value s1 | (have hm := s1; clear hm))
    | (with_reducible exact rfl)
    | (with_reducible apply each_keeps)
    | (with_reducible apply logFrames_keeps)
    | (with_reducible apply id_keeps)
    | split
    | (dsimp only)
    | (exact rfl)

theorem cutPass_keeps {m : Nat} {s0 s : State} {x1 x2} (hm : 9007225024548916 ||| m = m) (h : Keeps m s0 s) : Keeps m s0 (cutPass x1 x2 s) := by
  unfold cutPass
  repeat' first
    | (with_reducible assumption)
    | (with_reducible exact id)
    | (exact in_mask hm rfl)
    | (with_reducible exact fun _ => rfl)
    | (exact Sub.trans hm rfl)
    | (intro _)
    | (extract_lets +onlyGivenNames s1; first | (refine Keeps.cut (t := s1) ?_ ?_; rotate_left; intro hs1; clear_value s1; rotate_right; subst s1) | clear_value s1 | (have hm := s1; clear hm))
    | (with_reducible exact rfl)
    | (with_reducible apply each_keeps)
    | (with_reducible apply dropCarrier_keeps)
    | (with_reducible apply logCut_keeps)
    | (with_reducible apply logPart_keeps)
    | (with_reducible apply logRemainder_keeps)
    | (with_reducible apply modPass_keeps)
    | (with_reducible apply id_keeps)
    | split
    | (with_reducible apply Keeps.upd)
    | (dsimp only)
    | (exact rfl)

theorem endSending_keeps {m : Nat} {s0 s : State} (hm : 13792299628630068 ||| m = m) (h : Keeps m s0 s) : Keeps m s0 (endSending s) := by
  unfold endSending
  repeat' first
    | (with_reducible assumption)
    | (with_reducible exact id)
    | (exact in_mask hm rfl)
    | (with_reducible exact fun _ => rfl)
    | (exact Sub.trans hm rfl)
    | (intro _)
    | (extract_lets +onlyGivenNames s1; first | (refine Keeps.cut (t := s1) ?_ ?_; rotate_left; intro hs1; clear_value s1; rotate_right; subst s1) | clear_value s1 | (have hm := s1; clear hm))
    | (with_reducible exact rfl)
    | (with_reducible apply modPass_keeps)
    | (with_reducible apply each_keeps)
    | (with_reducible apply withholdRow_keeps)
    | (with_reducible apply dropCarrier_keeps)
    | (with_reducible apply wrf_keeps)
    | (with_reducible apply id_keeps)
    | split
    | (with_reducible apply Keeps.upd)
    | (dsimp only)
    | (exact rfl)

theorem stopPlacement_keeps {m : Nat} {s0 s : State} {x1 x2} (hm : 13793399140259892 ||| m = m) (h : Keeps m s0 s) : Keeps m s0 (stopPlacement x1 x2 s) := by
  unfold stopPlacement
  repeat' first
    | (with_reducible assumption)
    | (with_reducible exact id)
    | (exact in_mask hm rfl)
    | (with_reducible exact fun _ => rfl)
    | (exact Sub.trans hm rfl)
    | (intro _)
    | (extract_lets +onlyGivenNames s1; first | (refine Keeps.cut (t := s1) ?_ ?_; rotate_left; intro hs1; clear_value s1; rotate_right; subst s1) | clear_value s1 | (have hm := s1; clear hm))
    | (with_reducible exact rfl)
    | (with_reducible apply modPlc_keeps)
    | (with_reducible apply endSending_keeps)
    | (with_reducible apply stopAxis_keeps)
    | (with_reducible apply id_keeps)
    | split
    | (with_reducible apply Keeps.upd)
    | (dsimp only)
    | (exact rfl)

theorem satThm_keeps {m : Nat} {s0 s : State} {x1} (hm : 25769803828 ||| m = m) (h : Keeps m s0 s) : Keeps m s0 (satThm x1 s) := by
  unfold satThm
  repeat' first
    | (with_reducible assumption)
    | (exact Sub.trans hm rfl)
    | (intro _)
    | (with_reducible exact rfl)
    | (with_reducible apply postEvent_keeps)
    | (with_reducible apply id_keeps)
    | split
    | (dsimp only)
    | (exact rfl)

theorem calDone_keeps {m : Nat} {s0 s : State} {x1 x2} (hm : 25769803828 ||| m = m) (h : Keeps m s0 s) : Keeps m s0 (calDone x1 x2 s) := by
  unfold calDone
  repeat' first
    | (with_reducible assumption)
    | (exact Sub.trans hm rfl)
    | (intro _)
    | (with_reducible exact rfl)
    | (with_reducible apply postEvent_keeps)
    | (with_reducible apply id_keeps)
    | split
    | (dsimp only)
    | (exact rfl)

theorem showCal_keeps {m : Nat} {s0 s : State} (hm : 137438953472 ||| m = m) (h : Keeps m s0 s) : Keeps m s0 (showCal s) := by
  unfold showCal
  repeat' first
    | (with_reducible assumption)
    | (exact Sub.trans hm rfl)
    | (intro _)
    | (extract_lets +onlyGivenNames s1; first | (refine Keeps.cut (t := s1) ?_ ?_; rotate_left; intro hs1; clear_value s1; rotate_right; subst s1) | clear_value s1 | (have hm := s1; clear hm))
    | (with_reducible exact rfl)
    | (with_reducible apply wrb_keeps)
    | (with_reducible apply wrf_keeps)
    | (with_reducible apply id_keeps)
    | split
    | (dsimp only)
    | (exact rfl)

theorem abandonRun_keeps {m : Nat} {s0 s : State} (hm : 163208790068 ||| m = m) (h : Keeps m s0 s) : Keeps m s0 (abandonRun s) := by
  unfold abandonRun
  repeat' first
    | (with_reducible assumption)
    | (with_reducible exact id)
    | (exact in_mask hm rfl)
    | (with_reducible exact fun _ => rfl)
    | (exact Sub.trans hm rfl)
    | (intro _)
    | (extract_lets +onlyGivenNames s1; first | (refine Keeps.cut (t := s1) ?_ ?_; rotate_left; intro hs1; clear_value s1; rotate_right; subst s1) | clear_value s1 | (have hm := s1; clear hm))
    | (with_reducible exact rfl)
    | (with_reducible apply showCal_keeps)
    | (with_reducible apply bump_keeps)
    | (with_reducible apply satThm_keeps)
    | (with_reducible apply calDone_keeps)
    | (with_reducible apply id_keeps)
    | split
    | (with_reducible apply Keeps.upd)
    | (dsimp only)
    | (exact rfl)

theorem enterHold_keeps {m : Nat} {s0 s : State} {x1} (hm : 969120157291034740 ||| m = m) (h : Keeps m s0 s) : Keeps m s0 (enterHold x1 s) := by
  unfold enterHold
  repeat' first
    | (with_reducible assumption)
    | (with_reducible exact id)
    | (exact in_mask hm rfl)
    | (with_reducible exact fun _ => rfl)
    | (exact Sub.trans hm rfl)
    | (intro _)
    | (extract_lets +onlyGivenNames s1; first | (refine Keeps.cut (t := s1) ?_ ?_; rotate_left; intro hs1; clear_value s1; rotate_right; subst s1) | clear_value s1 | (have hm := s1; clear hm))
    | (with_reducible exact rfl)
    | (with_reducible apply modCtl_keeps)
    | (with_reducible apply abandonRun_keeps)
    | (with_reducible apply changeMode_keeps)
    | (with_reducible apply cutPass_keeps)
    | (with_reducible apply modPlc_keeps)
    | (with_reducible apply recallAll_keeps)
    | (with_reducible apply stopPlacement_keeps)
    | (with_reducible apply each_keeps)
    | (with_reducible apply flushQueue_keeps)
    | (with_reducible apply stopAndFlush_keeps)
    | (with_reducible apply id_keeps)
    | split
    | (with_reducible apply Keeps.upd)
    | (dsimp only)
    | (exact rfl)

theorem holdCause_keeps {m : Nat} {s0 s : State} {x1} (hm : 969120157291034740 ||| m = m) (h : Keeps m s0 s) : Keeps m s0 (holdCause x1 s) := by
  unfold holdCause
  repeat' first
    | (with_reducible assumption)
    | (with_reducible exact id)
    | (exact in_mask hm rfl)
    | (with_reducible exact fun _ => rfl)
    | (exact Sub.trans hm rfl)
    | (intro _)
    | (extract_lets +onlyGivenNames s1; first | (refine Keeps.cut (t := s1) ?_ ?_; rotate_left; intro hs1; clear_value s1; rotate_right; subst s1) | clear_value s1 | (have hm := s1; clear hm))
    | (with_reducible exact rfl)
    | (with_reducible apply wrb_keeps)
    | (with_reducible apply finish_keeps)
    | (with_reducible apply modCtl_keeps)
    | (with_reducible apply enterHold_keeps)
    | (with_reducible apply stopPlacement_keeps)
    | (with_reducible apply id_keeps)
    | split
    | (with_reducible apply Keeps.upd)
    | (dsimp only)
    | (exact rfl)

theorem endBringup_keeps {m : Nat} {s0 s : State} (hm : 941816947111114868 ||| m = m) (h : Keeps m s0 s) : Keeps m s0 (endBringup s) := by
  unfold endBringup
  repeat' first
    | (with_reducible assumption)
    | (with_reducible exact id)
    | (exact in_mask hm rfl)
    | (with_reducible exact fun _ => rfl)
    | (exact Sub.trans hm rfl)
    | (intro _)
    | (extract_lets +onlyGivenNames s1; first | (refine Keeps.cut (t := s1) ?_ ?_; rotate_left; intro hs1; clear_value s1; rotate_right; subst s1) | clear_value s1 | (have hm := s1; clear hm))
    | (with_reducible exact rfl)
    | (with_reducible apply wrb_keeps)
    | (with_reducible apply changeMode_keeps)
    | (with_reducible apply finish_keeps)
    | (with_reducible apply modCtl_keeps)
    | (with_reducible apply id_keeps)
    | split
    | (with_reducible apply Keeps.upd)
    | (dsimp only)
    | (exact rfl)

theorem bringupCheck_keeps {m : Nat} {s0 s : State} (hm : 941816947111114868 ||| m = m) (h : Keeps m s0 s) : Keeps m s0 (bringupCheck s) := by
  unfold bringupCheck
  repeat' first
    | (with_reducible assumption)
    | (with_reducible exact id)
    | (exact Sub.trans hm rfl)
    | (intro _)
    | (with_reducible exact rfl)
    | (with_reducible apply endBringup_keeps)
    | (with_reducible apply id_keeps)
    | split
    | (dsimp only)
    | (exact rfl)

theorem showTrip_keeps {m : Nat} {s0 s : State} (hm : 288230376151711744 ||| m = m) (h : Keeps m s0 s) : Keeps m s0 (showTrip s) := by
  unfold showTrip
  repeat' first
    | (with_reducible assumption)
    | (exact Sub.trans hm rfl)
    | (intro _)
    | (with_reducible exact rfl)
    | (with_reducible apply wrb_keeps)
    | (with_reducible apply id_keeps)
    | split
    | (dsimp only)
    | (exact rfl)

theorem tripGone_keeps {m : Nat} {s0 s : State} {x1} (hm : 288230376151719936 ||| m = m) (h : Keeps m s0 s) : Keeps m s0 (tripGone x1 s) := by
  unfold tripGone
  repeat' first
    | (with_reducible assumption)
    | (with_reducible exact id)
    | (exact in_mask hm rfl)
    | (with_reducible exact fun _ => rfl)
    | (exact Sub.trans hm rfl)
    | (intro _)
    | (extract_lets +onlyGivenNames s1; first | (refine Keeps.cut (t := s1) ?_ ?_; rotate_left; intro hs1; clear_value s1; rotate_right; subst s1) | clear_value s1 | (have hm := s1; clear hm))
    | (with_reducible exact rfl)
    | (with_reducible apply showTrip_keeps)
    | (with_reducible apply modCtl_keeps)
    | (with_reducible apply id_keeps)
    | split
    | (with_reducible apply Keeps.upd)
    | (dsimp only)
    | (exact rfl)

theorem bezelTrip_keeps {m : Nat} {s0 s : State} {x1 x2 x3 x4 x5} (hm : 969120157291034740 ||| m = m) (h : Keeps m s0 s) : Keeps m s0 (bezelTrip x1 x2 x3 x4 x5 s) := by
  unfold bezelTrip
  repeat' first
    | (with_reducible assumption)
    | (with_reducible exact id)
    | (exact in_mask hm rfl)
    | (with_reducible exact fun _ => rfl)
    | (exact Sub.trans hm rfl)
    | (intro _)
    | (extract_lets +onlyGivenNames s1; first | (refine Keeps.cut (t := s1) ?_ ?_; rotate_left; intro hs1; clear_value s1; rotate_right; subst s1) | clear_value s1 | (have hm := s1; clear hm))
    | (with_reducible exact rfl)
    | (with_reducible apply modCtl_keeps)
    | (with_reducible apply showTrip_keeps)
    | (with_reducible apply wr_keeps)
    | (with_reducible apply updateBeam_keeps)
    | (with_reducible apply bump_keeps)
    | (with_reducible apply satSaf_keeps)
    | (with_reducible apply postEvent_keeps)
    | (with_reducible apply holdCause_keeps)
    | (with_reducible apply id_keeps)
    | split
    | (with_reducible apply Keeps.upd)
    | (dsimp only)
    | (exact rfl)

theorem axisFault_keeps {m : Nat} {s0 s : State} {x1 x2} (hm : 969120157291034740 ||| m = m) (h : Keeps m s0 s) : Keeps m s0 (axisFault x1 x2 s) := by
  unfold axisFault
  repeat' first
    | (with_reducible assumption)
    | (with_reducible exact id)
    | (exact in_mask hm rfl)
    | (with_reducible exact fun _ => rfl)
    | (exact Sub.trans hm rfl)
    | (intro _)
    | (extract_lets +onlyGivenNames s1; first | (refine Keeps.cut (t := s1) ?_ ?_; rotate_left; intro hs1; clear_value s1; rotate_right; subst s1) | clear_value s1 | (have hm := s1; clear hm))
    | (with_reducible exact rfl)
    | (with_reducible apply postEvent_keeps)
    | (with_reducible apply wrb_keeps)
    | (with_reducible apply stopAndFlush_keeps)
    | (with_reducible apply setAxisState_keeps)
    | (with_reducible apply modAxis_keeps)
    | (with_reducible apply holdCause_keeps)
    | (with_reducible apply updateEnables_keeps)
    | (with_reducible apply id_keeps)
    | split
    | (with_reducible apply Keeps.upd)
    | (dsimp only)
    | (exact rfl)

theorem motionLinkFault_keeps {m : Nat} {s0 s : State} {x1 x2} (hm : 969120157291034740 ||| m = m) (h : Keeps m s0 s) : Keeps m s0 (motionLinkFault x1 x2 s) := by
  unfold motionLinkFault
  repeat' first
    | (with_reducible assumption)
    | (with_reducible exact id)
    | (exact in_mask hm rfl)
    | (with_reducible exact fun _ => rfl)
    | (exact Sub.trans hm rfl)
    | (intro _)
    | (extract_lets +onlyGivenNames s1; first | (refine Keeps.cut (t := s1) ?_ ?_; rotate_left; intro hs1; clear_value s1; rotate_right; subst s1) | clear_value s1 | (have hm := s1; clear hm))
    | (with_reducible exact rfl)
    | (with_reducible apply modAxis_keeps)
    | (with_reducible apply postEvent_keeps)
    | (with_reducible apply setHomed_keeps)
    | (with_reducible apply axisFault_keeps)
    | (with_reducible apply id_keeps)
    | split
    | (with_reducible apply Keeps.upd)
    | (dsimp only)
    | (exact rfl)

end Sys2Proof.Laws
end

