-- ==== Sys2Proof/Laws/Keeps/ThmBase.lean ====
section
/-! SUPPORT. Every operation of Machine/ThmBase.lean keeps what Laws/Keeps/Base.lean states. -/

namespace Sys2Proof.Laws
open Sys2Proof Sys2Proof.Machine

theorem modThm_keeps {m : Nat} {s0 s : State} {x1} (hm : 32768 ||| m = m) (h : Keeps m s0 s) : Keeps m s0 (modThm x1 s) := by
  unfold modThm
  repeat' first
    | (with_reducible assumption)
    | (with_reducible exact id)
    | (exact in_mask hm rfl)
    | (with_reducible exact fun _ => rfl)
    | (exact Sub.trans hm rfl)
    | (intro _)
    | (extract_lets +onlyGivenNames s1; first | (refine Keeps.cut (t := s1) ?_ ?_; rotate_left; intro hs1; clear_value s1; rotate_right; subst s1) | clear_value s1 | (have hm := s1; clear hm))
    | (with_reducible exact rfl)
    | (with_reducible apply id_keeps)
    | split
    | (with_reducible apply Keeps.upd)
    | (dsimp only)
    | (exact rfl)

theorem startConv_keeps {m : Nat} {s0 s : State} (hm : 32768 ||| m = m) (h : Keeps m s0 s) : Keeps m s0 (startConv s) := by
  unfold startConv
  repeat' first
    | (with_reducible assumption)
    | (with_reducible exact id)
    | (exact in_mask hm rfl)
    | (with_reducible exact fun _ => rfl)
    | (exact Sub.trans hm rfl)
    | (intro _)
    | (extract_lets +onlyGivenNames s1; first | (refine Keeps.cut (t := s1) ?_ ?_; rotate_left; intro hs1; clear_value s1; rotate_right; subst s1) | clear_value s1 | (have hm := s1; clear hm))
    | (with_reducible exact rfl)
    | (with_reducible apply modThm_keeps)
    | (with_reducible apply id_keeps)
    | split
    | (with_reducible apply Keeps.upd)
    | (dsimp only)
    | (exact rfl)

theorem showQueue_keeps {m : Nat} {s0 s : State} (hm : 137438953472 ||| m = m) (h : Keeps m s0 s) : Keeps m s0 (showQueue s) := by
  unfold showQueue
  repeat' first
    | (with_reducible assumption)
    | (exact Sub.trans hm rfl)
    | (intro _)
    | (with_reducible exact rfl)
    | (with_reducible apply wrf_keeps)
    | (with_reducible apply wrb_keeps)
    | (with_reducible apply id_keeps)
    | split
    | (dsimp only)
    | (exact rfl)

theorem queueConv_keeps {m : Nat} {s0 s : State} {x1 x2 x3} (hm : 137438986240 ||| m = m) (h : Keeps m s0 s) : Keeps m s0 (queueConv x1 x2 x3 s) := by
  unfold queueConv
  repeat' first
    | (with_reducible assumption)
    | (with_reducible exact id)
    | (exact in_mask hm rfl)
    | (with_reducible exact fun _ => rfl)
    | (exact Sub.trans hm rfl)
    | (intro _)
    | (extract_lets +onlyGivenNames s1; first | (refine Keeps.cut (t := s1) ?_ ?_; rotate_left; intro hs1; clear_value s1; rotate_right; subst s1) | clear_value s1 | (have hm := s1; clear hm))
    | (with_reducible exact rfl)
    | (with_reducible apply showQueue_keeps)
    | (with_reducible apply startConv_keeps)
    | (with_reducible apply modThm_keeps)
    | (with_reducible apply id_keeps)
    | split
    | (with_reducible apply Keeps.upd)
    | (dsimp only)
    | (exact rfl)

theorem checkDie_keeps {m : Nat} {s0 s : State} (hm : 969120157291034740 ||| m = m) (h : Keeps m s0 s) : Keeps m s0 (checkDie s) := by
  unfold checkDie
  repeat' first
    | (with_reducible assumption)
    | (with_reducible exact id)
    | (exact in_mask hm rfl)
    | (with_reducible exact fun _ => rfl)
    | (exact Sub.trans hm rfl)
    | (intro _)
    | (extract_lets +onlyGivenNames s1; first | (refine Keeps.cut (t := s1) ?_ ?_; rotate_left; intro hs1; clear_value s1; rotate_right; subst s1) | clear_value s1 | (have hm := s1; clear hm))
    | (with_reducible exact rfl)
    | (with_reducible apply wrb_keeps)
    | (with_reducible apply holdCause_keeps)
    | (with_reducible apply postEvent_keeps)
    | (with_reducible apply modThm_keeps)
    | (with_reducible apply id_keeps)
    | split
    | (with_reducible apply Keeps.upd)
    | (dsimp only)
    | (exact rfl)

theorem requestConv_keeps {m : Nat} {s0 s : State} {x1 x2 x3} (hm : 969120157291034740 ||| m = m) (h : Keeps m s0 s) : Keeps m s0 (requestConv x1 x2 x3 s) := by
  unfold requestConv
  repeat' first
    | (with_reducible assumption)
    | (exact Sub.trans hm rfl)
    | (intro _)
    | (with_reducible exact rfl)
    | (with_reducible apply checkDie_keeps)
    | (with_reducible apply wr_keeps)
    | (with_reducible apply wrb_keeps)
    | (with_reducible apply queueConv_keeps)
    | (with_reducible apply id_keeps)
    | split
    | (dsimp only)
    | (exact rfl)

theorem thmAtReset_keeps {m : Nat} {s0 s : State} {x1} (hm : 163208790068 ||| m = m) (h : Keeps m s0 s) : Keeps m s0 (thmAtReset x1 s) := by
  unfold thmAtReset
  repeat' first
    | (with_reducible assumption)
    | (with_reducible exact id)
    | (exact in_mask hm rfl)
    | (with_reducible exact fun _ => rfl)
    | (exact Sub.trans hm rfl)
    | (intro _)
    | (extract_lets +onlyGivenNames s1; first | (refine Keeps.cut (t := s1) ?_ ?_; rotate_left; intro hs1; clear_value s1; rotate_right; subst s1) | clear_value s1 | (have hm := s1; clear hm))
    | (with_reducible exact rfl)
    | (with_reducible apply abandonRun_keeps)
    | (with_reducible apply showQueue_keeps)
    | (with_reducible apply modThm_keeps)
    | (with_reducible apply id_keeps)
    | split
    | (with_reducible apply Keeps.upd)
    | (dsimp only)
    | (exact rfl)

end Sys2Proof.Laws
end

