-- ==== Sys2Proof/Laws/Keeps/CamBase.lean ====
section
/-! SUPPORT. Every operation of Machine/CamBase.lean keeps what Laws/Keeps/Base.lean states. -/

namespace Sys2Proof.Laws
open Sys2Proof Sys2Proof.Machine

theorem showCtx_keeps {m : Nat} {s0 s : State} {x1} (hm : 72057594037927936 ||| m = m) (h : Keeps m s0 s) : Keeps m s0 (showCtx x1 s) := by
  unfold showCtx
  repeat' first
    | (with_reducible assumption)
    | (with_reducible exact id)
    | (exact in_mask hm rfl)
    | (with_reducible exact fun _ => rfl)
    | (exact Sub.trans hm rfl)
    | (intro _)
    | (extract_lets +onlyGivenNames s1; first | (refine Keeps.cut (t := s1) ?_ ?_; rotate_left; intro hs1; clear_value s1; rotate_right; subst s1) | clear_value s1 | (have hm := s1; clear hm))
    | (with_reducible exact rfl)
    | (with_reducible apply wrf_keeps)
    | (with_reducible apply id_keeps)
    | split
    | (with_reducible apply Keeps.upd)
    | (dsimp only)
    | (exact rfl)

theorem bumpPort_keeps {m : Nat} {s0 s : State} {x1 x2 x3} (hm : 25769803828 ||| m = m) (hr0 : regMask x1 ||| m = m) (hk0 : oneBlock x1 = true) (h : Keeps m s0 s) : Keeps m s0 (bumpPort x1 x2 x3 s) := by
  unfold bumpPort
  repeat' first
    | (with_reducible assumption)
    | (exact Sub.trans hm rfl)
    | (intro _)
    | (with_reducible exact rfl)
    | (with_reducible apply bump_keeps)
    | (with_reducible apply postEvent_keeps)
    | (with_reducible apply id_keeps)
    | split
    | (dsimp only)
    | (exact rfl)

theorem bumpCtx_keeps {m : Nat} {s0 s : State} {x1 x2 x3} (hm : 25769803828 ||| m = m) (hr0 : regMask x1 ||| m = m) (hk0 : oneBlock x1 = true) (h : Keeps m s0 s) : Keeps m s0 (bumpCtx x1 x2 x3 s) := by
  unfold bumpCtx
  repeat' first
    | (with_reducible assumption)
    | (with_reducible exact id)
    | (exact in_mask hm rfl)
    | (with_reducible exact fun _ => rfl)
    | (exact Sub.trans hm rfl)
    | (intro _)
    | (extract_lets +onlyGivenNames s1; first | (refine Keeps.cut (t := s1) ?_ ?_; rotate_left; intro hs1; clear_value s1; rotate_right; subst s1) | clear_value s1 | (have hm := s1; clear hm))
    | (with_reducible exact rfl)
    | (with_reducible apply bump_keeps)
    | (with_reducible apply postEvent_keeps)
    | (with_reducible apply id_keeps)
    | split
    | (with_reducible apply Keeps.upd)
    | (dsimp only)
    | (exact rfl)

theorem camRefReset_keeps {m : Nat} {s0 s : State} {x1 x2} (hm : 72057619807862836 ||| m = m) (h : Keeps m s0 s) : Keeps m s0 (camRefReset x1 x2 s) := by
  unfold camRefReset
  repeat' first
    | (with_reducible assumption)
    | (with_reducible exact id)
    | (exact in_mask hm rfl)
    | (with_reducible exact fun _ => rfl)
    | (exact Sub.trans hm rfl)
    | (intro _)
    | (extract_lets +onlyGivenNames s1; first | (refine Keeps.cut (t := s1) ?_ ?_; rotate_left; intro hs1; clear_value s1; rotate_right; subst s1) | clear_value s1 | (have hm := s1; clear hm))
    | (with_reducible exact rfl)
    | (with_reducible apply postEvent_keeps)
    | (with_reducible apply wrb_keeps)
    | (with_reducible apply modCtx_keeps)
    | (with_reducible apply id_keeps)
    | split
    | (with_reducible apply Keeps.upd)
    | (dsimp only)
    | (exact rfl)

theorem camMapDone_keeps {m : Nat} {s0 s : State} {x1 x2} (hm : 72057594038059008 ||| m = m) (h : Keeps m s0 s) : Keeps m s0 (camMapDone x1 x2 s) := by
  unfold camMapDone
  repeat' first
    | (with_reducible assumption)
    | (with_reducible exact id)
    | (exact in_mask hm rfl)
    | (with_reducible exact fun _ => rfl)
    | (exact Sub.trans hm rfl)
    | (intro _)
    | (extract_lets +onlyGivenNames s1; first | (refine Keeps.cut (t := s1) ?_ ?_; rotate_left; intro hs1; clear_value s1; rotate_right; subst s1) | clear_value s1 | (have hm := s1; clear hm))
    | (with_reducible exact rfl)
    | (with_reducible apply showCtx_keeps)
    | (with_reducible apply modCtx_keeps)
    | (with_reducible apply id_keeps)
    | split
    | (with_reducible apply Keeps.upd)
    | (dsimp only)
    | (exact rfl)

theorem trigOut_keeps {m : Nat} {s0 s : State} {x1 x2} (hm : 4 ||| m = m) (h : Keeps m s0 s) : Keeps m s0 (trigOut x1 x2 s) := by
  unfold trigOut
  repeat' first
    | (with_reducible assumption)
    | (exact Sub.trans hm rfl)
    | (intro _)
    | (with_reducible exact rfl)
    | (with_reducible apply sif_keeps)
    | (with_reducible apply emit_keeps)
    | (with_reducible apply id_keeps)
    | split
    | (dsimp only)
    | (exact rfl)

theorem camPulse.go_keeps {m : Nat} {s0 s : State} {x1 x2} (hm : 72057594038059012 ||| m = m) (h : Keeps m s0 s) : Keeps m s0 (camPulse.go x1 x2 s) := by
  unfold camPulse.go
  repeat' first
    | (with_reducible assumption)
    | (exact Sub.trans hm rfl)
    | (intro _)
    | (with_reducible exact rfl)
    | (with_reducible apply trigOut_keeps)
    | (with_reducible apply wr_keeps)
    | (with_reducible apply modCam_keeps)
    | (with_reducible apply id_keeps)
    | split
    | (dsimp only)
    | (exact rfl)

theorem camPulse_keeps {m : Nat} {s0 s : State} {x1 x2} (hm : 72057619807862836 ||| m = m) (h : Keeps m s0 s) : Keeps m s0 (camPulse x1 x2 s) := by
  unfold camPulse
  repeat' first
    | (with_reducible assumption)
    | (with_reducible exact id)
    | (exact in_mask hm rfl)
    | (with_reducible exact fun _ => rfl)
    | (exact Sub.trans hm rfl)
    | (intro _)
    | (extract_lets +onlyGivenNames s1; first | (refine Keeps.cut (t := s1) ?_ ?_; rotate_left; intro hs1; clear_value s1; rotate_right; subst s1) | clear_value s1 | (have hm := s1; clear hm))
    | (with_reducible exact rfl)
    | (with_reducible apply bumpPort_keeps)
    | (with_reducible apply camPulse.go_keeps)
    | (with_reducible apply id_keeps)
    | split
    | (with_reducible apply Keeps.upd)
    | (dsimp only)
    | (exact rfl)

theorem camTrigger_keeps {m : Nat} {s0 s : State} {x1 x2} (hm : 72057619807862836 ||| m = m) (h : Keeps m s0 s) : Keeps m s0 (camTrigger x1 x2 s) := by
  unfold camTrigger
  repeat' first
    | (with_reducible assumption)
    | (exact Sub.trans hm rfl)
    | (intro _)
    | (with_reducible exact rfl)
    | (with_reducible apply each_keeps)
    | (with_reducible apply camPulse_keeps)
    | (with_reducible apply id_keeps)
    | split
    | (dsimp only)
    | (exact rfl)

theorem camCompare_keeps {m : Nat} {s0 s : State} {x1 x2 x3} (hm : 72057619807862836 ||| m = m) (h : Keeps m s0 s) : Keeps m s0 (camCompare x1 x2 x3 s) := by
  unfold camCompare
  repeat' first
    | (with_reducible assumption)
    | (exact Sub.trans hm rfl)
    | (intro _)
    | (extract_lets +onlyGivenNames s1; first | (refine Keeps.cut (t := s1) ?_ ?_; rotate_left; intro hs1; clear_value s1; rotate_right; subst s1) | clear_value s1 | (have hm := s1; clear hm))
    | (with_reducible exact rfl)
    | (with_reducible apply each_keeps)
    | (with_reducible apply camPulse_keeps)
    | (with_reducible apply wrb_keeps)
    | (with_reducible apply id_keeps)
    | split
    | (dsimp only)
    | (exact rfl)

theorem camSample_keeps {m : Nat} {s0 s : State} {x1 x2} (hm : 131072 ||| m = m) (h : Keeps m s0 s) : Keeps m s0 (camSample x1 x2 s) := by
  unfold camSample
  repeat' first
    | (with_reducible assumption)
    | (with_reducible exact id)
    | (exact in_mask hm rfl)
    | (with_reducible exact fun _ => rfl)
    | (exact Sub.trans hm rfl)
    | (intro _)
    | (extract_lets +onlyGivenNames s1; first | (refine Keeps.cut (t := s1) ?_ ?_; rotate_left; intro hs1; clear_value s1; rotate_right; subst s1) | clear_value s1 | (have hm := s1; clear hm))
    | (with_reducible exact rfl)
    | (with_reducible apply modCam_keeps)
    | (with_reducible apply id_keeps)
    | split
    | (with_reducible apply Keeps.upd)
    | (dsimp only)
    | (exact rfl)

theorem settingsApplied_keeps {m : Nat} {s0 s : State} {x1 x2 x3 x4 x5 x6} (hm : 25769803828 ||| m = m) (h : Keeps m s0 s) : Keeps m s0 (settingsApplied x1 x2 x3 x4 x5 x6 s) := by
  unfold settingsApplied
  repeat' first
    | (with_reducible assumption)
    | (exact Sub.trans hm rfl)
    | (intro _)
    | (with_reducible exact rfl)
    | (with_reducible apply postEvent_keeps)
    | (with_reducible apply id_keeps)
    | split
    | (dsimp only)
    | (exact rfl)

theorem busStart_keeps {m : Nat} {s0 s : State} {x1 x2 x3 x4} (hm : 72057594038059012 ||| m = m) (h : Keeps m s0 s) : Keeps m s0 (busStart x1 x2 x3 x4 s) := by
  unfold busStart
  repeat' first
    | (with_reducible assumption)
    | (with_reducible exact id)
    | (exact in_mask hm rfl)
    | (with_reducible exact fun _ => rfl)
    | (exact Sub.trans hm rfl)
    | (intro _)
    | (extract_lets +onlyGivenNames s1; first | (refine Keeps.cut (t := s1) ?_ ?_; rotate_left; intro hs1; clear_value s1; rotate_right; subst s1) | clear_value s1 | (have hm := s1; clear hm))
    | (with_reducible exact rfl)
    | (with_reducible apply wrb_keeps)
    | (with_reducible apply emit_keeps)
    | (with_reducible apply modBus_keeps)
    | (with_reducible apply id_keeps)
    | split
    | (with_reducible apply Keeps.upd)
    | (dsimp only)
    | (exact rfl)

theorem modChange_keeps {m : Nat} {s0 s : State} {x1 x2 x3} (hm : 131072 ||| m = m) (h : Keeps m s0 s) : Keeps m s0 (modChange x1 x2 x3 s) := by
  unfold modChange
  repeat' first
    | (with_reducible assumption)
    | (with_reducible exact id)
    | (exact in_mask hm rfl)
    | (with_reducible exact fun _ => rfl)
    | (exact Sub.trans hm rfl)
    | (intro _)
    | (extract_lets +onlyGivenNames s1; first | (refine Keeps.cut (t := s1) ?_ ?_; rotate_left; intro hs1; clear_value s1; rotate_right; subst s1) | clear_value s1 | (have hm := s1; clear hm))
    | (with_reducible exact rfl)
    | (with_reducible apply modCtx_keeps)
    | (with_reducible apply id_keeps)
    | split
    | (with_reducible apply Keeps.upd)
    | (dsimp only)
    | (exact rfl)

theorem busNext_keeps {m : Nat} {s0 s : State} {x1 x2} (hm : 72057594038059012 ||| m = m) (h : Keeps m s0 s) : Keeps m s0 (busNext x1 x2 s) := by
  induction x2 generalizing s  with
  | zero =>
    rw [busNext]
    repeat' first
      | (with_reducible assumption)
      | (with_reducible exact id)
      | (exact in_mask hm rfl)
      | (with_reducible exact fun _ => rfl)
      | (exact Sub.trans hm rfl)
      | (intro _)
      | (extract_lets +onlyGivenNames s1; first | (refine Keeps.cut (t := s1) ?_ ?_; rotate_left; intro hs1; clear_value s1; rotate_right; subst s1) | clear_value s1 | (have hm := s1; clear hm))
      | (with_reducible exact rfl)
      | (with_reducible apply modBus_keeps)
      | (with_reducible apply modChange_keeps)
      | (with_reducible apply wrb_keeps)
      | (with_reducible apply busStart_keeps)
      | (with_reducible apply id_keeps)
      | split
      | (with_reducible apply Keeps.upd)
      | (dsimp only)
      | (exact rfl)
  | succ n ih =>
    rw [busNext]
    repeat' first
      | (with_reducible apply ih)
      | (with_reducible assumption)
      | (with_reducible exact id)
      | (exact in_mask hm rfl)
      | (with_reducible exact fun _ => rfl)
      | (exact Sub.trans hm rfl)
      | (intro _)
      | (extract_lets +onlyGivenNames s1; first | (refine Keeps.cut (t := s1) ?_ ?_; rotate_left; intro hs1; clear_value s1; rotate_right; subst s1) | clear_value s1 | (have hm := s1; clear hm))
      | (with_reducible exact rfl)
      | (with_reducible apply modBus_keeps)
      | (with_reducible apply modChange_keeps)
      | (with_reducible apply wrb_keeps)
      | (with_reducible apply busStart_keeps)
      | (with_reducible apply id_keeps)
      | split
      | (with_reducible apply Keeps.upd)
      | (dsimp only)
      | (exact rfl)

theorem advanceBuses_keeps {m : Nat} {s0 s : State} (hm : 72057594038059012 ||| m = m) (h : Keeps m s0 s) : Keeps m s0 (advanceBuses s) := by
  unfold advanceBuses
  repeat' first
    | (with_reducible assumption)
    | (exact Sub.trans hm rfl)
    | (intro _)
    | (with_reducible exact rfl)
    | (with_reducible apply each_keeps)
    | (with_reducible apply busNext_keeps)
    | (with_reducible apply id_keeps)
    | split
    | (dsimp only)
    | (exact rfl)

theorem issueDue_keeps {m : Nat} {s0 s : State} {x1} (hm : 72057594038059012 ||| m = m) (h : Keeps m s0 s) : Keeps m s0 (issueDue x1 s) := by
  unfold issueDue
  repeat' first
    | (with_reducible assumption)
    | (with_reducible exact id)
    | (exact in_mask hm rfl)
    | (with_reducible exact fun _ => rfl)
    | (exact Sub.trans hm rfl)
    | (intro _)
    | (extract_lets +onlyGivenNames s1; first | (refine Keeps.cut (t := s1) ?_ ?_; rotate_left; intro hs1; clear_value s1; rotate_right; subst s1) | clear_value s1 | (have hm := s1; clear hm))
    | (with_reducible exact rfl)
    | (with_reducible apply modCtx_keeps)
    | (with_reducible apply busNext_keeps)
    | (with_reducible apply modBus_keeps)
    | (with_reducible apply id_keeps)
    | split
    | (with_reducible apply Keeps.upd)
    | (dsimp only)
    | (exact rfl)

theorem queueChange_keeps {m : Nat} {s0 s : State} {x1 x2} (hm : 72057594038059012 ||| m = m) (h : Keeps m s0 s) : Keeps m s0 (queueChange x1 x2 s) := by
  unfold queueChange
  repeat' first
    | (with_reducible assumption)
    | (with_reducible exact id)
    | (exact in_mask hm rfl)
    | (with_reducible exact fun _ => rfl)
    | (exact Sub.trans hm rfl)
    | (intro _)
    | (extract_lets +onlyGivenNames s1; first | (refine Keeps.cut (t := s1) ?_ ?_; rotate_left; intro hs1; clear_value s1; rotate_right; subst s1) | clear_value s1 | (have hm := s1; clear hm))
    | (with_reducible exact rfl)
    | (with_reducible apply modCam_keeps)
    | (with_reducible apply issueDue_keeps)
    | (with_reducible apply showCtx_keeps)
    | (with_reducible apply modCtx_keeps)
    | (with_reducible apply id_keeps)
    | split
    | (with_reducible apply Keeps.upd)
    | (dsimp only)
    | (exact rfl)

theorem discardChanges.discarded_keeps {m : Nat} {s0 s : State} {x1 x2 x3 x4} (hm : 25769803836 ||| m = m) (h : Keeps m s0 s) : Keeps m s0 (discardChanges.discarded x1 x2 x3 x4 s) := by
  unfold discardChanges.discarded
  repeat' first
    | (with_reducible assumption)
    | (exact Sub.trans hm rfl)
    | (intro _)
    | (with_reducible exact rfl)
    | (with_reducible refine fresh_keeps_eq ?_ ?_ ‹_›)
    | (with_reducible apply fresh_keeps)
    | (with_reducible apply settingsApplied_keeps)
    | (with_reducible apply id_keeps)
    | split
    | (dsimp only)
    | (exact rfl)

theorem discardChanges_keeps {m : Nat} {s0 s : State} {x1} (hm : 72057619807862844 ||| m = m) (h : Keeps m s0 s) : Keeps m s0 (discardChanges x1 s) := by
  unfold discardChanges
  repeat' first
    | (with_reducible assumption)
    | (with_reducible exact id)
    | (exact in_mask hm rfl)
    | (with_reducible exact fun _ => rfl)
    | (exact Sub.trans hm rfl)
    | (intro _)
    | (extract_lets +onlyGivenNames s1; first | (refine Keeps.cut (t := s1) ?_ ?_; rotate_left; intro hs1; clear_value s1; rotate_right; subst s1) | clear_value s1 | (have hm := s1; clear hm))
    | (with_reducible exact rfl)
    | (with_reducible apply showCtx_keeps)
    | (with_reducible apply modCtx_keeps)
    | (with_reducible apply wrb_keeps)
    | (with_reducible apply each_keeps)
    | (with_reducible apply discardChanges.discarded_keeps)
    | (with_reducible apply id_keeps)
    | split
    | (with_reducible apply Keeps.upd)
    | (dsimp only)
    | (exact rfl)

theorem camPower_keeps {m : Nat} {s0 s : State} (hm : 72057594037927936 ||| m = m) (h : Keeps m s0 s) : Keeps m s0 (camPower s) := by
  unfold camPower
  repeat' first
    | (with_reducible assumption)
    | (exact Sub.trans hm rfl)
    | (intro _)
    | (extract_lets +onlyGivenNames s1; first | (refine Keeps.cut (t := s1) ?_ ?_; rotate_left; intro hs1; clear_value s1; rotate_right; subst s1) | clear_value s1 | (have hm := s1; clear hm))
    | (with_reducible exact rfl)
    | (with_reducible apply wrf_keeps)
    | (with_reducible apply id_keeps)
    | split
    | (dsimp only)
    | (exact rfl)

theorem camAtReset_keeps {m : Nat} {s0 s : State} {x1} (hm : 72057619807862844 ||| m = m) (h : Keeps m s0 s) : Keeps m s0 (camAtReset x1 s) := by
  unfold camAtReset
  repeat' first
    | (with_reducible assumption)
    | (with_reducible exact id)
    | (exact in_mask hm rfl)
    | (with_reducible exact fun _ => rfl)
    | (exact Sub.trans hm rfl)
    | (intro _)
    | (extract_lets +onlyGivenNames s1; first | (refine Keeps.cut (t := s1) ?_ ?_; rotate_left; intro hs1; clear_value s1; rotate_right; subst s1) | clear_value s1 | (have hm := s1; clear hm))
    | (with_reducible exact rfl)
    | (with_reducible apply each_keeps)
    | (with_reducible apply sif_keeps)
    | (with_reducible apply trigOut_keeps)
    | (with_reducible apply modCam_keeps)
    | (with_reducible apply discardChanges_keeps)
    | (with_reducible apply camRefReset_keeps)
    | (with_reducible apply id_keeps)
    | split
    | (with_reducible apply Keeps.upd)
    | (dsimp only)
    | (exact rfl)

end Sys2Proof.Laws
end

