-- ==== Sys2Proof/Laws/Keeps/CalBase.lean ====
section
/-! SUPPORT. Every operation of Machine/CalBase.lean keeps what Laws/Keeps/Base.lean states. -/

namespace Sys2Proof.Laws
open Sys2Proof Sys2Proof.Machine

theorem calWrite_keeps {m : Nat} {s0 s : State} {x1 x2} (hm : 18446744069414584320 ||| m = m) (h : Keeps m s0 s) : Keeps m s0 (calWrite x1 x2 s) := by
  unfold calWrite
  repeat' first
    | (with_reducible assumption)
    | (with_reducible exact id)
    | (exact in_mask hm rfl)
    | (with_reducible exact fun _ => rfl)
    | (exact Sub.trans hm rfl)
    | (intro _)
    | (extract_lets +onlyGivenNames s1; first | (refine Keeps.cut (t := s1) ?_ ?_; rotate_left; intro hs1; clear_value s1; rotate_right; subst s1) | clear_value s1 | (have hm := s1; clear hm))
    | (with_reducible exact rfl)
    | (with_reducible apply wr_keeps_all)
    | (with_reducible apply wr_keeps)
    | (with_reducible apply id_keeps)
    | split
    | (with_reducible apply Keeps.upd)
    | (dsimp only)
    | (exact rfl)

theorem writeBank_keeps {m : Nat} {s0 s : State} {x1 x2 x3} (hm : 4096 ||| m = m) (h : Keeps m s0 s) : Keeps m s0 (writeBank x1 x2 x3 s) := by
  unfold writeBank
  repeat' first
    | (with_reducible assumption)
    | (with_reducible exact id)
    | (exact in_mask hm rfl)
    | (with_reducible exact fun _ => rfl)
    | (exact Sub.trans hm rfl)
    | (intro _)
    | (extract_lets +onlyGivenNames s1; first | (refine Keeps.cut (t := s1) ?_ ?_; rotate_left; intro hs1; clear_value s1; rotate_right; subst s1) | clear_value s1 | (have hm := s1; clear hm))
    | (with_reducible exact rfl)
    | (with_reducible apply modBsc_keeps)
    | (with_reducible apply id_keeps)
    | split
    | (with_reducible apply Keeps.upd)
    | (dsimp only)
    | (exact rfl)

theorem census_keeps {m : Nat} {s0 s : State} (hm : 1125899906842624 ||| m = m) (h : Keeps m s0 s) : Keeps m s0 (census s) := by
  unfold census
  repeat' first
    | (with_reducible assumption)
    | (exact Sub.trans hm rfl)
    | (intro _)
    | (with_reducible exact rfl)
    | (with_reducible apply wr_keeps)
    | (with_reducible apply id_keeps)
    | split
    | (dsimp only)
    | (exact rfl)

theorem swapBank_keeps {m : Nat} {s0 s : State} {x1} (hm : 1125925676646452 ||| m = m) (h : Keeps m s0 s) : Keeps m s0 (swapBank x1 s) := by
  unfold swapBank
  repeat' first
    | (with_reducible assumption)
    | (exact Sub.trans hm rfl)
    | (intro _)
    | (extract_lets +onlyGivenNames s1; first | (refine Keeps.cut (t := s1) ?_ ?_; rotate_left; intro hs1; clear_value s1; rotate_right; subst s1) | clear_value s1 | (have hm := s1; clear hm))
    | (with_reducible exact rfl)
    | (with_reducible apply wrb_keeps)
    | (with_reducible apply wrf_keeps)
    | (with_reducible apply postEvent_keeps)
    | (with_reducible apply id_keeps)
    | split
    | (dsimp only)
    | (exact rfl)

theorem markSwap_keeps {m : Nat} {s0 s : State} (hm : 1125925676646452 ||| m = m) (h : Keeps m s0 s) : Keeps m s0 (markSwap s) := by
  unfold markSwap
  repeat' first
    | (with_reducible assumption)
    | (exact Sub.trans hm rfl)
    | (intro _)
    | (extract_lets +onlyGivenNames s1; first | (refine Keeps.cut (t := s1) ?_ ?_; rotate_left; intro hs1; clear_value s1; rotate_right; subst s1) | clear_value s1 | (have hm := s1; clear hm))
    | (with_reducible exact rfl)
    | (with_reducible apply wrb_keeps)
    | (with_reducible apply swapBank_keeps)
    | (with_reducible apply id_keeps)
    | split
    | (dsimp only)
    | (exact rfl)

theorem applyResult_keeps {m : Nat} {s0 s : State} {x1 x2} (hm : 18446744069414719540 ||| m = m) (h : Keeps m s0 s) : Keeps m s0 (applyResult x1 x2 s) := by
  unfold applyResult
  repeat' first
    | (with_reducible assumption)
    | (exact Sub.trans hm rfl)
    | (intro _)
    | (extract_lets +onlyGivenNames s1; first | (refine Keeps.cut (t := s1) ?_ ?_; rotate_left; intro hs1; clear_value s1; rotate_right; subst s1) | clear_value s1 | (have hm := s1; clear hm))
    | (with_reducible exact rfl)
    | (with_reducible apply wr_keeps_all)
    | (with_reducible apply markSwap_keeps)
    | (with_reducible apply census_keeps)
    | (with_reducible apply each_keeps)
    | (with_reducible apply writeBank_keeps)
    | (with_reducible apply calWrite_keeps)
    | (with_reducible apply queueChange_keeps)
    | (with_reducible apply id_keeps)
    | split
    | (dsimp only)
    | (exact rfl)

theorem applyStaged_keeps {m : Nat} {s0 s : State} {x1 x2 x3} (hm : 18446744069414752308 ||| m = m) (h : Keeps m s0 s) : Keeps m s0 (applyStaged x1 x2 x3 s) := by
  unfold applyStaged
  repeat' first
    | (with_reducible assumption)
    | (with_reducible exact id)
    | (exact in_mask hm rfl)
    | (with_reducible exact fun _ => rfl)
    | (exact Sub.trans hm rfl)
    | (intro _)
    | (extract_lets +onlyGivenNames s1; first | (refine Keeps.cut (t := s1) ?_ ?_; rotate_left; intro hs1; clear_value s1; rotate_right; subst s1) | clear_value s1 | (have hm := s1; clear hm))
    | (with_reducible exact rfl)
    | (with_reducible apply wr_keeps_all)
    | (with_reducible apply showCal_keeps)
    | (with_reducible apply each_keeps)
    | (with_reducible apply applyResult_keeps)
    | (with_reducible apply postEvent_keeps)
    | (with_reducible apply id_keeps)
    | split
    | (with_reducible apply Keeps.upd)
    | (dsimp only)
    | (exact rfl)

theorem swathBoundary_keeps {m : Nat} {s0 s : State} (hm : 18446744069414752308 ||| m = m) (h : Keeps m s0 s) : Keeps m s0 (swathBoundary s) := by
  unfold swathBoundary
  repeat' first
    | (with_reducible assumption)
    | (with_reducible exact id)
    | (exact in_mask hm rfl)
    | (with_reducible exact fun _ => rfl)
    | (exact Sub.trans hm rfl)
    | (intro _)
    | (extract_lets +onlyGivenNames s1; first | (refine Keeps.cut (t := s1) ?_ ?_; rotate_left; intro hs1; clear_value s1; rotate_right; subst s1) | clear_value s1 | (have hm := s1; clear hm))
    | (with_reducible exact rfl)
    | (with_reducible apply wr_keeps_all)
    | (with_reducible apply applyStaged_keeps)
    | (with_reducible apply id_keeps)
    | split
    | (with_reducible apply Keeps.upd)
    | (dsimp only)
    | (exact rfl)

theorem calDue_keeps {m : Nat} {s0 s : State} {x1 x2} (hm : 163208757300 ||| m = m) (h : Keeps m s0 s) : Keeps m s0 (calDue x1 x2 s) := by
  unfold calDue
  repeat' first
    | (with_reducible assumption)
    | (exact Sub.trans hm rfl)
    | (intro _)
    | (extract_lets +onlyGivenNames s1; first | (refine Keeps.cut (t := s1) ?_ ?_; rotate_left; intro hs1; clear_value s1; rotate_right; subst s1) | clear_value s1 | (have hm := s1; clear hm))
    | (with_reducible exact rfl)
    | (with_reducible apply postEvent_keeps)
    | (with_reducible apply wrb_keeps)
    | (with_reducible apply id_keeps)
    | split
    | (dsimp only)
    | (exact rfl)

theorem calCheck_keeps {m : Nat} {s0 s : State} {x1} (hm : 163208757300 ||| m = m) (h : Keeps m s0 s) : Keeps m s0 (calCheck x1 s) := by
  unfold calCheck
  repeat' first
    | (with_reducible assumption)
    | (exact Sub.trans hm rfl)
    | (intro _)
    | (extract_lets +onlyGivenNames s1; first | (refine Keeps.cut (t := s1) ?_ ?_; rotate_left; intro hs1; clear_value s1; rotate_right; subst s1) | clear_value s1 | (have hm := s1; clear hm))
    | (with_reducible exact rfl)
    | (with_reducible apply each_keeps)
    | (with_reducible apply calDue_keeps)
    | (with_reducible apply id_keeps)
    | split
    | (dsimp only)
    | (exact rfl)

theorem leaveCalibrate_keeps {m : Nat} {s0 s : State} (hm : 18446744069414762612 ||| m = m) (h : Keeps m s0 s) : Keeps m s0 (leaveCalibrate s) := by
  unfold leaveCalibrate
  repeat' first
    | (with_reducible assumption)
    | (with_reducible exact id)
    | (exact in_mask hm rfl)
    | (with_reducible exact fun _ => rfl)
    | (exact Sub.trans hm rfl)
    | (intro _)
    | (extract_lets +onlyGivenNames s1; first | (refine Keeps.cut (t := s1) ?_ ?_; rotate_left; intro hs1; clear_value s1; rotate_right; subst s1) | clear_value s1 | (have hm := s1; clear hm))
    | (with_reducible exact rfl)
    | (with_reducible apply wr_keeps_all)
    | (with_reducible apply showCal_keeps)
    | (with_reducible apply changeMode_keeps)
    | (with_reducible apply applyStaged_keeps)
    | (with_reducible apply id_keeps)
    | split
    | (with_reducible apply Keeps.upd)
    | (dsimp only)
    | (exact rfl)

theorem endGap_keeps {m : Nat} {s0 s : State} (hm : 18446744069414762612 ||| m = m) (h : Keeps m s0 s) : Keeps m s0 (endGap s) := by
  unfold endGap
  repeat' first
    | (with_reducible assumption)
    | (exact Sub.trans hm rfl)
    | (intro _)
    | (with_reducible exact rfl)
    | (with_reducible apply wr_keeps_all)
    | (with_reducible apply leaveCalibrate_keeps)
    | (with_reducible apply abandonRun_keeps)
    | (with_reducible apply id_keeps)
    | split
    | (dsimp only)
    | (exact rfl)

theorem writeCalRun_keeps {m : Nat} {s0 s : State} {x1} (hm : 18446744069414762612 ||| m = m) (h : Keeps m s0 s) : Keeps m s0 (writeCalRun x1 s) := by
  unfold writeCalRun
  repeat' first
    | (with_reducible assumption)
    | (with_reducible exact id)
    | (exact in_mask hm rfl)
    | (with_reducible exact fun _ => rfl)
    | (exact Sub.trans hm rfl)
    | (intro _)
    | (extract_lets +onlyGivenNames s1; first | (refine Keeps.cut (t := s1) ?_ ?_; rotate_left; intro hs1; clear_value s1; rotate_right; subst s1) | clear_value s1 | (have hm := s1; clear hm))
    | (with_reducible exact rfl)
    | (with_reducible apply wr_keeps_all)
    | (with_reducible apply wrb_keeps)
    | (with_reducible apply modCtl_keeps)
    | (with_reducible apply showCal_keeps)
    | (with_reducible apply changeMode_keeps)
    | (with_reducible apply leaveCalibrate_keeps)
    | (with_reducible apply id_keeps)
    | split
    | (with_reducible apply Keeps.upd)
    | (dsimp only)
    | (exact rfl)

theorem doCalItemDone_keeps {m : Nat} {s0 s : State} {x1 x2} (hm : 18446744069414762612 ||| m = m) (h : Keeps m s0 s) : Keeps m s0 (doCalItemDone x1 x2 s) := by
  unfold doCalItemDone
  repeat' first
    | (with_reducible assumption)
    | (with_reducible exact id)
    | (exact in_mask hm rfl)
    | (with_reducible exact fun _ => rfl)
    | (exact Sub.trans hm rfl)
    | (intro _)
    | (extract_lets +onlyGivenNames s1; first | (refine Keeps.cut (t := s1) ?_ ?_; rotate_left; intro hs1; clear_value s1; rotate_right; subst s1) | clear_value s1 | (have hm := s1; clear hm))
    | (with_reducible exact rfl)
    | (with_reducible apply wr_keeps_all)
    | (with_reducible apply calDone_keeps)
    | (with_reducible apply wrb_keeps)
    | (with_reducible apply wr_keeps)
    | (with_reducible apply showCal_keeps)
    | (with_reducible apply leaveCalibrate_keeps)
    | (with_reducible apply id_keeps)
    | split
    | (with_reducible apply Keeps.upd)
    | (dsimp only)
    | (exact rfl)

theorem doCalRequest_keeps {m : Nat} {s0 s : State} {x1 x2} (hm : 163208790068 ||| m = m) (h : Keeps m s0 s) : Keeps m s0 (doCalRequest x1 x2 s) := by
  unfold doCalRequest
  repeat' first
    | (with_reducible assumption)
    | (with_reducible exact id)
    | (exact in_mask hm rfl)
    | (with_reducible exact fun _ => rfl)
    | (exact Sub.trans hm rfl)
    | (intro _)
    | (extract_lets +onlyGivenNames s1; first | (refine Keeps.cut (t := s1) ?_ ?_; rotate_left; intro hs1; clear_value s1; rotate_right; subst s1) | clear_value s1 | (have hm := s1; clear hm))
    | (with_reducible exact rfl)
    | (with_reducible apply readDesc_keeps)
    | (with_reducible apply finish_keeps)
    | (with_reducible apply each_keeps)
    | (with_reducible apply calDue_keeps)
    | (with_reducible apply id_keeps)
    | split
    | (with_reducible apply Keeps.upd)
    | (dsimp only)
    | (exact rfl)

end Sys2Proof.Laws
end

