-- ==== Sys2Proof/Laws/Keeps/Head.lean ====
section
/-! SUPPORT. Every operation of Machine/Head.lean keeps what Laws/Keeps/Base.lean states. -/

namespace Sys2Proof.Laws
open Sys2Proof Sys2Proof.Machine

theorem bumpHsv_keeps {m : Nat} {s0 s : State} {x1} (hm : 25769803828 ||| m = m) (hr0 : regMask x1 ||| m = m) (hk0 : oneBlock x1 = true) (h : Keeps m s0 s) : Keeps m s0 (bumpHsv x1 s) := by
  unfold bumpHsv
  repeat' first
    | (with_reducible assumption)
    | (exact Sub.trans hm rfl)
    | (intro _)
    | (with_reducible exact rfl)
    | (with_reducible apply bump_keeps)
    | (with_reducible apply postEvent_keeps)
    | (with_reducible apply id_keeps)
    | split
    | (dsimp only)
    | (exact rfl)

theorem showUsage_keeps {m : Nat} {s0 s : State} (hm : 1152921504606846976 ||| m = m) (h : Keeps m s0 s) : Keeps m s0 (showUsage s) := by
  unfold showUsage
  repeat' first
    | (with_reducible assumption)
    | (exact Sub.trans hm rfl)
    | (intro _)
    | (extract_lets +onlyGivenNames s1; first | (refine Keeps.cut (t := s1) ?_ ?_; rotate_left; intro hs1; clear_value s1; rotate_right; subst s1) | clear_value s1 | (have hm := s1; clear hm))
    | (with_reducible exact rfl)
    | (with_reducible apply wrb_keeps)
    | (with_reducible apply each_keeps)
    | (with_reducible apply wr_keeps)
    | (with_reducible apply id_keeps)
    | split
    | (dsimp only)
    | (exact rfl)

theorem reportSat_keeps {m : Nat} {s0 s : State} {x1 x2 x3} (hm : 25769803828 ||| m = m) (h : Keeps m s0 s) : Keeps m s0 (reportSat x1 x2 x3 s) := by
  unfold reportSat
  repeat' first
    | (with_reducible assumption)
    | (exact Sub.trans hm rfl)
    | (intro _)
    | (with_reducible exact rfl)
    | (with_reducible apply each_keeps)
    | (with_reducible apply postEvent_keeps)
    | (with_reducible apply id_keeps)
    | split
    | (dsimp only)
    | (exact rfl)

theorem mergeUsage_keeps {m : Nat} {s0 s : State} (hm : 1152921530376716340 ||| m = m) (h : Keeps m s0 s) : Keeps m s0 (mergeUsage s) := by
  unfold mergeUsage
  repeat' first
    | (with_reducible assumption)
    | (with_reducible exact id)
    | (exact in_mask hm rfl)
    | (with_reducible exact fun _ => rfl)
    | (exact Sub.trans hm rfl)
    | (intro _)
    | (extract_lets +onlyGivenNames s1; first | (refine Keeps.cut (t := s1) ?_ ?_; rotate_left; intro hs1; clear_value s1; rotate_right; subst s1) | clear_value s1 | (have hm := s1; clear hm))
    | (with_reducible exact rfl)
    | (with_reducible apply reportSat_keeps)
    | (with_reducible apply showUsage_keeps)
    | (with_reducible apply modHead_keeps)
    | (with_reducible apply id_keeps)
    | split
    | (with_reducible apply Keeps.upd)
    | (dsimp only)
    | (exact rfl)

theorem fireUsage_keeps {m : Nat} {s0 s : State} {x1} (hm : 65536 ||| m = m) (h : Keeps m s0 s) : Keeps m s0 (fireUsage x1 s) := by
  unfold fireUsage
  repeat' first
    | (with_reducible assumption)
    | (with_reducible exact id)
    | (exact in_mask hm rfl)
    | (with_reducible exact fun _ => rfl)
    | (exact Sub.trans hm rfl)
    | (intro _)
    | (extract_lets +onlyGivenNames s1; first | (refine Keeps.cut (t := s1) ?_ ?_; rotate_left; intro hs1; clear_value s1; rotate_right; subst s1) | clear_value s1 | (have hm := s1; clear hm))
    | (with_reducible exact rfl)
    | (with_reducible apply modHead_keeps)
    | (with_reducible apply foldl_keeps)
    | (with_reducible apply foldl_snd_keeps)
    | (with_reducible apply foldl_fst_keeps)
    | (with_reducible apply foldl_trd_keeps)
    | (with_reducible apply id_keeps)
    | split
    | (with_reducible apply Keeps.upd)
    | (dsimp only)
    | (exact rfl)

theorem postFlush_keeps {m : Nat} {s0 s : State} {x1 x2 x3 x4} (hm : 1152921530376650804 ||| m = m) (h : Keeps m s0 s) : Keeps m s0 (postFlush x1 x2 x3 x4 s) := by
  unfold postFlush
  repeat' first
    | (with_reducible assumption)
    | (exact Sub.trans hm rfl)
    | (intro _)
    | (with_reducible exact rfl)
    | (with_reducible apply postEvent_keeps)
    | (with_reducible apply bumpHsv_keeps)
    | (with_reducible apply id_keeps)
    | split
    | (dsimp only)
    | (exact rfl)

theorem usageFlush_keeps {m : Nat} {s0 s : State} {x1 x2} (hm : 1152921530376716348 ||| m = m) (h : Keeps m s0 s) : Keeps m s0 (usageFlush x1 x2 s) := by
  unfold usageFlush
  repeat' first
    | (with_reducible assumption)
    | (with_reducible apply Keeps.addFree)
    | (with_reducible exact id)
    | (exact in_mask hm rfl)
    | (with_reducible exact fun _ => rfl)
    | (exact Sub.trans hm rfl)
    | (intro _)
    | (extract_lets +onlyGivenNames s1; first | (refine Keeps.cut (t := s1) ?_ ?_; rotate_left; intro hs1; clear_value s1; rotate_right; subst s1) | clear_value s1 | (have hm := s1; clear hm))
    | (with_reducible exact rfl)
    | (with_reducible apply mergeUsage_keeps)
    | (with_reducible apply postFlush_keeps)
    | (with_reducible apply modHead_keeps)
    | (with_reducible apply reportSat_keeps)
    | (with_reducible apply emit_keeps)
    | (with_reducible apply showUsage_keeps)
    | (with_reducible apply postEvent_keeps)
    | (with_reducible apply bumpHsv_keeps)
    | (with_reducible apply id_keeps)
    | split
    | (with_reducible apply Keeps.upd)
    | (dsimp only)
    | (exact rfl)

theorem doHsvFlush_keeps {m : Nat} {s0 s : State} {x1} (hm : 1152921530376716348 ||| m = m) (h : Keeps m s0 s) : Keeps m s0 (doHsvFlush x1 s) := by
  unfold doHsvFlush
  repeat' first
    | (with_reducible assumption)
    | (exact Sub.trans hm rfl)
    | (intro _)
    | (extract_lets +onlyGivenNames s1; first | (refine Keeps.cut (t := s1) ?_ ?_; rotate_left; intro hs1; clear_value s1; rotate_right; subst s1) | clear_value s1 | (have hm := s1; clear hm))
    | (with_reducible exact rfl)
    | (with_reducible apply usageFlush_keeps)
    | (with_reducible apply id_keeps)
    | split
    | (dsimp only)
    | (exact rfl)

theorem doHsvUsageDiscard_keeps {m : Nat} {s0 s : State} {x1} (hm : 1152921504606912512 ||| m = m) (h : Keeps m s0 s) : Keeps m s0 (doHsvUsageDiscard x1 s) := by
  unfold doHsvUsageDiscard
  repeat' first
    | (with_reducible assumption)
    | (with_reducible exact id)
    | (exact in_mask hm rfl)
    | (with_reducible exact fun _ => rfl)
    | (exact Sub.trans hm rfl)
    | (intro _)
    | (extract_lets +onlyGivenNames s1; first | (refine Keeps.cut (t := s1) ?_ ?_; rotate_left; intro hs1; clear_value s1; rotate_right; subst s1) | clear_value s1 | (have hm := s1; clear hm))
    | (with_reducible exact rfl)
    | (with_reducible apply showUsage_keeps)
    | (with_reducible apply modHead_keeps)
    | (with_reducible apply id_keeps)
    | split
    | (with_reducible apply Keeps.upd)
    | (dsimp only)
    | (exact rfl)

theorem orphanUsage_keeps {m : Nat} {s0 s : State} (hm : 25769869364 ||| m = m) (h : Keeps m s0 s) : Keeps m s0 (orphanUsage s) := by
  unfold orphanUsage
  repeat' first
    | (with_reducible assumption)
    | (with_reducible exact id)
    | (exact in_mask hm rfl)
    | (with_reducible exact fun _ => rfl)
    | (exact Sub.trans hm rfl)
    | (intro _)
    | (extract_lets +onlyGivenNames s1; first | (refine Keeps.cut (t := s1) ?_ ?_; rotate_left; intro hs1; clear_value s1; rotate_right; subst s1) | clear_value s1 | (have hm := s1; clear hm))
    | (with_reducible exact rfl)
    | (with_reducible apply modHead_keeps)
    | (with_reducible apply reportSat_keeps)
    | (with_reducible apply id_keeps)
    | split
    | (with_reducible apply Keeps.upd)
    | (dsimp only)
    | (exact rfl)

theorem showMatch_keeps {m : Nat} {s0 s : State} (hm : 1152921504606846976 ||| m = m) (h : Keeps m s0 s) : Keeps m s0 (showMatch s) := by
  unfold showMatch
  repeat' first
    | (with_reducible assumption)
    | (exact Sub.trans hm rfl)
    | (intro _)
    | (extract_lets +onlyGivenNames s1; first | (refine Keeps.cut (t := s1) ?_ ?_; rotate_left; intro hs1; clear_value s1; rotate_right; subst s1) | clear_value s1 | (have hm := s1; clear hm))
    | (with_reducible exact rfl)
    | (with_reducible apply wrb_keeps)
    | (with_reducible apply foldl_keeps)
    | (with_reducible apply foldl_snd_keeps)
    | (with_reducible apply foldl_fst_keeps)
    | (with_reducible apply foldl_trd_keeps)
    | (with_reducible apply id_keeps)
    | split
    | (dsimp only)
    | (exact rfl)

theorem authFailed_keeps {m : Nat} {s0 s : State} {x1} (hm : 1152921504606846976 ||| m = m) (h : Keeps m s0 s) : Keeps m s0 (authFailed x1 s) := by
  unfold authFailed
  repeat' first
    | (with_reducible assumption)
    | (exact Sub.trans hm rfl)
    | (intro _)
    | (with_reducible exact rfl)
    | (with_reducible apply showMatch_keeps)
    | (with_reducible apply wr_keeps)
    | (with_reducible apply wrf_keeps)
    | (with_reducible apply id_keeps)
    | split
    | (dsimp only)
    | (exact rfl)

theorem doHeadAuthComplete_keeps {m : Nat} {s0 s : State} {x1 x2} (hm : 2122041661897947260 ||| m = m) (h : Keeps m s0 s) : Keeps m s0 (doHeadAuthComplete x1 x2 s) := by
  unfold doHeadAuthComplete
  repeat' first
    | (with_reducible assumption)
    | (with_reducible exact id)
    | (exact in_mask hm rfl)
    | (with_reducible exact fun _ => rfl)
    | (exact Sub.trans hm rfl)
    | (intro _)
    | (extract_lets +onlyGivenNames s1; first | (refine Keeps.cut (t := s1) ?_ ?_; rotate_left; intro hs1; clear_value s1; rotate_right; subst s1) | clear_value s1 | (have hm := s1; clear hm))
    | (with_reducible exact rfl)
    | (with_reducible apply wrb_keeps)
    | (with_reducible apply authFailed_keeps)
    | (with_reducible apply postEvent_keeps)
    | (with_reducible apply bumpHsv_keeps)
    | (with_reducible apply holdCause_keeps)
    | (with_reducible apply wrf_keeps)
    | (with_reducible apply each_keeps)
    | (with_reducible apply wr_keeps)
    | (with_reducible apply orphanUsage_keeps)
    | (with_reducible apply mergeUsage_keeps)
    | (with_reducible apply showUsage_keeps)
    | (with_reducible apply modHead_keeps)
    | (with_reducible apply showMatch_keeps)
    | (with_reducible apply usageFlush_keeps)
    | (with_reducible apply id_keeps)
    | split
    | (with_reducible apply Keeps.upd)
    | (dsimp only)
    | (exact rfl)

theorem doHeadIdentityPoll_keeps {m : Nat} {s0 s : State} {x1} (hm : 2122041661897947260 ||| m = m) (h : Keeps m s0 s) : Keeps m s0 (doHeadIdentityPoll x1 s) := by
  unfold doHeadIdentityPoll
  repeat' first
    | (with_reducible assumption)
    | (exact Sub.trans hm rfl)
    | (intro _)
    | (extract_lets +onlyGivenNames s1; first | (refine Keeps.cut (t := s1) ?_ ?_; rotate_left; intro hs1; clear_value s1; rotate_right; subst s1) | clear_value s1 | (have hm := s1; clear hm))
    | (with_reducible exact rfl)
    | (with_reducible apply wrb_keeps)
    | (with_reducible apply authFailed_keeps)
    | (with_reducible apply holdCause_keeps)
    | (with_reducible apply postEvent_keeps)
    | (with_reducible apply startAuth_keeps)
    | (with_reducible apply id_keeps)
    | split
    | (dsimp only)
    | (exact rfl)

end Sys2Proof.Laws
end

