-- ==== Sys2Proof/Laws/Keeps/Firmware.lean ====
section
/-! SUPPORT. Every operation of Machine/Firmware.lean keeps what Laws/Keeps/Base.lean states. -/

namespace Sys2Proof.Laws
open Sys2Proof Sys2Proof.Machine

theorem wrPolicy_keeps {m : Nat} {s0 s : State} {x1 x2 x3} (hm : 0 ||| m = m) (hr0 : regMask x1 ||| m = m) (hk0 : oneBlock x1 = true) (h : Keeps m s0 s) : Keeps m s0 (wrPolicy x1 x2 s x3) := by
  unfold wrPolicy
  repeat' first
    | (with_reducible assumption)
    | (exact Sub.trans hm rfl)
    | (intro _)
    | (with_reducible exact rfl)
    | (with_reducible apply wr_keeps)
    | (with_reducible apply id_keeps)
    | (with_reducible refine Keeps.eq2 ‹_› ?_)
    | (with_reducible refine Keeps.eq3 ‹_› ?_)
    | split
    | (dsimp only)
    | (exact rfl)

theorem wrLocked_keeps {m : Nat} {s0 s : State} {x1 x2 x3} (hm : 25769812020 ||| m = m) (hr0 : regMask x1 ||| m = m) (hk0 : oneBlock x1 = true) (h : Keeps m s0 s) : Keeps m s0 (wrLocked x1 x2 s x3) := by
  unfold wrLocked
  repeat' first
    | (with_reducible assumption)
    | (exact Sub.trans hm rfl)
    | (intro _)
    | (with_reducible exact rfl)
    | (with_reducible apply lockedWrite_keeps)
    | (with_reducible apply wrPolicy_keeps)
    | (with_reducible apply id_keeps)
    | (with_reducible refine Keeps.eq2 ‹_› ?_)
    | (with_reducible refine Keeps.eq3 ‹_› ?_)
    | split
    | (dsimp only)
    | (exact rfl)

theorem recFields_in {ty : Nat} {v : List Byte} : ∀ e ∈ recFields ty v, e.1.base / 65536 ∈ [26, 5, 8, 21, 4, 16, 20, 22, 10, 7] := by
  unfold recFields
  dsimp only
  split <;> simp [List.forall_mem_append, or_imp, forall_and, R.ARB_CFG, R.ARB_OWED_MAX, R.ARB_SLOT_BANK0, R.ARB_SLOT_BANK1, R.ARB_WAIT_BREAK, R.DPI_LEAD_MIN, R.DPI_MISS_HOLD, R.DPI_START_WAIT, R.LNK_RECALL_MARGIN, R.MND_CTRL, R.MOT_ENV_AMAX, R.MOT_ENV_DMAX, R.MOT_ENV_JMAX, R.MOT_ENV_MAX, R.MOT_ENV_MIN, R.MOT_ENV_VMAX, R.PLC_ERR_LIMIT, R.PWR_SETTLE, R.PWR_SUPPLY_HOLD, R.PWR_WARN_DMAX, R.SAF_AXIS_RULE, R.SAF_DUTY_MAX, R.SAF_ENV_MARGIN, R.SAF_ESTOP_CFG, R.SAF_LINE_SUM_MAX, R.SAF_MAX_WIDTH, R.THM_CAL_ITEM, R.THM_DWELL_K, R.THM_HEAD_SCALE, R.THM_REMOTE_LIMIT, R.THM_SCALE_K, R.THM_SUPPLY_LIMIT, R.THM_THROTTLE_START, R.TSY_GAINS, R.TSY_HOLDOVER, R.TSY_LOCK_CFG, R.TSY_MAX_PPB, R.TSY_STEP_LIMIT]
  all_goals refine ⟨?_, ?_⟩ <;> (rintro _ _ _ _ _ rfl _ _; decide)
theorem recFields_mask {ty : Nat} {v : List Byte} (e : RegInfo × Nat × Nat) (h : e ∈ recFields ty v) : regMask e.1 ||| 320043301992398848 = 320043301992398848 := by
  have k : ∀ b ∈ [26, 5, 8, 21, 4, 16, 20, 22, 10, 7], 2 ^ (32 + b % 32) ||| 320043301992398848 = 320043301992398848 := by decide
  exact k _ (recFields_in e h)
theorem recFields_block {ty : Nat} {v : List Byte} : ∀ e ∈ recFields ty v, oneBlock e.1 = true := by
  unfold recFields
  dsimp only
  split <;> simp [oneBlock, List.forall_mem_append, or_imp, forall_and, R.ARB_CFG, R.ARB_OWED_MAX, R.ARB_SLOT_BANK0, R.ARB_SLOT_BANK1, R.ARB_WAIT_BREAK, R.DPI_LEAD_MIN, R.DPI_MISS_HOLD, R.DPI_START_WAIT, R.LNK_RECALL_MARGIN, R.MND_CTRL, R.MOT_ENV_AMAX, R.MOT_ENV_DMAX, R.MOT_ENV_JMAX, R.MOT_ENV_MAX, R.MOT_ENV_MIN, R.MOT_ENV_VMAX, R.PLC_ERR_LIMIT, R.PWR_SETTLE, R.PWR_SUPPLY_HOLD, R.PWR_WARN_DMAX, R.SAF_AXIS_RULE, R.SAF_DUTY_MAX, R.SAF_ENV_MARGIN, R.SAF_ESTOP_CFG, R.SAF_LINE_SUM_MAX, R.SAF_MAX_WIDTH, R.THM_CAL_ITEM, R.THM_DWELL_K, R.THM_HEAD_SCALE, R.THM_REMOTE_LIMIT, R.THM_SCALE_K, R.THM_SUPPLY_LIMIT, R.THM_THROTTLE_START, R.TSY_GAINS, R.TSY_HOLDOVER, R.TSY_LOCK_CFG, R.TSY_MAX_PPB, R.TSY_STEP_LIMIT]
  all_goals refine ⟨⟨?_, ?_⟩, ?_, ?_⟩ <;> (rintro _ _ _ _ _ rfl _ _; decide)
theorem each_mem_keeps {m : Nat} {s0 : State} {α : Type} {f : α → State → State} : ∀ {l : List α} {s : State}, Keeps m s0 s →
    (∀ a ∈ l, ∀ s, Keeps m s0 s → Keeps m s0 (f a s)) → Keeps m s0 (each l f s)
  | [], _, h, _ => h
  | a :: l, s, h, hf => each_mem_keeps (l := l) (s := f a s) (hf a (List.mem_cons_self ..) _ h) fun b hb => hf b (List.mem_cons_of_mem _ hb)
theorem applyRecord_keeps {m : Nat} {s0 s : State} {x1 x2} (hm : 320043362121949236 ||| m = m) (h : Keeps m s0 s) : Keeps m s0 (applyRecord x1 x2 s) := by
  have h1 := each_mem_keeps (l := recFields x1 x2)
    (f := fun e s => if (x1 == 1 || x1 == 2) then wrLocked e.1 e.2.2 s e.2.1 else wrPolicy e.1 e.2.2 s e.2.1) h fun e he s h => by
      have hr : regMask e.1 ||| m = m := Sub.trans (Sub.trans hm rfl) (recFields_mask e he)
      split
      · exact wrLocked_keeps (Sub.trans hm rfl) hr (recFields_block e he) h
      · exact wrPolicy_keeps (Sub.trans hm rfl) hr (recFields_block e he) h
  unfold applyRecord
  dsimp only
  generalize each (recFields x1 x2) _ s = t at h1
  repeat' first
    | exact h1
    | exact Sub.trans hm rfl
    | exact fun _ => rfl
    | exact rfl
    | intro _
    | (with_reducible apply doSafLock_keeps)
    | (with_reducible apply wr_keeps)
    | (with_reducible apply wrb_keeps)
    | (with_reducible apply modCtl_keeps)
    | (with_reducible apply each_keeps)
    | (with_reducible assumption)
    | split
    | (dsimp only)

theorem policyReject_keeps {m : Nat} {s0 s : State} {x1 x2 x3 x4} (hm : 25769803828 ||| m = m) (h : Keeps m s0 s) : Keeps m s0 (policyReject x1 x2 x3 x4 s) := by
  unfold policyReject
  repeat' first
    | (with_reducible assumption)
    | (exact Sub.trans hm rfl)
    | (intro _)
    | (with_reducible exact rfl)
    | (with_reducible apply postEvent_keeps)
    | (with_reducible apply id_keeps)
    | (with_reducible refine Keeps.eq2 ‹_› ?_)
    | (with_reducible refine Keeps.eq3 ‹_› ?_)
    | split
    | (dsimp only)
    | (exact rfl)

theorem applyPolicy_keeps {m : Nat} {s0 s : State} {x1} (hm : 969124658416760948 ||| m = m) (h : Keeps m s0 s) : Keeps m s0 (applyPolicy x1 s).2.2 := by
  unfold applyPolicy
  repeat' first
    | (with_reducible assumption)
    | (with_reducible exact id)
    | (exact in_mask hm rfl)
    | (with_reducible exact fun _ => rfl)
    | (exact Sub.trans hm rfl)
    | (intro _)
    | (extract_lets +onlyGivenNames s1; first | (refine Keeps.cut (t := s1) ?_ ?_; rotate_left; intro hs1; clear_value s1; rotate_right; subst s1) | (refine Keeps.cut2 (t := s1) ?_ ?_; rotate_left; intro hs1; clear_value s1; rotate_right; subst s1) | (refine Keeps.cut3 (t := s1) ?_ ?_; rotate_left; intro hs1; clear_value s1; rotate_right; subst s1) | (refine Keeps.cut1 (t := s1) ?_ ?_; rotate_left; intro hs1; clear_value s1; rotate_right; subst s1) | clear_value s1 | (have hm := s1; clear hm))
    | (with_reducible exact rfl)
    | (with_reducible apply applyRecord_keeps)
    | (with_reducible apply policyReject_keeps)
    | (with_reducible apply holdCause_keeps)
    | (with_reducible apply foldl_keeps)
    | (with_reducible apply foldl_snd_keeps)
    | (with_reducible apply foldl_fst_keeps)
    | (with_reducible apply foldl_trd_keeps)
    | (with_reducible apply foldl_fth_keeps)
    | (with_reducible apply id_keeps)
    | (with_reducible refine Keeps.eq2 ‹_› ?_)
    | (with_reducible refine Keeps.eq3 ‹_› ?_)
    | (with_reducible refine Keeps.eq4 ‹_› ?_)
    | split
    | (with_reducible apply Keeps.upd)
    | (dsimp only)
    | (exact rfl)

theorem applyPolicy_keeps_eq {m : Nat} {s0 s s' : State} {x1} {z0 z1} (hm : 969124658416760948 ||| m = m) (h : Keeps m s0 s) (e : applyPolicy x1 s = (z0, z1, s')) :
    Keeps m s0 s' := by
  have k := applyPolicy_keeps (hm := hm) (h := h) (x1 := x1)
  rw [e] at k
  exact k

theorem policySetDone_keeps {m : Nat} {s0 s : State} {x1 x2 x3} (hm : 320043362121949236 ||| m = m) (h : Keeps m s0 s) : Keeps m s0 (policySetDone x1 x2 x3 s) := by
  unfold policySetDone
  repeat' first
    | (with_reducible assumption)
    | (with_reducible exact id)
    | (exact in_mask hm rfl)
    | (with_reducible exact fun _ => rfl)
    | (exact Sub.trans hm rfl)
    | (intro _)
    | (extract_lets +onlyGivenNames s1; first | (refine Keeps.cut (t := s1) ?_ ?_; rotate_left; intro hs1; clear_value s1; rotate_right; subst s1) | (refine Keeps.cut2 (t := s1) ?_ ?_; rotate_left; intro hs1; clear_value s1; rotate_right; subst s1) | (refine Keeps.cut3 (t := s1) ?_ ?_; rotate_left; intro hs1; clear_value s1; rotate_right; subst s1) | (refine Keeps.cut1 (t := s1) ?_ ?_; rotate_left; intro hs1; clear_value s1; rotate_right; subst s1) | clear_value s1 | (have hm := s1; clear hm))
    | (with_reducible exact rfl)
    | (with_reducible apply finish_keeps)
    | (with_reducible apply policyReject_keeps)
    | (with_reducible apply each_keeps)
    | (with_reducible apply applyRecord_keeps)
    | (with_reducible apply modJob_keeps)
    | (with_reducible apply id_keeps)
    | (with_reducible refine Keeps.eq2 ‹_› ?_)
    | (with_reducible refine Keeps.eq3 ‹_› ?_)
    | split
    | (with_reducible apply Keeps.upd)
    | (dsimp only)
    | (exact rfl)

theorem policyWaiting_keeps {m : Nat} {s0 s : State} (hm : 320043362121949236 ||| m = m) (h : Keeps m s0 s) : Keeps m s0 (policyWaiting s) := by
  unfold policyWaiting
  repeat' first
    | (with_reducible assumption)
    | (with_reducible exact id)
    | (exact in_mask hm rfl)
    | (with_reducible exact fun _ => rfl)
    | (exact Sub.trans hm rfl)
    | (intro _)
    | (extract_lets +onlyGivenNames s1; first | (refine Keeps.cut (t := s1) ?_ ?_; rotate_left; intro hs1; clear_value s1; rotate_right; subst s1) | (refine Keeps.cut2 (t := s1) ?_ ?_; rotate_left; intro hs1; clear_value s1; rotate_right; subst s1) | (refine Keeps.cut3 (t := s1) ?_ ?_; rotate_left; intro hs1; clear_value s1; rotate_right; subst s1) | (refine Keeps.cut1 (t := s1) ?_ ?_; rotate_left; intro hs1; clear_value s1; rotate_right; subst s1) | clear_value s1 | (have hm := s1; clear hm))
    | (with_reducible exact rfl)
    | (with_reducible apply each_keeps)
    | (with_reducible apply finish_keeps)
    | (with_reducible apply applyRecord_keeps)
    | (with_reducible apply id_keeps)
    | (with_reducible refine Keeps.eq2 ‹_› ?_)
    | (with_reducible refine Keeps.eq3 ‹_› ?_)
    | split
    | (with_reducible apply Keeps.upd)
    | (dsimp only)
    | (exact rfl)

theorem doPolicySet_keeps {m : Nat} {s0 s : State} {x1 x2} (hm : 25769803828 ||| m = m) (h : Keeps m s0 s) : Keeps m s0 (doPolicySet x1 x2 s) := by
  unfold doPolicySet
  repeat' first
    | (with_reducible assumption)
    | (exact Sub.trans hm rfl)
    | (intro _)
    | (with_reducible exact rfl)
    | (with_reducible apply readDesc_keeps)
    | (with_reducible apply finish_keeps)
    | (with_reducible apply startXfer_keeps)
    | (with_reducible apply id_keeps)
    | (with_reducible refine Keeps.eq2 ‹_› ?_)
    | (with_reducible refine Keeps.eq3 ‹_› ?_)
    | split
    | (dsimp only)
    | (exact rfl)

theorem setLoader_keeps {m : Nat} {s0 s : State} {x1} (hm : 576460752303423488 ||| m = m) (h : Keeps m s0 s) : Keeps m s0 (setLoader x1 s) := by
  unfold setLoader
  repeat' first
    | (with_reducible assumption)
    | (exact Sub.trans hm rfl)
    | (intro _)
    | (with_reducible exact rfl)
    | (with_reducible apply wrf_keeps)
    | (with_reducible apply id_keeps)
    | (with_reducible refine Keeps.eq2 ‹_› ?_)
    | (with_reducible refine Keeps.eq3 ‹_› ?_)
    | split
    | (dsimp only)
    | (exact rfl)

theorem firmwareDone_keeps {m : Nat} {s0 s : State} {x1 x2 x3} (hm : 969124658416760948 ||| m = m) (h : Keeps m s0 s) : Keeps m s0 (firmwareDone x1 x2 x3 s) := by
  unfold firmwareDone
  repeat' first
    | (with_reducible assumption)
    | (with_reducible exact id)
    | (exact in_mask hm rfl)
    | (with_reducible exact fun _ => rfl)
    | (exact Sub.trans hm rfl)
    | (intro _)
    | (extract_lets +onlyGivenNames s1; first | (refine Keeps.cut (t := s1) ?_ ?_; rotate_left; intro hs1; clear_value s1; rotate_right; subst s1) | (refine Keeps.cut2 (t := s1) ?_ ?_; rotate_left; intro hs1; clear_value s1; rotate_right; subst s1) | (refine Keeps.cut3 (t := s1) ?_ ?_; rotate_left; intro hs1; clear_value s1; rotate_right; subst s1) | (refine Keeps.cut1 (t := s1) ?_ ?_; rotate_left; intro hs1; clear_value s1; rotate_right; subst s1) | clear_value s1 | (have hm := s1; clear hm))
    | (with_reducible exact rfl)
    | (with_reducible apply setLoader_keeps)
    | (with_reducible apply wrf_keeps)
    | (with_reducible apply postEvent_keeps)
    | (with_reducible apply finish_keeps)
    | (with_reducible apply wr_keeps)
    | (with_reducible refine applyPolicy_keeps_eq ?_ ?_ ‹_›)
    | (with_reducible apply applyPolicy_keeps)
    | (with_reducible apply complete_keeps)
    | (with_reducible apply id_keeps)
    | (with_reducible refine Keeps.eq2 ‹_› ?_)
    | (with_reducible refine Keeps.eq3 ‹_› ?_)
    | split
    | (with_reducible apply Keeps.upd)
    | (dsimp only)
    | (exact rfl)

theorem loadImage_keeps {m : Nat} {s0 s : State} {x1 x2 x3} (hm : 969124658416760948 ||| m = m) (h : Keeps m s0 s) : Keeps m s0 (loadImage x1 x2 x3 s) := by
  unfold loadImage
  repeat' first
    | (with_reducible assumption)
    | (with_reducible exact id)
    | (exact in_mask hm rfl)
    | (with_reducible exact fun _ => rfl)
    | (exact Sub.trans hm rfl)
    | (intro _)
    | (extract_lets +onlyGivenNames s1; first | (refine Keeps.cut (t := s1) ?_ ?_; rotate_left; intro hs1; clear_value s1; rotate_right; subst s1) | (refine Keeps.cut2 (t := s1) ?_ ?_; rotate_left; intro hs1; clear_value s1; rotate_right; subst s1) | (refine Keeps.cut3 (t := s1) ?_ ?_; rotate_left; intro hs1; clear_value s1; rotate_right; subst s1) | (refine Keeps.cut1 (t := s1) ?_ ?_; rotate_left; intro hs1; clear_value s1; rotate_right; subst s1) | clear_value s1 | (have hm := s1; clear hm))
    | (with_reducible exact rfl)
    | (with_reducible apply setLoader_keeps)
    | (with_reducible apply firmwareDone_keeps)
    | (with_reducible apply startXfer_keeps)
    | (with_reducible apply id_keeps)
    | (with_reducible refine Keeps.eq2 ‹_› ?_)
    | (with_reducible refine Keeps.eq3 ‹_› ?_)
    | split
    | (with_reducible apply Keeps.upd)
    | (dsimp only)
    | (exact rfl)

theorem loaderWaits_keeps {m : Nat} {s0 s : State} (hm : 969124658416760948 ||| m = m) (h : Keeps m s0 s) : Keeps m s0 (loaderWaits s) := by
  unfold loaderWaits
  repeat' first
    | (with_reducible assumption)
    | (with_reducible exact id)
    | (exact in_mask hm rfl)
    | (with_reducible exact fun _ => rfl)
    | (exact Sub.trans hm rfl)
    | (intro _)
    | (extract_lets +onlyGivenNames s1; first | (refine Keeps.cut (t := s1) ?_ ?_; rotate_left; intro hs1; clear_value s1; rotate_right; subst s1) | (refine Keeps.cut2 (t := s1) ?_ ?_; rotate_left; intro hs1; clear_value s1; rotate_right; subst s1) | (refine Keeps.cut3 (t := s1) ?_ ?_; rotate_left; intro hs1; clear_value s1; rotate_right; subst s1) | (refine Keeps.cut1 (t := s1) ?_ ?_; rotate_left; intro hs1; clear_value s1; rotate_right; subst s1) | clear_value s1 | (have hm := s1; clear hm))
    | (with_reducible exact rfl)
    | (with_reducible apply setLoader_keeps)
    | (with_reducible apply loadImage_keeps)
    | (with_reducible apply id_keeps)
    | (with_reducible refine Keeps.eq2 ‹_› ?_)
    | (with_reducible refine Keeps.eq3 ‹_› ?_)
    | split
    | (with_reducible apply Keeps.upd)
    | (dsimp only)
    | (exact rfl)

theorem doLoadFirmware_keeps {m : Nat} {s0 s : State} {x1 x2} (hm : 969124658416760948 ||| m = m) (h : Keeps m s0 s) : Keeps m s0 (doLoadFirmware x1 x2 s) := by
  unfold doLoadFirmware
  repeat' first
    | (with_reducible assumption)
    | (with_reducible exact id)
    | (exact in_mask hm rfl)
    | (with_reducible exact fun _ => rfl)
    | (exact Sub.trans hm rfl)
    | (intro _)
    | (extract_lets +onlyGivenNames s1; first | (refine Keeps.cut (t := s1) ?_ ?_; rotate_left; intro hs1; clear_value s1; rotate_right; subst s1) | (refine Keeps.cut2 (t := s1) ?_ ?_; rotate_left; intro hs1; clear_value s1; rotate_right; subst s1) | (refine Keeps.cut3 (t := s1) ?_ ?_; rotate_left; intro hs1; clear_value s1; rotate_right; subst s1) | (refine Keeps.cut1 (t := s1) ?_ ?_; rotate_left; intro hs1; clear_value s1; rotate_right; subst s1) | clear_value s1 | (have hm := s1; clear hm))
    | (with_reducible exact rfl)
    | (with_reducible apply readDesc_keeps)
    | (with_reducible apply finish_keeps)
    | (with_reducible apply loadImage_keeps)
    | (with_reducible apply id_keeps)
    | (with_reducible refine Keeps.eq2 ‹_› ?_)
    | (with_reducible refine Keeps.eq3 ‹_› ?_)
    | split
    | (with_reducible apply Keeps.upd)
    | (dsimp only)
    | (exact rfl)

theorem doRollbackCommit_keeps {m : Nat} {s0 s : State} {x1} (hm : 576461027181330432 ||| m = m) (h : Keeps m s0 s) : Keeps m s0 (doRollbackCommit x1 s) := by
  unfold doRollbackCommit
  repeat' first
    | (with_reducible assumption)
    | (exact Sub.trans hm rfl)
    | (intro _)
    | (extract_lets +onlyGivenNames s1; first | (refine Keeps.cut (t := s1) ?_ ?_; rotate_left; intro hs1; clear_value s1; rotate_right; subst s1) | (refine Keeps.cut2 (t := s1) ?_ ?_; rotate_left; intro hs1; clear_value s1; rotate_right; subst s1) | (refine Keeps.cut3 (t := s1) ?_ ?_; rotate_left; intro hs1; clear_value s1; rotate_right; subst s1) | (refine Keeps.cut1 (t := s1) ?_ ?_; rotate_left; intro hs1; clear_value s1; rotate_right; subst s1) | clear_value s1 | (have hm := s1; clear hm))
    | (with_reducible exact rfl)
    | (with_reducible apply wr_keeps)
    | (with_reducible apply wrf_keeps)
    | (with_reducible apply id_keeps)
    | (with_reducible refine Keeps.eq2 ‹_› ?_)
    | (with_reducible refine Keeps.eq3 ‹_› ?_)
    | split
    | (dsimp only)
    | (exact rfl)

theorem postUnlock_keeps {m : Nat} {s0 s : State} {x1 x2 x3 x4} (hm : 25769803828 ||| m = m) (h : Keeps m s0 s) : Keeps m s0 (postUnlock x1 x2 x3 x4 s) := by
  unfold postUnlock
  repeat' first
    | (with_reducible assumption)
    | (exact Sub.trans hm rfl)
    | (intro _)
    | (with_reducible exact rfl)
    | (with_reducible apply postEvent_keeps)
    | (with_reducible apply id_keeps)
    | (with_reducible refine Keeps.eq2 ‹_› ?_)
    | (with_reducible refine Keeps.eq3 ‹_› ?_)
    | split
    | (dsimp only)
    | (exact rfl)

theorem doDbgRequest_keeps {m : Nat} {s0 s : State} {x1} (hm : 4611686044197199932 ||| m = m) (h : Keeps m s0 s) : Keeps m s0 (doDbgRequest x1 s) := by
  unfold doDbgRequest
  repeat' first
    | (with_reducible assumption)
    | (with_reducible exact id)
    | (exact in_mask hm rfl)
    | (with_reducible exact fun _ => rfl)
    | (exact Sub.trans hm rfl)
    | (intro _)
    | (extract_lets +onlyGivenNames s1; first | (refine Keeps.cut (t := s1) ?_ ?_; rotate_left; intro hs1; clear_value s1; rotate_right; subst s1) | (refine Keeps.cut2 (t := s1) ?_ ?_; rotate_left; intro hs1; clear_value s1; rotate_right; subst s1) | (refine Keeps.cut3 (t := s1) ?_ ?_; rotate_left; intro hs1; clear_value s1; rotate_right; subst s1) | (refine Keeps.cut1 (t := s1) ?_ ?_; rotate_left; intro hs1; clear_value s1; rotate_right; subst s1) | clear_value s1 | (have hm := s1; clear hm))
    | (with_reducible exact rfl)
    | (with_reducible apply modCtl_keeps)
    | (with_reducible apply postUnlock_keeps)
    | (with_reducible refine fresh_keeps_eq ?_ ?_ ‹_›)
    | (with_reducible apply fresh_keeps)
    | (with_reducible apply each_keeps)
    | (with_reducible apply wr_keeps)
    | (with_reducible apply emit_keeps)
    | (with_reducible apply id_keeps)
    | (with_reducible refine Keeps.eq2 ‹_› ?_)
    | (with_reducible refine Keeps.eq3 ‹_› ?_)
    | split
    | (with_reducible apply Keeps.upd)
    | (dsimp only)
    | (exact rfl)

theorem doDbgResponse_keeps {m : Nat} {s0 s : State} {x1} (hm : 4611686044197199924 ||| m = m) (h : Keeps m s0 s) : Keeps m s0 (doDbgResponse x1 s) := by
  unfold doDbgResponse
  repeat' first
    | (with_reducible assumption)
    | (with_reducible exact id)
    | (exact in_mask hm rfl)
    | (with_reducible exact fun _ => rfl)
    | (exact Sub.trans hm rfl)
    | (intro _)
    | (extract_lets +onlyGivenNames s1; first | (refine Keeps.cut (t := s1) ?_ ?_; rotate_left; intro hs1; clear_value s1; rotate_right; subst s1) | (refine Keeps.cut2 (t := s1) ?_ ?_; rotate_left; intro hs1; clear_value s1; rotate_right; subst s1) | (refine Keeps.cut3 (t := s1) ?_ ?_; rotate_left; intro hs1; clear_value s1; rotate_right; subst s1) | (refine Keeps.cut1 (t := s1) ?_ ?_; rotate_left; intro hs1; clear_value s1; rotate_right; subst s1) | clear_value s1 | (have hm := s1; clear hm))
    | (with_reducible exact rfl)
    | (with_reducible apply wr_keeps)
    | (with_reducible apply modCtl_keeps)
    | (with_reducible apply postUnlock_keeps)
    | (with_reducible apply wrf_keeps)
    | (with_reducible apply wrb_keeps)
    | (with_reducible apply id_keeps)
    | (with_reducible refine Keeps.eq2 ‹_› ?_)
    | (with_reducible refine Keeps.eq3 ‹_› ?_)
    | split
    | (with_reducible apply Keeps.upd)
    | (dsimp only)
    | (exact rfl)

theorem doDbgRelock_keeps {m : Nat} {s0 s : State} (hm : 4611686044197191732 ||| m = m) (h : Keeps m s0 s) : Keeps m s0 (doDbgRelock s) := by
  unfold doDbgRelock
  repeat' first
    | (with_reducible assumption)
    | (exact Sub.trans hm rfl)
    | (intro _)
    | (with_reducible exact rfl)
    | (with_reducible apply postUnlock_keeps)
    | (with_reducible apply wrf_keeps)
    | (with_reducible apply wrb_keeps)
    | (with_reducible apply id_keeps)
    | (with_reducible refine Keeps.eq2 ‹_› ?_)
    | (with_reducible refine Keeps.eq3 ‹_› ?_)
    | split
    | (dsimp only)
    | (exact rfl)

theorem doDbgReset_keeps {m : Nat} {s0 s : State} (hm : 18446744069414846463 ||| m = m) (h : Keeps m s0 s) : Keeps m s0 (doDbgReset s) := by
  unfold doDbgReset
  repeat' first
    | (with_reducible assumption)
    | (with_reducible exact id)
    | (exact in_mask hm rfl)
    | (with_reducible exact fun _ => rfl)
    | (exact Sub.trans hm rfl)
    | (intro _)
    | (extract_lets +onlyGivenNames s1; first | (refine Keeps.cut (t := s1) ?_ ?_; rotate_left; intro hs1; clear_value s1; rotate_right; subst s1) | (refine Keeps.cut2 (t := s1) ?_ ?_; rotate_left; intro hs1; clear_value s1; rotate_right; subst s1) | (refine Keeps.cut3 (t := s1) ?_ ?_; rotate_left; intro hs1; clear_value s1; rotate_right; subst s1) | (refine Keeps.cut1 (t := s1) ?_ ?_; rotate_left; intro hs1; clear_value s1; rotate_right; subst s1) | clear_value s1 | (have hm := s1; clear hm))
    | (with_reducible exact rfl)
    | (with_reducible apply wr_keeps_all)
    | (with_reducible apply assertSource_keeps)
    | (with_reducible apply id_keeps)
    | (with_reducible refine Keeps.eq2 ‹_› ?_)
    | (with_reducible refine Keeps.eq3 ‹_› ?_)
    | split
    | (with_reducible apply Keeps.upd)
    | (dsimp only)
    | (exact rfl)

end Sys2Proof.Laws
end

