-- ==== Sys2Proof/Laws/Keeps/Memc.lean ====
section
/-! SUPPORT. Every operation of Machine/Memc.lean keeps what Laws/Keeps/Base.lean states. -/

namespace Sys2Proof.Laws
open Sys2Proof Sys2Proof.Machine

theorem loseBytes_keeps {m : Nat} {s0 s : State} {x1 x2} (hm : 640 ||| m = m) (h : Keeps m s0 s) : Keeps m s0 (loseBytes x1 x2 s) := by
  unfold loseBytes
  repeat' first
    | (with_reducible assumption)
    | (with_reducible exact id)
    | (exact in_mask hm rfl)
    | (with_reducible exact fun _ => rfl)
    | (exact tsorted_filter _ _)
    | (exact Sub.trans hm rfl)
    | (intro _)
    | (extract_lets +onlyGivenNames s1; first | (refine Keeps.cut (t := s1) ?_ ?_; rotate_left; intro hs1; clear_value s1; rotate_right; subst s1) | (have hm : MemState := s1; clear hm) | clear_value s1 | (have hm := s1; clear hm))
    | (with_reducible exact rfl)
    | (with_reducible apply modMem_keeps)
    | (with_reducible apply id_keeps)
    | split
    | (with_reducible apply Keeps.upd)
    | (dsimp only)
    | (exact rfl)

theorem setMap_keeps {m : Nat} {s0 s : State} {x1 x2 x3 x4} (hm : 8796093022208 ||| m = m) (h : Keeps m s0 s) : Keeps m s0 (setMap x1 x2 x3 x4 s) := by
  unfold setMap
  repeat' first
    | (with_reducible assumption)
    | (exact Sub.trans hm rfl)
    | (intro _)
    | (with_reducible exact rfl)
    | (with_reducible apply wrf_keeps)
    | (with_reducible apply id_keeps)
    | split
    | (dsimp only)
    | (exact rfl)

theorem postTrainFail_keeps {m : Nat} {s0 s : State} {x1 x2 x3 x4} (hm : 25769803828 ||| m = m) (h : Keeps m s0 s) : Keeps m s0 (postTrainFail x1 x2 x3 x4 s) := by
  unfold postTrainFail
  repeat' first
    | (with_reducible assumption)
    | (exact Sub.trans hm rfl)
    | (intro _)
    | (with_reducible exact rfl)
    | (with_reducible apply postEvent_keeps)
    | (with_reducible apply id_keeps)
    | split
    | (dsimp only)
    | (exact rfl)

theorem channelFailed_keeps {m : Nat} {s0 s : State} (hm : 969128953384056948 ||| m = m) (h : Keeps m s0 s) : Keeps m s0 (channelFailed s) := by
  unfold channelFailed
  repeat' first
    | (with_reducible assumption)
    | (exact Sub.trans hm rfl)
    | (intro _)
    | (with_reducible exact rfl)
    | (with_reducible apply wrf_keeps)
    | (with_reducible apply holdCause_keeps)
    | (with_reducible apply id_keeps)
    | split
    | (dsimp only)
    | (exact rfl)

theorem rankFails_keeps {m : Nat} {s0 s : State} {x1 x2} (hm : 969128953384057588 ||| m = m) (h : Keeps m s0 s) : Keeps m s0 (rankFails x1 x2 s) := by
  unfold rankFails
  repeat' first
    | (with_reducible assumption)
    | (with_reducible exact id)
    | (exact in_mask hm rfl)
    | (with_reducible exact fun _ => rfl)
    | (exact Sub.trans hm rfl)
    | (intro _)
    | (extract_lets +onlyGivenNames s1; first | (refine Keeps.cut (t := s1) ?_ ?_; rotate_left; intro hs1; clear_value s1; rotate_right; subst s1) | clear_value s1 | (have hm := s1; clear hm))
    | (with_reducible exact rfl)
    | (with_reducible apply wrf_keeps)
    | (with_reducible apply channelFailed_keeps)
    | (with_reducible apply postTrainFail_keeps)
    | (with_reducible apply setRankState_keeps)
    | (with_reducible apply setMap_keeps)
    | (with_reducible apply loseBytes_keeps)
    | (with_reducible apply id_keeps)
    | split
    | (with_reducible apply Keeps.upd)
    | (dsimp only)
    | (exact rfl)

theorem doDramTrainingDone_keeps {m : Nat} {s0 s : State} {x1 x2 x3 x4} (hm : 18446744069414845180 ||| m = m) (h : Keeps m s0 s) : Keeps m s0 (doDramTrainingDone x1 x2 x3 x4 s) := by
  unfold doDramTrainingDone
  repeat' first
    | (with_reducible assumption)
    | (with_reducible exact id)
    | (exact in_mask hm rfl)
    | (with_reducible exact fun _ => rfl)
    | (exact Sub.trans hm rfl)
    | (intro _)
    | (extract_lets +onlyGivenNames s1; first | (refine Keeps.cut (t := s1) ?_ ?_; rotate_left; intro hs1; clear_value s1; rotate_right; subst s1) | (have hm : MemState := s1; clear hm) | clear_value s1 | (have hm := s1; clear hm))
    | (with_reducible exact rfl)
    | (with_reducible apply wr_keeps_all)
    | (with_reducible apply loseBytes_keeps)
    | (with_reducible apply each_keeps)
    | (with_reducible apply rankFails_keeps)
    | (with_reducible apply wrf_keeps)
    | (with_reducible apply postEvent_keeps)
    | (with_reducible apply wrb_keeps)
    | (with_reducible apply modMem_keeps)
    | (with_reducible apply bringupCheck_keeps)
    | (with_reducible apply continueRelease_keeps)
    | (with_reducible apply id_keeps)
    | split
    | (with_reducible apply Keeps.upd)
    | (dsimp only)
    | (exact rfl)

theorem takeMapByte_keeps {m : Nat} {s0 s : State} {x1 x2} (hm : 8796093022848 ||| m = m) (h : Keeps m s0 s) : Keeps m s0 (takeMapByte x1 x2 s) := by
  unfold takeMapByte
  repeat' first
    | (with_reducible assumption)
    | (exact Sub.trans hm rfl)
    | (intro _)
    | (extract_lets +onlyGivenNames s1; first | (refine Keeps.cut (t := s1) ?_ ?_; rotate_left; intro hs1; clear_value s1; rotate_right; subst s1) | clear_value s1 | (have hm := s1; clear hm))
    | (with_reducible exact rfl)
    | (with_reducible apply each_keeps)
    | (with_reducible apply loseBytes_keeps)
    | (with_reducible apply setMap_keeps)
    | (with_reducible apply setRankState_keeps)
    | (with_reducible apply id_keeps)
    | split
    | (dsimp only)
    | (exact rfl)

theorem writeRankMap_keeps {m : Nat} {s0 s : State} {x1} (hm : 8796093022848 ||| m = m) (h : Keeps m s0 s) : Keeps m s0 (writeRankMap x1 s) := by
  unfold writeRankMap
  repeat' first
    | (with_reducible assumption)
    | (exact Sub.trans hm rfl)
    | (intro _)
    | (with_reducible exact rfl)
    | (with_reducible apply each_keeps)
    | (with_reducible apply takeMapByte_keeps)
    | (with_reducible apply id_keeps)
    | split
    | (dsimp only)
    | (exact rfl)

theorem doSrIdleEntry_keeps {m : Nat} {s0 s : State} (hm : 8796093022720 ||| m = m) (h : Keeps m s0 s) : Keeps m s0 (doSrIdleEntry s) := by
  unfold doSrIdleEntry
  repeat' first
    | (with_reducible assumption)
    | (with_reducible exact id)
    | (exact in_mask hm rfl)
    | (with_reducible exact fun _ => rfl)
    | (exact Sub.trans hm rfl)
    | (intro _)
    | (extract_lets +onlyGivenNames s1; first | (refine Keeps.cut (t := s1) ?_ ?_; rotate_left; intro hs1; clear_value s1; rotate_right; subst s1) | (have hm : MemState := s1; clear hm) | clear_value s1 | (have hm := s1; clear hm))
    | (with_reducible exact rfl)
    | (with_reducible apply wrf_keeps)
    | (with_reducible apply modMem_keeps)
    | (with_reducible apply id_keeps)
    | split
    | (with_reducible apply Keeps.upd)
    | (dsimp only)
    | (exact rfl)

theorem exitSelfRefresh_keeps {m : Nat} {s0 s : State} {x1 x2} (hm : 8821862826548 ||| m = m) (h : Keeps m s0 s) : Keeps m s0 (exitSelfRefresh x1 x2 s) := by
  unfold exitSelfRefresh
  repeat' first
    | (with_reducible assumption)
    | (with_reducible exact id)
    | (exact in_mask hm rfl)
    | (with_reducible exact fun _ => rfl)
    | (exact Sub.trans hm rfl)
    | (intro _)
    | (extract_lets +onlyGivenNames s1; first | (refine Keeps.cut (t := s1) ?_ ?_; rotate_left; intro hs1; clear_value s1; rotate_right; subst s1) | clear_value s1 | (have hm := s1; clear hm))
    | (with_reducible exact rfl)
    | (with_reducible apply postEvent_keeps)
    | (with_reducible apply leaveSelfRefresh_keeps)
    | (with_reducible apply id_keeps)
    | split
    | (with_reducible apply Keeps.upd)
    | (dsimp only)
    | (exact rfl)

theorem migrateUe_keeps {m : Nat} {s0 s : State} {x1} (hm : 17617955848756 ||| m = m) (h : Keeps m s0 s) : Keeps m s0 (migrateUe x1 s) := by
  unfold migrateUe
  repeat' first
    | (with_reducible assumption)
    | (with_reducible exact id)
    | (exact in_mask hm rfl)
    | (with_reducible exact fun _ => rfl)
    | (exact Sub.trans hm rfl)
    | (intro _)
    | (extract_lets +onlyGivenNames s1; first | (refine Keeps.cut (t := s1) ?_ ?_; rotate_left; intro hs1; clear_value s1; rotate_right; subst s1) | (have hm : MemState := s1; clear hm) | clear_value s1 | (have hm := s1; clear hm))
    | (with_reducible exact rfl)
    | (with_reducible apply bumpMem_keeps)
    | (with_reducible apply logError_keeps)
    | (with_reducible apply modMem_keeps)
    | (with_reducible apply postEvent_keeps)
    | (with_reducible apply id_keeps)
    | split
    | (with_reducible apply Keeps.upd)
    | (dsimp only)
    | (exact rfl)

theorem requesterUe_keeps {m : Nat} {s0 s : State} {x1 x2} (hm : 72057619807862836 ||| m = m) (h : Keeps m s0 s) : Keeps m s0 (requesterUe x1 x2 s) := by
  unfold requesterUe
  repeat' first
    | (with_reducible assumption)
    | (exact Sub.trans hm rfl)
    | (intro _)
    | (with_reducible exact rfl)
    | (with_reducible apply camRefReset_keeps)
    | (with_reducible apply id_keeps)
    | split
    | (dsimp only)
    | (exact rfl)

theorem copyPointer_keeps {m : Nat} {s0 s : State} {x1 x2} (hm : 8796093022720 ||| m = m) (h : Keeps m s0 s) : Keeps m s0 (copyPointer x1 x2 s) := by
  unfold copyPointer
  repeat' first
    | (with_reducible assumption)
    | (with_reducible exact id)
    | (exact in_mask hm rfl)
    | (with_reducible exact fun _ => rfl)
    | (exact Sub.trans hm rfl)
    | (intro _)
    | (extract_lets +onlyGivenNames s1; first | (refine Keeps.cut (t := s1) ?_ ?_; rotate_left; intro hs1; clear_value s1; rotate_right; subst s1) | (have hm : MemState := s1; clear hm) | clear_value s1 | (have hm := s1; clear hm))
    | (with_reducible exact rfl)
    | (with_reducible apply wr_keeps)
    | (with_reducible apply modMem_keeps)
    | (with_reducible apply id_keeps)
    | split
    | (with_reducible apply Keeps.upd)
    | (dsimp only)
    | (exact rfl)

theorem doDramReadComplete_keeps {m : Nat} {s0 s : State} {x1 x2 x3 x4 x5} (hm : 72084008086929972 ||| m = m) (h : Keeps m s0 s) : Keeps m s0 (doDramReadComplete x1 x2 x3 x4 x5 s) := by
  unfold doDramReadComplete
  repeat' first
    | (with_reducible assumption)
    | (with_reducible exact id)
    | (exact in_mask hm rfl)
    | (with_reducible exact fun _ => rfl)
    | (exact Sub.trans hm rfl)
    | (intro _)
    | (extract_lets +onlyGivenNames s1; first | (refine Keeps.cut (t := s1) ?_ ?_; rotate_left; intro hs1; clear_value s1; rotate_right; subst s1) | clear_value s1 | (have hm := s1; clear hm))
    | (with_reducible exact rfl)
    | (with_reducible apply requesterUe_keeps)
    | (with_reducible apply dramNoAddr_keeps)
    | (with_reducible apply copyPointer_keeps)
    | (with_reducible apply dramCe_keeps)
    | (with_reducible apply migrateUe_keeps)
    | (with_reducible apply dramUe_keeps)
    | (with_reducible apply id_keeps)
    | split
    | (with_reducible apply Keeps.upd)
    | (dsimp only)
    | (exact rfl)

theorem doDramCmdAlert_keeps {m : Nat} {s0 s : State} {x1 x2 x3 x4 x5 x6} (hm : 72084008086929972 ||| m = m) (h : Keeps m s0 s) : Keeps m s0 (doDramCmdAlert x1 x2 x3 x4 x5 x6 s) := by
  unfold doDramCmdAlert
  dsimp only
  repeat' first
    | (with_reducible assumption)
    | (with_reducible exact id)
    | (exact in_mask hm rfl)
    | (with_reducible exact fun _ => rfl)
    | (exact Sub.trans hm rfl)
    | (intro _)
    | (extract_lets +onlyGivenNames s1; first | (refine Keeps.cut (t := s1) ?_ ?_; rotate_left; intro hs1; clear_value s1; rotate_right; subst s1) | (have hm : MemState := s1; clear hm) | clear_value s1 | (have hm := s1; clear hm))
    | (with_reducible exact rfl)
    | (with_reducible apply postEvent_keeps)
    | (with_reducible apply requesterUe_keeps)
    | (with_reducible apply logError_keeps)
    | (with_reducible apply modMem_keeps)
    | (with_reducible apply bumpMem_keeps)
    | (with_reducible apply id_keeps)
    | split
    | (with_reducible apply Keeps.upd)
    | (dsimp only)
    | (exact rfl)

theorem writeRetire_keeps {m : Nat} {s0 s : State} {x1} (hm : 8821862826548 ||| m = m) (h : Keeps m s0 s) : Keeps m s0 (writeRetire x1 s) := by
  unfold writeRetire
  repeat' first
    | (with_reducible assumption)
    | (exact Sub.trans hm rfl)
    | (intro _)
    | (extract_lets +onlyGivenNames s1; first | (refine Keeps.cut (t := s1) ?_ ?_; rotate_left; intro hs1; clear_value s1; rotate_right; subst s1) | clear_value s1 | (have hm := s1; clear hm))
    | (with_reducible exact rfl)
    | (with_reducible apply retireDue_keeps)
    | (with_reducible apply id_keeps)
    | split
    | (dsimp only)
    | (exact rfl)

theorem doRankMigrateDone_keeps {m : Nat} {s0 s : State} (hm : 8821862826548 ||| m = m) (h : Keeps m s0 s) : Keeps m s0 (doRankMigrateDone s) := by
  unfold doRankMigrateDone
  repeat' first
    | (with_reducible assumption)
    | (with_reducible exact id)
    | (exact in_mask hm rfl)
    | (with_reducible exact fun _ => rfl)
    | (exact Sub.trans hm rfl)
    | (intro _)
    | (extract_lets +onlyGivenNames s1; first | (refine Keeps.cut (t := s1) ?_ ?_; rotate_left; intro hs1; clear_value s1; rotate_right; subst s1) | (have hm : MemState := s1; clear hm) | clear_value s1 | (have hm := s1; clear hm))
    | (with_reducible exact rfl)
    | (with_reducible apply setMap_keeps)
    | (with_reducible apply setRankState_keeps)
    | (with_reducible apply wr_keeps)
    | (with_reducible apply wrf_keeps)
    | (with_reducible apply modMem_keeps)
    | (with_reducible apply postEvent_keeps)
    | (with_reducible apply each_keeps)
    | (with_reducible apply retireDue_keeps)
    | (with_reducible apply id_keeps)
    | split
    | (with_reducible apply Keeps.upd)
    | (dsimp only)
    | (exact rfl)

theorem sweepDone_keeps {m : Nat} {s0 s : State} (hm : 8821862826548 ||| m = m) (h : Keeps m s0 s) : Keeps m s0 (sweepDone s) := by
  unfold sweepDone
  repeat' first
    | (with_reducible assumption)
    | (with_reducible exact id)
    | (exact in_mask hm rfl)
    | (with_reducible exact fun _ => rfl)
    | (exact Sub.trans hm rfl)
    | (intro _)
    | (extract_lets +onlyGivenNames s1; first | (refine Keeps.cut (t := s1) ?_ ?_; rotate_left; intro hs1; clear_value s1; rotate_right; subst s1) | (have hm : MemState := s1; clear hm) | clear_value s1 | (have hm := s1; clear hm))
    | (with_reducible exact rfl)
    | (with_reducible apply postEvent_keeps)
    | (with_reducible apply bumpMem_keeps)
    | (with_reducible apply modMem_keeps)
    | (with_reducible apply id_keeps)
    | split
    | (with_reducible apply Keeps.upd)
    | (dsimp only)
    | (exact rfl)

theorem doPatrolScrubRead_keeps {m : Nat} {s0 s : State} {x1 x2} (hm : 26414048870964 ||| m = m) (h : Keeps m s0 s) : Keeps m s0 (doPatrolScrubRead x1 x2 s) := by
  unfold doPatrolScrubRead
  repeat' first
    | (with_reducible assumption)
    | (with_reducible exact id)
    | (exact in_mask hm rfl)
    | (with_reducible exact fun _ => rfl)
    | (exact Sub.trans hm rfl)
    | (intro _)
    | (extract_lets +onlyGivenNames s1; first | (refine Keeps.cut (t := s1) ?_ ?_; rotate_left; intro hs1; clear_value s1; rotate_right; subst s1) | (have hm : MemState := s1; clear hm) | clear_value s1 | (have hm := s1; clear hm))
    | (with_reducible exact rfl)
    | (with_reducible apply modMem_keeps)
    | (with_reducible apply dramCe_keeps)
    | (with_reducible apply dramUe_keeps)
    | (with_reducible apply sweepDone_keeps)
    | (with_reducible apply wr_keeps)
    | (with_reducible apply id_keeps)
    | split
    | (with_reducible apply Keeps.upd)
    | (dsimp only)
    | (exact rfl)

theorem doSramScrub_keeps {m : Nat} {s0 s : State} {x1 x2 x3} (hm : 17617955848756 ||| m = m) (h : Keeps m s0 s) : Keeps m s0 (doSramScrub x1 x2 x3 s) := by
  unfold doSramScrub
  repeat' first
    | (with_reducible assumption)
    | (with_reducible exact id)
    | (exact in_mask hm rfl)
    | (with_reducible exact fun _ => rfl)
    | (exact Sub.trans hm rfl)
    | (intro _)
    | (extract_lets +onlyGivenNames s1; first | (refine Keeps.cut (t := s1) ?_ ?_; rotate_left; intro hs1; clear_value s1; rotate_right; subst s1) | (have hm : MemState := s1; clear hm) | clear_value s1 | (have hm := s1; clear hm))
    | (with_reducible exact rfl)
    | (with_reducible apply sramCe_keeps)
    | (with_reducible apply sramUe_keeps)
    | (with_reducible apply id_keeps)
    | split
    | (with_reducible apply Keeps.upd)
    | (dsimp only)
    | (exact rfl)

theorem writeLogClear_keeps {m : Nat} {s0 s : State} {x1} (hm : 17592186044928 ||| m = m) (h : Keeps m s0 s) : Keeps m s0 (writeLogClear x1 s) := by
  unfold writeLogClear
  repeat' first
    | (with_reducible assumption)
    | (with_reducible exact id)
    | (exact in_mask hm rfl)
    | (with_reducible exact fun _ => rfl)
    | (exact Sub.trans hm rfl)
    | (intro _)
    | (extract_lets +onlyGivenNames s1; first | (refine Keeps.cut (t := s1) ?_ ?_; rotate_left; intro hs1; clear_value s1; rotate_right; subst s1) | (have hm : MemState := s1; clear hm) | clear_value s1 | (have hm := s1; clear hm))
    | (with_reducible exact rfl)
    | (with_reducible apply showLog_keeps)
    | (with_reducible apply modMem_keeps)
    | (with_reducible apply id_keeps)
    | split
    | (with_reducible apply Keeps.upd)
    | (dsimp only)
    | (exact rfl)

theorem writeInject_keeps {m : Nat} {s0 s : State} {x1} (hm : 17592186044416 ||| m = m) (h : Keeps m s0 s) : Keeps m s0 (writeInject x1 s) := by
  unfold writeInject
  repeat' first
    | (with_reducible assumption)
    | (exact Sub.trans hm rfl)
    | (intro _)
    | (with_reducible exact rfl)
    | (with_reducible apply wr_keeps)
    | (with_reducible apply id_keeps)
    | split
    | (dsimp only)
    | (exact rfl)

end Sys2Proof.Laws
end

