-- ==== Sys2Proof/Laws/Keeps/Evt.lean ====
section
/-! SUPPORT. Every operation of Machine/Evt.lean keeps what Laws/Keeps/Base.lean states. -/

namespace Sys2Proof.Laws
open Sys2Proof Sys2Proof.Machine

theorem doEvtPendingClear_keeps {m : Nat} {s0 s : State} {x1 x2} (hm : 17179869184 ||| m = m) (h : Keeps m s0 s) : Keeps m s0 (doEvtPendingClear x1 x2 s) := by
  unfold doEvtPendingClear
  repeat' first
    | (with_reducible assumption)
    | (exact Sub.trans hm rfl)
    | (intro _)
    | (extract_lets +onlyGivenNames s1; first | (refine Keeps.cut (t := s1) ?_ ?_; rotate_left; intro hs1; clear_value s1; rotate_right; subst s1) | clear_value s1 | (have hm := s1; clear hm))
    | (with_reducible exact rfl)
    | (with_reducible apply wr_keeps)
    | (with_reducible apply id_keeps)
    | split
    | (dsimp only)
    | (exact rfl)

theorem doVectorHoldoffExpiry_keeps {m : Nat} {s0 s : State} {x1} (hm : 17179869236 ||| m = m) (h : Keeps m s0 s) : Keeps m s0 (doVectorHoldoffExpiry x1 s) := by
  unfold doVectorHoldoffExpiry
  repeat' first
    | (with_reducible assumption)
    | (with_reducible exact id)
    | (exact in_mask hm rfl)
    | (with_reducible exact fun _ => rfl)
    | (exact Sub.trans hm rfl)
    | (intro _)
    | (extract_lets +onlyGivenNames s1; first | (refine Keeps.cut (t := s1) ?_ ?_; rotate_left; intro hs1; clear_value s1; rotate_right; subst s1) | clear_value s1 | (have hm := s1; clear hm))
    | (with_reducible exact rfl)
    | (with_reducible apply sendVector_keeps)
    | (with_reducible apply id_keeps)
    | split
    | (with_reducible apply Keeps.upd)
    | (dsimp only)
    | (exact rfl)

theorem doMsixUnmask_keeps {m : Nat} {s0 s : State} {x1} (hm : 17179869236 ||| m = m) (h : Keeps m s0 s) : Keeps m s0 (doMsixUnmask x1 s) := by
  unfold doMsixUnmask
  repeat' first
    | (with_reducible assumption)
    | (exact Sub.trans hm rfl)
    | (intro _)
    | (extract_lets +onlyGivenNames s1; first | (refine Keeps.cut (t := s1) ?_ ?_; rotate_left; intro hs1; clear_value s1; rotate_right; subst s1) | clear_value s1 | (have hm := s1; clear hm))
    | (with_reducible exact rfl)
    | (with_reducible apply wrb_keeps)
    | (with_reducible apply sendVector_keeps)
    | (with_reducible apply id_keeps)
    | split
    | (dsimp only)
    | (exact rfl)

end Sys2Proof.Laws
end

