-- ==== Sys2Proof/Laws/Keeps/Modes.lean ====
section
/-! SUPPORT. Every operation of Machine/Modes.lean keeps what Laws/Keeps/Base.lean states. -/

namespace Sys2Proof.Laws
open Sys2Proof Sys2Proof.Machine

theorem refuseMode_keeps {m : Nat} {s0 s : State} {x1 x2} (hm : 576460778073235508 ||| m = m) (h : Keeps m s0 s) : Keeps m s0 (refuseMode x1 x2 s) := by
  unfold refuseMode
  repeat' first
    | (with_reducible assumption)
    | (with_reducible exact id)
    | (exact in_mask hm rfl)
    | (with_reducible exact fun _ => rfl)
    | (exact Sub.trans hm rfl)
    | (intro _)
    | (extract_lets +onlyGivenNames s1; first | (refine Keeps.cut (t := s1) ?_ ?_; rotate_left; intro hs1; clear_value s1; rotate_right; subst s1) | clear_value s1 | (have hm := s1; clear hm))
    | (with_reducible exact rfl)
    | (with_reducible apply finish_keeps)
    | (with_reducible apply wrb_keeps)
    | (with_reducible apply modCtl_keeps)
    | (with_reducible apply id_keeps)
    | split
    | (with_reducible apply Keeps.upd)
    | (dsimp only)
    | (exact rfl)

theorem enterBuild_keeps {m : Nat} {s0 s : State} {x1} (hm : 2094738451717961844 ||| m = m) (h : Keeps m s0 s) : Keeps m s0 (enterBuild x1 s) := by
  unfold enterBuild
  repeat' first
    | (with_reducible assumption)
    | (with_reducible exact id)
    | (exact in_mask hm rfl)
    | (with_reducible exact fun _ => rfl)
    | (exact Sub.trans hm rfl)
    | (intro _)
    | (extract_lets +onlyGivenNames s1; first | (refine Keeps.cut (t := s1) ?_ ?_; rotate_left; intro hs1; clear_value s1; rotate_right; subst s1) | clear_value s1 | (have hm := s1; clear hm))
    | (with_reducible exact rfl)
    | (with_reducible apply changeMode_keeps)
    | (with_reducible apply modCtl_keeps)
    | (with_reducible apply wrb_keeps)
    | (with_reducible apply finish_keeps)
    | (with_reducible apply id_keeps)
    | split
    | (with_reducible apply Keeps.upd)
    | (dsimp only)
    | (exact rfl)

theorem buildResult_keeps {m : Nat} {s0 s : State} (hm : 2094738451717961844 ||| m = m) (h : Keeps m s0 s) : Keeps m s0 (buildResult s) := by
  unfold buildResult
  repeat' first
    | (with_reducible assumption)
    | (with_reducible exact id)
    | (exact in_mask hm rfl)
    | (with_reducible exact fun _ => rfl)
    | (exact Sub.trans hm rfl)
    | (intro _)
    | (extract_lets +onlyGivenNames s1; first | (refine Keeps.cut (t := s1) ?_ ?_; rotate_left; intro hs1; clear_value s1; rotate_right; subst s1) | clear_value s1 | (have hm := s1; clear hm))
    | (with_reducible exact rfl)
    | (with_reducible apply refuseMode_keeps)
    | (with_reducible apply enterBuild_keeps)
    | (with_reducible apply id_keeps)
    | split
    | (with_reducible apply Keeps.upd)
    | (dsimp only)
    | (exact rfl)

theorem warmPath_keeps {m : Nat} {s0 s : State} (hm : 2122050457990969980 ||| m = m) (h : Keeps m s0 s) : Keeps m s0 (warmPath s) := by
  unfold warmPath
  repeat' first
    | (with_reducible assumption)
    | (exact Sub.trans hm rfl)
    | (intro _)
    | (extract_lets +onlyGivenNames s1; first | (refine Keeps.cut (t := s1) ?_ ?_; rotate_left; intro hs1; clear_value s1; rotate_right; subst s1) | clear_value s1 | (have hm := s1; clear hm))
    | (with_reducible exact rfl)
    | (with_reducible apply changeMode_keeps)
    | (with_reducible apply releasePorts_keeps)
    | (with_reducible apply startTraining_keeps)
    | (with_reducible apply leaveSelfRefresh_keeps)
    | (with_reducible apply startAuth_keeps)
    | (with_reducible apply wr_keeps)
    | (with_reducible apply each_keeps)
    | (with_reducible apply calCheck_keeps)
    | (with_reducible apply requestConv_keeps)
    | (with_reducible apply id_keeps)
    | split
    | (dsimp only)
    | (exact rfl)

theorem enterStandby_keeps {m : Nat} {s0 s : State} {x1} (hm : 2112761646320532092 ||| m = m) (h : Keeps m s0 s) : Keeps m s0 (enterStandby x1 s) := by
  unfold enterStandby
  repeat' first
    | (with_reducible assumption)
    | (exact Sub.trans hm rfl)
    | (intro _)
    | (extract_lets +onlyGivenNames s1; first | (refine Keeps.cut (t := s1) ?_ ?_; rotate_left; intro hs1; clear_value s1; rotate_right; subst s1) | clear_value s1 | (have hm := s1; clear hm))
    | (with_reducible exact rfl)
    | (with_reducible apply changeMode_keeps)
    | (with_reducible apply showCam_keeps)
    | (with_reducible apply camPower_keeps)
    | (with_reducible apply enterSelfRefresh_keeps)
    | (with_reducible apply usageFlush_keeps)
    | (with_reducible apply each_keeps)
    | (with_reducible apply modPort_keeps)
    | (with_reducible apply clearPort_keeps)
    | (with_reducible apply id_keeps)
    | split
    | (dsimp only)
    | (exact rfl)

theorem leaveBuild_keeps {m : Nat} {s0 s : State} {x1} (hm : 970245919758891132 ||| m = m) (h : Keeps m s0 s) : Keeps m s0 (leaveBuild x1 s) := by
  unfold leaveBuild
  dsimp only
  repeat' first
    | (with_reducible assumption)
    | (with_reducible exact id)
    | (exact in_mask hm rfl)
    | (with_reducible exact fun _ => rfl)
    | (exact Sub.trans hm rfl)
    | (intro _)
    | (extract_lets +onlyGivenNames s1; first | (refine Keeps.cut (t := s1) ?_ ?_; rotate_left; intro hs1; clear_value s1; rotate_right; subst s1) | clear_value s1 | (have hm := s1; clear hm))
    | (with_reducible exact rfl)
    | (with_reducible apply wrb_keeps)
    | (with_reducible apply modCtl_keeps)
    | (with_reducible apply enterReady_keeps)
    | (with_reducible apply modPass_keeps)
    | (with_reducible apply recallAll_keeps)
    | (with_reducible apply stopAxis_keeps)
    | (with_reducible apply id_keeps)
    | split
    | (with_reducible apply Keeps.upd)
    | (dsimp only)
    | (exact rfl)

theorem setMode_keeps {m : Nat} {s0 s : State} {x1 x2} (hm : 2123176357897812604 ||| m = m) (h : Keeps m s0 s) : Keeps m s0 (setMode x1 x2 s) := by
  unfold setMode
  repeat' first
    | (with_reducible assumption)
    | (with_reducible exact id)
    | (exact in_mask hm rfl)
    | (with_reducible exact fun _ => rfl)
    | (exact Sub.trans hm rfl)
    | (intro _)
    | (extract_lets +onlyGivenNames s1; first | (refine Keeps.cut (t := s1) ?_ ?_; rotate_left; intro hs1; clear_value s1; rotate_right; subst s1) | clear_value s1 | (have hm := s1; clear hm))
    | (with_reducible exact rfl)
    | (with_reducible apply finish_keeps)
    | (with_reducible apply holdCause_keeps)
    | (with_reducible apply requestConv_keeps)
    | (with_reducible apply wrb_keeps)
    | (with_reducible apply modCtl_keeps)
    | (with_reducible apply enterStandby_keeps)
    | (with_reducible apply changeMode_keeps)
    | (with_reducible apply leaveBuild_keeps)
    | (with_reducible apply warmPath_keeps)
    | (with_reducible apply id_keeps)
    | split
    | (with_reducible apply Keeps.upd)
    | (dsimp only)
    | (exact rfl)

theorem doSetMode_keeps {m : Nat} {s0 s : State} {x1 x2 x3} (hm : 18446744069414828668 ||| m = m) (h : Keeps m s0 s) : Keeps m s0 (doSetMode x1 x2 x3 s) := by
  unfold doSetMode
  repeat' first
    | (with_reducible assumption)
    | (exact Sub.trans hm rfl)
    | (intro _)
    | (extract_lets +onlyGivenNames s1; first | (refine Keeps.cut (t := s1) ?_ ?_; rotate_left; intro hs1; clear_value s1; rotate_right; subst s1) | clear_value s1 | (have hm := s1; clear hm))
    | (with_reducible exact rfl)
    | (with_reducible apply wr_keeps_all)
    | (with_reducible apply readDesc_keeps)
    | (with_reducible apply endGap_keeps)
    | (with_reducible apply setMode_keeps)
    | (with_reducible apply id_keeps)
    | split
    | (dsimp only)
    | (exact rfl)

theorem doHoldStandstill_keeps {m : Nat} {s0 s : State} {x1} (hm : 2017612658831859772 ||| m = m) (h : Keeps m s0 s) : Keeps m s0 (doHoldStandstill x1 s) := by
  unfold doHoldStandstill
  repeat' first
    | (with_reducible assumption)
    | (exact Sub.trans hm rfl)
    | (intro _)
    | (with_reducible exact rfl)
    | (with_reducible apply updateBeam_keeps)
    | (with_reducible apply wrb_keeps)
    | (with_reducible apply usageFlush_keeps)
    | (with_reducible apply id_keeps)
    | split
    | (dsimp only)
    | (exact rfl)

theorem doReadyEntryAtRest_keeps {m : Nat} {s0 s : State} (hm : 970245919758891132 ||| m = m) (h : Keeps m s0 s) : Keeps m s0 (doReadyEntryAtRest s) := by
  unfold doReadyEntryAtRest
  repeat' first
    | (with_reducible assumption)
    | (with_reducible exact id)
    | (exact in_mask hm rfl)
    | (with_reducible exact fun _ => rfl)
    | (exact Sub.trans hm rfl)
    | (intro _)
    | (extract_lets +onlyGivenNames s1; first | (refine Keeps.cut (t := s1) ?_ ?_; rotate_left; intro hs1; clear_value s1; rotate_right; subst s1) | clear_value s1 | (have hm := s1; clear hm))
    | (with_reducible exact rfl)
    | (with_reducible apply enterReady_keeps)
    | (with_reducible apply id_keeps)
    | split
    | (with_reducible apply Keeps.upd)
    | (dsimp only)
    | (exact rfl)

end Sys2Proof.Laws
end

