-- ==== Sys2Proof/Laws/Keeps/Pin.lean ====
section
/-! SUPPORT. Every operation of Machine/Pin.lean keeps what Laws/Keeps/Base.lean states. -/

namespace Sys2Proof.Laws
open Sys2Proof Sys2Proof.Machine

theorem modPin_keeps {m : Nat} {s0 s : State} {x1} (hm : 8192 ||| m = m) (h : Keeps m s0 s) : Keeps m s0 (modPin x1 s) := by
  unfold modPin
  repeat' first
    | (with_reducible assumption)
    | (with_reducible exact id)
    | (exact in_mask hm rfl)
    | (with_reducible exact fun _ => rfl)
    | (exact Sub.trans hm rfl)
    | (intro _)
    | (extract_lets +onlyGivenNames s1; first | (refine Keeps.cut (t := s1) ?_ ?_; rotate_left; intro hs1; clear_value s1; rotate_right; subst s1) | clear_value s1 | (have hm := s1; clear hm))
    | (with_reducible exact rfl)
    | (with_reducible apply modCtl_keeps)
    | (with_reducible apply id_keeps)
    | split
    | (with_reducible apply Keeps.upd)
    | (dsimp only)
    | (exact rfl)

theorem satPin_keeps {m : Nat} {s0 s : State} {x1} (hm : 25769803828 ||| m = m) (h : Keeps m s0 s) : Keeps m s0 (satPin x1 s) := by
  unfold satPin
  repeat' first
    | (with_reducible assumption)
    | (exact Sub.trans hm rfl)
    | (intro _)
    | (with_reducible exact rfl)
    | (with_reducible apply postEvent_keeps)
    | (with_reducible apply id_keeps)
    | split
    | (dsimp only)
    | (exact rfl)

theorem postIoFault_keeps {m : Nat} {s0 s : State} {x1 x2 x3 x4} (hm : 25769803828 ||| m = m) (h : Keeps m s0 s) : Keeps m s0 (postIoFault x1 x2 x3 x4 s) := by
  unfold postIoFault
  repeat' first
    | (with_reducible assumption)
    | (with_reducible exact id)
    | (exact Sub.trans hm rfl)
    | (intro _)
    | (extract_lets +onlyGivenNames s1; first | (refine Keeps.cut (t := s1) ?_ ?_; rotate_left; intro hs1; clear_value s1; rotate_right; subst s1) | clear_value s1 | (have hm := s1; clear hm))
    | (with_reducible exact rfl)
    | (with_reducible apply postEvent_keeps)
    | (with_reducible apply id_keeps)
    | split
    | (dsimp only)
    | (exact rfl)

theorem pulseAt_keeps {m : Nat} {s0 s : State} {x1 x2} (hm : 68 ||| m = m) (h : Keeps m s0 s) : Keeps m s0 (pulseAt x1 x2 s) := by
  unfold pulseAt
  repeat' first
    | (with_reducible assumption)
    | (with_reducible exact id)
    | (exact in_mask hm rfl)
    | (with_reducible exact fun _ => rfl)
    | (exact Sub.trans hm rfl)
    | (intro _)
    | (extract_lets +onlyGivenNames s1; first | (refine Keeps.cut (t := s1) ?_ ?_; rotate_left; intro hs1; clear_value s1; rotate_right; subst s1) | clear_value s1 | (have hm := s1; clear hm))
    | (with_reducible exact rfl)
    | (with_reducible apply ppsPulse_keeps)
    | (with_reducible apply trigOut_keeps)
    | (with_reducible apply id_keeps)
    | split
    | (with_reducible apply Keeps.upd)
    | (dsimp only)
    | (exact rfl)

theorem doIoOutputFault_keeps {m : Nat} {s0 s : State} {x1 x2 x3 x4} (hm : 2305844134495125620 ||| m = m) (h : Keeps m s0 s) : Keeps m s0 (doIoOutputFault x1 x2 x3 x4 s) := by
  unfold doIoOutputFault
  repeat' first
    | (with_reducible assumption)
    | (with_reducible exact id)
    | (exact in_mask hm rfl)
    | (with_reducible exact fun _ => rfl)
    | (exact Sub.trans hm rfl)
    | (intro _)
    | (extract_lets +onlyGivenNames s1; first | (refine Keeps.cut (t := s1) ?_ ?_; rotate_left; intro hs1; clear_value s1; rotate_right; subst s1) | clear_value s1 | (have hm := s1; clear hm))
    | (with_reducible exact rfl)
    | (with_reducible apply bump_keeps)
    | (with_reducible apply satPin_keeps)
    | (with_reducible apply wrb_keeps)
    | (with_reducible apply pulseAt_keeps)
    | (with_reducible apply postIoFault_keeps)
    | (with_reducible apply updateEnables_keeps)
    | (with_reducible apply id_keeps)
    | split
    | (with_reducible apply Keeps.upd)
    | (dsimp only)
    | (exact rfl)

theorem doPinFaultClear_keeps {m : Nat} {s0 s : State} {x1 x2} (hm : 2305844108725329988 ||| m = m) (h : Keeps m s0 s) : Keeps m s0 (doPinFaultClear x1 x2 s) := by
  unfold doPinFaultClear
  repeat' first
    | (with_reducible assumption)
    | (with_reducible exact id)
    | (exact in_mask hm rfl)
    | (with_reducible exact fun _ => rfl)
    | (exact Sub.trans hm rfl)
    | (intro _)
    | (extract_lets +onlyGivenNames s1; first | (refine Keeps.cut (t := s1) ?_ ?_; rotate_left; intro hs1; clear_value s1; rotate_right; subst s1) | clear_value s1 | (have hm := s1; clear hm))
    | (with_reducible exact rfl)
    | (with_reducible apply each_keeps)
    | (with_reducible apply pulseAt_keeps)
    | (with_reducible apply wrb_keeps)
    | (with_reducible apply modPin_keeps)
    | (with_reducible apply updateEnables_keeps)
    | (with_reducible apply id_keeps)
    | split
    | (with_reducible apply Keeps.upd)
    | (dsimp only)
    | (exact rfl)

theorem doEstopTestPulse_keeps {m : Nat} {s0 s : State} {x1 x2} (hm : 3274963166504728692 ||| m = m) (h : Keeps m s0 s) : Keeps m s0 (doEstopTestPulse x1 x2 s) := by
  unfold doEstopTestPulse
  repeat' first
    | (with_reducible assumption)
    | (with_reducible exact id)
    | (exact in_mask hm rfl)
    | (with_reducible exact fun _ => rfl)
    | (exact Sub.trans hm rfl)
    | (intro _)
    | (extract_lets +onlyGivenNames s1; first | (refine Keeps.cut (t := s1) ?_ ?_; rotate_left; intro hs1; clear_value s1; rotate_right; subst s1) | clear_value s1 | (have hm := s1; clear hm))
    | (with_reducible exact rfl)
    | (with_reducible apply emit_keeps)
    | (with_reducible apply modPin_keeps)
    | (with_reducible apply postIoFault_keeps)
    | (with_reducible apply bump_keeps)
    | (with_reducible apply satPin_keeps)
    | (with_reducible apply wrb_keeps)
    | (with_reducible apply modCtl_keeps)
    | (with_reducible apply estopOpened_keeps)
    | (with_reducible apply id_keeps)
    | split
    | (with_reducible apply Keeps.upd)
    | (dsimp only)
    | (exact rfl)

theorem coolantAccept_keeps {m : Nat} {s0 s : State} {x1} (hm : 969120157291034740 ||| m = m) (h : Keeps m s0 s) : Keeps m s0 (coolantAccept x1 s) := by
  unfold coolantAccept
  repeat' first
    | (with_reducible assumption)
    | (with_reducible exact id)
    | (exact in_mask hm rfl)
    | (with_reducible exact fun _ => rfl)
    | (exact Sub.trans hm rfl)
    | (intro _)
    | (extract_lets +onlyGivenNames s1; first | (refine Keeps.cut (t := s1) ?_ ?_; rotate_left; intro hs1; clear_value s1; rotate_right; subst s1) | clear_value s1 | (have hm := s1; clear hm))
    | (with_reducible exact rfl)
    | (with_reducible apply modCtl_keeps)
    | (with_reducible apply postEvent_keeps)
    | (with_reducible apply holdCause_keeps)
    | (with_reducible apply id_keeps)
    | split
    | (with_reducible apply Keeps.upd)
    | (dsimp only)
    | (exact rfl)

theorem doCoolantWindow_keeps {m : Nat} {s0 s : State} {x1} (hm : 2305843009213702144 ||| m = m) (h : Keeps m s0 s) : Keeps m s0 (doCoolantWindow x1 s) := by
  unfold doCoolantWindow
  repeat' first
    | (with_reducible assumption)
    | (with_reducible exact id)
    | (exact in_mask hm rfl)
    | (with_reducible exact fun _ => rfl)
    | (exact Sub.trans hm rfl)
    | (intro _)
    | (extract_lets +onlyGivenNames s1; first | (refine Keeps.cut (t := s1) ?_ ?_; rotate_left; intro hs1; clear_value s1; rotate_right; subst s1) | clear_value s1 | (have hm := s1; clear hm))
    | (with_reducible exact rfl)
    | (with_reducible apply modPin_keeps)
    | (with_reducible apply wr_keeps)
    | (with_reducible apply id_keeps)
    | split
    | (with_reducible apply Keeps.upd)
    | (dsimp only)
    | (exact rfl)

theorem doCoolantChange_keeps {m : Nat} {s0 s : State} {x1} (hm : 969120157291034740 ||| m = m) (h : Keeps m s0 s) : Keeps m s0 (doCoolantChange x1 s) := by
  unfold doCoolantChange
  repeat' first
    | (with_reducible assumption)
    | (exact Sub.trans hm rfl)
    | (intro _)
    | (extract_lets +onlyGivenNames s1; first | (refine Keeps.cut (t := s1) ?_ ?_; rotate_left; intro hs1; clear_value s1; rotate_right; subst s1) | clear_value s1 | (have hm := s1; clear hm))
    | (with_reducible exact rfl)
    | (with_reducible apply coolantAccept_keeps)
    | (with_reducible apply id_keeps)
    | split
    | (dsimp only)
    | (exact rfl)

theorem doGpinEdgeAccept_keeps {m : Nat} {s0 s : State} {x1 x2} (hm : 2305843034983505972 ||| m = m) (h : Keeps m s0 s) : Keeps m s0 (doGpinEdgeAccept x1 x2 s) := by
  unfold doGpinEdgeAccept
  repeat' first
    | (with_reducible assumption)
    | (with_reducible exact id)
    | (exact in_mask hm rfl)
    | (with_reducible exact fun _ => rfl)
    | (exact Sub.trans hm rfl)
    | (intro _)
    | (extract_lets +onlyGivenNames s1; first | (refine Keeps.cut (t := s1) ?_ ?_; rotate_left; intro hs1; clear_value s1; rotate_right; subst s1) | clear_value s1 | (have hm := s1; clear hm))
    | (with_reducible exact rfl)
    | (with_reducible apply bump_keeps)
    | (with_reducible apply satPin_keeps)
    | (with_reducible apply wrb_keeps)
    | (with_reducible apply modPin_keeps)
    | (with_reducible apply postEvent_keeps)
    | (with_reducible apply id_keeps)
    | split
    | (with_reducible apply Keeps.upd)
    | (dsimp only)
    | (exact rfl)

theorem doPinOutWrite_keeps {m : Nat} {s0 s : State} {x1} (hm : 2305843009213702144 ||| m = m) (h : Keeps m s0 s) : Keeps m s0 (doPinOutWrite x1 s) := by
  unfold doPinOutWrite
  repeat' first
    | (with_reducible assumption)
    | (with_reducible exact id)
    | (exact in_mask hm rfl)
    | (with_reducible exact fun _ => rfl)
    | (exact Sub.trans hm rfl)
    | (intro _)
    | (extract_lets +onlyGivenNames s1; first | (refine Keeps.cut (t := s1) ?_ ?_; rotate_left; intro hs1; clear_value s1; rotate_right; subst s1) | clear_value s1 | (have hm := s1; clear hm))
    | (with_reducible exact rfl)
    | (with_reducible apply wr_keeps)
    | (with_reducible apply modPin_keeps)
    | (with_reducible apply id_keeps)
    | split
    | (with_reducible apply Keeps.upd)
    | (dsimp only)
    | (exact rfl)

theorem doIoSupplyAccept_keeps {m : Nat} {s0 s : State} {x1 x2} (hm : 3274963166504728692 ||| m = m) (h : Keeps m s0 s) : Keeps m s0 (doIoSupplyAccept x1 x2 s) := by
  unfold doIoSupplyAccept
  repeat' first
    | (with_reducible assumption)
    | (with_reducible exact id)
    | (exact in_mask hm rfl)
    | (with_reducible exact fun _ => rfl)
    | (exact Sub.trans hm rfl)
    | (intro _)
    | (extract_lets +onlyGivenNames s1; first | (refine Keeps.cut (t := s1) ?_ ?_; rotate_left; intro hs1; clear_value s1; rotate_right; subst s1) | clear_value s1 | (have hm := s1; clear hm))
    | (with_reducible exact rfl)
    | (with_reducible apply wr_keeps)
    | (with_reducible apply modPin_keeps)
    | (with_reducible apply postIoFault_keeps)
    | (with_reducible apply wrf_keeps)
    | (with_reducible apply doBeamPermitChange_keeps)
    | (with_reducible apply each_keeps)
    | (with_reducible apply doEstopClose_keeps)
    | (with_reducible apply id_keeps)
    | split
    | (with_reducible apply Keeps.upd)
    | (dsimp only)
    | (exact rfl)

theorem doIoSupplyLoss_keeps {m : Nat} {s0 s : State} {x1 x2} (hm : 3274963166504728692 ||| m = m) (h : Keeps m s0 s) : Keeps m s0 (doIoSupplyLoss x1 x2 s) := by
  unfold doIoSupplyLoss
  repeat' first
    | (with_reducible assumption)
    | (with_reducible exact id)
    | (exact in_mask hm rfl)
    | (with_reducible exact fun _ => rfl)
    | (exact Sub.trans hm rfl)
    | (intro _)
    | (extract_lets +onlyGivenNames s1; first | (refine Keeps.cut (t := s1) ?_ ?_; rotate_left; intro hs1; clear_value s1; rotate_right; subst s1) | clear_value s1 | (have hm := s1; clear hm))
    | (with_reducible exact rfl)
    | (with_reducible apply modPin_keeps)
    | (with_reducible apply wr_keeps)
    | (with_reducible apply postIoFault_keeps)
    | (with_reducible apply bump_keeps)
    | (with_reducible apply satPin_keeps)
    | (with_reducible apply wrb_keeps)
    | (with_reducible apply wrf_keeps)
    | (with_reducible apply doEstopOpen_keeps)
    | (with_reducible apply coolantAccept_keeps)
    | (with_reducible apply doBeamPermitChange_keeps)
    | (with_reducible apply id_keeps)
    | split
    | (with_reducible apply Keeps.upd)
    | (dsimp only)
    | (exact rfl)

end Sys2Proof.Laws
end

