-- ==== Sys2Proof/Laws/Keeps/Thm.lean ====
section
/-! SUPPORT. Every operation of Machine/Thm.lean keeps what Laws/Keeps/Base.lean states. -/

namespace Sys2Proof.Laws
open Sys2Proof Sys2Proof.Machine

theorem putResult_keeps {m : Nat} {s0 s : State} {x1 x2} (hm : 137438953472 ||| m = m) (h : Keeps m s0 s) : Keeps m s0 (putResult x1 x2 s) := by
  unfold putResult
  repeat' first
    | (with_reducible assumption)
    | (exact Sub.trans hm rfl)
    | (intro _)
    | (with_reducible exact rfl)
    | (with_reducible apply wr_keeps)
    | (with_reducible apply id_keeps)
    | split
    | (dsimp only)
    | (exact rfl)

theorem faultResult_keeps {m : Nat} {s0 s : State} {x1 x2 x3} (hm : 163208790068 ||| m = m) (h : Keeps m s0 s) : Keeps m s0 (faultResult x1 x2 x3 s) := by
  unfold faultResult
  repeat' first
    | (with_reducible assumption)
    | (with_reducible exact id)
    | (exact in_mask hm rfl)
    | (with_reducible exact fun _ => rfl)
    | (exact Sub.trans hm rfl)
    | (intro _)
    | (extract_lets +onlyGivenNames s1; first | (refine Keeps.cut (t := s1) ?_ ?_; rotate_left; intro hs1; clear_value s1; rotate_right; subst s1) | clear_value s1 | (have hm := s1; clear hm))
    | (with_reducible exact rfl)
    | (with_reducible apply bump_keeps)
    | (with_reducible apply satThm_keeps)
    | (with_reducible apply wrb_keeps)
    | (with_reducible apply postEvent_keeps)
    | (with_reducible apply modThm_keeps)
    | (with_reducible apply id_keeps)
    | split
    | (with_reducible apply Keeps.upd)
    | (dsimp only)
    | (exact rfl)

theorem checkThreshold_keeps {m : Nat} {s0 s : State} {x1 x2} (hm : 969120157291034740 ||| m = m) (h : Keeps m s0 s) : Keeps m s0 (checkThreshold x1 x2 s) := by
  unfold checkThreshold
  repeat' first
    | (with_reducible assumption)
    | (with_reducible exact id)
    | (exact in_mask hm rfl)
    | (with_reducible exact fun _ => rfl)
    | (exact Sub.trans hm rfl)
    | (intro _)
    | (extract_lets +onlyGivenNames s1; first | (refine Keeps.cut (t := s1) ?_ ?_; rotate_left; intro hs1; clear_value s1; rotate_right; subst s1) | clear_value s1 | (have hm := s1; clear hm))
    | (with_reducible exact rfl)
    | (with_reducible apply modThm_keeps)
    | (with_reducible apply postEvent_keeps)
    | (with_reducible apply holdCause_keeps)
    | (with_reducible apply id_keeps)
    | split
    | (with_reducible apply Keeps.upd)
    | (dsimp only)
    | (exact rfl)

theorem dieEval_keeps {m : Nat} {s0 s : State} {x1} (hm : 969120157291034740 ||| m = m) (h : Keeps m s0 s) : Keeps m s0 (dieEval x1 s) := by
  unfold dieEval
  repeat' first
    | (with_reducible assumption)
    | (with_reducible exact id)
    | (exact in_mask hm rfl)
    | (with_reducible exact fun _ => rfl)
    | (exact Sub.trans hm rfl)
    | (intro _)
    | (extract_lets +onlyGivenNames s1; first | (refine Keeps.cut (t := s1) ?_ ?_; rotate_left; intro hs1; clear_value s1; rotate_right; subst s1) | clear_value s1 | (have hm := s1; clear hm))
    | (with_reducible exact rfl)
    | (with_reducible apply each_keeps)
    | (with_reducible apply checkThreshold_keeps)
    | (with_reducible apply postEvent_keeps)
    | (with_reducible apply modThm_keeps)
    | (with_reducible apply setScale_keeps)
    | (with_reducible apply setDwell_keeps)
    | (with_reducible apply wrf_keeps)
    | (with_reducible apply id_keeps)
    | split
    | (with_reducible apply Keeps.upd)
    | (dsimp only)
    | (exact rfl)

theorem setFallback_keeps {m : Nat} {s0 s : State} {x1 x2} (hm : 163208790068 ||| m = m) (h : Keeps m s0 s) : Keeps m s0 (setFallback x1 x2 s) := by
  unfold setFallback
  repeat' first
    | (with_reducible assumption)
    | (with_reducible exact id)
    | (exact in_mask hm rfl)
    | (with_reducible exact fun _ => rfl)
    | (exact Sub.trans hm rfl)
    | (intro _)
    | (extract_lets +onlyGivenNames s1; first | (refine Keeps.cut (t := s1) ?_ ?_; rotate_left; intro hs1; clear_value s1; rotate_right; subst s1) | clear_value s1 | (have hm := s1; clear hm))
    | (with_reducible exact rfl)
    | (with_reducible apply modThm_keeps)
    | (with_reducible apply wrb_keeps)
    | (with_reducible apply postEvent_keeps)
    | (with_reducible apply id_keeps)
    | split
    | (with_reducible apply Keeps.upd)
    | (dsimp only)
    | (exact rfl)

theorem dieResult_keeps {m : Nat} {s0 s : State} {x1 x2} (hm : 969120157291034748 ||| m = m) (h : Keeps m s0 s) : Keeps m s0 (dieResult x1 x2 s) := by
  unfold dieResult
  repeat' first
    | (with_reducible assumption)
    | (with_reducible exact id)
    | (exact in_mask hm rfl)
    | (with_reducible exact fun _ => rfl)
    | (exact Sub.trans hm rfl)
    | (intro _)
    | (extract_lets +onlyGivenNames s1; first | (refine Keeps.cut (t := s1) ?_ ?_; rotate_left; intro hs1; clear_value s1; rotate_right; subst s1) | clear_value s1 | (have hm := s1; clear hm))
    | (with_reducible exact rfl)
    | (with_reducible apply modThm_keeps)
    | (with_reducible refine fresh_keeps_eq ?_ ?_ ‹_›)
    | (with_reducible apply fresh_keeps)
    | (with_reducible apply faultResult_keeps)
    | (with_reducible apply setFallback_keeps)
    | (with_reducible apply putResult_keeps)
    | (with_reducible apply calCheck_keeps)
    | (with_reducible apply checkDie_keeps)
    | (with_reducible apply dieEval_keeps)
    | (with_reducible apply id_keeps)
    | split
    | (with_reducible apply Keeps.upd)
    | (dsimp only)
    | (exact rfl)

theorem postHeadTemp_keeps {m : Nat} {s0 s : State} {x1 x2 x3 x4} (hm : 25769803828 ||| m = m) (h : Keeps m s0 s) : Keeps m s0 (postHeadTemp x1 x2 x3 x4 s) := by
  unfold postHeadTemp
  repeat' first
    | (with_reducible assumption)
    | (with_reducible exact id)
    | (exact in_mask hm rfl)
    | (with_reducible exact fun _ => rfl)
    | (exact Sub.trans hm rfl)
    | (intro _)
    | (extract_lets +onlyGivenNames s1; first | (refine Keeps.cut (t := s1) ?_ ?_; rotate_left; intro hs1; clear_value s1; rotate_right; subst s1) | clear_value s1 | (have hm := s1; clear hm))
    | (with_reducible exact rfl)
    | (with_reducible apply postEvent_keeps)
    | (with_reducible apply id_keeps)
    | split
    | (with_reducible apply Keeps.upd)
    | (dsimp only)
    | (exact rfl)

theorem headResult_keeps {m : Nat} {s0 s : State} {x1 x2} (hm : 969120157291034740 ||| m = m) (h : Keeps m s0 s) : Keeps m s0 (headResult x1 x2 s) := by
  unfold headResult
  repeat' first
    | (with_reducible assumption)
    | (with_reducible exact id)
    | (exact in_mask hm rfl)
    | (with_reducible exact fun _ => rfl)
    | (exact Sub.trans hm rfl)
    | (intro _)
    | (extract_lets +onlyGivenNames s1; first | (refine Keeps.cut (t := s1) ?_ ?_; rotate_left; intro hs1; clear_value s1; rotate_right; subst s1) | clear_value s1 | (have hm := s1; clear hm))
    | (with_reducible exact rfl)
    | (with_reducible apply modThm_keeps)
    | (with_reducible apply postHeadTemp_keeps)
    | (with_reducible apply setScale_keeps)
    | (with_reducible apply holdCause_keeps)
    | (with_reducible apply id_keeps)
    | split
    | (with_reducible apply Keeps.upd)
    | (dsimp only)
    | (exact rfl)

theorem supplyResult_keeps {m : Nat} {s0 s : State} {x1} (hm : 25769844788 ||| m = m) (h : Keeps m s0 s) : Keeps m s0 (supplyResult x1 s) := by
  unfold supplyResult
  repeat' first
    | (with_reducible assumption)
    | (with_reducible exact id)
    | (exact in_mask hm rfl)
    | (with_reducible exact fun _ => rfl)
    | (exact Sub.trans hm rfl)
    | (intro _)
    | (extract_lets +onlyGivenNames s1; first | (refine Keeps.cut (t := s1) ?_ ?_; rotate_left; intro hs1; clear_value s1; rotate_right; subst s1) | clear_value s1 | (have hm := s1; clear hm))
    | (with_reducible exact rfl)
    | (with_reducible apply postEvent_keeps)
    | (with_reducible apply holdFlag_keeps)
    | (with_reducible apply modThm_keeps)
    | (with_reducible apply id_keeps)
    | split
    | (with_reducible apply Keeps.upd)
    | (dsimp only)
    | (exact rfl)

theorem sensorResult_keeps {m : Nat} {s0 s : State} {x1 x2 x3 x4} (hm : 969120157291034748 ||| m = m) (h : Keeps m s0 s) : Keeps m s0 (sensorResult x1 x2 x3 x4 s) := by
  unfold sensorResult
  repeat' first
    | (with_reducible assumption)
    | (with_reducible exact id)
    | (exact in_mask hm rfl)
    | (with_reducible exact fun _ => rfl)
    | (exact Sub.trans hm rfl)
    | (intro _)
    | (extract_lets +onlyGivenNames s1; first | (refine Keeps.cut (t := s1) ?_ ?_; rotate_left; intro hs1; clear_value s1; rotate_right; subst s1) | clear_value s1 | (have hm := s1; clear hm))
    | (with_reducible exact rfl)
    | (with_reducible apply wr_keeps)
    | (with_reducible apply checkDie_keeps)
    | (with_reducible apply wrb_keeps)
    | (with_reducible apply dieResult_keeps)
    | (with_reducible apply faultResult_keeps)
    | (with_reducible apply putResult_keeps)
    | (with_reducible apply modThm_keeps)
    | (with_reducible apply modBsc_keeps)
    | (with_reducible apply calCheck_keeps)
    | (with_reducible apply supplyResult_keeps)
    | (with_reducible apply headResult_keeps)
    | (with_reducible apply id_keeps)
    | split
    | (with_reducible apply Keeps.upd)
    | (dsimp only)
    | (exact rfl)

theorem reportResult_keeps {m : Nat} {s0 s : State} {x1} (hm : 25769803828 ||| m = m) (h : Keeps m s0 s) : Keeps m s0 (reportResult x1 s) := by
  unfold reportResult
  repeat' first
    | (with_reducible assumption)
    | (exact Sub.trans hm rfl)
    | (intro _)
    | (extract_lets +onlyGivenNames s1; first | (refine Keeps.cut (t := s1) ?_ ?_; rotate_left; intro hs1; clear_value s1; rotate_right; subst s1) | clear_value s1 | (have hm := s1; clear hm))
    | (with_reducible exact rfl)
    | (with_reducible apply postEvent_keeps)
    | (with_reducible apply id_keeps)
    | split
    | (dsimp only)
    | (exact rfl)

theorem doThmConversionDone_keeps {m : Nat} {s0 s : State} {x1 x2 x3} (hm : 2122041661897881724 ||| m = m) (h : Keeps m s0 s) : Keeps m s0 (doThmConversionDone x1 x2 x3 s) := by
  unfold doThmConversionDone
  repeat' first
    | (with_reducible assumption)
    | (with_reducible exact id)
    | (exact in_mask hm rfl)
    | (with_reducible exact fun _ => rfl)
    | (exact Sub.trans hm rfl)
    | (intro _)
    | (extract_lets +onlyGivenNames s1; first | (refine Keeps.cut (t := s1) ?_ ?_; rotate_left; intro hs1; clear_value s1; rotate_right; subst s1) | clear_value s1 | (have hm := s1; clear hm))
    | (with_reducible exact rfl)
    | (with_reducible apply modThm_keeps)
    | (with_reducible apply bump_keeps)
    | (with_reducible apply satThm_keeps)
    | (with_reducible apply reportResult_keeps)
    | (with_reducible apply sensorResult_keeps)
    | (with_reducible apply modPlc_keeps)
    | (with_reducible apply buildResult_keeps)
    | (with_reducible apply showQueue_keeps)
    | (with_reducible apply startConv_keeps)
    | (with_reducible apply id_keeps)
    | split
    | (with_reducible apply Keeps.upd)
    | (dsimp only)
    | (exact rfl)

theorem writeThmReq_keeps {m : Nat} {s0 s : State} {x1 x2} (hm : 969120157291034740 ||| m = m) (h : Keeps m s0 s) : Keeps m s0 (writeThmReq x1 x2 s) := by
  unfold writeThmReq
  repeat' first
    | (with_reducible assumption)
    | (exact Sub.trans hm rfl)
    | (intro _)
    | (with_reducible exact rfl)
    | (with_reducible apply each_keeps)
    | (with_reducible apply requestConv_keeps)
    | (with_reducible apply id_keeps)
    | split
    | (dsimp only)
    | (exact rfl)

theorem doStandingRequest_keeps {m : Nat} {s0 s : State} (hm : 969120157291034740 ||| m = m) (h : Keeps m s0 s) : Keeps m s0 (doStandingRequest s) := by
  unfold doStandingRequest
  repeat' first
    | (with_reducible assumption)
    | (exact Sub.trans hm rfl)
    | (intro _)
    | (with_reducible exact rfl)
    | (with_reducible apply each_keeps)
    | (with_reducible apply requestConv_keeps)
    | (with_reducible apply id_keeps)
    | split
    | (dsimp only)
    | (exact rfl)

end Sys2Proof.Laws
end

