-- ==== Sys2Proof/Laws/Keeps/RegAccess.lean ====
section
/-! SUPPORT. Every operation of Machine/RegAccess.lean keeps what Laws/Keeps/Base.lean states. -/

namespace Sys2Proof.Laws
open Sys2Proof Sys2Proof.Machine

theorem countBad_keeps {m : Nat} {s0 s : State} (hm : 30064771124 ||| m = m) (h : Keeps m s0 s) : Keeps m s0 (countBad s) := by
  unfold countBad
  repeat' first
    | (with_reducible assumption)
    | (exact Sub.trans hm rfl)
    | (intro _)
    | (with_reducible exact rfl)
    | (with_reducible apply bump_keeps)
    | (with_reducible apply postEvent_keeps)
    | (with_reducible apply id_keeps)
    | (with_reducible refine Keeps.eq2 ‹_› ?_)
    | (with_reducible refine Keeps.eq3 ‹_› ?_)
    | split
    | (dsimp only)
    | (exact rfl)

theorem reading_keeps {m : Nat} {s0 s : State} {x1} (hm : 8 ||| m = m) (h : Keeps m s0 s) : Keeps m s0 (reading x1 s).2 := by
  unfold reading
  repeat' first
    | (with_reducible assumption)
    | (exact Sub.trans hm rfl)
    | (intro _)
    | (extract_lets +onlyGivenNames s1; first | (refine Keeps.cut (t := s1) ?_ ?_; rotate_left; intro hs1; clear_value s1; rotate_right; subst s1) | (refine Keeps.cut2 (t := s1) ?_ ?_; rotate_left; intro hs1; clear_value s1; rotate_right; subst s1) | (refine Keeps.cut3 (t := s1) ?_ ?_; rotate_left; intro hs1; clear_value s1; rotate_right; subst s1) | (refine Keeps.cut1 (t := s1) ?_ ?_; rotate_left; intro hs1; clear_value s1; rotate_right; subst s1) | clear_value s1 | (have hm := s1; clear hm))
    | (with_reducible exact rfl)
    | (with_reducible refine fresh_keeps_eq ?_ ?_ ‹_›)
    | (with_reducible apply fresh_keeps)
    | (with_reducible apply id_keeps)
    | (with_reducible refine Keeps.eq2 ‹_› ?_)
    | (with_reducible refine Keeps.eq3 ‹_› ?_)
    | split
    | (dsimp only)
    | (exact rfl)

theorem reading_keeps_eq {m : Nat} {s0 s s' : State} {x1} {z0} (hm : 8 ||| m = m) (h : Keeps m s0 s) (e : reading x1 s = (z0, s')) :
    Keeps m s0 s' := by
  have k := reading_keeps (hm := hm) (h := h) (x1 := x1)
  rw [e] at k
  exact k

theorem snd_ite_keeps {m : Nat} {s0 : State} {c : Prop} [Decidable c] {a b : Nat × State} (ha : Keeps m s0 a.2) (hb : Keeps m s0 b.2) :
    Keeps m s0 (if c then a else b).2 := by
  split
  · exact ha
  · exact hb
theorem readReg_keeps {m : Nat} {s0 s : State} {x1 x2} (hm : 8 ||| m = m) (h : Keeps m s0 s) : Keeps m s0 (readReg x1 x2 s).2 := by
  unfold readReg
  repeat' first
    | exact h
    | exact fresh_keeps hm h
    | exact forecast_keeps (hm := Sub.trans hm rfl) (h := h)
    | refine snd_ite_keeps ?_ ?_

theorem readReg_keeps_eq {m : Nat} {s0 s s' : State} {x1 x2} {z0} (hm : 8 ||| m = m) (h : Keeps m s0 s) (e : readReg x1 x2 s = (z0, s')) :
    Keeps m s0 s' := by
  have k := readReg_keeps (hm := hm) (h := h) (x1 := x1) (x2 := x2)
  rw [e] at k
  exact k

theorem clearRead_keeps {m : Nat} {s0 s : State} {x1 x2} (hm : 18446744069414584352 ||| m = m) (h : Keeps m s0 s) : Keeps m s0 (clearRead x1 x2 s) := by
  unfold clearRead
  repeat' first
    | (with_reducible assumption)
    | (with_reducible exact id)
    | (exact in_mask hm rfl)
    | (with_reducible exact fun _ => rfl)
    | (exact Sub.trans hm rfl)
    | (intro _)
    | (extract_lets +onlyGivenNames s1; first | (refine Keeps.cut (t := s1) ?_ ?_; rotate_left; intro hs1; clear_value s1; rotate_right; subst s1) | (refine Keeps.cut2 (t := s1) ?_ ?_; rotate_left; intro hs1; clear_value s1; rotate_right; subst s1) | (refine Keeps.cut3 (t := s1) ?_ ?_; rotate_left; intro hs1; clear_value s1; rotate_right; subst s1) | (refine Keeps.cut1 (t := s1) ?_ ?_; rotate_left; intro hs1; clear_value s1; rotate_right; subst s1) | clear_value s1 | (have hm := s1; clear hm))
    | (with_reducible exact rfl)
    | (with_reducible apply wr_keeps_all)
    | (with_reducible apply wr_keeps)
    | (with_reducible apply wrb_keeps)
    | (with_reducible apply id_keeps)
    | (with_reducible refine Keeps.eq2 ‹_› ?_)
    | (with_reducible refine Keeps.eq3 ‹_› ?_)
    | split
    | (with_reducible apply Keeps.upd)
    | (dsimp only)
    | (exact rfl)

theorem read64_keeps_eq {m : Nat} {s0 s s' : State} {x1 z0} (hm : 8 ||| m = m) (h : Keeps m s0 s) (e : read64 x1 s = some (z0, s')) : Keeps m s0 s' := by
  unfold read64 at e
  split at e
  · rw [← (Prod.mk.inj (Option.some.inj e)).2]; exact h
  · rw [← (Prod.mk.inj (Option.some.inj e)).2]; exact h
  · split at e
    · split at e
      · exact readReg_keeps_eq hm h (Option.some.inj e)
      · cases e
    · cases e

theorem giveRead_keeps {m : Nat} {s0 s : State} {x1 x2} (hm : 4 ||| m = m) (h : Keeps m s0 s) : Keeps m s0 (giveRead x1 x2 s) := by
  unfold giveRead
  repeat' first
    | (with_reducible assumption)
    | (with_reducible exact id)
    | (exact in_mask hm rfl)
    | (with_reducible exact fun _ => rfl)
    | (exact Sub.trans hm rfl)
    | (intro _)
    | (extract_lets +onlyGivenNames s1; first | (refine Keeps.cut (t := s1) ?_ ?_; rotate_left; intro hs1; clear_value s1; rotate_right; subst s1) | (refine Keeps.cut2 (t := s1) ?_ ?_; rotate_left; intro hs1; clear_value s1; rotate_right; subst s1) | (refine Keeps.cut3 (t := s1) ?_ ?_; rotate_left; intro hs1; clear_value s1; rotate_right; subst s1) | (refine Keeps.cut1 (t := s1) ?_ ?_; rotate_left; intro hs1; clear_value s1; rotate_right; subst s1) | clear_value s1 | (have hm := s1; clear hm))
    | (with_reducible exact rfl)
    | (with_reducible apply emit_keeps)
    | (with_reducible apply id_keeps)
    | (with_reducible refine Keeps.eq2 ‹_› ?_)
    | (with_reducible refine Keeps.eq3 ‹_› ?_)
    | split
    | (with_reducible apply Keeps.upd)
    | (dsimp only)
    | (exact rfl)

theorem read32_keeps {m : Nat} {s0 s : State} {x1} (hm : 18446744069414584360 ||| m = m) (h : Keeps m s0 s) : Keeps m s0 (read32 x1 s).2 := by
  unfold read32
  repeat' first
    | (with_reducible assumption)
    | (with_reducible exact id)
    | (exact in_mask hm rfl)
    | (with_reducible exact fun _ => rfl)
    | (exact Sub.trans hm rfl)
    | (intro _)
    | (extract_lets +onlyGivenNames s1; first | (refine Keeps.cut (t := s1) ?_ ?_; rotate_left; intro hs1; clear_value s1; rotate_right; subst s1) | (refine Keeps.cut2 (t := s1) ?_ ?_; rotate_left; intro hs1; clear_value s1; rotate_right; subst s1) | (refine Keeps.cut3 (t := s1) ?_ ?_; rotate_left; intro hs1; clear_value s1; rotate_right; subst s1) | (refine Keeps.cut1 (t := s1) ?_ ?_; rotate_left; intro hs1; clear_value s1; rotate_right; subst s1) | clear_value s1 | (have hm := s1; clear hm))
    | (with_reducible exact rfl)
    | (with_reducible apply wr_keeps_all)
    | (with_reducible refine readReg_keeps_eq ?_ ?_ ‹_›)
    | (with_reducible apply readReg_keeps)
    | (with_reducible apply sif_keeps)
    | (with_reducible apply latchWide_keeps)
    | (with_reducible apply clearRead_keeps)
    | (with_reducible apply id_keeps)
    | (with_reducible refine Keeps.eq2 ‹_› ?_)
    | (with_reducible refine Keeps.eq3 ‹_› ?_)
    | split
    | (with_reducible apply Keeps.upd)
    | (dsimp only)
    | (exact rfl)

theorem read32_keeps_eq {m : Nat} {s0 s s' : State} {x1} {z0} (hm : 18446744069414584360 ||| m = m) (h : Keeps m s0 s) (e : read32 x1 s = (z0, s')) :
    Keeps m s0 s' := by
  have k := read32_keeps (hm := hm) (h := h) (x1 := x1)
  rw [e] at k
  exact k

theorem readLow_keeps {m : Nat} {s0 s : State} {x1 x2} (hm : 6 ||| m = m) (h : Keeps m s0 s) : Keeps m s0 (readLow x1 x2 s) := by
  unfold readLow
  repeat' first
    | (with_reducible assumption)
    | (with_reducible exact id)
    | (exact in_mask hm rfl)
    | (with_reducible exact fun _ => rfl)
    | (exact Sub.trans hm rfl)
    | (intro _)
    | (extract_lets +onlyGivenNames s1; first | (refine Keeps.cut (t := s1) ?_ ?_; rotate_left; intro hs1; clear_value s1; rotate_right; subst s1) | (refine Keeps.cut2 (t := s1) ?_ ?_; rotate_left; intro hs1; clear_value s1; rotate_right; subst s1) | (refine Keeps.cut3 (t := s1) ?_ ?_; rotate_left; intro hs1; clear_value s1; rotate_right; subst s1) | (refine Keeps.cut1 (t := s1) ?_ ?_; rotate_left; intro hs1; clear_value s1; rotate_right; subst s1) | clear_value s1 | (have hm := s1; clear hm))
    | (with_reducible exact rfl)
    | (with_reducible apply giveRead_keeps)
    | (with_reducible apply id_keeps)
    | (with_reducible refine Keeps.eq2 ‹_› ?_)
    | (with_reducible refine Keeps.eq3 ‹_› ?_)
    | split
    | (with_reducible apply Keeps.upd)
    | (dsimp only)
    | (exact rfl)

theorem readHigh_keeps {m : Nat} {s0 s : State} {x1 x2} (hm : 6 ||| m = m) (h : Keeps m s0 s) : Keeps m s0 (readHigh x1 x2 s) := by
  unfold readHigh
  repeat' first
    | (with_reducible assumption)
    | (with_reducible exact id)
    | (exact in_mask hm rfl)
    | (with_reducible exact fun _ => rfl)
    | (exact Sub.trans hm rfl)
    | (intro _)
    | (extract_lets +onlyGivenNames s1; first | (refine Keeps.cut (t := s1) ?_ ?_; rotate_left; intro hs1; clear_value s1; rotate_right; subst s1) | (refine Keeps.cut2 (t := s1) ?_ ?_; rotate_left; intro hs1; clear_value s1; rotate_right; subst s1) | (refine Keeps.cut3 (t := s1) ?_ ?_; rotate_left; intro hs1; clear_value s1; rotate_right; subst s1) | (refine Keeps.cut1 (t := s1) ?_ ?_; rotate_left; intro hs1; clear_value s1; rotate_right; subst s1) | clear_value s1 | (have hm := s1; clear hm))
    | (with_reducible exact rfl)
    | (with_reducible apply giveRead_keeps)
    | (with_reducible apply id_keeps)
    | (with_reducible refine Keeps.eq2 ‹_› ?_)
    | (with_reducible refine Keeps.eq3 ‹_› ?_)
    | split
    | (with_reducible apply Keeps.upd)
    | (dsimp only)
    | (exact rfl)

theorem ite_read64_keeps {m : Nat} {s0 s s' : State} {c : Prop} [Decidable c] {a v : Nat} (hm : 8 ||| m = m) (h : Keeps m s0 s)
    (e : (if c then read64 a s else none) = some (v, s')) : Keeps m s0 s' := by
  split at e
  · exact read64_keeps_eq hm h e
  · cases e
theorem doRcRead_keeps {m : Nat} {s0 s : State} {x1 x2} (hm : 18446744069414584382 ||| m = m) (h : Keeps m s0 s) : Keeps m s0 (doRcRead x1 x2 s) := by
  unfold doRcRead
  split
  · exact h
  · split
    · exact countBad_keeps (Sub.trans hm rfl) (giveRead_keeps (Sub.trans hm rfl) h)
    · split
      · split
        · next e => exact giveRead_keeps (Sub.trans hm rfl) (read64_keeps_eq (Sub.trans hm rfl) h e)
        · exact giveRead_keeps (Sub.trans hm rfl) (read32_keeps (Sub.trans hm rfl) (read32_keeps (Sub.trans hm rfl) h))
      · split
        · next e => exact readLow_keeps (hm := Sub.trans hm rfl) (h := ite_read64_keeps (Sub.trans hm rfl) h e)
        · next e => exact readHigh_keeps (hm := Sub.trans hm rfl) (h := ite_read64_keeps (Sub.trans hm rfl) h e)
        · exact giveRead_keeps (Sub.trans hm rfl) (read32_keeps (Sub.trans hm rfl) h)

theorem doRegReadLowHalf_keeps {m : Nat} {s0 s : State} {x1} (hm : 18446744069414584382 ||| m = m) (h : Keeps m s0 s) : Keeps m s0 (doRegReadLowHalf x1 s) := by
  unfold doRegReadLowHalf
  repeat' first
    | (with_reducible assumption)
    | (exact Sub.trans hm rfl)
    | (intro _)
    | (with_reducible exact rfl)
    | (with_reducible apply wr_keeps_all)
    | (with_reducible apply doRcRead_keeps)
    | (with_reducible apply id_keeps)
    | (with_reducible refine Keeps.eq2 ‹_› ?_)
    | (with_reducible refine Keeps.eq3 ‹_› ?_)
    | split
    | (dsimp only)
    | (exact rfl)

theorem store_keeps {m : Nat} {s0 s : State} {x1 x2 x3} (hm : 18446744069414584320 ||| m = m) (h : Keeps m s0 s) : Keeps m s0 (store x1 x2 x3 s) := by
  unfold store
  repeat' first
    | (with_reducible assumption)
    | (exact Sub.trans hm rfl)
    | (intro _)
    | (with_reducible exact rfl)
    | (with_reducible apply wr_keeps_all)
    | (with_reducible apply wr_keeps)
    | (with_reducible apply id_keeps)
    | (with_reducible refine Keeps.eq2 ‹_› ?_)
    | (with_reducible refine Keeps.eq3 ‹_› ?_)
    | split
    | (dsimp only)
    | (exact rfl)

theorem writePlain_keeps {m : Nat} {s0 s : State} {x1 x2 x3 x4} (hm : 18446744069414592564 ||| m = m) (h : Keeps m s0 s) : Keeps m s0 (writePlain x1 x2 x3 x4 s) := by
  unfold writePlain
  repeat' first
    | (with_reducible assumption)
    | (with_reducible exact id)
    | (exact in_mask hm rfl)
    | (with_reducible exact fun _ => rfl)
    | (exact Sub.trans hm rfl)
    | (intro _)
    | (extract_lets +onlyGivenNames s1; first | (refine Keeps.cut (t := s1) ?_ ?_; rotate_left; intro hs1; clear_value s1; rotate_right; subst s1) | (refine Keeps.cut2 (t := s1) ?_ ?_; rotate_left; intro hs1; clear_value s1; rotate_right; subst s1) | (refine Keeps.cut3 (t := s1) ?_ ?_; rotate_left; intro hs1; clear_value s1; rotate_right; subst s1) | (refine Keeps.cut1 (t := s1) ?_ ?_; rotate_left; intro hs1; clear_value s1; rotate_right; subst s1) | clear_value s1 | (have hm := s1; clear hm))
    | (with_reducible exact rfl)
    | (with_reducible apply wr_keeps_all)
    | (with_reducible apply store_keeps)
    | (with_reducible apply wr_keeps)
    | (with_reducible apply lockedWrite_keeps)
    | (with_reducible apply id_keeps)
    | (with_reducible refine Keeps.eq2 ‹_› ?_)
    | (with_reducible refine Keeps.eq3 ‹_› ?_)
    | split
    | (with_reducible apply Keeps.upd)
    | (dsimp only)
    | (exact rfl)

theorem writeLnkCtrl_keeps {m : Nat} {s0 s : State} {x1 x2} (hm : 18446744069414631548 ||| m = m) (h : Keeps m s0 s) : Keeps m s0 (writeLnkCtrl x1 x2 s) := by
  unfold writeLnkCtrl
  repeat' first
    | (with_reducible assumption)
    | (exact Sub.trans hm rfl)
    | (intro _)
    | (extract_lets +onlyGivenNames s1; first | (refine Keeps.cut (t := s1) ?_ ?_; rotate_left; intro hs1; clear_value s1; rotate_right; subst s1) | (refine Keeps.cut2 (t := s1) ?_ ?_; rotate_left; intro hs1; clear_value s1; rotate_right; subst s1) | (refine Keeps.cut3 (t := s1) ?_ ?_; rotate_left; intro hs1; clear_value s1; rotate_right; subst s1) | (refine Keeps.cut1 (t := s1) ?_ ?_; rotate_left; intro hs1; clear_value s1; rotate_right; subst s1) | clear_value s1 | (have hm := s1; clear hm))
    | (with_reducible exact rfl)
    | (with_reducible apply wr_keeps_all)
    | (with_reducible apply store_keeps)
    | (with_reducible apply writeLnkEnable_keeps)
    | (with_reducible apply startRetrain_keeps)
    | (with_reducible apply id_keeps)
    | (with_reducible refine Keeps.eq2 ‹_› ?_)
    | (with_reducible refine Keeps.eq3 ‹_› ?_)
    | split
    | (dsimp only)
    | (exact rfl)

theorem writeUdmaCtrl_keeps {m : Nat} {s0 s : State} {x1 x2} (hm : 61598420960188 ||| m = m) (h : Keeps m s0 s) : Keeps m s0 (writeUdmaCtrl x1 x2 s) := by
  unfold writeUdmaCtrl
  repeat' first
    | (with_reducible assumption)
    | (exact Sub.trans hm rfl)
    | (intro _)
    | (extract_lets +onlyGivenNames s1; first | (refine Keeps.cut (t := s1) ?_ ?_; rotate_left; intro hs1; clear_value s1; rotate_right; subst s1) | (refine Keeps.cut2 (t := s1) ?_ ?_; rotate_left; intro hs1; clear_value s1; rotate_right; subst s1) | (refine Keeps.cut3 (t := s1) ?_ ?_; rotate_left; intro hs1; clear_value s1; rotate_right; subst s1) | (refine Keeps.cut1 (t := s1) ?_ ?_; rotate_left; intro hs1; clear_value s1; rotate_right; subst s1) | clear_value s1 | (have hm := s1; clear hm))
    | (with_reducible exact rfl)
    | (with_reducible apply wrf_keeps)
    | (with_reducible apply doUdmaStop_keeps)
    | (with_reducible apply doUdmaStart_keeps)
    | (with_reducible apply id_keeps)
    | (with_reducible refine Keeps.eq2 ‹_› ?_)
    | (with_reducible refine Keeps.eq3 ‹_› ?_)
    | split
    | (dsimp only)
    | (exact rfl)

theorem writeCrcCtrl_keeps {m : Nat} {s0 s : State} {x1 x2} (hm : 96782793048636 ||| m = m) (h : Keeps m s0 s) : Keeps m s0 (writeCrcCtrl x1 x2 s) := by
  unfold writeCrcCtrl
  repeat' first
    | (with_reducible assumption)
    | (exact Sub.trans hm rfl)
    | (intro _)
    | (extract_lets +onlyGivenNames s1; first | (refine Keeps.cut (t := s1) ?_ ?_; rotate_left; intro hs1; clear_value s1; rotate_right; subst s1) | (refine Keeps.cut2 (t := s1) ?_ ?_; rotate_left; intro hs1; clear_value s1; rotate_right; subst s1) | (refine Keeps.cut3 (t := s1) ?_ ?_; rotate_left; intro hs1; clear_value s1; rotate_right; subst s1) | (refine Keeps.cut1 (t := s1) ?_ ?_; rotate_left; intro hs1; clear_value s1; rotate_right; subst s1) | clear_value s1 | (have hm := s1; clear hm))
    | (with_reducible exact rfl)
    | (with_reducible apply wrf_keeps)
    | (with_reducible apply doCrcStop_keeps)
    | (with_reducible apply doCrcLoadInit_keeps)
    | (with_reducible apply doCrcStart_keeps)
    | (with_reducible apply id_keeps)
    | (with_reducible refine Keeps.eq2 ‹_› ?_)
    | (with_reducible refine Keeps.eq3 ‹_› ?_)
    | split
    | (dsimp only)
    | (exact rfl)

theorem writeCamCfg_keeps {m : Nat} {s0 s : State} {x1 x2} (hm : 72646958040355516 ||| m = m) (h : Keeps m s0 s) : Keeps m s0 (writeCamCfg x1 x2 s) := by
  unfold writeCamCfg
  repeat' first
    | (with_reducible assumption)
    | (exact Sub.trans hm rfl)
    | (intro _)
    | (with_reducible exact rfl)
    | (with_reducible apply doCamCtxDisable_keeps)
    | (with_reducible apply doCamCtxEnable_keeps)
    | (with_reducible apply bindCtx_keeps)
    | (with_reducible apply id_keeps)
    | (with_reducible refine Keeps.eq2 ‹_› ?_)
    | (with_reducible refine Keeps.eq3 ‹_› ?_)
    | split
    | (dsimp only)
    | (exact rfl)

theorem writeCamPort_keeps {m : Nat} {s0 s : State} {x1 x2} (hm : 18446744069414584320 ||| m = m) (h : Keeps m s0 s) : Keeps m s0 (writeCamPort x1 x2 s) := by
  unfold writeCamPort
  repeat' first
    | (with_reducible assumption)
    | (exact Sub.trans hm rfl)
    | (intro _)
    | (extract_lets +onlyGivenNames s1; first | (refine Keeps.cut (t := s1) ?_ ?_; rotate_left; intro hs1; clear_value s1; rotate_right; subst s1) | (refine Keeps.cut2 (t := s1) ?_ ?_; rotate_left; intro hs1; clear_value s1; rotate_right; subst s1) | (refine Keeps.cut3 (t := s1) ?_ ?_; rotate_left; intro hs1; clear_value s1; rotate_right; subst s1) | (refine Keeps.cut1 (t := s1) ?_ ?_; rotate_left; intro hs1; clear_value s1; rotate_right; subst s1) | clear_value s1 | (have hm := s1; clear hm))
    | (with_reducible exact rfl)
    | (with_reducible apply wr_keeps_all)
    | (with_reducible apply wrb_keeps)
    | (with_reducible apply store_keeps)
    | (with_reducible apply showCam_keeps)
    | (with_reducible apply id_keeps)
    | (with_reducible refine Keeps.eq2 ‹_› ?_)
    | (with_reducible refine Keeps.eq3 ‹_› ?_)
    | split
    | (dsimp only)
    | (exact rfl)

theorem writeCamSize_keeps {m : Nat} {s0 s : State} {x1 x2} (hm : 18446744069414715444 ||| m = m) (h : Keeps m s0 s) : Keeps m s0 (writeCamSize x1 x2 s) := by
  unfold writeCamSize
  repeat' first
    | (with_reducible assumption)
    | (exact Sub.trans hm rfl)
    | (intro _)
    | (extract_lets +onlyGivenNames s1; first | (refine Keeps.cut (t := s1) ?_ ?_; rotate_left; intro hs1; clear_value s1; rotate_right; subst s1) | (refine Keeps.cut2 (t := s1) ?_ ?_; rotate_left; intro hs1; clear_value s1; rotate_right; subst s1) | (refine Keeps.cut3 (t := s1) ?_ ?_; rotate_left; intro hs1; clear_value s1; rotate_right; subst s1) | (refine Keeps.cut1 (t := s1) ?_ ?_; rotate_left; intro hs1; clear_value s1; rotate_right; subst s1) | clear_value s1 | (have hm := s1; clear hm))
    | (with_reducible exact rfl)
    | (with_reducible apply wr_keeps_all)
    | (with_reducible apply store_keeps)
    | (with_reducible apply camRefReset_keeps)
    | (with_reducible apply id_keeps)
    | (with_reducible refine Keeps.eq2 ‹_› ?_)
    | (with_reducible refine Keeps.eq3 ‹_› ?_)
    | split
    | (dsimp only)
    | (exact rfl)

theorem writeInval_keeps {m : Nat} {s0 s : State} {x1} (hm : 18446744069414584336 ||| m = m) (h : Keeps m s0 s) : Keeps m s0 (writeInval x1 s) := by
  unfold writeInval
  repeat' first
    | (with_reducible assumption)
    | (exact Sub.trans hm rfl)
    | (intro _)
    | (with_reducible exact rfl)
    | (with_reducible apply wr_keeps_all)
    | (with_reducible apply startInval_keeps)
    | (with_reducible apply store_keeps)
    | (with_reducible apply id_keeps)
    | (with_reducible refine Keeps.eq2 ‹_› ?_)
    | (with_reducible refine Keeps.eq3 ‹_› ?_)
    | split
    | (dsimp only)
    | (exact rfl)

theorem nudgeAll_keeps {m : Nat} {s0 s : State} (hm : 16 ||| m = m) (h : Keeps m s0 s) : Keeps m s0 (nudgeAll s) := by
  unfold nudgeAll
  repeat' first
    | (with_reducible assumption)
    | (exact Sub.trans hm rfl)
    | (intro _)
    | (with_reducible exact rfl)
    | (with_reducible apply markNewlyRead_keeps)
    | (with_reducible apply id_keeps)
    | (with_reducible refine Keeps.eq2 ‹_› ?_)
    | (with_reducible refine Keeps.eq3 ‹_› ?_)
    | split
    | (dsimp only)
    | (exact rfl)

theorem writeVectorCtrl_keeps {m : Nat} {s0 s : State} {x1 x2} (hm : 17179869236 ||| m = m) (h : Keeps m s0 s) : Keeps m s0 (writeVectorCtrl x1 x2 s) := by
  unfold writeVectorCtrl
  repeat' first
    | (with_reducible assumption)
    | (exact Sub.trans hm rfl)
    | (intro _)
    | (with_reducible exact rfl)
    | (with_reducible apply wrb_keeps)
    | (with_reducible apply doMsixUnmask_keeps)
    | (with_reducible apply id_keeps)
    | (with_reducible refine Keeps.eq2 ‹_› ?_)
    | (with_reducible refine Keeps.eq3 ‹_› ?_)
    | split
    | (dsimp only)
    | (exact rfl)

theorem writeScale_keeps {m : Nat} {s0 s : State} {x1} (hm : 18446744069414590516 ||| m = m) (h : Keeps m s0 s) : Keeps m s0 (writeScale x1 s) := by
  unfold writeScale
  repeat' first
    | (with_reducible assumption)
    | (exact Sub.trans hm rfl)
    | (intro _)
    | (extract_lets +onlyGivenNames s1; first | (refine Keeps.cut (t := s1) ?_ ?_; rotate_left; intro hs1; clear_value s1; rotate_right; subst s1) | (refine Keeps.cut2 (t := s1) ?_ ?_; rotate_left; intro hs1; clear_value s1; rotate_right; subst s1) | (refine Keeps.cut3 (t := s1) ?_ ?_; rotate_left; intro hs1; clear_value s1; rotate_right; subst s1) | (refine Keeps.cut1 (t := s1) ?_ ?_; rotate_left; intro hs1; clear_value s1; rotate_right; subst s1) | clear_value s1 | (have hm := s1; clear hm))
    | (with_reducible exact rfl)
    | (with_reducible apply wr_keeps_all)
    | (with_reducible apply store_keeps)
    | (with_reducible apply setScale_keeps)
    | (with_reducible apply id_keeps)
    | (with_reducible refine Keeps.eq2 ‹_› ?_)
    | (with_reducible refine Keeps.eq3 ‹_› ?_)
    | split
    | (dsimp only)
    | (exact rfl)

theorem writeDwell_keeps {m : Nat} {s0 s : State} {x1} (hm : 18446744069414588468 ||| m = m) (h : Keeps m s0 s) : Keeps m s0 (writeDwell x1 s) := by
  unfold writeDwell
  repeat' first
    | (with_reducible assumption)
    | (with_reducible exact id)
    | (exact in_mask hm rfl)
    | (with_reducible exact fun _ => rfl)
    | (exact Sub.trans hm rfl)
    | (intro _)
    | (extract_lets +onlyGivenNames s1; first | (refine Keeps.cut (t := s1) ?_ ?_; rotate_left; intro hs1; clear_value s1; rotate_right; subst s1) | (refine Keeps.cut2 (t := s1) ?_ ?_; rotate_left; intro hs1; clear_value s1; rotate_right; subst s1) | (refine Keeps.cut3 (t := s1) ?_ ?_; rotate_left; intro hs1; clear_value s1; rotate_right; subst s1) | (refine Keeps.cut1 (t := s1) ?_ ?_; rotate_left; intro hs1; clear_value s1; rotate_right; subst s1) | clear_value s1 | (have hm := s1; clear hm))
    | (with_reducible exact rfl)
    | (with_reducible apply wr_keeps_all)
    | (with_reducible apply store_keeps)
    | (with_reducible apply setDwell_keeps)
    | (with_reducible apply id_keeps)
    | (with_reducible refine Keeps.eq2 ‹_› ?_)
    | (with_reducible refine Keeps.eq3 ‹_› ?_)
    | split
    | (with_reducible apply Keeps.upd)
    | (dsimp only)
    | (exact rfl)

theorem writeThrottle_keeps {m : Nat} {s0 s : State} {x1 x2} (hm : 18446744069414592564 ||| m = m) (h : Keeps m s0 s) : Keeps m s0 (writeThrottle x1 x2 s) := by
  unfold writeThrottle
  repeat' first
    | (with_reducible assumption)
    | (exact Sub.trans hm rfl)
    | (intro _)
    | (with_reducible exact rfl)
    | (with_reducible apply wr_keeps_all)
    | (with_reducible apply lockedWrite_keeps)
    | (with_reducible apply store_keeps)
    | (with_reducible apply id_keeps)
    | (with_reducible refine Keeps.eq2 ‹_› ?_)
    | (with_reducible refine Keeps.eq3 ‹_› ?_)
    | split
    | (dsimp only)
    | (exact rfl)

theorem writePending_keeps {m : Nat} {s0 s : State} {x1 x2} (hm : 17179869184 ||| m = m) (h : Keeps m s0 s) : Keeps m s0 (writePending x1 x2 s) := by
  unfold writePending
  repeat' first
    | (with_reducible assumption)
    | (exact Sub.trans hm rfl)
    | (intro _)
    | (with_reducible exact rfl)
    | (with_reducible apply doEvtPendingClear_keeps)
    | (with_reducible apply id_keeps)
    | (with_reducible refine Keeps.eq2 ‹_› ?_)
    | (with_reducible refine Keeps.eq3 ‹_› ?_)
    | split
    | (dsimp only)
    | (exact rfl)

theorem hsvCtrl_keeps {m : Nat} {s0 s : State} {v : Nat} (hm : 18446744069414846463 ||| m = m) (h : Keeps m s0 s) :
    Keeps m s0 ((sif (bit 1 v) (doHsvFlush {}) ∘ sif (bit 0 v) (fun s => if modeOf s < 2 then s else startAuth s)) s) := by
  refine sif_keeps (sif_keeps h fun s h => ?_) fun s h => doHsvFlush_keeps (Sub.trans hm rfl) h
  split
  · exact h
  · exact startAuth_keeps (Sub.trans hm rfl) h
theorem dbgResponse_keeps {m : Nat} {s0 s : State} {i v : Nat} (hm : 18446744069414846463 ||| m = m) (h : Keeps m s0 s) :
    Keeps m s0 (if i = 23 then doDbgResponse v s else wr R.DBG_RESPONSE v s i) := by
  split
  · exact doDbgResponse_keeps (Sub.trans hm rfl) h
  · exact wr_keeps (Sub.trans hm rfl) rfl h
theorem writers_keeps {m : Nat} {s0 : State} (hm : 18446744069414846463 ||| m = m) :
    ∀ w ∈ writers, ∀ fw i v s, Keeps m s0 s → Keeps m s0 (w.2 fw i v s) := by
  unfold writers
  simp only [List.forall_mem_append, List.forall_mem_cons]
  repeat' first
    | exact fun _ h => absurd h List.not_mem_nil
    | refine And.intro ?_ ?_
    | (intro fw i v s h
       first
         | (with_reducible exact wr_keeps (Sub.trans hm rfl) rfl h)
         | (with_reducible exact doHoldCauseClear_keeps (Sub.trans hm (by decide)) h)
         | (with_reducible exact doRollbackCommit_keeps (Sub.trans hm (by decide)) h)
         | (with_reducible exact nudgeAll_keeps (Sub.trans hm (by decide)) h)
         | (with_reducible exact doHifApertureBaseWrite_keeps (Sub.trans hm (by decide)) h)
         | (with_reducible exact writeInval_keeps (Sub.trans hm (by decide)) h)
         | (with_reducible exact ringCtrl_keeps (Sub.trans hm (by decide)) h)
         | (with_reducible exact writeTheCtrl_keeps (Sub.trans hm (by decide)) h)
         | (with_reducible exact writeScale_keeps (Sub.trans hm (by decide)) h)
         | (with_reducible exact writeDwell_keeps (Sub.trans hm (by decide)) h)
         | (with_reducible exact writeLnkCtrl_keeps (Sub.trans hm (by decide)) h)
         | (with_reducible exact writeDiscard_keeps (Sub.trans hm (by decide)) h)
         | (with_reducible exact doMotSourceChange_keeps (Sub.trans hm (by decide)) h)
         | (with_reducible exact writeMotCmd_keeps (Sub.trans hm (by decide)) h)
         | (with_reducible exact doMotFaultClear_keeps (Sub.trans hm (by decide)) h)
         | (with_reducible exact writeCamPort_keeps (Sub.trans hm (by decide)) h)
         | (with_reducible exact doCamPwrCtrlWrite_keeps (Sub.trans hm (by decide)) h)
         | (with_reducible exact doCamTrigSw_keeps (Sub.trans hm (by decide)) h)
         | (with_reducible exact doCamBusCmd_keeps (Sub.trans hm (by decide)) h)
         | (with_reducible exact writeCamCfg_keeps (Sub.trans hm (by decide)) h)
         | (with_reducible exact writeCamSize_keeps (Sub.trans hm (by decide)) h)
         | (with_reducible exact doCamBufferRelease_keeps (Sub.trans hm (by decide)) h)
         | (with_reducible exact writeArbSwitch_keeps (Sub.trans hm (by decide)) h)
         | (with_reducible exact writeSlots_keeps (Sub.trans hm (by decide)) h)
         | (with_reducible exact writePortCfg_keeps (Sub.trans hm (by decide)) h)
         | (with_reducible exact writeRankMap_keeps (Sub.trans hm (by decide)) h)
         | (with_reducible exact writeRetire_keeps (Sub.trans hm (by decide)) h)
         | (with_reducible exact writeLogClear_keeps (Sub.trans hm (by decide)) h)
         | (with_reducible exact writeInject_keeps (Sub.trans hm (by decide)) h)
         | (with_reducible exact writeAppend_keeps (Sub.trans hm (by decide)) h)
         | (with_reducible exact writeUdmaCtrl_keeps (Sub.trans hm (by decide)) h)
         | (with_reducible exact writeCrcCtrl_keeps (Sub.trans hm (by decide)) h)
         | (with_reducible exact doTimeSourceChange_keeps (Sub.trans hm (by decide)) h)
         | (with_reducible exact doServoSample_keeps (Sub.trans hm (by decide)) h)
         | (with_reducible exact doTimeCompareArm_keeps (Sub.trans hm (by decide)) h)
         | (with_reducible exact writeRstCmd_keeps (Sub.trans hm (by decide)) h)
         | (with_reducible exact writeRstBlock_keeps (Sub.trans hm (by decide)) h)
         | (with_reducible exact doWatchdogKick_keeps (Sub.trans hm (by decide)) h)
         | (with_reducible exact writeThmReq_keeps (Sub.trans hm (by decide)) h)
         | (with_reducible exact writeCalRun_keeps (Sub.trans hm (by decide)) h)
         | (with_reducible exact writeThrottle_keeps (Sub.trans hm (by decide)) h)
         | (with_reducible exact doHsvUsageDiscard_keeps (Sub.trans hm (by decide)) h)
         | (with_reducible exact doDbgRequest_keeps (Sub.trans hm (by decide)) h)
         | (with_reducible exact doDbgRelock_keeps (Sub.trans hm (by decide)) h)
         | (with_reducible exact doPinOutWrite_keeps (Sub.trans hm (by decide)) h)
         | (with_reducible exact doPinFaultClear_keeps (Sub.trans hm (by decide)) h)
         | (with_reducible exact writePending_keeps (Sub.trans hm (by decide)) h)
         | (with_reducible exact writeVectorCtrl_keeps (Sub.trans hm (by decide)) h)
         | (with_reducible exact hsvCtrl_keeps (Sub.trans hm (by decide)) h)
         | (with_reducible exact dbgResponse_keeps (Sub.trans hm (by decide)) h)
         | (with_reducible exact sif_keeps h (fun _ h => doCtlBringupDoneWrite_keeps (Sub.trans hm (by decide)) h))
         | (with_reducible exact sif_keeps h (fun _ h => holdCause_keeps (Sub.trans hm (by decide)) h))
         | (with_reducible exact sif_keeps h (fun _ h => doBankSwapCancel_keeps (Sub.trans hm (by decide)) h))
         | (with_reducible exact sif_keeps h (fun _ h => doCamCommit_keeps (Sub.trans hm (by decide)) h))
         | (with_reducible exact sif_keeps h (fun _ h => doSafLock_keeps (Sub.trans hm (by decide)) h))
         | (with_reducible exact sif_keeps h (fun _ h => doDbgReset_keeps (Sub.trans hm (by decide)) h)))
theorem writeReg_keeps {m : Nat} {s0 s : State} {x1 x2 x3 x4} (hm : 18446744069414846463 ||| m = m) (h : Keeps m s0 s) :
    Keeps m s0 (writeReg x1 x2 x3 x4 s) := by
  have h1 : Keeps m s0 (if R.allPin.any (fun x => x.base == x2.base) then modPin (fun p => { p with gpTaken := true }) s else s) := by
    split
    · exact modPin_keeps (Sub.trans hm rfl) h
    · exact h
  unfold writeReg
  generalize (if R.allPin.any (fun x => x.base == x2.base) then modPin (fun p => { p with gpTaken := true }) s else s) = t at h1
  split
  · exact h1
  · split
    · next w e => exact writers_keeps hm w (List.mem_of_find?_eq_some e) _ _ _ _ h1
    · exact writePlain_keeps (Sub.trans hm rfl) h1

theorem write64_keeps {m : Nat} {s0 s : State} {x1 x2 x3} (hm : 18446744069414846463 ||| m = m) (h : Keeps m s0 s) : Keeps m s0 (write64 x1 x2 x3 s) := by
  unfold write64
  repeat' first
    | (with_reducible assumption)
    | (with_reducible exact id)
    | (exact in_mask hm rfl)
    | (with_reducible exact fun _ => rfl)
    | (exact Sub.trans hm rfl)
    | (intro _)
    | (extract_lets +onlyGivenNames s1; first | (refine Keeps.cut (t := s1) ?_ ?_; rotate_left; intro hs1; clear_value s1; rotate_right; subst s1) | (refine Keeps.cut2 (t := s1) ?_ ?_; rotate_left; intro hs1; clear_value s1; rotate_right; subst s1) | (refine Keeps.cut3 (t := s1) ?_ ?_; rotate_left; intro hs1; clear_value s1; rotate_right; subst s1) | (refine Keeps.cut1 (t := s1) ?_ ?_; rotate_left; intro hs1; clear_value s1; rotate_right; subst s1) | clear_value s1 | (have hm := s1; clear hm))
    | (with_reducible exact rfl)
    | (with_reducible apply wr_keeps_all)
    | (with_reducible apply doBeamTableWindowWrite_keeps)
    | (with_reducible apply writeReg_keeps)
    | (with_reducible apply id_keeps)
    | (with_reducible refine Keeps.eq2 ‹_› ?_)
    | (with_reducible refine Keeps.eq3 ‹_› ?_)
    | split
    | (with_reducible apply Keeps.upd)
    | (dsimp only)
    | (exact rfl)

theorem write32_keeps {m : Nat} {s0 s : State} {x1 x2 x3} (hm : 18446744069414846463 ||| m = m) (h : Keeps m s0 s) : Keeps m s0 (write32 x1 x2 x3 s) := by
  unfold write32
  repeat' first
    | (with_reducible assumption)
    | (with_reducible exact id)
    | (exact in_mask hm rfl)
    | (with_reducible exact fun _ => rfl)
    | (exact Sub.trans hm rfl)
    | (intro _)
    | (extract_lets +onlyGivenNames s1; first | (refine Keeps.cut (t := s1) ?_ ?_; rotate_left; intro hs1; clear_value s1; rotate_right; subst s1) | (refine Keeps.cut2 (t := s1) ?_ ?_; rotate_left; intro hs1; clear_value s1; rotate_right; subst s1) | (refine Keeps.cut3 (t := s1) ?_ ?_; rotate_left; intro hs1; clear_value s1; rotate_right; subst s1) | (refine Keeps.cut1 (t := s1) ?_ ?_; rotate_left; intro hs1; clear_value s1; rotate_right; subst s1) | clear_value s1 | (have hm := s1; clear hm))
    | (with_reducible exact rfl)
    | (with_reducible apply wr_keeps_all)
    | (with_reducible apply writeReg_keeps)
    | (with_reducible apply id_keeps)
    | (with_reducible refine Keeps.eq2 ‹_› ?_)
    | (with_reducible refine Keeps.eq3 ‹_› ?_)
    | split
    | (with_reducible apply Keeps.upd)
    | (dsimp only)
    | (exact rfl)

theorem writeLow_keeps {m : Nat} {s0 s : State} {x1 x2} (hm : 1 ||| m = m) (h : Keeps m s0 s) : Keeps m s0 (writeLow x1 x2 s) := by
  unfold writeLow
  repeat' first
    | (with_reducible assumption)
    | (with_reducible exact id)
    | (exact in_mask hm rfl)
    | (with_reducible exact fun _ => rfl)
    | (exact Sub.trans hm rfl)
    | (intro _)
    | (extract_lets +onlyGivenNames s1; first | (refine Keeps.cut (t := s1) ?_ ?_; rotate_left; intro hs1; clear_value s1; rotate_right; subst s1) | (refine Keeps.cut2 (t := s1) ?_ ?_; rotate_left; intro hs1; clear_value s1; rotate_right; subst s1) | (refine Keeps.cut3 (t := s1) ?_ ?_; rotate_left; intro hs1; clear_value s1; rotate_right; subst s1) | (refine Keeps.cut1 (t := s1) ?_ ?_; rotate_left; intro hs1; clear_value s1; rotate_right; subst s1) | clear_value s1 | (have hm := s1; clear hm))
    | (with_reducible exact rfl)
    | (with_reducible apply id_keeps)
    | (with_reducible refine Keeps.eq2 ‹_› ?_)
    | (with_reducible refine Keeps.eq3 ‹_› ?_)
    | split
    | (with_reducible apply Keeps.upd)
    | (dsimp only)
    | (exact rfl)

theorem writeHigh_keeps {m : Nat} {s0 s : State} {x1 x2 x3} (hm : 18446744069414846463 ||| m = m) (h : Keeps m s0 s) : Keeps m s0 (writeHigh x1 x2 x3 s) := by
  unfold writeHigh
  repeat' first
    | (with_reducible assumption)
    | (with_reducible exact id)
    | (exact in_mask hm rfl)
    | (with_reducible exact fun _ => rfl)
    | (exact Sub.trans hm rfl)
    | (intro _)
    | (extract_lets +onlyGivenNames s1; first | (refine Keeps.cut (t := s1) ?_ ?_; rotate_left; intro hs1; clear_value s1; rotate_right; subst s1) | (refine Keeps.cut2 (t := s1) ?_ ?_; rotate_left; intro hs1; clear_value s1; rotate_right; subst s1) | (refine Keeps.cut3 (t := s1) ?_ ?_; rotate_left; intro hs1; clear_value s1; rotate_right; subst s1) | (refine Keeps.cut1 (t := s1) ?_ ?_; rotate_left; intro hs1; clear_value s1; rotate_right; subst s1) | clear_value s1 | (have hm := s1; clear hm))
    | (with_reducible exact rfl)
    | (with_reducible apply wr_keeps_all)
    | (with_reducible apply write64_keeps)
    | (with_reducible apply id_keeps)
    | (with_reducible refine Keeps.eq2 ‹_› ?_)
    | (with_reducible refine Keeps.eq3 ‹_› ?_)
    | split
    | (with_reducible apply Keeps.upd)
    | (dsimp only)
    | (exact rfl)

theorem doRegisterWrite_keeps {m : Nat} {s0 s : State} {x1 x2 x3 x4} (hm : 18446744069414846463 ||| m = m) (h : Keeps m s0 s) : Keeps m s0 (doRegisterWrite x1 x2 x3 x4 s) := by
  unfold doRegisterWrite
  repeat' first
    | (with_reducible assumption)
    | (exact Sub.trans hm rfl)
    | (intro _)
    | (with_reducible exact rfl)
    | (with_reducible apply wr_keeps_all)
    | (with_reducible apply countBad_keeps)
    | (with_reducible apply write64_keeps)
    | (with_reducible apply write32_keeps)
    | (with_reducible apply writeHigh_keeps)
    | (with_reducible apply writeLow_keeps)
    | (with_reducible apply id_keeps)
    | (with_reducible refine Keeps.eq2 ‹_› ?_)
    | (with_reducible refine Keeps.eq3 ‹_› ?_)
    | split
    | (dsimp only)
    | (exact rfl)

theorem doRegWriteLowHalf_keeps {m : Nat} {s0 s : State} {x1 x2} (hm : 1 ||| m = m) (h : Keeps m s0 s) : Keeps m s0 (doRegWriteLowHalf x1 x2 s) := by
  unfold doRegWriteLowHalf
  repeat' first
    | (with_reducible assumption)
    | (exact Sub.trans hm rfl)
    | (intro _)
    | (with_reducible exact rfl)
    | (with_reducible apply writeLow_keeps)
    | (with_reducible apply id_keeps)
    | (with_reducible refine Keeps.eq2 ‹_› ?_)
    | (with_reducible refine Keeps.eq3 ‹_› ?_)
    | split
    | (dsimp only)
    | (exact rfl)

theorem doRegWriteHighHalf_keeps {m : Nat} {s0 s : State} {x1 x2 x3} (hm : 18446744069414846463 ||| m = m) (h : Keeps m s0 s) : Keeps m s0 (doRegWriteHighHalf x1 x2 x3 s) := by
  unfold doRegWriteHighHalf
  repeat' first
    | (with_reducible assumption)
    | (exact Sub.trans hm rfl)
    | (intro _)
    | (with_reducible exact rfl)
    | (with_reducible apply wr_keeps_all)
    | (with_reducible apply writeHigh_keeps)
    | (with_reducible apply id_keeps)
    | (with_reducible refine Keeps.eq2 ‹_› ?_)
    | (with_reducible refine Keeps.eq3 ‹_› ?_)
    | split
    | (dsimp only)
    | (exact rfl)

end Sys2Proof.Laws
end

