-- ==== Sys2Proof/Laws/Keeps/Exec.lean ====
section
/-! SUPPORT. Every command answers a next state, and leaves alone the parts of the state that Safety.lean does not list for it. -/

namespace Sys2Proof.Laws
open Sys2Proof Sys2Proof.Machine

/-- The mask of a part. -/
def partBit (p : StatePart) : Nat :=
  match p.block with
  | some b => 32 + b
  | none => p.ctorIdx
/-- The mask of a list of parts; an address outside every block counts as part of the registers. -/
def partMask : List StatePart → Nat
  | [] => 0
  | p :: l => Nat.pow 2 (partBit p) ||| partMask l
/-- A choice between two states. -/
theorem ite_keeps {m : Nat} {s0 a b : State} {c : Prop} [Decidable c] (ha : Keeps m s0 a) (hb : Keeps m s0 b) :
    Keeps m s0 (if c then a else b) := by
  split
  · exact ha
  · exact hb
theorem of_parts {c : Instr} {s : State} {l : List StatePart} (e : mayChange c = l)
    (h : ∃ t, exec c s = .next t ∧ Keeps (partMask l ||| 9261654832710680576) s t) :
    ∃ t, exec c s = .next t ∧ Keeps (partMask (mayChange c) ||| 9261654832710680576) s t := e ▸ h
/-- What every command does: it answers a next state, and the state outside its mask is as before. -/
theorem exec_keeps (c : Instr) (s : State) : ∃ t, exec c s = .next t ∧ Keeps (partMask (mayChange c) ||| 9261654832710680576) s t := by
  cases c with
  | registerWrite _ _ _ _ => exact of_parts (l := StatePart.all) rfl ⟨_, rfl, doRegisterWrite_keeps (hm := rfl) (h := (Keeps.refl _ s))⟩
  | regWriteLowHalf _ _ => exact of_parts (l := [.heldLow]) rfl ⟨_, rfl, doRegWriteLowHalf_keeps (hm := rfl) (h := (Keeps.refl _ s))⟩
  | regWriteHighHalf _ _ _ => exact of_parts (l := StatePart.all) rfl ⟨_, rfl, doRegWriteHighHalf_keeps (hm := rfl) (h := (Keeps.refl _ s))⟩
  | regReadLowHalf _ => exact of_parts (l := allBut [.heldLow, .time, .dram, .sram, .mem, .arb, .mot, .dose, .ctl, .pwr, .thm, .head, .cam]) rfl ⟨_, rfl, doRegReadLowHalf_keeps (hm := rfl) (h := (Keeps.refl _ s))⟩
  | rcRead _ _ => exact of_parts (l := allBut [.heldLow, .time, .dram, .sram, .mem, .arb, .mot, .dose, .ctl, .pwr, .thm, .head, .cam]) rfl ⟨_, rfl, doRcRead_keeps (hm := rfl) (h := (Keeps.refl _ s))⟩
  | ttWrap => exact of_parts (l := List.append posting [.time]) rfl ⟨_, rfl, doTtWrap_keeps (hm := rfl) (h := (Keeps.refl _ s))⟩
  | setMode _ _ _ => exact of_parts (l := allBut [.heldLow, .latchedHigh, .dram, .sram, .arb, .pwr]) rfl ⟨_, rfl, doSetMode_keeps (hm := rfl) (h := (Keeps.refl _ s))⟩
  | holdStandstill _ => exact of_parts (l := List.append posting [.freeCtr, .ctl, .head, .SAF, .CTL, .HSV]) rfl ⟨_, rfl, doHoldStandstill_keeps (hm := rfl) (h := (Keeps.refl _ s))⟩
  | holdCauseClear _ _ => exact of_parts (l := [.ctl, .thm, .CTL]) rfl ⟨_, rfl, doHoldCauseClear_keeps (hm := rfl) (h := (Keeps.refl _ s))⟩
  | readyEntryAtRest => exact of_parts (l := List.append posting [.freeCtr, .time, .mot, .dose, .ctl, .TSY, .MOT, .DPI, .THE, .BSC, .PLC, .MND, .LNK, .CAM, .SAF, .CTL]) rfl ⟨_, rfl, doReadyEntryAtRest_keeps (hm := rfl) (h := (Keeps.refl _ s))⟩
  | bringupDoneTimeout => exact of_parts (l := List.append posting [.time, .mot, .dose, .ctl, .TSY, .MOT, .THE, .PLC, .CAM, .SAF, .CTL]) rfl ⟨_, rfl, doBringupDoneTimeout_keeps (hm := rfl) (h := (Keeps.refl _ s))⟩
  | busMasterEnableClear => exact of_parts (l := [.host]) rfl ⟨_, rfl, doBusMasterEnableClear_keeps (hm := rfl) (h := (Keeps.refl _ s))⟩
  | busMasterEnableSet => exact of_parts (l := [.out, .host]) rfl ⟨_, rfl, doBusMasterEnableSet_keeps (hm := rfl) (h := (Keeps.refl _ s))⟩
  | pcieLinkDown => exact of_parts (l := StatePart.all) rfl ⟨_, rfl, doPcieLinkDown_keeps (hm := rfl) (h := (Keeps.refl _ s))⟩
  | pcieLinkChange _ _ => exact of_parts (l := posting) rfl ⟨_, rfl, doPcieLinkChange_keeps (hm := rfl) (h := (Keeps.refl _ s))⟩
  | pcieHotReset => exact of_parts (l := StatePart.all) rfl ⟨_, rfl, doPcieHotReset_keeps (hm := rfl) (h := (Keeps.refl _ s))⟩
  | pcieError _ _ _ => exact of_parts (l := posting) rfl ⟨_, rfl, doPcieError_keeps (hm := rfl) (h := (Keeps.refl _ s))⟩
  | hifApertureBaseWrite _ => exact of_parts (l := [.HIF]) rfl ⟨_, rfl, doHifApertureBaseWrite_keeps (hm := rfl) (h := (Keeps.refl _ s))⟩
  | apertureRead _ _ => exact of_parts (l := List.append posting [.mem, .MEMC, .ECC]) rfl ⟨_, rfl, doApertureRead_keeps (hm := rfl) (h := (Keeps.refl _ s))⟩
  | apertureWrite _ _ => exact of_parts (l := List.append posting [.dram, .mem, .MEMC, .ECC]) rfl ⟨_, rfl, doApertureWrite_keeps (hm := rfl) (h := (Keeps.refl _ s))⟩
  | hifNudge _ => exact of_parts (l := posting) rfl ⟨_, rfl, doHifNudge_keeps (hm := rfl) (h := (Keeps.refl _ s))⟩
  | doorbellPoll _ => exact of_parts (l := posting) rfl ⟨_, rfl, doDoorbellPoll_keeps (hm := rfl) (h := (Keeps.refl _ s))⟩
  | ringEnable _ _ => exact of_parts (l := posting) rfl ⟨_, rfl, enableRing_keeps (hm := rfl) (h := (Keeps.refl _ s))⟩
  | ringDisable _ => exact of_parts (l := allBut [.heldLow, .latchedHigh, .sram, .arb, .pwr, .head]) rfl ⟨_, rfl, disableRing_keeps (hm := rfl) (h := (Keeps.refl _ s))⟩
  | ringDisableDone _ => exact of_parts (l := [.out, .host, .HIF]) rfl ⟨_, rfl, ite_keeps (disableCheck_keeps (hm := rfl) (h := (Keeps.refl _ s))) (Keeps.refl _ s)⟩
  | ringReset _ => exact of_parts (l := [.out, .host, .HIF]) rfl ⟨_, rfl, resetRing_keeps (hm := rfl) (h := (Keeps.refl _ s))⟩
  | ringResumeRetry _ _ => exact of_parts (l := List.append posting [.freeCtr, .dose]) rfl ⟨_, rfl, resumeRetry_keeps (hm := rfl) (h := (Keeps.refl _ s))⟩
  | ringResumeSkip _ => exact of_parts (l := allBut [.heldLow, .latchedHigh, .sram, .arb, .pwr, .head]) rfl ⟨_, rfl, resumeSkip_keeps (hm := rfl) (h := (Keeps.refl _ s))⟩
  | ringResumeAbort _ _ => exact of_parts (l := allBut [.heldLow, .latchedHigh, .sram, .arb, .pwr, .head]) rfl ⟨_, rfl, resumeAbort_keeps (hm := rfl) (h := (Keeps.refl _ s))⟩
  | eventRingSpacePoll _ _ => exact of_parts (l := posting) rfl ⟨_, rfl, doEventRingSpacePoll_keeps (hm := rfl) (h := (Keeps.refl _ s))⟩
  | tlbInvalAll => exact of_parts (l := [.host, .HIF]) rfl ⟨_, rfl, startInval_keeps (hm := rfl) (h := (Keeps.refl _ s))⟩
  | tlbInvalSpace _ => exact of_parts (l := [.host, .HIF]) rfl ⟨_, rfl, startInval_keeps (hm := rfl) (h := (Keeps.refl _ s))⟩
  | tlbInvalPage _ => exact of_parts (l := [.host, .HIF]) rfl ⟨_, rfl, startInval_keeps (hm := rfl) (h := (Keeps.refl _ s))⟩
  | tlbInvalDone => exact of_parts (l := [.HIF]) rfl ⟨_, rfl, doTlbInvalDone_keeps (hm := rfl) (h := (Keeps.refl _ s))⟩
  | hostDmaChannelGrant _ => exact of_parts (l := List.append posting [.freeCtr, .dose]) rfl ⟨_, rfl, grantChannel_keeps (hm := rfl) (h := (Keeps.refl _ s))⟩
  | hostDmaBreakPoint _ _ => exact of_parts (l := allBut [.heldLow, .latchedHigh, .sram, .arb, .pwr, .head]) rfl ⟨_, rfl, doHostDmaBreakPoint_keeps (hm := rfl) (h := (Keeps.refl _ s))⟩
  | hostDmaTransferDone _ _ => exact of_parts (l := allBut [.heldLow, .latchedHigh, .sram, .arb, .pwr, .head, .IDC, .FUS, .CRC, .CAMP, .PIN, .DBG]) rfl ⟨_, rfl, doHostDmaTransferDone_keeps (hm := rfl) (h := (Keeps.refl _ s))⟩
  | hello _ _ => exact of_parts (l := posting) rfl ⟨_, rfl, doHello_keeps (hm := rfl) (h := (Keeps.refl _ s))⟩
  | loadContext _ _ => exact of_parts (l := posting) rfl ⟨_, rfl, doLoadContext_keeps (hm := rfl) (h := (Keeps.refl _ s))⟩
  | loadBeamTable _ _ => exact of_parts (l := posting) rfl ⟨_, rfl, doLoadBeamTable_keeps (hm := rfl) (h := (Keeps.refl _ s))⟩
  | setGeometry _ _ => exact of_parts (l := posting) rfl ⟨_, rfl, doSetGeometry_keeps (hm := rfl) (h := (Keeps.refl _ s))⟩
  | resumeRing _ _ _ _ => exact of_parts (l := allBut [.heldLow, .latchedHigh, .sram, .arb, .pwr, .head]) rfl ⟨_, rfl, doResumeRing_keeps (hm := rfl) (h := (Keeps.refl _ s))⟩
  | home _ _ => exact of_parts (l := List.append holding [.time, .TSY, .DPI, .LNK, .CAM]) rfl ⟨_, rfl, doHome_keeps (hm := rfl) (h := (Keeps.refl _ s))⟩
  | move _ _ => exact of_parts (l := List.append holding [.time, .TSY, .DPI, .LNK, .CAM]) rfl ⟨_, rfl, doMove_keeps (hm := rfl) (h := (Keeps.refl _ s))⟩
  | calRequest _ _ => exact of_parts (l := List.append posting [.thm, .THM]) rfl ⟨_, rfl, doCalRequest_keeps (hm := rfl) (h := (Keeps.refl _ s))⟩
  | loadFirmware _ _ => exact of_parts (l := List.append holding [.time, .RST, .PWR, .TSY, .ARB, .DPI, .LNK, .CAM]) rfl ⟨_, rfl, doLoadFirmware_keeps (hm := rfl) (h := (Keeps.refl _ s))⟩
  | policySet _ _ => exact of_parts (l := posting) rfl ⟨_, rfl, doPolicySet_keeps (hm := rfl) (h := (Keeps.refl _ s))⟩
  | readLog _ _ => exact of_parts (l := posting) rfl ⟨_, rfl, doReadLog_keeps (hm := rfl) (h := (Keeps.refl _ s))⟩
  | camProgram _ _ => exact of_parts (l := posting) rfl ⟨_, rfl, doCamProgram_keeps (hm := rfl) (h := (Keeps.refl _ s))⟩
  | timeCtrlSet _ _ => exact of_parts (l := List.append posting [.time, .mot, .dose, .ctl, .TSY, .PLC]) rfl ⟨_, rfl, doTimeCtrlSet_keeps (hm := rfl) (h := (Keeps.refl _ s))⟩
  | timeCtrlStep _ _ => exact of_parts (l := List.append posting [.time, .mot, .dose, .ctl, .TSY, .PLC]) rfl ⟨_, rfl, doTimeCtrlStep_keeps (hm := rfl) (h := (Keeps.refl _ s))⟩
  | timeCtrlSource _ _ => exact of_parts (l := List.append posting [.time, .ctl, .TSY]) rfl ⟨_, rfl, doTimeCtrlSource_keeps (hm := rfl) (h := (Keeps.refl _ s))⟩
  | timeCtrlIncrement _ _ => exact of_parts (l := List.append posting [.TSY]) rfl ⟨_, rfl, doTimeCtrlIncrement_keeps (hm := rfl) (h := (Keeps.refl _ s))⟩
  | timeCtrlCompare _ _ => exact of_parts (l := List.append posting [.TSY]) rfl ⟨_, rfl, doTimeCtrlCompare_keeps (hm := rfl) (h := (Keeps.refl _ s))⟩
  | timeCtrlRead _ _ => exact of_parts (l := posting) rfl ⟨_, rfl, doTimeCtrlRead_keeps (hm := rfl) (h := (Keeps.refl _ s))⟩
  | layerBegin _ _ => exact of_parts (l := List.append posting [.dose, .THE, .PLC]) rfl ⟨_, rfl, doLayerBegin_keeps (hm := rfl) (h := (Keeps.refl _ s))⟩
  | swath _ _ _ => exact of_parts (l := allBut [.heldLow, .latchedHigh, .dram, .sram, .arb, .pwr, .head, .cam, .IDC, .RST, .PWR, .FUS, .ARB, .UDMA, .CRC, .FCD, .CAMP, .HSV, .PIN, .DBG]) rfl ⟨_, rfl, doSwath_keeps (hm := rfl) (h := (Keeps.refl _ s))⟩
  | layerEnd _ _ => exact of_parts (l := List.append posting [.dose]) rfl ⟨_, rfl, doLayerEnd_keeps (hm := rfl) (h := (Keeps.refl _ s))⟩
  | mendPass _ _ _ => exact of_parts (l := allBut [.heldLow, .latchedHigh, .dram, .sram, .arb, .pwr, .head, .cam, .IDC, .RST, .PWR, .FUS, .ARB, .UDMA, .CRC, .FCD, .CAMP, .HSV, .PIN, .DBG]) rfl ⟨_, rfl, doMendPass_keeps (hm := rfl) (h := (Keeps.refl _ s))⟩
  | crcJob _ _ => exact of_parts (l := List.append posting [.freeCtr, .dram, .mem, .MEMC, .ECC, .UDMA, .FCD]) rfl ⟨_, rfl, doCrcJob_keeps (hm := rfl) (h := (Keeps.refl _ s))⟩
  | compress _ _ => exact of_parts (l := List.append posting [.freeCtr, .dram, .mem, .MEMC, .ECC, .UDMA, .FCD]) rfl ⟨_, rfl, doCompress_keeps (hm := rfl) (h := (Keeps.refl _ s))⟩
  | decompress _ _ => exact of_parts (l := List.append posting [.freeCtr, .dram, .mem, .MEMC, .ECC, .UDMA, .FCD]) rfl ⟨_, rfl, doDecompress_keeps (hm := rfl) (h := (Keeps.refl _ s))⟩
  | fill _ _ => exact of_parts (l := List.append posting [.freeCtr, .dram, .mem, .MEMC, .ECC, .UDMA, .FCD]) rfl ⟨_, rfl, doFill_keeps (hm := rfl) (h := (Keeps.refl _ s))⟩
  | copy _ _ => exact of_parts (l := List.append posting [.freeCtr, .dram, .mem, .MEMC, .ECC, .UDMA, .FCD]) rfl ⟨_, rfl, doCopy_keeps (hm := rfl) (h := (Keeps.refl _ s))⟩
  | scrub _ _ => exact of_parts (l := List.append posting [.freeCtr, .dram, .mem, .MEMC, .ECC, .UDMA, .FCD]) rfl ⟨_, rfl, doScrub_keeps (hm := rfl) (h := (Keeps.refl _ s))⟩
  | utilityJobDone _ _ => exact of_parts (l := List.append posting [.freeCtr, .dram, .mem, .MEMC, .ECC, .UDMA, .FCD]) rfl ⟨_, rfl, doUtilityJobDone_keeps (hm := rfl) (h := (Keeps.refl _ s))⟩
  | uploadBuffer _ _ => exact of_parts (l := posting) rfl ⟨_, rfl, doUploadBuffer_keeps (hm := rfl) (h := (Keeps.refl _ s))⟩
  | uploadBufferTimeout _ => exact of_parts (l := [.host]) rfl ⟨_, rfl, doUploadBufferTimeout_keeps (hm := rfl) (h := (Keeps.refl _ s))⟩
  | swathExecutionStart _ => exact of_parts (l := allBut [.heldLow, .latchedHigh, .dram, .sram, .arb, .pwr, .head, .cam, .IDC, .RST, .PWR, .FUS, .ARB, .MEMC, .UDMA, .CRC, .FCD, .CAMP, .HSV, .PIN, .DBG]) rfl ⟨_, rfl, doSwathExecutionStart_keeps (hm := rfl) (h := (Keeps.refl _ s))⟩
  | groupDecode => exact of_parts (l := List.append posting [.freeCtr, .mem, .dose, .MEMC, .ECC, .DPI, .MND]) rfl ⟨_, rfl, doGroupDecode_keeps (hm := rfl) (h := (Keeps.refl _ s))⟩
  | intakeStartWaitExpiry => exact of_parts (l := [.dose]) rfl ⟨_, rfl, doIntakeStartWaitExpiry_keeps (hm := rfl) (h := (Keeps.refl _ s))⟩
  | positionSample _ _ _ => exact of_parts (l := allBut [.heldLow, .latchedHigh, .sram, .arb, .pwr, .head]) rfl ⟨_, rfl, doPositionSample_keeps (hm := rfl) (h := (Keeps.refl _ s))⟩
  | stepInputEdge _ _ => exact of_parts (l := allBut [.heldLow, .latchedHigh, .sram, .arb, .pwr, .head]) rfl ⟨_, rfl, each_keeps (Keeps.refl _ s) fun _ _ h => stepEdge_keeps (hm := rfl) (h := h)⟩
  | layerBoundary _ => exact of_parts (l := allBut [.heldLow, .latchedHigh, .dram, .sram, .mem, .arb, .pwr]) rfl ⟨_, rfl, doLayerBoundary_keeps (hm := rfl) (h := (Keeps.refl _ s))⟩
  | lineWindowEntry _ _ _ => exact of_parts (l := List.append posting [.freeCtr, .dose, .ctl, .DPI, .THE, .BSC, .MND]) rfl ⟨_, rfl, doLineWindowEntry_keeps (hm := rfl) (h := (Keeps.refl _ s))⟩
  | mapSlotFillDone _ => exact of_parts (l := allBut [.heldLow, .latchedHigh, .sram, .arb, .pwr]) rfl ⟨_, rfl, doMapSlotFillDone_keeps (hm := rfl) (h := (Keeps.refl _ s))⟩
  | theEnable _ => exact of_parts (l := [.dose, .THE, .PLC]) rfl ⟨_, rfl, writeTheCtrl_keeps (hm := rfl) (h := (Keeps.refl _ s))⟩
  | assimMapApply _ => exact of_parts (l := List.append posting [.dram, .mem, .dose, .cam, .ECC, .THE, .CAM]) rfl ⟨_, rfl, applyMap_keeps (hm := rfl) (h := (Keeps.refl _ s))⟩
  | frameBuild _ _ => exact of_parts (l := StatePart.all) rfl ⟨_, rfl, doFrameBuild_keeps (hm := rfl) (h := (Keeps.refl _ s))⟩
  | bankSwapCancel => exact of_parts (l := [.BSC]) rfl ⟨_, rfl, doBankSwapCancel_keeps (hm := rfl) (h := (Keeps.refl _ s))⟩
  | beamTableWindowWrite _ _ _ => exact of_parts (l := [.dose, .BSC]) rfl ⟨_, rfl, doBeamTableWindowWrite_keeps (hm := rfl) (h := (Keeps.refl _ s))⟩
  | frameSend _ _ _ => exact of_parts (l := allBut [.heldLow, .latchedHigh, .sram, .arb, .pwr, .head]) rfl ⟨_, rfl, doFrameSend_keeps (hm := rfl) (h := (Keeps.refl _ s))⟩
  | frameLate _ _ _ => exact of_parts (l := allBut [.heldLow, .latchedHigh, .sram, .arb, .pwr, .head]) rfl ⟨_, rfl, doFrameLate_keeps (hm := rfl) (h := (Keeps.refl _ s))⟩
  | anchorLatch => exact of_parts (l := [.dose, .PLC]) rfl ⟨_, rfl, latchAnchor_keeps (hm := rfl) (h := (Keeps.refl _ s))⟩
  | turnEntry => exact of_parts (l := List.append holding [.time, .TSY, .DPI, .LNK, .CAM]) rfl ⟨_, rfl, doTurnEntry_keeps (hm := rfl) (h := (Keeps.refl _ s))⟩
  | turnDwellExpiry => exact of_parts (l := [.dose]) rfl ⟨_, rfl, doTurnDwellExpiry_keeps (hm := rfl) (h := (Keeps.refl _ s))⟩
  | ax1Settle => exact of_parts (l := [.dose]) rfl ⟨_, rfl, doAx1Settle_keeps (hm := rfl) (h := (Keeps.refl _ s))⟩
  | runupStart => exact of_parts (l := allBut [.heldLow, .latchedHigh, .freeCtr, .dram, .sram, .mem, .arb, .pwr, .head]) rfl ⟨_, rfl, doRunupStart_keeps (hm := rfl) (h := (Keeps.refl _ s))⟩
  | exposeEntry => exact of_parts (l := [.PLC]) rfl ⟨_, rfl, doExposeEntry_keeps (hm := rfl) (h := (Keeps.refl _ s))⟩
  | linkDetectPoll _ _ _ _ => exact of_parts (l := List.append posting [.dose, .LNK]) rfl ⟨_, rfl, doLinkDetectPoll_keeps (hm := rfl) (h := (Keeps.refl _ s))⟩
  | returnClockLock _ _ => exact of_parts (l := List.append posting [.dose, .LNK]) rfl ⟨_, rfl, doReturnClockLock_keeps (hm := rfl) (h := (Keeps.refl _ s))⟩
  | linkTrainTimeout _ => exact of_parts (l := List.append posting [.dose, .LNK]) rfl ⟨_, rfl, doLinkTrainTimeout_keeps (hm := rfl) (h := (Keeps.refl _ s))⟩
  | linkRetryDelay _ => exact of_parts (l := [.dose, .LNK]) rfl ⟨_, rfl, doLinkRetryDelay_keeps (hm := rfl) (h := (Keeps.refl _ s))⟩
  | trainBlockRx _ _ _ _ _ => exact of_parts (l := List.append posting [.freeCtr, .mot, .dose, .PLC, .LNK]) rfl ⟨_, rfl, doTrainBlockRx_keeps (hm := rfl) (h := (Keeps.refl _ s))⟩
  | alignBlockRx _ _ _ _ => exact of_parts (l := List.append posting [.freeCtr, .dose, .LNK]) rfl ⟨_, rfl, doAlignBlockRx_keeps (hm := rfl) (h := (Keeps.refl _ s))⟩
  | capabilityRx _ _ => exact of_parts (l := List.append posting [.dose, .LNK]) rfl ⟨_, rfl, doCapabilityRx_keeps (hm := rfl) (h := (Keeps.refl _ s))⟩
  | tickReplyRx _ _ _ _ _ => exact of_parts (l := List.append posting [.freeCtr, .mot, .dose, .PLC, .LNK]) rfl ⟨_, rfl, doTickReplyRx_keeps (hm := rfl) (h := (Keeps.refl _ s))⟩
  | tickCheckTimer _ => exact of_parts (l := [.out, .dose, .LNK]) rfl ⟨_, rfl, doTickCheckTimer_keeps (hm := rfl) (h := (Keeps.refl _ s))⟩
  | returnIdleRx _ _ => exact of_parts (l := [.out, .dose, .LNK]) rfl ⟨_, rfl, doReturnIdleRx_keeps (hm := rfl) (h := (Keeps.refl _ s))⟩
  | ackBlockRx _ _ _ => exact of_parts (l := StatePart.all) rfl ⟨_, rfl, ite_keeps (each_keeps (Keeps.refl _ s) fun _ _ h => takeRecord_keeps (hm := rfl) (h := h)) (Keeps.refl _ s)⟩
  | telemetryRx _ _ => exact of_parts (l := List.append posting [.freeCtr, .mot, .dose, .PLC, .LNK]) rfl ⟨_, rfl, doTelemetryRx_keeps (hm := rfl) (h := (Keeps.refl _ s))⟩
  | laneLockLoss _ _ _ => exact of_parts (l := List.append posting [.freeCtr, .mot, .dose, .PLC, .LNK]) rfl ⟨_, rfl, doLaneLockLoss_keeps (hm := rfl) (h := (Keeps.refl _ s))⟩
  | fastRetrainTimeout _ _ => exact of_parts (l := StatePart.all) rfl ⟨_, rfl, doFastRetrainTimeout_keeps (hm := rfl) (h := (Keeps.refl _ s))⟩
  | linkRetrainRequest _ => exact of_parts (l := List.append posting [.freeCtr, .mot, .dose, .PLC, .LNK]) rfl ⟨_, rfl, ite_keeps (startRetrain_keeps (hm := rfl) (h := (Keeps.refl _ s))) (Keeps.refl _ s)⟩
  | linkEnableWrite _ _ => exact of_parts (l := List.append holding [.freeCtr, .time, .TSY, .DPI, .LNK, .CAM]) rfl ⟨_, rfl, ite_keeps (writeLnkEnable_keeps (hm := rfl) (h := (Keeps.refl _ s))) (Keeps.refl _ s)⟩
  | linkIdleEntry _ => exact of_parts (l := [.LNK]) rfl ⟨_, rfl, doLinkIdleEntry_keeps (hm := rfl) (h := (Keeps.refl _ s))⟩
  | ackTimeout _ _ => exact of_parts (l := StatePart.all) rfl ⟨_, rfl, doAckTimeout_keeps (hm := rfl) (h := (Keeps.refl _ s))⟩
  | ackDeferEnd _ => exact of_parts (l := [.dose, .LNK]) rfl ⟨_, rfl, ite_keeps (wrb_keeps (hr0 := rfl) (hk0 := rfl) (hm := rfl) (h := modPort_keeps (hm := rfl) (h := (Keeps.refl _ s)))) (Keeps.refl _ s)⟩
  | linkClockStopTimeout _ _ => exact of_parts (l := StatePart.all) rfl ⟨_, rfl, doLinkClockStopTimeout_keeps (hm := rfl) (h := (Keeps.refl _ s))⟩
  | mendLogDiscard _ => exact of_parts (l := List.append posting [.dose, .MND]) rfl ⟨_, rfl, writeDiscard_keeps (hm := rfl) (h := (Keeps.refl _ s))⟩
  | motionLinkFrame => exact of_parts (l := allBut [.heldLow, .latchedHigh, .sram, .arb, .pwr, .head]) rfl ⟨_, rfl, doMotionLinkFrame_keeps (hm := rfl) (h := (Keeps.refl _ s))⟩
  | moveComplete _ => exact of_parts (l := List.append holding [.time, .TSY, .DPI, .LNK, .CAM]) rfl ⟨_, rfl, doMoveComplete_keeps (hm := rfl) (h := (Keeps.refl _ s))⟩
  | runHoldExpiry _ => exact of_parts (l := [.mot]) rfl ⟨_, rfl, doRunHoldExpiry_keeps (hm := rfl) (h := (Keeps.refl _ s))⟩
  | motStop _ => exact of_parts (l := [.mot, .MOT]) rfl ⟨_, rfl, doMotStop_keeps (hm := rfl) (h := (Keeps.refl _ s))⟩
  | motFlush _ => exact of_parts (l := List.append posting [.mot, .MOT]) rfl ⟨_, rfl, doMotFlush_keeps (hm := rfl) (h := (Keeps.refl _ s))⟩
  | motDeclareHomed _ => exact of_parts (l := [.MOT]) rfl ⟨_, rfl, doMotDeclareHomed_keeps (hm := rfl) (h := (Keeps.refl _ s))⟩
  | motClearHomed _ => exact of_parts (l := [.MOT]) rfl ⟨_, rfl, doMotClearHomed_keeps (hm := rfl) (h := (Keeps.refl _ s))⟩
  | motFaultClear _ _ _ => exact of_parts (l := List.append holding [.time, .TSY, .DPI, .LNK, .CAM]) rfl ⟨_, rfl, doMotFaultClear_keeps (hm := rfl) (h := (Keeps.refl _ s))⟩
  | motSourceChange _ _ => exact of_parts (l := List.append posting [.mot, .MOT]) rfl ⟨_, rfl, doMotSourceChange_keeps (hm := rfl) (h := (Keeps.refl _ s))⟩
  | standstillDelayExpiry _ => exact of_parts (l := [.mot]) rfl ⟨_, rfl, doStandstillDelayExpiry_keeps (hm := rfl) (h := (Keeps.refl _ s))⟩
  | motionLinkRetest _ _ => exact of_parts (l := List.append holding [.time, .TSY, .DPI, .LNK, .CAM]) rfl ⟨_, rfl, doMotionLinkRetest_keeps (hm := rfl) (h := (Keeps.refl _ s))⟩
  | encoderFault _ _ _ => exact of_parts (l := List.append holding [.time, .TSY, .DPI, .LNK, .CAM]) rfl ⟨_, rfl, doEncoderFault_keeps (hm := rfl) (h := (Keeps.refl _ s))⟩
  | switchClassify _ _ _ _ => exact of_parts (l := List.append holding [.time, .TSY, .DPI, .LNK, .CAM]) rfl ⟨_, rfl, ite_keeps (classify_keeps (hm := rfl) (h := classify_keeps (hm := rfl) (h := classify_keeps (hm := rfl) (h := (Keeps.refl _ s))))) (Keeps.refl _ s)⟩
  | switchRawEdge _ _ _ => exact of_parts (l := List.append holding [.time, .TSY, .DPI, .LNK, .CAM]) rfl ⟨_, rfl, doSwitchRawEdge_keeps (hm := rfl) (h := (Keeps.refl _ s))⟩
  | switchDebounceAccept _ _ => exact of_parts (l := List.append posting [.mot, .MOT]) rfl ⟨_, rfl, doSwitchDebounceAccept_keeps (hm := rfl) (h := (Keeps.refl _ s))⟩
  | csiFrameStart _ _ => exact of_parts (l := List.append posting [.freeCtr, .dram, .mem, .dose, .cam, .MEMC, .ECC, .THE, .CAM, .CAMP]) rfl ⟨_, rfl, doCsiFrameStart_keeps (hm := rfl) (h := (Keeps.refl _ s))⟩
  | csiLinePacket _ => exact of_parts (l := List.append posting [.cam, .CAM]) rfl ⟨_, rfl, doCsiLinePacket_keeps (hm := rfl) (h := (Keeps.refl _ s))⟩
  | csiFrameEnd _ _ => exact of_parts (l := List.append posting [.freeCtr, .dram, .mem, .dose, .cam, .MEMC, .ECC, .THE, .CAM]) rfl ⟨_, rfl, doCsiFrameEnd_keeps (hm := rfl) (h := (Keeps.refl _ s))⟩
  | camFrameTimeout _ => exact of_parts (l := List.append posting [.freeCtr, .dram, .mem, .dose, .cam, .MEMC, .ECC, .THE, .CAM]) rfl ⟨_, rfl, doCamFrameTimeout_keeps (hm := rfl) (h := (Keeps.refl _ s))⟩
  | camLineProcess _ => exact of_parts (l := List.append posting [.freeCtr, .dram, .mem, .dose, .cam, .MEMC, .ECC, .THE, .CAM]) rfl ⟨_, rfl, doCamLineProcess_keeps (hm := rfl) (h := (Keeps.refl _ s))⟩
  | positionWaitTimeout _ => exact of_parts (l := List.append posting [.freeCtr, .dram, .mem, .dose, .cam, .MEMC, .ECC, .THE, .CAM]) rfl ⟨_, rfl, doPositionWaitTimeout_keeps (hm := rfl) (h := (Keeps.refl _ s))⟩
  | camTrigSw _ _ => exact of_parts (l := List.append posting [.cam, .CAM]) rfl ⟨_, rfl, doCamTrigSw_keeps (hm := rfl) (h := (Keeps.refl _ s))⟩
  | triggerPulseEnd _ => exact of_parts (l := [.out, .cam]) rfl ⟨_, rfl, doTriggerPulseEnd_keeps (hm := rfl) (h := (Keeps.refl _ s))⟩
  | camBusCmd _ _ => exact of_parts (l := [.out, .cam, .CAM]) rfl ⟨_, rfl, doCamBusCmd_keeps (hm := rfl) (h := (Keeps.refl _ s))⟩
  | camBusTransactionDone _ _ _ => exact of_parts (l := List.append posting [.freeCtr, .cam, .CAM]) rfl ⟨_, rfl, doCamBusTransactionDone_keeps (hm := rfl) (h := (Keeps.refl _ s))⟩
  | camCommit _ => exact of_parts (l := [.CAM]) rfl ⟨_, rfl, doCamCommit_keeps (hm := rfl) (h := (Keeps.refl _ s))⟩
  | camCtxEnable _ _ => exact of_parts (l := List.append posting [.cam, .CAM]) rfl ⟨_, rfl, doCamCtxEnable_keeps (hm := rfl) (h := (Keeps.refl _ s))⟩
  | camCtxDisable _ => exact of_parts (l := List.append posting [.freeCtr, .dram, .mem, .dose, .cam, .MEMC, .ECC, .THE, .CAM]) rfl ⟨_, rfl, doCamCtxDisable_keeps (hm := rfl) (h := (Keeps.refl _ s))⟩
  | camBufferRelease _ _ => exact of_parts (l := [.cam, .CAM]) rfl ⟨_, rfl, doCamBufferRelease_keeps (hm := rfl) (h := (Keeps.refl _ s))⟩
  | camPwrCtrlWrite _ => exact of_parts (l := [.CAM]) rfl ⟨_, rfl, doCamPwrCtrlWrite_keeps (hm := rfl) (h := (Keeps.refl _ s))⟩
  | camPowerFault _ _ _ => exact of_parts (l := List.append posting [.CAM]) rfl ⟨_, rfl, doCamPowerFault_keeps (hm := rfl) (h := (Keeps.refl _ s))⟩
  | dramRefresh => exact of_parts (l := []) rfl ⟨_, rfl, (Keeps.refl _ s)⟩
  | dramTempPoll _ => exact of_parts (l := [.MEMC]) rfl ⟨_, rfl, wrf_keeps (hm := rfl) (hr0 := rfl) (hk0 := rfl) (h := (Keeps.refl _ s))⟩
  | srIdleEntry => exact of_parts (l := [.mem, .MEMC]) rfl ⟨_, rfl, doSrIdleEntry_keeps (hm := rfl) (h := (Keeps.refl _ s))⟩
  | srEntryComplete => exact of_parts (l := List.append posting [.mem, .arb, .ARB, .MEMC]) rfl ⟨_, rfl, doSrEntryComplete_keeps (hm := rfl) (h := (Keeps.refl _ s))⟩
  | arbRequest _ _ => exact of_parts (l := List.append posting [.mem, .arb, .ARB, .MEMC]) rfl ⟨_, rfl, doArbRequest_keeps (hm := rfl) (h := (Keeps.refl _ s))⟩
  | arbGrantEnd _ => exact of_parts (l := List.append posting [.arb, .ARB, .MEMC]) rfl ⟨_, rfl, doArbGrantEnd_keeps (hm := rfl) (h := (Keeps.refl _ s))⟩
  | arbSlotAdvance => exact of_parts (l := List.append posting [.arb, .ARB]) rfl ⟨_, rfl, doArbSlotAdvance_keeps (hm := rfl) (h := (Keeps.refl _ s))⟩
  | arbWaitBreak _ => exact of_parts (l := List.append posting [.arb, .ARB]) rfl ⟨_, rfl, doArbWaitBreak_keeps (hm := rfl) (h := (Keeps.refl _ s))⟩
  | arbBankSwitch _ => exact of_parts (l := [.ARB]) rfl ⟨_, rfl, writeArbSwitch_keeps (hm := rfl) (h := (Keeps.refl _ s))⟩
  | dramReadComplete _ _ _ _ _ => exact of_parts (l := List.append posting [.mem, .cam, .MEMC, .ECC, .CAM]) rfl ⟨_, rfl, doDramReadComplete_keeps (hm := rfl) (h := (Keeps.refl _ s))⟩
  | dramCmdAlert _ _ _ _ _ _ => exact of_parts (l := List.append posting [.mem, .cam, .MEMC, .ECC, .CAM]) rfl ⟨_, rfl, doDramCmdAlert_keeps (hm := rfl) (h := (Keeps.refl _ s))⟩
  | memcRankMapWrite _ => exact of_parts (l := [.dram, .mem, .MEMC]) rfl ⟨_, rfl, writeRankMap_keeps (hm := rfl) (h := (Keeps.refl _ s))⟩
  | mapLock => exact of_parts (l := [.MEMC]) rfl ⟨_, rfl, wrb_keeps (hm := rfl) (hr0 := rfl) (hk0 := rfl) (h := (Keeps.refl _ s))⟩
  | rankRetire _ => exact of_parts (l := List.append posting [.mem, .MEMC]) rfl ⟨_, rfl, writeRetire_keeps (hm := rfl) (h := (Keeps.refl _ s))⟩
  | rankMigrateDone => exact of_parts (l := List.append posting [.mem, .MEMC]) rfl ⟨_, rfl, doRankMigrateDone_keeps (hm := rfl) (h := (Keeps.refl _ s))⟩
  | patrolScrubRead _ _ => exact of_parts (l := List.append posting [.mem, .MEMC, .ECC]) rfl ⟨_, rfl, doPatrolScrubRead_keeps (hm := rfl) (h := (Keeps.refl _ s))⟩
  | sramScrub _ _ _ => exact of_parts (l := List.append posting [.mem, .ECC]) rfl ⟨_, rfl, doSramScrub_keeps (hm := rfl) (h := (Keeps.refl _ s))⟩
  | eccLogClear _ => exact of_parts (l := [.mem, .ECC]) rfl ⟨_, rfl, writeLogClear_keeps (hm := rfl) (h := (Keeps.refl _ s))⟩
  | eccInjectArm _ => exact of_parts (l := [.ECC]) rfl ⟨_, rfl, writeInject_keeps (hm := rfl) (h := (Keeps.refl _ s))⟩
  | dramTrainingDone _ _ _ _ => exact of_parts (l := allBut [.heldLow, .latchedHigh, .sram, .arb]) rfl ⟨_, rfl, doDramTrainingDone_keeps (hm := rfl) (h := (Keeps.refl _ s))⟩
  | udmaStart _ => exact of_parts (l := List.append posting [.freeCtr, .mem, .ECC, .UDMA]) rfl ⟨_, rfl, doUdmaStart_keeps (hm := rfl) (h := (Keeps.refl _ s))⟩
  | udmaStop _ _ _ => exact of_parts (l := List.append posting [.freeCtr, .dram, .sram, .mem, .MEMC, .ECC, .UDMA]) rfl ⟨_, rfl, doUdmaStop_keeps (hm := rfl) (h := (Keeps.refl _ s))⟩
  | udmaAppend _ => exact of_parts (l := List.append posting [.freeCtr, .sram, .mem, .ECC, .UDMA]) rfl ⟨_, rfl, writeAppend_keeps (hm := rfl) (h := (Keeps.refl _ s))⟩
  | udmaDescriptorDone _ _ => exact of_parts (l := List.append posting [.freeCtr, .dram, .sram, .mem, .MEMC, .ECC, .UDMA]) rfl ⟨_, rfl, doUdmaDescriptorDone_keeps (hm := rfl) (h := (Keeps.refl _ s))⟩
  | udmaPaceResume _ _ => exact of_parts (l := [.UDMA]) rfl ⟨_, rfl, doUdmaPaceResume_keeps (hm := rfl) (h := (Keeps.refl _ s))⟩
  | crcStart _ => exact of_parts (l := [.CRC]) rfl ⟨_, rfl, doCrcStart_keeps (hm := rfl) (h := (Keeps.refl _ s))⟩
  | crcLoadInit _ => exact of_parts (l := [.CRC]) rfl ⟨_, rfl, doCrcLoadInit_keeps (hm := rfl) (h := (Keeps.refl _ s))⟩
  | crcStop _ _ => exact of_parts (l := List.append posting [.freeCtr, .mem, .MEMC, .ECC, .CRC]) rfl ⟨_, rfl, doCrcStop_keeps (hm := rfl) (h := (Keeps.refl _ s))⟩
  | crcUnitDone _ => exact of_parts (l := List.append posting [.freeCtr, .mem, .MEMC, .ECC, .CRC]) rfl ⟨_, rfl, doCrcUnitDone_keeps (hm := rfl) (h := (Keeps.refl _ s))⟩
  | servoSample _ => exact of_parts (l := List.append posting [.time, .mot, .dose, .ctl, .TSY, .PLC]) rfl ⟨_, rfl, doServoSample_keeps (hm := rfl) (h := (Keeps.refl _ s))⟩
  | servoNoSample => exact of_parts (l := [.TSY]) rfl ⟨_, rfl, doServoNoSample_keeps (hm := rfl) (h := (Keeps.refl _ s))⟩
  | holdoverExpiry => exact of_parts (l := List.append posting [.time, .ctl, .TSY]) rfl ⟨_, rfl, doHoldoverExpiry_keeps (hm := rfl) (h := (Keeps.refl _ s))⟩
  | timeSourceChange _ => exact of_parts (l := List.append posting [.time, .ctl, .TSY]) rfl ⟨_, rfl, doTimeSourceChange_keeps (hm := rfl) (h := (Keeps.refl _ s))⟩
  | ppsInputEdge => exact of_parts (l := List.append posting [.time, .mot, .dose, .ctl, .TSY, .PLC]) rfl ⟨_, rfl, doPpsInputEdge_keeps (hm := rfl) (h := (Keeps.refl _ s))⟩
  | ppsMissing => exact of_parts (l := List.append posting [.time, .TSY]) rfl ⟨_, rfl, doPpsMissing_keeps (hm := rfl) (h := (Keeps.refl _ s))⟩
  | timeCompareFire _ => exact of_parts (l := List.append posting [.time, .TSY]) rfl ⟨_, rfl, doTimeCompareFire_keeps (hm := rfl) (h := (Keeps.refl _ s))⟩
  | timeCompareArm _ _ => exact of_parts (l := [.TSY]) rfl ⟨_, rfl, doTimeCompareArm_keeps (hm := rfl) (h := (Keeps.refl _ s))⟩
  | ptpMessageRx _ _ _ _ _ _ => exact of_parts (l := List.append posting [.TSY]) rfl ⟨_, rfl, doPtpMessageRx_keeps (hm := rfl) (h := (Keeps.refl _ s))⟩
  | ptpMessageTx _ _ _ _ _ => exact of_parts (l := List.append posting [.TSY]) rfl ⟨_, rfl, doPtpMessageTx_keeps (hm := rfl) (h := (Keeps.refl _ s))⟩
  | sfpCageFault _ _ => exact of_parts (l := List.append posting [.freeCtr, .time, .TSY]) rfl ⟨_, rfl, doSfpCageFault_keeps (hm := rfl) (h := (Keeps.refl _ s))⟩
  | sfpFaultClearDelay _ => exact of_parts (l := List.append posting [.freeCtr, .TSY]) rfl ⟨_, rfl, doSfpFaultClearDelay_keeps (hm := rfl) (h := (Keeps.refl _ s))⟩
  | wideTimeRead => exact of_parts (l := [.out, .TSY]) rfl ⟨_, rfl, doWideTimeRead_keeps (hm := rfl) (h := (Keeps.refl _ s))⟩
  | powerUp _ _ _ => exact of_parts (l := StatePart.all) rfl ⟨_, rfl, doPowerUp_keeps (hm := rfl) (h := (Keeps.refl _ s))⟩
  | mainsHalfCycle _ _ => exact of_parts (l := List.append posting [.freeCtr, .pwr, .PWR]) rfl ⟨_, rfl, doMainsHalfCycle_keeps (hm := rfl) (h := (Keeps.refl _ s))⟩
  | mainsLoss => exact of_parts (l := List.append posting [.pwr, .PWR]) rfl ⟨_, rfl, doMainsLoss_keeps (hm := rfl) (h := (Keeps.refl _ s))⟩
  | supplyWarn _ _ => exact of_parts (l := allBut [.heldLow, .latchedHigh, .freeCtr, .dram, .sram, .mem, .arb, .head]) rfl ⟨_, rfl, doSupplyWarn_keeps (hm := rfl) (h := (Keeps.refl _ s))⟩
  | supplyWarnExit _ _ => exact of_parts (l := [.pwr, .PWR]) rfl ⟨_, rfl, doSupplyWarnExit_keeps (hm := rfl) (h := (Keeps.refl _ s))⟩
  | supplyRecover _ _ => exact of_parts (l := List.append holding [.freeCtr, .time, .pwr, .PWR, .TSY, .DPI, .LNK, .CAM]) rfl ⟨_, rfl, doSupplyRecover_keeps (hm := rfl) (h := (Keeps.refl _ s))⟩
  | supplyHoldExpiry => exact of_parts (l := List.append holding [.time, .pwr, .TSY, .DPI, .LNK, .CAM]) rfl ⟨_, rfl, doSupplyHoldExpiry_keeps (hm := rfl) (h := (Keeps.refl _ s))⟩
  | brownoutAssert _ _ => exact of_parts (l := StatePart.all) rfl ⟨_, rfl, doBrownoutAssert_keeps (hm := rfl) (h := (Keeps.refl _ s))⟩
  | brownoutRelease _ _ _ => exact of_parts (l := StatePart.all) rfl ⟨_, rfl, doBrownoutRelease_keeps (hm := rfl) (h := (Keeps.refl _ s))⟩
  | dormantEntry => exact of_parts (l := StatePart.all) rfl ⟨_, rfl, doDormantEntry_keeps (hm := rfl) (h := (Keeps.refl _ s))⟩
  | railFault _ _ _ => exact of_parts (l := StatePart.all) rfl ⟨_, rfl, doRailFault_keeps (hm := rfl) (h := (Keeps.refl _ s))⟩
  | resetAssert _ => exact of_parts (l := StatePart.all) rfl ⟨_, rfl, doResetAssert_keeps (hm := rfl) (h := (Keeps.refl _ s))⟩
  | resetRelease _ _ => exact of_parts (l := allBut [.heldLow, .latchedHigh, .sram, .arb]) rfl ⟨_, rfl, releaseSources_keeps (hm := rfl) (h := (Keeps.refl _ s))⟩
  | resetPinPulse => exact of_parts (l := [.ctl]) rfl ⟨_, rfl, doResetPinPulse_keeps (hm := rfl) (h := (Keeps.refl _ s))⟩
  | resetPinHold => exact of_parts (l := StatePart.all) rfl ⟨_, rfl, ite_keeps (assertSource_keeps (hm := rfl) (h := (Keeps.refl _ s))) (Keeps.refl _ s)⟩
  | watchdogKick => exact of_parts (l := [.pwr]) rfl ⟨_, rfl, doWatchdogKick_keeps (hm := rfl) (h := (Keeps.refl _ s))⟩
  | watchdogHalf => exact of_parts (l := List.append posting [.pwr]) rfl ⟨_, rfl, doWatchdogHalf_keeps (hm := rfl) (h := (Keeps.refl _ s))⟩
  | watchdogExpiry => exact of_parts (l := StatePart.all) rfl ⟨_, rfl, doWatchdogExpiry_keeps (hm := rfl) (h := (Keeps.refl _ s))⟩
  | rstCmd _ => exact of_parts (l := StatePart.all) rfl ⟨_, rfl, writeRstCmd_keeps (hm := rfl) (h := (Keeps.refl _ s))⟩
  | rstBlock _ => exact of_parts (l := [.out, .mem, .mot, .dose, .cam, .RST, .THE, .CAM]) rfl ⟨_, rfl, writeRstBlock_keeps (hm := rfl) (h := (Keeps.refl _ s))⟩
  | thermtrip => exact of_parts (l := StatePart.all) rfl ⟨_, rfl, doThermtrip_keeps (hm := rfl) (h := (Keeps.refl _ s))⟩
  | thermtripCool _ => exact of_parts (l := StatePart.all) rfl ⟨_, rfl, doThermtripCool_keeps (hm := rfl) (h := (Keeps.refl _ s))⟩
  | backupCellCheck _ => exact of_parts (l := List.append posting [.PWR]) rfl ⟨_, rfl, doBackupCellCheck_keeps (hm := rfl) (h := (Keeps.refl _ s))⟩
  | fuseLoadAttempt _ => exact of_parts (l := allBut [.heldLow, .latchedHigh, .sram, .arb]) rfl ⟨_, rfl, doFuseLoadAttempt_keeps (hm := rfl) (h := (Keeps.refl _ s))⟩
  | bezelResetRelease _ => exact of_parts (l := allBut [.heldLow, .latchedHigh, .sram, .arb]) rfl ⟨_, rfl, releaseSources_keeps (hm := rfl) (h := (Keeps.refl _ s))⟩
  | standingRequest => exact of_parts (l := List.append holding [.time, .TSY, .DPI, .LNK, .CAM]) rfl ⟨_, rfl, doStandingRequest_keeps (hm := rfl) (h := (Keeps.refl _ s))⟩
  | thmReq _ _ => exact of_parts (l := List.append holding [.time, .TSY, .DPI, .LNK, .CAM]) rfl ⟨_, rfl, writeThmReq_keeps (hm := rfl) (h := (Keeps.refl _ s))⟩
  | thmConversionDone _ _ _ => exact of_parts (l := List.append holding [.freeCtr, .time, .TSY, .DPI, .LNK, .CAM, .HSV]) rfl ⟨_, rfl, doThmConversionDone_keeps (hm := rfl) (h := (Keeps.refl _ s))⟩
  | thmCalRun _ => exact of_parts (l := allBut [.heldLow, .latchedHigh, .freeCtr, .dram, .sram, .mem, .arb, .pwr, .head]) rfl ⟨_, rfl, writeCalRun_keeps (hm := rfl) (h := (Keeps.refl _ s))⟩
  | calItemDone _ _ => exact of_parts (l := allBut [.heldLow, .latchedHigh, .freeCtr, .dram, .sram, .mem, .arb, .pwr, .head]) rfl ⟨_, rfl, doCalItemDone_keeps (hm := rfl) (h := (Keeps.refl _ s))⟩
  | safLock => exact of_parts (l := List.append posting [.SAF]) rfl ⟨_, rfl, doSafLock_keeps (hm := rfl) (h := (Keeps.refl _ s))⟩
  | envelopeCheck _ => exact of_parts (l := List.append holding [.time, .TSY, .DPI, .LNK, .CAM]) rfl ⟨_, rfl, ite_keeps (Keeps.refl _ s) (each_keeps (Keeps.refl _ s) fun _ _ h => envCheck_keeps (hm := rfl) (h := h))⟩
  | estopOpen _ => exact of_parts (l := List.append holding [.time, .TSY, .DPI, .LNK, .CAM]) rfl ⟨_, rfl, doEstopOpen_keeps (hm := rfl) (h := (Keeps.refl _ s))⟩
  | estopClose _ => exact of_parts (l := List.append posting [.ctl, .MOT, .SAF]) rfl ⟨_, rfl, doEstopClose_keeps (hm := rfl) (h := (Keeps.refl _ s))⟩
  | estopDiscrepancy => exact of_parts (l := List.append posting [.ctl, .SAF]) rfl ⟨_, rfl, doEstopDiscrepancy_keeps (hm := rfl) (h := (Keeps.refl _ s))⟩
  | estopStopTimeout => exact of_parts (l := [.ctl, .MOT]) rfl ⟨_, rfl, doEstopStopTimeout_keeps (hm := rfl) (h := (Keeps.refl _ s))⟩
  | estopTestPulse _ _ => exact of_parts (l := List.append holding [.time, .TSY, .DPI, .LNK, .CAM, .PIN]) rfl ⟨_, rfl, doEstopTestPulse_keeps (hm := rfl) (h := (Keeps.refl _ s))⟩
  | beamPermitChange _ => exact of_parts (l := List.append holding [.time, .TSY, .DPI, .LNK, .CAM]) rfl ⟨_, rfl, doBeamPermitChange_keeps (hm := rfl) (h := (Keeps.refl _ s))⟩
  | enableFeedbackFault _ _ => exact of_parts (l := List.append holding [.time, .TSY, .DPI, .LNK, .CAM]) rfl ⟨_, rfl, doEnableFeedbackFault_keeps (hm := rfl) (h := (Keeps.refl _ s))⟩
  | relayFeedbackFault _ => exact of_parts (l := List.append holding [.time, .TSY, .DPI, .LNK, .CAM]) rfl ⟨_, rfl, doRelayFeedbackFault_keeps (hm := rfl) (h := (Keeps.refl _ s))⟩
  | rollbackCommit _ => exact of_parts (l := [.FUS, .CTL]) rfl ⟨_, rfl, doRollbackCommit_keeps (hm := rfl) (h := (Keeps.refl _ s))⟩
  | ctlBringupDoneWrite => exact of_parts (l := List.append posting [.time, .mot, .dose, .ctl, .TSY, .MOT, .THE, .PLC, .CAM, .SAF, .CTL]) rfl ⟨_, rfl, doCtlBringupDoneWrite_keeps (hm := rfl) (h := (Keeps.refl _ s))⟩
  | ctlHoldReq => exact of_parts (l := List.append holding [.time, .TSY, .DPI, .LNK, .CAM]) rfl ⟨_, rfl, holdCause_keeps (hm := rfl) (h := (Keeps.refl _ s))⟩
  | dbgRequest _ => exact of_parts (l := List.append posting [.freeCtr, .ctl, .DBG]) rfl ⟨_, rfl, doDbgRequest_keeps (hm := rfl) (h := (Keeps.refl _ s))⟩
  | dbgResponse _ => exact of_parts (l := List.append posting [.ctl, .DBG]) rfl ⟨_, rfl, doDbgResponse_keeps (hm := rfl) (h := (Keeps.refl _ s))⟩
  | dbgRelock => exact of_parts (l := List.append posting [.DBG]) rfl ⟨_, rfl, doDbgRelock_keeps (hm := rfl) (h := (Keeps.refl _ s))⟩
  | dbgReset => exact of_parts (l := StatePart.all) rfl ⟨_, rfl, doDbgReset_keeps (hm := rfl) (h := (Keeps.refl _ s))⟩
  | headReauth => exact of_parts (l := [.out, .freeCtr, .head, .HSV]) rfl ⟨_, rfl, ite_keeps (Keeps.refl _ s) (startAuth_keeps (hm := rfl) (h := (Keeps.refl _ s)))⟩
  | headAuthComplete _ _ => exact of_parts (l := List.append holding [.freeCtr, .time, .head, .TSY, .DPI, .LNK, .CAM, .HSV]) rfl ⟨_, rfl, doHeadAuthComplete_keeps (hm := rfl) (h := (Keeps.refl _ s))⟩
  | headIdentityPoll _ => exact of_parts (l := List.append holding [.freeCtr, .time, .head, .TSY, .DPI, .LNK, .CAM, .HSV]) rfl ⟨_, rfl, doHeadIdentityPoll_keeps (hm := rfl) (h := (Keeps.refl _ s))⟩
  | usageMerge => exact of_parts (l := List.append posting [.head, .HSV]) rfl ⟨_, rfl, mergeUsage_keeps (hm := rfl) (h := (Keeps.refl _ s))⟩
  | hsvFlush _ => exact of_parts (l := List.append posting [.freeCtr, .head, .HSV]) rfl ⟨_, rfl, doHsvFlush_keeps (hm := rfl) (h := (Keeps.refl _ s))⟩
  | hsvUsageDiscard _ => exact of_parts (l := [.head, .HSV]) rfl ⟨_, rfl, doHsvUsageDiscard_keeps (hm := rfl) (h := (Keeps.refl _ s))⟩
  | ioOutputFault _ _ _ _ => exact of_parts (l := List.append posting [.time, .MOT, .PIN]) rfl ⟨_, rfl, doIoOutputFault_keeps (hm := rfl) (h := (Keeps.refl _ s))⟩
  | pinFaultClear _ _ => exact of_parts (l := [.out, .time, .ctl, .MOT, .PIN]) rfl ⟨_, rfl, doPinFaultClear_keeps (hm := rfl) (h := (Keeps.refl _ s))⟩
  | ioSupplyAccept _ _ => exact of_parts (l := List.append holding [.time, .TSY, .DPI, .LNK, .CAM, .PIN]) rfl ⟨_, rfl, doIoSupplyAccept_keeps (hm := rfl) (h := (Keeps.refl _ s))⟩
  | ioSupplyLoss _ _ => exact of_parts (l := List.append holding [.time, .TSY, .DPI, .LNK, .CAM, .PIN]) rfl ⟨_, rfl, doIoSupplyLoss_keeps (hm := rfl) (h := (Keeps.refl _ s))⟩
  | coolantWindow _ => exact of_parts (l := [.ctl, .PIN]) rfl ⟨_, rfl, doCoolantWindow_keeps (hm := rfl) (h := (Keeps.refl _ s))⟩
  | coolantChange _ => exact of_parts (l := List.append holding [.time, .TSY, .DPI, .LNK, .CAM]) rfl ⟨_, rfl, doCoolantChange_keeps (hm := rfl) (h := (Keeps.refl _ s))⟩
  | gpinEdgeAccept _ _ => exact of_parts (l := List.append posting [.ctl, .PIN]) rfl ⟨_, rfl, doGpinEdgeAccept_keeps (hm := rfl) (h := (Keeps.refl _ s))⟩
  | pinOutWrite _ => exact of_parts (l := [.ctl, .PIN]) rfl ⟨_, rfl, doPinOutWrite_keeps (hm := rfl) (h := (Keeps.refl _ s))⟩
  | evtPendingClear _ _ => exact of_parts (l := [.EVT]) rfl ⟨_, rfl, doEvtPendingClear_keeps (hm := rfl) (h := (Keeps.refl _ s))⟩
  | vectorHoldoffExpiry _ => exact of_parts (l := [.out, .host, .evt, .EVT]) rfl ⟨_, rfl, doVectorHoldoffExpiry_keeps (hm := rfl) (h := (Keeps.refl _ s))⟩
  | msixUnmask _ => exact of_parts (l := [.out, .host, .evt, .EVT]) rfl ⟨_, rfl, doMsixUnmask_keeps (hm := rfl) (h := (Keeps.refl _ s))⟩
  | fastExitTimeout _ => exact of_parts (l := List.append posting [.freeCtr, .mot, .dose, .PLC, .LNK]) rfl ⟨_, rfl, ite_keeps (startRetrain_keeps (hm := rfl) (h := (Keeps.refl _ s))) (Keeps.refl _ s)⟩
  | returnBlockInvalid _ _ _ _ => exact of_parts (l := List.append posting [.freeCtr, .mot, .dose, .PLC, .LNK]) rfl ⟨_, rfl, doReturnBlockInvalid_keeps (hm := rfl) (h := (Keeps.refl _ s))⟩
  | coreHalt _ => exact of_parts (l := StatePart.all) rfl ⟨_, rfl, doCoreHalt_keeps (hm := rfl) (h := (Keeps.refl _ s))⟩
  | sfpCageFaultClear _ => exact of_parts (l := List.append posting [.time, .TSY]) rfl ⟨_, rfl, doSfpCageFaultClear_keeps (hm := rfl) (h := (Keeps.refl _ s))⟩
  | ppsOutputPulseStart => exact of_parts (l := [.out, .time]) rfl ⟨_, rfl, doPpsOutputPulseStart_keeps (hm := rfl) (h := (Keeps.refl _ s))⟩
  | ppsOutputPulseEnd => exact of_parts (l := [.out, .time]) rfl ⟨_, rfl, doPpsOutputPulseEnd_keeps (hm := rfl) (h := (Keeps.refl _ s))⟩

theorem exec_next_keeps {c : Instr} {s t : State} (h : exec c s = .next t) :
    Keeps (partMask (mayChange c) ||| 9261654832710680576) s t := by
  obtain ⟨u, hu, k⟩ := exec_keeps c s
  rw [hu] at h
  cases h
  exact k

end Sys2Proof.Laws
end

