-- ==== Sys2Proof/Laws/Links.lean ====
section
/-! SUPPORT. What sending blocks on a port can do: it changes what leaves the module and the ports' outbound lanes, and nothing else
(R233 to R240, R252). -/

namespace Sys2Proof.Laws
open Sys2Proof Sys2Proof.Machine

/-- `t` is `s` after blocks have left: what left before has, the ports keep all but their outbound lanes, and the rest stands. -/
structure SendsOnly (s t : State) : Prop where
  rest : t = { s with out := t.out, dose := { s.dose with ports := t.dose.ports } }
  port : ∀ q, portOf t q = { portOf s q with tx := (portOf t q).tx }
  out : ∃ l, t.out = l ++ s.out

theorem SendsOnly.refl (s : State) : SendsOnly s s := ⟨rfl, fun _ => rfl, [], rfl⟩
theorem SendsOnly.trans {s t u : State} (h : SendsOnly s t) (k : SendsOnly t u) : SendsOnly s u where
  rest := by
    rw [k.rest, h.rest]
  port q := by rw [k.port q, h.port q]
  out := by
    obtain ⟨a, ha⟩ := h.out
    obtain ⟨b, hb⟩ := k.out
    exact ⟨b ++ a, by rw [hb, ha, List.append_assoc]⟩
theorem SendsOnly.regs {s t : State} (h : SendsOnly s t) : t.regs = s.regs := by rw [h.rest]
theorem SendsOnly.rd {s t : State} (h : SendsOnly s t) (r : RegInfo) (i : Nat) : Machine.rd r t i = Machine.rd r s i := by
  unfold Machine.rd
  rw [h.regs]
theorem SendsOnly.passes {s t : State} (h : SendsOnly s t) : t.dose.passes = s.dose.passes := by rw [h.rest]
theorem SendsOnly.mem {s t : State} (h : SendsOnly s t) : t.mem = s.mem := by rw [h.rest]
theorem SendsOnly.mot {s t : State} (h : SendsOnly s t) : t.mot = s.mot := by rw [h.rest]
theorem SendsOnly.time {s t : State} (h : SendsOnly s t) : t.time = s.time := by rw [h.rest]
theorem SendsOnly.stays {s t : State} (h : SendsOnly s t) {o : Out} (m : o ∈ s.out) : o ∈ t.out := by
  obtain ⟨l, e⟩ := h.out
  rw [e]
  exact List.mem_append_right _ m
theorem emit_sends (o : Out) (s : State) : SendsOnly s (emit o s) := ⟨rfl, fun _ => rfl, [o], rfl⟩
theorem modTx_sends (p : Nat) (f : PortTx → PortTx) (s : State) : SendsOnly s (modTx p f s) where
  rest := rfl
  port q := by
    unfold modTx
    by_cases h : q = p
    · rw [h, portOf_modPort]
    · rw [portOf_modPort_ne h]
  out := ⟨[], rfl⟩
theorem each_sends {α : Type} (f : α → State → State) (h : ∀ a s, SendsOnly s (f a s)) (l : List α) (s : State) : SendsOnly s (each l f s) := by
  induction l generalizing s with
  | nil => exact .refl s
  | cons a l ih => exact (h a s).trans (ih (f a s))
theorem laneSend_sends (p k : Nat) (scr ctrl : Bool) (payload : List Byte) (s : State) : SendsOnly s (laneSend p k scr ctrl payload s) :=
  (modTx_sends p _ s).trans (emit_sends _ _)
theorem sendAlign_sends (p : Nat) (s : State) : SendsOnly s (sendAlign p s) := by
  unfold sendAlign
  exact (each_sends _ (fun k s => (laneSend_sends p k false true _ s).trans (modTx_sends ..)) _ s).trans (modTx_sends ..)
/-- Sending a block only sends. -/
theorem sendStream_sends (p type payload : Nat) (s : State) : SendsOnly s (sendStream p type payload s) := by
  unfold sendStream
  extract_lets n k s1 s2
  have h : SendsOnly s s2 := ((emit_sends _ s).trans (laneSend_sends ..)).trans (modTx_sends ..)
  split
  · exact .refl s
  · split
    · exact h.trans (sendAlign_sends ..)
    · exact h
theorem sendBlock_sends (p type : Nat) (fields : List (Nat × Nat × Int)) (s : State) : SendsOnly s (sendBlock p type fields s) :=
  sendStream_sends ..
theorem beginStream_sends (p : Nat) (s : State) : SendsOnly s (beginStream p s) := (sendAlign_sends p s).trans (modTx_sends ..)

end Sys2Proof.Laws
end

