-- ==== Sys2Proof/Laws/Memory.lean ====
section
/-! SUPPORT. What a byte table reads as after bytes are put into it, and what a write to DRAM stores. -/

namespace Sys2Proof.Laws
open Sys2Proof Sys2Proof.Machine

/-- A byte outside the bytes that are put reads as before. -/
theorem tget?_putBytes_out : ∀ (bs : List Byte) (m : Table Byte) (a k : Nat), k < a ∨ a + bs.length ≤ k →
    tget? (putBytes m a bs) k = tget? m k
  | [], _, _, _, _ => rfl
  | b :: r, m, a, k, h => by
    unfold putBytes
    rw [List.length_cons] at h
    rw [tget?_putBytes_out r _ _ _ (by omega), tget?_tset, if_neg (by omega)]
/-- A byte among those that are put reads as put. -/
theorem tget?_putBytes_in : ∀ (bs : List Byte) (m : Table Byte) (a i : Nat), i < bs.length →
    tget? (putBytes m a bs) (a + i) = bs[i]?
  | [], _, _, _, h => absurd h (Nat.not_lt_zero _)
  | b :: r, m, a, 0, _ => by
    unfold putBytes
    rw [tget?_putBytes_out r _ _ _ (by omega), tget?_tset, if_pos (Nat.add_zero a)]
    rfl
  | b :: r, m, a, i + 1, h => by
    unfold putBytes
    have e : a + (i + 1) = (a + 1) + i := by omega
    rw [e, tget?_putBytes_in r _ _ _ (by simpa using h)]
    rfl
/-- The bytes of DRAM after a write. -/
theorem writeDram_dram (a : Nat) (bs : List Byte) (s : State) : (writeDram a bs s).mem.dram = putBytes s.mem.dram a bs := by
  unfold writeDram
  dsimp only
  split <;> rfl
/-- A write to DRAM that is in service and inside it stores its bytes, whatever errors its lines hold. -/
theorem memWrite_dram {a : Nat} {bs : List Byte} {q : Nat} {s : State} (h : a + bs.length ≤ dramSize) (hs : dramServes s = true)
    (hc : cmdFailed a bs.length q s = false) : (memWrite a bs q s).mem.dram = putBytes s.mem.dram a bs := by
  unfold memWrite
  rw [if_neg (by omega), hs, hc]
  simp only [Bool.not_true, Bool.false_eq_true, if_false, modMem_get, writeDram_dram]
  congr 1
  refine (each_keeps (m := 26414048870964) (each_keeps (Keeps.refl _ s) fun _ _ h => dramCe_keeps (hm := rfl) (h := h))
    fun _ _ h => logError_keeps (hm := rfl) (h := dramUe_keeps (hm := rfl) (h := h))).same_dram rfl

end Sys2Proof.Laws
end

