-- ==== Sys2Proof/Laws/Modes.lean ====
section
/-! SUPPORT. What entering a mode leaves in CTL_MODE, and what a hold cause does (R20, R26, R28). -/

namespace Sys2Proof.Laws
open Sys2Proof Sys2Proof.Machine

/-- What follows the write of CTL_MODE when a mode is entered touches no register of the mode block but through PIN_OUT. -/
theorem changeMode_rd (new cause : Nat) (transit : Bool) (s : State) (q : RegInfo) (h : regAddr q 0 / 65536 % 32 = 27)
    (h1 : regAddr q 0 ≠ regAddr R.CTL_MODE_TT 0) :
    rd q (changeMode new cause transit s) =
      rd q (wr R.CTL_MODE (setBits 31 1 (b2n transit) (setBits 16 8 cause (setBits 8 3 (modeOf s) (setBits 0 3 new (rd R.CTL_MODE s))))) s) := by
  unfold changeMode
  extract_lets old read v s1 hb sev s2
  have k : Keeps 365356194807691380 s2 (markNewlyRead read (releaseSteps (showCam (showStates (updateBeam 4 (updateEnables s2)))))) :=
    markNewlyRead_keeps (hm := rfl) (h := releaseSteps_keeps (hm := rfl) (h := showCam_keeps (hm := rfl) (h := showStates_keeps (hm := rfl)
      (h := updateBeam_keeps (hm := rfl) (h := updateEnables_keeps (hm := rfl) (h := Keeps.refl _ _))))))
  rw [rd_keeps k (by rw [h]; rfl)]
  unfold s2
  rw [rd_postEvent (by rw [h]; rfl)]
  exact rd_wr_ne h1 _ _
/-- The mode that is entered shows (R20). -/
theorem changeMode_modeOf (new cause : Nat) (transit : Bool) (s : State) : modeOf (changeMode new cause transit s) = new % 8 := by
  unfold modeOf rdf
  show _ = new % 2 ^ 3
  rw [changeMode_rd _ _ _ _ R.CTL_MODE rfl (by decide), rd_wr (by decide), bits_mod (by decide), bits_setBits_low (by decide),
    bits_setBits_low (by decide), bits_setBits_low (by decide), bits_setBits_same]
theorem changeMode_transit (new cause : Nat) (transit : Bool) (s : State) : rdb R.CTL_MODE 31 (changeMode new cause transit s) = transit := by
  unfold rdb
  rw [changeMode_rd _ _ _ _ R.CTL_MODE rfl (by decide), rd_wr (by decide), bit_eq_bits, bits_mod (by decide), bits_setBits_same]
  cases transit <;> rfl
theorem changeMode_cause (new cause : Nat) (transit : Bool) (s : State) :
    rd R.CTL_HOLD_CAUSE (changeMode new cause transit s) = rd R.CTL_HOLD_CAUSE s := by
  rw [changeMode_rd _ _ _ _ R.CTL_HOLD_CAUSE rfl (by decide), rd_wr_ne (by decide)]

/-- With no time step that waits for the end of a pass, the entry leaves the axes, time, DRAM and the dose path's own state (R420). -/
theorem changeMode_mot (new cause : Nat) (transit : Bool) {s : State} (h1 : s.time.pendServo = none) (h2 : s.time.pendHost = []) :
    (changeMode new cause transit s).mot = s.mot ∧ (changeMode new cause transit s).time = s.time ∧
      (changeMode new cause transit s).dose = s.dose := by
  unfold changeMode
  extract_lets old read v s1 hb sev s2
  have k : Keeps 365355645051871284 s2 (showCam (showStates (updateBeam 4 (updateEnables s2)))) :=
    showCam_keeps (hm := rfl) (h := showStates_keeps (hm := rfl) (h := updateBeam_keeps (hm := rfl) (h := updateEnables_keeps (hm := rfl) (h := Keeps.refl _ _))))
  have e2 : s2.time = s.time := postEvent_time ..
  have em : s2.mot = s.mot := postEvent_mot ..
  have ed : s2.dose = s.dose := postEvent_dose ..
  generalize showCam (showStates (updateBeam 4 (updateEnables s2))) = u at k
  have et : u.time = s.time := (k.same_time rfl).trans e2
  have er : releaseSteps u = u := by
    unfold releaseSteps
    rw [et, h1, h2, if_neg (by simp)]
  rw [er]
  have kr : Keeps 16 u (markNewlyRead read u) := markNewlyRead_keeps (hm := rfl) (h := Keeps.refl _ _)
  exact ⟨(kr.same_mot rfl).trans ((k.same_mot rfl).trans em), (kr.same_time rfl).trans et, (kr.same_dose rfl).trans ((k.same_dose rfl).trans ed)⟩

/-- What the cut of a pass and the stop of the axes at an entry to HOLD may change (R28). -/
theorem enterHold_rd (n : Nat) (s : State) (q : RegInfo) (h : regAddr q 0 / 65536 % 32 = 27) :
    ∃ u, rd q (enterHold n s) = rd q (changeMode 6 (0x20 + lowestCause u) true u) ∧ rd q u = rd q s ∧ modeOf u = modeOf s := by
  unfold enterHold
  extract_lets s1 s2 s3 s4 s5 tripped s7 s8
  have k1 : Keeps (163208790068 ||| 8192) s s2 := abandonRun_keeps (hm := rfl) (h := modCtl_keeps (hm := rfl) (h := Keeps.refl _ _))
  refine ⟨s2, ?_, rd_keeps k1 (by rw [h]; rfl), ?_⟩
  · have k1 : Keeps 320038173801453620 s3 s5 := modPlc_keeps (hm := rfl) (h := cutPass_keeps (hm := rfl) (h := Keeps.refl _ _))
    have k2 : Keeps 320038173801453620 s3 s7 := by
      unfold s7
      split
      · exact recallAll_keeps (hm := rfl) (h := k1)
      · exact k1
    have k2 : Keeps 320038173801453620 s3 (each [0, 1, 2, 3, 4, 5] (fun a s => if a < 2 then flushQueue a 4 s else stopAndFlush a 1 s) s8) := by
      refine each_keeps (stopPlacement_keeps (hm := rfl) (h := k2)) ?_
      intro a u hu
      split
      · exact flushQueue_keeps (hm := rfl) (h := hu)
      · exact stopAndFlush_keeps (hm := rfl) (h := hu)
    rw [rd_keeps k2 (by rw [h]; rfl)]
  · unfold modeOf rdf
    rw [rd_keeps k1 rfl]

/-- A hold cause from a mode in which it holds: HOLD is entered, in transition, with the cause set (R26, R28). -/
theorem holdCause_enters {n : Nat} {s : State} (hn : n < 32) (hm : modeOf s = 3 ∨ modeOf s = 4 ∨ modeOf s = 5 ∨ modeOf s = 7) :
    modeOf (holdCause n s) = 6 ∧ rdb R.CTL_MODE 31 (holdCause n s) = true ∧ rdb R.CTL_HOLD_CAUSE n (holdCause n s) = true := by
  unfold holdCause
  extract_lets m s1 s2
  rw [if_neg (by omega), if_pos hm]
  have e2 : ∀ q : RegInfo, regAddr q 0 / 65536 % 32 = 27 → rd q s2 = rd q s1 := by
    intro q h
    unfold s2
    split
    · rfl
    · exact rd_keeps (finish_keeps (m := 25769812020) (hm := rfl) (h := modCtl_keeps (hm := rfl) (h := Keeps.refl _ _))) (by rw [h]; rfl)
  have ec : rdb R.CTL_HOLD_CAUSE n s1 = true := rdb_wrb (by decide) (by simp [R.CTL_HOLD_CAUSE]; omega) _ _ _
  have em := enterHold_rd n s2 R.CTL_MODE rfl
  have eh := enterHold_rd n s2 R.CTL_HOLD_CAUSE rfl
  obtain ⟨u, hu, _, _⟩ := em
  obtain ⟨w, hw, hw2, _⟩ := eh
  refine ⟨?_, ?_, ?_⟩
  · unfold modeOf rdf; rw [hu]; exact changeMode_modeOf 6 _ true u
  · unfold rdb; rw [hu]; exact changeMode_transit 6 _ true u
  · unfold rdb; rw [hw, changeMode_cause, hw2, e2 _ rfl]; exact ec
/-- A hold cause in HOLD or below READY, but one that moves out of place (0, 1, 6), only shows in CTL_HOLD_CAUSE (R26). -/
theorem holdCause_sets {n : Nat} {s : State} (hn : 2 ≤ n ∧ n ≠ 6) (hm : modeOf s = 1 ∨ modeOf s = 2 ∨ modeOf s = 6) :
    holdCause n s = wrb R.CTL_HOLD_CAUSE n true s := by
  unfold holdCause
  extract_lets m s1 s2
  rw [if_neg (show ¬ m = 0 by omega), if_neg (show ¬ (m = 3 ∨ m = 4 ∨ m = 5 ∨ m = 7) by omega),
    if_neg (show ¬ (m = 6 ∧ (n = 0 ∨ n = 1 ∨ n = 6)) by omega)]
end Sys2Proof.Laws
end

