-- ==== Sys2Proof/Laws/PerInstr.lean ====
section
/-! SUPPORT. The family Shape: every numbered thing that a well-formed command names is one that the module has. -/

namespace Sys2Proof.Laws.Shape

/-- The numbered things that a command names, each beside how many of them the module has: 32 rings (R51), 16 address spaces
(R78), 6 axes (R293), 4 ports (R229), 4 camera positions and 16 contexts (R324), and so on. -/
def named : Instr → List (Nat × Nat)
  | .registerWrite _ _ _ _ | .regWriteLowHalf _ _ | .regWriteHighHalf _ _ _ | .regReadLowHalf _ | .rcRead _ _ | .ttWrap
  | .holdStandstill _ | .holdCauseClear _ _ | .readyEntryAtRest | .bringupDoneTimeout | .busMasterEnableClear
  | .busMasterEnableSet | .pcieLinkDown | .pcieLinkChange _ _ | .pcieHotReset | .pcieError _ _ _
  | .hifApertureBaseWrite _ | .apertureRead _ _ | .apertureWrite _ _ | .hifNudge _ | .doorbellPoll _ | .tlbInvalAll
  | .tlbInvalDone | .hostDmaChannelGrant _ | .swathExecutionStart _ | .groupDecode | .intakeStartWaitExpiry
  | .stepInputEdge _ _ | .layerBoundary _ | .lineWindowEntry _ _ _ | .mapSlotFillDone _ | .theEnable _
  | .assimMapApply _ | .frameBuild _ _ | .bankSwapCancel | .anchorLatch | .turnEntry | .turnDwellExpiry | .ax1Settle
  | .runupStart | .exposeEntry | .mendLogDiscard _ | .motionLinkFrame | .csiLinePacket _ | .camLineProcess _
  | .camPwrCtrlWrite _ | .dramRefresh | .dramTempPoll _ | .srIdleEntry | .srEntryComplete | .arbGrantEnd _
  | .arbSlotAdvance | .arbBankSwitch _ | .memcRankMapWrite _ | .mapLock | .rankRetire _ | .rankMigrateDone
  | .patrolScrubRead _ _ | .eccLogClear _ | .eccInjectArm _ | .udmaAppend _ | .servoSample _ | .servoNoSample
  | .holdoverExpiry | .timeSourceChange _ | .ppsInputEdge | .ppsMissing | .wideTimeRead | .powerUp _ _ _
  | .mainsHalfCycle _ _ | .mainsLoss | .supplyWarn _ _ | .supplyWarnExit _ _ | .supplyRecover _ _ | .supplyHoldExpiry
  | .brownoutAssert _ _ | .brownoutRelease _ _ _ | .dormantEntry | .resetRelease _ _ | .resetPinPulse | .resetPinHold
  | .watchdogKick | .watchdogHalf | .watchdogExpiry | .rstCmd _ | .rstBlock _ | .thermtrip | .thermtripCool _
  | .backupCellCheck _ | .fuseLoadAttempt _ | .bezelResetRelease _ | .standingRequest | .thmReq _ _
  | .thmConversionDone _ _ _ | .thmCalRun _ | .calItemDone _ _ | .safLock | .envelopeCheck _ | .estopDiscrepancy
  | .estopStopTimeout | .beamPermitChange _ | .relayFeedbackFault _ | .rollbackCommit _ | .ctlBringupDoneWrite
  | .ctlHoldReq | .dbgRequest _ | .dbgResponse _ | .dbgRelock | .dbgReset | .headReauth | .headAuthComplete _ _
  | .headIdentityPoll _ | .usageMerge | .hsvFlush _ | .hsvUsageDiscard _ | .ioOutputFault _ _ _ _ | .pinFaultClear _ _
  | .ioSupplyAccept _ _ | .ioSupplyLoss _ _ | .coolantWindow _ | .coolantChange _ | .pinOutWrite _ | .coreHalt _
  | .ppsOutputPulseStart | .ppsOutputPulseEnd => []
  | .setMode ring _ _ | .ringEnable ring _ | .ringDisable ring | .ringDisableDone ring | .ringReset ring
  | .ringResumeRetry ring _ | .ringResumeSkip ring | .ringResumeAbort ring _ | .eventRingSpacePoll ring _
  | .hostDmaBreakPoint ring _ | .hostDmaTransferDone ring _ | .hello ring _ | .loadContext ring _
  | .loadBeamTable ring _ | .setGeometry ring _ | .resumeRing ring _ _ _ | .home ring _ | .move ring _
  | .calRequest ring _ | .loadFirmware ring _ | .policySet ring _ | .readLog ring _ | .camProgram ring _
  | .timeCtrlSet ring _ | .timeCtrlStep ring _ | .timeCtrlSource ring _ | .timeCtrlIncrement ring _
  | .timeCtrlCompare ring _ | .timeCtrlRead ring _ | .layerBegin ring _ | .swath ring _ _ | .layerEnd ring _
  | .mendPass ring _ _ | .crcJob ring _ | .compress ring _ | .decompress ring _ | .fill ring _ | .copy ring _
  | .scrub ring _ | .utilityJobDone ring _ | .uploadBuffer ring _ => [(ring, 32)]
  | .tlbInvalSpace asid | .tlbInvalPage asid => [(asid, 16)]
  | .uploadBufferTimeout stream => [(stream, 8)]
  | .positionSample axis _ _ | .moveComplete axis | .runHoldExpiry axis | .motStop axis | .motFlush axis
  | .motDeclareHomed axis | .motClearHomed axis | .motFaultClear axis _ _ | .motSourceChange axis _
  | .standstillDelayExpiry axis | .motionLinkRetest axis _ | .encoderFault axis _ _ | .switchClassify axis _ _ _ => [(axis, 6)]
  | .beamTableWindowWrite bank _ _ => [(bank, 2)]
  | .frameSend port _ _ | .frameLate port _ _ | .linkDetectPoll port _ _ _ | .returnClockLock port _
  | .linkTrainTimeout port | .linkRetryDelay port | .capabilityRx port _ | .tickReplyRx port _ _ _ _
  | .tickCheckTimer port | .returnIdleRx port _ | .ackBlockRx port _ _ | .telemetryRx port _
  | .fastRetrainTimeout port _ | .linkRetrainRequest port | .linkEnableWrite port _ | .linkIdleEntry port
  | .ackTimeout port _ | .ackDeferEnd port | .linkClockStopTimeout port _ | .enableFeedbackFault port _
  | .fastExitTimeout port => [(port, 4)]
  | .trainBlockRx port lane _ _ _ | .alignBlockRx port lane _ _ | .laneLockLoss port lane _
  | .returnBlockInvalid port lane _ _ => [(port, 4), (lane, 8)]
  | .switchRawEdge axis input _ | .switchDebounceAccept axis input => [(axis, 6), (input, 3)]
  | .csiFrameStart port vc | .csiFrameEnd port vc => [(port, 4), (vc, 4)]
  | .camFrameTimeout context | .positionWaitTimeout context | .camCommit context | .camCtxEnable context _
  | .camCtxDisable context | .camBufferRelease context _ => [(context, 16)]
  | .camTrigSw position _ | .triggerPulseEnd position | .camBusCmd position _ | .camBusTransactionDone position _ _
  | .camPowerFault position _ _ => [(position, 4)]
  | .arbRequest requester _ | .dramReadComplete requester _ _ _ _ | .dramCmdAlert requester _ _ _ _ _ => [(requester, 10)]
  | .arbWaitBreak waiter => [(waiter, 10)]
  | .sramScrub region _ _ => [(region, 8)]
  | .dramTrainingDone channel _ _ _ => [(channel, 4)]
  | .udmaStart channel | .udmaStop channel _ _ | .udmaDescriptorDone channel _ | .udmaPaceResume channel _ => [(channel, 16)]
  | .crcStart unit | .crcLoadInit unit | .crcStop unit _ | .crcUnitDone unit => [(unit, 4)]
  | .timeCompareFire c | .timeCompareArm c _ => [(c, 4)]
  | .ptpMessageRx port _ _ _ _ _ | .ptpMessageTx port _ _ _ _ | .sfpCageFault port _ | .sfpFaultClearDelay port
  | .sfpCageFaultClear port => [(port, 2)]
  | .railFault rail _ _ => [(rail, 10)]
  | .resetAssert source => [(source, 10)]
  | .estopOpen channel | .estopClose channel | .estopTestPulse channel _ => [(channel, 2)]
  | .gpinEdgeAccept input _ => [(input, 8)]
  | .evtPendingClear w _ => [(w, 8)]
  | .vectorHoldoffExpiry v | .msixUnmask v => [(v, 64)]

/-- Every numbered thing that the command names is one of those the module has, where the command is well formed. -/
def Statement (i : Instr) : Prop := i.wellFormed = true → ∀ p ∈ named i, p.1 < p.2

theorem of_nil {h : Prop} : h → ∀ p ∈ ([] : List (Nat × Nat)), p.1 < p.2 := fun _ _ hp => nomatch hp
theorem of_one {a n : Nat} (h : decide (a < n) = true) : ∀ p ∈ [(a, n)], p.1 < p.2 := fun _ hp => by
  rw [List.mem_singleton.1 hp]
  exact of_decide_eq_true h
theorem of_front {a n : Nat} {b : Bool} (h : (decide (a < n) && b) = true) : ∀ p ∈ [(a, n)], p.1 < p.2 := of_one (Bool.and_eq_true_iff.1 h).1
theorem of_two {a b n m : Nat} (h : (decide (a < n) && decide (b < m)) = true) : ∀ p ∈ [(a, n), (b, m)], p.1 < p.2 := fun p hp => by
  rcases List.mem_cons.1 hp with rfl | hp
  · exact of_decide_eq_true (Bool.and_eq_true_iff.1 h).1
  · exact of_one (Bool.and_eq_true_iff.1 h).2 p hp
theorem of_front_two {a b n m : Nat} {c : Bool} (h : (decide (a < n) && decide (b < m) && c) = true) : ∀ p ∈ [(a, n), (b, m)], p.1 < p.2 :=
  of_two (Bool.and_eq_true_iff.1 h).1

theorem registerWrite (x0 : Bool) (x1 : Nat) (x2 : Nat) (x3 : Word) : Statement (.registerWrite x0 x1 x2 x3) := of_nil
theorem regWriteLowHalf (x0 : Nat) (x1 : Word32) : Statement (.regWriteLowHalf x0 x1) := of_nil
theorem regWriteHighHalf (x0 : Bool) (x1 : Nat) (x2 : Word32) : Statement (.regWriteHighHalf x0 x1 x2) := of_nil
theorem regReadLowHalf (x0 : Nat) : Statement (.regReadLowHalf x0) := of_nil
theorem rcRead (x0 : Nat) (x1 : Nat) : Statement (.rcRead x0 x1) := of_nil
theorem ttWrap : Statement .ttWrap := of_nil
theorem holdStandstill (x0 : UsageIn) : Statement (.holdStandstill x0) := of_nil
theorem holdCauseClear (x0 : Bool) (x1 : Word32) : Statement (.holdCauseClear x0 x1) := of_nil
theorem readyEntryAtRest : Statement .readyEntryAtRest := of_nil
theorem bringupDoneTimeout : Statement .bringupDoneTimeout := of_nil
theorem busMasterEnableClear : Statement .busMasterEnableClear := of_nil
theorem busMasterEnableSet : Statement .busMasterEnableSet := of_nil
theorem pcieLinkDown : Statement .pcieLinkDown := of_nil
theorem pcieLinkChange (x0 : Nat) (x1 : Nat) : Statement (.pcieLinkChange x0 x1) := of_nil
theorem pcieHotReset : Statement .pcieHotReset := of_nil
theorem pcieError (x0 : Word32) (x1 : Word32) (x2 : Option Nat) : Statement (.pcieError x0 x1 x2) := of_nil
theorem hifApertureBaseWrite (x0 : Word) : Statement (.hifApertureBaseWrite x0) := of_nil
theorem apertureRead (x0 : Nat) (x1 : Nat) : Statement (.apertureRead x0 x1) := of_nil
theorem apertureWrite (x0 : Nat) (x1 : List Byte) : Statement (.apertureWrite x0 x1) := of_nil
theorem hifNudge (x0 : List DoorbellRead) : Statement (.hifNudge x0) := of_nil
theorem doorbellPoll (x0 : DoorbellRead) : Statement (.doorbellPoll x0) := of_nil
theorem tlbInvalAll : Statement .tlbInvalAll := of_nil
theorem tlbInvalDone : Statement .tlbInvalDone := of_nil
theorem hostDmaChannelGrant (x0 : WalkReads) : Statement (.hostDmaChannelGrant x0) := of_nil
theorem swathExecutionStart (x0 : List Nat) : Statement (.swathExecutionStart x0) := of_nil
theorem groupDecode : Statement .groupDecode := of_nil
theorem intakeStartWaitExpiry : Statement .intakeStartWaitExpiry := of_nil
theorem stepInputEdge (x0 : Bool) (x1 : Bool) : Statement (.stepInputEdge x0 x1) := of_nil
theorem layerBoundary (x0 : UsageIn) : Statement (.layerBoundary x0) := of_nil
theorem lineWindowEntry (x0 : Nat) (x1 : Option Nat) (x2 : List Nat) : Statement (.lineWindowEntry x0 x1 x2) := of_nil
theorem mapSlotFillDone (x0 : UsageIn) : Statement (.mapSlotFillDone x0) := of_nil
theorem theEnable (x0 : Word32) : Statement (.theEnable x0) := of_nil
theorem assimMapApply (x0 : List (Nat × Nat)) : Statement (.assimMapApply x0) := of_nil
theorem frameBuild (x0 : List (Nat × Nat × Nat)) (x1 : List (Nat × Nat)) : Statement (.frameBuild x0 x1) := of_nil
theorem bankSwapCancel : Statement .bankSwapCancel := of_nil
theorem anchorLatch : Statement .anchorLatch := of_nil
theorem turnEntry : Statement .turnEntry := of_nil
theorem turnDwellExpiry : Statement .turnDwellExpiry := of_nil
theorem ax1Settle : Statement .ax1Settle := of_nil
theorem runupStart : Statement .runupStart := of_nil
theorem exposeEntry : Statement .exposeEntry := of_nil
theorem mendLogDiscard (x0 : Word32) : Statement (.mendLogDiscard x0) := of_nil
theorem motionLinkFrame : Statement .motionLinkFrame := of_nil
theorem csiLinePacket (x0 : CsiLine) : Statement (.csiLinePacket x0) := of_nil
theorem camLineProcess (x0 : Nat) : Statement (.camLineProcess x0) := of_nil
theorem camPwrCtrlWrite (x0 : Word32) : Statement (.camPwrCtrlWrite x0) := of_nil
theorem dramRefresh : Statement .dramRefresh := of_nil
theorem dramTempPoll (x0 : Nat) : Statement (.dramTempPoll x0) := of_nil
theorem srIdleEntry : Statement .srIdleEntry := of_nil
theorem srEntryComplete : Statement .srEntryComplete := of_nil
theorem arbGrantEnd (x0 : Option Nat) : Statement (.arbGrantEnd x0) := of_nil
theorem arbSlotAdvance : Statement .arbSlotAdvance := of_nil
theorem arbBankSwitch (x0 : Word32) : Statement (.arbBankSwitch x0) := of_nil
theorem memcRankMapWrite (x0 : Word32) : Statement (.memcRankMapWrite x0) := of_nil
theorem mapLock : Statement .mapLock := of_nil
theorem rankRetire (x0 : Word32) : Statement (.rankRetire x0) := of_nil
theorem rankMigrateDone : Statement .rankMigrateDone := of_nil
theorem patrolScrubRead (x0 : Nat) (x1 : Nat) : Statement (.patrolScrubRead x0 x1) := of_nil
theorem eccLogClear (x0 : Word32) : Statement (.eccLogClear x0) := of_nil
theorem eccInjectArm (x0 : Word32) : Statement (.eccInjectArm x0) := of_nil
theorem udmaAppend (x0 : Word) : Statement (.udmaAppend x0) := of_nil
theorem servoSample (x0 : Word) : Statement (.servoSample x0) := of_nil
theorem servoNoSample : Statement .servoNoSample := of_nil
theorem holdoverExpiry : Statement .holdoverExpiry := of_nil
theorem timeSourceChange (x0 : Word32) : Statement (.timeSourceChange x0) := of_nil
theorem ppsInputEdge : Statement .ppsInputEdge := of_nil
theorem ppsMissing : Statement .ppsMissing := of_nil
theorem wideTimeRead : Statement .wideTimeRead := of_nil
theorem powerUp (x0 : Bool) (x1 : Bool) (x2 : ReleaseIn) : Statement (.powerUp x0 x1 x2) := of_nil
theorem mainsHalfCycle (x0 : Nat) (x1 : Nat) : Statement (.mainsHalfCycle x0 x1) := of_nil
theorem mainsLoss : Statement .mainsLoss := of_nil
theorem supplyWarn (x0 : Nat) (x1 : Nat) : Statement (.supplyWarn x0 x1) := of_nil
theorem supplyWarnExit (x0 : Nat) (x1 : Nat) : Statement (.supplyWarnExit x0 x1) := of_nil
theorem supplyRecover (x0 : Nat) (x1 : Nat) : Statement (.supplyRecover x0 x1) := of_nil
theorem supplyHoldExpiry : Statement .supplyHoldExpiry := of_nil
theorem brownoutAssert (x0 : Nat) (x1 : Nat) : Statement (.brownoutAssert x0 x1) := of_nil
theorem brownoutRelease (x0 : Nat) (x1 : Nat) (x2 : ReleaseIn) : Statement (.brownoutRelease x0 x1 x2) := of_nil
theorem dormantEntry : Statement .dormantEntry := of_nil
theorem resetRelease (x0 : Nat) (x1 : ReleaseIn) : Statement (.resetRelease x0 x1) := of_nil
theorem resetPinPulse : Statement .resetPinPulse := of_nil
theorem resetPinHold : Statement .resetPinHold := of_nil
theorem watchdogKick : Statement .watchdogKick := of_nil
theorem watchdogHalf : Statement .watchdogHalf := of_nil
theorem watchdogExpiry : Statement .watchdogExpiry := of_nil
theorem rstCmd (x0 : Word32) : Statement (.rstCmd x0) := of_nil
theorem rstBlock (x0 : Word32) : Statement (.rstBlock x0) := of_nil
theorem thermtrip : Statement .thermtrip := of_nil
theorem thermtripCool (x0 : ReleaseIn) : Statement (.thermtripCool x0) := of_nil
theorem backupCellCheck (x0 : Nat) : Statement (.backupCellCheck x0) := of_nil
theorem fuseLoadAttempt (x0 : FuseIn) : Statement (.fuseLoadAttempt x0) := of_nil
theorem bezelResetRelease (x0 : ReleaseIn) : Statement (.bezelResetRelease x0) := of_nil
theorem standingRequest : Statement .standingRequest := of_nil
theorem thmReq (x0 : Bool) (x1 : Word32) : Statement (.thmReq x0 x1) := of_nil
theorem thmConversionDone (x0 : Int) (x1 : Nat) (x2 : Nat) : Statement (.thmConversionDone x0 x1 x2) := of_nil
theorem thmCalRun (x0 : Word32) : Statement (.thmCalRun x0) := of_nil
theorem calItemDone (x0 : Bool) (x1 : CalResult) : Statement (.calItemDone x0 x1) := of_nil
theorem safLock : Statement .safLock := of_nil
theorem envelopeCheck (x0 : List Nat) : Statement (.envelopeCheck x0) := of_nil
theorem estopDiscrepancy : Statement .estopDiscrepancy := of_nil
theorem estopStopTimeout : Statement .estopStopTimeout := of_nil
theorem beamPermitChange (x0 : Bool) : Statement (.beamPermitChange x0) := of_nil
theorem relayFeedbackFault (x0 : Bool) : Statement (.relayFeedbackFault x0) := of_nil
theorem rollbackCommit (x0 : Word32) : Statement (.rollbackCommit x0) := of_nil
theorem ctlBringupDoneWrite : Statement .ctlBringupDoneWrite := of_nil
theorem ctlHoldReq : Statement .ctlHoldReq := of_nil
theorem dbgRequest (x0 : Word32) : Statement (.dbgRequest x0) := of_nil
theorem dbgResponse (x0 : Word32) : Statement (.dbgResponse x0) := of_nil
theorem dbgRelock : Statement .dbgRelock := of_nil
theorem dbgReset : Statement .dbgReset := of_nil
theorem headReauth : Statement .headReauth := of_nil
theorem headAuthComplete (x0 : HeadIn) (x1 : UsageIn) : Statement (.headAuthComplete x0 x1) := of_nil
theorem headIdentityPoll (x0 : Option Nat) : Statement (.headIdentityPoll x0) := of_nil
theorem usageMerge : Statement .usageMerge := of_nil
theorem hsvFlush (x0 : UsageIn) : Statement (.hsvFlush x0) := of_nil
theorem hsvUsageDiscard (x0 : Word32) : Statement (.hsvUsageDiscard x0) := of_nil
theorem ioOutputFault (x0 : Nat) (x1 : Nat) (x2 : Nat) (x3 : Nat) : Statement (.ioOutputFault x0 x1 x2 x3) := of_nil
theorem pinFaultClear (x0 : Word32) (x1 : Bool) : Statement (.pinFaultClear x0 x1) := of_nil
theorem ioSupplyAccept (x0 : Nat) (x1 : Nat) : Statement (.ioSupplyAccept x0 x1) := of_nil
theorem ioSupplyLoss (x0 : Nat) (x1 : Nat) : Statement (.ioSupplyLoss x0 x1) := of_nil
theorem coolantWindow (x0 : Nat) : Statement (.coolantWindow x0) := of_nil
theorem coolantChange (x0 : Bool) : Statement (.coolantChange x0) := of_nil
theorem pinOutWrite (x0 : Word32) : Statement (.pinOutWrite x0) := of_nil
theorem coreHalt (x0 : Bool) : Statement (.coreHalt x0) := of_nil
theorem ppsOutputPulseStart : Statement .ppsOutputPulseStart := of_nil
theorem ppsOutputPulseEnd : Statement .ppsOutputPulseEnd := of_nil
theorem setMode (x0 : Nat) (x1 : Desc) (x2 : UsageIn) : Statement (.setMode x0 x1 x2) := fun h => of_one h
theorem ringEnable (x0 : Nat) (x1 : Option Word32) : Statement (.ringEnable x0 x1) := fun h => of_one h
theorem ringDisable (x0 : Nat) : Statement (.ringDisable x0) := fun h => of_one h
theorem ringDisableDone (x0 : Nat) : Statement (.ringDisableDone x0) := fun h => of_one h
theorem ringReset (x0 : Nat) : Statement (.ringReset x0) := fun h => of_one h
theorem ringResumeRetry (x0 : Nat) (x1 : WalkReads) : Statement (.ringResumeRetry x0 x1) := fun h => of_one h
theorem ringResumeSkip (x0 : Nat) : Statement (.ringResumeSkip x0) := fun h => of_one h
theorem ringResumeAbort (x0 : Nat) (x1 : List Desc) : Statement (.ringResumeAbort x0 x1) := fun h => of_one h
theorem eventRingSpacePoll (x0 : Nat) (x1 : Option Word32) : Statement (.eventRingSpacePoll x0 x1) := fun h => of_one h
theorem hostDmaBreakPoint (x0 : Nat) (x1 : WalkReads) : Statement (.hostDmaBreakPoint x0 x1) := fun h => of_one h
theorem hostDmaTransferDone (x0 : Nat) (x1 : List Byte) : Statement (.hostDmaTransferDone x0 x1) := fun h => of_one h
theorem hello (x0 : Nat) (x1 : Desc) : Statement (.hello x0 x1) := fun h => of_one h
theorem loadContext (x0 : Nat) (x1 : Desc) : Statement (.loadContext x0 x1) := fun h => of_one h
theorem loadBeamTable (x0 : Nat) (x1 : Desc) : Statement (.loadBeamTable x0 x1) := fun h => of_one h
theorem setGeometry (x0 : Nat) (x1 : Desc) : Statement (.setGeometry x0 x1) := fun h => of_one h
theorem resumeRing (x0 : Nat) (x1 : Desc) (x2 : WalkReads) (x3 : List Desc) : Statement (.resumeRing x0 x1 x2 x3) := fun h => of_one h
theorem home (x0 : Nat) (x1 : Desc) : Statement (.home x0 x1) := fun h => of_one h
theorem move (x0 : Nat) (x1 : Desc) : Statement (.move x0 x1) := fun h => of_one h
theorem calRequest (x0 : Nat) (x1 : Desc) : Statement (.calRequest x0 x1) := fun h => of_one h
theorem loadFirmware (x0 : Nat) (x1 : Desc) : Statement (.loadFirmware x0 x1) := fun h => of_one h
theorem policySet (x0 : Nat) (x1 : Desc) : Statement (.policySet x0 x1) := fun h => of_one h
theorem readLog (x0 : Nat) (x1 : Desc) : Statement (.readLog x0 x1) := fun h => of_one h
theorem camProgram (x0 : Nat) (x1 : Desc) : Statement (.camProgram x0 x1) := fun h => of_one h
theorem timeCtrlSet (x0 : Nat) (x1 : Desc) : Statement (.timeCtrlSet x0 x1) := fun h => of_one h
theorem timeCtrlStep (x0 : Nat) (x1 : Desc) : Statement (.timeCtrlStep x0 x1) := fun h => of_one h
theorem timeCtrlSource (x0 : Nat) (x1 : Desc) : Statement (.timeCtrlSource x0 x1) := fun h => of_one h
theorem timeCtrlIncrement (x0 : Nat) (x1 : Desc) : Statement (.timeCtrlIncrement x0 x1) := fun h => of_one h
theorem timeCtrlCompare (x0 : Nat) (x1 : Desc) : Statement (.timeCtrlCompare x0 x1) := fun h => of_one h
theorem timeCtrlRead (x0 : Nat) (x1 : Desc) : Statement (.timeCtrlRead x0 x1) := fun h => of_one h
theorem layerBegin (x0 : Nat) (x1 : Desc) : Statement (.layerBegin x0 x1) := fun h => of_one h
theorem swath (x0 : Nat) (x1 : Desc) (x2 : List Byte) : Statement (.swath x0 x1 x2) := fun h => of_one h
theorem layerEnd (x0 : Nat) (x1 : Desc) : Statement (.layerEnd x0 x1) := fun h => of_one h
theorem mendPass (x0 : Nat) (x1 : Desc) (x2 : List Byte) : Statement (.mendPass x0 x1 x2) := fun h => of_one h
theorem crcJob (x0 : Nat) (x1 : Desc) : Statement (.crcJob x0 x1) := fun h => of_one h
theorem compress (x0 : Nat) (x1 : Desc) : Statement (.compress x0 x1) := fun h => of_one h
theorem decompress (x0 : Nat) (x1 : Desc) : Statement (.decompress x0 x1) := fun h => of_one h
theorem fill (x0 : Nat) (x1 : Desc) : Statement (.fill x0 x1) := fun h => of_one h
theorem copy (x0 : Nat) (x1 : Desc) : Statement (.copy x0 x1) := fun h => of_one h
theorem scrub (x0 : Nat) (x1 : Desc) : Statement (.scrub x0 x1) := fun h => of_one h
theorem utilityJobDone (x0 : Nat) (x1 : Nat) : Statement (.utilityJobDone x0 x1) := fun h => of_one h
theorem uploadBuffer (x0 : Nat) (x1 : Desc) : Statement (.uploadBuffer x0 x1) := fun h => of_one h
theorem tlbInvalSpace (x0 : Nat) : Statement (.tlbInvalSpace x0) := fun h => of_one h
theorem tlbInvalPage (x0 : Nat) : Statement (.tlbInvalPage x0) := fun h => of_one h
theorem uploadBufferTimeout (x0 : Nat) : Statement (.uploadBufferTimeout x0) := fun h => of_one h
theorem positionSample (x0 : Nat) (x1 : Bool) (x2 : Bool) : Statement (.positionSample x0 x1 x2) := fun h => of_one h
theorem moveComplete (x0 : Nat) : Statement (.moveComplete x0) := fun h => of_one h
theorem runHoldExpiry (x0 : Nat) : Statement (.runHoldExpiry x0) := fun h => of_one h
theorem motStop (x0 : Nat) : Statement (.motStop x0) := fun h => of_one h
theorem motFlush (x0 : Nat) : Statement (.motFlush x0) := fun h => of_one h
theorem motDeclareHomed (x0 : Nat) : Statement (.motDeclareHomed x0) := fun h => of_one h
theorem motClearHomed (x0 : Nat) : Statement (.motClearHomed x0) := fun h => of_one h
theorem motFaultClear (x0 : Nat) (x1 : Word32) (x2 : Bool) : Statement (.motFaultClear x0 x1 x2) := fun h => of_one h
theorem motSourceChange (x0 : Nat) (x1 : Word32) : Statement (.motSourceChange x0 x1) := fun h => of_one h
theorem standstillDelayExpiry (x0 : Nat) : Statement (.standstillDelayExpiry x0) := fun h => of_one h
theorem motionLinkRetest (x0 : Nat) (x1 : Nat) : Statement (.motionLinkRetest x0 x1) := fun h => of_one h
theorem encoderFault (x0 : Nat) (x1 : Nat) (x2 : Nat) : Statement (.encoderFault x0 x1 x2) := fun h => of_one h
theorem switchClassify (x0 : Nat) (x1 : Nat) (x2 : Nat) (x3 : Nat) : Statement (.switchClassify x0 x1 x2 x3) := fun h => of_one h
theorem beamTableWindowWrite (x0 : Nat) (x1 : Nat) (x2 : Word) : Statement (.beamTableWindowWrite x0 x1 x2) := fun h => of_front h
theorem frameSend (x0 : Nat) (x1 : Nat) (x2 : List (Nat × Nat)) : Statement (.frameSend x0 x1 x2) := fun h => of_one h
theorem frameLate (x0 : Nat) (x1 : Nat) (x2 : List (Nat × Nat)) : Statement (.frameLate x0 x1 x2) := fun h => of_one h
theorem linkDetectPoll (x0 : Nat) (x1 : Bool) (x2 : Nat) (x3 : Nat) : Statement (.linkDetectPoll x0 x1 x2 x3) := fun h => of_one h
theorem returnClockLock (x0 : Nat) (x1 : Nat) : Statement (.returnClockLock x0 x1) := fun h => of_one h
theorem linkTrainTimeout (x0 : Nat) : Statement (.linkTrainTimeout x0) := fun h => of_one h
theorem linkRetryDelay (x0 : Nat) : Statement (.linkRetryDelay x0) := fun h => of_one h
theorem capabilityRx (x0 : Nat) (x1 : List Byte) : Statement (.capabilityRx x0 x1) := fun h => of_front h
theorem tickReplyRx (x0 : Nat) (x1 : Nat) (x2 : Nat) (x3 : Nat) (x4 : Nat) : Statement (.tickReplyRx x0 x1 x2 x3 x4) := fun h => of_one h
theorem tickCheckTimer (x0 : Nat) : Statement (.tickCheckTimer x0) := fun h => of_one h
theorem returnIdleRx (x0 : Nat) (x1 : Nat) : Statement (.returnIdleRx x0 x1) := fun h => of_one h
theorem ackBlockRx (x0 : Nat) (x1 : List AckRec) (x2 : List (Nat × Nat)) : Statement (.ackBlockRx x0 x1 x2) := fun h => of_one h
theorem telemetryRx (x0 : Nat) (x1 : List Byte) : Statement (.telemetryRx x0 x1) := fun h => of_front h
theorem fastRetrainTimeout (x0 : Nat) (x1 : List (Nat × Nat)) : Statement (.fastRetrainTimeout x0 x1) := fun h => of_one h
theorem linkRetrainRequest (x0 : Nat) : Statement (.linkRetrainRequest x0) := fun h => of_one h
theorem linkEnableWrite (x0 : Nat) (x1 : Bool) : Statement (.linkEnableWrite x0 x1) := fun h => of_one h
theorem linkIdleEntry (x0 : Nat) : Statement (.linkIdleEntry x0) := fun h => of_one h
theorem ackTimeout (x0 : Nat) (x1 : List (Nat × Nat)) : Statement (.ackTimeout x0 x1) := fun h => of_one h
theorem ackDeferEnd (x0 : Nat) : Statement (.ackDeferEnd x0) := fun h => of_one h
theorem linkClockStopTimeout (x0 : Nat) (x1 : List (Nat × Nat)) : Statement (.linkClockStopTimeout x0 x1) := fun h => of_one h
theorem enableFeedbackFault (x0 : Nat) (x1 : Bool) : Statement (.enableFeedbackFault x0 x1) := fun h => of_one h
theorem fastExitTimeout (x0 : Nat) : Statement (.fastExitTimeout x0) := fun h => of_one h
theorem trainBlockRx (x0 : Nat) (x1 : Nat) (x2 : List Byte) (x3 : Bool) (x4 : Nat) : Statement (.trainBlockRx x0 x1 x2 x3 x4) := fun h => of_front_two h
theorem alignBlockRx (x0 : Nat) (x1 : Nat) (x2 : Nat) (x3 : Nat) : Statement (.alignBlockRx x0 x1 x2 x3) := fun h => of_two h
theorem laneLockLoss (x0 : Nat) (x1 : Nat) (x2 : Bool) : Statement (.laneLockLoss x0 x1 x2) := fun h => of_two h
theorem returnBlockInvalid (x0 : Nat) (x1 : Nat) (x2 : Nat) (x3 : Nat) : Statement (.returnBlockInvalid x0 x1 x2 x3) := fun h => of_two h
theorem switchRawEdge (x0 : Nat) (x1 : Nat) (x2 : Bool) : Statement (.switchRawEdge x0 x1 x2) := fun h => of_two h
theorem switchDebounceAccept (x0 : Nat) (x1 : Nat) : Statement (.switchDebounceAccept x0 x1) := fun h => of_two h
theorem csiFrameStart (x0 : Nat) (x1 : Nat) : Statement (.csiFrameStart x0 x1) := fun h => of_two h
theorem csiFrameEnd (x0 : Nat) (x1 : Nat) : Statement (.csiFrameEnd x0 x1) := fun h => of_two h
theorem camFrameTimeout (x0 : Nat) : Statement (.camFrameTimeout x0) := fun h => of_one h
theorem positionWaitTimeout (x0 : Nat) : Statement (.positionWaitTimeout x0) := fun h => of_one h
theorem camCommit (x0 : Nat) : Statement (.camCommit x0) := fun h => of_one h
theorem camCtxEnable (x0 : Nat) (x1 : Word32) : Statement (.camCtxEnable x0 x1) := fun h => of_one h
theorem camCtxDisable (x0 : Nat) : Statement (.camCtxDisable x0) := fun h => of_one h
theorem camBufferRelease (x0 : Nat) (x1 : Word32) : Statement (.camBufferRelease x0 x1) := fun h => of_one h
theorem camTrigSw (x0 : Nat) (x1 : Word32) : Statement (.camTrigSw x0 x1) := fun h => of_one h
theorem triggerPulseEnd (x0 : Nat) : Statement (.triggerPulseEnd x0) := fun h => of_one h
theorem camBusCmd (x0 : Nat) (x1 : Word32) : Statement (.camBusCmd x0 x1) := fun h => of_one h
theorem camBusTransactionDone (x0 : Nat) (x1 : Nat) (x2 : List Byte) : Statement (.camBusTransactionDone x0 x1 x2) := fun h => of_one h
theorem camPowerFault (x0 : Nat) (x1 : Nat) (x2 : Nat) : Statement (.camPowerFault x0 x1 x2) := fun h => of_one h
theorem arbRequest (x0 : Nat) (x1 : Bool) : Statement (.arbRequest x0 x1) := fun h => of_one h
theorem dramReadComplete (x0 : Nat) (x1 : Nat) (x2 : Nat) (x3 : Nat) (x4 : Nat) : Statement (.dramReadComplete x0 x1 x2 x3 x4) := fun h => of_one h
theorem dramCmdAlert (x0 : Nat) (x1 : Nat) (x2 : Nat) (x3 : Nat) (x4 : Bool) (x5 : Nat) : Statement (.dramCmdAlert x0 x1 x2 x3 x4 x5) := fun h => of_one h
theorem arbWaitBreak (x0 : Nat) : Statement (.arbWaitBreak x0) := fun h => of_one h
theorem sramScrub (x0 : Nat) (x1 : Nat) (x2 : Nat) : Statement (.sramScrub x0 x1 x2) := fun h => of_one h
theorem dramTrainingDone (x0 : Nat) (x1 : List (Nat × Nat)) (x2 : Bool) (x3 : Nat) : Statement (.dramTrainingDone x0 x1 x2 x3) := fun h => of_one h
theorem udmaStart (x0 : Nat) : Statement (.udmaStart x0) := fun h => of_one h
theorem udmaStop (x0 : Nat) (x1 : Nat) (x2 : Nat) : Statement (.udmaStop x0 x1 x2) := fun h => of_one h
theorem udmaDescriptorDone (x0 : Nat) (x1 : Nat) : Statement (.udmaDescriptorDone x0 x1) := fun h => of_one h
theorem udmaPaceResume (x0 : Nat) (x1 : Nat) : Statement (.udmaPaceResume x0 x1) := fun h => of_one h
theorem crcStart (x0 : Nat) : Statement (.crcStart x0) := fun h => of_one h
theorem crcLoadInit (x0 : Nat) : Statement (.crcLoadInit x0) := fun h => of_one h
theorem crcStop (x0 : Nat) (x1 : Nat) : Statement (.crcStop x0 x1) := fun h => of_one h
theorem crcUnitDone (x0 : Nat) : Statement (.crcUnitDone x0) := fun h => of_one h
theorem timeCompareFire (x0 : Nat) : Statement (.timeCompareFire x0) := fun h => of_one h
theorem timeCompareArm (x0 : Nat) (x1 : Word32) : Statement (.timeCompareArm x0 x1) := fun h => of_one h
theorem ptpMessageRx (x0 : Nat) (x1 : Bool) (x2 : Nat) (x3 : Nat) (x4 : Word) (x5 : Nat) : Statement (.ptpMessageRx x0 x1 x2 x3 x4 x5) := fun h => of_one h
theorem ptpMessageTx (x0 : Nat) (x1 : Nat) (x2 : Nat) (x3 : Word) (x4 : Nat) : Statement (.ptpMessageTx x0 x1 x2 x3 x4) := fun h => of_one h
theorem sfpCageFault (x0 : Nat) (x1 : Nat) : Statement (.sfpCageFault x0 x1) := fun h => of_one h
theorem sfpFaultClearDelay (x0 : Nat) : Statement (.sfpFaultClearDelay x0) := fun h => of_one h
theorem sfpCageFaultClear (x0 : Nat) : Statement (.sfpCageFaultClear x0) := fun h => of_one h
theorem railFault (x0 : Nat) (x1 : Nat) (x2 : Nat) : Statement (.railFault x0 x1 x2) := fun h => of_one h
theorem resetAssert (x0 : Nat) : Statement (.resetAssert x0) := fun h => of_one h
theorem estopOpen (x0 : Nat) : Statement (.estopOpen x0) := fun h => of_one h
theorem estopClose (x0 : Nat) : Statement (.estopClose x0) := fun h => of_one h
theorem estopTestPulse (x0 : Nat) (x1 : Bool) : Statement (.estopTestPulse x0 x1) := fun h => of_one h
theorem gpinEdgeAccept (x0 : Nat) (x1 : Bool) : Statement (.gpinEdgeAccept x0 x1) := fun h => of_one h
theorem evtPendingClear (x0 : Nat) (x1 : Word32) : Statement (.evtPendingClear x0 x1) := fun h => of_one h
theorem vectorHoldoffExpiry (x0 : Nat) : Statement (.vectorHoldoffExpiry x0) := fun h => of_one h
theorem msixUnmask (x0 : Nat) : Statement (.msixUnmask x0) := fun h => of_one h

end Sys2Proof.Laws.Shape
end

