-- ==== Sys2Proof/Laws/Reset.lean ====
section
/-! SUPPORT. What a reset source that asserts leaves (R444, R449, R451, R454). -/

namespace Sys2Proof.Laws
open Sys2Proof Sys2Proof.Machine

theorem doseAtL2_pwr (s : State) : (doseAtL2 s).pwr = s.pwr :=
  (doseAtL2_keeps (m := 18577374232711220) (hm := rfl) (h := Keeps.refl _ s)).same_pwr rfl
theorem supplyAtReset_facts (lvl : Nat) (s : State) :
    (supplyAtReset lvl s).pwr.asserted = s.pwr.asserted ∧ (supplyAtReset lvl s).pwr.episode = s.pwr.episode ∧
      (supplyAtReset lvl s).pwr.mask = s.pwr.mask ∧ (supplyAtReset lvl s).pwr.due = s.pwr.due ∧
      (supplyAtReset lvl s).pwr.railsOff = s.pwr.railsOff ∧ (supplyAtReset lvl s).time = s.time ∧ (supplyAtReset lvl s).dose = s.dose ∧
      (supplyAtReset lvl s).mem = s.mem := by
  unfold supplyAtReset
  split <;> exact ⟨rfl, rfl, rfl, rfl, rfl, rfl, rfl, rfl⟩
/-- A reset of the blocks leaves the sources, the episode and the release that is due. -/
theorem resetBlocks_pwr (lvl : Nat) (s : State) :
    (resetBlocks lvl s).pwr.asserted = s.pwr.asserted ∧ (resetBlocks lvl s).pwr.episode = s.pwr.episode ∧
      (resetBlocks lvl s).pwr.mask = s.pwr.mask ∧ (resetBlocks lvl s).pwr.due = s.pwr.due ∧
      (resetBlocks lvl s).pwr.railsOff = s.pwr.railsOff := by
  unfold resetBlocks
  extract_lets s1 s2 s3 c s5 m hd ct s4
  have e1 : s1.pwr = s.pwr := (doseAtL2_pwr _).trans
    (((thmAtReset_keeps (m := 163208790068) (hm := rfl) (h := Keeps.refl _ _)).same_pwr rfl).trans
      ((camAtReset_keeps (m := 72057619807862844) (hm := rfl) (h := Keeps.refl _ _)).same_pwr rfl))
  have e3 : s3.pwr = s.pwr := ((resetRegsKeep_keeps (m := 18446744069414584320) (hm := rfl) (h := Keeps.refl _ s2)).same_pwr rfl).trans e1
  split
  · have e : (releaseSteps (showOpen (wrb R.MND_STATUS 2 s5.dose.mnd.overflow.isSome (enterSelfRefresh 2 s5)))).pwr = s.pwr :=
      ((releaseSteps_keeps (m := 4504175153002612) (hm := rfl) (h := Keeps.refl _ _)).same_pwr rfl).trans
        (((showOpen_keeps (m := 9007199254740992) (hm := rfl) (h := Keeps.refl _ _)).same_pwr rfl).trans
          (((enterSelfRefresh_keeps (m := 8796093022720) (hm := rfl) (h := Keeps.refl _ s5)).same_pwr rfl).trans e3))
    rw [e]
    exact ⟨rfl, rfl, rfl, rfl, rfl⟩
  · have f := supplyAtReset_facts lvl (if lvl = 0 then s4 else wrf R.MEMC_STATUS 0 3 4 s4)
    have g : (if lvl = 0 then s4 else wrf R.MEMC_STATUS 0 3 4 s4).pwr = s.pwr := by split <;> exact e3
    rw [f.1, f.2.1, f.2.2.1, f.2.2.2.1, f.2.2.2.2.1, g]
    exact ⟨rfl, rfl, rfl, rfl, rfl⟩
theorem resetBlocks_time {lvl : Nat} (h : lvl ≤ 1) (s : State) : (resetBlocks lvl s).time = {} ∧ (resetBlocks lvl s).dose = {} := by
  unfold resetBlocks
  extract_lets s1 s2 s3 c s5 m hd ct s4
  rw [if_neg (by omega)]
  have f := supplyAtReset_facts lvl (if lvl = 0 then s4 else wrf R.MEMC_STATUS 0 3 4 s4)
  refine ⟨f.2.2.2.2.2.1.trans ?_, f.2.2.2.2.2.2.1.trans ?_⟩ <;> split <;> rfl
theorem pinsAtReset_facts (lvl : Nat) (s : State) : (pinsAtReset lvl s).pwr = s.pwr ∧ (pinsAtReset lvl s).time = s.time ∧ (pinsAtReset lvl s).dose = s.dose :=
  have k := pinsAtReset_keeps (m := 4) (hm := rfl) (h := Keeps.refl _ s) (x1 := lvl)
  ⟨k.same_pwr rfl, k.same_time rfl, k.same_dose rfl⟩
theorem updateEnables_facts (s : State) : (updateEnables s).pwr = s.pwr ∧ (updateEnables s).time = s.time ∧ (updateEnables s).dose = s.dose :=
  have k := updateEnables_keeps (m := 1099511627776) (hm := rfl) (h := Keeps.refl _ s)
  ⟨k.same_pwr rfl, k.same_time rfl, k.same_dose rfl⟩
theorem resetBlocks_mem (s : State) : (resetBlocks 0 s).mem = {} := by
  unfold resetBlocks
  extract_lets s1 s2 s3 c s5 m hd ct s4
  rw [if_neg (by omega), if_pos rfl]
  exact (supplyAtReset_facts 0 s4).2.2.2.2.2.2.2
theorem writeRecord_pwr (s : State) : (writeRecord s).pwr = s.pwr :=
  (writeRecord_keeps (m := 34359738368) (hm := rfl) (h := Keeps.refl _ s)).same_pwr rfl
theorem bit_setBit (k : Nat) (v : Nat) : bit k (setBit k true v) = true := by
  rw [bit_eq_bits]
  show (bits k 1 (setBits k 1 1 v) == 1) = true
  rw [bits_setBits_same]
  rfl
/-- A source that asserts joins the asserted ones and the episode; within reach of level 1 the time and the dose path are lost. -/
theorem assertSource_facts {k : Nat} {s : State} (hk : k ≤ 9) (h : s.pwr.asserted.contains k = false) :
    (assertSource k s).pwr.asserted = k :: s.pwr.asserted ∧ (assertSource k s).pwr.episode = true ∧
      bit k (assertSource k s).pwr.mask = true ∧ (assertSource k s).pwr.due.isSome = true ∧
      (assertSource k s).pwr.railsOff = s.pwr.railsOff ∧
      (reachOf k s ≤ 1 → (assertSource k s).time = {} ∧ (assertSource k s).dose = {}) := by
  unfold assertSource
  rw [h]
  extract_lets lvl a1 a2 s1 lo s2 s3 s4 s5 cut s6 s7 s8 s9
  have c1 : ¬ (false = true ∨ k > 9) := by simp; omega
  rw [if_neg c1]
  have p1 : s1.pwr.asserted = s.pwr.asserted ∧ s1.pwr.episode = true ∧ s1.pwr.railsOff = s.pwr.railsOff := by
    unfold s1
    split
    · exact ⟨rfl, by assumption, rfl⟩
    · rw [writeRecord_pwr]; exact ⟨rfl, rfl, rfl⟩
  have p2 : s2.pwr = s1.pwr := by unfold s2; split <;> rfl
  have p3 : s3.pwr.asserted = k :: s.pwr.asserted ∧ s3.pwr.episode = true ∧ bit k s3.pwr.mask = true ∧ s3.pwr.railsOff = s.pwr.railsOff :=
    ⟨by show k :: s2.pwr.asserted = _; rw [p2, p1.1], by show s2.pwr.episode = true; rw [p2]; exact p1.2.1, bit_setBit k _,
      by show s2.pwr.railsOff = _; rw [p2]; exact p1.2.2⟩
  have p5 : s5.pwr = s3.pwr :=
    ((updateBeam_keeps (m := 288230401921523764) (hm := rfl) (h := Keeps.refl _ s4)).same_pwr rfl).trans
      ((updateRecord_keeps (m := 34359738368) (hm := rfl) (h := Keeps.refl _ s3)).same_pwr rfl)
  have p6 : s6.pwr.asserted = s5.pwr.asserted ∧ s6.pwr.episode = s5.pwr.episode ∧ s6.pwr.mask = s5.pwr.mask ∧ s6.pwr.due.isSome = true ∧ s6.pwr.railsOff = s5.pwr.railsOff := by
    unfold s6
    split
    · rename_i d hd
      split
      · exact ⟨rfl, rfl, rfl, rfl, rfl⟩
      · exact ⟨rfl, rfl, rfl, by rw [hd]; rfl, rfl⟩
    · exact ⟨rfl, rfl, rfl, rfl, rfl⟩
  have p7 : s7.pwr.asserted = s6.pwr.asserted ∧ s7.pwr.episode = s6.pwr.episode ∧ s7.pwr.mask = s6.pwr.mask ∧ s7.pwr.due = s6.pwr.due ∧ s7.pwr.railsOff = s6.pwr.railsOff := by
    unfold s7; split <;> exact ⟨rfl, rfl, rfl, rfl, rfl⟩
  have p8 : s8.pwr = s7.pwr := by unfold s8; split <;> rfl
  have q := resetBlocks_pwr lvl s8
  have t := fun hl : lvl ≤ 1 => resetBlocks_time hl s8
  have u1 := updateEnables_facts (resetBlocks lvl s8)
  have u2 := pinsAtReset_facts lvl (updateEnables (resetBlocks lvl s8))
  have p9 : s9.pwr = (resetBlocks lvl s8).pwr := u2.1.trans u1.1
  have t9 : s9.time = (resetBlocks lvl s8).time := u2.2.1.trans u1.2.1
  have d9 : s9.dose = (resetBlocks lvl s8).dose := u2.2.2.trans u1.2.2
  clear_value s9
  rw [show (wrb R.RST_STATUS 5 (s9.pwr.step != 0) s9).pwr = s9.pwr from rfl, show (wrb R.RST_STATUS 5 (s9.pwr.step != 0) s9).time = s9.time from rfl,
    show (wrb R.RST_STATUS 5 (s9.pwr.step != 0) s9).dose = s9.dose from rfl, p9, t9, d9, q.1, q.2.1, q.2.2.1, q.2.2.2.1, q.2.2.2.2, p8, p7.1, p7.2.1, p7.2.2.1, p7.2.2.2.1, p7.2.2.2.2, p6.1, p6.2.1, p6.2.2.1, p6.2.2.2.2, p5]
  exact ⟨p3.1, p3.2.1, p3.2.2.1, p6.2.2.2.1, p3.2.2.2, t⟩
end Sys2Proof.Laws
end

