-- ==== Sys2Proof/Laws/Steady.lean ====
section
/-! SUPPORT. What leaves the open descriptors of a ring alone: posting events and writing registers (R57, R70), and the completion of
a ring's only open descriptor behind such operations. -/

namespace Sys2Proof.Laws
open Sys2Proof Sys2Proof.Machine

/-- The open descriptors of ring `k`, and whether the module may send to the host. -/
def ringPart (k : Nat) (s : State) : List Job × Bool := ((ringInt s k).jobs, s.host.busMaster)

theorem part_toHost (k : Nat) (o : Out) (s : State) : ringPart k (toHost o s) = ringPart k s := by unfold toHost; split <;> rfl
theorem part_modRing (k j : Nat) (f : RingInt → RingInt) (h : ∀ r, (f r).jobs = r.jobs) (s : State) : ringPart k (modRing j f s) = ringPart k s := by
  unfold ringPart
  by_cases e : k = j
  · rw [e, ringInt_modRing, h]; rfl
  · rw [ringInt_modRing_ne e]; rfl
theorem part_signal (k v : Nat) (s : State) : ringPart k (signalVector v s) = ringPart k s := by
  unfold signalVector sendVector
  split
  · rfl
  · split
    · rfl
    · dsimp only
      split <;> exact part_toHost ..
theorem part_writeEvent (k j : Nat) (e : EvEntry) (s : State) : ringPart k (writeEvent j e s) = ringPart k s := by
  unfold writeEvent
  extract_lets i n a b
  have h : ringPart k b = ringPart k s := (part_toHost ..).trans (part_toHost ..)
  split
  · exact (part_signal ..).trans h
  · exact h
theorem part_postBy (k n src sev w : Nat) (d : List (Nat × Nat × Int)) (lost : State → State) (h : ∀ s, ringPart k (lost s) = ringPart k s)
    (s : State) : ringPart k (postEventBy lost n src sev w d s) = ringPart k s := by
  have hold : ∀ (e : EvEntry) u, ringPart k (holdEvent lost e u) = ringPart k u := by
    intro e u
    unfold holdEvent
    split
    · exact h u
    · rfl
  have store : ∀ (j : Nat) (e : EvEntry) u, ringPart k (storeEvent lost j e u) = ringPart k u := by
    intro j e u
    unfold storeEvent
    split
    · refine (part_toHost ..).trans ((h _).trans (part_modRing _ _ _ ?_ _)); intro r; rfl
    · refine part_modRing _ _ _ ?_ _; intro r; rfl
  have route : ∀ (e : EvEntry) u, ringPart k (routeEvent lost e u) = ringPart k u := by
    intro e u
    unfold routeEvent
    split
    · exact hold ..
    · split
      · exact hold ..
      · split
        · exact store ..
        · exact part_writeEvent ..
  unfold postEventBy
  extract_lets rose s1 sat s2 ev s3 cfg irq vec ring e s4
  have e2 : ringPart k s2 = ringPart k s := bump_part_any (fun s => ringPart k s) (fun _ _ => rfl) (fun _ => rfl) s1
  have e3 : ringPart k s3 = ringPart k s := by
    refine Eq.trans ?_ e2
    unfold s3
    split <;> rfl
  split
  · exact (route e s3).trans e3
  · split
    · exact (part_signal ..).trans e3
    · exact e3
where
  bump_part_any {w : Nat} {α : Type} {r : RegInfo} {i n : Nat} {sat : State → State} (f : State → α) (hw : ∀ v s, f (wr r v s i) = f s)
      (hs : ∀ s, f (sat s) = f s) (s : State) : f (bumpW w r n sat s i) = f s := by
    unfold bumpW
    extract_lets v c top
    split
    · rfl
    · split
      · rw [hs, hw]
      · rw [hw]
/-- Posting an event leaves the open descriptors alone. -/
theorem part_post (k n src sev w : Nat) (d : List (Nat × Nat × Int)) (s : State) : ringPart k (postEvent n src sev w d s) = ringPart k s :=
  part_postBy _ _ _ _ _ _ _ (fun _ => bump_part (fun s => ringPart k s) (fun _ _ => rfl) (fun _ => part_postBy _ _ _ _ _ _ _
    (fun _ => bump_part (fun s => ringPart k s) (fun _ _ => rfl) (fun _ => rfl) _) _) _) s

/-- Ring `k` stands as it stood: its state, its open descriptors, and whether the module may send to the host. -/
structure Steady (k : Nat) (s t : State) : Prop where
  part : ringPart k t = ringPart k s
  state : ringState t k = ringState s k
theorem Steady.refl (k : Nat) (s : State) : Steady k s s := ⟨rfl, rfl⟩
theorem Steady.trans {k : Nat} {s t u : State} (h : Steady k s t) (g : Steady k t u) : Steady k s u := ⟨g.part.trans h.part, g.state.trans h.state⟩
/-- What changes neither the host's part of the state nor a register of the host interface. -/
theorem Steady.of_keeps {k m : Nat} {s t : State} (h : Keeps m s t) (h1 : off m 4) (h2 : off m 33) : Steady k s t where
  part := by unfold ringPart ringInt; rw [h.same_host h1]
  state := by
    unfold ringState rdf
    rw [rd_keeps h]
    have : regAddr R.HIF_RING_STATE k / 65536 % 32 = 1 := by simp only [regAddr, R.HIF_RING_STATE]; omega
    rw [this]
    exact h2
theorem state_aside (k : Nat) : Aside R.HIF_RING_STATE k where
  cons j := by simp [regAddr, R.HIF_RING_STATE, R.HIF_RING_CONS]; omega
  pba := by simp [regAddr, R.HIF_RING_STATE, R.MSIX_PBA]; omega
  drop := by simp [regAddr, R.HIF_RING_STATE, R.HIF_EVT_DROP]; omega
  status := by simp [regAddr, R.HIF_RING_STATE, R.EVT_STATUS]; omega
theorem Steady.post {k : Nat} {s t : State} (h : Steady k s t) (n src sev w : Nat) (d : List (Nat × Nat × Int)) :
    Steady k s (postEvent n src sev w d t) :=
  h.trans ⟨part_post .., by
    unfold ringState rdf
    rw [rd_post_aside (state_aside k) (fun _ => by simp [regAddr, R.HIF_RING_STATE, R.EVT_COUNT]; omega)
      (fun _ => by simp [regAddr, R.HIF_RING_STATE, R.EVT_PENDING]; omega)]⟩
theorem Steady.wr {k : Nat} {s t : State} (h : Steady k s t) (r : RegInfo) (v i : Nat) (hr : r.base / 65536 ≠ 1) (hs : r.base % 65536 + r.stride * (r.count - 1) < 65536)
    (hc : 0 < r.count) : Steady k s (wr r v t i) :=
  h.trans ⟨rfl, by
    unfold ringState rdf
    rw [rd_wr_ne]
    have : i % r.count ≤ r.count - 1 := by have := Nat.mod_lt i hc; omega
    have h3 : r.stride * (i % r.count) ≤ r.stride * (r.count - 1) := Nat.mul_le_mul_left _ this
    have e1 : regAddr R.HIF_RING_STATE k / 65536 = 1 := by simp only [regAddr, R.HIF_RING_STATE]; omega
    intro x
    rw [x] at e1
    unfold regAddr at e1
    generalize r.stride * (i % r.count) = y at *
    omega⟩
theorem Steady.bump {k : Nat} {s t : State} (h : Steady k s t) (r : RegInfo) (n i : Nat) (sat : State → State) (hr : r.base / 65536 ≠ 1)
    (hs : r.base % 65536 + r.stride * (r.count - 1) < 65536) (hc : 0 < r.count) (hsat : ∀ u, Steady k u (sat u)) :
    Steady k s (bump r n sat t i) := by
  unfold Machine.bump bumpW
  extract_lets v c top
  split
  · exact h
  · split
    · exact (h.wr r _ i hr hs hc).trans (hsat _)
    · exact h.wr r _ i hr hs hc
theorem Steady.each {α : Type} {k : Nat} {s t : State} (h : Steady k s t) (l : List α) (f : α → State → State) (hf : ∀ a u, Steady k u (f a u)) :
    Steady k s (each l f t) := by
  unfold Machine.each
  induction l generalizing t with
  | nil => exact h
  | cons a r ih => rw [List.foldl_cons]; exact ih (h.trans (hf a t))
/-- A ring's only open descriptor completes behind what leaves the ring alone (R57). -/
theorem complete_steady {k : Nat} {j : Job} {c : Cpl} {s t : State} (h : Steady k s t) (hj : (ringInt s k).jobs = [j]) (hr : ringState s k ≠ 3)
    (hb : s.host.busMaster = true) :
    Completed k j (c.status % 256) (c.reason % 256) (complete k j.index c t) ∧ (ringInt (complete k j.index c t) k).jobs = [] := by
  have h1 : (ringInt t k).jobs = (ringInt s k).jobs := congrArg Prod.fst h.part
  have h2 : t.host.busMaster = s.host.busMaster := congrArg Prod.snd h.part
  exact complete_one (h1.trans hj) (by rw [h.state]; exact hr) (h2.trans hb)
/-- A completion that has left the module stays sent. -/
theorem Completed.keeps {k st re m : Nat} {j : Job} {s t : State} (h : Completed k j st re s) (g : Keeps m s t) : Completed k j st re t := by
  obtain ⟨a, e, h1, h2⟩ := h
  obtain ⟨l, hl⟩ := g.out
  exact ⟨a, e, by rw [hl]; exact List.mem_append_right _ h1, h2⟩

end Sys2Proof.Laws
end

