-- ==== Sys2Proof/Tests/Slice0.lean ====
section
/-! SUPPORT. Tests: ill-formed commands are refused, a few effects on small states whose expected values come from the spec,
and for every statement that has hypotheses states and operands that meet them together (the theorems met_<Name>). -/

namespace Sys2Proof.Tests
open Sys2Proof.Machine
set_option Elab.async false

/-- The state after reset, in a mode with no transition. -/
def inMode (m : Nat) (s : State := State.reset) : State := wrb R.CTL_MODE 31 false (wrf R.CTL_MODE 0 3 m s)
/-- Ring k of a type with 2^n descriptors, in a state, its doorbell and consumer index at 0. -/
def withRing (k ty n st : Nat) (s : State) : State :=
  wrf R.HIF_RING_STATE 0 3 st (wr R.HIF_RING_CFG (ty + 16 * n) s k) k
/-- What the module keeps of ring k, replaced. -/
def withInt (k : Nat) (r : RingInt) (s : State) : State := modRing k (fun _ => r) s
/-- A mode and host version in which the module reads ring k of a type: the ring is ACTIVE and offers one descriptor. -/
def offer (k ty m v : Nat) : State := withInt k { db := 1 } (withRing k ty 4 2 (wrf R.HIF_STATUS 0 2 v (inMode m)))
/-- A descriptor of the first round of a ring: opcode, context, and fields as byte offset and value. -/
def desc (code : Nat) (l : List (Nat × Nat)) (context : Nat := 0) : Desc :=
  BitVec.ofNat 512 (code + 2 ^ 16 * context + 2 ^ 31 + l.foldl (fun a f => a + 2 ^ (8 * f.1) * f.2) 0)

/-! ### Well-formedness: one ill-formed term for each check -/

theorem illformed_address : Instr.wellFormed (.registerWrite false (2 ^ 26) 4 0) = false := by decide
theorem illformed_size : Instr.wellFormed (.registerWrite false 0 3 0) = false := by decide
theorem illformed_read_address : Instr.wellFormed (.rcRead (2 ^ 26) 4) = false ∧ Instr.wellFormed (.regReadLowHalf (2 ^ 26)) = false ∧
    Instr.wellFormed (.regWriteLowHalf (2 ^ 26) 0) = false ∧ Instr.wellFormed (.regWriteHighHalf true (2 ^ 26) 0) = false := by decide
theorem illformed_ring : Instr.wellFormed (.ringReset 32) = false ∧ Instr.wellFormed (.hello 32 0) = false ∧
    Instr.wellFormed (.hifNudge [⟨31, none, none, none⟩, ⟨32, none, none, none⟩]) = false ∧
    Instr.wellFormed (.doorbellPoll ⟨32, none, none, none⟩) = false := by decide
theorem illformed_asid : Instr.wellFormed (.tlbInvalSpace 16) = false ∧ Instr.wellFormed (.tlbInvalPage 16) = false := by decide
theorem illformed_stream : Instr.wellFormed (.uploadBufferTimeout 8) = false := by decide
theorem illformed_axis : Instr.wellFormed (.motStop 6) = false ∧ Instr.wellFormed (.switchRawEdge 6 0 true) = false ∧
    Instr.wellFormed (.switchRawEdge 0 3 true) = false ∧ Instr.wellFormed (.switchDebounceAccept 5 3) = false := by decide
theorem illformed_beam_table : Instr.wellFormed (.beamTableWindowWrite 2 0 0) = false ∧
    Instr.wellFormed (.beamTableWindowWrite 1 262144 0) = false := by decide
theorem illformed_port : Instr.wellFormed (.frameSend 4 0 []) = false ∧ Instr.wellFormed (.laneLockLoss 4 0 false) = false ∧
    Instr.wellFormed (.laneLockLoss 3 8 false) = false := by decide
theorem illformed_block : Instr.wellFormed (.capabilityRx 0 []) = false ∧ Instr.wellFormed (.telemetryRx 0 []) = false ∧
    Instr.wellFormed (.capabilityRx 4 (List.replicate 28 0)) = false ∧ Instr.wellFormed (.telemetryRx 4 (List.replicate 32 0)) = false := by decide
theorem illformed_camera : Instr.wellFormed (.csiFrameStart 4 0) = false ∧ Instr.wellFormed (.csiFrameEnd 0 4) = false ∧
    Instr.wellFormed (.csiLinePacket { port := 4, vc := 0, dataType := 0x2A, bytes := 1, samples := [] }) = false ∧
    Instr.wellFormed (.csiLinePacket { port := 0, vc := 4, dataType := 0x2A, bytes := 1, samples := [] }) = false ∧
    Instr.wellFormed (.csiLinePacket { port := 0, vc := 0, dataType := 0x2A, bytes := 0, samples := [1] }) = false := by decide
theorem illformed_context : Instr.wellFormed (.camCommit 16) = false := by decide
theorem illformed_position : Instr.wellFormed (.triggerPulseEnd 4) = false := by decide
theorem illformed_requester : Instr.wellFormed (.arbRequest 10 false) = false ∧ Instr.wellFormed (.arbWaitBreak 10) = false := by decide
theorem illformed_region : Instr.wellFormed (.sramScrub 8 0 0) = false := by decide
theorem illformed_channel : Instr.wellFormed (.dramTrainingDone 4 [] false 0) = false ∧ Instr.wellFormed (.udmaStart 16) = false ∧
    Instr.wellFormed (.estopOpen 2) = false := by decide
theorem illformed_unit : Instr.wellFormed (.crcStart 4) = false ∧ Instr.wellFormed (.timeCompareFire 4) = false := by decide
theorem illformed_clock_port : Instr.wellFormed (.sfpFaultClearDelay 2) = false := by decide
theorem illformed_rail : Instr.wellFormed (.railFault 10 0 0) = false ∧ Instr.wellFormed (.resetAssert 10) = false := by decide
theorem illformed_input : Instr.wellFormed (.gpinEdgeAccept 8 true) = false := by decide
theorem illformed_vector : Instr.wellFormed (.evtPendingClear 8 0) = false ∧ Instr.wellFormed (.vectorHoldoffExpiry 64) = false ∧
    Instr.wellFormed (.msixUnmask 64) = false := by decide
/-- The largest numbers are well formed. -/
theorem wellformed_limits : Instr.wellFormed (.registerWrite true (2 ^ 26 - 1) 8 0) = true ∧ Instr.wellFormed (.ringReset 31) = true ∧
    Instr.wellFormed (.laneLockLoss 3 7 false) = true ∧ Instr.wellFormed (.switchRawEdge 5 2 false) = true ∧
    Instr.wellFormed (.beamTableWindowWrite 1 262143 0) = true ∧ Instr.wellFormed (.msixUnmask 63) = true := by decide
/-- The opcode table gives no row any bits: no word spells a command. -/
theorem no_word_spells_a_command (n w : Nat) (s : State) : decodeTableWord n w = none ∧ s.withFetchWord n w = s := ⟨rfl, rfl⟩

/-! ### States and operands that meet the hypotheses of the statements -/

theorem met_IdleStepIsOneTick : (let s := inMode 2; s.pending = [] ∧ clockRuns s = true ∧ s.ctl.holdWanted = false ∧
      (∀ p < 4, (camBus s p).due = []) ∧ s.ctl.schedules = []) ∧
    ((inMode 0).pending = [] ∧ clockRuns (inMode 0) = false) := by decide
theorem met_SoundEveryStep : Sound State.reset ∧ ∃ t, step State.reset = .next t :=
  ⟨⟨by decide, by decide, by decide, fun _ h => nomatch h⟩, _, rfl⟩
theorem met_CommandFrame : (∃ t, exec .busMasterEnableClear State.reset = .next t) ∧ StatePart.dram ∉ mayChange .busMasterEnableClear :=
  ⟨⟨_, rfl⟩, by decide⟩
/-- HIF_RING_PRIO of ring 31 is a plain 32-bit register, HIF_AS_ROOT of space 15 a plain 64-bit one; the bad accesses are of a
wrong size and a wrong alignment. -/
theorem met_RegisterWrites :
    (answers State.reset = true ∧ 0x117C4 % 4 = 0 ∧ is64 0x117C4 = false ∧ is64 (0x117C4 - 4) = false ∧
      findReg 0x117C4 = some R.HIF_RING_PRIO ∧ R.HIF_RING_PRIO.bytes = 4 ∧ accessOf false R.HIF_RING_PRIO = .rw ∧
      R.allPin.any (fun x => x.base == R.HIF_RING_PRIO.base) = false ∧ R.HIF_RING_PRIO ≠ R.EVT_CFG ∧
      (writers.find? (fun w => w.1.base == R.HIF_RING_PRIO.base)).isNone = true) ∧
    (0x101F0 % 8 = 0 ∧ is64 0x101F0 = true) ∧
    (beamWindow 0x101F0 = none ∧ findReg 0x101F0 = some R.HIF_AS_ROOT ∧ R.HIF_AS_ROOT.bytes = 8 ∧ accessOf true R.HIF_AS_ROOT = .rw ∧
      R.allPin.any (fun x => x.base == R.HIF_AS_ROOT.base) = false ∧ R.HIF_AS_ROOT ≠ R.EVT_CFG ∧
      (writers.find? (fun w => w.1.base == R.HIF_AS_ROOT.base)).isNone = true ∧
      (let s := { State.reset with heldLow := [(0x101F0, (5 : Word32))] }; answers s = true ∧ tget? s.heldLow 0x101F0 = some 5)) ∧
    (badAccess 0x117C4 2 = true ∧ badAccess 0x117C4 8 = true ∧ badAccess 0x117C6 4 = true) := by decide +kernel
theorem met_RegisterReads :
    (let s := inMode 2; answers s = true ∧ 0x101F0 % 8 = 0 ∧ read64 0x101F0 s = some (0, s) ∧ badAccess 0x101F0 2 = true ∧
      badAccess 0x117C6 4 = true) ∧
    (let s := wr R.HIF_RING_PRIO 5 (inMode 2) 31; 0x117C4 % 4 = 0 ∧ answers s = true ∧ (read64 (0x117C4 / 8 * 8) s).isSome = false ∧
      findReg 0x117C4 = some R.HIF_RING_PRIO ∧ R.HIF_RING_PRIO ≠ R.TSY_WIDE_NS ∧ R.HIF_RING_PRIO.access ≠ .rc ∧
      regIndex R.HIF_RING_PRIO 0x117C4 = 31 ∧ readReg R.HIF_RING_PRIO 31 s = (5, s)) ∧
    (let s := wr R.DPI_CRC_FAILS 7 (inMode 2); 0x10002C % 4 = 0 ∧ answers s = true ∧ (read64 (0x10002C / 8 * 8) s).isSome = false ∧
      findReg 0x10002C = some R.DPI_CRC_FAILS ∧ R.DPI_CRC_FAILS ≠ R.EVT_COUNT ∧ R.DPI_CRC_FAILS.access = .rc ∧
      R.DPI_CRC_FAILS.bytes = 4 ∧ R.DPI_CRC_FAILS.reset < 2 ^ 32 ∧ readReg R.DPI_CRC_FAILS 0 s = (7, s)) ∧
    (let s := { inMode 2 with latchedHigh := [(0x101F4, (9 : Word32))] }; answers s = true ∧ 0x101F4 % 8 = 4 ∧ read64 (0x101F4 - 4) s = some (0, s) ∧
      tget? s.latchedHigh 0x101F4 = some 9) := by decide +kernel
theorem met_EventControllerCommands : 7 < 8 ∧
    (let s := { State.reset with evt := { State.reset.evt with holdoff := [63], merged := [] } }; 63 ∈ s.evt.holdoff ∧ 63 ∉ s.evt.merged) ∧
    (let s := { State.reset with evt := { State.reset.evt with holdoff := [63], merged := [63] } }; s.host.busMaster = true ∧
      63 ∈ s.evt.holdoff ∧ 63 ∈ s.evt.merged ∧ rdb R.MSIX_CTRL 0 (wrb R.MSIX_CTRL 0 false s 63) 63 = false) ∧
    rdb R.MSIX_PBA 63 (wrb R.MSIX_PBA 63 true State.reset) = true ∧ rdb R.MSIX_PBA 63 State.reset = false := by decide +kernel
/-- The last window that fits, and the first that does not. -/
theorem met_HostPortCommands : 15 < 16 ∧ 31 < 32 ∧
    (∀ st ∈ [1, 2], ∃ s', exec (.pcieError 1 0 none) (withRing 31 0 4 st (inMode 3)) = .next s' ∧ ringState s' 31 = st) ∧
    (let v := BitVec.ofNat 64 (dramSize - 2 ^ 34); v.toNat % 2 ^ 30 = 0 ∧ v.toNat + 2 ^ 34 ≤ dramSize) ∧
    (let v := BitVec.ofNat 64 (dramSize - 2 ^ 34 + 2 ^ 30); v.toNat + 2 ^ 34 > dramSize) ∧ (BitVec.ofNat 64 1).toNat % 2 ^ 30 ≠ 0 := by
  refine ⟨by decide, by decide, ?_, by decide +kernel, by decide +kernel, by decide +kernel⟩
  intro st h
  refine ⟨_, rfl, ?_⟩
  revert st
  decide +kernel
theorem met_ApertureWriteStores : let s := wr R.HIF_APERTURE_BASE (dramSize - 2 ^ 34) (wrf R.MEMC_STATUS 0 3 2 (inMode 3));
    1 < modeOf s ∧ 2 ^ 34 - 2 + [1, (2 : Byte)].length ≤ 2 ^ 34 ∧
      rd R.HIF_APERTURE_BASE s + (2 ^ 34 - 2) + [1, (2 : Byte)].length ≤ dramSize ∧ dramServes s = true ∧
      cmdFailed (rd R.HIF_APERTURE_BASE s + (2 ^ 34 - 2)) [1, (2 : Byte)].length rqHost s = false := by decide +kernel
theorem met_ApertureReads : (let s := wrf R.MEMC_STATUS 0 3 2 (inMode 3); 2 ^ 34 - 1 + 1 ≤ 2 ^ 34 ∧ 1 < modeOf s ∧
      (checkedRead (rd R.HIF_APERTURE_BASE s + (2 ^ 34 - 1)) 1 rqHost s).1 = true) ∧ modeOf (inMode 1) = 1 := by decide +kernel
theorem met_DoorbellMakesActive : let s := withRing 31 0 4 1 (wrf R.HIF_STATUS 0 2 2 (inMode 3));
    ringReadable 31 s = true ∧ ringState s 31 = 1 ∧ (ringInt s 31).idle = false ∧ modeOf s ≠ 1 ∧
      (16 : Word32).toNat ≠ (ringInt s 31).next ∧ (16 : Word32).toNat ≠ rd R.HIF_RING_CONS s 31 ∧
      ((16 : Word32).toNat + 2 ^ 32 - rd R.HIF_RING_CONS s 31) % 2 ^ 32 ≤ 2 ^ ringLog2 s 31 := by decide +kernel
theorem met_RingStateCommands :
    (let s := withRing 31 0 16 0 (inMode 2); ringState s 31 = 0 ∧ ringConfigOk 31 s = true ∧ ringType s 31 ≠ tyEvent ∧
      (0 : Word32).toNat = rd R.HIF_RING_CONS s 31 ∧ ringReadable 31 s = true) ∧
    (let s := withRing 31 0 3 0 (inMode 2); ringState s 31 = 0 ∧ ringConfigOk 31 s = false) ∧
    (let s := withRing 31 0 4 2 (inMode 3); ringState s 31 = 2 ∧ rdb R.HIF_RING_STATE 4 s 31 = false ∧ ringType s 31 ≠ tyLayer ∧
      (ringInt s 31).jobs = []) ∧ ringState (withRing 31 0 4 1 (inMode 3)) 31 = 1 ∧
    (let s := wrb R.HIF_RING_STATE 4 true (withRing 31 0 4 2 (inMode 3)) 31; rdb R.HIF_RING_STATE 4 s 31 = true ∧ ringState s 31 ≠ 4 ∧ (ringInt s 31).jobs = []) ∧
    ringState (withRing 31 0 4 4 (inMode 3)) 31 = 4 := by decide +kernel
/-- Ring k FAULTED on a job with a transfer. -/
def faulted : State := withInt 31 { db := 1, next := 1, jobs := [{ index := 0, desc := desc 3 [], xfer := some { addr := 0, len := 64 } }] }
  (withRing 31 0 4 3 (wr R.HIF_AS_CFG 2 (wrf R.HIF_STATUS 0 2 2 (inMode 3))))
theorem met_RingResumeCommands : let x : Xfer := { addr := 0, len := 64 }; let j : Job := { index := 0, desc := desc 3 [], xfer := some x }
    faultedJob 31 faulted = some j ∧ j.cpl = none ∧ passGivenUp 31 j faulted = false ∧ j.xfer = some x ∧ faulted.host.busMaster = true ∧
    (translateVa (ringAsid 31 faulted) (x.addr + x.done) x.toHost {} (setRingState 31 2 faulted)).1 = .bypass ∧
    asMode (ringAsid 31 faulted) faulted = 2 ∧ (ringInt faulted 31).jobs = [j] ∧ faulted.dose.passes = [] ∧
    faulted.dose.passes.all (fun p => !(p.ring == 31 && p.index == j.index)) = true ∧ dOpcode j.desc ≠ 0x0A := by decide +kernel
theorem met_TranslationCacheCommands : 15 < 16 ∧ State.reset.host.invalUsers = [] := by decide
/-- A waiting transfer of ring 31, and one that runs on channel 0. -/
def moving (x : Xfer) : State := withInt 31 { db := 1, next := 1, jobs := [{ index := 0, desc := desc 3 [], xfer := some x }] }
  (withRing 31 0 4 2 (wrf R.HIF_STATUS 0 2 2 (inMode 3)))
theorem met_HostDmaCommands :
    (let s := moving { addr := 0, len := 64 }; (List.range 4).find? (fun c => (tget? s.host.chans c).isNone) = some 0 ∧
      nextWaiter s = some 31 ∧ (xferJob 31 s).isSome = true ∧ s.host.busMaster = true ∧ s.host.linkUp = true) ∧
    (let x : Xfer := { addr := 0, len := 64, chan := some 0 }
     let s := { moving x with host := { (moving x).host with chans := [(0, 31)] } }
     xferJob 31 s = some ({ index := 0, desc := desc 3 [], xfer := some x }, x) ∧ x.chan.isSome = true ∧ x.atBoundary = true ∧
      rdb R.HIF_RING_STATE 4 (leavePage 31 (modXfer 31 0 (fun _ => x) s)) 31 = false ∧ s.host.busMaster = true ∧ s.host.linkUp = true ∧
      preemptor 31 (leavePage 31 (modXfer 31 0 (fun _ => x) s)) = none) ∧
    (let x : Xfer := { addr := 0, len := 2, chan := some 0, atBoundary := false }
     xferJob 31 (moving x) = some ({ index := 0, desc := desc 3 [], xfer := some x }, x) ∧ ringType (moving x) 31 ≠ tyLayer ∧
      xferCanEnd x [1, 2] = true) ∧
    (let s := withInt 31 { store := [⟨1, 0, 0, false, false, 0, 0, 0, 0, false, 0, none⟩] } (withRing 31 4 4 2 (wrf R.HIF_STATUS 0 2 2 (inMode 3)))
     evRingOk 31 s = true ∧ (ringInt s 31).store.isEmpty = false ∧ s.host.busMaster = true ∧
      (rd R.HIF_RING_CONS s 31 + 2 ^ 32 - (0 : Word32).toNat) % 2 ^ 32 ≤ 2 ^ ringLog2 s 31) := by decide +kernel
/-- The descriptors of the COMMAND opcodes: the least and the largest values of the fields that the statement tests. -/
theorem met_CommandOpcodes :
    (let s := offer 31 0 2 0; let d := desc 1 [(8, 1), (9, 2)];
      Offers 31 d 0x01 (usedBits [(8, 1), (9, 1), (12, 4), (16, 8)]) [] s ∧ max 1 (dfld d 8 1) ≤ min 3 (dfld d 9 1) ∧ hostVersion s = 0 ∧
        min 3 (dfld d 9 1) ≠ 1) ∧
    (let s := offer 0 0 7 2; let d := desc 2 [(8, 7)];
      Offers 0 d 0x02 (usedBits [(8, 1)]) [(8, decide (dfld d 8 1 ≤ 7))] s ∧ modeOf s ≠ 5 ∧ rdb R.CTL_MODE 31 s = false ∧
        s.ctl.request = none ∧ dfld d 8 1 = modeOf s) ∧
    (let s := withInt 0 { db := 1 } (withRing 0 0 4 2 faulted); let d := desc 6 [(8, 31), (9, 1)];
      Offers 0 d 0x06 (usedBits [(8, 1), (9, 1)]) [(8, decide (dfld d 8 1 < 32)), (9, decide (dfld d 9 1 < 3))] s ∧
        (faultedJob (dfld d 8 1) (taken 0 d s)).isSome = true ∧ dfld d 9 1 = 1) ∧
    (let s := offer 0 0 3 2; let d := desc 0x0C [(8, 1)];
      Offers 0 d 0x0C (usedBits [(8, 1), (12, 4), (16, 8), (24, 4)]) [(8, decide (dfld d 8 1 < 5))] s ∧
        logEntries (dfld d 8 1) (taken 0 d s) = []) ∧
    (let s := offer 0 0 3 2; ∀ n ∈ [(64, 1), (8192, 127)], let d := desc 3 [(16, n.1)] n.2;
      Offers 0 d 0x03 (usedBits [(8, 8), (16, 4), (20, 4)])
        [(2, decide (1 ≤ dContext d)), (16, decide (64 ≤ dfld d 16 4 ∧ dfld d 16 4 ≤ 8192) && dfld d 16 4 % 64 == 0)] s) ∧
    (let s := offer 0 0 3 2; ∀ n ∈ [1, 262144], let d := desc 4 [(20, n), (24, 1)];
      Offers 0 d 0x04 (usedBits [(8, 8), (16, 4), (20, 4), (24, 1), (25, 1), (28, 4)])
        [(16, decide (dfld d 16 4 + dfld d 20 4 ≤ 262144)), (20, decide (1 ≤ dfld d 20 4)), (24, decide (dfld d 24 1 < 2)),
         (25, decide (dfld d 25 1 < 2))] s ∧ dfld d 24 1 ≠ activeBank s) ∧
    (∀ m ∈ [3, 7], let s := offer 0 0 m 2; let d := desc 5 [(16, 2240)];
      Offers 0 d 0x05 (usedBits [(8, 8), (16, 4), (20, 4)]) [] s ∧ (modeOf s = 3 ∨ modeOf s = 7) ∧ s.dose.layer = none) ∧
    (let s := offer 0 0 3 2; let d := desc 9 [(8, 127)];
      Offers 0 d 0x09 (usedBits [(8, 4)]) [] s ∧ dfld d 8 4 < 128 ∧ s.thm.run = none) ∧
    (let s := wrf R.CTL_LOADER 0 3 1 (offer 0 0 2 2); let d := desc 0x0A [(8, 4096), (16, 64)];
      Offers 0 d 0x0A (usedBits [(8, 8), (16, 4)]) [] s ∧ modeOf s = 2 ∧ rdf R.CTL_LOADER 0 3 s = 1) ∧
    (let s := offer 0 0 3 2; Offers 0 (desc 0x0B []) 0x0B (usedBits [(8, 8), (16, 4)]) [] s ∧ dfld (desc 0x0B []) 16 4 = 0 ∧
      Offers 0 (desc 0x0B [(16, 1)]) 0x0B (usedBits [(8, 8), (16, 4)]) [] s ∧ dfld (desc 0x0B [(16, 1)]) 16 4 ≠ 0) ∧
    (let s := offer 0 0 3 2; ∀ n ∈ [16, 16384], let d := desc 0x0D [(8, 15), (24, n)];
      Offers 0 d 0x0D (usedBits [(8, 1), (12, 4), (16, 8), (24, 4)]) [(8, decide (dfld d 8 1 < 16))] s ∧ camMode s = true ∧
        16 ≤ dfld d 24 4 ∧ dfld d 24 4 ≤ 16384) := by
  unfold Offers
  refine ⟨?_, ?_, ?_, ?_, ?_, ?_, ?_, ?_, ?_, ?_, ?_⟩ <;> decide +kernel
theorem met_ModeRequests : (∀ m ∈ [2, 3, 4, 6, 7], ∀ q ∈ [3, 6, 7], let s := offer 0 0 m 2; let d := desc 2 [(8, q)];
      Offers 0 d 0x02 (usedBits [(8, 1)]) [(8, decide (dfld d 8 1 ≤ 7))] s ∧ modeOf s ≠ 5 ∧ rdb R.CTL_MODE 31 s = false ∧
        s.ctl.request = none ∧ dfld d 8 1 = q ∧ modeOf s = m) ∧
    (let s := wrb R.CTL_MODE 31 true (offer 0 0 6 2); Offers 0 (desc 2 [(8, 3)]) 0x02 (usedBits [(8, 1)]) [(8, true)] s ∧
      modeOf s ≠ 5 ∧ rdb R.CTL_MODE 31 s = true) ∧
    (let s := wrb R.CTL_HOLD_CAUSE 16 true (offer 0 0 6 2); Offers 0 (desc 2 [(8, 3)]) 0x02 (usedBits [(8, 1)]) [(8, true)] s ∧
      modeOf s = 6 ∧ rdb R.CTL_MODE 31 s = false ∧ s.ctl.request = none ∧ rd R.CTL_HOLD_CAUSE s ≠ 0) ∧
    axesStill (offer 0 0 3 2) = true := by
  unfold Offers
  refine ⟨?_, ?_, ?_, ?_⟩ <;> decide +kernel
/-- An axis that is homed, its envelope valid. -/
def homedAxis (a m : Nat) : State := wr R.MOT_ENV_VMAX 1 (wr R.MOT_ENV_AMAX 1 (wr R.MOT_ENV_JMAX 1 (wr R.MOT_ENV_MAX 1000 (wrb R.MOT_STATUS 3 true (offer 0 0 m 2) a) a) a) a) a
theorem met_MotionOpcodes :
    (let s := homedAxis 5 3; let d := desc 8 [(8, 5), (16, 2 ^ 64 - 1)];
      Offers 0 d 0x08 (usedBits [(8, 1), (9, 1), (16, 8), (24, 4), (28, 4), (32, 4)])
        [(8, decide (dfld d 8 1 ≤ 5)), (9, decide (dfld d 9 1 ≤ 1)), (16, decide (sext 64 (dfld d 16 8) = sext 48 (dfld d 16 8)))] s ∧
      dfld d 9 1 = 0 ∧ (moveRefusal (dfld d 8 1) true false (sext 48 (dfld d 16 8)) none (taken 0 d s)).isSome = true) ∧
    (let s := homedAxis 5 3; let d := desc 8 [(8, 5), (16, 1000)];
      Offers 0 d 0x08 (usedBits [(8, 1), (9, 1), (16, 8), (24, 4), (28, 4), (32, 4)])
        [(8, decide (dfld d 8 1 ≤ 5)), (9, decide (dfld d 9 1 ≤ 1)), (16, decide (sext 64 (dfld d 16 8) = sext 48 (dfld d 16 8)))] s ∧
      dfld d 9 1 = 0 ∧ moveRefusal (dfld d 8 1) true false (sext 48 (dfld d 16 8)) none (taken 0 d s) = none) ∧
    (let s0 := homedAxis 0 3; let s := { s0 with ctl := { s0.ctl with homing := [(15, [])] } }; let d := desc 7 [(9, 15)];
      Offers 0 d 0x07 (usedBits [(8, 1), (9, 1)]) [(8, decide (dfld d 8 1 ≤ 5))] s ∧ dfld d 9 1 < 16 ∧
        tget? s.ctl.homing (16 * dfld d 8 1 + dfld d 9 1) = some [] ∧
        moveRefusal (dfld d 8 1) true true 0 (some []) (taken 0 d s) = none) := by
  unfold Offers
  refine ⟨?_, ?_, ?_⟩ <;> decide +kernel
theorem met_TimeOpcodes :
    (let d := desc 0x0E [(8, 1), (16, 5)]; (let s := offer 0 0 3 3; Offers 0 d 0x0E (usedBits [(8, 1), (16, 16)]) [(8, dfld d 8 1 == 1)] s ∧
        dfld d 8 1 = 1 ∧ timeHeld s = false ∧ passRunning s = false) ∧
      (let s := wrf R.TSY_STATUS 0 3 2 (wrf R.TSY_CTRL 0 3 1 (offer 0 0 3 3));
        Offers 0 d 0x0E (usedBits [(8, 1), (16, 16)]) [(8, dfld d 8 1 == 1)] s ∧ timeHeld s = true)) ∧
    (let s := offer 0 0 3 3; let d := desc 0x0E [(8, 2)]; Offers 0 d 0x0E (usedBits [(8, 1), (16, 16)]) [(8, dfld d 8 1 == 2)] s ∧
      dfld d 8 1 = 2 ∧ timeHeld s = false ∧ passRunning s = false) ∧
    (let s := offer 0 0 3 3; ∀ v ∈ [0, 4], let d := desc 0x0E [(8, 3), (16, v)];
      Offers 0 d 0x0E (usedBits [(8, 1), (16, 16)]) [(8, dfld d 8 1 == 3), (16, decide (dfld d 16 8 ≤ 4))] s ∧ dfld d 8 1 = 3) ∧
    (∀ src ∈ [0, 4], let s := wrf R.TSY_CTRL 0 3 src (offer 0 0 3 3); let d := desc 0x0E [(8, 4), (16, 2 ^ 32)];
      Offers 0 d 0x0E (usedBits [(8, 1), (16, 16)]) [(8, dfld d 8 1 == 4)] s ∧ dfld d 8 1 = 4 ∧ tsySource s = src) ∧
    (let s := offer 0 0 3 3; ∀ c ∈ [5, 6], let d := desc 0x0E [(8, c)];
      Offers 0 d 0x0E (usedBits [(8, 1), (16, 16)]) [(8, dfld d 8 1 == c)] s ∧ dfld d 8 1 = c) := by
  unfold Offers
  refine ⟨?_, ?_, ?_, ?_, ?_⟩ <;> decide +kernel
/-- A head of one row of 256 beamlets on port 0, and context 1 of zeros: a layer is open with it. -/
def smallHead (s : State) : State :=
  { s with dose := { s.dose with
      bsc := { s.dose.bsc with geometry := [0x48, 0x47, 0x45, 0x4F, 1, 1, 1, 1, 0, 1, 0, 1, 1, 0], contexts := [(1, List.replicate 3200 0)] }
      layer := some { number := 7, context := 1, thermal := false } } }
/-- The header of a FACET stream of one line in one group without tags (R88). -/
def streamHeader : List Byte :=
  let b := leBytes 4 0x53544346 ++ [1, 0] ++ leBytes 2 8 ++ leBytes 4 1 ++ leBytes 4 1 ++ leBytes 8 0 ++ leBytes 8 64 ++ leBytes 8 4096 ++
    leBytes 8 0 ++ List.replicate 12 0
  b ++ leBytes 4 (crc32c b)
def oneSwath (code : Nat) (l : List (Nat × Nat)) : Desc := desc code ([(16, 1), (28, 7)] ++ l)
/-- The header that the module reads of the stream. -/
def headOf (d : Desc) (s : State) : Option StreamHead := (readHead d streamHeader s).1.toOption
def passOf (mend : Bool) (d : Desc) (s : State) : Option Pass :=
  (headOf d (taken 0 d s)).map (fun h => passFor mend 0 (nextIndex 0 s) d { number := 7, context := 1, thermal := false } h)
/-- The state once the header has been read. -/
def headState (d : Desc) (s : State) : State := (readHead d streamHeader (taken 0 d s)).2
/-- An open entry of the mend log for line 0 of swath 0. -/
def openEntry : MendEntry := ⟨0, 7, 0, 1, 0, 0, 1, 8, 0, 0, 0, 0, 1, 0, 1, 0, false⟩
/-- The context is valid for a layer without the thermal engine. -/
theorem small_context (s : State) (h : s.dose.bsc = (smallHead State.reset).dose.bsc) : contextFault false 1 s = none := by
  unfold contextFault geometry?
  rw [h]
  decide +kernel
def beginDesc : Desc := desc 0x20 [(8, 7)] 1
def noLayer : State := { smallHead (offer 0 1 4 2) with dose := { (smallHead (offer 0 1 4 2)).dose with layer := none } }
theorem met_LayerOpcodes_begin :
    (Offers 0 beginDesc 0x20 (usedBits [(8, 4), (12, 1)]) [(2, decide (1 ≤ dContext beginDesc)), (12, decide (dfld beginDesc 12 1 < 2))] noLayer ∧
      noLayer.dose.layer = none ∧ bit 0 (dfld beginDesc 12 1) = false ∧ dContext beginDesc = 1) ∧
    contextFault false 1 (taken 0 beginDesc noLayer) = none := by
  refine ⟨?_, small_context _ rfl⟩
  unfold Offers
  decide +kernel
def swathState : State := modMnd (fun m => { m with log := [openEntry] }) (smallHead (offer 0 1 4 2))
theorem met_LayerOpcodes_swath :
    (Offers 0 (oneSwath 0x21 []) 0x21 (usedBits swathFields) (swathTests (oneSwath 0x21 [])) swathState ∧
      swathState.dose.layer = some { number := 7, context := 1, thermal := false } ∧ dfld (oneSwath 0x21 []) 28 4 = 7 ∧
      (headOf (oneSwath 0x21 []) (taken 0 (oneSwath 0x21 []) swathState)).isSome = true ∧
      (passOf false (oneSwath 0x21 []) swathState).any (fun p => p.count == 1 && p.first == 0 && p.head.lines == 1 && p.contexts == [1]) = true) ∧
    contextFault false 1 (headState (oneSwath 0x21 []) swathState) = none := by
  refine ⟨?_, small_context _ (by decide +kernel)⟩
  unfold Offers
  decide +kernel
theorem met_LayerOpcodes_mend :
    (Offers 0 (oneSwath 0x23 []) 0x23 (usedBits (swathFields ++ [(52, 4), (56, 4), (60, 2), (62, 1)]))
        (swathTests (oneSwath 0x23 []) ++ [(62, decide (dfld (oneSwath 0x23 []) 62 1 < 2))]) swathState ∧
      (headOf (oneSwath 0x23 []) (taken 0 (oneSwath 0x23 []) swathState)).isSome = true ∧
      (passOf true (oneSwath 0x23 []) swathState).any (fun p => p.count == 1 && p.first == 0 && p.head.lines == 1 && p.contexts == [1] &&
        mendFault p (headState (oneSwath 0x23 []) swathState) == none) = true) ∧
    contextFault false 1 (headState (oneSwath 0x23 []) swathState) = none := by
  refine ⟨?_, small_context _ (by decide +kernel)⟩
  unfold Offers
  decide +kernel
theorem met_LayerOpcodes_end : Offers 0 (desc 0x22 [(8, 7)]) 0x22 (usedBits [(8, 4)]) [] swathState ∧ swathState.dose.layer.isSome = true ∧
    dfld (desc 0x22 [(8, 7)]) 8 4 = 7 := by
  unfold Offers
  decide +kernel
theorem met_UtilityOpcodes :
    (let s := offer 0 3 3 2; ∀ n ∈ [(1, 1), (64, 2 ^ 40)], let d := desc 0x40 [(16, 2), (18, n.1), (44, n.2)];
     Offers 0 d 0x40 (usedBits [(8, 8), (16, 1), (17, 1), (18, 1), (19, 1), (20, 8), (28, 8), (36, 8), (44, 8), (52, 8)])
      [(16, decide (dfld d 16 1 < 3)), (17, decide (dfld d 17 1 < 2)), (18, decide (1 ≤ dfld d 18 1 ∧ dfld d 18 1 ≤ 64)),
       (19, decide (dfld d 19 1 < 4)), (44, decide (1 ≤ dfld d 44 8 ∧ dfld d 44 8 ≤ 2 ^ 40))] s) ∧
    (let s := offer 0 3 3 2; ∀ n ∈ [(1, 1, 0), (512, 2 ^ 31, 4096)], let d := desc 0x41 [(18, n.1), (20, n.2.1), (48, n.2.2)];
     Offers 0 d 0x41 (usedBits [(8, 8), (16, 1), (17, 1), (18, 2), (20, 4), (24, 8), (32, 8), (40, 8), (48, 4)])
      [(16, decide (dfld d 16 1 < 2)), (17, decide (dfld d 17 1 < 4)), (18, decide (1 ≤ dfld d 18 2 ∧ dfld d 18 2 ≤ 512)),
       (20, decide (1 ≤ dfld d 20 4 ∧ dfld d 20 4 ≤ 2 ^ 31)), (48, decide (dfld d 48 4 ≤ 4096))] s) ∧
    (let s := offer 0 3 3 2; let d := desc 0x42 [(32, 1)]; Offers 0 d 0x42 (usedBits [(8, 8), (16, 8), (24, 8), (32, 4), (36, 4)]) [] s) ∧
    (let s := offer 0 3 3 2; ∀ n ∈ [(64, 0), (1, 1)], let d := desc 0x43 [(8, n.1), (16, n.2), (24, n.1)];
     Offers 0 d 0x43 (usedBits [(8, 8), (16, 1), (24, 8), (32, 8)])
      [(8, !(dfld d 16 1 == 0) || dfld d 8 8 % 64 == 0), (16, decide (dfld d 16 1 < 2)), (24, !(dfld d 16 1 == 0) || dfld d 24 8 % 64 == 0)] s) ∧
    (let s := offer 0 3 3 2; ∀ n ∈ [(1, 0), (8, 3)], let d := desc 0x44 [(8, n.1), (16, n.1), (26, n.2), (32, n.1)];
     Offers 0 d 0x44 (usedBits [(8, 8), (16, 8), (24, 1), (25, 1), (26, 1), (32, 8)])
      [(8, dfld d 8 8 % swapUnit (dfld d 26 1) == 0), (16, dfld d 16 8 % swapUnit (dfld d 26 1) == 0),
       (24, decide (dfld d 24 1 < 2) && !(dfld d 24 1 == 1 && dfld d 25 1 == 1)), (25, decide (dfld d 25 1 < 2)),
       (26, decide (dfld d 26 1 < 4)), (32, dfld d 32 8 % swapUnit (dfld d 26 1) == 0)] s) ∧
    (let s := offer 0 3 3 2; let d := desc 0x45 [(8, 64), (16, 64)];
     Offers 0 d 0x45 (usedBits [(8, 8), (16, 8)]) [(8, dfld d 8 8 % 64 == 0), (16, dfld d 16 8 % 64 == 0)] s) ∧
    (let j : Job := { index := 0, desc := desc 0x45 [] }; let s := withInt 0 { db := 1, next := 1, jobs := [j] } (withRing 0 3 4 2 (inMode 3));
     findJob 0 0 s = some j ∧ ringType s 0 = tyUtility ∧ j.started = true ∧ j.cpl = none ∧ hostSide j.desc = false) ∧
    (let s := offer 0 2 3 2; ∀ n ∈ [4096, 16777216], let d := desc 0x60 [(16, n), (20, 7)];
     Offers 0 d 0x60 (usedBits [(8, 8), (16, 4), (20, 1)])
      [(16, decide (4096 ≤ dfld d 16 4 ∧ dfld d 16 4 ≤ 16777216) && dfld d 16 4 % 64 == 0), (20, decide (dfld d 20 1 < 8))] s) ∧
    (let j : Job := { index := 0, desc := desc 0x60 [(20, 7)], phase := 1 }
     let s := withInt 0 { db := 1, next := 1, jobs := [j] } (withRing 0 2 4 2 (inMode 3)); waitingBuffer 7 s = some (0, j) ∧ j.phase ≠ 0) := by
  unfold Offers
  refine ⟨?_, ?_, ?_, ?_, ?_, ?_, ?_, ?_, ?_⟩ <;> decide +kernel
/-- Every pair of modes that the statement refuses, at the ends of its list, and the current mode. -/
theorem met_BadModeRefused :
    (∀ p ∈ [(2, 3), (3, 2), (3, 5), (6, 4), (7, 1), (7, 4)], let s := offer 0 0 p.1 2; let d := desc 2 [(8, p.2)];
      Offers 0 d 0x02 (usedBits [(8, 1)]) [(8, decide (dfld d 8 1 ≤ 7))] s ∧ rdb R.CTL_MODE 31 s = false ∧ s.ctl.request = none ∧
        (modeOf s = 5 → s.ctl.calFrom ≠ 3) ∧ dfld d 8 1 ≠ modeOf s ∧
        (modeOf s, dfld d 8 1) ∉ [(3, 4), (3, 1), (3, 7), (6, 7), (4, 3), (6, 3), (7, 3), (1, 3), (3, 6), (4, 6), (5, 6), (7, 6)]) ∧
    (let s := modCtl (fun c => { c with calFrom := 7 }) (offer 0 0 5 2); let d := desc 2 [(8, 5)];
      Offers 0 d 0x02 (usedBits [(8, 1)]) [(8, decide (dfld d 8 1 ≤ 7))] s ∧ (modeOf s = 5 → s.ctl.calFrom ≠ 3) ∧ dfld d 8 1 = modeOf s) := by
  unfold Offers
  refine ⟨?_, ?_⟩ <;> decide +kernel
theorem met_CompletionOfANewDescriptor : let s := withRing 31 0 16 2 (inMode 3); let d := desc 2 [];
    31 < 32 ∧ (ringInt s 31).jobs = [] ∧ ringState s 31 = 2 ∧ dIrq d = false ∧ s.host.busMaster = true ∧ rd R.HIF_RING_CONS s 31 = nextIndex 31 s ∧
      nextIndex 31 s < 2 ^ 32 ∧ 255 < 256 := by decide +kernel
/-- A ring of 8 descriptors, and one of 2^17, break R49. -/
theorem met_BadEnableIsConfigError : (∀ n ∈ [3, 17], let s := withRing 31 0 n 0 (inMode 3); ringState s 31 = 0 ∧ ringConfigOk 31 s = false) ∧
    ringState (withRing 31 0 4 1 (inMode 3)) 31 ≠ 0 := by decide +kernel
theorem met_HoldCausesEnterHold :
    (∀ m ∈ [3, 4, 5, 7], let s := modPwr (fun p => { p with dip := some 0 }) (modCtl (fun c => { c with permit := true, estopOpen := [], estopDisc := false }) (inMode m));
      modeOf s = m ∧ s.ctl.permit = true ∧ s.ctl.estopOpen = [] ∧ s.ctl.estopDisc = false ∧ s.pwr.dip.isSome = true ∧ s.pwr.holdDone = false) ∧
    (∀ m ∈ [1, 2, 6], modeOf (inMode m) = m) ∧
    (16 < 17 ∧ (0x10000 : Word32).toNat = 2 ^ 16 ∧ (1 : Word32).toNat = 2 ^ 0 ∧
      (let s := modCtl (fun c => { c with coolant := true }) (inMode 6); clearable 5 s = true) ∧
      (let s := modCtl (fun c => { c with coolant := false }) (inMode 6); clearable 5 s = false)) := by decide +kernel
theorem met_ModeEntries :
    (let s := wrb R.CTL_MODE 31 true (inMode 6); modeOf s = 6 ∧ rdb R.CTL_MODE 31 s = true ∧ axesStill s = true) ∧
    (let s := modCtl (fun c => { c with request := some ⟨0, 0, 3, false⟩ }) (inMode 4);
      s.ctl.request = some ⟨0, 0, 3, false⟩ ∧ modeOf s = 4 ∧ (curPass s).isNone = true ∧ atRest 0 s = true ∧ atRest 1 s = true ∧
      s.time.pendServo.isNone = true ∧ s.time.pendHost = []) ∧
    (let s0 := modPwr (fun p => { p with due := none, asserted := [] }) (wr R.CTL_HOLD_CAUSE 0 (wrf R.CTL_LOADER 0 3 4 (inMode 2)))
     let s1 := modCtl (fun c => { c with estopOpen := [], estopDisc := false, permit := true, coolant := true }) s0
     let s := { s1 with mem := { s1.mem with training := [] } };
     rdf R.CTL_LOADER 0 3 s = 4 ∧ modeOf s = 2 ∧ s.pwr.due = none ∧ s.pwr.asserted = [] ∧ s.mem.training = [] ∧ s.ctl.estopOpen = [] ∧
      s.ctl.estopDisc = false ∧ s.ctl.permit = true ∧ s.ctl.coolant = true ∧ rd R.CTL_HOLD_CAUSE s = 0 ∧ rdb R.CTL_BRINGUP_DONE 0 s = false) := by
  decide +kernel
/-- Nothing asserted, no release due. -/
def quiet : State := modPwr (fun p => { p with asserted := [], due := none }) (inMode 3)
theorem met_ResetSourcesAssert :
    (∀ k ∈ [0, 1, 2, 4, 5, 7, 8, 9], quiet.pwr.asserted.contains k = false) ∧ quiet.pwr.railsOff = false ∧
    (modCtl (fun c => { c with pin := { c.pin with ioPresent := true } }) quiet).ctl.pin.ioPresent = true ∧
    wdogOn (wrb R.RST_WDOG_CFG 16 true quiet) = true ∧
    (let s := wrb R.DBG_STATUS 6 true (wrb R.DBG_STATUS 0 true quiet); rdb R.DBG_STATUS 0 s = true ∧ rdb R.DBG_STATUS 6 s = true) ∧
    (let v : Word32 := 0xA502; bits 8 8 v.toNat = 0xA5 ∧ bits 0 2 v.toNat < 3 ∧ rdf R.RST_REACH 14 2 quiet ≤ bits 0 2 v.toNat) ∧
    bits 8 8 (0x5A02 : Word32).toNat ≠ 0xA5 ∧ 2399 < 2400 ∧ 10799 < 10800 := by decide +kernel
theorem met_ReleasesRun :
    (let s := modPwr (fun p => { p with due := some 2, asserted := [7], step := 0 }) quiet;
      s.pwr.due = some 2 ∧ s.pwr.railsOff = false ∧ s.pwr.step = 0 ∧ ∀ k ∈ s.pwr.asserted, bit k 128 = false → 2 < reachOf k s) ∧
    quiet.pwr.due = none ∧
    (let s := modPwr (fun p => { p with asserted := [9], railsOff := true }) quiet; s.pwr.asserted.contains 9 = true ∧
      (releaseSources (2 ^ 9) {} s).pwr.asserted.contains 1 = false) ∧
    (let s := modPwr (fun p => { p with asserted := [1] }) quiet; 3300 < 3301 ∧ 11400 < 11401 ∧ s.pwr.asserted.contains 1 = true ∧
      (releaseSources 2 {} (supplyReading 3301 11401 s)).pwr.railsOff = false ∧ modeOf s ≠ 0) ∧
    (let s := modPwr (fun p => { p with railsOff := true }) quiet; s.pwr.railsOff = true ∧ s.pwr.asserted.contains 9 = false) := by
  decide +kernel
theorem met_SupplyCommands : quiet.pwr.lost = false ∧
    (let s := modPwr (fun p => { p with lost := true, validRun := 2 }) quiet; s.pwr.lost = true ∧ 2 ≤ s.pwr.validRun ∧
      2 * (s.time.ns - s.pwr.runPeak) ≤ 3 * halfPeriod 500) ∧
    (let s := wrb R.PWR_STATUS 1 false quiet; rdb R.PWR_STATUS 1 s = false ∧ 3000 ≤ 3000 ∧ s.pwr.asserted.contains 1 = false ∧
      s.pwr.railsOff = false) ∧
    (rdb R.PWR_STATUS 1 (wrb R.PWR_STATUS 1 true quiet) = true ∧ 3100 ≤ 3100) ∧
    (let s := wrb R.PWR_STATUS 2 true (modPwr (fun p => { p with dip := some 0 }) quiet); s.pwr.dip = some 0 ∧ rdb R.PWR_STATUS 2 s = true) ∧
    0 < rd R.PWR_BACKUP_LOW (wr R.PWR_BACKUP_LOW 2500 quiet) := by decide +kernel
theorem met_WatchdogAndBlockReset :
    (let s := modPwr (fun p => { p with wdogHalf := false }) (wrb R.RST_WDOG_CFG 16 true quiet); wdogOn s = true ∧ s.pwr.wdogHalf = false) ∧
    (let s := modCtl (fun c => { c with estopOpen := [], estopDisc := false }) quiet; s.ctl.estopOpen = [] ∧ s.ctl.estopDisc = false) ∧
    (modCtl (fun c => { c with estopOpen := [1] }) quiet).ctl.estopOpen ≠ [] ∧
    (bits 8 8 (0xA412 : Word32).toNat ≠ 0xA5 ∧ 18 < bits 0 5 (0xA513 : Word32).toNat) ∧
    (bits 8 8 (0xA512 : Word32).toNat = 0xA5 ∧ bits 0 5 (0xA512 : Word32).toNat ≤ 18) ∧
    (modPwr (fun p => { p with due := some 2 }) quiet).pwr.due.isSome = true ∧
    (quiet.pwr.due = none ∧ blockBusy 3 (wrf R.PLC_STATUS 0 3 1 quiet) = true ∧ blockBusy 18 quiet = false) ∧
    (let s := wr R.FUS_STATUS 4 quiet; rdf R.FUS_STATUS 0 2 s = 0 ∧ s.pwr.due = none ∧ rdf R.FUS_STATUS 2 2 s < 2) ∧
    (let s := wr R.FUS_STATUS 0 quiet; rdf R.FUS_STATUS 0 2 s = 0 ∧ rdf R.FUS_STATUS 2 2 s = 0 ∧ s.pwr.fuseCut = false) := by decide +kernel
theorem met_ServoCommands :
    (∀ src ∈ [1, 3], let s := wr R.TSY_CTRL src quiet; tsySource s = src ∧ rdb R.TSY_CTRL 5 s = false ∧ s.time.pendServo.isNone = true ∧
      s.time.pendHost = [] ∧ tsyState s ≠ 3) ∧
    tsyState (setTsyState 2 quiet) = 2 ∧ tsyState (setTsyState 3 quiet) = 3 ∧
    (bits 0 3 (4 : Word32).toNat ≤ 4 ∧ bits 0 3 (4 : Word32).toNat ≠ tsySource (wrf R.TSY_CTRL 0 3 3 quiet)) ∧
    (let s := { quiet with time := { quiet.time with wrapSeen := 1 } }; wrapCount s ≠ s.time.wrapSeen) ∧
    (let s := { quiet with time := { quiet.time with wrapSeen := 0 } }; wrapCount s = s.time.wrapSeen) := by decide +kernel
theorem met_TimeInputsAndOutputs : tsySource (wrf R.TSY_CTRL 0 3 1 quiet) ≠ 2 ∧
    (let s := wrf R.TSY_CTRL 0 3 2 quiet; tsySource s = 2 ∧ s.time.ppsMissPosted = false) ∧
    (let s := wr R.TSY_CMP_CTRL 1 quiet 3; 3 < 4 ∧ comparatorDue 3 s = true ∧ rd R.TSY_CMP_PERIOD s 3 = 0 ∧ comparatorDue 2 s = false) ∧
    (∀ v ∈ [1, 2], let s := wrb R.TSY_STATUS 3 true (wrf R.TSY_CTRL 6 2 v quiet); rdf R.TSY_CTRL 6 2 s = v ∧ rdb R.TSY_STATUS 3 s = true ∧
      rdb R.PIN_FAULT 22 s = false) ∧
    ({ quiet with time := { quiet.time with ppsPulse := true } } : State).time.ppsPulse = true := by decide +kernel
theorem met_PtpPortCommands :
    (let s := wrb R.TSY_PORT_CFG 0 false quiet 1; 1 < 2 ∧ rdb R.TSY_PORT_CFG 0 s 1 = false) ∧
    (let s := wrb R.TSY_PORT_CFG 0 true quiet 1; rdb R.TSY_PORT_CFG 0 s 1 = true ∧ rdb R.TSY_CTRL 9 s = false ∧
      rdb R.TSY_CTRL 9 (bump R.TSY_PORT_RX 1 (satPort 1 0x10) (wrf R.TSY_PORT_STATE 8 2 3 s 1) 1) = false) ∧
    (let s := { wr R.TSY_PORT_STATE 2 quiet 1 with time := { quiet.time with cageFault := [(1, [5])] } }; tget [] s.time.cageFault 1 ≠ [] ∧
      rdb R.TSY_PORT_STATE 10 s 1 = false) ∧
    (let s := wr R.TSY_PORT_STATE 2 quiet 1; tget? s.time.cageFault 1 = none ∧ rdf R.TSY_PORT_STATE 0 4 s 1 = 2 ∧
      rdb R.TSY_PORT_STATE 10 s 1 = false) := by decide +kernel
/-- The module serves DRAM in READY. -/
def dramUp : State := wr R.MEMC_STATUS 2 quiet
theorem met_MemoryControllerCommands :
    (let s := wrb R.MEMC_CTRL 1 true { dramUp with arb := { dramUp.arb with requests := [(rqScrub, 0)] } };
      rdb R.MEMC_CTRL 1 s = true ∧ modeOf s = 3 ∧ rdf R.MEMC_STATUS 0 3 s = 2 ∧ ∀ e ∈ s.arb.requests, e.1 = rqScrub) ∧ modeOf (inMode 6) = 6 ∧
    (let s := wr R.MEMC_STATUS 3 quiet; rdf R.MEMC_STATUS 0 3 s = 3 ∧ s.mem.srWake = none) ∧
    rdb R.MEMC_CTRL 0 (wrb R.MEMC_CTRL 0 true dramUp) = true ∧
    (let s := wrb R.MEMC_CTRL 0 false dramUp; rdb R.MEMC_CTRL 0 s = false ∧ mapByteOk 3 (bits 24 6 (0x24000000 : Word32).toNat) s = true ∧
      mapByteOk 2 (bits 16 6 (0x24000000 : Word32).toNat) s = false ∧ rankState 3 2 s ≠ 3) ∧
    (bit 31 (0x7FFFFFFF : Word32).toNat = false ∧ bit 31 (0x80000000 : Word32).toNat = true) ∧
    (let s := { dramUp with mem := { dramUp.mem with migration := some ⟨3, 1, 1, 2, 3, 0, 0, 0⟩, retire := [] } }; dramServes s = true ∧
      s.mem.migration.isSome = true ∧ s.mem.retire = []) ∧
    (let s := { dramUp with mem := { dramUp.mem with training := [0, 3], cold := false } };
      3 < 4 ∧ 3 ∈ s.mem.training ∧ 0 ∈ s.mem.training ∧ 0 ≠ 3 ∧ s.mem.cold = false) ∧
    (bit 0 (1 : Word32).toNat = true ∧ bit 0 (2 : Word32).toNat = false) ∧
    (modeOf (inMode 3) = 3 ∧ modeOf (inMode 7) = 7 ∧ modeOf (inMode 6) ≠ 3 ∧ modeOf (inMode 6) ≠ 7) := by
  refine ⟨?_, ?_, ?_, ?_, ?_, ?_, ?_, ?_, ?_, ?_⟩ <;> decide +kernel
theorem met_MemoryErrors :
    (9 < 10 ∧ 0 ≠ rqMigrate ∧ dramServes dramUp = true ∧ dramSize - 64 < dramSize ∧ readFinds (dramSize - 64) 0 5 dramUp = (0, 5) ∧
      readFinds 0 1 5 dramUp = (1, 5) ∧ readFinds 0 2 5 dramUp = (2, 5)) ∧ 0 ≠ rqCam ∧
    (let s := wrb R.MEMC_SCRUB_CFG 0 true { dramUp with mem := { dramUp.mem with scrubLine := 2 ^ 32 - 2 } };
      rdb R.MEMC_SCRUB_CFG 0 s = true ∧ rdf R.MEMC_STATUS 0 3 s = 2 ∧ s.mem.scrubLine + 1 < 2 ^ 32 ∧
      readFinds (64 * s.mem.scrubLine) 0 5 s = (0, 5)) ∧
    (∀ e ∈ dramUp.mem.sramInjected, e.1 ≠ 0 / 8) := by decide +kernel
/-- Requester 1 holds the grant, requester 2 waits since an earlier or a later time. -/
def arbitrated (t1 t2 : Nat) : State := { dramUp with arb := { dramUp.arb with requests := [(1, t1), (2, t2)], holder := some 1 } }
theorem met_ArbiterCommands :
    (9 < 10 ∧ rdf R.MEMC_STATUS 0 3 dramUp = 2 ∧ requesting 9 dramUp = false ∧ requesting 1 (arbitrated 0 0) = true ∧
      rdf R.MEMC_STATUS 0 3 (arbitrated 0 0) = 2) ∧
    ((arbitrated 0 0).arb.holder = some 1 ∧ dramUp.arb.holder = none) ∧
    (slotPointer (wr R.ARB_STATUS (254 * 256) dramUp) < 255 ∧ slotPointer (wr R.ARB_STATUS (255 * 256) dramUp) = 255) ∧
    (∀ t ∈ [(1, 0), (0, 0), (0, 1)], let s := arbitrated t.1 t.2;
      s.arb.holder = some 1 ∧ tget? s.arb.requests 2 = some t.2 ∧ 2 ≠ 1 ∧ tget 0 s.arb.requests 1 = t.1) ∧
    (bit 0 (1 : Word32).toNat = true ∧ bit 0 (2 : Word32).toNat = false) := by decide +kernel
theorem met_HelperDmaCommands :
    (let s := wr R.UDMA_COUNT 8 quiet 15; 15 ≤ 15 ∧ chState 15 s = 0 ∧ rdb R.UDMA_CTRL 8 s 15 = false ∧ paceQueue 15 s = 0 ∧
      refusal 15 { swap := bits 2 2 (rd R.UDMA_CTRL s 15), srcSpace := bits 4 2 (rd R.UDMA_CTRL s 15), dstSpace := bits 6 2 (rd R.UDMA_CTRL s 15),
                   total := rd R.UDMA_COUNT s 15 } (rd R.UDMA_SRC s 15) (rd R.UDMA_DST s 15) (rd R.UDMA_COUNT s 15) s = none) ∧
    chState 15 (wrf R.UDMA_CH_STATUS 0 2 3 quiet 15) = 3 ∧
    (let s := wr R.UDMA_PACE 1 (wrf R.UDMA_CH_STATUS 0 2 2 quiet 15) 15; chState 15 s = 2 ∧ paceHi 15 s ≤ queueLevel (paceQueue 15 s) 0 s) ∧
    (let s := wr R.UDMA_COUNT 0 (wrf R.UDMA_CH_STATUS 0 2 1 quiet 15) 15; chState 15 s = 1 ∧ rd R.UDMA_COUNT s 15 = 0) ∧
    (bits 32 4 (BitVec.ofNat 64 (15 * 2 ^ 32)).toNat = 15 ∧ chState 15 quiet ≠ 3) := by decide +kernel
theorem met_CrcUnitCommands : (crcFree 3 quiet = true ∧ rdb R.CRC_CTRL 12 quiet 3 = false) ∧
    (let s := wrb R.CRC_CTRL 12 true quiet 3; 3 < 4 ∧ crcFree 3 s = true ∧ rdb R.CRC_CTRL 12 s 3 = true ∧
      (crcConsume 3 (min 0 (rd R.CRC_LEN s 3)) s).1 = false) := by decide +kernel
/-- A pass of one line, of one group of one tile, from host memory. -/
def onePass : Pass :=
  { ring := 0, index := 0, cookie := 0, mend := false, stream := 0, source := 1, dir := 0, number := 0, first := 0, count := 1, layer := 7,
    origin := 0, stepover := 0, scale := 0, swath := 0, context := 1,
    head := { rc := 2, tiles := 1, groups := 1, lines := 1, baseOff := 64, ovfOff := 0, ovfLen := 0, tags := [] }, contexts := [1] }
/-- BUILD with the passes p, and the small head. -/
def passState (p : List Pass) : State :=
  let s := smallHead (wr R.MEMC_STATUS 2 (inMode 4))
  { s with dose := { s.dose with passes := p } }
/-- A group whose tile is all zeros, with its trailer (R93 to R96). -/
def zeroGroup (crc : Nat) : List Byte := List.replicate 64 0 ++ leBytes 4 0 ++ leBytes 2 1 ++ leBytes 2 1 ++ leBytes 4 crc ++ leBytes 4 0
def withBoundary (thermal : Bool) : State :=
  let s := wrb R.THE_CTRL 0 thermal (wrb R.BSC_STATUS 3 false (passState []))
  { s with dose := { s.dose with boundary := some (0, 0) } }
def groupTiles : List (List Byte) := [List.replicate 1024 0]
/-- The pass reads its group in place in DRAM, and a state that holds the group there. -/
def dramPass : Pass := { onePass with source := 0 }
def storedGroup (crc : Nat) : State :=
  let s := passState [dramPass]
  { s with mem := { s.mem with dram := putBytes [] 64 (zeroGroup crc) } }
set_option maxRecDepth 40000 in
theorem met_IntakeAndMaps_group :
    (∀ crc ∈ [crc32c groupTiles.flatten, 1], let s := storedGroup crc
      intakeNext s = some (dramPass, 0) ∧ resident dramPass 0 = true ∧ dramServes s = true) ∧
    (let p := { onePass with staged := [⟨0, 0, 80, [], []⟩] }; let s := passState [p]
      intakeNext s = some (p, 0) ∧ resident p 0 = true ∧ dramServes s = true) ∧
    (decodeNext dramPass 0 (storedGroup (crc32c groupTiles.flatten))).1 = .ok groupTiles ∧
    (decodeNext dramPass 0 (storedGroup 1)).1 = .crc none (crc32c groupTiles.flatten) := by
  refine ⟨?_, ?_, ?_, ?_⟩ <;> decide +kernel
theorem met_IntakeAndMaps_line : let p := { onePass with executing := true, profileOn := true, released := [(0, groupTiles)] }
    let s := passState [p]
    curPass s = some p ∧ thermalOn s = false ∧ inPass p 0 = true ∧ released p 0 = true ∧ mayEnter (geom s) p 0 = true ∧ p.cut = none ∧ modeOf s = 4 ∧
      0 ∉ p.missed ∧ 0 ∉ p.residueLines ∧ 0 ∉ p.doneLines ∧ 0 ∉ p.entered ∧ p.abandoned = false ∧ p.runCount = 0 := by decide +kernel
theorem met_IntakeAndMaps_layer :
    (∀ th ∈ [true, false], let s := withBoundary th; s.dose.boundary = some (0, 0) ∧ s.dose.layer.isSome = true ∧ s.dose.boundaryFill = false ∧
      s.dose.passes = [] ∧ s.dose.the.filling = none ∧ rdb R.BSC_STATUS 3 s = false ∧ rdb R.THE_CTRL 0 s = th ∧ s.dose.mnd.log = []) ∧
    (let s0 := passState []; let s := { s0 with dose := { s0.dose with the := { s0.dose.the with filling := some 5 } } };
      s.dose.the.filling = some 5 ∧ s.dose.the.stopped = false ∧ s.dose.boundaryFill = false) := by decide +kernel
/-- THE's map of 1 × 64 cells. -/
def smallMap (s : State) : State := wr R.THE_STEP_PITCH 1 (wr R.THE_MAP_V 64 (wr R.THE_MAP_U 1 s))
theorem met_IntakeAndMaps_enable :
    (let s := wr R.THE_STATUS 0 (wr R.THE_CTRL 0 quiet); rdf R.THE_STATUS 0 2 s = 0 ∧ rdb R.THE_CTRL 0 s = false ∧ bit 0 (1 : Word32).toNat = true ∧
      theGeomOk (smallMap s) = true ∧ theGeomOk s = false ∧ rdf R.THE_STATUS 0 2 (smallMap s) = 0 ∧ rdb R.THE_CTRL 0 (smallMap s) = false) := by
  decide +kernel
def oneCell : RespMap := ⟨1, 0, 0, 0, false, 0, 63, 1, [some 9], 0⟩
def withMap (a : Nat) : State :=
  let s := wr R.THE_ASSIM_CFG a (wr R.THE_ASSIM_MAX_AGE 0 (wrb R.THE_CTRL 0 true (passState []))) 1
  { s with dose := { s.dose with layer := none, the := { s.dose.the with queue := [oneCell], geom := { u := 1, v := 64 } } }
           mem := { s.mem with dram := [(128, 0), (129, 0), (130, 0), (131, 0)] } }
theorem met_IntakeAndMaps_map :
    (∀ a ∈ [0, 1], let s := withMap a; s.dose.the.queue = [oneCell] ∧ s.dose.the.filling = none ∧ rdb R.THE_CTRL 0 s = true ∧
      rdf R.THE_ASSIM_CFG 0 8 s oneCell.context = a ∧ s.dose.layer = none) ∧
    (let s := withMap 1; oneCell.partialFrame = false ∧ rd R.THE_ASSIM_MAX_AGE s = 0 ∧ mapCells oneCell = [(0, 63, 9)] ∧
      onMap (theGeom s) 0 63 = true ∧ (curPass s).isNone = true ∧
      0 ≤ sdiff 32 (oneCell.captureNs / 2 ^ 20 % 2 ^ 32) (readDramN s (stampAddr (theGeom s) (curSlot s) 0 (63 / 64)) 4)) := by decide +kernel
theorem met_IntakeAndMaps_window : 1 ≤ 1 ∧ 262143 < 262144 ∧ 0 = activeBank quiet ∧ 1 ≠ activeBank quiet ∧ loadInto 1 quiet = false := by
  decide +kernel
/-- A frame of row 0 of the pass that fires at a position, on port 0. -/
def oneFrame : Frame :=
  { port := 0, slot := 0, row := 0, line := 0, event := 0, context := 1, preheat := false, codes := [1], pre := [], doses := [], fire := 20000 }
/-- The pass exposes on the step input at one position unit per nanosecond; its frame is built and port 0 is IDLE with an anchor. -/
def exposing : State :=
  let s := passState [{ onePass with executing := true, profileOn := true, frames := [oneFrame] }]
  let s := wr R.PLC_PIXEL_PITCH 100000 (wr R.PLC_TICK_RATE (2 ^ 30) (wrf R.PLC_STATUS 0 3 3 (wrf R.LNK_STATUS 0 4 10 (wrf R.MOT_CFG 0 2 2 s))))
  wr R.PLC_SEND_LEAD 1 { s with dose := { s.dose with plc := { s.dose.plc with anchors := [0], e1 := 1 } } }
theorem met_FramesOfAPass_start : (nextToRun (passState [])).isNone = true ∧
    (let s := wr R.PLC_STATUS 1 (passState [onePass]); nextToRun s = some onePass ∧ modeOf s = 4 ∧ s.ctl.request = none ∧ plcState s = pTurn) ∧
    external exposing = true := by decide +kernel
def builtPass : Pass := { onePass with executing := true, profileOn := true, window := [(0, [1])] }
theorem met_FramesOfAPass_build :
    (let p := { onePass with executing := true }; curPass (passState [p]) = some p ∧ nextBuild (geom (passState [p])) p = some 0 ∧
      linesReady (geom (passState [p])) p 0 = false) ∧
    (let s := wrf R.PLC_STATUS 0 3 3 (passState [builtPass]); curPass s = some builtPass ∧ nextBuild (geom s) builtPass = some 0 ∧ linesReady (geom s) builtPass 0 = true ∧
      builtPass.cut = none ∧ Machine.exposing builtPass s = true ∧ external s = false) := by decide +kernel
theorem met_FramesOfAPass_send : sendHeld (wrb R.PLC_STATUS 5 true exposing) = true ∧
    (let p := { onePass with executing := true, profileOn := true, frames := [oneFrame] }; let s := exposing
     curPass s = some p ∧ oneFrame.sent = none ∧ oneFrame.slot < 32 ∧ p.late = [] ∧ sendHeld s = false ∧ Machine.exposing p s = true ∧ oneFrame.port = 0 ∧
      beyond p (rdI R.PLC_MARK s) (sendThreshold p [oneFrame] s) = true ∧ lnkState 0 s = 10 ∧ 0 ∈ s.dose.plc.anchors ∧
      4096 ≤ sdiff 32 (tickAt 0 (predictTime p.dir oneFrame.fire s) s) (tickOf 0 s) ∧
      sdiff 32 (tickAt 0 (predictTime p.dir oneFrame.fire s) s) (tickOf 0 s) ≤ (twentyLines p oneFrame s : Int) ∧
      sdiff 32 (tickAt 0 (predictTime p.dir oneFrame.fire s) s) (tickOf 0 s) ≤ 2 ^ 28) := by decide +kernel
theorem met_FramesOfAPass_late : let s := passState [builtPass]; curPass s = some builtPass ∧ builtPass.sendOver = false ∧ builtPass.abandoned = false ∧
    builtPass.profileOn = true ∧ 0 ∉ builtPass.built := by decide +kernel
/-- A pass that may run up, with AX0 at a position. -/
def turning (x : Nat) : State :=
  let s := wr R.PLC_STATUS 1 (passState [{ onePass with executing := true }])
  let s := wr R.MOT_CMD_POS x s
  { s with dose := { s.dose with plc := { s.dose.plc with settled := true, dwellDone := true, convT := false, convV := false, waitOver := true, turnOf := some 0 } } }
theorem met_TurnAndRunup :
    (∀ st ∈ [0, 4], let s := wr R.PLC_STATUS st (passState []); plcState s = st ∧ s.dose.layer ≠ none ∧ modeOf s = 4 ∧ atRest 0 s = true ∧
      external s = false ∧ s.dose.passes = [] ∧ s.time.pendHost = [] ∧ s.time.pendServo.isNone = true) ∧
    (let s := turning 0; plcState s = pTurn ∧ nextPass s = some { onePass with executing := true } ∧ atRest 1 s = true ∧
      (pdiff (measPos 1 s) onePass.stepover).natAbs ≤ rd R.PLC_STEP_TOL s) ∧
    (let p := { onePass with executing := true }; let s := turning 0; nextPass s = some p ∧ mayRunUp p s = true ∧ roomToRun p (withdrawHead s) = false) ∧
    (let p := { onePass with executing := true }; let s := turning (2 ^ 64 - 2 ^ 40); nextPass s = some p ∧ mayRunUp p s = true ∧ roomToRun p (withdrawHead s) = true) ∧
    (let q : Prof := { x := 0, v := 0, a := 0, segs := [], start := 0 }; let s := modAxis 0 (fun x => { x with prof := some q }) (wr R.PLC_STATUS 2 (inMode 4))
     (axisOf s 0).prof = some q ∧ plcState s = pRunup ∧ profDone q = true ∧ (axisOf s 0).runHold = false) ∧
    (5 < 6 ∧ axisSource 5 (wr R.MOT_CFG 0 quiet 5) = 0 ∧ rdb R.MOT_FAULT 1 quiet 5 = false ∧ ∀ a < 6, axisSource a quiet ≠ 2) := by
  refine ⟨?_, ?_, ?_, ?_, ?_, ?_⟩ <;> decide +kernel
/-- A TRAIN block of state `st` from return lane 1, with its block_crc (R234, R240). -/
def trainBlock (st : Nat) : List Byte :=
  let b : List Byte := [6, 1, 2, BitVec.ofNat 8 st, 1, 0] ++ List.replicate 22 0x4B
  b ++ leBytes 4 (crc32c b)
/-- Port p in a link state. -/
def atLink (p st : Nat) (x : Port := {}) : State := modPort p (fun _ => x) (wrf R.LNK_STATUS 0 4 st quiet p)
theorem met_LinkTraining :
    (let s := atLink 3 1; 3 < 4 ∧ lnkState 3 s = 1 ∧ (portOf s 3).failed = false) ∧ lnkState 3 (atLink 3 2) = 2 ∧
    (∀ st ∈ [2, 9], let s := atLink 3 st; lnkState 3 s = st ∧ (portOf s 3).failed = false ∧ (portOf s 3).retrain = none ∧
      (portOf s 3).downPosted = false) ∧
    (let s := atLink 3 5 { failed := true }; (portOf s 3).failed = true ∧ lnkState 3 s ≠ 0) ∧
    (∀ inv ∈ [false, true], let s := wrf R.LNK_STATUS 16 2 3 (atLink 3 3 { rx := [(0, { bitLocked := true, locked := true })] }) 3; let up := trainBlock 4
      let block := if inv then up.map (fun b => ~~~b) else up
      lnkState 3 s = 3 ∧ (portOf s 3).failed = false ∧ 1 ∈ backLanes 3 s ∧ trainOf block = some (inv, up) ∧ blockOk up = true ∧
      3 < bytesAt up 3 1 ∧ ∀ l ∈ backLanes 3 s, l ≠ 1 → laneLocked 3 l s = true) ∧
    (let s := wrf R.LNK_STATUS 16 2 1 (atLink 3 7) 3; lnkState 3 s = 7 ∧ 0 ∈ backLanes 3 s ∧ backLanes 3 s = [0] ∧ skewBack s = 212 ∧
      skewBack (wrb R.LNK_RATE 0 true s) = 103 ∧ (portOf s 3).retrain = none ∧ (portOf s 3).theirsDone = false) ∧
    (let s := atLink 3 8; lnkState 3 s = 8 ∧ bytesAt [0, 0, 0] 1 1 = 0 ∧ (bytesAt [0, 0, 0] 2 1 % 8) &&& ownMask 3 s = 0) ∧
    (∀ v ∈ [1, 3], let s := atLink 3 8 { offered := v }; lnkState 3 s = 8 ∧ bytesAt [0, 1, BitVec.ofNat 8 v] 1 1 = 1 ∧
      bytesAt [0, 1, BitVec.ofNat 8 v] 2 1 = (portOf s 3).offered ∧ 1 ≤ (portOf s 3).offered ∧ (portOf s 3).offered ≤ 3) ∧
    1 ≠ (portOf (atLink 3 9) 3).exchange ∧
    (∀ st ∈ [9, 10], let s := atLink 3 st { waiting := true, kind := 1 }; lnkState 3 s = st ∧ (portOf s 3).failed = false ∧
      (portOf s 3).waiting = true ∧ (portOf s 3).kind = 1) ∧
    (let s := atLink 3 10 { lanesOut := 1 }; lnkState 3 s = 10 ∧ 0 < (portOf s 3).lanesOut) := by
  refine ⟨?_, ?_, ?_, ?_, ?_, ?_, ?_, ?_, ?_, ?_⟩ <;> decide +kernel
/-- A pass whose one frame has been sent on port 3. -/
def sentPass : Pass := { onePass with frames := [{ oneFrame with port := 3, sent := some ⟨0, 0, 0, 0, 0, 0, none, 0⟩ }] }
/-- A telemetry block with its block_crc (R234, R260). -/
def telemetryBlock : List Byte :=
  let b : List Byte := 0x12 :: List.replicate 27 0
  b ++ leBytes 4 (crc32c b)
def oneAck : AckRec := ⟨0, 1, 0, 0, 0⟩
theorem met_LinkRunning :
    (let s := wrb R.LNK_CTRL 6 true (atLink 3 10) 3; lnkState 3 s = 10 ∧ rdb R.LNK_CTRL 6 s 3 = true ∧ outstandingOn 3 s = [] ∧ plcState s ≤ pTurn ∧
      (portOf s 3).waiting = false) ∧
    (let s := atLink 3 12; lnkState 3 s = 12 ∧ 1 ≠ 0 ∧ (portOf s 3).checkDue = false) ∧
    (let s := wrf R.LNK_STATUS 8 8 128 (atLink 3 11) 3; lnkUp 3 s = true ∧ bit 7 (rdf R.LNK_STATUS 8 8 s 3) = true) ∧
    (portOf (atLink 3 4 { retrain := some (1, 0) }) 3).retrain ≠ none ∧ laneLocked 3 0 (atLink 3 10) = false ∧
    (lnkUp 3 (atLink 3 10) = true ∧ bytesAt telemetryBlock 0 1 = 0x12 ∧ blockOk telemetryBlock = true) ∧
    (let s := { atLink 3 10 with dose := { (atLink 3 10).dose with passes := [sentPass] } }
     lnkState 3 s ≠ 0 ∧ s.dose.passes = [sentPass] ∧ (sentPass.frames.all (fun f => f.port == 3 && f.sent.isSome && f.row == oneAck.row &&
      f.line == oneAck.line && decide (sdiff 32 (tickOf 3 s) (fireTick f) ≤ ackTicks))) = true ∧ sentPass.number = oneAck.pass ∧ oneAck.verdict = 1 ∧
      deferred 3 s = false ∧ (oldestOn 3 s).isSome = true) ∧
    (portOf (atLink 3 10 { deferEnding := true }) 3).deferEnding = true ∧
    (let s := atLink 3 10 { clockStopped := true }; (portOf s 3).clockStopped = true ∧ outstandingOn 3 s = [] ∧
      (let t := { s with dose := { s.dose with passes := [sentPass] } }; (portOf t 3).clockStopped = true ∧ t.dose.passes = [sentPass] ∧
        sentPass.frames.all (fun f => f.port == 3 && f.sent.isSome) = true)) ∧
    (lnkState 3 (atLink 3 0) = 0 ∧ (atLink 3 0).pwr.asserted = [] ∧ (atLink 3 0).pwr.due = none ∧ 1 < modeOf (atLink 3 0) ∧ lnkState 3 (atLink 3 10) ≠ 0 ∧
      (portOf (atLink 3 10) 3).retrain = none) ∧
    (let s := modMnd (fun m => { m with log := [openEntry] }) quiet; findEntry (0 : Word32).toNat s = some openEntry ∧ ∀ q ∈ s.dose.passes, q.mend = false) := by
  refine ⟨?_, ?_, ?_, ?_, ?_, ?_, ?_, ?_, ?_, ?_⟩ <;> decide +kernel
def atAxis (a : Nat) (x : Axis) : State := modAxis a (fun _ => x) quiet
def restProf : Prof := { x := 0, v := 0, a := 0, segs := [], start := 0 }
def oneMove (home : Bool) : QEntry := { home := home, cookie := 0, target := 0, vmax := 0, amax := 0, jmax := 0 }
theorem met_AxisCommands :
    (let s := wr R.MOT_ENV_AMAX 1 (wr R.MOT_ENV_JMAX 1 (atAxis 5 { running := true, prof := some restProf }) 5) 5;
      (axisOf s 5).running = true ∧ (axisOf s 5).prof = some restProf ∧ (axisOf s 5).runHold = false ∧ rd R.MOT_ENV_AMAX s 5 ≠ 0 ∧
      rd R.MOT_ENV_JMAX s 5 ≠ 0) ∧
    (axisOf quiet 5).running = false ∧ axisSource 5 (wrf R.MOT_CFG 0 2 2 quiet 5) = 2 ∧ axisSource 5 quiet ≠ 2 ∧
    (let s := wr R.MOT_FAULT (8 + 256) quiet 5; (8 : Word32).toNat = 2 ^ 3 ∧ rdb R.MOT_FAULT 3 s 5 = true ∧ rdb R.MOT_FAULT 8 s 5 = true) ∧
    (let s := wrf R.MOT_STATUS 0 3 6 (wr R.MOT_FAULT 256 quiet 5) 5; (256 : Word32).toNat = 2 ^ 8 ∧ rdb R.MOT_FAULT 8 s 5 = true ∧
      rd R.MOT_FAULT s 5 = 2 ^ 8 ∧ axisState 5 s = mFault) ∧
    (motHalted 5 (wrf R.MOT_STATUS 0 3 2 quiet 5) = false ∧ motHalted 5 (wrf R.MOT_STATUS 0 3 6 quiet 5) = true ∧
      bits 0 2 (2 : Word32).toNat ≠ axisSource 5 (wrf R.MOT_STATUS 0 3 6 quiet 5)) ∧
    (let s := wr R.MOT_STANDSTILL_DELAY 5 quiet 5; (axisOf s 5).prof.isNone = true ∧ (axisOf s 5).queue = [] ∧ rd R.MOT_STANDSTILL_DELAY s 5 ≠ 0) ∧
    (let s := atAxis 5 { runHold := true, prof := some restProf }; (axisOf s 5).runHold = true ∧ (axisOf s 5).prof = some restProf ∧
      rdb R.MOT_FAULT 2 s 5 = false) ∧
    (∀ h ∈ [true, false], let s := atAxis 5 { running := true, queue := [oneMove h], ending := some 0 }; headEntry 5 s = some (oneMove h) ∧
      (axisOf s 5).ending = some 0 ∧ (axisOf s 5).prof.isNone = true) := by
  refine ⟨?_, ?_, ?_, ?_, ?_, ?_, ?_, ?_, ?_, ?_⟩ <;> decide +kernel
def encoders : State := modPlc (fun c => { c with decelPending := false }) (modCtl (fun c => { c with estopOpen := [], estopDisc := false })
  (each [0, 1, 2, 3, 4, 5] (fun a s => wr R.MOT_CFG 0 s a) quiet))
theorem met_MotionInputs : modeOf (inMode 0) = 0 ∧ (modPwr (fun p => { p with railsOff := true }) quiet).pwr.railsOff = true ∧
    (modeOf encoders ≠ 0 ∧ encoders.pwr.railsOff = false ∧ encoders.pwr.due = none ∧ encoders.dose.passes = [] ∧
      encoders.dose.plc.decelPending = false ∧ encoders.dose.plc.runoutPending = false ∧ encoders.ctl.estopOpen = [] ∧ encoders.ctl.estopDisc = false ∧
      ∀ a < 6, (axisOf encoders a).prof.isNone = true ∧ (axisOf encoders a).running = false ∧ (axisOf encoders a).linkStopped = false ∧
        axisSource a encoders = 0 ∧ (pdiff (measPos a encoders) (cmdPos a encoders)).natAbs ≤ rd R.MOT_FOLLOW_LIMIT encoders a) ∧
    (loopClass 800 ≤ 1 ∧ loopClass 1400 ≤ 1 ∧ loopClass 3000 ≤ 1 ∧ loopClass 5000 ≤ 1) ∧
    (let s := wr R.MOT_CHATTER_MAX 1 quiet 5; (tget {} (axisOf s 5).sw 2).edges = 0 ∧ 1 ≤ rdf R.MOT_CHATTER_MAX 0 8 s 5) ∧
    (let s := atAxis 5 { sw := [(2, { edges := 1 })] }; (tget {} (axisOf s 5).sw 2).edges ≠ 0 ∧ (axisOf s 5).running = false) := by
  refine ⟨?_, ?_, ?_, ?_, ?_, ?_⟩ <;> decide +kernel
/-- A port and a context of it that run and take free-running frames of 16 by 2 RAW8 pixels. -/
def cameras (p v c : Nat) : State :=
  wr R.CAM_CTX_SIZE (16 + 2 ^ 16 * 2) (wr R.CAM_CTX_CFG (1 + 2 * p + 8 * v + 32 + 64 * 0x2A + 2 ^ 15) (wrb R.CAM_PORT_CFG 0 true quiet p) c) c
def aFrame (p v c n : Nat) : CamFrame :=
  { context := c, port := p, vc := v, number := n, gen := 0, startTt := 0, t0 := 0, t0Tt := 0, triggered := false, doubt := false, page := [],
    width := 16, height := 2, carriage := false, buffer := none }
def camLine : CsiLine := { port := 3, vc := 3, dataType := 0x2A, bytes := 16, samples := List.replicate 16 1 }
def withFrame (f : CamFrame) (s : State) : State := modCam (fun m => { m with frames := [f] }) s
theorem met_CameraFrames :
    (∀ p ∈ [0, 3, 4], portRuns p quiet = false) ∧
    (let s := cameras 3 3 15; portRuns 3 s = true ∧ 3 < 4 ∧ 15 < 16 ∧ frameOn 3 3 s = none ∧ tget? s.cam.pulses 3 = none ∧ ctxOn s 15 = true ∧
      ctxPort s 15 = 3 ∧ ctxVc s 15 = 3 ∧ rdb R.CAM_CTX_CFG 5 s 15 = true ∧
      (∀ d < 15, ¬(ctxOn s d = true ∧ ctxPort s d = 3 ∧ ctxVc s d = 3 ∧ rdb R.CAM_CTX_CFG 5 s d = true)) ∧
      rdb R.CAM_CTX_COMMIT 0 s 15 = false ∧ (camCtx s 15).queue = []) ∧
    (let s := cameras 3 3 15; portRuns 3 s = true ∧ 2 < 4 ∧ frameOn 3 2 s = none ∧ tget? s.cam.pulses 3 = none ∧
      ∀ d < 16, ¬(ctxOn s d = true ∧ ctxPort s d = 3 ∧ ctxVc s d = 2 ∧ rdb R.CAM_CTX_CFG 5 s d = true)) ∧
    (let f := { aFrame 3 3 15 1 with received := 1 }; let s := withFrame f (cameras 3 3 15);
      portRuns camLine.port s = true ∧ rawType camLine.dataType = true ∧ frameOn camLine.port camLine.vc s = some f ∧ camLine.errors = 0 ∧
      f.received < f.height ∧ camLine.bytes = f.width * rawBits (rdf R.CAM_CTX_CFG 6 6 s f.context) / 8 ∧ bufferedBytes camLine.port s + camLine.bytes ≤ 2 ^ 20) ∧
    (let f := { aFrame 3 3 15 1 with received := 2 }; let s := withFrame f (cameras 3 3 15);
      portRuns camLine.port s = true ∧ rawType camLine.dataType = true ∧ frameOn camLine.port camLine.vc s = some f ∧ camLine.errors = 0 ∧
      f.height ≤ f.received ∧ camLine.bytes = f.width * rawBits (rdf R.CAM_CTX_CFG 6 6 s f.context) / 8) ∧
    (portRuns 3 (cameras 3 3 15) = true ∧ ∀ t ∈ [0, 1, 0x29], t < 0x2A ∧ t ∉ [2, 3, 0x12]) ∧
    (∀ n ∈ [1, 2], let f := { aFrame 3 3 15 1 with received := n, waiting := n }; let s := withFrame f (cameras 3 3 15);
      portRuns 3 s = true ∧ s.cam.frames = [f] ∧ f.ended = false ∧ f.port = 3 ∧ f.vc = 3 ∧ f.waiting ≠ 0 ∧ f.extra = 0 ∧ f.errBits = 0 ∧
      (camCtx s f.context).queue = [] ∧ f.overrun = 0 ∧ f.invalid = 0 ∧ f.received ≤ f.height) ∧
    (let f := { aFrame 3 3 15 1 with waiting := 1 }; let s := withFrame f quiet; f.port < 4 ∧ s.cam.frames = [f] ∧ f.ended = false ∧ f.context = 15 ∧
      f.waiting ≠ 0 ∧ f.extra = 0 ∧ f.errBits = 0 ∧ (camCtx s 15).queue = []) ∧
    (let f := { aFrame 3 3 15 1 with waiting := 1 }; let b : BufLine := ⟨15, 1, 0, 16, [1]⟩
     let s := modCam (fun m => { m with buffers := [(3, [b])] }) (withFrame f quiet); 3 < 4 ∧ s.cam.lastPort < 4 ∧ tget [] s.cam.buffers 3 = b :: [] ∧
      (∀ q < 4, q ≠ 3 → tget [] s.cam.buffers q = []) ∧ s.cam.frames = [f] ∧ f.context = b.context ∧ f.number = b.frame ∧ f.ended = false ∧
      pageN f.page 0x10 2 = 0) ∧
    (let f := { aFrame 3 3 15 1 with ended := true }; let s := withFrame f quiet; s.cam.frames = [f] ∧ f.context = 15 ∧ f.ended = true ∧ f.waiting = 0 ∧
      f.buffer = none ∧ pageFlag f.page 1 = false) := by
  refine ⟨?_, ?_, ?_, ?_, ?_, ?_, ?_, ?_, ?_, ?_⟩ <;> decide +kernel
def aPulse : Pulse := { context := 15, tt := 0, e := 0 }
def withBus (b : CamBus) : State := modBus 3 (fun _ => b) quiet
theorem met_CameraControl :
    (portRuns 3 quiet = false ∧ portRuns 3 (cameras 3 3 15) = true ∧ tget? (cameras 3 3 15).cam.pulses 3 = none ∧
      ∀ b ∈ [true, false], rdb R.PIN_FAULT 21 (wrb R.PIN_FAULT 21 b (cameras 3 3 15)) = b) ∧
    (let s := modCam (fun m => { m with pulses := [(3, aPulse)] }) (cameras 3 3 15); portRuns 3 s = true ∧ tget? s.cam.pulses 3 = some aPulse ∧
      aPulse.running = true ∧ rdb R.PIN_FAULT (18 + 3) s = false) ∧
    (3 < 4 ∧ (camBus quiet 3).current = none ∧ (camBus quiet 3).direct = none ∧ (camBus quiet 3).due = [] ∧ bit 7 (0x80 : Word32).toNat = true) ∧
    (let s := withBus { current := some (false, { delay := false }) }; (camBus s 3).current = some (false, { delay := false }) ∧
      (camBus s 3).direct = none ∧ (camBus s 3).due = [] ∧ 7 < 8 ∧ (camBus s 3).read = false) ∧
    (bit 0 (0x0AA1 : Word32).toNat = true ∧ ctxOn (cameras 3 3 15) 15 = true) ∧
    (∀ n ∈ [(16, 2, dramSize - 2 ^ 20, dramSize - 2 ^ 25), (8192, 8192, 0, 0)],
      let s := wr R.CAM_CTX_MAP_BASE n.2.2.2 (wr R.CAM_CTX_REF_BASE n.2.2.1 (wr R.CAM_CTX_SIZE (n.1 + 2 ^ 16 * n.2.1) quiet 15) 15) 15
      ctxOn s 15 = false ∧ frameOf s 15 = none ∧ bit 0 (0x0AA1 : Word32).toNat = true ∧ rawType (bits 6 6 (0x0AA1 : Word32).toNat) = true ∧
      16 ≤ rdf R.CAM_CTX_SIZE 0 14 s 15 ∧ rdf R.CAM_CTX_SIZE 0 14 s 15 ≤ 8192 ∧ rdf R.CAM_CTX_SIZE 0 14 s 15 % 16 = 0 ∧
      2 ≤ rdf R.CAM_CTX_SIZE 16 14 s 15 ∧ rdf R.CAM_CTX_SIZE 16 14 s 15 ≤ 8192 ∧ rd R.CAM_CTX_REF_BASE s 15 % 2 ^ 20 = 0 ∧
      rd R.CAM_CTX_MAP_BASE s 15 % 2 ^ 20 = 0 ∧
      rd R.CAM_CTX_REF_BASE s 15 + rdf R.CAM_CTX_SIZE 0 14 s 15 * rdf R.CAM_CTX_SIZE 16 14 s 15 * 2 ≤ dramSize ∧
      rd R.CAM_CTX_MAP_BASE s 15 + 32 * 2 ^ 20 ≤ dramSize) ∧
    (ctxOn quiet 15 = false ∧ frameOf (cameras 3 3 15) 15 = none ∧ (camCtx (cameras 3 3 15) 15).queue = [] ∧
      ctxOn (cameras 3 3 15) 15 = true ∧ rdb R.CAM_CTX_COMMIT 0 (cameras 3 3 15) 15 = false) ∧
    (3 : Word32).toNat % 4 ∉ (camCtx quiet 15).heldThe ∧
    (∀ b ∈ [true, false], rdb R.CAM_PWR_STATUS 3 (wrb R.CAM_PWR_STATUS 3 b quiet) = b) := by
  refine ⟨?_, ?_, ?_, ?_, ?_, ?_, ?_, ?_, ?_⟩ <;> decide +kernel
/-- Remote input n in service, with no head. -/
def remoteOn (n : Nat) (s : State) : State := wr R.THM_REMOTE_CFG 1 s n
def converting (c : Conv) (s : State) : State := modThm (fun t => { t with converting := some c, queue := [] }) s
def calRunning (l : List Nat) (s : State) : State := modThm (fun t => { t with run := some { items := l, startNs := 0, gap := 3 } }) s
theorem met_ThermalSensing :
    (9 < 10 ∧ (256 : Word32).toNat = 2 ^ 8 ∧ inputOff 8 (wr R.THM_REMOTE_CFG 0 quiet 7) = true) ∧
    (let s := remoteOn 7 quiet; inputOff 8 s = false ∧ s.thm.converting = none ∧ s.thm.queue = [] ∧ inputOff 0 s = false ∧ inputOff 9 s = false) ∧
    (let s := converting { sensor := 9, prio := 4 } (remoteOn 7 quiet); inputOff 8 s = false ∧ s.thm.converting = some { sensor := 9, prio := 4 } ∧
      ∀ x ∈ s.thm.queue, x.sensor ≠ 8) ∧
    (modeOf (inMode 0) = 0 ∧ modeOf quiet ≠ 0 ∧ (∀ i < 8, isHead i quiet = false) ∧ quiet.thm.converting = none ∧ quiet.thm.queue = []) ∧
    (∀ n ∈ [1, 8], let c : Conv := { sensor := n, prio := 4, who := [whoHost] }; let s := converting c (remoteOn (n - 1) quiet);
      s.thm.converting = some c ∧ s.thm.queue = [] ∧ 1 ≤ c.sensor ∧ c.sensor < 9 ∧ inputOff c.sensor s = false ∧ isHead (c.sensor - 1) s = false ∧
      c.who.contains whoBuild = false ∧ detect c.sensor 0 500 s = 0 ∧ rdb R.THM_STATUS 5 s = false) ∧
    (∀ n ∈ [1, 8], let c : Conv := { sensor := n, prio := 3, who := [whoCal] }; let s := converting c (remoteOn (n - 1) quiet); 2 ≠ 0 ∧
      s.thm.converting = some c ∧ s.thm.queue = [] ∧ 1 ≤ c.sensor ∧ c.sensor < 9 ∧ inputOff c.sensor s = false ∧ isHead (c.sensor - 1) s = false ∧
      c.who = [whoCal] ∧ s.thm.faultRun.contains c.sensor = false ∧ detect c.sensor 0 1001 s = 1 ∧ detect c.sensor 0 199 s = 2 ∧
      rdb R.THM_STATUS 5 s = false) ∧
    (∀ m ∈ [2, 5, 6], modeOf (inMode m) ≠ 3 ∧ modeOf (inMode m) ≠ 4) ∧
    (modeOf quiet = 3 ∧ onesOf 7 ((127 : Word32).toNat % 128) ≠ [] ∧ ∀ k ∈ onesOf 7 ((127 : Word32).toNat % 128), rdb R.THM_CAL_ITEM 6 quiet k = true) ∧
    quiet.thm.run = none ∧
    (let s := calRunning [6, 0] quiet; s.thm.run = some { items := [6, 0], startNs := 0, gap := 3 } ∧ 6 < 7) ∧
    (let s := modCtl (fun c => { c with calFrom := 4 }) (calRunning [6] quiet); s.thm.run = some { items := [6], startNs := 0, gap := 3 } ∧ s.ctl.calFrom = 4) := by
  refine ⟨?_, ?_, ?_, ?_, ?_, ?_, ?_, ?_, ?_, ?_, ?_⟩ <;> decide +kernel
/-- The lock is set, and no write has met it, or one has. -/
def lockedState (seen : Bool) : State := modCtl (fun c => { c with lockWrite := seen }) (wr R.SAF_CTRL 3 quiet)
theorem met_LimitsLock : locked quiet = false ∧
    (∀ b ∈ [true, false], let s := lockedState b; locked s = true ∧ answers s = true ∧ s.ctl.lockWrite = b) ∧
    (findReg 0x5000C = some R.THM_THROTTLE_START ∧ R.THM_THROTTLE_START.bytes = 4 ∧ 0x5000C % 4 = 0 ∧ is64 0x5000C = false ∧ is64 (0x5000C - 4) = false) ∧
    (let r := R.SAF_AXIS_RULE; findReg 0x1A001C = some r ∧ accessOf true r = .rwl ∧ r ≠ R.RST_WDOG_CFG ∧
      (writers.find? (fun w => w.1.base == r.base)).isNone = true ∧ R.allPin.any (fun x => x.base == r.base) = false ∧ r ≠ R.EVT_CFG ∧ r.bytes = 4 ∧
      0x1A001C % 4 = 0 ∧ is64 0x1A001C = false ∧ is64 (0x1A001C - 4) = false) ∧
    (let r := R.SAF_ENV_MARGIN; findReg 0x1A0038 = some r ∧ accessOf true r = .rwl ∧ r ≠ R.RST_WDOG_CFG ∧
      (writers.find? (fun w => w.1.base == r.base)).isNone = true ∧ R.allPin.any (fun x => x.base == r.base) = false ∧ r ≠ R.EVT_CFG ∧ r.bytes = 8 ∧
      0x1A0038 % 8 = 0 ∧ beamWindow 0x1A0038 = none) := by
  refine ⟨?_, ?_, ?_, ?_, ?_⟩ <;> decide +kernel
def estopIs (l : List Nat) (d : Bool) (s : State) : State := modCtl (fun c => { c with estopOpen := l, estopDisc := d }) s
def ioHere (b : Bool) (s : State) : State := modCtl (fun c => { c with pin := { c.pin with ioPresent := b, ioOk := b } }) s
theorem met_BezelCommands :
    (modeOf (inMode 0) = 0 ∧ quiet.ctl.envBad = [] ∧ ∀ a < 6, envKind a (([] : List Nat).getD a 0) quiet = 0) ∧
    (modeOf quiet ≠ 0 ∧ 5 < 6 ∧ quiet.ctl.envBad = [] ∧
      (let l := [0, 0, 0, 0, 0, 1]; let s := wr R.MOT_CFG 0 quiet 5; (∀ b < 5, envKind b (l.getD b 0) s = 0) ∧ envKind 5 (l.getD 5 0) s ≠ 0 ∧ s.ctl.envBad = [] ∧
        modeOf s ≠ 0)) ∧
    (1 < 2 ∧ 1 ∉ (estopIs [0] false quiet).ctl.estopOpen ∧ (ioHere false quiet).ctl.pin.ioPresent = false) ∧
    (let s := ioHere true (estopIs [0, 1] false quiet); s.ctl.pin.ioPresent = true ∧ 1 ∈ s.ctl.estopOpen ∧ 1 - 1 ∈ s.ctl.estopOpen) ∧
    (let s := ioHere true (estopIs [1] false quiet); s.ctl.pin.ioPresent = true ∧ s.ctl.estopOpen = [1] ∧ s.ctl.estopDisc = false ∧ s.ctl.estopOpen.length = 1) ∧
    ((estopIs [1] true quiet).ctl.estopDisc = true ∧ (estopIs [0, 1] false quiet).ctl.estopOpen.length ≠ 1) ∧
    (estopMask (estopIs [] false quiet) = 0 ∧ estopMask (estopIs [] true quiet) ≠ 0) ∧
    (let s := ioHere true (estopIs [] false quiet); s.ctl.pin.ioPresent = true ∧ rdb R.PIN_FAULT 11 s = false ∧ rdb R.PIN_FAULT 31 s = false ∧
      s.ctl.estopOpen = [] ∧ s.ctl.estopDisc = false ∧ s.ctl.permit = false) ∧
    (3 < 4 ∧ false = enableOf 3 quiet ∧ rdf R.SAF_TRIP 0 4 quiet ≠ 6 ∧ true ≠ enableOf 3 quiet) ∧
    (false = quiet.ctl.relay ∧ rdf R.SAF_TRIP 0 4 quiet ≠ 5 ∧ true ≠ quiet.ctl.relay) := by
  refine ⟨?_, ?_, ?_, ?_, ?_, ?_, ?_, ?_, ?_, ?_⟩ <;> decide +kernel
theorem met_BezelTrips : 15 < 16 ∧ 255 < 256 ∧ ∀ m ∈ [3, 4, 5, 7], modeOf (inMode m) = m := by decide +kernel
theorem met_HeadServices :
    (let s := wr R.FUS_ROLLBACK 0x7FFFFFFF (wrf R.CTL_FW_ROLLBACK 0 6 32 (wrf R.CTL_LOADER 0 3 4 quiet)); (0xA5 : Word32).toNat % 256 = 0xA5 ∧
      rdf R.CTL_LOADER 0 3 s = 4 ∧ modeOf s = 3 ∧ fusedLevel s < rdf R.CTL_FW_ROLLBACK 0 6 s) ∧
    ((0x5A : Word32).toNat % 256 ≠ 0xA5 ∧ modeOf (inMode 1) < 2 ∧ 2 ≤ modeOf (inMode 2) ∧ modeOf (inMode 2) ≠ 3) ∧
    (∀ r ∈ [0, 2, 3], rdf R.HSV_STATUS 0 2 (wrf R.HSV_STATUS 0 2 r quiet) ≠ 1) ∧
    (let s := wrf R.HSV_STATUS 0 2 1 quiet; let h : HeadIn := { chip := false }; rdf R.HSV_STATUS 0 2 s = 1 ∧ authCause h (wrb R.HSV_STATUS 2 h.chip s) = 1) ∧
    (let s := wrb R.HSV_STATUS 2 true (wrf R.HSV_STATUS 0 2 2 quiet); rdf R.HSV_STATUS 0 2 s = 2 ∧ some 0 = some s.head.serial ∧ rdb R.HSV_STATUS 2 s = true ∧
      none ≠ some s.head.serial ∧ some 1 ≠ some s.head.serial) ∧
    (∀ m ∈ [2, 4, 5], modeOf (inMode m) ≠ 3 ∧ modeOf (inMode m) ≠ 6 ∧ modeOf (inMode m) ≠ 7) ∧
    (∀ m ∈ [3, 6, 7], let s := wrf R.HSV_STATUS 0 2 2 (wrb R.HSV_STATUS 2 true (inMode m)); let u : UsageIn := {}; modeOf s = m ∧ rdf R.HSV_STATUS 0 2 s = 2 ∧ rdb R.HSV_STATUS 2 s = true ∧ s.head.pending = none ∧
      u.verify = true) := by
  refine ⟨?_, ?_, ?_, ?_, ?_, ?_, ?_⟩ <;> decide +kernel
theorem met_DebugUnlock :
    debugBar (bits 8 2 (0x100 : Word32).toNat) (wrb R.FUS_FLAGS 1 true quiet) ≠ 0 ∧
    debugBar (bits 8 2 (0 : Word32).toNat) (wr R.FUS_FLAGS 0 quiet) = 0 ∧ quiet.ctl.debug = none ∧
    (let s := modCtl (fun c => { c with debug := some (7, 2) }) quiet; s.ctl.debug = some (7, 2) ∧ 7 < 8) ∧
    (∀ b ∈ [true, false], rdb R.DBG_STATUS 0 (wrb R.DBG_STATUS 0 b quiet) = b) := by decide +kernel
theorem met_PinCommands :
    (∀ b ∈ [true, false], let s := wrb R.PIN_FAULT 29 b quiet; faultBit 9 0 = some 29 ∧ faultCauseOk 9 0 1 s = true ∧ rdb R.PIN_FAULT 29 s = b) ∧
    (∀ n ∈ [0, 28, 29], n < 30 ∧ (BitVec.ofNat 32 (2 ^ n)).toNat = 2 ^ n) ∧
    ((ioHere true quiet).ctl.pin.ioOk = true ∧ (ioHere false quiet).ctl.pin.ioOk = false ∧ 2 ^ 32 - 1 < 2 ^ 32 ∧ (ioHere true quiet).ctl.pin.ioPresent = true) ∧
    (modCtl (fun c => { c with pin := { c.pin with ioLost := true } }) quiet).ctl.pin.ioLost = true ∧
    (∀ b ∈ [true, false], rdb R.PIN_COOLANT_CFG 0 (wrb R.PIN_COOLANT_CFG 0 b quiet) = b) ∧
    (∀ b ∈ [true, false], let s := modCtl (fun c => { c with coolant := b }) (wr R.PIN_COOLANT_CFG 0 (ioHere true quiet)); s.ctl.pin.ioPresent = true ∧
      rdb R.PIN_COOLANT_CFG 0 s = false ∧ ((b != rdb R.PIN_COOLANT_CFG 1 s) = s.ctl.coolant) ∧ ((!b) != rdb R.PIN_COOLANT_CFG 1 s) = !b ∧ s.ctl.coolant = b) ∧
    (let s := wrb R.PIN_IN 7 false (ioHere true quiet); 7 < 8 ∧ rdb R.PIN_IN 7 s = false ∧ s.ctl.pin.ioPresent = true ∧ rdb R.PIN_IN 7 s ≠ true ∧
      tget? s.ctl.pin.gpinLast 7 = none) ∧
    (let s := wrb R.PIN_GPIN_EDGE 7 true quiet; rdb R.PIN_GPIN_EDGE (if true then 7 else 8 + 7) s = true) := by
  refine ⟨?_, ?_, ?_, ?_, ?_, ?_, ?_, ?_⟩ <;> decide +kernel
/-- A state whose rings hold nothing but what ring k holds: no open descriptor. -/
theorem no_open (k : Nat) (r : RingInt) (s : State) (h : s.host.rings = [(k, r)]) (hr : r.jobs = []) : ∀ n, (ringInt s n).jobs = [] := by
  intro n
  simp only [ringInt, h, tget, tget?]
  by_cases e : k = n <;> simp [e, hr]
theorem met_DescriptorsTakeEffect_axes :
    (∀ n ∈ [(0, 1000), (0, 0), (1, 1000)], let s := homedAxis 5 3; let d := desc 8 [(8, 5), (9, n.1), (16, n.2)]
      Offers 0 d 0x08 (usedBits [(8, 1), (9, 1), (16, 8), (24, 4), (28, 4), (32, 4)])
        [(8, decide (dfld d 8 1 ≤ 5)), (9, decide (dfld d 9 1 ≤ 1)), (16, decide (sext 64 (dfld d 16 8) = sext 48 (dfld d 16 8)))] s ∧
      Alone 0 s ∧ dfld d 8 1 = 5 ∧ (if dfld d 9 1 = 0 then sext 48 (dfld d 16 8) else queueEnd 5 s + sext 48 (dfld d 16 8)) = n.2 ∧
      modeOf s = 3 ∧ (axisOf s 5).queue.length < 16 ∧ homed 5 s = true ∧ ownedByPlacement 5 s = false ∧ axisSource 5 s ≠ 2 ∧ envOk 5 s = true ∧
      rdI R.MOT_ENV_MIN s 5 ≤ n.2 ∧ (n.2 : Int) ≤ rdI R.MOT_ENV_MAX s 5 ∧ axisState 5 s ≠ mFault) ∧
    (∀ a ∈ [0, 5], let s0 := homedAxis a 3; let s := { s0 with ctl := { s0.ctl with homing := [(16 * a + 15, [])] } }; let d := desc 7 [(8, a), (9, 15)]
      Offers 0 d 0x07 (usedBits [(8, 1), (9, 1)]) [(8, decide (dfld d 8 1 ≤ 5))] s ∧ Alone 0 s ∧ dfld d 8 1 = a ∧ dfld d 9 1 < 16 ∧
      tget? s.ctl.homing (16 * a + dfld d 9 1) = some [] ∧ modeOf s = 3 ∧ (axisOf s a).queue.length < 16 ∧ ownedByPlacement a s = false ∧
      axisSource a s ≠ 2 ∧ envOk a s = true ∧ axisState a s ≠ mFault) := by
  unfold Offers Alone
  refine ⟨?_, ?_⟩ <;> decide +kernel
/-- The hypotheses of the forms of OP_TIME_CTRL stand in met_TimeOpcodes; the ring of those states holds nothing. -/
theorem met_DescriptorsTakeEffect_time : (∀ src ∈ [0, 1, 2, 3, 4], Alone 0 (wrf R.TSY_CTRL 0 3 src (offer 0 0 3 3))) ∧
    (let s := offer 0 0 3 3; ∀ c ∈ [0, 3], let d := desc 0x0E [(8, 5), (16, 7), (24, 2 ^ 34 + 2 ^ 32 * c)];
      Offers 0 d 0x0E (usedBits [(8, 1), (16, 16)]) [(8, dfld d 8 1 == 5)] s ∧ Alone 0 s ∧ dfld d 8 1 = 5 ∧ bits 32 2 (dfld d 24 8) = c) := by
  unfold Offers Alone
  refine ⟨?_, ?_⟩ <;> decide +kernel
theorem met_DescriptorsTakeEffect_layer : Alone 0 noLayer ∧ contextFault false 1 noLayer = none ∧ plcState swathState ≠ pTurn ∧ Alone 0 swathState := by
  unfold Alone
  refine ⟨?_, small_context _ rfl, ?_, ?_⟩ <;> decide +kernel
theorem met_DescriptorsTakeEffect_utility :
    (let s := offer 0 3 3 2; (∀ n, (ringInt s n).jobs = []) ∧ 0 < 32 ∧ ringState s 0 = 2 ∧
      hostSide (desc 0x40 [(16, 0), (18, 1), (44, 1)]) = false ∧ hostSide (desc 0x42 [(32, 1)]) = false ∧ hostSide (desc 0x43 []) = false ∧
      hostSide (desc 0x44 []) = false ∧ hostSide (desc 0x45 [(8, 64), (16, 64)]) = false) ∧
    (let s := wr R.MEMC_STATUS 2 (offer 0 3 3 2); ∀ n ∈ [0, dramSize - 64], let d := desc 0x41 [(18, 1), (20, 1), (24, n), (32, 2 ^ 20)]
      hostSide d = false ∧ baseEnd (dfld d 18 2) (dfld d 17 1) (dfld d 20 4) (dfld d 48 4) ≤ dfld d 32 8 ∧ dfld d 24 8 + 64 ≤ dramSize ∧
      dramServes s = true ∧ cmdFailed (dfld d 24 8) 64 rqCodec s = false) := by
  refine ⟨⟨no_open 0 { db := 1 } _ rfl rfl, ?_⟩, ?_⟩ <;> decide +kernel
def jobState (j : Job) : State := withInt 0 { db := 1, next := 1, jobs := [j] } (wr R.MEMC_STATUS 2 (withRing 0 3 4 2 (inMode 3)))
theorem met_DescriptorsTakeEffect_done :
    (∀ n ∈ [(0, 1), (dramSize - 64, 64)], let j : Job := { index := 0, desc := desc 0x43 [(8, n.1), (24, n.2)] }; let s := jobState j
      (ringInt s 0).jobs = [j] ∧ s.host.busMaster = true ∧ ringType s 0 = tyUtility ∧ ringState s 0 = 2 ∧ j.started = true ∧ j.cpl = none ∧
      dOpcode j.desc = 0x43 ∧ dfld j.desc 16 1 = 0 ∧ dfld j.desc 8 8 + dfld j.desc 24 8 ≤ dramSize ∧ dramServes s = true ∧
      cmdFailed (dfld j.desc 8 8) (dfld j.desc 24 8) rqUdma s = false) ∧
    (let j : Job := { index := 0, desc := desc 0x45 [] }; (∀ n, n ≠ 0 → (ringInt (jobState j) n).jobs = []) ∧ dOpcode j.desc = 0x45) := by
  refine ⟨?_, ?_, ?_⟩
  · decide +kernel
  · intro n h
    have e : (jobState { index := 0, desc := desc 0x45 [] }).host.rings = [(0, { db := 1, next := 1, jobs := [{ index := 0, desc := desc 0x45 [] }] })] := rfl
    simp [ringInt, e, tget, tget?, Ne.symm h]
  · decide +kernel
theorem met_DescriptorsTakeEffect_upload :
    (∀ l ∈ [[], [[(7 : Byte)]]], let d := desc 0x60 [(16, 4096), (20, 7)]
      let s := { offer 0 2 3 2 with host := { (offer 0 2 3 2).host with streams := [(7, { staged := l })] } }
      Offers 0 d 0x60 (usedBits [(8, 8), (16, 4), (20, 1)])
        [(16, decide (4096 ≤ dfld d 16 4 ∧ dfld d 16 4 ≤ 16777216) && dfld d 16 4 % 64 == 0), (20, decide (dfld d 20 1 < 8))] s ∧
      Alone 0 s ∧ ringState s 0 = 2 ∧ dfld d 20 1 = 7 ∧ waitingBuffer 7 s = none ∧ (streamOf s 7).staged = l ∧ [(7 : Byte)].length < dfld d 16 4) ∧
    (let j : Job := { index := 0, desc := desc 0x60 [(20, 7)], phase := 1 }
     let s := withInt 0 { db := 1, next := 1, jobs := [j] } (withRing 0 2 4 2 (inMode 3)); waitingBuffer 7 s = some (0, j) ∧
       findJob 0 j.index s = some j ∧ j.phase ≠ 0) := by
  unfold Offers Alone
  refine ⟨?_, ?_⟩ <;> decide +kernel
theorem met_CommandsTakeEffect_pass :
    (let s := wr R.PLC_STATUS 1 (each [0, 1] (fun a s => wr R.MOT_ENV_VMAX 1 (wr R.MOT_ENV_AMAX 1 (wr R.MOT_ENV_JMAX 1 s a) a) a) (passState [onePass]))
     nextToRun s = some onePass ∧ onePass.mend = false ∧ onePass.missed = [] ∧ modeOf s = 4 ∧ s.ctl.request = none ∧ external s = false ∧
      plcState s = pTurn ∧ geometryBar onePass s = none) ∧
    (let s := wrf R.PLC_STATUS 0 3 3 (passState [builtPass]); curPass s = some builtPass ∧ nextBuild (geom s) builtPass = some 0 ∧
      linesReady (geom s) builtPass 0 = true ∧ builtPass.cut = none ∧ Machine.exposing builtPass s = true ∧ external s = false ∧
      s.dose.bsc.newT = none ∧ s.dose.bsc.newV = none ∧
      (rowsAt (geom s) builtPass 0).filter (fun rn => !builtPass.dropped.contains rn) = [(0, 0)] ∧ builtPass.blankPorts = [] ∧
      memoryBad (geom s) (rowIn builtPass 0 0 (dwellAt builtPass.dir (firePos (geom s) builtPass 0 0 s) s) s) s = false) := by
  refine ⟨?_, ?_⟩ <;> decide +kernel
theorem met_CommandsTakeEffect_axes :
    (∀ up ∈ [true, false], ∀ a ∈ [1, 5], let s := wr R.MOT_FOLLOW_LIMIT 256 (wr R.MOT_CFG 0 quiet a) a; axisSource a s = 0 ∧ rdb R.MOT_FAULT 1 s a = false ∧
      (pdiff (wrap48 (measPos a s + if up = rdb R.MOT_CFG 3 s a then -256 else 256)) (cmdPos a s)).natAbs ≤ rd R.MOT_FOLLOW_LIMIT s a) ∧
    (∀ a ∈ [1, 5], let s := wrf R.MOT_CFG 0 2 2 quiet a; axisSource a s = 2 ∧ ∀ b < 6, b ≠ a → axisSource b s ≠ 2) ∧
    (let s := { quiet with ctl := { quiet.ctl with envBad := [] } }; let l := [0, 0, 0, 0, 0, 1]; let t := wr R.MOT_CFG 0 s 5
      modeOf t ≠ 0 ∧ (∀ b < 5, envKind b (l.getD b 0) t = 0) ∧ envKind 5 (l.getD 5 0) t ≠ 0) ∧ estopMask (estopIs [1] false quiet) ≠ 0 := by
  refine ⟨?_, ?_, ?_, ?_⟩ <;> decide +kernel
theorem met_CommandsTakeEffect_link :
    (∀ st ∈ [9, 10], let s := atLink 3 st { waiting := true, kind := 1, lanesOut := 1 }; lnkState 3 s = st ∧ (portOf s 3).failed = false ∧
      (portOf s 3).waiting = true ∧ (portOf s 3).kind = 1 ∧ 0 < (portOf s 3).lanesOut) ∧
    (let s := atLink 3 10; waitingBuffer stTelemetry s = none ∧ (streamOf s stTelemetry).stagedBytes + (8 + telemetryBlock.length) ≤ 262144) ∧
    (let s := { atLink 3 10 with dose := { (atLink 3 10).dose with passes := [sentPass] } }; deferred 3 s = false ∧ s.dose.passes = [sentPass]) := by
  refine ⟨?_, ?_, ?_⟩ <;> decide +kernel
theorem met_CommandsTakeEffect_memory :
    (let s := arbitrated 0 0; 9 < 10 ∧ rdf R.MEMC_STATUS 0 3 s = 2 ∧ s.arb.holder = some 1 ∧ requesting 9 s = false) ∧
    (let v : Word32 := 0x80000007; let s := wr R.MEMC_RANK_MAP 0x24242424 dramUp; bit 31 v.toNat = true ∧ bits 0 2 v.toNat = 3 ∧
      mapRank 3 (bits 2 1 v.toNat) s = 1 ∧ s.mem.migration = none ∧ logicalFor 3 1 s = some 1 ∧ spareOk 3 s = true) ∧
    (let s := wr R.UDMA_DST (sramSize - 64) (wr R.UDMA_COUNT 64 (wrf R.UDMA_CH_STATUS 0 2 1
        { quiet with mem := { quiet.mem with udma := [(15, { srcSpace := 1, dstSpace := 1, total := 64, irq := true })] } } 15) 15) 15
     chState 15 s = 1 ∧ paceQueue 15 s = 0 ∧ rd R.UDMA_COUNT s 15 = 64 ∧ (workOf 15 s).chain = false ∧ (workOf 15 s).dstSpace = 1 ∧
      rd R.UDMA_DST s 15 + ((workOf 15 s).total - 64) = sramSize - 64 ∧ 64 ≤ 64 - (sramSize - 64) % 64 ∧ sramSize - 64 + 64 ≤ sramSize ∧
      (readBeat 15 (workOf 15 s) (rd R.UDMA_SRC s 15 + ((workOf 15 s).total - 64)) 64 s).1 = false ∧
      (swapBytes (workOf 15 s).swap (readBeat 15 (workOf 15 s) (rd R.UDMA_SRC s 15 + ((workOf 15 s).total - 64)) 64 s).2.1).length ≤ 64 ∧
      (readBeat 15 (workOf 15 s) (rd R.UDMA_SRC s 15 + ((workOf 15 s).total - 64)) 64 s).2.2 = s) := by
  refine ⟨?_, ?_, ?_⟩ <;> decide +kernel
/-- A release of everything is due at L0, its only source k still asserted. -/
def releasing (k : Nat) : State := modPwr (fun p => { p with due := some 0, asserted := [k], step := 0, railsOff := false }) quiet
theorem met_CommandsTakeEffect_reset :
    (let s := releasing 7; s.pwr.due = some 0 ∧ s.pwr.railsOff = false ∧ s.pwr.step = 0 ∧ ∀ k ∈ s.pwr.asserted, bit k 128 = true) ∧
    (let s := modPwr (fun p => { p with asserted := [1, 7] }) (releasing 7); s.pwr.due = some 0 ∧ 1 ∈ s.pwr.asserted ∧ bit 1 128 = false ∧
      reachOf 1 s ≤ 0) ∧ (releasing 6).pwr.asserted = [6] ∧ (releasing 1).pwr.asserted = [1] ∧ 3300 < 3301 ∧ 11400 < 11401 ∧
    (∀ l ∈ [[], [9]], let s := modPwr (fun p => { p with asserted := l, railsOff := true }) quiet; s.pwr.railsOff = true ∧ s.pwr.asserted = l ∧
      reachOf 0 s = 0) ∧
    (∀ src ∈ [1, 3], let s := wr R.TSY_CTRL src quiet; tsySource s = src ∧ rdb R.TSY_CTRL 5 s = false ∧ s.time.pendServo.isNone = true ∧
      s.time.pendHost = [] ∧ tsyState s ≠ 3) ∧
    (let s := wrb R.TSY_PORT_CFG 0 true quiet 1; rdb R.TSY_CTRL 9 s = false ∧ rdb R.TSY_PORT_CFG 0 s 1 = true) := by
  decide +kernel

/-! ### The spec's worked examples: every expected value is the one its chapter works out -/

/-- Chapter 04, worked pixel: intent, addresses, decay, correction. -/
theorem test_intent_dose : intentDose (leBytes 512 (1200 * 2 ^ (16 * 0x5A))) 0x5A 0x4400 = 1275 := by decide +kernel
theorem test_map_addresses :
    let g : TheGeom := { base := 0x2000000000, u := 4096, v := 4096, originScan := 0, originStep := 0, stepPitch := 2560 }
    slotBytes g = 0x02100000 ∧ stateAddr g 3 512 2048 = 0x2006701000 ∧ stampAddr g 3 512 32 = 0x2008320080 := by decide
theorem test_decay :
    let d := fun i => if i = 1 then 0xFC00 else if i = 71 then 0x9C40 else if i = 255 then 0x0A00 else 0
    decayState d 12000 1144 24 = 7324 ∧ decayState d 10000 1144 24 = 6103 ∧ decayState d 9000 7629 24 = 351 ∧ decayState d 7000 16384 24 = 273 ∧
      decayState d 7934 28 24 = 7810 := by decide +kernel
theorem test_corrected_dose :
    correctedRaw (leBytes 0xA48 (0x3266 * 2 ^ (8 * (0x200 + 2 * 664)) + (65536 - 12) * 2 ^ (8 * 0xA44))) 1275 664 = 992 := by decide +kernel
/-- Chapter 05, worked beamlet: the table entry, the split, the factors, the pulse code and the preheat code. -/
theorem test_beam_entry : let e : Nat := 0x1FFD2A80 + 2 ^ 32 * 0x6384
    entryNo 51 0 = 104448 ∧ beStatus e = 1 ∧ beOffset e = -3 ∧ beGain e = 0x2A80 ∧ beGroup e = 6 ∧ beMaxWidth e = 900 := by decide
theorem test_default_split : defaultShare 4096 15 5 = 273 ∧ defaultShare 4096 15 0 = 274 := by decide
theorem test_factor_index : factorIndex 616 320 2 = 74 ∧ factorIndex 47850 44000 5 = 120 := by decide
/-- Row 51 with its own share, and row 59 with and without the share it carries (chapter 08, worked make-up). -/
theorem test_pulse_code :
    let p : WidthIn := { kT := 0x4290, kV := 0x3F40, ctxMax := 1200, bezelMax := 2000, dwell := 5000, guard := 50, minWidth := 8 }
    pulseCode p (0x1FFD2A80 + 2 ^ 32 * 0x6384) 66 = (176, []) ∧ pulseCode p (0x10022A00 + 2 ^ 32 * 900) 132 = (357, []) ∧
      pulseCode p (0x10022A00 + 2 ^ 32 * 900) 66 = (179, []) := by decide
theorem test_preheat_code :
    preheatCode (leBytes 0xBC0 (6 * 2 ^ (8 * 0xA82) + 40 * 2 ^ (8 * (0xAC0 + 15)))) 992 176 5000 50 = 40 := by decide +kernel
/-- Chapter 06, worked fire tick: the tick of the fire time, and the port's tick at the send. -/
theorem test_fire_tick :
    let s := wr R.PLC_TICK_RATE 0x6A400000 (wr R.PLC_ANCHOR_TICK 0x80000000 (wr R.PLC_ANCHOR_TT (3599999500000 * 65536) State.reset) 1)
    tickAt 1 (3600000040173 * 65536 + 0xD400) s = 0x800DAF05 ∧ tickAt 1 (3600000000500 * 65536) s = 0x800CADBC := by decide +kernel
/-- Chapter 07, worked frame: FRAME_START bytes 0 to 27, and the first bytes of beamlet 0's entry. -/
theorem test_frame_head :
    let f := { oneFrame with port := 1, slot := 19, row := 51, line := 4000, event := 4816, context := 12, preheat := true, codes := List.replicate 2048 176 }
    frameHead { onePass with number := 2, layer := 1418 } f false 0x800DAF05 0x31C40 =
      [0x01, 0x04, 0x33, 0x13, 0xA0, 0x0F, 0, 0, 2, 0, 0, 0x0C, 0x05, 0xAF, 0x0D, 0x80, 0, 8, 0xA0, 0, 0x40, 0x1C, 3, 0, 0x8A, 5, 0, 0] := by
  decide +kernel
theorem test_frame_entry : (frameData true [176, 0] [40, 0]).take 3 = [0xB0, 0x80, 0x02] := by decide +kernel
/-- Chapter 03, worked tiles: two pixels of the tile in mode B, the whole tile in mode N, and its code by COMPRESS. -/
theorem test_tile_mode_b :
    (match decodeTile 256 0 512 40 0 [] (fun _ _ => []) ([0x40, 0, 0xC8] ++ (List.replicate 16 [0x00, 0xF0, 0xFF, 0xFF]).flatten ++
        (List.replicate 16 [0x00, 0x00, 0xF0, 0xFF]).flatten ++ List.replicate 125 0) with
      | .ok px used => px.getD (17 * 32 + 21) 7 == 0xC8 && px.getD (3 * 32 + 11) 7 == 0 && used == 131
      | _ => false) = true := by decide +kernel
def bandTile : List Byte := (List.range 1024).map (fun p => if 10 ≤ p / 32 ∧ p / 32 ≤ 21 ∧ 8 ≤ p % 32 ∧ p % 32 ≤ 23 then 0x90 else 0)
def bandSlot : List Byte :=
  [0x60, 0xFF, 0, 0x47, 0, 0x0F, 0x90] ++ (List.replicate 11 [0x0F, 0, 0x0F, 0x90]).flatten ++ [0xFF, 0, 0x47, 0] ++ List.replicate 9 0
theorem test_tile_mode_n : decodeTile 64 0 512 40 0 [] (fun _ _ => []) bandSlot = .ok bandTile 55 := by decide +kernel
theorem test_tile_compress : (codeTile 64 0 [] bandTile).slot = bandSlot := by decide +kernel
/-- Chapter 09, worked move: its segments, and the command at 100 ms, 300 ms and the end. -/
theorem test_move_profile : let l := moveSegs 163840000 160000 800 8
    l.map (·.dur) = [100, 100, 100, 724, 100, 100, 100] ∧ l.map (·.jerk) = [8, 0, -8, 0, -8, 0, 8] ∧ (evalSegs l 0 0 0 100).1.floor = 1333333 ∧
      (evalSegs l 0 0 0 300).1 = 24000000 ∧ (evalSegs l 0 0 0 1324).1 = 163840000 := by decide +kernel
/-- Chapter 10, worked map: the bed pixel of camera pixel (100, 292). -/
theorem test_map_registration :
    let t : Table Nat := [(0x18, 2048 + 65536 * 1536), (0x19, 0x20000), (0x1B, 0x0F3C0000), (0x1D, 0x20000), (0x1E, 0x3DB80000), (0x21, 0x10000)] ++
      (List.range 128).map (fun i => (0x40 + i, 0x40004000))
    registerPixel t 100 292 = some (4100, 16384) := by decide +kernel
/-- Chapter 11, worked decode. -/
theorem test_dram_decode : let a := 0x2006701000
    chanOf a = 0 ∧ subOf a = 0 ∧ logicalOf a = 1 ∧ physOf a State.reset = 1 ∧ (subOf (a + 0x40), chanOf (a + 0x40)) = (1, 0) ∧ chanOf (a + 0x80) = 1 := by
  decide +kernel
/-- Chapter 11, worked arbitration: what the arbiter holds once DP_INTAKE has dropped its request with UDMA and SCRUB requesting,
and after UDMA's two bursts. -/
def policyTable : State :=
  let s := wrf R.ARB_STATUS 8 8 43 (wr R.MEMC_STATUS 2 quiet)
  let s := each (List.range 32) (fun i s => wr R.ARB_SLOT_BANK0 0xFFFFFFFF s i) s
  let s := each [(0, 64, 0), (4, 256, 4), (6, 64, 1)] (fun e s => wr R.ARB_CFG (e.2.2 + 256 * e.2.1) s e.1) s
  { s with arb := { s.arb with requests := [(0, 0), (4, 0), (6, 0)], holder := some 0, limit := 64 } }
def nextOf (c : Instr) (s : State) : State := match exec c s with
  | .next t => t
  | _ => s
theorem test_arbiter_credits :
    let a := nextOf (.arbGrantEnd (some 32)) policyTable; let b := nextOf (.arbGrantEnd none) a; let c := nextOf (.arbGrantEnd none) b
    (a.arb.holder, a.arb.credit) = (some 4, [(4, -1), (6, 1)]) ∧ (b.arb.holder, b.arb.credit) = (some 4, [(4, -2), (6, 2)]) ∧
      (c.arb.holder, c.arb.credit) = (some 6, [(4, 2), (6, -2)]) := by decide +kernel
/-- Chapter 12, worked resumed check. -/
theorem test_crc : crcOf 8 7 0xFF 0 false false [1] = 0xF4 ∧ crcOf 8 7 0xF4 0 false false [2] = 0xCC ∧ crcOf 8 7 0xFF 0 false false [1, 2] = 0xCC := by
  decide +kernel
/-- Chapter 13, worked servo update. -/
theorem test_servo_update : let s := servoUpdate (240 * 65536) (wrI R.TSY_INTEGRAL (1480 * 65536) State.reset)
    rdI R.TSY_INTEGRAL s = 1510 * 65536 ∧ rd R.TSY_INCREMENT s = 0xCCCCB217 := by decide +kernel
/-- Chapter 15, worked throttle: dwell and scale at 101.5, 104.25 and 110 °C. -/
theorem test_throttle : dieThrottle 24 State.reset = (1500, 0x8000) ∧ dieThrottle 68 State.reset = (3000, 0x7000) ∧ (dieThrottle 160 State.reset).2 = 9829 := by
  decide +kernel
/-- Chapter 16, worked flush, cut off at step 3: the head's newest copy is A, and the write has the next sequence and the sum. -/
def usageBytes (seq ns : Nat) : List Byte := let b := leBytes 520 (seq + 2 ^ 64 * (ns * 2 ^ (64 * 6))); b ++ leBytes 8 (crc32c b)
set_option maxRecDepth 40000 in
theorem test_usage_flush :
    let s := wrf R.HSV_STATUS 0 2 2 <| wrb R.HSV_STATUS 2 true (modHead (fun h => { h with inflight := [(6, 1250000000)], pending := some 1042 }) quiet)
    (nextOf (.hsvFlush { copyA := some (usageBytes 1041 47000000000000), copyB := none }) s).out.any (fun o => match o with
      | .usageWrite l seq => seq == 1042 && l.getD 6 (0, 0) == (6, 47001250000000)
      | _ => false) = true := by decide +kernel
/-- Chapter 17, worked short of GPOUT3: its fault bit and its clear. -/
theorem test_output_short : let s := nextOf (.ioOutputFault 3 3 1 1200) quiet
    rd R.PIN_FAULT s = 8 ∧ rd R.PIN_FAULT (nextOf (.pinFaultClear 8 true) s) = 0 := by decide +kernel
/-- Chapter 18, worked posting: the entry of event 16 in EVENT ring 3 at producer index 517, and the merged signal of vector 1. -/
def postingState : State :=
  let s := wr R.EVT_CFG 0x307 (wr R.EVT_VEC_MOD 50 (inMode 4) 1) 16
  let s := wr R.HIF_RING_CONS 517 (wr R.HIF_RING_BASE 0x10000 (wrf R.HIF_RING_STATE 0 3 2 (wr R.HIF_RING_CFG (4 + 16 * 8) s 3) 3) 3) 3
  withInt 3 { db := 517 } { s with evt := { s.evt with holdoff := [1] } }
theorem test_posting :
    let s := postEvent 16 0 1 0 [(0, 1, 6), (1, 1, 4), (2, 1, 0x25), (4, 4, 0x20)] postingState
    s.out.any (fun o => match o with
      | .event 3 a e => a == 0x100A0 && e.toNat % 2 ^ 64 == 0x80010010 && e.toNat / 2 ^ 128 == 0x2000250406
      | _ => false) = true ∧ rd R.HIF_RING_CONS s 3 = 518 ∧ bit 16 (rd R.EVT_PENDING s 0) = true ∧ rdf R.EVT_COUNT 0 16 s 16 = 1 ∧ s.evt.merged = [1] := by
  decide +kernel
/-- Chapter 02, worked submission: the slot, the phase of index 127 in a ring of 64, and the completion's word 0. -/
theorem test_phase : phaseAt 6 127 = 0 ∧ phaseAt 6 128 = 1 ∧ phaseAt 8 517 = 1 := by decide
/-- Chapter 00, the worked case of R7. -/
theorem test_arithmetic_shift : sar (-5) 1 = -3 := by decide

end Sys2Proof.Tests
end

section
/-! The scope of the model: reset (R13, R20, R34), the invariant `Sound` and the frame of every step (R13, R359, R364), and the
register accesses of BAR0 (R10 to R12, R545). -/

namespace Sys2Proof.Proofs
open Sys2Proof Sys2Proof.Machine Sys2Proof.Laws

/-! ### The state after reset -/

/-- No row's reset value is cut by the 64 bits that the register file holds (one comparison per row of the map). -/
theorem reset_lt_two_pow_64 : ∀ r ∈ R.all, r.reset < 2 ^ 64 := by decide +kernel
/-- After reset no register is listed, so each reads the reset value of its row (R13). -/
theorem rd_reset {r : RegInfo} (h : r.reset < 2 ^ 64) (i : Nat) : rd r State.reset i = r.reset := Nat.mod_eq_of_lt h
theorem modeOf_reset : modeOf State.reset = 2 := rfl
theorem sound_reset : Sound State.reset := ⟨rfl, rfl, rfl, fun _ h => absurd h List.not_mem_nil⟩

/-! ### What a step is, and that it keeps `Sound` -/

theorem step_of_empty {s : State} (h : s.pending = []) : step s = .next (tick s) := by
  unfold step
  rw [h]
theorem step_of_front {s : State} {c : Instr} {rest : List Instr} (h : s.pending = c :: rest) :
    step s = exec c { s with pending := rest } := by
  unfold step
  rw [h]
/-- Whatever parts of the state an operation may change, it keeps the canonical forms and the queue. -/
theorem sound_of_keeps {m : Nat} {s t : State} (k : Keeps m s t) (h : Sound s) : Sound t := by
  obtain ⟨hregs, hdram, hsram, hpending⟩ := h
  refine ⟨k.regs hregs, k.dram hdram, k.sram hsram, ?_⟩
  rw [k.queue]
  exact hpending
/-- The state whose front command has been taken. -/
theorem sound_rest {s : State} {c : Instr} {rest : List Instr} (e : s.pending = c :: rest) (h : Sound s) :
    Sound { s with pending := rest } := by
  obtain ⟨hregs, hdram, hsram, hpending⟩ := h
  exact ⟨hregs, hdram, hsram, fun d hd => hpending d (e ▸ List.mem_cons_of_mem c hd)⟩
theorem sound_tick {s : State} (h : Sound s) : Sound (tick s) :=
  sound_of_keeps (tick_keeps (m := 969326968556403452) rfl (Keeps.refl _ s)) h

/-! ### Parts of the state and the bits of a mask -/

/-- A part is found again from its bit, so two parts never share one. -/
theorem find_partBit (p : StatePart) : StatePart.all.find? (fun q => partBit q == partBit p) = some p := by
  cases p <;> rfl
theorem partBit_injective : Function.Injective partBit := fun p q h => by
  have hp := find_partBit p
  rw [h, find_partBit q] at hp
  exact (Option.some.inj hp).symm
theorem testBit_partMask_of_notMem {p : StatePart} {l : List StatePart} (h : p ∉ l) :
    (partMask l).testBit (partBit p) = false := by
  induction l with
  | nil => exact Nat.zero_testBit _
  | cons q l ih =>
    rw [List.mem_cons, not_or] at h
    obtain ⟨hq, hl⟩ := h
    have hbit : (2 ^ partBit q).testBit (partBit p) = false := Nat.testBit_two_pow_of_ne (partBit_injective.ne (Ne.symm hq))
    exact (Nat.testBit_or _ _ _).trans (by rw [ih hl, Bool.or_false]; exact hbit)
/-- The mask that `exec_keeps` adds to a command's own names only the 64 KiB ranges 0x9, 0x13, 0x17 and 0x1F, in which no block
stands. -/
theorem testBit_unusedBlocks (p : StatePart) : (9261654832710680576 : Nat).testBit (partBit p) = false := by
  cases p <;> rfl
theorem off_of_notMem {p : StatePart} {l : List StatePart} (h : p ∉ l) : off (partMask l ||| 9261654832710680576) (partBit p) := by
  unfold off
  rw [Nat.testBit_or, testBit_partMask_of_notMem h, testBit_unusedBlocks]
  rfl
/-- The registers of a block outside the mask read as before. -/
theorem rd_of_block_off {m : Nat} {s t : State} {p : StatePart} (k : Keeps m s t) (o : off m (partBit p)) (r : RegInfo) (i : Nat)
    (e : p.block = some (regAddr r i / 65536 % 32)) : rd r t i = rd r s i := by
  refine rd_keeps k ?_
  unfold partBit at o
  rw [e] at o
  exact o
/-- A part outside the mask is as before: a field of the state by what `Keeps` says of it, a block by its registers. -/
theorem same_of_off {m : Nat} {s t : State} {p : StatePart} (k : Keeps m s t) (o : off m (partBit p)) : p.same s t := by
  cases p with
  | heldLow => exact k.same_heldLow o
  | latchedHigh => exact k.same_latchedHigh o
  | out => exact k.same_out o
  | freeCtr => exact k.same_freeCtr o
  | host => exact k.same_host o
  | evt => exact k.same_evt o
  | time => exact k.same_time o
  | dram => exact k.same_dram o
  | sram => exact k.same_sram o
  | mem => exact k.same_mem o
  | arb => exact k.same_arb o
  | mot => exact k.same_mot o
  | dose => exact k.same_dose o
  | ctl => exact k.same_ctl o
  | pwr => exact k.same_pwr o
  | thm => exact k.same_thm o
  | head => exact k.same_head o
  | cam => exact k.same_cam o
  | _ => exact rd_of_block_off k o

/-! ### Bad accesses (R12, R545) -/

theorem badAccess_four {a : Nat} (h : a % 4 = 0) : badAccess a 4 = false := by simp [badAccess, h]
theorem badAccess_eight {a : Nat} (h : a % 8 = 0) : badAccess a 8 = false := by simp [badAccess, h]
/-- The count may post its event: it touches what leaves the module, the host side, the event controller, and the registers of
IDC, HIF and EVT. -/
theorem countBad_only (s : State) : Keeps 30064771124 s (countBad s) := countBad_keeps rfl (Keeps.refl _ s)
theorem countBad_mem (s : State) : (countBad s).mem = s.mem := by
  have k := countBad_only s
  rw [k.same_mem rfl, k.same_dram rfl, k.same_sram rfl]
theorem off_countBad : ∀ b < 32, b ≠ 0 → b ≠ 1 → b ≠ 2 → off 30064771124 (32 + b) := by decide
/-- A register outside IDC, HIF and EVT reads as before. -/
theorem rd_countBad {q : RegInfo} {j : Nat} (h0 : regAddr q j / 65536 % 32 ≠ 0) (h1 : regAddr q j / 65536 % 32 ≠ 1)
    (h2 : regAddr q j / 65536 % 32 ≠ 2) (s : State) : rd q (countBad s) j = rd q s j :=
  rd_keeps (countBad_only s) (off_countBad _ (Nat.mod_lt _ (by decide)) h0 h1 h2)

/-! ### Writes of BAR0 (R10 to R12) -/

section Writes
variable {fw : Bool} {a v : Nat} {r : RegInfo} {s : State}

/-- A plain RW register, without an effect of its own and outside the PIN block, takes what the write may set. -/
theorem writeReg_rw {i : Nat} (hacc : accessOf fw r = .rw) (hpin : R.allPin.any (fun x => x.base == r.base) = false)
    (hevt : r ≠ R.EVT_CFG) (hown : writers.find? (fun w => w.1.base == r.base) = none) :
    writeReg fw r i v s = wr r (written r v (rd r s i)) s i := by
  unfold writeReg
  simp [hpin, hacc, hevt, hown, writePlain, store]
theorem is64_of_register (hwin : beamWindow a = none) (hf : findReg a = some r) (hb : r.bytes = 8) : is64 a = true := by
  simp [is64, hwin, hf, hb]
theorem write32_register (hf : findReg a = some r) (hb : r.bytes = 4) : write32 fw a v s = writeReg fw r (regIndex r a) v s := by
  simp [write32, hf, hb]
/-- A 64-bit write of a register gives up the low half that is held at its address. -/
theorem write64_register (hwin : beamWindow a = none) (hf : findReg a = some r) (hb : r.bytes = 8) :
    write64 fw a v s = writeReg fw r (regIndex r a) v { s with heldLow := terase s.heldLow a } := by
  simp [write64, hwin, hf, hb]
theorem writeHigh_held {lo : Word32} (hl : tget? s.heldLow a = some lo) :
    writeHigh fw a v s = write64 fw a (lo.toNat + 2 ^ 32 * (v % 2 ^ 32)) s := by
  simp [writeHigh, hl]
theorem doRegisterWrite_bad {size : Nat} (ha : answers s = true) (hbad : badAccess a size = true) :
    doRegisterWrite fw a size v s = countBad s := by
  simp [doRegisterWrite, ha, hbad]
theorem doRegisterWrite_word (ha : answers s = true) (h4 : a % 4 = 0) (h64 : is64 a = false)
    (hmid : a % 8 = 4 → is64 (a - 4) = false) : doRegisterWrite fw a 4 v s = write32 fw a v s := by
  have hhigh : ¬(a % 8 = 4 ∧ is64 (a - 4) = true) := fun ⟨h, h'⟩ => by simp [hmid h] at h'
  simp [doRegisterWrite, ha, badAccess_four h4, hhigh, h64]
theorem doRegWriteLowHalf_word64 (ha : answers s = true) (h8 : a % 8 = 0) (h64 : is64 a = true) :
    doRegWriteLowHalf a v s = writeLow a v s := by
  simp [doRegWriteLowHalf, ha, badAccess_eight h8, h64]
theorem doRegWriteHighHalf_word64 (ha : answers s = true) (h8 : a % 8 = 0) (h64 : is64 a = true) :
    doRegWriteHighHalf fw (a + 4) v s = writeHigh fw a v s := by
  have hmid : (a + 4) % 8 = 4 := by omega
  simp [doRegWriteHighHalf, ha, hmid, h64]

end Writes

/-! ### Reads of BAR0 (R10, R12) -/

section Reads
variable {a v i : Nat} {r : RegInfo} {s s' : State}

theorem clearRead_of_ne_rc (h : r.access ≠ .rc) : clearRead r i s = s := if_pos h
/-- A read-to-clear register other than EVT_COUNT returns to its reset value. -/
theorem clearRead_of_rc (h : r.access = .rc) (hcount : r ≠ R.EVT_COUNT) : clearRead r i s = wr r r.reset s i := by
  simp [clearRead, h, hcount]
theorem read32_register (hf : findReg a = some r) (hwide : r ≠ R.TSY_WIDE_NS) (hr : readReg r (regIndex r a) s = (v, s)) :
    read32 a s = (v % 2 ^ 32, clearRead r (regIndex r a) s) := by
  simp [read32, hf, sif, hwide, hr]
theorem doRcRead_bad {size : Nat} (ha : answers s = true) (hbad : badAccess a size = true) :
    doRcRead a size s = countBad (giveRead a 0 s) := by
  simp [doRcRead, ha, hbad]
theorem doRcRead_whole (ha : answers s = true) (h8 : a % 8 = 0) (h : read64 a s = some (v, s')) :
    doRcRead a 8 s = giveRead a v s' := by
  simp [doRcRead, ha, badAccess_eight h8, h]
theorem doRcRead_low (ha : answers s = true) (h8 : a % 8 = 0) (h : read64 a s = some (v, s')) :
    doRcRead a 4 s = readLow a v s' := by
  have h4 : a % 4 = 0 := by omega
  simp [doRcRead, ha, badAccess_four h4, h8, h]
theorem doRcRead_high (ha : answers s = true) (h8 : a % 8 = 4) (h : read64 (a - 4) s = some (v, s')) :
    doRcRead a 4 s = readHigh a v s' := by
  have h4 : a % 4 = 0 := by omega
  simp [doRcRead, ha, badAccess_four h4, h8, h]
/-- A read of 4 bytes at an aligned address whose 8 bytes are no 64-bit register. -/
theorem doRcRead_word (ha : answers s = true) (h4 : a % 4 = 0) (h64 : (read64 (a / 8 * 8) s).isSome = false) :
    doRcRead a 4 s = giveRead a (read32 a s).1 (read32 a s).2 := by
  have hnone : read64 (a / 8 * 8) s = none := Option.isSome_eq_false_iff.1 h64 |> Option.isNone_iff_eq_none.1
  have hplace : a % 8 = 0 ∧ a / 8 * 8 = a ∨ a % 8 = 4 ∧ a / 8 * 8 = a - 4 := by omega
  obtain ⟨h8, hbase⟩ | ⟨h8, hbase⟩ := hplace <;> rw [hbase] at hnone <;> simp [doRcRead, ha, badAccess_four h4, h8, hnone]
/-- The latched high half is given once. -/
theorem readHigh_latched {h : Word32} (hl : tget? s.latchedHigh a = some h) :
    readHigh a v s = giveRead a h.toNat { s with latchedHigh := terase s.latchedHigh a } := by
  simp [readHigh, hl]

end Reads

/-! ### The register commands as the accesses they make -/

theorem exec_registerWrite (fw : Bool) (a size : Nat) (v : Word) (s : State) :
    exec (.registerWrite fw a size v) s = .next (doRegisterWrite fw a size (v.toNat % 2 ^ (8 * size)) s) := rfl
theorem exec_regWriteLowHalf (a : Nat) (v : Word32) (s : State) :
    exec (.regWriteLowHalf a v) s = .next (doRegWriteLowHalf a v.toNat s) := rfl
theorem exec_regWriteHighHalf (fw : Bool) (a : Nat) (v : Word32) (s : State) :
    exec (.regWriteHighHalf fw a v) s = .next (doRegWriteHighHalf fw a v.toNat s) := rfl
theorem exec_regReadLowHalf (a : Nat) (s : State) : exec (.regReadLowHalf a) s = .next (doRcRead a 4 s) := rfl
theorem exec_rcRead (a size : Nat) (s : State) : exec (.rcRead a size) s = .next (doRcRead a size s) := rfl

/-! ### The statements -/

/-- Settles O3: the register file after reset is empty, and so are the queue, the outputs and the table of rings. -/
theorem resetState : Obligations.ResetState :=
  ⟨fun r hr i => rd_reset (reset_lt_two_pow_64 r hr) i, modeOf_reset, rfl, rfl, fun _ => rfl, rfl⟩

/-- Settles O4: empty tables are in canonical form and no command waits. -/
theorem soundAtReset : Obligations.SoundAtReset := sound_reset

/-- Settles O5, by what waits: with nothing waiting a step is the TCLK edge, otherwise it executes the front command, and both
keep what `Keeps` says (`tick_keeps`, `exec_keeps`). -/
theorem soundEveryStep : Obligations.SoundEveryStep := by
  intro s t hs h
  cases e : s.pending with
  | nil =>
    rw [step_of_empty e] at h
    cases h
    exact sound_tick hs
  | cons c rest =>
    rw [step_of_front e] at h
    exact sound_of_keeps (exec_next_keeps h) (sound_rest e hs)

/-- Settles O7: a command keeps everything outside its mask (`exec_keeps`), and a part that is not in its list has its bit outside
that mask. -/
theorem commandFrame : Obligations.CommandFrame :=
  fun _ _ _ h _ hp => same_of_off (exec_next_keeps h) (off_of_notMem hp)

/-- Settles O8: each command is rewritten to the access it makes, and that access to the one register it writes. -/
theorem registerWrites : Obligations.RegisterWrites := by
  refine ⟨?word, ?low, ?high, ?bad⟩
  case word =>
    intro fw a v r s ha h4 h64 hmid hf hb hacc hpin hevt hown
    rw [exec_registerWrite, doRegisterWrite_word ha h4 h64 hmid, write32_register hf hb, writeReg_rw hacc hpin hevt hown]
  case low =>
    intro a v s ha h8 h64
    rw [exec_regWriteLowHalf, doRegWriteLowHalf_word64 ha h8 h64, writeLow, BitVec.ofNat_toNat, BitVec.setWidth_eq]
  case high =>
    intro fw a v lo r s ha h8 hwin hf hb hacc hpin hevt hown hl
    rw [exec_regWriteHighHalf, doRegWriteHighHalf_word64 ha h8 (is64_of_register hwin hf hb), writeHigh_held hl,
      write64_register hwin hf hb, writeReg_rw hacc hpin hevt hown, Nat.mod_eq_of_lt v.isLt]
    rfl
  case bad =>
    intro fw a size v s ha hbad
    refine ⟨countBad s, ?_, countBad_mem s, (countBad_only s).same_dose rfl, (countBad_only s).same_mot rfl, ?_⟩
    · rw [exec_registerWrite, doRegisterWrite_bad ha hbad]
    · exact fun q j h0 h1 h2 => rd_countBad h0 h1 h2 s

/-- Settles O9: each command is rewritten to the access it makes, and that access to what the register reads and what the read
clears. -/
theorem registerReads : Obligations.RegisterReads := by
  refine ⟨?low, ?word, ?clear, ?high, ?whole, ?bad⟩
  case low =>
    intro a v s s' ha h8 h
    rw [exec_regReadLowHalf, doRcRead_low ha h8 h]
    rfl
  case word =>
    intro a r s ha h4 h64 hf hwide hacc hr
    rw [exec_rcRead, doRcRead_word ha h4 h64, read32_register hf hwide hr, clearRead_of_ne_rc hacc]
    rfl
  case clear =>
    intro a r s ha h4 h64 hf hcount hacc hb hreset hr
    have hwide : r ≠ R.TSY_WIDE_NS := by rintro rfl; cases hacc
    refine ⟨giveRead a (rd r s (regIndex r a) % 2 ^ 32) (wr r r.reset s (regIndex r a)), ?_, rfl, ?_, rfl, rfl, ?_⟩
    · rw [exec_rcRead, doRcRead_word ha h4 h64, read32_register hf hwide hr, clearRead_of_rc hacc hcount]
    · calc rd r (wr r r.reset s (regIndex r a)) (regIndex r a)
        _ = r.reset % 2 ^ (8 * r.bytes) := rd_wr (by omega) _ _ _
        _ = r.reset := by rw [hb]; exact Nat.mod_eq_of_lt hreset
    · exact fun q j hne => rd_wr_ne hne _ _
  case high =>
    intro a v h s s' ha h8 hs hl
    rw [exec_rcRead, doRcRead_high ha h8 hs, readHigh_latched hl]
    rfl
  case whole =>
    intro a v s s' ha h8 h
    rw [exec_rcRead, doRcRead_whole ha h8 h]
    rfl
  case bad =>
    intro a size s ha hbad
    rw [exec_rcRead, doRcRead_bad ha hbad]
    rfl

end Sys2Proof.Proofs
end

section
/-! Registers, events and completions: which registers the shared operations leave alone (R13, R14, R57, R548, R551), and what
BEAM_ENABLE and a trip condition do (R18, R19, R491). -/

namespace Sys2Proof.Proofs
open Sys2Proof Sys2Proof.Machine Sys2Proof.Laws

/-! ### Fields and folds -/

section Keeping
variable {m : Nat} {s t : State}

theorem rdf_keeps (k : Keeps m s t) {r : RegInfo} {i : Nat} (h : off m (32 + regAddr r i / 65536 % 32)) (lo len : Nat) :
    rdf r lo len t i = rdf r lo len s i := congrArg (bits lo len) (rd_keeps k h)
theorem rdb_keeps (k : Keeps m s t) {r : RegInfo} {i : Nat} (h : off m (32 + regAddr r i / 65536 % 32)) (n : Nat) :
    rdb r n t i = rdb r n s i := congrArg (bit n) (rd_keeps k h)
/-- The mode stands where block CTL is not touched. -/
theorem modeOf_keeps (k : Keeps m s t) (h : off m 59) : modeOf t = modeOf s := rdf_keeps (r := R.CTL_MODE) (i := 0) k h 0 3

end Keeping

theorem rdf_wr_ne {r q : RegInfo} {i j : Nat} (h : regAddr q j ≠ regAddr r i) (v lo len : Nat) (s : State) :
    rdf q lo len (wr r v s i) j = rdf q lo len s j := congrArg (bits lo len) (rd_wr_ne h v s)
theorem rdb_wr_ne {r q : RegInfo} {i j : Nat} (h : regAddr q j ≠ regAddr r i) (v n : Nat) (s : State) :
    rdb q n (wr r v s i) j = rdb q n s j := congrArg (bit n) (rd_wr_ne h v s)
theorem rdb_wrb_other {r q : RegInfo} {i j : Nat} (h : regAddr q j ≠ regAddr r i) (n a : Nat) (b : Bool) (s : State) :
    rdb q n (wrb r a b s i) j = rdb q n s j := rdb_wr_ne h _ _ _
theorem rdb_postEvent {q : RegInfo} {j : Nat} (h : off 25769803828 (32 + regAddr q j / 65536 % 32)) (b n src sev w1 : Nat)
    (d : List (Nat × Nat × Int)) (s : State) : rdb q b (postEvent n src sev w1 d s) j = rdb q b s j :=
  congrArg (bit b) (rd_postEvent h n src sev w1 d s)
theorem rd_each {α : Type} {q : RegInfo} {j : Nat} {f : α → State → State} (h : ∀ a s, rd q (f a s) j = rd q s j) (l : List α)
    (s : State) : rd q (each l f s) j = rd q s j := by
  induction l generalizing s with
  | nil => rfl
  | cons a l ih => exact (ih (f a s)).trans (h a s)
/-- A fold whose every element leaves the state as it is. -/
theorem each_id {α : Type} {f : α → State → State} {s : State} {l : List α} (h : ∀ a ∈ l, f a s = s) : each l f s = s := by
  induction l with
  | nil => rfl
  | cons a l ih =>
    calc each (a :: l) f s
      _ = each l f (f a s) := rfl
      _ = each l f s := by rw [h a List.mem_cons_self]
      _ = s := ih fun b hb => h b (List.mem_cons_of_mem a hb)
/-- A pending bit that shows stays where the event controller's registers are not written. -/
theorem shows_wr {r : RegInfo} {n : Nat} (h : ∀ w, regAddr R.EVT_PENDING w ≠ regAddr r) (v : Nat) {s : State} (x : EventShows n s) :
    EventShows n (wr r v s) := shows_read (rd_wr_ne (h _) v s) x
theorem shows_wrb {r : RegInfo} {n : Nat} (h : ∀ w, regAddr R.EVT_PENDING w ≠ regAddr r) (a : Nat) (b : Bool) {s : State}
    (x : EventShows n s) : EventShows n (wrb r a b s) := shows_wr h _ x
/-- The pending registers stand in block EVT, a register of another block elsewhere. -/
theorem pending_ne {r : RegInfo} (h : regAddr r / 65536 ≠ 2) (w : Nat) : regAddr R.EVT_PENDING w ≠ regAddr r := by
  have e : regAddr R.EVT_PENDING w / 65536 = 2 := by simp [regAddr, R.EVT_PENDING]; omega
  intro x
  exact h (x ▸ e)

/-! ### What a completion leaves alone -/

/-- The registers of a block other than HIF and EVT are aside of the delivery. -/
theorem aside_of_block {q : RegInfo} {j : Nat} (h1 : regAddr q j / 65536 ≠ 1) (h2 : regAddr q j / 65536 ≠ 2) : Aside q j where
  cons k x := h1 (by rw [x]; simp [regAddr, R.HIF_RING_CONS]; omega)
  pba x := h2 (by rw [x]; rfl)
  drop x := h1 (by rw [x]; rfl)
  status x := h2 (by rw [x]; rfl)
theorem mode_aside : Aside R.CTL_MODE 0 := aside_of_block (by decide) (by decide)
theorem count_aside (j : Nat) : Aside R.EVT_COUNT j where
  cons k := by simp [regAddr, R.EVT_COUNT, R.HIF_RING_CONS]; omega
  pba := by simp [regAddr, R.EVT_COUNT, R.MSIX_PBA]; omega
  drop := by simp [regAddr, R.EVT_COUNT, R.HIF_EVT_DROP]; omega
  status := by simp [regAddr, R.EVT_COUNT, R.EVT_STATUS]; omega

/-! ### BEAM_ENABLE and trip conditions (R18, R19, R491) -/

theorem rd_satSaf {q : RegInfo} {j : Nat} (h : off 25769803828 (32 + regAddr q j / 65536 % 32)) (a : Nat) (s : State) :
    rd q (satSaf a s) j = rd q s j := rd_postEvent h ..
theorem rd_postDrop {q : RegInfo} {j : Nat} (h : off 25769803828 (32 + regAddr q j / 65536 % 32)) (cause port : Nat) (s : State) :
    rd q (postDrop cause port s) j = rd q s j := rd_keeps (postDrop_keeps (hm := rfl) (h := Keeps.refl 25769803828 s)) h
@[simp] theorem postDrop_ctl (cause port : Nat) (s : State) : (postDrop cause port s).ctl = s.ctl :=
  (postDrop_keeps (hm := rfl) (h := Keeps.refl 25769803828 s)).same_ctl rfl
@[simp] theorem satSaf_ctl (a : Nat) (s : State) : (satSaf a s).ctl = s.ctl := postEvent_ctl ..
@[simp] theorem bump_satSaf_ctl (r : RegInfo) (n a : Nat) (s : State) : (bump r n (satSaf a) s).ctl = s.ctl :=
  bump_part State.ctl (fun _ _ => rfl) (satSaf_ctl a) s
/-- A drop of BEAM_ENABLE is counted and reported; nothing else of block SAF is touched (R494, R517). -/
theorem rd_updateBeam {q : RegInfo} {j : Nat} (hq : off 25769803828 (32 + regAddr q j / 65536 % 32))
    (hd : regAddr q j ≠ regAddr R.SAF_BEAM_DROPS) (cause : Nat) (s : State) :
    rd q (updateBeam cause s) j = rd q (wrb R.SAF_STATUS 5 (beamWanted s) (wrb R.SAF_STATUS 0 (beamWanted s) s)) j := by
  unfold updateBeam
  extract_lets w was s1 s2
  split
  · rw [rd_postDrop hq, rd_bump hd (rd_satSaf hq _)]
    rfl
  · rfl
theorem updateBeam_ctl (cause : Nat) (s : State) :
    (updateBeam cause s).ctl = { s.ctl with beamEnable := beamWanted s, relay := beamWanted s } := by
  unfold updateBeam
  extract_lets w was s1 s2
  split
  · rw [postDrop_ctl, bump_satSaf_ctl]
    rfl
  · rfl
/-- SAF_STATUS shows BEAM_ENABLE. -/
theorem updateBeam_shows (cause : Nat) (s : State) : rdb R.SAF_STATUS 0 (updateBeam cause s) = beamWanted s :=
  calc rdb R.SAF_STATUS 0 (updateBeam cause s)
    _ = rdb R.SAF_STATUS 0 (wrb R.SAF_STATUS 5 (beamWanted s) (wrb R.SAF_STATUS 0 (beamWanted s) s)) :=
        congrArg (bit 0) (rd_updateBeam rfl (by decide) cause s)
    _ = beamWanted s := (rdb_wrb_ne (by decide) (by decide) (by decide) _ _ _).trans (rdb_wrb (by decide) (by decide) _ _ _)
theorem safStatus_fits {n : Nat} (h : n < 32) : n + 1 ≤ 8 * R.SAF_STATUS.bytes := by
  simp only [R.SAF_STATUS]
  omega
/-- The bits of SAF_STATUS that do not speak of the beam stand. -/
theorem rdb_updateBeam {n : Nat} (hn : n < 32) (h0 : n ≠ 0) (h5 : n ≠ 5) (cause : Nat) (s : State) :
    rdb R.SAF_STATUS n (updateBeam cause s) = rdb R.SAF_STATUS n s := by
  have hw := safStatus_fits hn
  calc rdb R.SAF_STATUS n (updateBeam cause s)
    _ = rdb R.SAF_STATUS n (wrb R.SAF_STATUS 5 (beamWanted s) (wrb R.SAF_STATUS 0 (beamWanted s) s)) :=
        congrArg (bit n) (rd_updateBeam rfl (by decide) cause s)
    _ = rdb R.SAF_STATUS n s := (rdb_wrb_ne (by decide) hw h5 _ _ _).trans (rdb_wrb_ne (by decide) hw h0 _ _ _)
/-- A trip condition keeps the beam off (R18). -/
theorem beamWanted_of_trip {s : State} (h : rdb R.SAF_STATUS 7 s = true) : beamWanted s = false := by
  simp [beamWanted, bezelPermits, h]
theorem showTrip_shows (s : State) : rdb R.SAF_STATUS 7 (showTrip s) = !s.ctl.trips.isEmpty := rdb_wrb (by decide) (by decide) _ _ _

end Sys2Proof.Proofs
end

section
/-! OP_SET_MODE (R20 to R25): which rule each request meets. -/

namespace Sys2Proof.Proofs
open Sys2Proof Sys2Proof.Machine Sys2Proof.Laws

/-- The rows of the transition table that OP_SET_MODE asks for (R20, R22), with HOLD, which the host's hold cause reaches (R26). -/
def modeRows : List (Nat × Nat) := [(3, 4), (3, 1), (3, 7), (6, 7), (4, 3), (6, 3), (7, 3), (1, 3), (3, 6), (4, 6), (5, 6), (7, 6)]

section Requests
variable {q : ModeRequest} {u : UsageIn} {s : State}

/-- R22: one transition at a time. -/
theorem setMode_busy (h : rdb R.CTL_MODE 31 s = true ∨ s.ctl.request.isSome = true) :
    setMode q u s = finish q.ring q.index stRefused 9 s := by
  unfold setMode
  exact if_pos (by simpa using h)

variable (ht : rdb R.CTL_MODE 31 s = false) (hr : s.ctl.request = none)
include ht hr

theorem setMode_current (h : q.target = modeOf s) : setMode q u s = finish q.ring q.index stOk 0 s := by
  simp [setMode, ht, hr, h]
/-- R23: a pair that is no row of the table. -/
theorem setMode_of_no_row (hne : q.target ≠ modeOf s) (h : (modeOf s, q.target) ∉ modeRows) :
    setMode q u s = finish q.ring q.index stRefused 10 s := by
  have hfree : ¬(rdb R.CTL_MODE 31 s || s.ctl.request.isSome) = true := by simp [ht, hr]
  unfold setMode
  dsimp only
  rw [if_neg hfree, if_neg hne]
  generalize modeOf s = a, q.target = b at h ⊢
  split
  case h_13 => rfl
  all_goals exact absurd (by decide) h
theorem setMode_hold (hm : modeOf s = 3 ∨ modeOf s = 4 ∨ modeOf s = 7) (h : q.target = 6) :
    setMode q u s = finish q.ring q.index stOk 0 (holdCause 16 s) := by
  obtain hm | hm | hm := hm <;> simp [setMode, ht, hr, h, hm]
theorem setMode_ready_held (hm : modeOf s = 6) (h : q.target = 3) (hc : rd R.CTL_HOLD_CAUSE s ≠ 0) :
    setMode q u s = finish q.ring q.index stRefused 12 s := by
  simp [setMode, ht, hr, h, hm, hc]
theorem setMode_service (hm : modeOf s = 3) (h : q.target = 7) (hs : axesStill s = true) :
    setMode q u s = finish q.ring q.index stOk 0 (changeMode 7 0 false s) := by
  simp [setMode, ht, hr, h, hm, hs]

end Requests

/-- An OP_SET_MODE that passes the common checks and ends no calibration gap is judged on the state that has read it. -/
theorem exec_setMode {k : Nat} {d : Desc} {u : UsageIn} {s : State}
    (h : Offers k d 0x02 (usedBits [(8, 1)]) [(8, decide (dfld d 8 1 ≤ 7))] s) (hg : modeOf s = 5 → s.ctl.calFrom ≠ 3) :
    exec (.setMode k d u) s = .next (setMode { ring := k, index := nextIndex k s, target := dfld d 8 1 } u (taken k d s)) := by
  have hgap : ¬(modeOf (taken k d s) = 5 ∧ (taken k d s).ctl.calFrom = 3) := fun ⟨h5, h3⟩ => hg h5 h3
  show Host.Outcome.next (doSetMode k d u s) = _
  unfold doSetMode
  rw [readDesc_offers h (by decide), if_neg hgap]

/-- A completion alone changes neither the mode registers nor an event's pending bit or count (R36, R57). -/
theorem finish_leaves_mode_and_events (k i st re : Nat) (d : Desc) (s : State) :
    rd R.CTL_MODE (finish k i st re (taken k d s)) = rd R.CTL_MODE s ∧
      ∀ j, j < 256 → rd R.EVT_PENDING (finish k i st re (taken k d s)) (j / 32) = rd R.EVT_PENDING s (j / 32) ∧
        rd R.EVT_COUNT (finish k i st re (taken k d s)) j = rd R.EVT_COUNT s j :=
  ⟨rd_complete mode_aside .., fun j _ => ⟨rd_complete (pending_aside _) .., rd_complete (count_aside j) ..⟩⟩

/-- Settles O25: a pair that is no row is refused (`setMode_of_no_row`), the mode of now completes OK, and neither does more than
complete the descriptor. -/
theorem badModeRefused : Obligations.BadModeRefused := by
  intro k d u s hoff ht hr hgap
  refine ⟨fun hne hrow => ?_, fun heq => ?_⟩
  · refine ⟨_, ?_, rfl, finish_leaves_mode_and_events ..⟩
    rw [exec_setMode hoff hgap]
    exact congrArg _ (setMode_of_no_row ht hr hne hrow)
  · refine ⟨_, ?_, rfl, finish_leaves_mode_and_events ..⟩
    rw [exec_setMode hoff hgap]
    exact congrArg _ (setMode_current ht hr heq)

/-- Settles O20: each clause is one rule of `setMode` on the state that has read the request. -/
theorem modeRequests : Obligations.ModeRequests := by
  intro k d u s hoff h5
  rw [exec_setMode hoff fun h => absurd h h5]
  refine ⟨fun hbusy => congrArg _ (setMode_busy hbusy), fun ht hr => ⟨?hold, ?held, ?service, ?bringup⟩⟩
  case hold => exact fun hm h => congrArg _ (setMode_hold ht hr hm h)
  case held => exact fun hm h hc => congrArg _ (setMode_ready_held ht hr hm h hc)
  case service => exact fun hm h hs => congrArg _ (setMode_service ht hr hm h hs)
  case bringup =>
    intro hm hne
    have hrow : (modeOf s, dfld d 8 1) ∉ modeRows := by simp [modeRows, hm]
    exact congrArg _ (setMode_of_no_row ht hr (fun h => hne (h.trans hm)) hrow)

end Sys2Proof.Proofs
end

section
/-! Hold causes and the entries to HOLD and READY (R24 to R31, R38, R440, R493, R497, R507). -/

namespace Sys2Proof.Proofs
open Sys2Proof Sys2Proof.Machine Sys2Proof.Laws

/-! ### Hold causes -/

/-- The modes from which a hold cause enters HOLD (R26). -/
def CanHold (s : State) : Prop := modeOf s = 3 ∨ modeOf s = 4 ∨ modeOf s = 5 ∨ modeOf s = 7
/-- HOLD stands, in transition, with cause `n` set (R28). -/
def HeldWith (n : Nat) (t : State) : Prop := modeOf t = 6 ∧ rdb R.CTL_MODE 31 t = true ∧ rdb R.CTL_HOLD_CAUSE n t = true

theorem canHold_of_mode {s t : State} (e : modeOf t = modeOf s) (h : CanHold s) : CanHold t := by
  unfold CanHold
  rwa [e]
theorem HeldWith.keeps {m n : Nat} {s t : State} (h : HeldWith n s) (k : Keeps m s t) (hm : off m 59) : HeldWith n t := by
  obtain ⟨hmode, htransit, hcause⟩ := h
  exact ⟨(modeOf_keeps k hm).trans hmode, (rdb_keeps (r := R.CTL_MODE) (i := 0) k hm 31).trans htransit,
    (rdb_keeps (r := R.CTL_HOLD_CAUSE) (i := 0) k hm n).trans hcause⟩
theorem holdCause_heldWith {n : Nat} {s : State} (hn : n < 32) (h : CanHold s) : HeldWith n (holdCause n s) := holdCause_enters hn h

/-- What comes before the hold cause of an opened E-stop, and what follows it, leaves block CTL alone (R493). -/
theorem estopOpened_heldWith {s : State} (h : CanHold s) : HeldWith 0 (estopOpened s) := by
  unfold estopOpened
  extract_lets s1 s2 s3 s4
  have k3 : Keeps 288231501433153588 s s3 :=
    each_keeps (postEstop_keeps (hm := rfl) (h := updateBeam_keeps (hm := rfl) (h := modCtl_keeps (hm := rfl) (h := Keeps.refl _ s))))
      fun _ _ hk => shortAxis_keeps (hm := rfl) (h := hk)
  have h4 : HeldWith 0 s4 := holdCause_heldWith (by decide) (canHold_of_mode (modeOf_keeps k3 rfl) h)
  split
  · exact h4.keeps (m := 1099511635968) (updateEnables_keeps (hm := rfl) (h := modCtl_keeps (hm := rfl) (h := Keeps.refl _ s4))) rfl
  · exact h4
/-- The first channel that opens opens the E-stop (R493). -/
theorem doEstopOpen_first {c : Nat} {s : State} (hc : c < 2) (ho : s.ctl.estopOpen = []) (hd : s.ctl.estopDisc = false) :
    doEstopOpen c s = estopOpened (wrb R.SAF_STATUS (2 + c) false
      (modCtl (fun x => { x with estopOpen := c :: x.estopOpen, estopReset := false }) s)) := by
  have hc1 : ¬ 1 < c := by omega
  simp [doEstopOpen, hc1, ho, hd, modCtl]
theorem doBeamPermitChange_loss {s : State} (h : s.ctl.permit = true) :
    doBeamPermitChange false s = holdCause 2 (updateBeam 2 (wrb R.SAF_STATUS 1 false (modCtl (fun c => { c with permit := false }) s))) := by
  simp [doBeamPermitChange, h]

/-! ### Clearing a hold cause -/

theorem onesOf_two_pow : ∀ n < 17, onesOf 17 (2 ^ n) = [n] := by decide
theorem clearCause_regs (n : Nat) (s : State) : (clearCause n s).regs = (wrb R.CTL_HOLD_CAUSE n false s).regs := by
  unfold clearCause
  extract_lets t
  split
  · rfl
  · split <;> rfl
theorem clearCause_of_ne {n : Nat} (h4 : n ≠ 4) (h9 : n ≠ 9) (s : State) : clearCause n s = wrb R.CTL_HOLD_CAUSE n false s := by
  simp [clearCause, h4, h9]
/-- A write of a single 1 (R27, R38). -/
theorem doHoldCauseClear_one {fw : Bool} {n : Nat} (hn : n < 17) (s : State) :
    doHoldCauseClear fw (2 ^ n) s = if clearable n s && !(fw && decide (n ≤ 2)) then clearCause n s else s := by
  unfold doHoldCauseClear
  rw [onesOf_two_pow n hn]
  rfl

/-- Settles O29: each loss reaches `holdCause` with the mode as it stood (`holdCause_heldWith`); a clear acts on its one bit
(`doHoldCauseClear_one`). -/
theorem holdCausesEnterHold : Obligations.HoldCausesEnterHold := by
  refine ⟨fun s h => ⟨?request, ?permit, ?estop, ?supply⟩, ?sets, ?clear⟩
  case request => exact ⟨_, rfl, holdCause_heldWith (by decide) h⟩
  case permit =>
    intro hp
    have k : Keeps 288230401921523764 s (updateBeam 2 (wrb R.SAF_STATUS 1 false (modCtl (fun c => { c with permit := false }) s))) :=
      updateBeam_keeps (hm := rfl) (h := wrb_keeps (hm := rfl) (hr0 := rfl) (hk0 := rfl) (h := modCtl_keeps (hm := rfl) (h := Keeps.refl _ s)))
    exact ⟨_, congrArg Host.Outcome.next (doBeamPermitChange_loss hp), holdCause_heldWith (by decide) (canHold_of_mode (modeOf_keeps k rfl) h)⟩
  case estop =>
    intro ho hd c hc
    have k : Keeps 288230376151719936 s (wrb R.SAF_STATUS (2 + c) false
        (modCtl (fun x => { x with estopOpen := c :: x.estopOpen, estopReset := false }) s)) :=
      wrb_keeps (hm := rfl) (hr0 := rfl) (hk0 := rfl) (h := modCtl_keeps (hm := rfl) (h := Keeps.refl _ s))
    exact ⟨_, congrArg Host.Outcome.next (doEstopOpen_first hc ho hd), estopOpened_heldWith (canHold_of_mode (modeOf_keeps k rfl) h)⟩
  case supply =>
    intro hdip hdone
    have e : doSupplyHoldExpiry s = holdCause 8 (modPwr (fun p => { p with holdDone := true }) s) := if_pos ⟨hdip, by simp [hdone]⟩
    exact ⟨_, congrArg Host.Outcome.next e, holdCause_heldWith (by decide) h⟩
  case sets => exact fun s h => congrArg Host.Outcome.next (holdCause_sets (by decide) h)
  case clear =>
    intro fw n v s hn hv
    have e : exec (.holdCauseClear fw v) s = .next (doHoldCauseClear fw (2 ^ n) s) := by rw [← hv]; rfl
    rw [e, doHoldCauseClear_one hn]
    constructor
    · intro hc hfw
      have hw : (clearable n s && !(fw && decide (n ≤ 2))) = true := by
        cases fw with
        | false => simpa using hc
        | true => simpa [hc] using hfw rfl
      exact ⟨_, congrArg Host.Outcome.next (if_pos hw), clearCause_regs n s, fun h4 h9 => clearCause_of_ne h4 h9 s⟩
    · intro hno
      have hw : ¬(clearable n s && !(fw && decide (n ≤ 2))) = true := by
        obtain hc | ⟨hfw, h2⟩ := hno
        · simp [hc]
        · simp [hfw, h2]
      exact congrArg Host.Outcome.next (if_neg hw)

/-! ### The entries to HOLD and READY -/

/-- Every axis stands still during the entry to HOLD: the usage flush and the beam leave the mode, the axes and the dose path
(R28, R515). -/
theorem doHoldStandstill_still {u : UsageIn} {s : State} (h6 : modeOf s = 6) (ht : rdb R.CTL_MODE 31 s = true) (hs : axesStill s = true) :
    doHoldStandstill u s = updateBeam 4 (wrb R.CTL_MODE 31 false (usageFlush 2 u s)) := if_pos ⟨h6, ht, hs⟩
/-- The mode register's transition bit apart, its mode field stands. -/
theorem modeOf_wrb_transit (b : Bool) (s : State) : modeOf (wrb R.CTL_MODE 31 b s) = modeOf s :=
  rdf_wrb_ne (by decide) (by decide) (.inl (by decide)) b s 0
/-- The axes and the time steps that wait stand through what precedes an entry to READY (R24). -/
theorem doReadyEntryAtRest_build {q : ModeRequest} {s : State} (hq : s.ctl.request = some q) (h3 : q.target = 3) (h4 : modeOf s = 4)
    (hp : curPass s = none) (h0 : atRest 0 s = true) (h1 : atRest 1 s = true) : doReadyEntryAtRest s = enterReady q s := by
  simp [doReadyEntryAtRest, hq, h3, h4, hp, h0, h1]
theorem enterReady_enters (q : ModeRequest) (s : State) :
    modeOf (enterReady q s) = 3 ∧ rdb R.CTL_MODE 31 (enterReady q s) = false := by
  unfold enterReady
  extract_lets s1 s2
  have k : Keeps 25769803828 s2 (finish q.ring q.index stOk 0 s2) := finish_keeps (hm := rfl) (h := Keeps.refl _ s2)
  exact ⟨(modeOf_keeps k rfl).trans (changeMode_modeOf ..),
    (rdb_keeps (r := R.CTL_MODE) (i := 0) k rfl 31).trans (changeMode_transit ..)⟩
theorem enterReady_mot (q : ModeRequest) {s : State} (hs : s.time.pendServo = none) (hh : s.time.pendHost = []) :
    (enterReady q s).mot = s.mot := by
  unfold enterReady
  extract_lets s1 s2
  have k1 : Keeps 28428998417584188 s s1 := rewindLayer_keeps (hm := rfl) (h := relogAbandoned_keeps (hm := rfl) (h := Keeps.refl _ s))
  have et : s1.time = s.time := k1.same_time rfl
  have e2 : s2.mot = (modCtl (fun c => { c with request := none }) s1).mot := by
    refine (changeMode_mot 3 0 false ?_ ?_).1
    · exact (congrArg TimeState.pendServo et).trans hs
    · exact (congrArg TimeState.pendHost et).trans hh
  have k2 : Keeps 25769803828 s2 (finish q.ring q.index stOk 0 s2) := finish_keeps (hm := rfl) (h := Keeps.refl _ s2)
  rw [k2.same_mot rfl, e2, modCtl_mot, k1.same_mot rfl]

/-! ### The end of bring-up (R31, R497) -/

/-- What the three inputs add to the hold causes at the end of bring-up (R31). -/
def withInputCauses (s : State) : State :=
  let s := if !s.ctl.estopOpen.isEmpty || s.ctl.estopDisc then wrb R.CTL_HOLD_CAUSE 0 true s else s
  let s := if s.ctl.permit then s else wrb R.CTL_HOLD_CAUSE 2 true s
  if s.ctl.coolant then s else wrb R.CTL_HOLD_CAUSE 5 true s
/-- The entry to READY, or to HOLD where a cause is set, that ends bring-up. -/
def bringupEntry (s : State) : State :=
  if rd R.CTL_HOLD_CAUSE s != 0 then changeMode 6 (0x20 + lowestCause s) false s else changeMode 3 2 false s

theorem withInputCauses_good {s : State} (ho : s.ctl.estopOpen = []) (hd : s.ctl.estopDisc = false) (hp : s.ctl.permit = true)
    (hc : s.ctl.coolant = true) : withInputCauses s = s := by
  simp [withInputCauses, ho, hd, hp, hc]
/-- No input clears the cause of the firmware. -/
theorem withInputCauses_firmware {s : State} (h : rdb R.CTL_HOLD_CAUSE 15 s = true) : rdb R.CTL_HOLD_CAUSE 15 (withInputCauses s) = true := by
  have hset : ∀ (n : Nat) (u : State), n ≠ 15 → rdb R.CTL_HOLD_CAUSE 15 u = true → rdb R.CTL_HOLD_CAUSE 15 (wrb R.CTL_HOLD_CAUSE n true u) = true :=
    fun n u hn hu => (rdb_wrb_ne (by decide) (by decide) (Ne.symm hn) true u 0).trans hu
  unfold withInputCauses
  extract_lets s1 s2
  have h1 : rdb R.CTL_HOLD_CAUSE 15 s1 = true := by
    unfold s1
    split
    · exact hset 0 s (by decide) h
    · exact h
  have h2 : rdb R.CTL_HOLD_CAUSE 15 s2 = true := by
    unfold s2
    split
    · exact h1
    · exact hset 2 s1 (by decide) h1
  split
  · exact h2
  · exact hset 5 s2 (by decide) h2
/-- The OP_SET_MODE that waited for the end of bring-up completes without touching block CTL. -/
theorem endBringup_ctl (s : State) : ∃ m, Keeps m (bringupEntry (withInputCauses s)) (endBringup s) ∧ off m 59 := by
  unfold endBringup
  extract_lets s1 s2 s3 held s4
  refine ⟨25769812020, ?_, rfl⟩
  show Keeps _ s4 _
  split
  · exact Keeps.refl _ s4
  · exact finish_keeps (hm := rfl) (h := modCtl_keeps (hm := rfl) (h := Keeps.refl _ s4))
/-- Bring-up with every input good and no cause set ends in READY. -/
theorem endBringup_ready {s : State} (ho : s.ctl.estopOpen = []) (hd : s.ctl.estopDisc = false) (hp : s.ctl.permit = true)
    (hc : s.ctl.coolant = true) (h0 : rd R.CTL_HOLD_CAUSE s = 0) :
    modeOf (endBringup s) = 3 ∧ rdb R.CTL_MODE 31 (endBringup s) = false ∧ rd R.CTL_HOLD_CAUSE (endBringup s) = 0 := by
  obtain ⟨m, k, hm⟩ := endBringup_ctl s
  have e : bringupEntry (withInputCauses s) = changeMode 3 2 false s := by
    rw [withInputCauses_good ho hd hp hc]
    simp [bringupEntry, h0]
  rw [e] at k
  exact ⟨(modeOf_keeps k hm).trans (changeMode_modeOf ..), (rdb_keeps (r := R.CTL_MODE) (i := 0) k hm 31).trans (changeMode_transit ..),
    (rd_keeps (r := R.CTL_HOLD_CAUSE) (i := 0) k hm).trans ((changeMode_cause ..).trans h0)⟩
/-- Bring-up that the firmware's cause holds ends in HOLD. -/
theorem endBringup_held {s : State} (h : rdb R.CTL_HOLD_CAUSE 15 s = true) :
    modeOf (endBringup s) = 6 ∧ rdb R.CTL_HOLD_CAUSE 15 (endBringup s) = true := by
  obtain ⟨m, k, hm⟩ := endBringup_ctl s
  have h15 := withInputCauses_firmware h
  generalize withInputCauses s = u at k h15
  have hne : rd R.CTL_HOLD_CAUSE u ≠ 0 := fun h0 => by simp [rdb, h0, bit] at h15
  have e : bringupEntry u = changeMode 6 (0x20 + lowestCause u) false u := if_pos (by simpa using hne)
  rw [e] at k
  exact ⟨(modeOf_keeps k hm).trans (changeMode_modeOf ..),
    ((rdb_keeps (r := R.CTL_HOLD_CAUSE) (i := 0) k hm 15).trans (congrArg (bit 15) (changeMode_cause ..))).trans h15⟩

/-- Settles O30: each entry is a mode change (`changeMode_modeOf`, `changeMode_transit`) between operations that leave block CTL
alone. -/
theorem modeEntries : Obligations.ModeEntries := by
  refine ⟨?standstill, ?ready, ?bringup, ?timeout⟩
  case standstill =>
    intro u s h6 ht hs
    have kf : Keeps 1152921530376716348 s (usageFlush 2 u s) := usageFlush_keeps (hm := rfl) (h := Keeps.refl _ s)
    have kb : Keeps 288230401921523764 (wrb R.CTL_MODE 31 false (usageFlush 2 u s))
        (updateBeam 4 (wrb R.CTL_MODE 31 false (usageFlush 2 u s))) := updateBeam_keeps (hm := rfl) (h := Keeps.refl _ _)
    refine ⟨_, congrArg Host.Outcome.next (doHoldStandstill_still h6 ht hs), ?_, ?_, ?_, ?_⟩
    · exact (modeOf_keeps kb rfl).trans ((modeOf_wrb_transit ..).trans ((modeOf_keeps kf rfl).trans h6))
    · exact (rdb_keeps (r := R.CTL_MODE) (i := 0) kb rfl 31).trans (rdb_wrb (by decide) (by decide) _ _ _)
    · exact (kb.same_mot rfl).trans (kf.same_mot rfl)
    · exact (kb.same_dose rfl).trans (kf.same_dose rfl)
  case ready =>
    intro q s hq h3 h4 hp h0 h1
    obtain ⟨hmode, htransit⟩ := enterReady_enters q s
    exact ⟨_, congrArg Host.Outcome.next (doReadyEntryAtRest_build hq h3 h4 hp h0 h1), hmode, htransit, enterReady_mot q⟩
  case bringup =>
    intro s hl h2 hdue has htr ho hd hp hc h0
    have hdone : rdb R.CTL_BRINGUP_DONE 0 (wrb R.CTL_BRINGUP_DONE 0 true s) = true := rdb_wrb (by decide) (by decide) _ _ _
    have hmode : modeOf (wrb R.CTL_BRINGUP_DONE 0 true s) = 2 := (rdf_wr_ne (by decide) _ _ _ s).trans h2
    have e : doCtlBringupDoneWrite s = endBringup (wrb R.CTL_BRINGUP_DONE 0 true s) := by
      simp [doCtlBringupDoneWrite, bringupCheck, hl, hdone, hmode, hdue, has, htr]
    exact ⟨_, congrArg Host.Outcome.next e, endBringup_ready ho hd hp hc ((rd_wrb_ne (by decide) _ _ s).trans h0)⟩
  case timeout =>
    intro s h2 hl hno
    have e : doBringupDoneTimeout s = endBringup (wrb R.CTL_HOLD_CAUSE 15 true s) := if_pos ⟨h2, hl, by simp [hno]⟩
    exact ⟨_, congrArg Host.Outcome.next e, endBringup_held (rdb_wrb (by decide) (by decide) _ _ _)⟩

end Sys2Proof.Proofs
end

section
/-! Bezel: its trips (R18, R19, R26, R28, R491), the envelope check (R490), the E-stop inputs, the permit and the feedback checks
(R492 to R495, R533). -/

namespace Sys2Proof.Proofs
open Sys2Proof Sys2Proof.Machine Sys2Proof.Laws

/-! ### A trip up to its hold cause (R491) -/

/-- The trip condition of a cause and unit is recorded and shown. -/
def tripRecorded (cause unit : Nat) (s : State) : State :=
  showTrip (wr R.SAF_TRIP (cause + 2 ^ 8 * unit) (modCtl (fun c => { c with trips := (cause, unit) :: c.trips.filter (· != (cause, unit)) }) s))
/-- The trip is counted, the beam drops and the relay opens. -/
def tripBeamOff (cause unit : Nat) (s : State) : State := updateBeam 3 (bump R.SAF_TRIPS 1 (satSaf 0x28) (tripRecorded cause unit s))
/-- EV_BEZEL_TRIP is posted. -/
def tripReported (cause unit measured limit line : Nat) (s : State) : State :=
  postEvent 224 0 2 0 [(0, 1, (cause : Nat)), (1, 1, (unit : Nat)), (4, 4, (measured : Nat)), (8, 4, (limit : Nat)), (12, 4, (line : Nat))]
    (tripBeamOff cause unit s)

section Trips
variable (cause unit measured limit line : Nat) (s : State)

theorem bezelTrip_eq : bezelTrip cause unit measured limit line s = holdCause 1 (tripReported cause unit measured limit line s) := rfl
theorem counted_trip_shows : rdb R.SAF_STATUS 7 (bump R.SAF_TRIPS 1 (satSaf 0x28) (tripRecorded cause unit s)) = true :=
  (congrArg (bit 7) (rd_bump (by decide) (rd_satSaf rfl _) _)).trans (showTrip_shows _)
theorem tripBeamOff_ctl : (tripBeamOff cause unit s).ctl = { (tripRecorded cause unit s).ctl with beamEnable := false, relay := false } := by
  unfold tripBeamOff
  rw [updateBeam_ctl, beamWanted_of_trip (counted_trip_shows cause unit s), bump_satSaf_ctl]
theorem tripBeamOff_cause : rd R.SAF_TRIP (tripBeamOff cause unit s) = (cause + 2 ^ 8 * unit) % 2 ^ 32 := by
  have hb : ∀ (n : Nat) (b : Bool) (u : State), rd R.SAF_TRIP (wrb R.SAF_STATUS n b u) = rd R.SAF_TRIP u := rd_wrb_ne (by decide)
  unfold tripBeamOff
  rw [rd_updateBeam rfl (by decide), hb, hb, rd_bump (by decide) (rd_satSaf rfl _)]
  unfold tripRecorded showTrip
  rw [hb]
  exact rd_wr (by decide) _ _ _
theorem tripReported_ctl :
    (tripReported cause unit measured limit line s).ctl = { (tripRecorded cause unit s).ctl with beamEnable := false, relay := false } :=
  (postEvent_ctl ..).trans (tripBeamOff_ctl ..)
theorem rd_tripReported {q : RegInfo} {j : Nat} (h : off 25769803828 (32 + regAddr q j / 65536 % 32)) :
    rd q (tripReported cause unit measured limit line s) j = rd q (tripBeamOff cause unit s) j := rd_postEvent h ..
/-- Up to its hold cause a trip leaves the mode. -/
theorem modeOf_tripReported : modeOf (tripReported cause unit measured limit line s) = modeOf s := by
  have k : Keeps 288230401921523764 s (tripReported cause unit measured limit line s) :=
    postEvent_keeps (hm := rfl) (h := updateBeam_keeps (hm := rfl) (h := bump_keeps (hm := rfl) (hr0 := rfl) (hk0 := rfl)
      (hf := fun _ h => satSaf_keeps (hm := rfl) (h := h)) (h := showTrip_keeps (hm := rfl) (h := wr_keeps (hr := rfl) (hk := rfl)
        (h := modCtl_keeps (hm := rfl) (h := Keeps.refl _ s))))))
  exact modeOf_keeps k rfl

end Trips

/-- Settles O55: what stands before the hold cause is read off the state in which EV_BEZEL_TRIP has been posted; the hold cause
then enters HOLD (`holdCause_heldWith`). -/
theorem bezelTrips : Obligations.BezelTrips := by
  intro cause unit measured limit line s hc hu
  have hfit : (cause + 2 ^ 8 * unit) % 2 ^ 32 = cause + 2 ^ 8 * unit := Nat.mod_eq_of_lt (by omega)
  have hctl := tripReported_ctl cause unit measured limit line s
  have hread : ∀ n, rdb R.SAF_STATUS n (tripReported cause unit measured limit line s) = rdb R.SAF_STATUS n (tripBeamOff cause unit s) :=
    fun n => congrArg (bit n) (rd_tripReported _ _ _ _ _ _ rfl)
  refine ⟨⟨tripReported cause unit measured limit line s, bezelTrip_eq .., ?cause, ?trip, ?beam, ?relay, ?shown, ?event⟩, fun hm => ?hold⟩
  case cause => exact (rd_tripReported _ _ _ _ _ _ rfl).trans ((tripBeamOff_cause ..).trans hfit)
  case trip => exact (hread 7).trans ((rdb_updateBeam (by decide) (by decide) (by decide) 3 _).trans (counted_trip_shows ..))
  case beam => rw [hctl]
  case relay => rw [hctl]
  case shown => exact (hread 0).trans ((updateBeam_shows ..).trans (beamWanted_of_trip (counted_trip_shows ..)))
  case event => exact posted ..
  case hold =>
    obtain ⟨hmode, -, hcause⟩ := holdCause_heldWith (n := 1) (by decide) (canHold_of_mode (modeOf_tripReported cause unit measured limit line s) hm)
    exact ⟨hmode, hcause⟩

/-! ### The envelope check (R490) -/

theorem envCheck_inside {a v : Nat} {s : State} (hk : envKind a v s = 0) (hb : s.ctl.envBad = []) : envCheck a v s = s := by
  simp [envCheck, hk, hb]
/-- An axis found outside its envelope trips, is reported and is shorted (R491, R315). -/
theorem envCheck_outside {a v : Nat} {s : State} (hk : envKind a v s ≠ 0) (hb : s.ctl.envBad = []) :
    ∃ m lim d, envCheck a v s = shortAxis a 1 (postEvent 230 a 2 0 ((0, 1, (envKind a v s : Nat)) :: d)
      (bezelTrip 4 a m lim 0 (modCtl (fun c => { c with envBad := [a] }) s))) := by
  have hbad : ¬ s.ctl.envBad.contains a = true := by simp [hb]
  have hnote : modCtl (fun c => { c with envBad := a :: c.envBad }) s = modCtl (fun c => { c with envBad := [a] }) s := by
    simp [modCtl, hb]
  unfold envCheck
  dsimp only
  rw [if_neg hk, if_neg hbad, hnote]
  exact ⟨_, _, _, rfl⟩
/-- The six axes, cut at one of them. -/
theorem axes_split : ∀ a < 6, [0, 1, 2, 3, 4, 5] = List.range a ++ a :: (List.range 6).drop (a + 1) := by decide
theorem each_append_cons {α : Type} (l r : List α) (a : α) (f : α → State → State) (s : State) :
    each (l ++ a :: r) f s = each r f (f a (each l f s)) := List.foldl_append

/-! ### The E-stop inputs, the permit and the test pulse (R493, R533) -/

/-- A channel closes while the other is open. -/
theorem doEstopClose_first {c : Nat} {s : State} (hp : s.ctl.pin.ioPresent = true) (hc : c ∈ s.ctl.estopOpen)
    (hother : s.ctl.estopOpen.filter (· != c) ≠ []) :
    doEstopClose c s = wrb R.SAF_STATUS (2 + c) true (modCtl (fun x => { x with estopOpen := x.estopOpen.filter (· != c) }) s) := by
  have hgo : ¬(!s.ctl.estopOpen.contains c || !s.ctl.pin.ioPresent) = true := by simp [hc, hp]
  have hopen : (!(s.ctl.estopOpen.filter (· != c)).isEmpty || s.ctl.estopDisc) = true := by simp [hother]
  unfold doEstopClose
  rw [if_neg hgo]
  exact if_pos hopen
/-- The state once the last channel has closed: EV_ESTOP, the discrepancy bit off, and motion is let go. -/
def lastChannelClosed (c ms : Nat) (s : State) : State :=
  modCtl (fun x => { x with motionHold := false }) (wrb R.SAF_STATUS 4 false (postEstop 3 ms
    (wrb R.SAF_STATUS (2 + c) true (modCtl (fun x => { x with estopOpen := x.estopOpen.filter (· != c) }) s))))
theorem doEstopClose_last {c : Nat} {s : State} (hp : s.ctl.pin.ioPresent = true) (hc : s.ctl.estopOpen = [c])
    (hd : s.ctl.estopDisc = false) : ∃ ms, doEstopClose c s = updateBeam 1 (updateEnables (lastChannelClosed c ms s)) := by
  have hgo : ¬(!s.ctl.estopOpen.contains c || !s.ctl.pin.ioPresent) = true := by simp [hc, hp]
  have hclosed : ¬(!(s.ctl.estopOpen.filter (· != c)).isEmpty || s.ctl.estopDisc) = true := by simp [hc, hd]
  unfold doEstopClose
  rw [if_neg hgo]
  exact ⟨_, if_neg hclosed⟩
@[simp] theorem postEstop_ctl (cause ms : Nat) (s : State) : (postEstop cause ms s).ctl = s.ctl := postEvent_ctl ..
theorem lastChannelClosed_ctl (c ms : Nat) (s : State) :
    (lastChannelClosed c ms s).ctl = { s.ctl with estopOpen := s.ctl.estopOpen.filter (· != c), motionHold := false } := by
  simp [lastChannelClosed, modCtl]
theorem lastChannelClosed_channel {c : Nat} (hc : c < 2) (ms : Nat) (s : State) :
    rdb R.SAF_STATUS (2 + c) (lastChannelClosed c ms s) = true :=
  (rdb_wrb_ne (by decide) (safStatus_fits (by omega)) (by omega) _ _ _).trans
    ((rdb_postEvent rfl ..).trans (rdb_wrb (by decide) (safStatus_fits (by omega)) _ _ _))
theorem lastChannelClosed_agree (c ms : Nat) (s : State) : rdb R.SAF_STATUS 4 (lastChannelClosed c ms s) = false :=
  rdb_wrb (by decide) (by decide) _ _ _
theorem lastChannelClosed_shows (c ms : Nat) (s : State) : EventShows 225 (lastChannelClosed c ms s) :=
  shows_wrb (pending_ne (by decide)) _ _ (posted ..)
theorem testPulse_allowed {c : Nat} {s : State} (hc : c < 2) (hp : s.ctl.pin.ioPresent = true) (hf : rdb R.PIN_FAULT 11 s = false) :
    ¬(c > 1 ∨ (!s.ctl.pin.ioPresent) = true ∨ rdb R.PIN_FAULT 11 s = true) := by
  simp [hp, hf]
  omega
/-- A test pulse that is sent: the channel's record, and nothing more where it finds no cross-short. -/
theorem doEstopTestPulse_clean {c : Nat} {s : State} (hc : c < 2) (hp : s.ctl.pin.ioPresent = true) (hf : rdb R.PIN_FAULT 11 s = false) :
    doEstopTestPulse c false s = modPin (fun p => { p with crossBad := p.crossBad.filter (· != c) }) (emit .estopTestPulse s) := by
  unfold doEstopTestPulse
  rw [if_neg (testPulse_allowed hc hp hf)]
  rfl
/-- The fault of a cross-short: recorded, shown, counted and posted (R533, R537). -/
def crossFault (c : Nat) (s : State) : State :=
  postIoFault 4 c 7 0 (bump R.PIN_FAULTS 1 (satPin 0x28) (wrb R.PIN_FAULT 31 true
    (modPin (fun p => { p with crossBad := [c] ++ p.crossBad.filter (· != c) }) (emit .estopTestPulse s))))
theorem crossFault_ctl (c : Nat) (s : State) :
    (crossFault c s).ctl = { s.ctl with pin := { s.ctl.pin with crossBad := [c] ++ s.ctl.pin.crossBad.filter (· != c) } } :=
  (postEvent_ctl ..).trans (bump_part State.ctl (fun _ _ => rfl) (fun _ => postEvent_ctl ..) _)
theorem crossFault_shows (c : Nat) (s : State) : rdb R.PIN_FAULT 31 (crossFault c s) = true :=
  (rdb_postEvent rfl ..).trans ((congrArg (bit 31) (rd_bump (by decide) (fun _ => rd_postEvent rfl ..) _)).trans
    (rdb_wrb (by decide) (by decide) _ _ _))
/-- The first cross-short makes both channels count as open, which opens the E-stop. -/
theorem doEstopTestPulse_cross {c : Nat} {s : State} (hc : c < 2) (hp : s.ctl.pin.ioPresent = true) (hf : rdb R.PIN_FAULT 11 s = false)
    (h31 : rdb R.PIN_FAULT 31 s = false) (ho : s.ctl.estopOpen = []) (hd : s.ctl.estopDisc = false) :
    doEstopTestPulse c true s = estopOpened (modCtl (fun x => { x with estopDisc := true, estopReset := false })
      (wrb R.SAF_STATUS 4 true (crossFault c s))) := by
  have hnew : ∀ f, ¬(!true || rdb R.PIN_FAULT 31 (modPin f (emit .estopTestPulse s))) = true := fun f => by
    show ¬(!true || rdb R.PIN_FAULT 31 s) = true
    simp [h31]
  have hctl := crossFault_ctl c s
  have hopen : (crossFault c s).ctl.estopOpen = [] := by rw [hctl]; exact ho
  have hdisc : (crossFault c s).ctl.estopDisc = false := by rw [hctl]; exact hd
  unfold doEstopTestPulse
  rw [if_neg (testPulse_allowed hc hp hf)]
  dsimp only
  rw [if_neg (hnew _)]
  show (if (crossFault c s).ctl.estopOpen.length = 2 then _ else if ((crossFault c s).ctl.estopOpen.isEmpty && !(crossFault c s).ctl.estopDisc) = true then _ else _) = _
  rw [hopen, hdisc]
  rfl

/-! ### Feedback checks (R492, R494, R495) -/

theorem tripGone_shows (gone : Nat × Nat → Bool) (s : State) :
    rdb R.SAF_STATUS 7 (tripGone gone s) = !(tripGone gone s).ctl.trips.isEmpty := showTrip_shows _

/-! ### The statement -/

/-- Settles O54: the commands are rewritten to what the lemmas above say each does in its case; SAF_STATUS and PIN_FAULT then read
what was written last. -/
theorem bezelCommands : Obligations.BezelCommands := by
  refine ⟨?inside, ?outside, ?close, ?discrepancy, ?timeout, ?pulse, ?permit, ?enable, ?relay⟩
  case inside =>
    rintro speeds s (h0 | ⟨hb, hk⟩)
    · exact congrArg Host.Outcome.next (if_pos h0)
    · have e : each [0, 1, 2, 3, 4, 5] (fun a s => envCheck a (speeds.getD a 0) s) s = s :=
        each_id fun a ha => envCheck_inside (hk a (by simp at ha; omega)) hb
      refine congrArg Host.Outcome.next ?_
      split
      · rfl
      · exact e
  case outside =>
    intro speeds a s hm ha hb hbefore hk
    obtain ⟨m, lim, d, e⟩ := envCheck_outside hk hb
    refine ⟨m, lim, d, congrArg Host.Outcome.next ?_⟩
    rw [if_neg hm, axes_split a ha, each_append_cons,
      each_id fun b h => envCheck_inside (hbefore b (List.mem_range.1 h)) hb, e]
  case close =>
    refine fun c s hc => ⟨fun h => ?_, fun hp hopen hother => ?_, fun hp hopen hd => ?_⟩
    · exact congrArg Host.Outcome.next (if_pos (by simpa using h))
    · have hne : s.ctl.estopOpen.filter (· != c) ≠ [] := fun h => by
        have hin : 1 - c ∈ s.ctl.estopOpen.filter (· != c) := List.mem_filter.2 ⟨hother, by simp; omega⟩
        rw [h] at hin
        cases hin
      exact ⟨_, congrArg Host.Outcome.next (doEstopClose_first hp hopen hne), rfl,
        rdb_wrb (by decide) (safStatus_fits (by omega)) _ _ _, rfl, rfl⟩
    · obtain ⟨ms, e⟩ := doEstopClose_last hp hopen hd
      have hctl := lastChannelClosed_ctl c ms s
      exact ⟨_, congrArg Host.Outcome.next e, by rw [hctl]; simp [hopen], by rw [hctl], lastChannelClosed_channel hc ms s,
        lastChannelClosed_agree .., lastChannelClosed_shows ..⟩
  case discrepancy =>
    refine fun s => ⟨fun h1 hd => ?_, fun h => ?_⟩
    · refine ⟨_, congrArg Host.Outcome.next (if_pos ⟨h1, by simp [hd]⟩), ?_, ?_, posted ..⟩
      · exact congrArg CtlState.estopDisc (postEvent_ctl ..)
      · exact (rdb_postEvent rfl ..).trans (rdb_wrb (by decide) (by decide) _ _ _)
    · refine congrArg Host.Outcome.next (if_neg fun ⟨h1, h2⟩ => ?_)
      obtain h | h := h
      · exact h h1
      · simp [h] at h2
  case timeout =>
    exact fun s => ⟨fun h => congrArg Host.Outcome.next (if_neg (by simpa using h)), fun h => congrArg Host.Outcome.next (if_pos h)⟩
  case pulse =>
    refine fun c s hc hp hf => ⟨?_, fun h31 ho hd => ?_⟩
    · refine ⟨_, congrArg Host.Outcome.next (doEstopTestPulse_clean hc hp hf), rfl, rfl, fun h => ?_⟩
      simpa using (List.mem_filter.1 h).2
    · refine ⟨_, congrArg Host.Outcome.next (doEstopTestPulse_cross hc hp hf h31 ho hd), rfl, ?_, ?_, ?_, ?_⟩
      · show c ∈ (crossFault c s).ctl.pin.crossBad
        rw [crossFault_ctl]
        exact List.mem_cons_self
      · exact rdb_wrb (by decide) (by decide) _ _ _
      · exact (rdb_wrb_other (by decide) ..).trans (crossFault_shows c s)
      · exact shows_wrb (pending_ne (by decide)) _ _ (posted ..)
  case permit =>
    intro s hp hio
    have e : doBeamPermitChange true s = updateBeam 2 (wrb R.SAF_STATUS 1 true (modCtl (fun c => { c with permit := true }) s)) := by
      simp [doBeamPermitChange, hp, hio]
    exact ⟨_, congrArg Host.Outcome.next e, rfl, rdb_wrb (by decide) (by decide) _ _ _⟩
  case enable =>
    intro p active s hp
    have e : doEnableFeedbackFault p active s =
        if active = enableOf p s then tripGone (· == (6, p)) s else bezelTrip 6 p (b2n active) (b2n (enableOf p s)) 0 s := if_neg (by omega)
    refine ⟨fun h => ?_, fun h => congrArg Host.Outcome.next (e.trans (if_neg h))⟩
    exact ⟨_, congrArg Host.Outcome.next (e.trans (if_pos h)), rfl, tripGone_shows _ s, rfl, rfl, rfl⟩
  case relay =>
    refine fun closed s => ⟨fun h => ?_, fun h => ?_⟩
    · refine ⟨_, congrArg Host.Outcome.next (if_pos h), ?_, rfl, tripGone_shows _ _, rfl⟩
      exact (rdb_wrb_ne (by decide) (by decide) (by decide) _ _ _).trans (rdb_wrb (by decide) (by decide) _ _ _)
    · exact ⟨_, congrArg Host.Outcome.next (if_neg h), rdb_wrb (by decide) (by decide) _ _ _, rfl⟩

end Sys2Proof.Proofs
end

section
/-! Mains, the supply warning and the backup cell (R33, R437, R440, R441, R456, R461, R463); the watchdog, the block reset and the
fuse load (R445, R447, R452, R457, R517). -/

namespace Sys2Proof.Proofs
open Sys2Proof Sys2Proof.Machine Sys2Proof.Laws

/-! ### Counters and readings of block PWR -/

@[simp] theorem bumpPwr_pwr (r : RegInfo) (s : State) : (bumpPwr r s).pwr = s.pwr :=
  bump_part State.pwr (fun _ _ => rfl) (fun _ => postEvent_pwr ..) s
@[simp] theorem bumpPwr_dose (r : RegInfo) (s : State) : (bumpPwr r s).dose = s.dose :=
  bump_part State.dose (fun _ _ => rfl) (fun _ => postEvent_dose ..) s
@[simp] theorem bumpPwr_mot (r : RegInfo) (s : State) : (bumpPwr r s).mot = s.mot :=
  bump_part State.mot (fun _ _ => rfl) (fun _ => postEvent_mot ..) s
theorem rd_bumpPwr {q r : RegInfo} {j : Nat} (h : regAddr q j ≠ regAddr r) (hq : off 25769803828 (32 + regAddr q j / 65536 % 32))
    (s : State) : rd q (bumpPwr r s) j = rd q s j := rd_bump h (rd_postEvent hq 20 0 2 0 _) s
theorem supplyReading_bulk (bulk bus : Nat) (s : State) : rd R.PWR_BULK (supplyReading bulk bus s) = bulk % 65536 := by
  unfold supplyReading
  rw [rd_wr_ne (by decide), rd_wr (by decide)]
  exact Nat.mod_eq_of_lt (Nat.lt_of_lt_of_le (Nat.mod_lt _ (by decide)) (by decide))
/-- PWR_MAINS shows the voltage and the frequency that it is given: both fit. -/
theorem rd_mains (rms freq : Nat) (s : State) :
    rd R.PWR_MAINS (wr R.PWR_MAINS (rms % 65536 + 2 ^ 16 * (freq % 1024)) s) = rms % 65536 + 2 ^ 16 * (freq % 1024) := by
  rw [rd_wr (by decide)]
  exact Nat.mod_eq_of_lt (by simp only [R.PWR_MAINS]; omega)

/-! ### Mains (R437) -/

theorem doMainsLoss_present {s : State} (h : s.pwr.lost = false) :
    doMainsLoss s = postEvent 19 0 1 0 ([(0, 1, (1 : Int))] ++ mainsDetail (modPwr (fun p => { p with lost := true, lossTt := ttNow s, validRun := 0 })
      (wrb R.PWR_STATUS 0 false s))) (bumpPwr R.PWR_MAINS_LOSSES (modPwr (fun p => { p with lost := true, lossTt := ttNow s, validRun := 0 })
        (wrb R.PWR_STATUS 0 false s))) := by
  unfold doMainsLoss
  rw [if_neg (by simp [h])]
theorem doMainsHalfCycle_present {rms freq : Nat} {s : State} (h : s.pwr.lost = false) :
    doMainsHalfCycle rms freq s =
      wr R.PWR_MAINS (rms % 65536 + 2 ^ 16 * (freq % 1024)) (modPwr (fun p => { p with lastPeak := s.time.ns }) s) := by
  simp [doMainsHalfCycle, h]
/-- The third valid half-cycle in a row declares the return of mains. -/
theorem doMainsHalfCycle_third {rms freq : Nat} {s : State} (h : s.pwr.lost = true) (hrun : 2 ≤ s.pwr.validRun)
    (hnear : 2 * (s.time.ns - s.pwr.runPeak) ≤ 3 * halfPeriod freq) :
    ∃ d u, doMainsHalfCycle rms freq s = wr R.PWR_MAINS (rms % 65536 + 2 ^ 16 * (freq % 1024)) (wrb R.PWR_STATUS 0 true
      (modPwr (fun p => { p with lost := false, lossCut := false, validRun := 0, lastPeak := s.time.ns }) (postEvent 19 0 0 0 d u))) := by
  have hvalid : s.pwr.validRun ≠ 0 ∧ 2 * (s.time.ns - s.pwr.runPeak) ≤ 3 * halfPeriod freq := ⟨by omega, hnear⟩
  have hthird : s.pwr.validRun + 1 ≥ 3 := by omega
  unfold doMainsHalfCycle
  dsimp only
  rw [if_pos h, if_pos hvalid, if_pos hthird]
  exact ⟨_, _, rfl⟩

/-! ### The supply warning (R33, R440, R441) -/

/-- The dip that the first SUPPLY_WARN opens. -/
def withDip (bulk : Nat) (s : State) : State :=
  if s.pwr.dip.isNone then modPwr (fun p => { p with dip := some s.time.ns, dipCut := false, lowest := bulk, holdDone := false }) s else s
/-- WARN shown with the readings of the supervisor. -/
def warnShown (bulk bus : Nat) (s : State) : State :=
  wrb R.PWR_STATUS 2 false (wrb R.PWR_STATUS 1 true (supplyReading bulk bus (withDip bulk s)))

theorem withDip_keeps (bulk : Nat) (s : State) : Keeps 16384 s (withDip bulk s) := by
  unfold withDip
  split
  · exact modPwr_keeps (hm := rfl) (h := Keeps.refl _ s)
  · exact Keeps.refl _ s
theorem withDip_open (bulk : Nat) (s : State) : (withDip bulk s).pwr.dip.isSome = true := by
  unfold withDip
  split
  · rfl
  · next h => simpa [Option.isSome_iff_ne_none] using h
theorem warnShown_keeps (bulk bus : Nat) (s : State) : Keeps 68719493120 s (warnShown bulk bus s) :=
  wrb_keeps (hm := rfl) (hr0 := rfl) (hk0 := rfl) (h := wrb_keeps (hm := rfl) (hr0 := rfl) (hk0 := rfl)
    (h := supplyReading_keeps (hm := rfl) (h := (withDip_keeps bulk s).mono rfl)))
/-- SUPPLY_WARN of a supply that is not in WARN, not browned out and on. -/
theorem doSupplyWarn_warns {bulk bus : Nat} {s : State} (hw : rdb R.PWR_STATUS 1 s = false) (hb : bulk ≤ 3000)
    (ha : s.pwr.asserted.contains 1 = false) (hr : s.pwr.railsOff = false) :
    ∃ d, doSupplyWarn bulk bus s =
      if s.pwr.dip.isNone then warnActs (postEvent 17 0 1 0 d (bumpPwr R.PWR_WARN_COUNT (warnShown bulk bus s)))
      else postEvent 17 0 1 0 d (bumpPwr R.PWR_WARN_COUNT (warnShown bulk bus s)) := by
  have hgo : ¬(rdb R.PWR_STATUS 1 s = true ∨ bulk > 3000 ∨ s.pwr.asserted.contains 1 = true ∨ s.pwr.railsOff = true) := by
    simp only [hw, ha, hr]
    simpa using hb
  unfold doSupplyWarn
  rw [if_neg hgo]
  exact ⟨_, rfl⟩
/-- The end of the dip is shown and reported (R440, R461). -/
def dipReported (bulk bus t0 : Nat) (s : State) : State :=
  let s := wrb R.PWR_STATUS 2 false (supplyReading bulk bus s)
  let (v, s) := fresh s
  let since := if s.pwr.dipCut then v else (s.time.ns - t0) / 1000000
  postEvent 18 0 0 0 [(0, 2, (bulk : Nat)), (4, 4, (since : Nat)), (8, 4, (s.pwr.lowest : Nat))] s
/-- The dip is over, and placement may start again (R33). -/
def dipOver (bulk bus t0 : Nat) (s : State) : State :=
  modPlc (fun c => { c with noStart := false }) (modPwr (fun p => { p with dip := none, holdDone := false }) (dipReported bulk bus t0 s))
theorem dipReported_settled (bulk bus t0 : Nat) (s : State) : rdb R.PWR_STATUS 2 (dipReported bulk bus t0 s) = false := by
  unfold dipReported
  dsimp only
  rw [rdb_postEvent rfl]
  exact rdb_wrb (by decide) (by decide) _ _ _
theorem rd_dipOver (q : RegInfo) (j bulk bus t0 : Nat) (s : State) : rd q (dipOver bulk bus t0 s) j = rd q (dipReported bulk bus t0 s) j := by
  unfold dipOver
  rw [modPlc_rd, modPwr_rd]
theorem dipOver_settled (bulk bus t0 : Nat) (s : State) : rdb R.PWR_STATUS 2 (dipOver bulk bus t0 s) = false :=
  (congrArg (bit 2) (rd_dipOver ..)).trans (dipReported_settled bulk bus t0 s)
theorem dipOver_shows (bulk bus t0 : Nat) (s : State) : EventShows 18 (dipOver bulk bus t0 s) := by
  have h : EventShows 18 (dipReported bulk bus t0 s) := posted ..
  exact shows_read (rd_dipOver ..) h
/-- In TURN the turnaround of the next pass runs. -/
def turnAfterDip (s : State) : State :=
  match nextPass s with
  | some p => if plcState s = pTurn ∧ p.cut.isNone then turnFor p s else s
  | none => s
theorem turnAfterDip_cases (s : State) : turnAfterDip s = s ∨ ∃ p, turnAfterDip s = turnFor p s := by
  unfold turnAfterDip
  split
  · next p _ =>
    split
    · exact .inr ⟨p, rfl⟩
    · exact .inl rfl
  · exact .inl rfl
/-- The settle timer ends the dip, and what waited starts. -/
theorem doSupplyRecover_settled {bulk bus t0 : Nat} {s : State} (hd : s.pwr.dip = some t0) (h2 : rdb R.PWR_STATUS 2 s = true) :
    doSupplyRecover bulk bus s = turnAfterDip (startAll (dipOver bulk bus t0 s)) := by
  unfold doSupplyRecover
  rw [hd]
  dsimp only
  rw [if_neg (by simp [h2])]
  show _ = turnAfterDip (startAll (dipOver bulk bus t0 s))
  unfold turnAfterDip dipOver dipReported
  cases nextPass (startAll _) <;> rfl

/-- Settles O33: each command is the operation that the lemmas above say it is in its case; an event's post leaves block PWR alone. -/
theorem supplyCommands : Obligations.SupplyCommands := by
  refine ⟨?loss, ?present, ?restored, ?warn, ?warnExit, ?recover, ?cell⟩
  case loss =>
    intro s h
    refine ⟨_, congrArg Host.Outcome.next (doMainsLoss_present h), ?_, ?_, ?_, posted .., ?_, ?_⟩
    · rw [postEvent_pwr, bumpPwr_pwr]
      rfl
    · rw [postEvent_pwr, bumpPwr_pwr]
      rfl
    · exact (rdb_postEvent rfl ..).trans ((congrArg (bit 0) (rd_bumpPwr (by decide) rfl _)).trans (rdb_wrb (by decide) (by decide) _ _ _))
    · rw [postEvent_dose, bumpPwr_dose]
      rfl
    · rw [postEvent_mot, bumpPwr_mot]
      rfl
  case present => exact fun rms freq s h => congrArg Host.Outcome.next (doMainsHalfCycle_present h)
  case restored =>
    intro rms freq s h hrun hnear
    obtain ⟨d, u, e⟩ := doMainsHalfCycle_third (rms := rms) h hrun hnear
    refine ⟨_, congrArg Host.Outcome.next e, rfl, ?_, ?_, rd_mains ..⟩
    · exact (rdb_wr_ne (by decide) ..).trans (rdb_wrb (by decide) (by decide) _ _ _)
    · exact shows_wr (pending_ne (by decide)) _ (shows_wrb (pending_ne (by decide)) _ _ (posted ..))
  case warn =>
    intro bulk bus s hw hb ha hr
    obtain ⟨d, e⟩ := doSupplyWarn_warns (bus := bus) hw hb ha hr
    have hread : ∀ q : RegInfo, regAddr q ≠ regAddr R.PWR_WARN_COUNT → off 25769803828 (32 + regAddr q / 65536 % 32) →
        rd q (postEvent 17 0 1 0 d (bumpPwr R.PWR_WARN_COUNT (warnShown bulk bus s))) = rd q (warnShown bulk bus s) :=
      fun q h hq => (rd_postEvent hq ..).trans (rd_bumpPwr h hq _)
    have k := warnShown_keeps bulk bus s
    refine ⟨_, congrArg Host.Outcome.next e, ?_, ?_, ?_, ?_, posted .., ?_, ?_⟩
    · rw [postEvent_pwr, bumpPwr_pwr]
      exact withDip_open bulk s
    · exact (congrArg (bit 1) (hread R.PWR_STATUS (by decide) rfl)).trans
        ((rdb_wrb_ne (by decide) (by decide) (by decide) _ _ _).trans (rdb_wrb (by decide) (by decide) _ _ _))
    · exact (congrArg (bit 2) (hread R.PWR_STATUS (by decide) rfl)).trans (rdb_wrb (by decide) (by decide) _ _ _)
    · rw [hread R.PWR_BULK (by decide) rfl]
      unfold warnShown
      rw [rd_wrb_ne (by decide), rd_wrb_ne (by decide), supplyReading_bulk]
      omega
    · exact (congrArg (bits 0 3) (hread R.CTL_MODE (by decide) rfl)).trans (modeOf_keeps k rfl)
    · rw [postEvent_dose, bumpPwr_dose]
      exact k.same_dose rfl
  case warnExit => exact fun bulk bus s h1 hb => congrArg Host.Outcome.next (if_pos ⟨h1, hb⟩)
  case recover =>
    intro bulk bus t0 s hd h2
    exact ⟨dipOver bulk bus t0 s, _, congrArg Host.Outcome.next (doSupplyRecover_settled hd h2), turnAfterDip_cases _, rfl,
      dipOver_settled .., rfl, dipOver_shows ..⟩
  case cell =>
    intro mv s
    have hlow : rd R.PWR_BACKUP_LOW (wr R.PWR_BACKUP (mv % 65536) s) = rd R.PWR_BACKUP_LOW s := rd_wr_ne (by decide) _ _
    have hcell : rd R.PWR_BACKUP (wr R.PWR_BACKUP (mv % 65536) s) = mv % 65536 :=
      (rd_wr (by decide) _ _ _).trans (Nat.mod_eq_of_lt (by simp only [R.PWR_BACKUP]; omega))
    refine ⟨_, rfl, ?_⟩
    unfold doBackupCellCheck
    extract_lets u
    split
    · exact ⟨(rd_postEvent rfl ..).trans hcell, fun _ => posted .., postEvent_dose ..⟩
    · next h => exact ⟨hcell, fun hlt => absurd (hlow ▸ hlt) h, rfl⟩

/-! ### The watchdog, the reset pulse and the block reset (R445, R447, R452, R517) -/

theorem doWatchdogHalf_first {s : State} (hon : wdogOn s = true) (h : s.pwr.wdogHalf = false) :
    doWatchdogHalf s = postEvent 231 0 1 0 [(0, 1, 1), (4, 4, (rdf R.RST_WDOG_CFG 0 16 s : Nat))] (modPwr (fun p => { p with wdogHalf := true }) s) :=
  if_pos ⟨hon, by simp [h]⟩

section BlockReset
variable {v : Nat} {s : State}

theorem writeRstBlock_wrong (h : bits 8 8 v ≠ 0xA5 ∨ 18 < bits 0 5 v) :
    writeRstBlock v s = wr R.RST_BLOCK_STATUS (2 + 2 ^ 8 * bits 0 5 v) s := if_pos h
/-- A write with the key to a block that the module has meets the release, then the block's own work, and else the reset. -/
theorem writeRstBlock_keyed (hk : bits 8 8 v = 0xA5) (hb : bits 0 5 v ≤ 18) :
    writeRstBlock v s =
      if s.pwr.due.isSome then wr R.RST_BLOCK_STATUS (3 + 2 ^ 8 * bits 0 5 v) s
      else if blockBusy (bits 0 5 v) s then wr R.RST_BLOCK_STATUS (1 + 2 ^ 8 * bits 0 5 v) s
      else wr R.RST_BLOCK_STATUS (2 ^ 8 * bits 0 5 v) (blockReset (bits 0 5 v) s) := if_neg (by omega)

end BlockReset

/-! ### The fuse load (R457) -/

/-- A passing load writes the shadow registers and the effective reach: below FUS_FLAGS block FUS stands, and FUS_FLAGS takes the
flags. -/
theorem rd_takeFuses_below {q : RegInfo} {j : Nat} (hq : 0x60000 ≤ regAddr q j ∧ regAddr q j < 0x6000C) (f : FuseIn) (s : State) :
    rd q (takeFuses f s) j = rd q s j := by
  obtain ⟨hlo, hhi⟩ := hq
  have hne : ∀ {r : RegInfo} {i : Nat}, 0x6000C ≤ regAddr r i ∨ regAddr r i < 0x60000 → ∀ v u, rd q (wr r v u i) j = rd q u j :=
    fun h v u => rd_wr_ne (by omega) v u
  unfold takeFuses
  extract_lets s1 s2 s3
  rw [hne (.inr (by decide)), hne (.inl (by decide))]
  calc rd q s3 j
    _ = rd q s2 j := rd_each (fun w u => by
        rw [hne (.inl (by simp [regAddr, R.FUS_KEY2]; omega)), hne (.inl (by simp [regAddr, R.FUS_KEY1]; omega)),
          hne (.inl (by simp [regAddr, R.FUS_KEY0]; omega))]) _ _
    _ = rd q s1 j := rd_each (fun w u => hne (.inl (by simp [regAddr, R.FUS_PIN_MAP]; omega)) _ u) _ _
    _ = rd q s j := by
      unfold s1
      rw [hne (.inl (by decide)), hne (.inl (by decide))]
theorem takeFuses_flags (f : FuseIn) (s : State) : rd R.FUS_FLAGS (takeFuses f s) = f.flags % 2 ^ 32 := by
  unfold takeFuses
  extract_lets s1 s2 s3
  rw [rd_wr_ne (by decide), rd_wr_ne (by decide)]
  calc rd R.FUS_FLAGS s3
    _ = rd R.FUS_FLAGS s2 := rd_each (fun w u => by
        rw [rd_wr_ne (by simp [regAddr, R.FUS_KEY2, R.FUS_FLAGS]; omega), rd_wr_ne (by simp [regAddr, R.FUS_KEY1, R.FUS_FLAGS]; omega),
          rd_wr_ne (by simp [regAddr, R.FUS_KEY0, R.FUS_FLAGS]; omega)]) _ _
    _ = rd R.FUS_FLAGS s1 := rd_each (fun w u => rd_wr_ne (by simp [regAddr, R.FUS_PIN_MAP, R.FUS_FLAGS]; omega) _ u) _ _
    _ = f.flags % 2 ^ 32 := (rd_wr_ne (by decide) _ _).trans (rd_wr (by decide) _ _ _)

/-- The state in which an attempt has been counted with its CRC. -/
def fuseTried (f : FuseIn) (s : State) : State := wr R.FUS_CRC f.crc (wrf R.FUS_STATUS 2 2 (rdf R.FUS_STATUS 2 2 s + 1) s)
/-- The fuses are taken and the load generation advances. -/
def fuseTaken (f : FuseIn) (s : State) : State :=
  updateEnables (wr R.FUS_LOAD_GEN (rd R.FUS_LOAD_GEN s + 1) (wrf R.FUS_STATUS 0 2 1 (takeFuses f s)))

theorem rd_fuseTaken {q : RegInfo} (hb : regAddr q / 65536 % 32 = 6) (hg : regAddr q ≠ regAddr R.FUS_LOAD_GEN) (f : FuseIn) (s : State) :
    rd q (fuseTaken f s) = rd q (wrf R.FUS_STATUS 0 2 1 (takeFuses f s)) := by
  unfold fuseTaken
  rw [rd_keeps (updateEnables_keeps (m := 1099511627776) (hm := rfl) (h := Keeps.refl _ _)) (by rw [hb]; rfl), rd_wr_ne hg]
theorem fuseTried_crc (f : FuseIn) (s : State) : rd R.FUS_CRC (fuseTried f s) = f.crc % 2 ^ 32 := rd_wr (by decide) _ _ _
theorem fuseTaken_dose (f : FuseIn) (s : State) : (fuseTaken f s).dose = s.dose := by
  have k : Keeps 1408749273088 s (fuseTaken f s) :=
    updateEnables_keeps (hm := rfl) (h := wr_keeps (hr := rfl) (hk := rfl) (h := wrf_keeps (hm := rfl) (hr0 := rfl) (hk0 := rfl)
      (h := takeFuses_keeps (hm := rfl) (h := Keeps.refl _ s))))
  exact k.same_dose rfl

section FuseLoad
variable {f : FuseIn} {s : State} (h0 : rdf R.FUS_STATUS 0 2 s = 0) (hd : s.pwr.due = none)
include h0 hd

/-- A first or second attempt that fails only counts. -/
theorem doFuseLoadAttempt_fails (hf : f.ok = false) (hn : rdf R.FUS_STATUS 2 2 s < 2) : doFuseLoadAttempt f s = fuseTried f s := by
  have hless : rdf R.FUS_STATUS 2 2 s + 1 < 3 := by omega
  unfold doFuseLoadAttempt
  simp only [h0, hd, hf, hless]
  rfl
/-- A first attempt that passes takes the fuses; the loader of the released core then waits for an image. -/
theorem doFuseLoadAttempt_passes (hf : f.ok = true) (hn : rdf R.FUS_STATUS 2 2 s = 0) (hc : s.pwr.fuseCut = false) :
    doFuseLoadAttempt f s = loaderWaits (fuseTaken f (fuseTried f s)) := by
  have k : Keeps 1408749273088 s (fuseTaken f (fuseTried f s)) :=
    updateEnables_keeps (hm := rfl) (h := wr_keeps (hr := rfl) (hk := rfl) (h := wrf_keeps (hm := rfl) (hr0 := rfl) (hk0 := rfl)
      (h := takeFuses_keeps (hm := rfl) (h := wr_keeps (hr := rfl) (hk := rfl) (h := wrf_keeps (hm := rfl) (hr0 := rfl) (hk0 := rfl)
        (h := Keeps.refl _ s))))))
  have hpwr : (fuseTaken f (fuseTried f s)).pwr = s.pwr := k.same_pwr rfl
  have hgo : ¬(rdf R.FUS_STATUS 0 2 s ≠ 0 ∨ (s.pwr.due.isSome = true ∧ s.pwr.step ≠ 2)) := by simp [h0, hd]
  have hcut : ¬(fuseTaken f (fuseTried f s)).pwr.fuseCut = true := by simp [hpwr, hc]
  have hone : ¬ rdf R.FUS_STATUS 2 2 s + 1 > 1 := by omega
  have hdue : ¬(fuseTaken f (fuseTried f s)).pwr.due.isSome = true := by simp [hpwr, hd]
  calc doFuseLoadAttempt f s
    _ = fuseLoadEnded (fuseTaken f (fuseTried f s)) := by
      unfold doFuseLoadAttempt
      rw [if_neg hgo]
      extract_lets n tried loaded uncut counted
      rw [if_pos hf]
      have h1 : uncut = loaded := if_neg hcut
      have h2 : counted = uncut := if_neg hone
      rw [h2, h1]
      rfl
    _ = loaderWaits (fuseTaken f (fuseTried f s)) := if_neg hdue

end FuseLoad

/-- Settles O34: each clause is one branch of its command, taken by the lemmas above. -/
theorem watchdogAndBlockReset : Obligations.WatchdogAndBlockReset := by
  refine ⟨fun _ => rfl, ?half, ?pulse, ?block, ?fuses⟩
  case half =>
    exact fun s hon h => ⟨_, congrArg Host.Outcome.next (doWatchdogHalf_first hon h), congrArg PwrState.wdogHalf (postEvent_pwr ..), posted ..,
      postEvent_dose .., postEvent_mem ..⟩
  case pulse =>
    refine fun s => ⟨fun ho hd => congrArg Host.Outcome.next (if_pos (by simp [ho, hd])), fun h => congrArg Host.Outcome.next (if_neg ?_)⟩
    obtain h | h := h <;> simp [h]
  case block =>
    intro v s
    refine ⟨fun h => congrArg Host.Outcome.next (writeRstBlock_wrong h), fun hk hb => ⟨fun hd => ?_, fun hd hbusy => ?_, fun hd hbusy => ?_⟩⟩
    · exact congrArg Host.Outcome.next ((writeRstBlock_keyed hk hb).trans (if_pos hd))
    · exact congrArg Host.Outcome.next ((writeRstBlock_keyed hk hb).trans ((if_neg (by simp [hd])).trans (if_pos hbusy)))
    · exact congrArg Host.Outcome.next ((writeRstBlock_keyed hk hb).trans ((if_neg (by simp [hd])).trans (if_neg (by simp [hbusy]))))
  case fuses =>
    refine fun f s h0 hd => ⟨fun hf hn => congrArg Host.Outcome.next (doFuseLoadAttempt_fails h0 hd hf hn), fun hf hn hc => ?_⟩
    refine ⟨_, congrArg Host.Outcome.next (doFuseLoadAttempt_passes h0 hd hf hn hc), ?_, ?_, ?_, fuseTaken_dose ..⟩
    · exact (congrArg (bits 0 2) (rd_fuseTaken (by decide) (by decide) ..)).trans (rdf_wrf (by decide) (by decide) _ _ _)
    · exact (rd_fuseTaken (by decide) (by decide) ..).trans ((rd_wrf_ne (by decide) _ _ _ _).trans (takeFuses_flags ..))
    · exact (rd_fuseTaken (by decide) (by decide) ..).trans ((rd_wrf_ne (by decide) _ _ _ _).trans
        ((rd_takeFuses_below (by decide) f _).trans (fuseTried_crc f s)))

end Sys2Proof.Proofs
end

section
/-! COMMAND descriptors that pass the common checks (R23, R25, R65, R66, R68, R83, R506): each has its opcode's own effect on the
state that has read it. -/

namespace Sys2Proof.Proofs
open Sys2Proof Sys2Proof.Machine Sys2Proof.Laws

section Opcodes
variable {k : Nat} {d : Desc} {s : State}

/-- OP_HELLO of a host that shares a version above HP1, where none was negotiated (R65). -/
theorem doHello_common (h : Offers k d 0x01 (usedBits [(8, 1), (9, 1), (12, 4), (16, 8)]) [] s)
    (hv : max 1 (dfld d 8 1) ≤ min 3 (dfld d 9 1)) (hno : hostVersion s = 0) (h1 : min 3 (dfld d 9 1) ≠ 1) :
    doHello k d s = flushEvents (markNewlyRead (readableRings (taken k d s)) (postEvent 5 0 0 0
      [(0, 1, ((min 3 (dfld d 9 1) : Nat) : Int))] (complete k (nextIndex k s) { status := stOk, result := (min 3 (dfld d 9 1) +
          2 ^ 32 * rd R.CTL_FW_VERSION (wrf R.HIF_STATUS 0 2 (min 3 (dfld d 9 1)) (taken k d s)) +
          2 ^ 64 * (dfld d 16 8 &&& rd R.IDC_FEATURES (wrf R.HIF_STATUS 0 2 (min 3 (dfld d 9 1)) (taken k d s)))) }
        (wrf R.HIF_STATUS 0 2 (min 3 (dfld d 9 1)) (taken k d s))))) := by
  have hchange : ¬(hostVersion (taken k d s) ≠ 0 ∧ hostVersion (taken k d s) ≠ min 3 (dfld d 9 1) ∧ hostBusy (taken k d s) = true) :=
    fun ⟨hold, _⟩ => hold hno
  unfold doHello
  rw [readDesc_offers h (by decide)]
  dsimp only
  rw [if_neg (Nat.not_lt.2 hv), if_neg hchange, if_neg h1]
/-- OP_RESUME_RING with skip of a FAULTED ring (R82, R83). -/
theorem doResumeRing_skip {w : WalkReads} {rest : List Desc}
    (h : Offers k d 0x06 (usedBits [(8, 1), (9, 1)]) [(8, decide (dfld d 8 1 < 32)), (9, decide (dfld d 9 1 < 3))] s)
    (hf : (faultedJob (dfld d 8 1) (taken k d s)).isSome = true) (ha : dfld d 9 1 = 1) :
    doResumeRing k d w rest s = finish k (nextIndex k s) stOk 0 (resumeSkip (dfld d 8 1) (taken k d s)) := by
  have hfaulted : ¬(faultedJob (dfld d 8 1) (taken k d s)).isNone = true := by simpa [Option.isSome_iff_ne_none] using hf
  unfold doResumeRing
  rw [readDesc_offers h (by decide)]
  dsimp only
  rw [if_neg hfaulted]
  simp only [ha]
/-- OP_READ_LOG of an empty log completes at once: no byte, no entry copied, none left (R68). -/
theorem doReadLog_empty
    (h : Offers k d 0x0C (usedBits [(8, 1), (12, 4), (16, 8), (24, 4)]) [(8, decide (dfld d 8 1 < 5))] s)
    (hl : logEntries (dfld d 8 1) (taken k d s) = []) :
    doReadLog k d s = complete k (nextIndex k s) { status := stOk, result := 0 } (taken k d s) := by
  unfold doReadLog
  rw [readDesc_offers h (by decide), hl]
  simp [leBytes, ofBytes]
theorem doLoadContext_reads (h : Offers k d 0x03 (usedBits [(8, 8), (16, 4), (20, 4)])
      [(2, decide (1 ≤ dContext d)), (16, decide (64 ≤ dfld d 16 4 ∧ dfld d 16 4 ≤ 8192) && dfld d 16 4 % 64 == 0)] s) :
    doLoadContext k d s = fetchFor k (nextIndex k s) (dfld d 8 8) (dfld d 16 4) (taken k d s) := by
  unfold doLoadContext
  exact readDesc_offers h (by decide)
/-- R171: the inactive bank alone may be loaded. -/
theorem doLoadBeamTable_inactive (h : Offers k d 0x04 (usedBits [(8, 8), (16, 4), (20, 4), (24, 1), (25, 1), (28, 4)])
      [(16, decide (dfld d 16 4 + dfld d 20 4 ≤ 262144)), (20, decide (1 ≤ dfld d 20 4)), (24, decide (dfld d 24 1 < 2)),
       (25, decide (dfld d 25 1 < 2))] s) (hb : dfld d 24 1 ≠ activeBank s) :
    doLoadBeamTable k d s = fetchFor k (nextIndex k s) (dfld d 8 8) (8 * dfld d 20 4) (taken k d s) := by
  unfold doLoadBeamTable
  rw [readDesc_offers h (by decide)]
  exact if_neg hb
/-- R164: in READY or SERVICE with no open layer. -/
theorem doSetGeometry_reads (h : Offers k d 0x05 (usedBits [(8, 8), (16, 4), (20, 4)]) [] s) (hm : modeOf s = 3 ∨ modeOf s = 7)
    (hl : s.dose.layer = none) : doSetGeometry k d s = fetchFor k (nextIndex k s) (dfld d 8 8) (dfld d 16 4) (taken k d s) := by
  have hmode : ¬(modeOf (taken k d s) ≠ 3 ∧ modeOf (taken k d s) ≠ 7) := fun ⟨h3, h7⟩ => hm.elim h3 h7
  have hlayer : ¬(taken k d s).dose.layer.isSome = true := by simp [taken, hl]
  unfold doSetGeometry
  rw [readDesc_offers h (by decide)]
  rw [if_neg hmode, if_neg hlayer]
/-- OP_CAL_REQUEST with no run under way (R479). -/
theorem doCalRequest_due (h : Offers k d 0x09 (usedBits [(8, 4)]) [] s) (hm : dfld d 8 4 < 128) (hr : s.thm.run = none) :
    doCalRequest k d s = finish k (nextIndex k s) stOk 0 (each (onesOf 7 (dfld d 8 4)) (fun x s => calDue x 3 s) (taken k d s)) := by
  have hrun : (taken k d s).thm.run = none := hr
  unfold doCalRequest
  rw [readDesc_offers h (by decide)]
  dsimp only
  rw [if_neg (by omega), hrun]
/-- OP_LOAD_FIRMWARE in BRINGUP with a loader in WAIT_IMAGE (R496). -/
theorem doLoadFirmware_waiting (h : Offers k d 0x0A (usedBits [(8, 8), (16, 4)]) [] s) (hm : modeOf s = 2)
    (hl : rdf R.CTL_LOADER 0 3 s = 1) : doLoadFirmware k d s = loadImage k (nextIndex k s) d (taken k d s) := by
  have hmode : ¬ modeOf (taken k d s) ≠ 2 := fun h2 => h2 hm
  have hloader : rdf R.CTL_LOADER 0 3 (taken k d s) = 1 := hl
  unfold doLoadFirmware
  rw [readDesc_offers h (by decide)]
  rw [if_neg hmode]
  simp only [hloader]
theorem doPolicySet_reads (h : Offers k d 0x0B (usedBits [(8, 8), (16, 4)]) [] s) :
    doPolicySet k d s = if dfld d 16 4 = 0 then finish k (nextIndex k s) stOk 0 (taken k d s)
      else startXfer k (nextIndex k s) (dfld d 8 8) (dfld d 16 4) false [] (taken k d s) := by
  unfold doPolicySet
  exact readDesc_offers h (by decide)
/-- OP_CAM_PROGRAM in a camera mode with a block of a length that R333 allows. -/
theorem doCamProgram_reads
    (h : Offers k d 0x0D (usedBits [(8, 1), (12, 4), (16, 8), (24, 4)]) [(8, decide (dfld d 8 1 < 16))] s) (hm : camMode s = true)
    (hlo : 16 ≤ dfld d 24 4) (hhi : dfld d 24 4 ≤ 16384) :
    doCamProgram k d s = startXfer k (nextIndex k s) (dfld d 16 8) (dfld d 24 4) false [] (taken k d s) := by
  have hmode : ¬(!camMode (taken k d s)) = true := by
    show ¬(!camMode s) = true
    simp [hm]
  unfold doCamProgram
  rw [readDesc_offers h (by decide)]
  dsimp only
  rw [if_neg hmode, if_neg (by omega)]

end Opcodes

/-- Settles O19: each clause is the lemma of its opcode; OP_SET_MODE of the current mode is `setMode_current`. -/
theorem commandOpcodes : Obligations.CommandOpcodes := by
  refine ⟨?hello, ?setMode, ?resume, ?readLog, ?context, ?beamTable, ?geometry, ?calibration, ?firmware, ?policy, ?camera⟩
  case hello => exact fun k d s h hv hno h1 => congrArg Host.Outcome.next (doHello_common h hv hno h1)
  case setMode =>
    intro k d u s h h5 ht hr heq
    rw [exec_setMode h fun h => absurd h h5]
    exact congrArg Host.Outcome.next (setMode_current ht hr heq)
  case resume => exact fun k d w rest s h hf ha => congrArg Host.Outcome.next (doResumeRing_skip h hf ha)
  case readLog => exact fun k d s h hl => congrArg Host.Outcome.next (doReadLog_empty h hl)
  case context => exact fun k d s h => congrArg Host.Outcome.next (doLoadContext_reads h)
  case beamTable => exact fun k d s h hb => congrArg Host.Outcome.next (doLoadBeamTable_inactive h hb)
  case geometry => exact fun k d s h hm hl => congrArg Host.Outcome.next (doSetGeometry_reads h hm hl)
  case calibration => exact fun k d s h hm hr => congrArg Host.Outcome.next (doCalRequest_due h hm hr)
  case firmware => exact fun k d s h hm hl => congrArg Host.Outcome.next (doLoadFirmware_waiting h hm hl)
  case policy =>
    exact fun k d s h => ⟨fun h0 => congrArg Host.Outcome.next ((doPolicySet_reads h).trans (if_pos h0)),
      fun h0 => congrArg Host.Outcome.next ((doPolicySet_reads h).trans (if_neg h0))⟩
  case camera => exact fun k d s h hm hlo hhi => congrArg Host.Outcome.next (doCamProgram_reads h hm hlo hhi)

end Sys2Proof.Proofs
end

section
/-! The registers and the data of a dose-link port: what the operations of the link write, and what they leave alone (R239, R244, R261
to R264). -/

namespace Sys2Proof.Proofs
open Sys2Proof Sys2Proof.Machine Sys2Proof.Laws

/-! ### Registers of block LNK -/

/-- Two rows whose registers stand 16 KiB apart, or alone, at different places within 16 KiB. -/
def rowsApart (q r : RegInfo) : Bool :=
  q.stride % 0x4000 == 0 && r.stride % 0x4000 == 0 && q.base % 0x4000 != r.base % 0x4000
/-- A row of block LNK with a register for each port. -/
def portRow (q : RegInfo) : Bool := q.base / 0x4000 == 0x58 && q.stride == 0x4000 && q.count == 4

theorem regAddr_mod {q : RegInfo} (h : q.stride % 0x4000 = 0) (j : Nat) : regAddr q j % 0x4000 = q.base % 0x4000 := by
  unfold regAddr
  rw [Nat.add_mod, Nat.mul_mod, h, Nat.zero_mul, Nat.zero_mod, Nat.add_zero, Nat.mod_mod]
theorem regAddr_ne {q r : RegInfo} (h : rowsApart q r = true) (i j : Nat) : regAddr q j ≠ regAddr r i := by
  simp only [rowsApart, Bool.and_eq_true, beq_iff_eq, bne_iff_ne] at h
  obtain ⟨⟨hq, hr⟩, hne⟩ := h
  exact fun e => hne (by rw [← regAddr_mod hq j, ← regAddr_mod hr i, e])
/-- The ports' registers stand in the 64 KiB 0x16 of BAR0. -/
theorem portRow_block {q : RegInfo} (h : portRow q = true) (j : Nat) : regAddr q j / 65536 % 32 = 22 := by
  simp only [portRow, Bool.and_eq_true, beq_iff_eq] at h
  obtain ⟨⟨hbase, hstride⟩, hcount⟩ := h
  unfold regAddr
  rw [hstride, hcount]
  omega
theorem rd_wr_apart {q r : RegInfo} (h : rowsApart q r = true) (v : Nat) (s : State) (i j : Nat) : rd q (wr r v s i) j = rd q s j :=
  rd_wr_ne (regAddr_ne h i j) v s
theorem rdf_wr_apart {q r : RegInfo} (h : rowsApart q r = true) (lo len v : Nat) (s : State) (i j : Nat) :
    rdf q lo len (wr r v s i) j = rdf q lo len s j := rdf_wr_ne (regAddr_ne h i j) v lo len s
theorem rdb_wr_apart {q r : RegInfo} (h : rowsApart q r = true) (n v : Nat) (s : State) (i j : Nat) :
    rdb q n (wr r v s i) j = rdb q n s j := rdb_wr_ne (regAddr_ne h i j) v n s
/-- A port's register stands through whatever leaves block LNK alone. -/
theorem rd_port_keeps {m : Nat} {s t : State} (k : Keeps m s t) (hm : off m 54) {q : RegInfo} (hq : portRow q = true) (j : Nat) :
    rd q t j = rd q s j := rd_keeps k (by rw [portRow_block hq]; exact hm)
theorem rd_port_postEvent {q : RegInfo} (hq : portRow q = true) (n src sev w1 : Nat) (d : List (Nat × Nat × Int)) (s : State) (j : Nat) :
    rd q (postEvent n src sev w1 d s) j = rd q s j := rd_port_keeps (postEvent_only n src sev w1 d s) rfl hq j
/-- A link counter, and the event that its saturation posts, touch no other row of the ports. -/
theorem rd_port_bumpLnk {q r : RegInfo} (hq : portRow q = true) (h : rowsApart q r = true) (p : Nat) (s : State) (j : Nat) :
    rd q (bumpLnk r p s) j = rd q s j :=
  rd_bump (regAddr_ne h p j) (fun u => rd_port_postEvent hq _ _ _ _ _ u j) s

/-! ### The state of a port (R239) -/

theorem lnkState_lt (p : Nat) (s : State) : lnkState p s < 16 := Nat.mod_lt _ (by decide)
theorem lnkState_of_rd {p : Nat} {s t : State} (e : rd R.LNK_STATUS t p = rd R.LNK_STATUS s p) : lnkState p t = lnkState p s :=
  congrArg (bits 0 4) e
theorem lnkState_setLnk {st : Nat} (h : st < 16) (p : Nat) (s : State) : lnkState p (setLnk p st s) = st :=
  rdf_wrf_fits (by decide) (by decide) h s p
/-- The state's field apart, LNK_STATUS stands. -/
theorem status_setLnk {lo len : Nat} (h : 4 ≤ lo ∧ lo + len ≤ 32) (p st : Nat) (s : State) :
    rdf R.LNK_STATUS lo len (setLnk p st s) p = rdf R.LNK_STATUS lo len s p :=
  rdf_wrf_ne (by decide) h.2 (.inr h.1) st s p
theorem rdb_setLnk {n : Nat} (h : 4 ≤ n ∧ n < 32) (p st : Nat) (s : State) :
    rdb R.LNK_STATUS n (setLnk p st s) p = rdb R.LNK_STATUS n s p :=
  rdb_wrf_ne (by decide) h.2 (.inr h.1) st s p
theorem rd_setLnk {q : RegInfo} (h : rowsApart q R.LNK_STATUS = true) (p st : Nat) (s : State) (j : Nat) :
    rd q (setLnk p st s) j = rd q s j := rd_wr_apart h _ s p j
/-- A field of LNK_STATUS that lies above the state leaves the state. -/
theorem lnkState_wrf_status {lo : Nat} (h : 4 ≤ lo) (len v p : Nat) (s : State) : lnkState p (wrf R.LNK_STATUS lo len v s p) = lnkState p s :=
  rdf_wrf_ne (by decide) (by decide) (.inl h) v s p
theorem lnkState_wr {r : RegInfo} (h : rowsApart R.LNK_STATUS r = true) (v : Nat) (s : State) (i p : Nat) :
    lnkState p (wr r v s i) = lnkState p s := lnkState_of_rd (rd_wr_apart h v s i p)

/-! ### The data of a port -/

theorem portOf_dose {s t : State} (e : t.dose = s.dose) (p : Nat) : portOf t p = portOf s p := by
  unfold portOf
  rw [e]
@[simp] theorem portOf_wrf (r : RegInfo) (lo len v : Nat) (s : State) (i p : Nat) : portOf (wrf r lo len v s i) p = portOf s p := rfl
@[simp] theorem portOf_wrb (r : RegInfo) (n : Nat) (b : Bool) (s : State) (i p : Nat) : portOf (wrb r n b s i) p = portOf s p := rfl
@[simp] theorem portOf_setLnk (k st : Nat) (s : State) (p : Nat) : portOf (setLnk k st s) p = portOf s p := rfl
@[simp] theorem portOf_loseAnchor (k : Nat) (s : State) (p : Nat) : portOf (loseAnchor k s) p = portOf s p := rfl
@[simp] theorem portOf_postEvent (n src sev w1 : Nat) (d : List (Nat × Nat × Int)) (s : State) (p : Nat) :
    portOf (postEvent n src sev w1 d s) p = portOf s p := portOf_dose (postEvent_dose ..) p
@[simp] theorem bumpLnk_dose (r : RegInfo) (k : Nat) (s : State) : (bumpLnk r k s).dose = s.dose :=
  bump_part State.dose (fun _ _ => rfl) (fun _ => postEvent_dose ..) s
@[simp] theorem portOf_bumpLnk (r : RegInfo) (k : Nat) (s : State) (p : Nat) : portOf (bumpLnk r k s) p = portOf s p :=
  portOf_dose (bumpLnk_dose ..) p

/-! ### A port that is cleared (R263, R264) -/

/-- OFF or DETECT stands, with no version. -/
theorem rd_status_clearPort (p st : Nat) (s : State) : rd R.LNK_STATUS (clearPort p st s) p = st % 2 ^ 32 :=
  calc rd R.LNK_STATUS (clearPort p st s) p
    _ = rd R.LNK_STATUS (wr R.LNK_STATUS st s p) p := (rd_wr_apart rfl ..).trans (rd_wr_apart rfl ..)
    _ = st % 2 ^ 32 := rd_wr (by decide) _ _ _
theorem lnkState_clearPort {st : Nat} (h : st < 16) (p : Nat) (s : State) : lnkState p (clearPort p st s) = st := by
  unfold lnkState rdf
  rw [rd_status_clearPort]
  unfold bits
  omega
/-- LNK_CTRL, which software writes, stands. -/
theorem rd_ctrl_clearPort (p st : Nat) (s : State) (j : Nat) : rd R.LNK_CTRL (clearPort p st s) j = rd R.LNK_CTRL s j :=
  (rd_wr_apart rfl ..).trans ((rd_wr_apart rfl ..).trans (rd_wr_apart rfl ..))
theorem portOf_clearTraining (p : Nat) (s : State) :
    portOf (clearTraining p s) p = { portOf s p with
      mineDone := false, theirsDone := false, trainRuns := [], backInverted := 0, backMap := [], alignSeq := [], offsets := []
      flights := [], repeats := 0, waiting := false, offered := 0, checkDue := false, rx := [] } :=
  portOf_modPort ..
theorem clearPort_waiting (p st : Nat) (s : State) : (portOf (clearPort p st s) p).waiting = false :=
  congrArg Port.waiting (portOf_clearTraining ..)
theorem clearPort_failed (p st : Nat) (s : State) : (portOf (clearPort p st s) p).failed = (portOf s p).failed := by
  unfold clearPort
  rw [portOf_clearTraining, portOf_modPort]
  rfl

/-! ### Tick exchanges (R244, R245) -/

/-- An exchange changes its port's record of it and sends; nothing else. -/
theorem startExchange_sends (p kind : Nat) (s : State) :
    SendsOnly (modPort p (fun x => { x with exchange := (x.exchange + 1) % 65536, t1 := tick16 p s, kind := kind, waiting := true }) s)
      (startExchange p kind s) := sendBlock_sends ..
theorem portOf_startExchange (p kind : Nat) (s : State) :
    portOf (startExchange p kind s) p =
      { portOf s p with
        exchange := ((portOf s p).exchange + 1) % 65536, t1 := tick16 p s, kind := kind, waiting := true
        tx := (portOf (startExchange p kind s) p).tx } := by
  conv => lhs; rw [(startExchange_sends p kind s).port p, portOf_modPort]
theorem rd_startExchange (p kind : Nat) (s : State) (q : RegInfo) (j : Nat) : rd q (startExchange p kind s) j = rd q s j :=
  (startExchange_sends p kind s).rd q j
/-- A stream block goes out where the port has an outbound lane (R238). -/
theorem sendStream_sent {p : Nat} (type payload : Nat) {s : State} (h : 0 < (portOf s p).lanesOut) :
    Out.linkBlock p type payload ∈ (sendStream p type payload s).out := by
  unfold sendStream
  extract_lets n k s1 s2
  have h1 : Out.linkBlock p type payload ∈ s1.out := (laneSend_sends ..).stays List.mem_cons_self
  have h2 : Out.linkBlock p type payload ∈ s2.out := (modTx_sends ..).stays h1
  rw [if_neg (by omega)]
  split
  · exact (sendAlign_sends ..).stays h2
  · exact h2
theorem startExchange_sent {p : Nat} (kind : Nat) {s : State} (h : 0 < (portOf s p).lanesOut) :
    ∃ b, Out.linkBlock p 7 b ∈ (startExchange p kind s).out := by
  unfold startExchange sendTick sendBlock
  extract_lets t s1 t16
  exact ⟨_, sendStream_sent _ _ (by unfold s1; rwa [portOf_modPort])⟩

end Sys2Proof.Proofs
end

section
/-! Training of a dose-link port: detection, clock lock, training blocks, alignment, capability and tick exchanges (R239 to R245). -/

namespace Sys2Proof.Proofs
open Sys2Proof Sys2Proof.Machine Sys2Proof.Laws

/-! ### Detection and clock lock (R239, R241) -/

/-- DETECT has recorded eight lanes in order. -/
def lanesFound (p : Nat) (s : State) : State :=
  wrf R.LNK_STATUS 8 8 255 (wrb R.LNK_STATUS 6 false (wr R.LNK_LANE_MAP 0x76543210 s p) p) p
/-- The lanes that DETECT has found are those that training uses. -/
def lanesTaken (p : Nat) (s : State) : State :=
  clearTraining p (modPort p (fun x => { x with lanesOut := 8, module := rdf R.TSY_MODULE 0 10 s }) s)
/-- The return clock has locked on both return lanes. -/
def returnLocked (p : Nat) (s : State) : State :=
  modPort p (fun x => { x with lanesBack := 2, tx := {} }) (wrf R.LNK_STATUS 16 2 3 (wrb R.LNK_STATUS 7 false s p) p)

theorem onesOf_all : onesOf 8 255 = [0, 1, 2, 3, 4, 5, 6, 7] := by decide

section Detect
variable {p : Nat} {s : State} (hp : p < 4) (hf : (portOf s p).failed = false)
include hp hf

theorem doLinkDetectPoll_full (shorts : Nat) (h1 : lnkState p s = 1) :
    doLinkDetectPoll p true 255 shorts s = setLnk p 2 (lanesTaken p (lanesFound p s)) := by
  have hgo : ¬(p ≥ 4 ∨ lnkState p s ≠ 1 ∨ (portOf s p).failed = true) := by simp [hp, h1, hf]
  unfold doLinkDetectPoll
  rw [if_neg hgo, onesOf_all]
  extract_lets healthy bad s1 use narrow map s2 s3 s4 s5
  have hall : s1 = s := rfl
  have huse : use = [0, 1, 2, 3, 4, 5, 6, 7] := rfl
  have hnarrow : ¬narrow := by simp [narrow, huse]
  have hmap : map = 0x76543210 := by
    unfold map
    rw [huse]
    decide
  have hfound : s3 = lanesFound p s := by
    unfold s3 s2
    rw [hmap, decide_eq_false hnarrow, huse, hall]
    rfl
  have htaken : s4 = lanesTaken p s3 := by
    unfold s4
    rw [huse]
    rfl
  have hs5 : s5 = lanesTaken p (lanesFound p s) := (if_neg hnarrow).trans (by rw [htaken, hfound])
  rw [if_neg (by simp [huse]), hs5]
theorem doLinkDetectPoll_noClock (shorts : Nat) (h1 : lnkState p s = 1) : doLinkDetectPoll p false 255 shorts s = s := by
  have hgo : ¬(p ≥ 4 ∨ lnkState p s ≠ 1 ∨ (portOf s p).failed = true) := by simp [hp, h1, hf]
  unfold doLinkDetectPoll
  rw [if_neg hgo, onesOf_all]
  rfl
theorem doReturnClockLock_both (h2 : lnkState p s = 2) : doReturnClockLock p 3 s = setLnk p 3 (returnLocked p s) := by
  have hgo : ¬(p ≥ 4 ∨ lnkState p s ≠ 2 ∨ (portOf s p).failed = true) := by simp [hp, h2, hf]
  unfold doReturnClockLock
  rw [if_neg hgo]
  extract_lets one use s1 s2 s3
  have hone : one = false := by simp [one]
  have huse : use = 3 := by simp [use]
  have hs3 : s3 = s2 := by simp [s3, hone]
  rw [hs3]
  unfold s2 s1
  rw [huse, hone]
  rfl

end Detect

theorem rd_lanesTaken (q : RegInfo) (p : Nat) (s : State) (j : Nat) : rd q (lanesTaken p s) j = rd q s j := rfl
theorem lanesOut_lanesTaken (p : Nat) (s : State) : (portOf (lanesTaken p s) p).lanesOut = 8 :=
  (congrArg Port.lanesOut (portOf_clearTraining ..)).trans (congrArg Port.lanesOut (portOf_modPort ..))
theorem laneMap_lanesFound (p : Nat) (s : State) : rd R.LNK_LANE_MAP (lanesFound p s) p = 0x76543210 :=
  calc rd R.LNK_LANE_MAP (lanesFound p s) p
    _ = rd R.LNK_LANE_MAP (wr R.LNK_LANE_MAP 0x76543210 s p) p := (rd_wr_apart rfl ..).trans (rd_wr_apart rfl ..)
    _ = 0x76543210 := rd_wr (by decide) _ _ _
theorem usedLanes_lanesFound (p : Nat) (s : State) : rdf R.LNK_STATUS 8 8 (lanesFound p s) p = 255 :=
  rdf_wrf_fits (by decide) (by decide) (by decide) _ _
theorem narrow_lanesFound (p : Nat) (s : State) : rdb R.LNK_STATUS 6 (lanesFound p s) p = false :=
  (rdb_wrf_ne (by decide) (by decide) (.inl (by decide)) _ _ _).trans (rdb_wrb (by decide) (by decide) _ _ _)
theorem lanesBack_returnLocked (p : Nat) (s : State) : (portOf (returnLocked p s) p).lanesBack = 2 := by
  unfold returnLocked
  rw [portOf_modPort]
theorem returnLanes_returnLocked (p : Nat) (s : State) : rdf R.LNK_STATUS 16 2 (returnLocked p s) p = 3 :=
  (rdf_modPort ..).trans (rdf_wrf_fits (by decide) (by decide) (by decide) _ _)

/-! ### A failed training and its retry (R239) -/

/-- The failure is recorded in LNK_TRAIN_FAIL. -/
def failRecorded (p cause : Nat) (s : State) : State :=
  wr R.LNK_TRAIN_FAIL (lnkState p s + 2 ^ 8 * cause + 2 ^ 16 * min 65535 (rdf R.LNK_TRAIN_FAIL 16 16 s p + 1)) s p
/-- LINK_DOWN is posted once in a run of failures. -/
def failReported (p cause lane : Nat) (s : State) : State :=
  if (portOf s p).downPosted then s else postDown p cause lane (modPort p (fun x => { x with downPosted := true }) s)

theorem trainFail_eq (p cause lane : Nat) (s : State) :
    trainFail p cause lane s = modPort p (fun x => { x with failed := true }) (failReported p cause lane (failRecorded p cause s)) := rfl
theorem trainFail_failed (p cause lane : Nat) (s : State) : (portOf (trainFail p cause lane s) p).failed = true := by
  rw [trainFail_eq, portOf_modPort]
theorem failReported_posts {p : Nat} (hp : p < 4) (cause lane : Nat) {s : State} (h : (portOf s p).downPosted = false) :
    EventShows (81 + 8 * p) (failReported p cause lane s) := by
  unfold failReported
  rw [h]
  exact posted ..
theorem failReported_stays {p n : Nat} (hp : p < 4) (hn : n < 256) (cause lane : Nat) {s : State} (h : EventShows n s) :
    EventShows n (failReported p cause lane s) := by
  unfold failReported
  split
  · exact h
  · exact posted_stays (by omega) hn _ _ _ _ h
theorem rd_failReported {q : RegInfo} (hq : portRow q = true) (p cause lane : Nat) (s : State) (j : Nat) :
    rd q (failReported p cause lane s) j = rd q s j := by
  unfold failReported
  split
  · rfl
  · exact rd_port_postEvent hq ..
theorem trainFail_posts {p : Nat} (hp : p < 4) (cause lane : Nat) {s : State} (h : (portOf s p).downPosted = false) :
    EventShows (81 + 8 * p) (trainFail p cause lane s) := failReported_posts hp cause lane h
theorem trainFail_stays {p n : Nat} (hp : p < 4) (hn : n < 256) (cause lane : Nat) {s : State} (h : EventShows n s) :
    EventShows n (trainFail p cause lane s) :=
  failReported_stays hp hn cause lane (shows_keeps (m := 2 ^ 54) (wr_keeps (hr := rfl) (hk := rfl) (h := Keeps.refl _ s)) rfl h)
/-- LNK_TRAIN_FAIL names the state that failed. -/
theorem trainFail_state (p cause lane : Nat) (s : State) : rdf R.LNK_TRAIN_FAIL 0 8 (trainFail p cause lane s) p = lnkState p s := by
  have hlt : lnkState p s < 16 := lnkState_lt p s
  have e : rd R.LNK_TRAIN_FAIL (trainFail p cause lane s) p =
      (lnkState p s + 2 ^ 8 * cause + 2 ^ 16 * min 65535 (rdf R.LNK_TRAIN_FAIL 16 16 s p + 1)) % 2 ^ (8 * R.LNK_TRAIN_FAIL.bytes) :=
    (rd_failReported rfl ..).trans (rd_wr (by decide) _ _ _)
  rw [rdf_eq, e, bits_mod (by decide)]
  unfold bits
  omega

theorem doLinkTrainTimeout_fails {p : Nat} {s : State} (hp : p < 4) (hlo : 2 ≤ lnkState p s) (hhi : lnkState p s ≤ 9)
    (hf : (portOf s p).failed = false) (hr : (portOf s p).retrain = none) : ∃ cause, doLinkTrainTimeout p s = trainFail p cause 0xFF s := by
  unfold doLinkTrainTimeout
  extract_lets st
  have hgo : ¬(p ≥ 4 ∨ (portOf s p).failed = true ∨ (portOf s p).retrain.isSome = true ∨ st < 2 ∨ st > 9) := by
    simp [hf, hr, st]
    omega
  exact ⟨_, if_neg hgo⟩
theorem doLinkRetryDelay_failed {p : Nat} {s : State} (hf : (portOf s p).failed = true) (h0 : lnkState p s ≠ 0) :
    doLinkRetryDelay p s = clearPort p 1 (modPort p (fun x => { x with failed := false }) s) := if_pos ⟨hf, h0⟩

/-! ### Training blocks (R240) -/

/-- The receiver of a return lane in BITLOCK has bit lock. -/
theorem laneLocked_bitlock {p : Nat} {s : State} (h : lnkState p s = 3) (lane : Nat) :
    laneLocked p lane s = (tget {} (portOf s p).rx lane).bitLocked := by
  simp [laneLocked, h]
theorem lnkState_modRx (p lane : Nat) (f : RxLane → RxLane) (s : State) : lnkState p (modRx p lane f s) = lnkState p s := rfl
theorem rx_modRx (p lane : Nat) (f : RxLane → RxLane) (s : State) (l : Nat) :
    tget {} (portOf (modRx p lane f s) p).rx l = if l = lane then f (tget {} (portOf s p).rx lane) else tget {} (portOf s p).rx l := by
  unfold modRx
  rw [portOf_modPort]
  exact tget_tset ..
/-- A lane that gains bit lock joins those that have it. -/
theorem laneLocked_modRx {p lane headers l : Nat} {s : State} (h3 : lnkState p s = 3) (h : l ≠ lane → laneLocked p l s = true) :
    laneLocked p l (modRx p lane (fun l => goodHeaders headers { l with bitLocked := true }) s) = true := by
  rw [laneLocked_bitlock h3] at h
  rw [laneLocked_bitlock ((lnkState_modRx ..).trans h3), rx_modRx]
  split
  · rfl
  · next hne => exact h hne
theorem ownDone_bitlock {p : Nat} {s : State} (h3 : lnkState p s = 3) (h : ∀ l ∈ backLanes p s, laneLocked p l s = true) (lane id : Nat)
    (inv : Bool) : ownDone p lane inv id s = modPort p (fun x => { x with mineDone := true }) s := by
  have hall : (backLanes p s).all (fun l => laneLocked p l s) = true := List.all_eq_true.2 h
  unfold ownDone
  extract_lets x setDone
  rw [h3]
  simp only [hall, setDone]
/-- Both sides have met the exit condition of BITLOCK: HUNT follows. -/
theorem advance_bitlock {p : Nat} {s : State} (hm : (portOf s p).mineDone = true) (ht : (portOf s p).theirsDone = true)
    (h3 : lnkState p s = 3) : lnkState p (advance p s) = 4 := by
  unfold advance
  extract_lets x st s1
  have hdone : ¬(!(x.mineDone && x.theirsDone)) = true := by simp [x, hm, ht]
  have hst : st = 3 := h3
  rw [if_neg hdone, hst]
  exact lnkState_setLnk (by decide) ..
theorem advance_waits {p : Nat} {s : State} (ht : (portOf s p).theirsDone = false) : advance p s = s := by
  simp [advance, ht]
/-- The board has gone further than this side. -/
theorem partnerDone_ahead {p : Nat} {b : List Byte} {s : State} (h : lnkState p s < bytesAt b 3 1) : partnerDone p b s = true := by
  simp [partnerDone, h]

theorem doTrainBlockRx_bitlock {p lane headers : Nat} {block up : List Byte} {inv : Bool} {s : State} (hp : p < 4) (h3 : lnkState p s = 3)
    (hf : (portOf s p).failed = false) (hlane : lane ∈ backLanes p s) (hb : trainOf block = some (inv, up)) (hok : blockOk up = true)
    (hup : 3 < bytesAt up 3 1) (hl : ∀ l ∈ backLanes p s, l ≠ lane → laneLocked p l s = true) :
    lnkState p (doTrainBlockRx p lane block true headers s) = 4 := by
  unfold doTrainBlockRx
  extract_lets st s1
  have hgo : ¬(p ≥ 4 ∨ st < 3 ∨ st > 7 ∨ (portOf s p).failed = true ∨ (!(backLanes p s).contains lane) = true) := by
    simp [hp, hf, hlane, st, h3]
  have h1 : lnkState p s1 = 3 := h3
  have hlock : ∀ l ∈ backLanes p s1, laneLocked p l s1 = true := fun l hmem => laneLocked_modRx h3 (hl l hmem)
  have hdone : partnerDone p up s1 = true := partnerDone_ahead (h1 ▸ hup)
  rw [if_neg hgo, hb]
  dsimp only
  rw [if_neg (by simp [hok]), if_pos hdone]
  have hown := ownDone_bitlock (s := modPort p (fun x => { x with theirsDone := true }) s1) (by simpa using h1)
    (fun l hmem => by simpa [laneLocked] using hlock l hmem) lane (bytesAt up 1 1) inv
  rw [hown]
  exact advance_bitlock (by simp) (by simp) (by simpa using h1)

/-! ### Skew and alignment (R242) -/

theorem skewBack_le (s : State) : skewBack s ≤ 212 := by
  unfold skewBack
  split <;> omega
/-- The measured skew is shown. -/
def skewShown (p skew : Nat) (s : State) : State := wrf R.LNK_SKEW 16 10 (min skew 1023) s p
theorem skewBack_skewShown (p skew : Nat) (s : State) : skewBack (skewShown p skew s) = skewBack s := by
  unfold skewBack skewShown wrf
  rw [rdb_wr_apart rfl]

section Align
variable {p lane seq skew : Nat} {s : State} (hp : p < 4) (h7 : lnkState p s = 7) (hf : (portOf s p).failed = false)
  (hlane : lane ∈ backLanes p s)
include hp h7 hf hlane

theorem doAlignBlockRx_skewed (hs : skewBack s < skew) (hr : (portOf s p).retrain = none) :
    doAlignBlockRx p lane seq skew s = trainFail p 1 lane (laneFault p lane 1 6 (skewShown p skew s)) := by
  have hgo : ¬(p ≥ 4 ∨ lnkState p s ≠ 7 ∨ (portOf s p).failed = true ∨ (!(backLanes p s).contains lane) = true) := by
    simp [hp, h7, hf, hlane]
  have hover : skew > skewBack (skewShown p skew s) := by rwa [skewBack_skewShown]
  have hfull : ¬(portOf (laneFault p lane 1 6 (skewShown p skew s)) p).retrain.isSome = true := by
    simp [laneFault, skewShown, hr]
  unfold doAlignBlockRx
  rw [if_neg hgo]
  exact (if_pos hover).trans (if_neg hfull)
/-- The one return lane in use is aligned with itself. -/
theorem doAlignBlockRx_within (hone : backLanes p s = [lane]) (hs : skew ≤ skewBack s) (ht : (portOf s p).theirsDone = false) :
    doAlignBlockRx p lane seq skew s =
      modPort p (fun x => { x with mineDone := true }) (modPort p (fun x => { x with alignSeq := tset x.alignSeq lane seq }) (skewShown p skew s)) := by
  have hgo : ¬(p ≥ 4 ∨ lnkState p s ≠ 7 ∨ (portOf s p).failed = true ∨ (!(backLanes p s).contains lane) = true) := by
    simp [hp, h7, hf, hlane]
  unfold doAlignBlockRx
  rw [if_neg hgo]
  extract_lets s1 s2 s3 ok
  have hunder : ¬skew > skewBack s1 := by
    have e : skewBack s1 = skewBack s := skewBack_skewShown ..
    omega
  have hback : backLanes p s3 = [lane] := by
    have e : rdf R.LNK_STATUS 16 2 s3 p = rdf R.LNK_STATUS 16 2 s p := rdf_wr_apart rfl ..
    have e2 : backLanes p s3 = backLanes p s := congrArg (onesOf 2) e
    rw [e2, hone]
  have hok : ok = true := by
    have e : tget? (portOf s3 p).alignSeq lane = some seq := by
      unfold s3
      rw [portOf_modPort]
      exact (tget?_tset ..).trans (if_pos rfl)
    simp [ok, hback, e]
  rw [if_neg hunder, advance_waits, hok]
  · simp only [Bool.or_true]
    rfl
  · rw [portOf_modPort]
    simpa [s3, s1] using ht

end Align

/-! ### Capability (R243) -/

/-- What the board offers is shown. -/
def boardShown (p : Nat) (body : List Byte) (s : State) : State :=
  wr R.LNK_BOARD_ID (bytesAt body 12 8) (wr R.LNK_BOARD_LAT (bytesAt body 8 2 + 2 ^ 16 * bytesAt body 10 2)
    (wr R.LNK_CAP (bytesAt body 2 1 % 8 + 2 ^ 8 * (bytesAt body 3 1 % 64) + 2 ^ 15 * (bytesAt body 6 1 % 2) + 2 ^ 16 * bytesAt body 4 2) s p) p) p
/-- The version is taken, and TICK follows. -/
def versionTaken (p v : Nat) (s : State) : State := setLnk p 9 (wrf R.LNK_STATUS 4 2 v s p)

theorem ownMask_wr {r : RegInfo} (hc : rowsApart R.LNK_CTRL r = true) (hr : rowsApart R.LNK_RATE r = true) (v : Nat) (s : State) (i p : Nat) :
    ownMask p (wr r v s i) = ownMask p s := by
  unfold ownMask
  rw [rdf_wr_apart hc, rdb_wr_apart hr]
theorem ownMask_boardShown (p : Nat) (body : List Byte) (s : State) : ownMask p (boardShown p body s) = ownMask p s :=
  (ownMask_wr rfl rfl ..).trans ((ownMask_wr rfl rfl ..).trans (ownMask_wr rfl rfl ..))
theorem lnkVersion_versionTaken {v : Nat} (h : v ≤ 3) (p : Nat) (s : State) : lnkVersion p (versionTaken p v s) = v :=
  (status_setLnk (by decide) ..).trans (rdf_wrf_fits (by decide) (by decide) (by omega) s p)

section Capability
variable {p : Nat} {body : List Byte} {s : State} (hp : p < 4) (h8 : lnkState p s = 8) (hf : (portOf s p).failed = false)
include hp h8 hf

theorem doCapabilityRx_noVersion (h0 : bytesAt body 1 1 = 0) (hno : (bytesAt body 2 1 % 8) &&& ownMask p s = 0) :
    doCapabilityRx p body s = trainFail p 2 0xFF (boardShown p body s) := by
  have hgo : ¬(p ≥ 4 ∨ lnkState p s ≠ 8 ∨ (portOf s p).failed = true) := by simp [hp, h8, hf]
  have hboth : (bytesAt body 2 1 % 8) &&& ownMask p (boardShown p body s) = 0 := by rwa [ownMask_boardShown]
  unfold doCapabilityRx
  rw [if_neg hgo, if_pos h0]
  exact if_pos hboth
theorem doCapabilityRx_confirmed (h1 : bytesAt body 1 1 = 1) (hv : bytesAt body 2 1 = (portOf s p).offered) (hpos : 1 ≤ (portOf s p).offered) :
    ∃ d, doCapabilityRx p body s = startExchange p 0 (modPort p (fun x => { x with offsets := [], flights := [], repeats := 0 })
      (postEvent (87 + 8 * p) p 0 0 d (versionTaken p (portOf s p).offered s))) := by
  have hgo : ¬(p ≥ 4 ∨ lnkState p s ≠ 8 ∨ (portOf s p).failed = true) := by simp [hp, h8, hf]
  unfold doCapabilityRx
  rw [if_neg hgo, if_neg (by omega), if_pos ⟨h1, hv, by omega⟩]
  exact ⟨_, rfl⟩

end Capability

/-! ### Replies of tick exchanges (R244, R245) -/

theorem doTickReplyRx_other {p kind n t2 t3 : Nat} {s : State} (h : n ≠ (portOf s p).exchange) : doTickReplyRx p kind n t2 t3 s = s :=
  if_pos (.inr (.inr (.inr (.inr (.inr (Ne.symm h))))))
/-- The board has taken its offset: a CHECK follows. -/
theorem doTickReplyRx_acknowledged {p t2 t3 : Nat} {s : State} (hp : p < 4) (hst : lnkState p s = 9 ∨ lnkState p s = 10)
    (hf : (portOf s p).failed = false) (hw : (portOf s p).waiting = true) (hk : (portOf s p).kind = 1) :
    doTickReplyRx p 1 (portOf s p).exchange t2 t3 s = startExchange p 2 (modPort p (fun x => { x with waiting := false }) s) := by
  have hgo : ¬(p ≥ 4 ∨ (!decide (lnkState p s = 9 ∨ lnkState p s = 10)) = true ∨ (portOf s p).failed = true ∨ (!(portOf s p).waiting) = true ∨
      (portOf s p).kind ≠ 1 ∨ (portOf s p).exchange ≠ (portOf s p).exchange) := by
    simp [hp, hst, hf, hw, hk]
  unfold doTickReplyRx
  exact (if_neg hgo).trans (if_pos rfl)

/-- Settles O46: each clause is one branch of its command, taken by the lemmas above, and what the port and its registers then hold. -/
theorem linkTraining : Obligations.LinkTraining := by
  refine ⟨?detect, ?clock, ?timeout, ?retry, ?bitlock, ?align, ?capability, ?other, ?acknowledged, ?timer⟩
  case detect =>
    refine fun p shorts s hp h1 hf => ⟨⟨_, congrArg Host.Outcome.next (doLinkDetectPoll_full hp hf shorts h1), ?_, ?_, ?_, ?_, ?_⟩,
      congrArg Host.Outcome.next (doLinkDetectPoll_noClock hp hf shorts h1)⟩
    · exact lnkState_setLnk (by decide) ..
    · exact (status_setLnk (by decide) ..).trans ((congrArg (bits 8 8) (rd_lanesTaken ..)).trans (usedLanes_lanesFound p s))
    · exact (rdb_setLnk (by decide) ..).trans ((congrArg (bit 6) (rd_lanesTaken ..)).trans (narrow_lanesFound p s))
    · exact (congrArg Port.lanesOut (portOf_setLnk ..)).trans (lanesOut_lanesTaken p _)
    · exact (rd_setLnk rfl ..).trans ((rd_lanesTaken ..).trans (laneMap_lanesFound p s))
  case clock =>
    refine fun p s hp h2 hf => ⟨_, congrArg Host.Outcome.next (doReturnClockLock_both hp hf h2), ?_, ?_, ?_⟩
    · exact lnkState_setLnk (by decide) ..
    · exact (status_setLnk (by decide) ..).trans (returnLanes_returnLocked p s)
    · exact (congrArg Port.lanesBack (portOf_setLnk ..)).trans (lanesBack_returnLocked p s)
  case timeout =>
    intro p s hp hlo hhi hf hr
    obtain ⟨cause, e⟩ := doLinkTrainTimeout_fails hp hlo hhi hf hr
    exact ⟨_, congrArg Host.Outcome.next e, trainFail_failed .., trainFail_state .., trainFail_posts hp _ _⟩
  case retry =>
    refine fun p s hf h0 => ⟨_, congrArg Host.Outcome.next (doLinkRetryDelay_failed hf h0), lnkState_clearPort (by decide) .., ?_⟩
    rw [clearPort_failed, portOf_modPort]
  case bitlock =>
    exact fun p lane headers block up inv s hp h3 hf hlane hb hok hup hl =>
      ⟨_, rfl, doTrainBlockRx_bitlock hp h3 hf hlane hb hok hup hl⟩
  case align =>
    refine fun p lane seq skew s hp h7 hf => ⟨fun hlane hs hr => ?_, fun hone hs ht => ?_⟩
    · exact ⟨_, congrArg Host.Outcome.next (doAlignBlockRx_skewed hp h7 hf hlane hs hr), trainFail_failed ..,
        trainFail_stays hp (by omega) _ _ (posted ..)⟩
    · have hfit : skew ≤ 212 := Nat.le_trans hs (skewBack_le s)
      refine ⟨_, congrArg Host.Outcome.next (doAlignBlockRx_within hp h7 hf (by simp [hone]) hone hs ht), ?_, ?_, ?_⟩
      · exact congrArg Port.mineDone (portOf_modPort ..)
      · calc rdf R.LNK_SKEW 16 10 (skewShown p skew s) p
          _ = min skew 1023 % 2 ^ 10 := rdf_wrf (by decide) (by decide) ..
          _ = skew := by omega
      · exact (lnkState_wr rfl ..).trans h7
  case capability =>
    refine fun p body s hp h8 hf => ⟨fun h0 hno => ?_, fun h1 hv hpos hle => ?_⟩
    · exact ⟨_, congrArg Host.Outcome.next (doCapabilityRx_noVersion hp h8 hf h0 hno), trainFail_failed ..⟩
    · obtain ⟨d, e⟩ := doCapabilityRx_confirmed hp h8 hf h1 hv hpos
      have hrd : ∀ u, rd R.LNK_STATUS (startExchange p 0 (modPort p u (postEvent (87 + 8 * p) p 0 0 d (versionTaken p (portOf s p).offered s)))) p =
          rd R.LNK_STATUS (versionTaken p (portOf s p).offered s) p := fun u => (rd_startExchange ..).trans (rd_port_postEvent rfl ..)
      refine ⟨_, congrArg Host.Outcome.next e, ?_, ?_, ?_, ?_, ?_⟩
      · exact (lnkState_of_rd (hrd _)).trans (lnkState_setLnk (by decide) ..)
      · exact (congrArg (bits 4 2) (hrd _)).trans (lnkVersion_versionTaken hle p s)
      · exact shows_keeps (m := 4100) (startExchange_keeps (hm := rfl) (h := modPort_keeps (hm := rfl) (h := Keeps.refl _ _))) rfl (posted ..)
      · exact congrArg Port.waiting (portOf_startExchange ..)
      · exact congrArg Port.kind (portOf_startExchange ..)
  case other => exact fun p kind n t2 t3 s h => congrArg Host.Outcome.next (doTickReplyRx_other h)
  case acknowledged =>
    exact fun p t2 t3 s hp hst hf hw hk => congrArg Host.Outcome.next (doTickReplyRx_acknowledged hp hst hf hw hk)
  case timer =>
    intro p s h10 hout
    obtain ⟨b, hb⟩ := startExchange_sent 2 hout
    exact ⟨_, b, congrArg Host.Outcome.next (if_pos h10), hb, congrArg Port.exchange (portOf_startExchange ..),
      congrArg Port.waiting (portOf_startExchange ..), congrArg Port.kind (portOf_startExchange ..),
      (lnkState_of_rd (rd_startExchange ..)).trans h10⟩

end Sys2Proof.Proofs
end

section
/-! A trained dose-link port: IDLE and FAST_EXIT, fast retrains, discarded blocks, verdicts and timeouts, a port turned on and off, and
discards of the mend log (R237, R239, R246, R247, R252 to R261, R281). -/

namespace Sys2Proof.Proofs
open Sys2Proof Sys2Proof.Machine Sys2Proof.Laws

/-! ### The start of a fast retrain (R246) -/

/-- The port is in HUNT again, its timeouts are deferred, and the retrain is counted. -/
def retrainBegun (p cause : Nat) (s : State) : State :=
  loseAnchor p (bumpLnk R.LNK_RETRAINS p (wrb R.LNK_STATUS 18 true (setLnk p 4 (modPort p (fun x => { x with
    retrain := some (cause, s.time.ns), deferEnding := false, module := rdf R.TSY_MODULE 0 10 s }) (clearTraining p s))) p))

theorem throttle_dose (src port : Nat) (b : Bool) (s : State) : (throttle src port b s).dose = s.dose :=
  (throttle_keeps (m := 4503625397174324) (hm := rfl) (h := Keeps.refl _ s)).same_dose rfl
theorem slowDown_ports (s : State) : (slowDown s).dose.ports = s.dose.ports := by
  unfold slowDown
  split
  · dsimp only
    split
    · rfl
    · split <;> rfl
  · rfl
theorem setScale_ports (src port v : Nat) (b : Bool) (s : State) : (setScale src port v b s).dose.ports = s.dose.ports := by
  unfold setScale
  extract_lets s1
  have e : s1.dose.ports = s.dose.ports := by
    unfold s1
    rw [throttle_dose]
    rfl
  split
  · exact (slowDown_ports s1).trans e
  · exact e
theorem slowPort_ports (p scale : Nat) (b : Bool) (s : State) : (slowPort p scale b s).dose.ports = s.dose.ports := by
  unfold slowPort
  split
  · rfl
  · exact setScale_ports ..
theorem portOf_slowPort (p scale : Nat) (b : Bool) (s : State) (k : Nat) : portOf (slowPort p scale b s) k = portOf s k := by
  unfold portOf
  rw [slowPort_ports]
theorem rd_port_slowPort {q : RegInfo} (hq : portRow q = true) (p scale : Nat) (b : Bool) (s : State) (j : Nat) :
    rd q (slowPort p scale b s) j = rd q s j :=
  rd_port_keeps (m := 4503625397180468) (slowPort_keeps (hm := rfl) (h := Keeps.refl _ s)) rfl hq j

/-- Behind its start a retrain only slows the port down. -/
theorem startRetrain_cases (p cause : Nat) (s : State) :
    startRetrain p cause s = retrainBegun p cause s ∨
      ∃ v b, startRetrain p cause s = slowPort p v b (fresh (retrainBegun p cause s)).2 := by
  unfold startRetrain
  dsimp only
  split
  · exact .inl rfl
  · split
    · exact .inr ⟨_, _, rfl⟩
    · exact .inl rfl
theorem rd_port_startRetrain {q : RegInfo} (hq : portRow q = true) (p cause : Nat) (s : State) (j : Nat) :
    rd q (startRetrain p cause s) j = rd q (retrainBegun p cause s) j := by
  obtain e | ⟨v, b, e⟩ := startRetrain_cases p cause s
  · rw [e]
  · rw [e, rd_port_slowPort hq]
    rfl
theorem portOf_startRetrain (p cause : Nat) (s : State) (k : Nat) : portOf (startRetrain p cause s) k = portOf (retrainBegun p cause s) k := by
  obtain e | ⟨v, b, e⟩ := startRetrain_cases p cause s
  · rw [e]
  · rw [e, portOf_slowPort]
    rfl
theorem startRetrain_status (p cause : Nat) (s : State) : rd R.LNK_STATUS (startRetrain p cause s) p =
    rd R.LNK_STATUS (wrb R.LNK_STATUS 18 true (setLnk p 4 s) p) p :=
  (rd_port_startRetrain rfl ..).trans (rd_port_bumpLnk rfl rfl ..)
theorem lnkState_startRetrain (p cause : Nat) (s : State) : lnkState p (startRetrain p cause s) = 4 :=
  calc lnkState p (startRetrain p cause s)
    _ = lnkState p (wrb R.LNK_STATUS 18 true (setLnk p 4 s) p) := lnkState_of_rd (startRetrain_status ..)
    _ = lnkState p (setLnk p 4 s) := lnkState_wrf_status (by decide) ..
    _ = 4 := lnkState_setLnk (by decide) ..
theorem startRetrain_defers (p cause : Nat) (s : State) : rdb R.LNK_STATUS 18 (startRetrain p cause s) p = true :=
  (congrArg (bit 18) (startRetrain_status ..)).trans (rdb_wrb (by decide) (by decide) _ _ _)
theorem startRetrain_cause (p cause : Nat) (s : State) : (portOf (startRetrain p cause s) p).retrain = some (cause, s.time.ns) := by
  rw [portOf_startRetrain]
  unfold retrainBegun
  rw [portOf_loseAnchor, portOf_bumpLnk, portOf_wrb, portOf_setLnk, portOf_modPort]
/-- What a retrain leaves: HUNT, timeouts deferred, and the cause with its time. -/
theorem startRetrain_begins (p cause : Nat) (s : State) : lnkState p (startRetrain p cause s) = 4 ∧
    rdb R.LNK_STATUS 18 (startRetrain p cause s) p = true ∧ (portOf (startRetrain p cause s) p).retrain = some (cause, s.time.ns) :=
  ⟨lnkState_startRetrain .., startRetrain_defers .., startRetrain_cause ..⟩

/-! ### IDLE, lane locks, discarded blocks and telemetry (R234, R237, R247, R252, R259) -/

theorem doLinkIdleEntry_enters {p : Nat} {s : State} (h10 : lnkState p s = 10) (he : rdb R.LNK_CTRL 6 s p = true)
    (ho : outstandingOn p s = []) (hplc : plcState s ≤ pTurn) : doLinkIdleEntry p s = setLnk p 11 s := if_pos ⟨h10, he, ho, hplc⟩
/-- The IDLE block of the board ends a FAST_EXIT in which no CHECK waits. -/
theorem doReturnIdleRx_active {p version : Nat} {s : State} (h12 : lnkState p s = 12) (hv : version ≠ 0)
    (hc : (portOf s p).checkDue = false) : doReturnIdleRx p version s = setLnk p 10 s := by
  have hno : ¬(portOf (setLnk p 10 s) p).checkDue = true := by simp [hc]
  exact (if_pos ⟨h12, hv⟩).trans (if_neg hno)
theorem doLaneLockLoss_outbound {p lane : Nat} {s : State} (hp : p < 4) (hup : lnkUp p s = true)
    (hl : bit lane (rdf R.LNK_STATUS 8 8 s p) = true) : doLaneLockLoss p lane false s = startRetrain p 1 (laneFault p lane 0 3 s) :=
  (if_pos ⟨hp, hl⟩).trans (if_pos hup)

section Discarded
variable {p : Nat} (hp : p < 4) (lane headers : Nat) (s : State)
include hp

theorem doReturnBlockInvalid_header (h : laneLocked p lane s = false) : doReturnBlockInvalid p lane 0 headers s =
    modRx p lane (fun l => badHeader (goodHeaders headers l)) (bumpLnk R.LNK_HDR_ERRORS p s) := by
  have hp4 : ¬ p ≥ 4 := by omega
  unfold doReturnBlockInvalid
  rw [if_neg hp4, if_pos rfl, h]
  rfl
theorem doReturnBlockInvalid_stuffing : doReturnBlockInvalid p lane 1 headers s = bumpLnk R.LNK_STUFF_ERRORS p s := by
  have hp4 : ¬ p ≥ 4 := by omega
  unfold doReturnBlockInvalid
  rw [if_neg hp4]
  rfl
theorem doReturnBlockInvalid_type : doReturnBlockInvalid p lane 3 headers s = bumpLnk R.LNK_BLOCK_CRC_ERRORS p s := by
  have hp4 : ¬ p ≥ 4 := by omega
  unfold doReturnBlockInvalid
  rw [if_neg hp4, if_neg (by decide), if_neg (by decide)]
  exact if_pos (Or.inl (by decide))

end Discarded

theorem doTelemetryRx_whole {p : Nat} {block : List Byte} {s : State} (hp : p < 4) (hup : lnkUp p s = true)
    (ht : bytesAt block 0 1 = 0x12) (hok : blockOk block = true) :
    doTelemetryRx p block s = uploadRecord stTelemetry (leBytes 8 (ttNow s) ++ block) s := by
  have hgo : ¬(p ≥ 4 ∨ (!lnkUp p s) = true) := by simp [hp, hup]
  unfold doTelemetryRx
  rw [if_neg hgo, if_neg (by omega), if_neg (by simp [hok])]

/-! ### Verdicts and timeouts (R255, R256) -/

/-- What the port keeps of a frame that has resolved (R258). -/
def resolvedAs (p : Pass) (f : Frame) (fired timedOut : Bool) : Resolved :=
  { row := f.row, pass := p.number, line := f.line, fired, timedOut, crc := (f.sent.map (·.crc)).getD 0, tick := fireTick f,
    replaced := f.replace.isSome }

theorem releaseEnable_resolved (p : Nat) (s : State) : (portOf (releaseEnable p s) p).resolved = (portOf s p).resolved := by
  unfold releaseEnable
  split
  · rw [portOf_modPort]
  · rfl
theorem resolve_keepsVerdict (p : Pass) (f : Frame) (fired timedOut : Bool) (s : State) :
    resolvedAs p f fired timedOut ∈ (portOf (resolve p f fired timedOut s) f.port).resolved := by
  unfold resolve
  extract_lets r s1 s2
  rw [releaseEnable_resolved]
  have e : portOf (crossingDone p f.row f.line s2) f.port = portOf s2 f.port := rfl
  rw [e]
  unfold s2
  rw [portOf_modPort]
  exact List.mem_cons_self
/-- Whatever a FIRED verdict counts and makes up, it ends in the resolution. -/
theorem resolveFired_resolves (p : Pass) (f : Frame) (rep truncated : Bool) (echo : Nat) (s : State) :
    ∃ u, resolveFired p f rep truncated echo s = resolve p f true false u := by
  unfold resolveFired
  extract_lets s1 first
  split
  extract_lets s2 s3 s4 s5 s6 s7 s8
  split
  · exact ⟨_, rfl⟩
  · split
    · exact ⟨_, rfl⟩
    · exact ⟨_, rfl⟩

section OneFrame
variable {p : Nat} {q : Pass} {f : Frame} {s : State} (hq : s.dose.passes = [q]) (hf : q.frames = [f]) (hport : f.port = p)
  (hsent : f.sent.isSome = true)
include hq hf hport hsent

theorem takeRecord_fired {a : AckRec} (strips : List (Nat × Nat)) (hrow : f.row = a.row) (hline : f.line = a.line) (hpass : q.number = a.pass)
    (hv : a.verdict = 1) (hin : sdiff 32 (tickOf p s) (fireTick f) ≤ ackTicks) :
    takeRecord p strips a s = afterResolve f.line strips (resolveFired q f false false a.echo s) := by
  have hfind : (s.dose.passes.filterMap (fun p' => (p'.frames.find? (fun f => f.port == p && f.sent.isSome && f.row == a.row && f.line == a.line &&
      p'.number == a.pass)).map (fun f => (p', f)))).head? = some (q, f) := by
    simp [hq, hf, hport, hsent, hrow, hline, hpass]
  have hlate : ¬(sdiff 32 (tickOf p s) (fireTick f) > ackTicks ∧ (!deferred p s) = true) := fun ⟨hover, _⟩ => absurd hin (Int.not_le.2 hover)
  have hfired : a.verdict % 4 = 1 := by rw [hv]
  have hrep : (bit 5 a.verdict && f.replace.isSome) = false := by rw [hv]; rfl
  have hcut : bit 6 a.verdict = false := by rw [hv]; rfl
  unfold takeRecord
  rw [hfind]
  dsimp only
  rw [if_neg hlate, if_pos hfired, hrep, hcut]
/-- The one outstanding frame of a port resolves by itself. -/
theorem resolveAll_one (strips : List (Nat × Nat)) (timeout : Frame → Bool) : resolveAll p strips timeout s =
    afterResolve f.line strips (if timeout f then resolveTimeout q f s else resolveBlanked q f 5 false 0 s) := by
  have hlist : s.dose.passes.flatMap (fun p' => (p'.frames.filter (fun f => f.port == p && f.sent.isSome)).map (fun f => (p'.index, f))) =
      [(q.index, f)] := by
    simp [hq, hf, hport, hsent]
  have hpass : passOf q.index s = some q := by simp [passOf, hq]
  unfold resolveAll
  rw [hlist]
  show (match passOf q.index s with | none => s | some p => _) = _
  rw [hpass]

end OneFrame

theorem resolveAll_none {p : Nat} {s : State} (h : outstandingOn p s = []) (strips : List (Nat × Nat)) (timeout : Frame → Bool) :
    resolveAll p strips timeout s = s := by
  have hno : ∀ q ∈ s.dose.passes, ∀ f ∈ q.frames, f.sent.isSome = true → f.port ≠ p := fun q hq f hf hsent hport => by
    have hmem : f ∈ outstandingOn p s :=
      List.mem_filter.2 ⟨List.mem_flatMap.2 ⟨q, hq, List.mem_filter.2 ⟨hf, hsent⟩⟩, by simp [hport]⟩
    simp [h] at hmem
  have hlist : s.dose.passes.flatMap (fun q => (q.frames.filter (fun f => f.port == p && f.sent.isSome)).map (fun f => (q.index, f))) = [] := by
    refine List.flatMap_eq_nil_iff.2 fun q hq => List.map_eq_nil_iff.2 (List.filter_eq_nil_iff.2 fun f hf htest => ?_)
    obtain ⟨hport, hsent⟩ := Bool.and_eq_true_iff.1 htest
    exact hno q hq f hf hsent (beq_iff_eq.1 hport)
  unfold resolveAll
  rw [hlist]
  rfl
theorem doAckTimeout_oldest {p : Nat} {q : Pass} {f : Frame} {s : State} (strips : List (Nat × Nat)) (hd : deferred p s = false)
    (ho : oldestOn p s = some (q, f)) : doAckTimeout p strips s = afterResolve f.line strips (resolveTimeout q f s) := by
  unfold doAckTimeout
  rw [if_neg (by simp [hd]), ho]
/-- A retrain that has not ended in time leaves the port in DETECT. -/
theorem doFastRetrainTimeout_falls {p : Nat} (strips : List (Nat × Nat)) {s : State} (h : (portOf s p).retrain ≠ none) :
    ∃ u, doFastRetrainTimeout p strips s = portLost p (clearPort p 1 u) := by
  have hrun : ¬(portOf s p).retrain.isNone = true := by simpa using h
  unfold doFastRetrainTimeout
  rw [if_neg hrun]
  exact ⟨_, rfl⟩

/-! ### A port turned on and off (R261) -/

theorem modeOf_wrb_ctrl (n : Nat) (b : Bool) (p : Nat) (s : State) : modeOf (wrb R.LNK_CTRL n b s p) = modeOf s :=
  modeOf_keeps (m := 2 ^ 54) (wrb_keeps (hm := rfl) (hr0 := rfl) (hk0 := rfl) (h := Keeps.refl _ s)) rfl
theorem writeLnkEnable_on {p : Nat} {s : State} (h0 : lnkState p s = 0) (ha : s.pwr.asserted = []) (hd : s.pwr.due = none)
    (hm : 1 < modeOf s) : writeLnkEnable p true s = clearPort p 1 (wrb R.LNK_CTRL 0 true s p) := by
  have hmode : modeOf (wrb R.LNK_CTRL 0 true s p) > 1 := by rwa [modeOf_wrb_ctrl]
  exact if_pos ⟨h0, ha, by simp [hd, wrb], hmode⟩

/-- LINK_DOWN is posted for a port that software turns off, and a retrain that runs ends. -/
def turnedOff (p : Nat) (s : State) : State :=
  let s := postDown p 7 0xFF (wrb R.LNK_CTRL 0 false s p)
  if (portOf s p).retrain.isSome then postRetrain p 1 s else s
/-- The port stands in OFF, its clock stopped. -/
def portOff (p : Nat) (s : State) : State :=
  clearPort p 0 (modPort p (fun x => { x with clockStopped := true, deferEnding := false, failed := false }) (turnedOff p s))

theorem writeLnkEnable_off {p : Nat} {s : State} (h : lnkState p s ≠ 0) : writeLnkEnable p false s = portLost p (portOff p s) :=
  if_neg h
/-- A retrain that ends in DETECT or OFF posts its event, and touches no port's register. -/
theorem rd_port_postRetrain {q : RegInfo} (hq : portRow q = true) (p : Nat) (s : State) (j : Nat) :
    rd q (postRetrain p 1 s) j = rd q s j := by
  unfold postRetrain
  split
  · rfl
  · exact rd_port_postEvent hq ..
theorem rd_port_turnedOff {q : RegInfo} (hq : portRow q = true) (p : Nat) (s : State) (j : Nat) :
    rd q (turnedOff p s) j = rd q (wrb R.LNK_CTRL 0 false s p) j := by
  unfold turnedOff
  extract_lets s1
  have e : rd q s1 j = rd q (wrb R.LNK_CTRL 0 false s p) j := rd_port_postEvent hq ..
  split
  · exact (rd_port_postRetrain hq ..).trans e
  · exact e
theorem turnedOff_posts {p : Nat} (hp : p < 4) {s : State} (h : (portOf s p).retrain = none) : EventShows (81 + 8 * p) (turnedOff p s) := by
  have hno : ¬(portOf (postDown p 7 0xFF (wrb R.LNK_CTRL 0 false s p)) p).retrain.isSome = true := by
    simp [postDown, h]
  unfold turnedOff
  rw [if_neg hno]
  exact posted ..
theorem portOff_ctrl (p : Nat) (s : State) : rdb R.LNK_CTRL 0 (portOff p s) p = false :=
  calc rdb R.LNK_CTRL 0 (portOff p s) p
    _ = rdb R.LNK_CTRL 0 (turnedOff p s) p := congrArg (bit 0) (rd_ctrl_clearPort ..)
    _ = rdb R.LNK_CTRL 0 (wrb R.LNK_CTRL 0 false s p) p := congrArg (bit 0) (rd_port_turnedOff rfl ..)
    _ = false := rdb_wrb (by decide) (by decide) _ _ _
theorem portOff_posts {p : Nat} (hp : p < 4) {s : State} (h : (portOf s p).retrain = none) : EventShows (81 + 8 * p) (portOff p s) :=
  shows_keeps (m := 18014398509486080) (clearPort_keeps (hm := rfl) (h := modPort_keeps (hm := rfl) (h := Keeps.refl _ _))) rfl
    (turnedOff_posts hp h)

/-! ### Discards of the mend log (R281) -/

theorem removeEntry_log {seq : Nat} {e : MendEntry} {s : State} (st : Nat) (h : findEntry seq s = some e) :
    (removeEntry seq st s).dose.mnd.log = s.dose.mnd.log.filter (fun x => x.seq != seq) := by
  unfold removeEntry
  rw [h]
  dsimp only
  generalize mendBytes _ = r
  have k : ∀ u, Keeps 9007225024544820 u (showOpen (uploadRecord stMend r u)) := fun u =>
    showOpen_keeps (hm := rfl) (h := uploadRecord_keeps (hm := rfl) (h := Keeps.refl _ u))
  rw [(k _).same_dose rfl]
  rfl
theorem findEntry_removeEntry {seq : Nat} {e : MendEntry} {s : State} (st : Nat) (h : findEntry seq s = some e) :
    findEntry seq (removeEntry seq st s) = none := by
  unfold findEntry
  rw [removeEntry_log st h, List.find?_eq_none]
  intro x hx
  simpa using (List.mem_filter.1 hx).2
theorem writeDiscard_unselected {seq : Nat} {e : MendEntry} {s : State} (h : findEntry seq s = some e)
    (hm : ∀ q ∈ s.dose.passes, q.mend = false) : writeDiscard seq s = removeEntry seq 3 s := by
  have hno : ¬s.dose.passes.any (fun p => p.mend && selectable p e) = true := by
    rw [List.any_eq_true]
    rintro ⟨q, hq, hsel⟩
    simp [hm q hq] at hsel
  unfold writeDiscard
  rw [h]
  exact if_neg hno

/-- Settles O47: each clause is one branch of its command, taken by the lemmas above; the three causes of a fast retrain share
`startRetrain_begins`. -/
theorem linkRunning : Obligations.LinkRunning := by
  refine ⟨?idle, ?active, ?exitTimeout, ?lockLoss, ?request, ?retrainTimeout, ?invalid, ?telemetry, ?fired, ?ackTimeout, ?deferEnd,
    ?clockOver, ?clockBlanks, ?enable, ?discard⟩
  case idle =>
    exact fun p s h10 he ho hplc => ⟨_, congrArg Host.Outcome.next (doLinkIdleEntry_enters h10 he ho hplc), lnkState_setLnk (by decide) .., rfl⟩
  case active =>
    exact fun p version s h12 hv hc => ⟨_, congrArg Host.Outcome.next (doReturnIdleRx_active h12 hv hc), lnkState_setLnk (by decide) .., rfl⟩
  case exitTimeout => exact fun p s h12 => ⟨_, congrArg Host.Outcome.next (if_pos h12), startRetrain_begins p 1 s⟩
  case lockLoss =>
    intro p lane s hp hup hl
    have ht : (laneFault p lane 0 3 s).time = s.time := postEvent_time ..
    exact ⟨_, congrArg Host.Outcome.next (doLaneLockLoss_outbound hp hup hl), ht ▸ startRetrain_begins p 1 (laneFault p lane 0 3 s)⟩
  case request => exact fun p s hp hup => ⟨_, congrArg Host.Outcome.next (if_pos ⟨hp, hup⟩), startRetrain_begins p 3 s⟩
  case retrainTimeout =>
    intro p strips s h
    obtain ⟨u, e⟩ := doFastRetrainTimeout_falls strips h
    exact ⟨_, congrArg Host.Outcome.next e, lnkState_clearPort (by decide) .., clearPort_waiting ..⟩
  case invalid =>
    exact fun p lane headers s hp => ⟨fun h => congrArg Host.Outcome.next (doReturnBlockInvalid_header hp lane headers s h),
      congrArg Host.Outcome.next (doReturnBlockInvalid_stuffing hp lane headers s),
      congrArg Host.Outcome.next (doReturnBlockInvalid_type hp lane headers s)⟩
  case telemetry => exact fun p block s hp hup ht hok => congrArg Host.Outcome.next (doTelemetryRx_whole hp hup ht hok)
  case fired =>
    intro p strips q f a s hp h0 hq hf hport hsent hrow hline hpass hv hin
    obtain ⟨u, e⟩ := resolveFired_resolves q f false false a.echo s
    refine ⟨resolve q f true false u, ?_, resolvedAs q f true false, hport ▸ resolve_keepsVerdict .., hrow, hline, hpass, rfl, rfl⟩
    rw [← e, ← takeRecord_fired hq hf hport hsent strips hrow hline hpass hv hin]
    exact congrArg Host.Outcome.next (if_pos ⟨hp, h0⟩)
  case ackTimeout => exact fun p strips q f s hd ho => congrArg Host.Outcome.next (doAckTimeout_oldest strips hd ho)
  case deferEnd =>
    refine fun p s h => ⟨_, congrArg Host.Outcome.next (if_pos h), rdb_wrb (by decide) (by decide) _ _ _, ?_⟩
    rw [portOf_wrb, portOf_modPort]
  case clockOver =>
    exact fun p strips s hc ho => congrArg Host.Outcome.next ((if_pos hc).trans (resolveAll_none (s := modPort p _ s) ho ..))
  case clockBlanks =>
    exact fun p strips q f s hc hq hf hport hsent => congrArg Host.Outcome.next
      ((if_pos hc).trans (resolveAll_one (s := modPort p _ s) hq hf hport hsent ..))
  case enable =>
    refine fun p s hp => ⟨fun h0 ha hd hm => ?_, fun h => ?_⟩
    · refine ⟨clearPort p 1 (wrb R.LNK_CTRL 0 true s p), ?_, lnkState_clearPort (by decide) .., ?_⟩
      · exact congrArg Host.Outcome.next ((if_pos hp).trans (writeLnkEnable_on h0 ha hd hm))
      · exact (congrArg (bit 0) (rd_ctrl_clearPort ..)).trans (rdb_wrb (by decide) (by decide) _ _ _)
    · refine ⟨portOff p s, congrArg Host.Outcome.next ((if_pos hp).trans (writeLnkEnable_off h)), lnkState_clearPort (by decide) .., ?_,
        portOff_ctrl p s, portOff_posts hp⟩
      exact congrArg (bits 4 2) (rd_status_clearPort ..)
  case discard =>
    exact fun v e s h hm => ⟨_, congrArg Host.Outcome.next (writeDiscard_unselected h hm), rfl, findEntry_removeEntry 3 h⟩

end Sys2Proof.Proofs
end

section
/-! The registers and the data of an axis: what the operations of the motion block write, and what they leave alone (R298 to R304, R307, R312
to R314, R322, R323). -/

namespace Sys2Proof.Proofs
open Sys2Proof Sys2Proof.Machine Sys2Proof.Laws

/-! ### Registers of block MOT -/

/-- A row of block MOT with a register for each axis. -/
def motRow (q : RegInfo) : Bool := q.base / 0x2000 == 0x40 && q.stride == 0x2000 && q.count == 6
/-- Two different rows of block MOT. -/
def motApart (q r : RegInfo) : Bool := motRow q && motRow r && q.base != r.base

theorem motRow_of_apart {q r : RegInfo} (h : motApart q r = true) : motRow q = true := by
  simp only [motApart, Bool.and_eq_true] at h
  exact h.1.1
/-- The axes' registers stand in the 64 KiB 8 of BAR0, 8 KiB for each axis. -/
theorem motRow_block {q : RegInfo} (h : motRow q = true) (j : Nat) : regAddr q j / 65536 % 32 = 8 := by
  simp only [motRow, Bool.and_eq_true, beq_iff_eq] at h
  obtain ⟨⟨hbase, hstride⟩, hcount⟩ := h
  unfold regAddr
  rw [hstride, hcount]
  omega
theorem regAddr_ne_mot {q r : RegInfo} (h : motApart q r = true) (i j : Nat) : regAddr q j ≠ regAddr r i := by
  simp only [motApart, motRow, Bool.and_eq_true, beq_iff_eq, bne_iff_ne] at h
  obtain ⟨⟨⟨⟨hqb, hqs⟩, -⟩, ⟨hrb, hrs⟩, -⟩, hne⟩ := h
  unfold regAddr
  rw [hqs, hrs]
  omega
theorem rd_wr_mot {q r : RegInfo} (h : motApart q r = true) (v : Nat) (s : State) (i j : Nat) : rd q (wr r v s i) j = rd q s j :=
  rd_wr_ne (regAddr_ne_mot h i j) v s
/-- An axis's register stands through whatever leaves block MOT alone. -/
theorem rd_mot_keeps {m : Nat} {s t : State} (k : Keeps m s t) (hm : off m 40) {q : RegInfo} (hq : motRow q = true) (j : Nat) :
    rd q t j = rd q s j := rd_keeps k (by rw [motRow_block hq]; exact hm)
theorem rd_mot_postEvent {q : RegInfo} (hq : motRow q = true) (n src sev w1 : Nat) (d : List (Nat × Nat × Int)) (s : State) (j : Nat) :
    rd q (postEvent n src sev w1 d s) j = rd q s j := rd_mot_keeps (postEvent_only n src sev w1 d s) rfl hq j
/-- A counter of an axis, and the event that its saturation posts, touch no other row of the axes. -/
theorem rd_mot_bumpMot {q r : RegInfo} (h : motApart q r = true) (a n : Nat) (cause : List (Nat × Nat × Int)) (s : State) (j : Nat) :
    rd q (bumpMot r a n cause s) j = rd q s j :=
  rd_bump (regAddr_ne_mot h a j) (fun u => rd_mot_postEvent (motRow_of_apart h) _ _ _ _ _ u j) s
/-- A pending bit that shows stays where a register of block MOT is written. -/
theorem shows_wr_mot {r : RegInfo} (h : motRow r = true) {n : Nat} (v : Nat) {s : State} (i : Nat) (x : EventShows n s) :
    EventShows n (wr r v s i) := by
  refine shows_read (rd_wr_ne (fun e => ?_) v s) x
  have hblock : regAddr R.EVT_PENDING (n / 32) / 65536 % 32 = 8 := e ▸ motRow_block h i
  simp only [regAddr, R.EVT_PENDING] at hblock
  omega

/-! ### MOT_STATUS (R323) -/

theorem axisState_setAxisState {st : Nat} (h : st < 8) (a : Nat) (s : State) : axisState a (setAxisState a st s) = st :=
  rdf_wrf_fits (by decide) (by decide) h s a
theorem homed_setHomed (a : Nat) (b : Bool) (s : State) : homed a (setHomed a b s) = b := rdb_wrb (by decide) (by decide) b s a

/-! ### The data of an axis -/

theorem axisOf_mot {s t : State} (e : t.mot = s.mot) (a : Nat) : axisOf t a = axisOf s a := by
  unfold axisOf
  rw [e]
@[simp] theorem axisOf_modAxis (a : Nat) (f : Axis → Axis) (s : State) : axisOf (modAxis a f s) a = f (axisOf s a) := by
  show tget {} (tmod {} s.mot a f) a = _
  unfold tmod
  rw [tget_tset, if_pos rfl]
  rfl
@[simp] theorem axisOf_setAxisState (k st : Nat) (s : State) (a : Nat) : axisOf (setAxisState k st s) a = axisOf s a := rfl
@[simp] theorem axisOf_showSwitches (k : Nat) (s : State) (a : Nat) : axisOf (showSwitches k s) a = axisOf s a := rfl
@[simp] theorem axisOf_setQueue (a : Nat) (q : List QEntry) (s : State) : axisOf (setQueue a q s) a = { axisOf s a with queue := q } :=
  axisOf_modAxis a (fun x => { x with queue := q }) s
@[simp] theorem axisOf_postEvent (n src sev w1 : Nat) (d : List (Nat × Nat × Int)) (s : State) (a : Nat) :
    axisOf (postEvent n src sev w1 d s) a = axisOf s a := axisOf_mot (postEvent_mot ..) a
@[simp] theorem bumpMot_mot (r : RegInfo) (a n : Nat) (cause : List (Nat × Nat × Int)) (s : State) : (bumpMot r a n cause s).mot = s.mot :=
  bump_part State.mot (fun _ _ => rfl) (fun _ => postEvent_mot ..) s
@[simp] theorem switch_modSwitch (a i : Nat) (f : Switch → Switch) (s : State) :
    tget {} (axisOf (modSwitch a i f s) a).sw i = f (tget {} (axisOf s a).sw i) := by
  unfold modSwitch tmod
  rw [axisOf_modAxis, tget_tset, if_pos rfl]
theorem headEntry_idle {a : Nat} {s : State} (h : (axisOf s a).running = false) : headEntry a s = none := if_neg (by simp [h])

/-! ### Flushing, replanning and stopping (R300, R556, R558) -/

/-- The end of an entry is an event alone. -/
theorem moveDone_only (a status cookie : Nat) (s : State) : Keeps 25769803828 s (moveDone a status cookie s) := postEvent_only ..
theorem each_moveDone_only (a status : Nat) (l : List QEntry) (s : State) :
    Keeps 25769803828 s (each l (fun e s => moveDone a status e.cookie s) s) := by
  induction l generalizing s with
  | nil => exact Keeps.refl _ s
  | cons e l ih => exact (moveDone_only a status e.cookie s).trans (ih _)
/-- A flush keeps the running entry, and MOT_STATUS shows how many are left. -/
theorem flushQueue_keepsRunning (a status : Nat) (s : State) :
    (axisOf (flushQueue a status s) a).queue = (if (axisOf s a).running then (axisOf s a).queue.take 1 else []) ∧
      rdf R.MOT_STATUS 16 5 (flushQueue a status s) a = (axisOf (flushQueue a status s) a).queue.length := by
  unfold flushQueue
  extract_lets x kept gone
  have k := each_moveDone_only a status gone (setQueue a kept s)
  have hfew : kept.length < 2 ^ 5 := by
    unfold kept
    split
    · exact Nat.lt_of_le_of_lt (List.length_take_le 1 _) (by decide)
    · exact Nat.two_pow_pos 5
  have hqueue : (axisOf (each gone (fun e s => moveDone a status e.cookie s) (setQueue a kept s)) a).queue = kept := by
    rw [axisOf_mot (k.same_mot rfl), axisOf_setQueue]
  refine ⟨hqueue, ?_⟩
  rw [hqueue]
  exact (congrArg (bits 16 5) (rd_mot_keeps k rfl rfl a)).trans (rdf_wrf_fits (by decide) (by decide) hfew _ a)
theorem replan_running {a : Nat} {p : Prof} {s : State} (hp : (axisOf s a).prof = some p) (v1 : Rat) (lim : Nat) :
    ∃ p', replan a v1 lim s = modAxis a (fun x => { x with prof := some p' }) s := by
  unfold replan
  rw [hp]
  exact ⟨_, rfl⟩
/-- A profile that runs is replanned to rest, and its entry will end with the status of the stop at least. -/
theorem stopAxis_brakes {a : Nat} {p : Prof} {s : State} (hp : (axisOf s a).prof = some p) (hn : noDecel a s = false)
    (hh : (axisOf s a).runHold = false) (status : Nat) (dmax : Option Nat) :
    ∃ p', stopAxis a status dmax s = setAxisState a mStopping (modAxis a (fun x => { x with ending := some (max status (x.ending.getD 0)) })
      (modAxis a (fun x => { x with prof := some p' }) s)) := by
  obtain ⟨p', e⟩ := replan_running hp 0 (stopDecel a dmax s)
  refine ⟨p', ?_⟩
  unfold stopAxis
  simp only [hp, hn, hh, e, Bool.false_eq_true, if_false]

end Sys2Proof.Proofs
end

section
/-! MOVE and HOME descriptors (R294, R295, R297, R299, R317), and the commands of MOT_CMD, MOT_FAULT and MOT_CFG, the standstill
delay, the run hold, the retest of a link and the end of an entry (R298, R300, R303, R304, R307, R308, R311, R319, R320, R323). -/

namespace Sys2Proof.Proofs
open Sys2Proof Sys2Proof.Machine Sys2Proof.Laws

/-! ### MOVE and HOME (R294, R299) -/

section Descriptors
variable {k : Nat} {d : Desc} {s : State}

/-- An absolute MOVE, at its own rule. -/
theorem doMove_absolute (h : Offers k d 0x08 (usedBits [(8, 1), (9, 1), (16, 8), (24, 4), (28, 4), (32, 4)])
      [(8, decide (dfld d 8 1 ≤ 5)), (9, decide (dfld d 9 1 ≤ 1)), (16, decide (sext 64 (dfld d 16 8) = sext 48 (dfld d 16 8)))] s)
    (habs : dfld d 9 1 = 0) :
    doMove k d s = (moveRefusal (dfld d 8 1) true false (sext 48 (dfld d 16 8)) none (taken k d s)).elim
      (startEntry (dfld d 8 1) (finish k (nextIndex k s) stOk 0 (setQueue (dfld d 8 1) ((axisOf s (dfld d 8 1)).queue ++
        [{ home := false, cookie := dCookie d, target := sext 48 (dfld d 16 8), vmax := dfld d 24 4, amax := dfld d 28 4,
           jmax := dfld d 32 4 }]) (taken k d s))))
      (fun r => finish k (nextIndex k s) r.1 r.2 (taken k d s)) := by
  have habs : (dfld d 9 1 == 0) = true := beq_iff_eq.2 habs
  unfold doMove
  dsimp only
  rw [readDesc_offers h (by decide), habs, if_pos rfl]
  cases moveRefusal (dfld d 8 1) true false (sext 48 (dfld d 16 8)) none (taken k d s) <;> rfl
/-- A HOME whose record is loaded and that no rule refuses. -/
theorem doHome_admitted (h : Offers k d 0x07 (usedBits [(8, 1), (9, 1)]) [(8, decide (dfld d 8 1 ≤ 5))] s) {record : List Byte}
    (hn : dfld d 9 1 < 16) (hr : tget? s.ctl.homing (16 * dfld d 8 1 + dfld d 9 1) = some record)
    (hm : moveRefusal (dfld d 8 1) true true 0 (some record) (taken k d s) = none) :
    doHome k d s = startEntry (dfld d 8 1) (finish k (nextIndex k s) stOk 0 (setQueue (dfld d 8 1) ((axisOf s (dfld d 8 1)).queue ++
      [{ home := true, cookie := dCookie d, target := 0, vmax := 0, amax := 0, jmax := 0, record := record,
         recIndex := dfld d 9 1 }]) (taken k d s))) := by
  have hloaded : tget? (taken k d s).ctl.homing (16 * dfld d 8 1 + dfld d 9 1) = some record := hr
  unfold doHome
  rw [readDesc_offers h (by decide)]
  dsimp only
  rw [if_pos hn, hloaded, hm]
  rfl

end Descriptors

/-- Settles O21: a descriptor that passes the common checks goes to its opcode's rule, where the first refusal completes it, or its entry
joins the queue. -/
theorem motionOpcodes : Obligations.MotionOpcodes := by
  refine ⟨fun k d s h habs => ⟨fun hm => ?_, fun r hm => ?_⟩, fun k d rc s h hn hr hm => congrArg Host.Outcome.next (doHome_admitted h hn hr hm)⟩
  · exact congrArg Host.Outcome.next ((doMove_absolute h habs).trans (by rw [hm]; rfl))
  · exact congrArg Host.Outcome.next ((doMove_absolute h habs).trans (by rw [hm]; rfl))

/-! ### MOT_CMD (R300) -/

/-- MOT_STOP of a profile that runs (R300, R556). -/
theorem doMotStop_brakes {a : Nat} {p : Prof} {s : State} (ha : a < 6) (hr : (axisOf s a).running = true) (hp : (axisOf s a).prof = some p)
    (hh : (axisOf s a).runHold = false) (hn : noDecel a s = false) :
    ∃ t, doMotStop a s = t ∧ axisState a t = mStopping ∧ (axisOf t a).ending = some (max 1 ((axisOf s a).ending.getD 0)) ∧
      (axisOf t a).queue = (axisOf s a).queue ∧ measPos a t = measPos a s := by
  obtain ⟨p', e⟩ := stopAxis_brakes hp hn hh 1 none
  refine ⟨_, (if_pos ⟨ha, hr⟩).trans e, axisState_setAxisState (by decide) a _, ?_, ?_, ?_⟩
  · rw [axisOf_setAxisState, axisOf_modAxis, axisOf_modAxis]
  · rw [axisOf_setAxisState, axisOf_modAxis, axisOf_modAxis]
  · exact congrArg (sext 64) (rd_wr_mot (r := R.MOT_STATUS) rfl _ _ a a)

/-! ### MOT_FAULT (R323) -/

theorem onesOf_fault : ∀ k < 9, onesOf 9 (2 ^ k) = [k] := by decide
theorem setBits_two_pow : ∀ k < 9, setBits k 1 (b2n false) (2 ^ k) = 0 := by decide
/-- The clear of one fault of the causes 4 to 9, which always clear (R323). -/
theorem doMotFaultClear_one {a k : Nat} {s : State} (ha : a < 6) (hk : 3 ≤ k) (hk' : k < 9) (hset : rdb R.MOT_FAULT k s a = true) (healthy : Bool) :
    doMotFaultClear a (2 ^ k) healthy s =
      if rd R.MOT_FAULT (wrb R.MOT_FAULT k false s a) a = 0 ∧ axisState a (wrb R.MOT_FAULT k false s a) = mFault then
        startEntry a (updateEnables (setAxisState a mStandstill (modAxis a (fun x => { x with rested := true }) (wrb R.MOT_FAULT k false s a))))
      else updateEnables (wrb R.MOT_FAULT k false s a) := by
  unfold doMotFaultClear
  rw [if_neg (Nat.not_le.2 ha)]
  extract_lets gone clear cleared linked
  have hgone : gone k = true := by
    obtain ⟨j, rfl⟩ := Nat.exists_eq_add_of_le' hk
    rfl
  have hclear : clear = [k] := by unfold clear; simp [onesOf_fault k hk', hset, hgone]
  have hcleared : cleared = wrb R.MOT_FAULT k false s a := by unfold cleared; rw [hclear]; rfl
  have hlinked : linked = wrb R.MOT_FAULT k false s a := by
    unfold linked
    rw [hclear, if_neg (by simp [show ¬ 2 = k by omega]), hcleared]
  rw [hlinked, hclear]
  simp only [ne_eq, List.cons_ne_nil, not_false_iff, true_and]
/-- A fault beside it keeps the axis in FAULT. -/
theorem doMotFaultClear_beside {a k j : Nat} {s : State} (ha : a < 6) (hk : 3 ≤ k) (hk' : k < 9) (hset : rdb R.MOT_FAULT k s a = true)
    (hj : j < 9) (hne : j ≠ k) (hother : rdb R.MOT_FAULT j s a = true) (healthy : Bool) :
    doMotFaultClear a (2 ^ k) healthy s = updateEnables (wrb R.MOT_FAULT k false s a) := by
  have hstays : rdb R.MOT_FAULT j (wrb R.MOT_FAULT k false s a) a = true :=
    (rdb_wrb_ne (by decide) (by show j + 1 ≤ 32; omega) hne false s a).trans hother
  rw [doMotFaultClear_one ha hk hk' hset, if_neg]
  rintro ⟨hzero, -⟩
  unfold rdb at hstays
  rw [hzero] at hstays
  simp [bit] at hstays
/-- The only fault of an axis in FAULT. -/
theorem doMotFaultClear_only {a k : Nat} {s : State} (ha : a < 6) (hk : 3 ≤ k) (hk' : k < 9) (hset : rdb R.MOT_FAULT k s a = true)
    (honly : rd R.MOT_FAULT s a = 2 ^ k) (hst : axisState a s = mFault) (healthy : Bool) :
    doMotFaultClear a (2 ^ k) healthy s =
      startEntry a (updateEnables (setAxisState a mStandstill (modAxis a (fun x => { x with rested := true }) (wrb R.MOT_FAULT k false s a)))) ∧
    rd R.MOT_FAULT (wrb R.MOT_FAULT k false s a) a = 0 := by
  have hzero : rd R.MOT_FAULT (wrb R.MOT_FAULT k false s a) a = 0 := by
    unfold wrb wrf
    rw [rd_wr (by decide), honly, setBits_two_pow k hk']
    rfl
  have hst : axisState a (wrb R.MOT_FAULT k false s a) = mFault := (congrArg (bits 0 3) (rd_wr_mot (r := R.MOT_FAULT) rfl _ s a a)).trans hst
  exact ⟨(doMotFaultClear_one ha hk hk' hset healthy).trans (if_pos ⟨hzero, hst⟩), hzero⟩

/-! ### MOT_CFG (R308, R319) -/

theorem rd_showSwitches {q : RegInfo} (h : motApart q R.MOT_STATUS = true) (a : Nat) (s : State) (j : Nat) :
    rd q (showSwitches a s) j = rd q s j :=
  (rd_wr_mot h _ _ a j).trans ((rd_wr_mot h _ _ a j).trans (rd_wr_mot h _ _ a j))
/-- MOT_STATUS keeps its other bits. -/
theorem rdb_showSwitches_ne {n : Nat} (h : n < 4) (a : Nat) (s : State) : rdb R.MOT_STATUS n (showSwitches a s) a = rdb R.MOT_STATUS n s a := by
  have hb : n + 1 ≤ 8 * R.MOT_STATUS.bytes := by show n + 1 ≤ 32; omega
  unfold showSwitches
  rw [rdb_wrb_ne (by decide) hb (by omega), rdb_wrb_ne (by decide) hb (by omega), rdb_wrb_ne (by decide) hb (by omega)]
theorem rd_mot_endOverrun {q : RegInfo} (hq : motRow q = true) (a : Nat) (s : State) (j : Nat) : rd q (endOverrun a s) j = rd q s j :=
  rd_mot_keeps (endOverrun_keeps (hm := rfl) (h := Keeps.refl 25769805876 s)) rfl hq j
theorem measPos_setMeas_zero (a : Nat) (s : State) : measPos a (setMeas a 0 s) = 0 := by
  have h : rd R.MOT_POS (setMeas a 0 s) a = 0 := (rd_wr (by decide) _ s a).trans (by decide)
  exact congrArg (sext 64) h
theorem cmdPos_setCmd_zero (a : Nat) (s : State) : cmdPos a (setCmd a 0 s) = 0 := by
  have h : rd R.MOT_CMD_POS (setCmd a 0 s) a = 0 := (rd_wr (by decide) _ s a).trans (by decide)
  exact congrArg (sext 64) h
/-- MOT_CFG takes the value written, and with it the source. -/
theorem axisSource_wr (a v : Nat) (s : State) : axisSource a (wr R.MOT_CFG (v % 4096) s a) = bits 0 2 v := by
  have h : rd R.MOT_CFG (wr R.MOT_CFG (v % 4096) s a) a = v % 2 ^ 12 % 2 ^ 32 := rd_wr (by decide) _ s a
  unfold axisSource rdf
  rw [h, bits_mod (by decide), bits_mod (by decide)]
/-- The state once a halted axis has taken another source, before its switches are shown again. -/
def sourceTaken (a v : Nat) (s : State) : State :=
  modAxis a (fun x => { x with stepPos := 0, stepNs := 0, stepPrevNs := 0, stepDirChanged := true })
    (setHomed a false (setCmd a 0 (setMeas a 0 (endOverrun a (wr R.MOT_CFG (v % 4096) s a)))))
theorem doMotSourceChange_changes {a v : Nat} {s : State} (ha : a < 6) (hh : motHalted a s = true) (hv : bits 0 2 v ≠ axisSource a s) :
    doMotSourceChange a v s = showSwitches a (sourceTaken a v s) := by
  unfold doMotSourceChange
  rw [if_neg (by simp [hh, ha])]
  dsimp only
  rw [if_neg (by rw [axisSource_wr]; exact hv)]
  rfl
theorem sourceTaken_zeroes (a v : Nat) (s : State) :
    axisSource a (sourceTaken a v s) = bits 0 2 v ∧ measPos a (sourceTaken a v s) = 0 ∧ cmdPos a (sourceTaken a v s) = 0 ∧
      homed a (sourceTaken a v s) = false := by
  refine ⟨?_, ?_, ?_, homed_setHomed a false _⟩
  · calc axisSource a (sourceTaken a v s)
      _ = axisSource a (endOverrun a (wr R.MOT_CFG (v % 4096) s a)) := congrArg (bits 0 2)
        ((rd_wr_mot (r := R.MOT_STATUS) rfl _ _ a a).trans ((rd_wr_mot (r := R.MOT_CMD_POS) rfl _ _ a a).trans (rd_wr_mot (r := R.MOT_POS) rfl _ _ a a)))
      _ = axisSource a (wr R.MOT_CFG (v % 4096) s a) := congrArg (bits 0 2) (rd_mot_endOverrun rfl a _ a)
      _ = bits 0 2 v := axisSource_wr a v s
  · calc measPos a (sourceTaken a v s)
      _ = measPos a (setMeas a 0 (endOverrun a (wr R.MOT_CFG (v % 4096) s a))) := congrArg (sext 64)
        ((rd_wr_mot (r := R.MOT_STATUS) rfl _ _ a a).trans (rd_wr_mot (r := R.MOT_CMD_POS) rfl _ _ a a))
      _ = 0 := measPos_setMeas_zero a _
  · calc cmdPos a (sourceTaken a v s)
      _ = cmdPos a (setCmd a 0 (setMeas a 0 (endOverrun a (wr R.MOT_CFG (v % 4096) s a)))) := congrArg (sext 64) (rd_wr_mot (r := R.MOT_STATUS) rfl _ _ a a)
      _ = 0 := cmdPos_setCmd_zero a _

/-! ### The retest of a link and the end of an entry (R299, R307, R320) -/

/-- A link that fails its retest is stopped and reported before the axis faults. -/
theorem motionLinkFault_reports {a : Nat} {s : State} (hf : rdb R.MOT_FAULT 2 s a = false) (c : Nat) :
    ∃ u, motionLinkFault a c s = axisFault a 3 u ∧ (axisOf u a).linkStopped = true ∧ (axisOf u a).linkBad = true ∧ EventShows 138 u := by
  unfold motionLinkFault
  extract_lets stopped reported unhomed
  have hf : ¬ rdb R.MOT_FAULT 2 stopped a = true := by rw [show rdb R.MOT_FAULT 2 stopped a = rdb R.MOT_FAULT 2 s a from rfl, hf]; decide
  have hmot : unhomed.mot = stopped.mot := by unfold unhomed; split <;> exact postEvent_mot ..
  have haxis : axisOf unhomed a = { axisOf s a with linkBad := true, linkStopped := true } := (axisOf_mot hmot a).trans (axisOf_modAxis ..)
  have hshows : EventShows 138 reported := posted ..
  refine ⟨unhomed, if_neg hf, by rw [haxis], by rw [haxis], ?_⟩
  unfold unhomed
  split
  · exact shows_wr_mot rfl _ a hshows
  · exact hshows
/-- The running entry has left the queue, and nothing runs. -/
def entryRemoved (a : Nat) (s : State) : State :=
  setQueue a ((axisOf s a).queue.drop 1) (modAxis a (fun x => { x with running := false, ending := none, homeStep := 0, homeNext := 0 }) s)
/-- HOMED of a homing that ends well, MOVE_DONE of any other entry (R320). -/
def entryReported (a st : Nat) (e : QEntry) (x : Axis) (s : State) : State :=
  if st = 0 ∧ e.home then
    postEvent (113 + 4 * a) a 0 e.cookie [(0, 1, (e.recIndex : Nat)), (1, 1, (hrTarget e.record : Nat)), (2, 6, x.homeCap), (8, 8, (x.homeCapTt : Nat))] s
  else moveDone a st e.cookie s
/-- MOVE_COMPLETE of an entry whose profile has ended: the entry leaves the queue and is reported before the next may start. -/
theorem doMoveComplete_ends {a st : Nat} {e : QEntry} {s : State} (ha : a < 6) (he : headEntry a s = some e) (hst : (axisOf s a).ending = some st)
    (hp : (axisOf s a).prof = none) :
    ∃ rest, doMoveComplete a s = startEntry a (entryReported a st e (axisOf s a) (setAxisState a rest (entryRemoved a s))) := by
  have hgo : ¬(a ≥ 6 ∨ (axisOf s a).prof.isSome = true) := by simp [hp, ha]
  unfold doMoveComplete
  rw [he]
  dsimp only
  rw [hst]
  dsimp only
  rw [if_neg hgo]
  exact ⟨_, rfl⟩
theorem axisOf_entryRemoved (a : Nat) (s : State) : axisOf (entryRemoved a s) a =
    { axisOf s a with running := false, ending := none, homeStep := 0, homeNext := 0, queue := (axisOf s a).queue.drop 1 } := by
  unfold entryRemoved
  rw [axisOf_setQueue, axisOf_modAxis]
theorem axisOf_entryReported (a st : Nat) (e : QEntry) (x : Axis) (s : State) : axisOf (entryReported a st e x s) a = axisOf s a := by
  refine axisOf_mot ?_ a
  unfold entryReported
  split
  · exact postEvent_mot ..
  · exact postEvent_mot ..
theorem entryReported_shows {a : Nat} (ha : a < 6) (st : Nat) (e : QEntry) (x : Axis) (s : State) :
    EventShows (if st = 0 ∧ e.home = true then 113 + 4 * a else 112 + 4 * a) (entryReported a st e x s) := by
  unfold entryReported
  split
  · exact posted ..
  · exact posted ..

/-- Settles O48, command by command. -/
theorem axisCommands : Obligations.AxisCommands := by
  refine ⟨?stop, ?stopIdle, ?flush, ?declare, ?clearHomed, ?faultClear, ?source, ?standstill, ?retest, ?runHold, ?complete⟩
  case stop =>
    intro a p s ha hr hp hh hamax hjmax
    obtain ⟨t, e, h⟩ := doMotStop_brakes ha hr hp hh (by simp [noDecel, hamax, hjmax])
    exact ⟨t, congrArg Host.Outcome.next e, h⟩
  case stopIdle => exact fun a s hr => congrArg Host.Outcome.next (if_neg (by simp [hr]))
  case flush => exact fun a s ha => ⟨_, congrArg Host.Outcome.next (if_pos ha), flushQueue_keepsRunning a 4 s⟩
  case declare =>
    exact fun a s ha => ⟨fun h => ⟨_, congrArg Host.Outcome.next (if_pos ⟨ha, h⟩), homed_setHomed a true s, rfl⟩,
      fun h => congrArg Host.Outcome.next (if_neg fun x => h x.2)⟩
  case clearHomed => exact fun a s ha => ⟨_, congrArg Host.Outcome.next (if_pos ha), homed_setHomed a false s, rfl⟩
  case faultClear =>
    intro a k v healthy s ha hk hk' hv hset
    refine ⟨fun j hj hne hother => ?_, fun honly hst => ?_⟩
    · exact congrArg Host.Outcome.next (hv ▸ doMotFaultClear_beside ha hk hk' hset hj hne hother healthy)
    · obtain ⟨e, hzero⟩ := doMotFaultClear_only ha hk hk' hset honly hst healthy
      refine ⟨_, congrArg Host.Outcome.next (hv ▸ e), ?_, axisState_setAxisState (by decide) a _, ?_⟩
      · exact (rd_wr_mot (r := R.MOT_STATUS) rfl _ _ a a).trans hzero
      · rw [axisOf_setAxisState, axisOf_modAxis]
  case source =>
    refine fun a v s ha => ⟨fun hh => congrArg Host.Outcome.next (if_pos (by simp [hh])), fun hh hv => ?_⟩
    obtain ⟨hsource, hmeas, hcmd, hhomed⟩ := sourceTaken_zeroes a v.toNat s
    refine ⟨_, congrArg Host.Outcome.next (doMotSourceChange_changes ha hh hv), ?_, ?_, ?_, (rdb_showSwitches_ne (by decide) a _).trans hhomed⟩
    · exact (congrArg (bits 0 2) (rd_showSwitches rfl a _ a)).trans hsource
    · exact (congrArg (sext 64) (rd_showSwitches rfl a _ a)).trans hmeas
    · exact (congrArg (sext 64) (rd_showSwitches rfl a _ a)).trans hcmd
  case standstill =>
    intro a s ha hp hq hd
    exact ⟨_, congrArg Host.Outcome.next (if_pos ⟨ha, by rw [hp]; rfl, hq, hd⟩), congrArg Axis.rested (axisOf_modAxis ..), rfl⟩
  case retest =>
    refine fun a s ha => ⟨⟨_, congrArg Host.Outcome.next ((if_neg (by omega)).trans (if_pos rfl)), congrArg Axis.linkBad (axisOf_modAxis ..), rfl⟩,
      fun c h1 h3 hf => ?_⟩
    obtain ⟨u, e, h⟩ := motionLinkFault_reports hf c
    exact ⟨u, congrArg Host.Outcome.next ((if_neg (by omega)).trans ((if_neg (by omega)).trans e)), h⟩
  case runHold =>
    intro a p s ha hh hp
    refine ⟨_, congrArg Host.Outcome.next (if_pos ⟨ha, hh⟩), congrArg Axis.runHold (axisOf_modAxis ..), ?_, rfl⟩
    rw [axisOf_modAxis, hp]
    rfl
  case complete =>
    intro a st e s ha he hst hp
    obtain ⟨rest, eu⟩ := doMoveComplete_ends ha he hst hp
    have haxis : axisOf (entryReported a st e (axisOf s a) (setAxisState a rest (entryRemoved a s))) a = _ :=
      (axisOf_entryReported ..).trans ((axisOf_setAxisState ..).trans (axisOf_entryRemoved a s))
    exact ⟨_, congrArg Host.Outcome.next eu, by rw [haxis], by rw [haxis], entryReported_shows ha ..⟩

end Sys2Proof.Proofs
end

section
/-! The motion-link frame of axes at rest on encoders (R301, R303, R310), encoder faults (R309) and the switches (R312 to R315). -/

namespace Sys2Proof.Proofs
open Sys2Proof Sys2Proof.Machine Sys2Proof.Laws

/-! ### The motion-link frame (R301, R303, R310) -/

/-- Axis `a` rests on its encoder within its following limit, and its link is up. -/
structure RestsOnEncoder (a : Nat) (s : State) : Prop where
  prof : (axisOf s a).prof = none
  running : (axisOf s a).running = false
  linkUp : (axisOf s a).linkStopped = false
  source : axisSource a s = 0
  follows : (pdiff (measPos a s) (cmdPos a s)).natAbs ≤ rd R.MOT_FOLLOW_LIMIT s a
/-- What the frames of resting axes change: the registers that show the link and the following error, and what leaves the module. -/
structure FramesOnly (s t : State) : Prop where
  mot : t.mot = s.mot
  dose : t.dose = s.dose
  ctl : t.ctl = s.ctl
  rd : ∀ q j, motApart q R.MOT_FOLLOW_PEAK = true → motApart q R.MOT_LINK_SEQ = true → motApart q R.MOT_STATUS = true → rd q t j = rd q s j

theorem FramesOnly.refl (s : State) : FramesOnly s s := ⟨rfl, rfl, rfl, fun _ _ _ _ _ => rfl⟩
theorem FramesOnly.trans {s t u : State} (h : FramesOnly s t) (k : FramesOnly t u) : FramesOnly s u where
  mot := k.mot.trans h.mot
  dose := k.dose.trans h.dose
  ctl := k.ctl.trans h.ctl
  rd q j hp hs hm := (k.rd q j hp hs hm).trans (h.rd q j hp hs hm)
/-- The frame of one axis leaves every axis at rest that was. -/
theorem RestsOnEncoder.afterFrames {a : Nat} {s t : State} (h : RestsOnEncoder a s) (k : FramesOnly s t) : RestsOnEncoder a t where
  prof := by rw [axisOf_mot k.mot, h.prof]
  running := by rw [axisOf_mot k.mot, h.running]
  linkUp := by rw [axisOf_mot k.mot, h.linkUp]
  source := (congrArg (bits 0 2) (k.rd R.MOT_CFG a rfl rfl rfl)).trans h.source
  follows := by
    have hmeas : measPos a t = measPos a s := congrArg (sext 64) (k.rd R.MOT_POS a rfl rfl rfl)
    have hcmd : cmdPos a t = cmdPos a s := congrArg (sext 64) (k.rd R.MOT_CMD_POS a rfl rfl rfl)
    rw [hmeas, hcmd, k.rd R.MOT_FOLLOW_LIMIT a rfl rfl rfl]
    exact h.follows

theorem peak_cases (r : RegInfo) (v : Nat) (s : State) (i : Nat) : peak r v s i = s ∨ peak r v s i = wr r v s i := by
  unfold peak
  split
  · exact .inr rfl
  · exact .inl rfl
theorem framesOnly_peak (a v : Nat) (s : State) : FramesOnly s (peak R.MOT_FOLLOW_PEAK v s a) := by
  rcases peak_cases R.MOT_FOLLOW_PEAK v s a with e | e
  · rw [e]
    exact FramesOnly.refl s
  · rw [e]
    exact ⟨rfl, rfl, rfl, fun q j hp _ _ => rd_wr_mot hp v s a j⟩
theorem peak_out (r : RegInfo) (v : Nat) (s : State) (i : Nat) : (peak r v s i).out = s.out := by
  rcases peak_cases r v s i with e | e
  · rw [e]
  · rw [e]; rfl
/-- An axis within its following limit only keeps the largest error (R310). -/
theorem followCheck_within {a : Nat} {s : State} (h : RestsOnEncoder a s) : ∃ v, followCheck a s = peak R.MOT_FOLLOW_PEAK v s a := by
  refine ⟨_, (if_neg fun hne => hne h.source).trans (if_neg ?_)⟩
  rw [(framesOnly_peak a _ s).rd R.MOT_FOLLOW_LIMIT a rfl rfl rfl]
  exact Nat.not_lt.2 h.follows
theorem homeChecks_idle {a : Nat} {s : State} (h : (axisOf s a).running = false) : homeChecks a s = s := by
  unfold homeChecks
  rw [headEntry_idle h]
/-- Axis `a` has sent the link frame `w`: its mode and sequence show (R301). -/
def frameSent (a mode seq w : Nat) (s : State) : State :=
  emit (.motionFrame a w) (wrf R.MOT_STATUS 8 2 mode (wr R.MOT_LINK_SEQ seq s a) a)
theorem framesOnly_frameSent (a mode seq w : Nat) (s : State) : FramesOnly s (frameSent a mode seq w s) :=
  ⟨rfl, rfl, rfl, fun _ j _ hs hm => (rd_wr_mot (r := R.MOT_STATUS) hm _ _ a j).trans (rd_wr_mot hs seq s a j)⟩
/-- A frame leaves the homed flag of an axis on its encoder (R301). -/
theorem sendFrame_encoder {a : Nat} {s : State} (h : axisSource a s = 0) (still : Bool) :
    ∃ mode seq w, sendFrame a still s = frameSent a mode seq w s := by
  refine ⟨_, _, _, if_neg fun hopen => ?_⟩
  have hsource : axisSource a s = 1 :=
    (congrArg (bits 0 2) ((framesOnly_frameSent a _ _ _ s).rd R.MOT_CFG a rfl rfl rfl)).symm.trans hopen.2
  rw [h] at hsource
  exact absurd hsource (by decide)
/-- The frame of an axis that rests on its encoder: the following error is taken, and one frame leaves (R301, R310). -/
theorem axisFrame_atRest {a : Nat} {s : State} (h : RestsOnEncoder a s) :
    FramesOnly s (axisFrame a s) ∧ ∃ w, (axisFrame a s).out = .motionFrame a w :: s.out := by
  have hone : axisSource a s ≠ 1 := by rw [h.source]; decide
  have htwo : axisSource a s ≠ 2 := by rw [h.source]; decide
  obtain ⟨v, hfollow⟩ := followCheck_within h
  have hstill : newPosition a (measPos a s) false s = s := if_pos ⟨rfl, rfl⟩
  have hpeak := framesOnly_peak a v s
  have hrests := h.afterFrames hpeak
  have e : axisFrame a s = sendFrame a true (peak R.MOT_FOLLOW_PEAK v s a) := by
    unfold axisFrame
    simp only [h.prof, htwo, hone, if_false, beq_eq_false_iff_ne.2 hone, hstill, hfollow, homeChecks_idle hrests.running, hrests.linkUp,
      Bool.false_eq_true]
  obtain ⟨mode, seq, w, hsent⟩ := sendFrame_encoder hrests.source true
  rw [e, hsent]
  exact ⟨hpeak.trans (framesOnly_frameSent ..), w, congrArg (_ :: ·) (peak_out ..)⟩
/-- The frames of resting axes, in the order of the list. -/
theorem each_axisFrame_atRest (l : List Nat) {s : State} (h : ∀ a ∈ l, RestsOnEncoder a s) :
    ∃ ws, ws.length = l.length ∧ FramesOnly s (each l axisFrame s) ∧
      (each l axisFrame s).out = (List.zipWith Out.motionFrame l ws).reverse ++ s.out := by
  induction l generalizing s with
  | nil => exact ⟨[], rfl, FramesOnly.refl s, rfl⟩
  | cons a l ih =>
    obtain ⟨hframe, w, hout⟩ := axisFrame_atRest (h a List.mem_cons_self)
    obtain ⟨ws, hlen, hframes, houts⟩ := ih fun b hb => (h b (List.mem_cons_of_mem a hb)).afterFrames hframe
    refine ⟨w :: ws, congrArg (· + 1) hlen, hframe.trans hframes, houts.trans ?_⟩
    rw [hout, List.zipWith_cons_cons, List.reverse_cons, List.append_assoc]
    rfl
/-- With no pass, no deceleration or run-out to come and the E-stop closed, a motion-link frame is the frames of the axes. -/
theorem doMotionLinkFrame_quiet {s : State} (hm : modeOf s ≠ 0) (hr : s.pwr.railsOff = false) (hd : s.pwr.due = none)
    (hdecel : (each [0, 1, 2, 3, 4, 5] axisFrame s).dose.plc.decelPending = false)
    (hrunout : (each [0, 1, 2, 3, 4, 5] axisFrame s).dose.plc.runoutPending = false)
    (hp : (each [0, 1, 2, 3, 4, 5] axisFrame s).dose.passes = [])
    (ho : (each [0, 1, 2, 3, 4, 5] axisFrame s).ctl.estopOpen = []) (hdisc : (each [0, 1, 2, 3, 4, 5] axisFrame s).ctl.estopDisc = false) :
    doMotionLinkFrame s = each [0, 1, 2, 3, 4, 5] axisFrame s := by
  unfold doMotionLinkFrame
  rw [if_neg (by simp [hm, hr, motionInReset, hd])]
  generalize each [0, 1, 2, 3, 4, 5] axisFrame s = t at *
  have hnext : nextPass t = none := by unfold nextPass; rw [hp]; rfl
  have hcur : curPass t = none := by unfold curPass; rw [hp]; rfl
  simp [hdecel, hrunout, hnext, ho, hdisc, tryComplete, hcur]

/-! ### Encoder faults (R309) -/

/-- The fault is counted and posted. -/
def encoderFaultPosted (a cause channels : Nat) (s : State) : State :=
  postEvent 136 a 1 0 [(0, 1, (cause : Nat)), (1, 1, (channels % 8 : Nat)), (2, 6, measPos a (bumpMot R.MOT_ENC_ERRORS a 136 [(0, 1, 5)] s))]
    (bumpMot R.MOT_ENC_ERRORS a 136 [(0, 1, 5)] s)
theorem encoderFaultPosted_mot (a cause channels : Nat) (s : State) : (encoderFaultPosted a cause channels s).mot = s.mot :=
  (postEvent_mot ..).trans (bumpMot_mot ..)
theorem axisSource_encoderFaultPosted (a cause channels : Nat) (s : State) :
    axisSource a (encoderFaultPosted a cause channels s) = axisSource a s :=
  congrArg (bits 0 2) ((rd_mot_postEvent rfl ..).trans (rd_mot_bumpMot rfl ..))
/-- A cause that loses no count. -/
theorem doEncoderFault_countKept {a : Nat} (ha : a < 6) (channels : Nat) (s : State) :
    doEncoderFault a 4 channels s = encoderFaultPosted a 4 channels s :=
  (if_neg (by omega)).trans (if_neg fun h => absurd h.1 (by decide))
/-- A count is lost on an axis whose source is the encoder. -/
theorem doEncoderFault_countLost {a cause : Nat} {s : State} (ha : a < 6) (h1 : 1 ≤ cause) (h3 : cause ≤ 3) (hs : axisSource a s = 0)
    (channels : Nat) : doEncoderFault a cause channels s = axisFault a 2 (setHomed a false (encoderFaultPosted a cause channels s)) :=
  (if_neg (by omega)).trans (if_pos ⟨h3, (axisSource_encoderFaultPosted a cause channels s).trans hs⟩)

/-! ### The classes of the loops (R312) -/

/-- A loop that is no wire fault: its class shows, and where no episode runs its state is taken. -/
def loopTaken (a i ohm : Nat) (w : Switch) (s : State) : Switch :=
  let w := { w with bad := 0, good := min 3 (w.good + 1), wireFault := w.wireFault && decide (w.good + 1 < 3) }
  if w.edges = 0 then { w with closed := loopClass ohm == 1, active := (loopClass ohm == 1) != rdb R.MOT_CFG (5 + i) s a } else w
theorem classify_sound {a i ohm : Nat} {s : State} (h : loopClass ohm ≤ 1) :
    classify a i ohm s = showSwitches a (modSwitch a i (fun w => loopTaken a i ohm w (wrf R.MOT_SWITCH_RAW (4 * i) 3 (loopClass ohm) s a))
      (wrf R.MOT_SWITCH_RAW (4 * i) 3 (loopClass ohm) s a)) := if_pos h
theorem rd_raw_classify {a i ohm : Nat} {s : State} (h : loopClass ohm ≤ 1) :
    rd R.MOT_SWITCH_RAW (classify a i ohm s) a = rd R.MOT_SWITCH_RAW (wrf R.MOT_SWITCH_RAW (4 * i) 3 (loopClass ohm) s a) a := by
  rw [classify_sound h]
  exact rd_showSwitches rfl a _ a
/-- The class of an input shows in its field. -/
theorem raw_classify_same {a i ohm : Nat} (s : State) (hi : i < 3) (h : loopClass ohm ≤ 1) :
    rdf R.MOT_SWITCH_RAW (4 * i) 3 (classify a i ohm s) a = loopClass ohm :=
  (congrArg (bits (4 * i) 3) (rd_raw_classify h)).trans
    (rdf_wrf_fits (by decide) (by show 4 * i + 3 ≤ 32; omega) (Nat.lt_of_le_of_lt h (by decide)) s a)
/-- The other inputs' classes stand. -/
theorem raw_classify_ne {a i j ohm : Nat} (s : State) (hj : j < 3) (hne : j ≠ i) (h : loopClass ohm ≤ 1) :
    rdf R.MOT_SWITCH_RAW (4 * j) 3 (classify a i ohm s) a = rdf R.MOT_SWITCH_RAW (4 * j) 3 s a :=
  (congrArg (bits (4 * j) 3) (rd_raw_classify h)).trans
    (rdf_wrf_ne (by decide) (by show 4 * j + 3 ≤ 32; omega) (by omega) (loopClass ohm) s a)

/-! ### Edges of a switch (R313, R314) -/

/-- The first edge of an episode: what the comparator reads is taken, the edge and the position at it are kept, and the edge is counted. -/
def firstEdgeTaken (a i : Nat) (closed : Bool) (s : State) : State :=
  bumpMot R.MOT_CHATTER_EDGES a 137 [(0, 1, (i : Nat)), (1, 1, 4)]
    (wr R.MOT_HOME_CAPTURE_TT (ttNow s) (wrI R.MOT_HOME_CAPTURE (measPos a s)
      (modSwitch a i (fun w => { w with closed, edges := w.edges + 1, firstNs := s.time.ns }) s) a) a)
theorem switch_firstEdgeTaken (a i : Nat) (closed : Bool) (s : State) :
    tget {} (axisOf (firstEdgeTaken a i closed s) a).sw i =
      { tget {} (axisOf s a).sw i with closed, edges := (tget {} (axisOf s a).sw i).edges + 1, firstNs := s.time.ns } := by
  unfold firstEdgeTaken
  rw [axisOf_mot (bumpMot_mot ..)]
  exact switch_modSwitch ..
theorem toBits_lt (n : Nat) (x : Int) : toBits n x < 2 ^ n := by
  have hpos : (0 : Int) < (2 ^ n : Nat) := Int.natCast_pos.2 (Nat.two_pow_pos n)
  exact (Int.toNat_lt (Int.emod_nonneg x (Int.ne_of_gt hpos))).2 (Int.emod_lt_of_pos x hpos)
/-- The position at the first edge is latched. -/
theorem capture_firstEdgeTaken (a i : Nat) (closed : Bool) (s : State) :
    rd R.MOT_HOME_CAPTURE (firstEdgeTaken a i closed s) a = toBits 64 (measPos a s) := by
  unfold firstEdgeTaken
  rw [rd_mot_bumpMot rfl, rd_wr_mot rfl]
  exact (rd_wr (by decide) _ _ a).trans (Nat.mod_eq_of_lt (toBits_lt 64 _))
theorem rd_firstEdgeTaken {q : RegInfo} (hedges : motApart q R.MOT_CHATTER_EDGES = true) (htt : motApart q R.MOT_HOME_CAPTURE_TT = true)
    (hcap : motApart q R.MOT_HOME_CAPTURE = true) (a i : Nat) (closed : Bool) (s : State) (j : Nat) :
    rd q (firstEdgeTaken a i closed s) j = rd q s j :=
  (rd_mot_bumpMot hedges ..).trans ((rd_wr_mot htt ..).trans (rd_wr_mot hcap ..))
/-- A first edge that makes the input inactive, within the edges that MOT_CHATTER_MAX allows, starts an episode and no more. -/
theorem doSwitchRawEdge_inactive {a i : Nat} {s : State} (ha : a < 6) (hi : i < 3) (hfirst : (tget {} (axisOf s a).sw i).edges = 0)
    (hmax : 1 ≤ rdf R.MOT_CHATTER_MAX 0 8 s a) :
    doSwitchRawEdge a i (rdb R.MOT_CFG (5 + i) s a) s = firstEdgeTaken a i (rdb R.MOT_CFG (5 + i) s a) s := by
  have hswitch := switch_firstEdgeTaken a i (rdb R.MOT_CFG (5 + i) s a) s
  have hmax' : rdf R.MOT_CHATTER_MAX 0 8 (firstEdgeTaken a i (rdb R.MOT_CFG (5 + i) s a) s) a = rdf R.MOT_CHATTER_MAX 0 8 s a :=
    congrArg (bits 0 8) (rd_firstEdgeTaken rfl rfl rfl ..)
  have hcfg : rdb R.MOT_CFG (5 + i) (firstEdgeTaken a i (rdb R.MOT_CFG (5 + i) s a) s) a = rdb R.MOT_CFG (5 + i) s a :=
    congrArg (bit (5 + i)) (rd_firstEdgeTaken rfl rfl rfl ..)
  have hraw : rawActive a i (firstEdgeTaken a i (rdb R.MOT_CFG (5 + i) s a) s) = false := by
    unfold rawActive
    rw [hswitch, hcfg]
    exact bne_self_eq_false _
  unfold doSwitchRawEdge
  rw [if_neg (by omega)]
  extract_lets first taken latched counted w checked
  have hstart : first = true := beq_iff_eq.2 hfirst
  have hcounted : counted = firstEdgeTaken a i (rdb R.MOT_CFG (5 + i) s a) s := by
    unfold counted latched taken
    rw [hstart]
    rfl
  have hedges : w.edges = 1 := by
    unfold w
    rw [hcounted, hswitch, hfirst]
  have hchecked : checked = counted := by
    refine if_neg fun ⟨hmany, _⟩ => ?_
    rw [hedges, hcounted, hmax'] at hmany
    omega
  rw [hchecked, hcounted, hraw]
  exact if_pos (by simp)
/-- No homing runs on an axis that runs nothing. -/
theorem homingOn_idle {a : Nat} {s : State} (h : (axisOf s a).running = false) (i : Nat) : homingOn a i s = none := by
  unfold homingOn
  rw [headEntry_idle h]
  rfl
/-- The state that the comparator has held is the accepted one, and the episode is over. -/
def edgeAccepted (a i : Nat) (s : State) : State := modSwitch a i (fun w => { w with active := rawActive a i s, edges := 0 }) s
/-- The state of an input of an axis that runs nothing is accepted and shown. -/
theorem doSwitchDebounceAccept_idle {a i : Nat} {s : State} (ha : a < 6) (hi : i < 3) (he : (tget {} (axisOf s a).sw i).edges ≠ 0)
    (hr : (axisOf s a).running = false) : doSwitchDebounceAccept a i s = showSwitches a (edgeAccepted a i s) := by
  have hidle : (axisOf (showSwitches a (edgeAccepted a i s)) a).running = false := by
    rw [axisOf_showSwitches, edgeAccepted, modSwitch, axisOf_modAxis, hr]
  unfold doSwitchDebounceAccept
  rw [if_neg (by omega)]
  extract_lets act shown
  have hshown : shown = showSwitches a (edgeAccepted a i s) := rfl
  rw [hshown, homingOn_idle hidle]
/-- MOT_STATUS shows each input as it acts (R313, R322). -/
theorem showSwitches_shows {i : Nat} (hi : i < 3) (a : Nat) (s : State) :
    rdb R.MOT_STATUS (4 + i) (showSwitches a s) a = switchActive a i s := by
  unfold showSwitches
  match i, hi with
  | 0, _ => rw [rdb_wrb (by decide) (by decide)]
  | 1, _ => rw [rdb_wrb_ne (by decide) (by decide) (by decide), rdb_wrb (by decide) (by decide)]
  | 2, _ => rw [rdb_wrb_ne (by decide) (by decide) (by decide), rdb_wrb_ne (by decide) (by decide) (by decide), rdb_wrb (by decide) (by decide)]

/-- Settles O49: the frame by the axes in their order, the rest input by input. -/
theorem motionInputs : Obligations.MotionInputs := by
  refine ⟨?noRails, ?atRest, ?encoder, ?classes, ?edge, ?accept⟩
  case noRails =>
    exact fun s h => congrArg Host.Outcome.next (if_pos (h.imp_right .inl))
  case atRest =>
    intro s hm hr hd hp hdecel hrunout ho hdisc haxes
    have hrests : ∀ a ∈ [0, 1, 2, 3, 4, 5], RestsOnEncoder a s := fun a ha => by
      obtain ⟨hprof, hrun, hlink, hsource, hfollow⟩ := haxes a (by simp only [List.mem_cons, List.not_mem_nil, or_false] at ha; omega)
      exact ⟨hprof, hrun, hlink, hsource, hfollow⟩
    obtain ⟨ws, hlen, hframes, hout⟩ := each_axisFrame_atRest [0, 1, 2, 3, 4, 5] hrests
    have hdose := hframes.dose
    have hctl := hframes.ctl
    have e := doMotionLinkFrame_quiet hm hr hd (by rw [hdose, hdecel]) (by rw [hdose, hrunout]) (by rw [hdose, hp]) (by rw [hctl, ho])
      (by rw [hctl, hdisc])
    match ws, hlen with
    | [w0, w1, w2, w3, w4, w5], _ => exact ⟨_, w0, w1, w2, w3, w4, w5, congrArg Host.Outcome.next e, hframes.mot, hout⟩
  case encoder =>
    refine fun a c ch s ha => ⟨⟨_, congrArg Host.Outcome.next (doEncoderFault_countKept ha ch s), posted .., encoderFaultPosted_mot ..⟩,
      fun h1 h3 hs => ⟨_, congrArg Host.Outcome.next (doEncoderFault_countLost ha h1 h3 hs ch), homed_setHomed a false _, ?_⟩⟩
    exact shows_wr_mot rfl _ a (posted ..)
  case classes =>
    intro a r0 r1 r2 s ha h0 h1 h2
    refine ⟨_, congrArg Host.Outcome.next (if_pos ha), ?_, ?_, ?_⟩
    · exact (raw_classify_ne (j := 0) _ (by decide) (by decide) h2).trans
        ((raw_classify_ne (j := 0) _ (by decide) (by decide) h1).trans (raw_classify_same s (by decide) h0))
    · exact (raw_classify_ne (j := 1) _ (by decide) (by decide) h2).trans (raw_classify_same _ (by decide) h1)
    · exact raw_classify_same _ (by decide) h2
  case edge =>
    intro a i s ha hi he hmax
    have hswitch := switch_firstEdgeTaken a i (rdb R.MOT_CFG (5 + i) s a) s
    exact ⟨_, congrArg Host.Outcome.next (doSwitchRawEdge_inactive ha hi he hmax), by rw [hswitch, he], by rw [hswitch], capture_firstEdgeTaken ..⟩
  case accept =>
    intro a i s ha hi he hr
    have hswitch : tget {} (axisOf (showSwitches a (edgeAccepted a i s)) a).sw i =
        { tget {} (axisOf s a).sw i with active := rawActive a i s, edges := 0 } := switch_modSwitch ..
    exact ⟨_, congrArg Host.Outcome.next (doSwitchDebounceAccept_idle ha hi he hr), by rw [hswitch], by rw [hswitch], showSwitches_shows hi a _⟩

end Sys2Proof.Proofs
end

section
/-! The registers and the data of the cameras: what the operations of the camera block write, and what they leave alone (R326, R328, R330,
R344, R348, R351). -/

namespace Sys2Proof.Proofs
open Sys2Proof Sys2Proof.Machine Sys2Proof.Laws

/-! ### Two rows of registers -/

/-- The address of the last register of a row. -/
def lastAddr (r : RegInfo) : Nat := r.base + r.stride * (r.count - 1)
/-- No register belongs to both rows: one row ends below the other, or both have one stride and stand at different places within it. -/
def rowsDisjoint (q r : RegInfo) : Bool :=
  decide (0 < q.count) && decide (0 < r.count) &&
    (decide (lastAddr q < r.base) || decide (lastAddr r < q.base) || (q.stride == r.stride && q.base % q.stride != r.base % q.stride))

theorem base_le_regAddr (r : RegInfo) (i : Nat) : r.base ≤ regAddr r i := Nat.le_add_right _ _
theorem regAddr_le_lastAddr {r : RegInfo} (h : 0 < r.count) (i : Nat) : regAddr r i ≤ lastAddr r :=
  Nat.add_le_add_left (Nat.mul_le_mul_left _ (Nat.le_pred_of_lt (Nat.mod_lt i h))) _
theorem regAddr_mod_stride (r : RegInfo) (i : Nat) : regAddr r i % r.stride = r.base % r.stride := Nat.add_mul_mod_self_left ..
theorem regAddr_ne_disjoint {q r : RegInfo} (h : rowsDisjoint q r = true) (i j : Nat) : regAddr q j ≠ regAddr r i := by
  simp only [rowsDisjoint, Bool.and_eq_true, Bool.or_eq_true, decide_eq_true_eq, beq_iff_eq, bne_iff_ne] at h
  obtain ⟨⟨hq, hr⟩, (hlt | hlt) | ⟨hstride, hne⟩⟩ := h <;> intro e
  · have := regAddr_le_lastAddr hq j
    have := base_le_regAddr r i
    omega
  · have := regAddr_le_lastAddr hr i
    have := base_le_regAddr q j
    omega
  · have hmod := regAddr_mod_stride q j
    rw [e, hstride, regAddr_mod_stride r i, ← hstride] at hmod
    exact hne hmod.symm
theorem rd_wr_row {q r : RegInfo} (h : rowsDisjoint q r = true) (v : Nat) (s : State) (i j : Nat) : rd q (wr r v s i) j = rd q s j :=
  rd_wr_ne (regAddr_ne_disjoint h i j) v s
theorem rdf_wr_row {q r : RegInfo} (h : rowsDisjoint q r = true) (lo len v : Nat) (s : State) (i j : Nat) :
    rdf q lo len (wr r v s i) j = rdf q lo len s j := rdf_wr_ne (regAddr_ne_disjoint h i j) v lo len s
theorem rdb_wr_row {q r : RegInfo} (h : rowsDisjoint q r = true) (n v : Nat) (s : State) (i j : Nat) :
    rdb q n (wr r v s i) j = rdb q n s j := rdb_wr_ne (regAddr_ne_disjoint h i j) v n s
/-- A bit outside the field that is written reads as before, in the register written and in every other one of its row. -/
theorem rdb_wrf_outside {r : RegInfo} {lo len a : Nat} (h : r.bytes ≤ 8) (k : a + 1 ≤ 8 * r.bytes) (d : a + 1 ≤ lo ∨ lo + len ≤ a)
    (v : Nat) (s : State) (i j : Nat) : rdb r a (wrf r lo len v s i) j = rdb r a s j := by
  by_cases e : regAddr r j = regAddr r i
  · have same : ∀ u, rd r u j = rd r u i := fun u => by
      unfold rd
      rw [e]
    unfold rdb
    rw [same, same]
    exact rdb_wrf_ne h k d v s i
  · exact rdb_wr_ne e _ _ _
theorem bits_lt (lo len v : Nat) : bits lo len v < 2 ^ len := Nat.mod_lt _ (Nat.two_pow_pos len)
theorem rdf_lt (r : RegInfo) (lo len : Nat) (s : State) (i : Nat) : rdf r lo len s i < 2 ^ len := bits_lt ..

/-! ### Registers of block CAM -/

/-- A row of block CAM but for the shadow pages. -/
def camRow (q : RegInfo) : Bool := oneBlock q && q.base / 65536 == 24
/-- A row of block CAM and another row. -/
def camApart (q r : RegInfo) : Bool := camRow q && rowsDisjoint q r

theorem camRow_block {q : RegInfo} (h : camRow q = true) (j : Nat) : regAddr q j / 65536 % 32 = 24 := by
  simp only [camRow, Bool.and_eq_true, beq_iff_eq] at h
  rw [regAddr_block h.1, h.2]
/-- A register of the cameras stands through whatever leaves block CAM alone. -/
theorem rd_cam_keeps {m : Nat} {s t : State} (k : Keeps m s t) (hm : off m 56) {q : RegInfo} (hq : camRow q = true) (j : Nat) :
    rd q t j = rd q s j := rd_keeps k (by rw [camRow_block hq]; exact hm)
theorem rd_cam_postEvent {q : RegInfo} (hq : camRow q = true) (n src sev w1 : Nat) (d : List (Nat × Nat × Int)) (s : State) (j : Nat) :
    rd q (postEvent n src sev w1 d s) j = rd q s j := rd_cam_keeps (postEvent_only n src sev w1 d s) rfl hq j
/-- A counter of a context, and the event that its saturation posts, touch no other row of the cameras. -/
theorem rd_cam_bumpCtx {q r : RegInfo} (h : camApart q r = true) (c n : Nat) (s : State) (j : Nat) :
    rd q (bumpCtx r c n s) j = rd q s j := by
  obtain ⟨hq, hr⟩ := Bool.and_eq_true_iff.1 h
  unfold bumpCtx
  split
  · rfl
  · exact rd_bump (regAddr_ne_disjoint hr c j) (fun u => rd_cam_postEvent hq _ _ _ _ _ u j) s

/-! ### Pending bits -/

/-- A pending bit that shows stays where a register of block CAM is written. -/
theorem shows_wr_cam {r : RegInfo} (h : camRow r = true) {n : Nat} (v : Nat) {s : State} (i : Nat) (x : EventShows n s) :
    EventShows n (wr r v s i) := by
  refine shows_read (rd_wr_ne (fun e => ?_) v s) x
  have hblock : regAddr R.EVT_PENDING (n / 32) / 65536 % 32 = 24 := e ▸ camRow_block h i
  simp only [regAddr, R.EVT_PENDING] at hblock
  omega
/-- A counter of the cameras clears no pending bit. -/
theorem shows_bump_cam {r : RegInfo} (h : camRow r = true) {n k i : Nat} {sat : State → State} (hsat : ∀ u, EventShows n u → EventShows n (sat u))
    {s : State} (x : EventShows n s) : EventShows n (bump r k sat s i) := by
  unfold bump bumpW
  extract_lets v c top
  split
  · exact x
  · split
    · exact hsat _ (shows_wr_cam h _ i x)
    · exact shows_wr_cam h _ i x
theorem shows_bumpCtx {r : RegInfo} (h : camRow r = true) {n : Nat} (hn : n < 256) (c k : Nat) {s : State} (x : EventShows n s) :
    EventShows n (bumpCtx r c k s) := by
  unfold bumpCtx
  split
  · exact x
  · exact shows_bump_cam h (fun u => posted_stays (by decide) hn _ _ _ _) x

/-! ### The data of the cameras -/

@[simp] theorem bumpPort_cam (r : RegInfo) (p n : Nat) (s : State) : (bumpPort r p n s).cam = s.cam := by
  unfold bumpPort
  split
  · rfl
  · exact bump_part State.cam (fun _ _ => rfl) (fun _ => postEvent_cam ..) s
@[simp] theorem bumpCtx_cam (r : RegInfo) (c n : Nat) (s : State) : (bumpCtx r c n s).cam = s.cam := by
  unfold bumpCtx
  split
  · rfl
  · exact bump_part State.cam (fun _ _ => rfl) (fun _ => postEvent_cam ..) s
@[simp] theorem showCam_out (s : State) : (showCam s).out = s.out :=
  (showCam_keeps (m := 72057594037927936) rfl (Keeps.refl _ s)).same_out rfl
theorem shows_showCam {n : Nat} {s : State} (x : EventShows n s) : EventShows n (showCam s) :=
  shows_keeps (showCam_keeps (m := 72057594037927936) rfl (Keeps.refl _ s)) rfl x
@[simp] theorem packetSeen_cam (p errs : Nat) (s : State) : (packetSeen p errs s).cam = s.cam :=
  (packetSeen_keeps (m := 72057594037927936) rfl (Keeps.refl _ s)).same_cam rfl

theorem tget_tmod {α : Type} (d : α) (t : Table α) (k : Nat) (f : α → α) : tget d (tmod d t k f) k = f (tget d t k) := by
  unfold tmod
  rw [tget_tset, if_pos rfl]
theorem camCtx_cam {s t : State} (e : t.cam = s.cam) (c : Nat) : camCtx t c = camCtx s c := by
  unfold camCtx
  rw [e]
theorem camBus_cam {s t : State} (e : t.cam = s.cam) (p : Nat) : camBus t p = camBus s p := by
  unfold camBus
  rw [e]
theorem frameOn_cam {s t : State} (e : t.cam = s.cam) (p v : Nat) : frameOn p v t = frameOn p v s := by
  unfold frameOn
  rw [e]
theorem frameOf_cam {s t : State} (e : t.cam = s.cam) (c : Nat) : frameOf t c = frameOf s c := by
  unfold frameOf
  rw [e]
@[simp] theorem camCtx_modCtx (c : Nat) (f : CamCtx → CamCtx) (s : State) : camCtx (modCtx c f s) c = f (camCtx s c) := tget_tmod ..
@[simp] theorem camBus_modBus (p : Nat) (f : CamBus → CamBus) (s : State) : camBus (modBus p f s) p = f (camBus s p) := tget_tmod ..

/-! ### What runs, and what a context shows (R325, R328, R351) -/

theorem portRuns_lt {p : Nat} {s : State} (h : portRuns p s = true) : p < 4 := by
  simp only [portRuns, Bool.and_eq_true, decide_eq_true_eq] at h
  exact h.1.1.1
theorem rd_packetSeen {q : RegInfo} (h : rowsDisjoint q R.CAM_PORT_STATUS = true) (p errs : Nat) (s : State) (j : Nat) :
    rd q (packetSeen p errs s) j = rd q s j := by
  unfold packetSeen
  extract_lets s1
  split
  · exact rd_wr_row h ..
  · exact (rd_wr_row h ..).trans (rd_wr_row h ..)
/-- Another row than CAM_CTX_STATUS stands where a context shows its queue and its buffers. -/
theorem rd_showCtx {q : RegInfo} (h : rowsDisjoint q R.CAM_CTX_STATUS = true) (c : Nat) (s : State) (j : Nat) :
    rd q (showCtx c s) j = rd q s j := (rd_wr_row h ..).trans (rd_wr_row h ..)
/-- Its fields below and above those stand. -/
theorem rdf_showCtx {a n : Nat} (h : a + n ≤ 4 ∨ 12 ≤ a ∧ a + n ≤ 32) (c : Nat) (s : State) :
    rdf R.CAM_CTX_STATUS a n (showCtx c s) c = rdf R.CAM_CTX_STATUS a n s c := by
  have hfits : a + n ≤ 8 * R.CAM_CTX_STATUS.bytes := by simp only [R.CAM_CTX_STATUS]; omega
  exact (rdf_wrf_ne (by decide) hfits (by omega) _ _ _).trans (rdf_wrf_ne (by decide) hfits (by omega) _ _ _)

end Sys2Proof.Proofs
end

section
/-! Camera frames: Frame Start, line packets, Frame End and its time-out, the pipeline (R325, R328, R331, R334, R338, R340, R347). -/

namespace Sys2Proof.Proofs
open Sys2Proof Sys2Proof.Machine Sys2Proof.Laws

/-! ### Frame Start (R328) -/

/-- A context that takes a free-running frame of port `p` and virtual channel `v`. -/
def takesFree (p v : Nat) (s : State) (c : Nat) : Bool := ctxOn s c && ctxPort s c == p && ctxVc s c == v && rdb R.CAM_CTX_CFG 5 s c

theorem takesFree_iff {p v : Nat} {s : State} {c : Nat} :
    takesFree p v s c = true ↔ ctxOn s c = true ∧ ctxPort s c = p ∧ ctxVc s c = v ∧ rdb R.CAM_CTX_CFG 5 s c = true := by
  simp only [takesFree, Bool.and_eq_true, beq_iff_eq, and_assoc]
/-- It is read from CAM_CTX_CFG alone. -/
theorem takesFree_of_cfg {s t : State} (h : ∀ c, rd R.CAM_CTX_CFG t c = rd R.CAM_CTX_CFG s c) (p v : Nat) : takesFree p v t = takesFree p v s := by
  funext c
  simp only [takesFree, ctxOn, ctxPort, ctxVc, rdb, rdf, h]
/-- Without a pulse the lowest context that takes free-running frames takes the frame. -/
theorem assignFrame_untriggered {p : Nat} {s : State} (h : tget? s.cam.pulses p = none) (v : Nat) :
    assignFrame p v s = ((List.range 16).find? (takesFree p v s)).map (fun c => (c, none)) := by
  unfold assignFrame
  rw [h]
  rfl
theorem applySettings_nothing {c : Nat} {s : State} (hcommit : rdb R.CAM_CTX_COMMIT 0 s c = false) (hqueue : (camCtx s c).queue = []) (n : Nat) :
    applySettings c n s = s := by
  unfold applySettings
  rw [hcommit, hqueue]
  rfl

/-- The port has seen the packet of a Frame Start. -/
def startSeen (p v : Nat) (s : State) : State := packetSeen p 0 (wr R.CAM_PORT_STATUS (rd R.CAM_PORT_STATUS s p ||| 2 ^ (4 + v)) s p)

@[simp] theorem startSeen_cam (p v : Nat) (s : State) : (startSeen p v s).cam = s.cam := packetSeen_cam ..
theorem rd_startSeen {q : RegInfo} (h : rowsDisjoint q R.CAM_PORT_STATUS = true) (p v : Nat) (s : State) (j : Nat) :
    rd q (startSeen p v s) j = rd q s j := (rd_packetSeen h ..).trans (rd_wr_row h ..)
theorem assignFrame_startSeen {p : Nat} {s : State} (h : tget? s.cam.pulses p = none) (v : Nat) :
    assignFrame p v (startSeen p v s) = ((List.range 16).find? (takesFree p v s)).map (fun c => (c, none)) := by
  rw [assignFrame_untriggered (by rw [startSeen_cam, h]), takesFree_of_cfg (fun c => rd_startSeen rfl p v s c)]

/-- The frame of context `c` is counted (R328). -/
def frameCounted (p v c : Nat) (s : State) : State := wr R.CAM_CTX_FRAME ((ctxFrame s c + 1) % 2 ^ 32) (startSeen p v s) c
/-- A frame begins: its context shows it, with no line received. -/
def frameEntered (f : CamFrame) (s : State) : State :=
  wrf R.CAM_CTX_STATUS 16 16 0 (wrf R.CAM_CTX_STATUS 0 2 2 (modCam (fun m => { m with frames := m.frames ++ [f] }) s) f.context) f.context

theorem rd_frameCounted {q : RegInfo} (h : rowsDisjoint q R.CAM_PORT_STATUS = true) (h' : rowsDisjoint q R.CAM_CTX_FRAME = true) (p v c : Nat)
    (s : State) (j : Nat) : rd q (frameCounted p v c s) j = rd q s j := (rd_wr_row h' ..).trans (rd_startSeen h ..)
theorem ctxFrame_frameCounted (p v c : Nat) (s : State) : ctxFrame (frameCounted p v c s) c = (ctxFrame s c + 1) % 2 ^ 32 :=
  (rd_wr (by decide) _ _ c).trans (Nat.mod_mod _ _)
/-- The frame's context is in use: a frame is in progress. -/
theorem ctxState_frameEntered (f : CamFrame) (s : State) : rdf R.CAM_CTX_STATUS 0 2 (frameEntered f s) f.context = 2 :=
  (rdf_wrf_ne (by decide) (by decide) (.inl (by decide)) _ _ _).trans (rdf_wrf_fits (by decide) (by decide) (by decide) _ _)

section Start
variable {p v : Nat} {s : State} (hrun : portRuns p s = true) (hv : v < 4) (hidle : frameOn p v s = none) (hpulse : tget? s.cam.pulses p = none)
include hrun hv hidle hpulse

theorem doCsiFrameStart_unassigned (h : (List.range 16).find? (takesFree p v s) = none) :
    doCsiFrameStart p v s = bumpPort R.CAM_PORT_UNASSIGNED p 1 (postEvent (147 + 4 * p) 0xFF 1 0xFFFFFFFF [(0, 1, 0x40), (1, 1, (v : Nat)), (2, 2, 1)]
      (startSeen p v s)) := by
  have hassign := assignFrame_startSeen hpulse v
  rw [h] at hassign
  unfold doCsiFrameStart
  rw [if_neg (by simp [hrun, Nat.le_of_lt_succ hv])]
  extract_lets s1 s2
  have hs2 : s2 = startSeen p v s := by
    unfold s2
    rw [show frameOn p v s1 = none from (frameOn_cam (startSeen_cam p v s) p v).trans hidle]
    rfl
  rw [hs2, hassign]
  rfl
/-- The frame of the context that takes it: what it holds, and what the registers of the cameras then read. -/
theorem doCsiFrameStart_free {c : Nat} (h : (List.range 16).find? (takesFree p v s) = some c) (hcommit : rdb R.CAM_CTX_COMMIT 0 s c = false)
    (hqueue : (camCtx s c).queue = []) :
    ∃ f u, doCsiFrameStart p v s = frameEntered f u ∧ u.cam.frames = s.cam.frames ∧
      (∀ q j, camApart q R.CAM_CTX_MAPS_DROPPED = true → rd q u j = rd q (frameCounted p v c s) j) ∧
      f.context = c ∧ f.port = p ∧ f.vc = v ∧ f.number = (ctxFrame s c + 1) % 2 ^ 32 ∧ f.triggered = false ∧ f.page = (camCtx s c).active ∧
      f.width = rdf R.CAM_CTX_SIZE 0 14 u c ∧ f.height = rdf R.CAM_CTX_SIZE 16 14 u c ∧ f.received = 0 ∧ f.ended = false := by
  have hassign := assignFrame_startSeen hpulse v
  rw [h] at hassign
  have hsettings : applySettings c ((ctxFrame s c + 1) % 2 ^ 32) (frameCounted p v c s) = frameCounted p v c s :=
    applySettings_nothing (by rw [← hcommit]; exact congrArg (bit 0) (rd_frameCounted rfl rfl ..)) (by
      rw [← hqueue]; exact congrArg CamCtx.queue (camCtx_cam (startSeen_cam p v s) c)) _
  have hcount : ctxFrame (startSeen p v s) c = ctxFrame s c := rd_startSeen rfl ..
  unfold doCsiFrameStart
  rw [if_neg (by simp [hrun, Nat.le_of_lt_succ hv])]
  extract_lets s1 s2
  have hs2 : s2 = startSeen p v s := by
    unfold s2
    rw [show frameOn p v s1 = none from (frameOn_cam (startSeen_cam p v s) p v).trans hidle]
    rfl
  rw [hs2, hassign]
  dsimp -zeta only [Option.map_some]
  extract_lets s3 n s4 page mid wants x s5 buffer s6 f
  have hn : n = (ctxFrame s c + 1) % 2 ^ 32 := congrArg (fun m => (m + 1) % 2 ^ 32) hcount
  have hs4 : s4 = frameCounted p v c s := by
    unfold s4
    rw [hn]
    exact hsettings
  have hcam5 : s5.cam.frames = s.cam.frames := by
    unfold s5
    rw [hs4]
    show (startSeen p v s).cam.frames = _
    rw [startSeen_cam]
  have hs6 : s6.cam = s5.cam ∧ ∀ q j, camApart q R.CAM_CTX_MAPS_DROPPED = true → rd q s6 j = rd q s4 j := by
    unfold s6
    split
    · exact ⟨(bumpCtx_cam ..).trans (postEvent_cam ..), fun q j hq =>
        (rd_cam_bumpCtx hq ..).trans (rd_cam_postEvent (Bool.and_eq_true_iff.1 hq).1 ..)⟩
    · exact ⟨rfl, fun _ _ _ => rfl⟩
  have hpage : page = (camCtx s c).active := by
    unfold page
    rw [hs4]
    exact congrArg CamCtx.active (camCtx_cam (startSeen_cam p v s) c)
  exact ⟨f, s6, rfl, hs6.1 ▸ hcam5, hs4 ▸ hs6.2, rfl, rfl, rfl, hn, rfl, hpage, rfl, rfl, rfl, rfl⟩

end Start
/-! ### Line packets (R331, R347) -/

/-- The next line of frame `f` has come: CAM_CTX_STATUS counts it. -/
def lineReceived (f : CamFrame) (s : State) : State :=
  wrf R.CAM_CTX_STATUS 16 16 (f.received + 1) (modFrameOf f.context f.number (fun g => { g with received := f.received + 1 }) s) f.context
/-- It is valid, and waits for the pipeline. -/
def lineCounted (f : CamFrame) (s : State) : State :=
  modFrameOf f.context f.number (fun g =>
    { g with waiting := g.waiting + 1, validCount := g.validCount + 1, firstValid := some (g.firstValid.getD f.received) }) (lineReceived f s)
/-- The first valid line of a frame holds the frame's map buffer (R344). -/
def mapBufferHeld (f : CamFrame) (s : State) : State :=
  match f.buffer with
  | some i => if f.firstValid.isNone then
      showCtx f.context (modCtx f.context (fun x => { x with heldThe := i :: x.heldThe.filter (· != i) }) (lineCounted f s)) else lineCounted f s
  | none => lineCounted f s
/-- The line joins the port's buffer. -/
def lineBuffered (l : CsiLine) (f : CamFrame) (s : State) : State :=
  modCam (fun m => { m with buffers := tmod [] m.buffers l.port (fun b => b ++
    [{ context := f.context, frame := f.number, line := f.received, bytes := l.bytes, samples := l.samples }]) }) (mapBufferHeld f s)

theorem bufferedBytes_cam {s t : State} (e : t.cam.buffers = s.cam.buffers) (p : Nat) : bufferedBytes p t = bufferedBytes p s := by
  unfold bufferedBytes
  rw [e]

/-- A line without error, of its frame's length, that the buffer has room for. -/
theorem doCsiLinePacket_good {l : CsiLine} {f : CamFrame} {s : State} (hrun : portRuns l.port s = true) (hraw : rawType l.dataType = true)
    (hon : frameOn l.port l.vc s = some f) (herr : l.errors = 0)
    (hlen : l.bytes = f.width * rawBits (rdf R.CAM_CTX_CFG 6 6 s f.context) / 8)
    (hroom : f.received < f.height → bufferedBytes l.port s + l.bytes ≤ 2 ^ 20) :
    doCsiLinePacket l s = if f.received ≥ f.height then bumpCtx R.CAM_CTX_EXTRA_LINES f.context 1
        (modFrameOf f.context f.number (fun g => { g with extra := g.extra + 1 }) (packetSeen l.port 0 s))
      else lineBuffered l f (packetSeen l.port 0 s) := by
  unfold doCsiLinePacket
  extract_lets p errs s1 found wrong bitsOf s2
  have herrs : errs = 0 := by simp [errs, herr]
  have hs1 : s1 = packetSeen l.port 0 s := congrArg (packetSeen p · s) herrs
  have hfound : found = some f := by
    unfold found
    rw [hs1]
    exact (frameOn_cam (packetSeen_cam ..) ..).trans hon
  have hwrong : wrong f = false := by
    have hcfg : rdf R.CAM_CTX_CFG 6 6 s1 f.context = rdf R.CAM_CTX_CFG 6 6 s f.context := congrArg (bits 6 6) (rd_packetSeen rfl ..)
    simp only [wrong, hcfg, bne_eq_false_iff_eq]
    exact hlen
  have hbits : bitsOf = 0 := by simp only [bitsOf, hfound, hwrong, herrs, Bool.and_false, Bool.false_eq_true, if_false, Nat.add_zero]
  have hs2 : s2 = packetSeen l.port 0 s := (if_neg (by simp [hbits])).trans hs1
  rw [if_neg (by simp [p, hrun]), if_neg (by simp [hraw]), hfound, hs2]
  dsimp -zeta only
  extract_lets c s3 y s4 sOver s5 s6
  have hs3 : s3 = packetSeen l.port 0 s := if_neg (by simp [hbits])
  rw [if_neg (by rw [herrs]; decide), hs3]
  by_cases hfull : f.received ≥ f.height
  · rw [if_pos hfull, if_pos hfull]
  · rw [if_neg hfull, if_neg hfull]
    have hbytes : bufferedBytes p s4 = bufferedBytes p s := by
      unfold s4
      rw [hs3]
      exact bufferedBytes_cam (congrArg CamState.buffers (packetSeen_cam ..)) p
    have hfits : bufferedBytes p s + l.bytes ≤ 2 ^ 20 := hroom (by omega)
    rw [if_neg (by rw [herrs, hwrong]; decide), if_neg (by rw [hbytes]; omega)]
    unfold s6 s5 s4
    rw [hs3]
    rfl

theorem frameOn_frames {s t : State} (e : t.cam.frames = s.cam.frames) (p v : Nat) : frameOn p v t = frameOn p v s := by
  unfold frameOn
  rw [e]
/-- What a change of the frame of context `c` with number `n` makes of a frame. -/
def changedFrame (c n : Nat) (g : CamFrame → CamFrame) (x : CamFrame) : CamFrame := if x.context = c ∧ x.number = n then g x else x
/-- A change that leaves a frame its port, its virtual channel and its progress leaves the frame of a port the one it is. -/
theorem frameOn_modFrameOf {g : CamFrame → CamFrame} (hg : ∀ x, (g x).port = x.port ∧ (g x).vc = x.vc ∧ (g x).ended = x.ended) {p v : Nat}
    {f : CamFrame} {s : State} (h : frameOn p v s = some f) : frameOn p v (modFrameOf f.context f.number g s) = some (g f) := by
  have hsame : (fun x : CamFrame => x.port == p && x.vc == v && !x.ended) ∘ changedFrame f.context f.number g =
      fun x => x.port == p && x.vc == v && !x.ended := by
    funext x
    obtain ⟨hport, hvc, hended⟩ := hg x
    simp only [Function.comp, changedFrame]
    split
    · rw [hport, hvc, hended]
    · rfl
  calc frameOn p v (modFrameOf f.context f.number g s)
    _ = (s.cam.frames.map (changedFrame f.context f.number g)).find? (fun x => x.port == p && x.vc == v && !x.ended) := rfl
    _ = (frameOn p v s).map (changedFrame f.context f.number g) := by
        rw [List.find?_map, hsame]
        rfl
    _ = some (g f) := by
        rw [h]
        exact congrArg some (if_pos ⟨rfl, rfl⟩)

theorem frames_mapBufferHeld (f : CamFrame) (s : State) : (mapBufferHeld f s).cam.frames = (lineCounted f s).cam.frames := by
  unfold mapBufferHeld
  split
  · split <;> rfl
  · rfl
theorem buffers_mapBufferHeld (f : CamFrame) (s : State) : (mapBufferHeld f s).cam.buffers = s.cam.buffers := by
  unfold mapBufferHeld
  split
  · split <;> rfl
  · rfl
theorem lines_mapBufferHeld (f : CamFrame) (s : State) :
    rdf R.CAM_CTX_STATUS 16 16 (mapBufferHeld f s) f.context = (f.received + 1) % 2 ^ 16 := by
  have hcount : rdf R.CAM_CTX_STATUS 16 16 (lineCounted f s) f.context = (f.received + 1) % 2 ^ 16 := rdf_wrf (by decide) (by decide) _ _ _
  unfold mapBufferHeld
  split
  · split
    · exact (rdf_showCtx (by decide) _ _).trans hcount
    · exact hcount
  · exact hcount
theorem buffers_lineBuffered (l : CsiLine) (f : CamFrame) (s : State) : tget [] (lineBuffered l f s).cam.buffers l.port =
    tget [] s.cam.buffers l.port ++ [{ context := f.context, frame := f.number, line := f.received, bytes := l.bytes, samples := l.samples }] := by
  rw [← buffers_mapBufferHeld f s]
  exact tget_tmod [] _ _ (fun b : List BufLine => b ++ [_])
theorem frameOn_lineBuffered {l : CsiLine} {f : CamFrame} {s : State} (h : frameOn l.port l.vc s = some f) :
    frameOn l.port l.vc (lineBuffered l f s) = some { f with
      received := f.received + 1, waiting := f.waiting + 1, validCount := f.validCount + 1, firstValid := some (f.firstValid.getD f.received) } := by
  have hreceived : frameOn l.port l.vc (lineReceived f s) = some { f with received := f.received + 1 } :=
    frameOn_modFrameOf (g := fun g => { g with received := f.received + 1 }) (fun _ => ⟨rfl, rfl, rfl⟩) h
  have hcounted := frameOn_modFrameOf (g := fun g =>
    { g with waiting := g.waiting + 1, validCount := g.validCount + 1, firstValid := some (g.firstValid.getD f.received) })
    (fun _ => ⟨rfl, rfl, rfl⟩) hreceived
  exact (frameOn_frames (frames_mapBufferHeld f s) ..).trans hcounted

/-! ### Frame End and its time-out (R331) -/

theorem issueDue_empty {c : Nat} {s : State} (h : (camCtx s c).queue = []) : issueDue c s = s := by
  unfold issueDue
  rw [h]
  rfl
/-- Nothing is finished while every frame is in progress or has lines in a buffer. -/
theorem finishReady_nothing {s : State} (h : ∀ f ∈ s.cam.frames, f.ended = false ∨ f.waiting ≠ 0) (force : Option Nat) :
    finishReady force s = s := by
  have hnone : s.cam.frames.filter (fun f => f.ended && f.waiting == 0 && (positionsKnown f s || force == some f.context)) = [] := by
    refine List.filter_eq_nil_iff.2 fun f hf => ?_
    rcases h f hf with he | hw
    · simp [he]
    · simp [hw]
  unfold finishReady
  rw [hnone]
  rfl

/-- The frame with its marks. -/
def frameEnded (f : CamFrame) (cause : Nat) (s : State) : CamFrame :=
  { f with ended := true, isShort := cause != 0, isLong := f.extra != 0, doubt := f.doubt || rdb R.CAM_CTX_STATUS 3 s f.context }

theorem frameEnded_notLong {f : CamFrame} (h : f.extra = 0) (cause : Nat) (s : State) : frameEnded f cause s =
    { f with ended := true, isShort := cause != 0, isLong := false, doubt := f.doubt || rdb R.CAM_CTX_STATUS 3 s f.context } := by
  unfold frameEnded
  rw [h]
  rfl
theorem endCamFrame_alone {f : CamFrame} {s : State} (hframes : s.cam.frames = [f]) (hwait : f.waiting ≠ 0) (hextra : f.extra = 0)
    (herr : f.errBits = 0) (hqueue : (camCtx s f.context).queue = []) (hport : f.port < 4) (cause : Nat) :
    (endCamFrame f cause s).cam.frames = [frameEnded f cause s] ∧
      (cause ≠ 0 → EventShows (145 + 4 * f.port) (endCamFrame f cause s)) ∧
      (cause = 0 → ctxEvents s f.context = true → EventShows (144 + 4 * f.port) (endCamFrame f cause s)) := by
  unfold endCamFrame
  extract_lets c isShort isLong f' s1 s2 s3 s4 s5 s6 s7
  have hframes1 : s1.cam.frames = [frameEnded f cause s] := by
    show s.cam.frames.map _ = _
    rw [hframes]
    exact congrArg (fun x => [x]) (if_pos ⟨rfl, rfl⟩)
  have hcam3 : s3.cam = s1.cam := by
    unfold s3
    split
    · exact postEvent_cam ..
    · rfl
  have hcam4 : s4.cam = s3.cam := by
    unfold s4
    split
    · exact (bumpCtx_cam ..).trans (postEvent_cam ..)
    · rfl
  have hs5 : s5 = s4 := if_neg (by simp [isLong, hextra])
  have hcam6 : s6.cam = s5.cam := by
    unfold s6
    split
    · exact postEvent_cam ..
    · rfl
  have hs7 : s7 = s6 := if_neg (not_not_intro herr)
  have hcam7 : s7.cam = s1.cam := by rw [hs7, hcam6, hs5, hcam4, hcam3]
  have hdone : finishReady none (issueDue c s7) = s7 := by
    rw [issueDue_empty (by rw [camCtx_cam hcam7]; exact hqueue)]
    refine finishReady_nothing (fun g hg => .inr ?_) none
    rw [hcam7, hframes1, List.mem_singleton] at hg
    rw [hg]
    exact hwait
  have hstays : ∀ n < 256, EventShows n s4 → EventShows n s7 := fun n hn x => by
    rw [hs7]
    unfold s6
    rw [hs5]
    split
    · exact posted_stays (by decide) hn _ _ _ _ x
    · exact x
  rw [hdone]
  refine ⟨by rw [hcam7, hframes1], fun hshort => hstays _ (by omega) ?_, fun hgood hevents => hstays _ (by omega) ?_⟩
  · unfold s4
    rw [if_pos (by simp [isShort, hshort])]
    exact shows_bumpCtx rfl (by omega) _ _ (posted ..)
  · have hevents2 : ctxEvents s2 c = true := (rdb_wr_row rfl ..).trans hevents
    unfold s4
    rw [if_neg (by simp [isShort, hgood])]
    unfold s3
    rw [if_pos hevents2]
    exact posted ..

theorem doCsiFrameEnd_inProgress {p v : Nat} {f : CamFrame} {s : State} (hrun : portRuns p s = true) (hon : frameOn p v s = some f) :
    doCsiFrameEnd p v s = endCamFrame f (endCause f) s := by
  unfold doCsiFrameEnd
  rw [hon]
  exact if_pos hrun
theorem endCause_short {f : CamFrame} (h : f.received < f.height) : endCause f = 1 := if_pos h
theorem endCause_whole {f : CamFrame} (h : f.received = f.height) (hoverrun : f.overrun = 0) (hinvalid : f.invalid = 0) : endCause f = 0 := by
  unfold endCause
  rw [if_neg (by omega), if_neg (not_not_intro hoverrun), if_neg (not_not_intro hinvalid)]

/-! ### The pipeline (R338, R347) -/

/-- The only element of a list that passes a test is found. -/
theorem find?_of_unique {α : Type} {l : List α} {test : α → Bool} {a : α} (ha : a ∈ l) (htest : test a = true)
    (hunique : ∀ b ∈ l, test b = true → b = a) : l.find? test = some a := by
  obtain ⟨b, hb⟩ := Option.isSome_iff_exists.1 (List.find?_isSome.2 ⟨a, ha, htest⟩)
  rw [hb, hunique b (List.mem_of_find?_eq_some hb) (List.find?_some hb)]
theorem defectList_empty {page : Table Nat} (h : pageN page 0x10 2 = 0) (s : State) : defectList page s = ([], s) := by
  unfold defectList
  rw [h]
  rfl
/-- The line has left the buffer of port `p`, which is the port served last. -/
def lineTaken (p : Nat) (rest : List BufLine) (s : State) : State := modCam (fun m => { m with buffers := tset m.buffers p rest, lastPort := p }) s

/-- A frame with the pixels of the line that stages 1 and 2 have done. -/
def linePassed (b : BufLine) (pixels : List Nat) (g : CamFrame) : CamFrame :=
  { g with waiting := g.waiting - 1, lines := tset g.lines b.line pixels }

theorem doCamLineProcess_next {p : Nat} {b : BufLine} {rest : List BufLine} {f : CamFrame} {s : State} (hp : p < 4) (hlast : s.cam.lastPort < 4)
    (hbuffer : tget [] s.cam.buffers p = b :: rest) (hothers : ∀ q < 4, q ≠ p → tget [] s.cam.buffers q = [])
    (hfind : findFrame b.context b.frame s = some f) (hdefects : pageN f.page 0x10 2 = 0) :
    doCamLineProcess 0 s = finishReady none (modFrameOf b.context b.frame
      (linePassed b (stageBlack f.page (rawBits (rdf R.CAM_CTX_CFG 6 6 s b.context)) b.line [] b.samples)) (lineTaken p rest s)) := by
  have hnext : ((List.range 4).map (fun i => (s.cam.lastPort + 1 + i) % 4)).find? (fun p => tget [] s.cam.buffers p != []) = some p := by
    refine find?_of_unique (List.mem_map.2 ⟨(p + 3 - s.cam.lastPort) % 4, List.mem_range.2 (Nat.mod_lt _ (by decide)), by omega⟩)
      (by rw [hbuffer]; rfl) fun q hq hne => ?_
    obtain ⟨i, -, rfl⟩ := List.mem_map.1 hq
    refine Decidable.byContradiction fun hother => ?_
    rw [hothers _ (Nat.mod_lt _ (by decide)) hother] at hne
    exact Bool.false_ne_true hne
  unfold doCamLineProcess
  extract_lets order
  rw [hnext]
  dsimp -zeta only
  rw [hbuffer]
  dsimp -zeta only
  extract_lets s1 s2
  have hs2 : s2 = lineTaken p rest s := if_pos rfl
  have hfind' : findFrame b.context b.frame (lineTaken p rest s) = some f := hfind
  rw [hs2, hfind']
  dsimp only
  rw [if_neg (by decide), defectList_empty hdefects]
  rfl

theorem temporalLines_off {f : CamFrame} (h : pageFlag f.page 1 = false) (planes : Table (List Nat)) (s : State) :
    temporalLines f planes s = (planes, s) := by
  unfold temporalLines
  rw [h]
  rfl
theorem uploads_cam (n : Nat) (l : List (List Byte)) (s : State) : (each l (uploadRecord n) s).cam = s.cam :=
  (each_keeps (m := 25769803828) (Keeps.refl _ s) fun _ _ h => uploadRecord_keeps rfl h).same_cam rfl
/-- Frame `f` has left the list of frames. -/
def frameRemoved (f : CamFrame) (s : State) : State :=
  modCam (fun m => { m with frames := m.frames.filter (fun x => !(x.context == f.context && x.number == f.number)) }) s
/-- A frame without a map buffer or a temporal stage ends with nothing but its uploads. -/
theorem finishFrame_noMap {f : CamFrame} (hbuffer : f.buffer = none) (htemporal : pageFlag f.page 1 = false) (s : State) :
    (finishFrame f s).cam = (frameRemoved f s).cam := by
  unfold finishFrame
  simp only [temporalLines_off htemporal, hbuffer]
  split
  · exact uploads_cam ..
  · rfl

theorem doCsiFrameStart_stopped {p : Nat} {s : State} (h : portRuns p s = false) (v : Nat) : doCsiFrameStart p v s = s :=
  if_pos (.inl (by rw [h]; rfl))
theorem doCsiFrameEnd_stopped {p : Nat} {s : State} (h : portRuns p s = false) (v : Nat) : doCsiFrameEnd p v s = s := by
  unfold doCsiFrameEnd
  split
  · exact if_neg (by simp [h])
  · rfl
theorem doCsiLinePacket_stopped {l : CsiLine} {s : State} (h : portRuns l.port s = false) : doCsiLinePacket l s = s :=
  if_pos (by rw [h]; rfl)
/-- A line of a type that the module does not take, and may not pass over either (R324). -/
theorem doCsiLinePacket_otherType {l : CsiLine} {s : State} (hrun : portRuns l.port s = true) (htype : l.dataType < 0x2A)
    (hother : l.dataType ∉ [2, 3, 0x12]) : doCsiLinePacket l s = bumpPort R.CAM_PORT_ERRORS l.port 1 s := by
  simp only [List.mem_cons, List.not_mem_nil, or_false, not_or] at hother
  have hraw : rawType l.dataType = false := decide_eq_false (by omega)
  unfold doCsiLinePacket
  rw [if_neg (by simp [hrun]), if_pos (by simp [hraw]), if_neg (by omega)]

/-- Settles O50: a frame by its commands, from its start to its end in the pipeline. -/
theorem cameraFrames : Obligations.CameraFrames := by
  refine ⟨?stopped, ?free, ?unassigned, ?good, ?extra, ?other, ?frameEnd, ?timeout, ?pipeline, ?finished⟩
  case stopped =>
    exact fun p v l s h => ⟨congrArg Host.Outcome.next (doCsiFrameStart_stopped h v), congrArg Host.Outcome.next (doCsiFrameEnd_stopped h v),
      fun hl => congrArg Host.Outcome.next (doCsiLinePacket_stopped (hl ▸ h))⟩
  case free =>
    intro p v c s hrun hv hc hidle hpulse hon hport hvc hfree hlowest hcommit hqueue
    have hfind : (List.range 16).find? (takesFree p v s) = some c := List.find?_range_eq_some.2
      ⟨takesFree_iff.2 ⟨hon, hport, hvc, hfree⟩, List.mem_range.2 hc, fun d hd => by
        rw [Bool.not_eq_true', Bool.eq_false_iff, Ne, takesFree_iff]
        exact hlowest d hd⟩
    obtain ⟨f, u, e, hframes, hread, hcontext, hfport, hfvc, hnumber, htrig, hpage, hwidth, hheight, hreceived, hended⟩ :=
      doCsiFrameStart_free hrun hv hidle hpulse hfind hcommit hqueue
    have hsize : rd R.CAM_CTX_SIZE u c = rd R.CAM_CTX_SIZE s c := (hread _ c rfl).trans (rd_frameCounted rfl rfl ..)
    refine ⟨_, f, congrArg Host.Outcome.next e, ?_, hcontext, hfport, hfvc, hnumber, htrig, hpage,
      hwidth.trans (congrArg (bits 0 14) hsize), hheight.trans (congrArg (bits 16 14) hsize), hreceived, hended, ?_, ?_⟩
    · rw [← hframes]
      rfl
    · calc ctxFrame (frameEntered f u) c
        _ = ctxFrame u c := (rd_wr_row rfl ..).trans (rd_wr_row rfl ..)
        _ = ctxFrame (frameCounted p v c s) c := hread _ c rfl
        _ = (ctxFrame s c + 1) % 2 ^ 32 := ctxFrame_frameCounted ..
    · exact hcontext ▸ ctxState_frameEntered f u
  case unassigned =>
    intro p v s hrun hv hidle hpulse hnone
    have hfind : (List.range 16).find? (takesFree p v s) = none := List.find?_eq_none.2 fun d hd htakes =>
      hnone d (List.mem_range.1 hd) (takesFree_iff.1 htakes)
    have hp := portRuns_lt hrun
    exact ⟨_, congrArg Host.Outcome.next (doCsiFrameStart_unassigned hrun hv hidle hpulse hfind), posted ..,
      (postEvent_cam ..).trans (startSeen_cam ..)⟩
  case good =>
    intro l f s hrun hraw hon herr hmore hlen hroom
    have e := (doCsiLinePacket_good hrun hraw hon herr hlen fun _ => hroom).trans (if_neg (by omega))
    refine ⟨_, congrArg Host.Outcome.next e, ?_, ⟨_, frameOn_lineBuffered ?_, rfl, rfl, rfl, rfl⟩, lines_mapBufferHeld ..⟩
    · rw [buffers_lineBuffered, packetSeen_cam]
    · exact (frameOn_cam (packetSeen_cam ..) ..).trans hon
  case extra =>
    exact fun l f s hrun hraw hon herr hfull hlen => congrArg Host.Outcome.next
      ((doCsiLinePacket_good hrun hraw hon herr hlen fun h => absurd hfull (by omega)).trans (if_pos hfull))
  case other => exact fun l s hrun htype hother => congrArg Host.Outcome.next (doCsiLinePacket_otherType hrun htype hother)
  case frameEnd =>
    intro p v f s hrun hframes hended hport hvc hwait hextra herr hqueue
    have hp := portRuns_lt hrun
    have hon : frameOn p v s = some f := by simp [frameOn, hframes, hport, hvc, hended]
    have hdo := doCsiFrameEnd_inProgress hrun hon
    obtain ⟨hlist, hshort, hgood⟩ := endCamFrame_alone hframes hwait hextra herr hqueue (hport ▸ hp) (endCause f)
    rw [← hdo, hport] at hshort hgood
    rw [← hdo] at hlist
    refine ⟨fun hless => ⟨_, rfl, ?_, hshort ?_⟩, fun hall hoverrun hinvalid => ⟨_, rfl, ?_, hgood ?_⟩⟩
    · rw [hlist, endCause_short hless, frameEnded_notLong hextra]
      rfl
    · rw [endCause_short hless]
      decide
    · rw [hlist, endCause_whole hall hoverrun hinvalid, frameEnded_notLong hextra]
      rfl
    · exact endCause_whole hall hoverrun hinvalid
  case timeout =>
    intro c f s hport hframes hended hcontext hwait hextra herr hqueue
    subst hcontext
    have hdo : doCamFrameTimeout f.context s = endCamFrame f 5 s := by
      have hof : frameOf s f.context = some f := by simp [frameOf, hframes, hended]
      unfold doCamFrameTimeout
      rw [hof]
    obtain ⟨hlist, hshort, -⟩ := endCamFrame_alone hframes hwait hextra herr hqueue hport 5
    refine ⟨_, congrArg Host.Outcome.next hdo, ?_, hshort (by decide)⟩
    rw [hlist, frameEnded_notLong hextra]
    rfl
  case pipeline =>
    intro p b rest f s hp hlast hbuffer hothers hframes hcontext hnumber hended hdefects
    have hfind : findFrame b.context b.frame s = some f := by simp [findFrame, hframes, hcontext, hnumber]
    have hlist : ∀ pixels, (modFrameOf b.context b.frame (linePassed b pixels) (lineTaken p rest s)).cam.frames =
        [linePassed b pixels f] := fun pixels => by
      show s.cam.frames.map _ = _
      rw [hframes]
      exact congrArg (fun x => [x]) (if_pos ⟨hcontext, hnumber⟩)
    have hdo := (doCamLineProcess_next hp hlast hbuffer hothers hfind hdefects).trans (finishReady_nothing (fun g hg => .inl (by
      rw [hlist, List.mem_singleton] at hg
      rw [hg]
      exact hended)) none)
    refine ⟨_, congrArg Host.Outcome.next hdo, ?_, rfl, hlist _, rfl, rfl⟩
    show tget [] (tset s.cam.buffers p rest) p = rest
    rw [tget_tset, if_pos rfl]
  case finished =>
    intro c f s hframes hcontext hended hwait hbuffer htemporal
    have hdo : doPositionWaitTimeout c s = finishFrame f s := by
      unfold doPositionWaitTimeout finishReady
      extract_lets due
      have hdue : due = [f] := by simp [due, hframes, hended, hwait, hcontext]
      rw [hdue]
      rfl
    have hcam := finishFrame_noMap hbuffer htemporal s
    refine ⟨_, congrArg Host.Outcome.next hdo, ?_, by rw [hcam]; rfl⟩
    rw [hcam]
    simp [frameRemoved, hframes]

end Sys2Proof.Proofs
end

section
/-! Triggers, control buses, contexts, map buffers and power outputs of the cameras (R326, R327, R329, R330, R332, R339, R344). -/

namespace Sys2Proof.Proofs
open Sys2Proof Sys2Proof.Machine Sys2Proof.Laws

/-! ### Bits of fields and masks -/

theorem bit_eq_testBit (n v : Nat) : bit n v = v.testBit n := by
  rw [Nat.testBit_eq_decide_div_mod_eq]
  rfl
theorem bit_bits {n len : Nat} (h : n < len) (lo v : Nat) : bit n (bits lo len v) = bit (lo + n) v := by
  simp only [bit_eq_testBit, bits, Nat.testBit_mod_two_pow, Nat.testBit_div_two_pow, h, decide_true, Bool.true_and, Nat.add_comm]
theorem bit_and (n a b : Nat) : bit n (a &&& b) = (bit n a && bit n b) := by simp only [bit_eq_testBit, Nat.testBit_and]
theorem bit_maskOf (n : Nat) (l : List Nat) : bit n (maskOf l) = l.contains n := by
  induction l with
  | nil => simp [bit_eq_testBit, maskOf]
  | cons a l ih =>
    rw [bit_eq_testBit] at ih ⊢
    rw [maskOf, Nat.testBit_or, ih, Nat.testBit_two_pow, List.contains_cons, Bool.or_comm]
    congr 1
    exact decide_eq_decide.2 eq_comm
theorem bit_complement : ∀ v < 16, ∀ n < 4, bit n (15 - v) = !bit n v := by decide
/-- A bit of a register is a bit of the field that holds it. -/
theorem rdb_eq_bit_rdf (r : RegInfo) {n len : Nat} (h : n < len) (lo : Nat) (s : State) (i : Nat) :
    rdb r (lo + n) s i = bit n (rdf r lo len s i) := (bit_bits h lo _).symm

/-! ### Triggers (R330) -/

theorem trigOut_drives {p : Nat} {s : State} (h : rdb R.PIN_FAULT (18 + p) s = false) (start : Bool) :
    trigOut p start s = emit (.triggerPulse p start (start != rdb R.CAM_TRIG_CFG 0 s p)) s := by
  unfold trigOut
  rw [h]
  rfl
theorem trigOut_faulted {p : Nat} {s : State} (h : rdb R.PIN_FAULT (18 + p) s = true) (start : Bool) : trigOut p start s = s := by
  unfold trigOut
  rw [h]
  rfl
theorem rd_of_regs {s t : State} (e : t.regs = s.regs) (r : RegInfo) (i : Nat) : rd r t i = rd r s i := by
  unfold rd
  rw [e]
theorem trigOut_regs (p : Nat) (start : Bool) (s : State) : (trigOut p start s).regs = s.regs := by
  unfold trigOut sif
  split <;> rfl
theorem trigOut_time (p : Nat) (start : Bool) (s : State) : (trigOut p start s).time = s.time := by
  unfold trigOut sif
  split <;> rfl
theorem ttNow_lt (s : State) : ttNow s < 2 ^ 64 := by
  unfold ttNow
  omega
theorem camPulse_stopped {p : Nat} {s : State} (h : portRuns p s = false) (c : Nat) : camPulse p c s = s := by
  unfold camPulse
  rw [h]
  rfl
theorem camPulse_dropped {p : Nat} {s : State} {x : Pulse} (hrun : portRuns p s = true) (hx : tget? s.cam.pulses p = some x)
    (hrunning : x.running = true) (c : Nat) : camPulse p c s = bumpPort R.CAM_TRIG_DROPS p 1 s := by
  unfold camPulse
  rw [hrun, hx]
  exact if_pos hrunning
theorem camPulse_idle {p : Nat} {s : State} (hrun : portRuns p s = true) (hx : tget? s.cam.pulses p = none) (c : Nat) :
    camPulse p c s = camPulse.go p c s := by
  unfold camPulse
  rw [hrun, hx]
  rfl
/-- A pulse starts: its context and time are kept, its TT shows, and the output is driven unless it is faulted. -/
theorem pulse_starts (p c : Nat) (s : State) :
    tget? (camPulse.go p c s).cam.pulses p = some { context := c % 16, tt := ttNow s, e := nowE s } ∧
      rd R.CAM_TRIG_LAST_TT (camPulse.go p c s) p = ttNow s ∧
      (rdb R.PIN_FAULT (18 + p) s = false → (camPulse.go p c s).out = .triggerPulse p true (true != rdb R.CAM_TRIG_CFG 0 s p) :: s.out) ∧
      (rdb R.PIN_FAULT (18 + p) s = true → (camPulse.go p c s).out = s.out) := by
  have htime := trigOut_time p true (wr R.CAM_TRIG_LAST_TT (ttNow s) s p)
  have hfault : rdb R.PIN_FAULT (18 + p) (wr R.CAM_TRIG_LAST_TT (ttNow s) s p) = rdb R.PIN_FAULT (18 + p) s := rdb_wr_row rfl ..
  unfold camPulse.go
  extract_lets s1
  refine ⟨?_, ?_, fun h => ?_, fun h => ?_⟩
  · show tget? (tset s1.cam.pulses p { context := c % 16, tt := ttNow s1, e := nowE s1 }) p = _
    rw [tget?_tset, if_pos rfl]
    unfold ttNow nowE
    rw [htime]
    rfl
  · calc rd R.CAM_TRIG_LAST_TT s1 p
      _ = rd R.CAM_TRIG_LAST_TT (wr R.CAM_TRIG_LAST_TT (ttNow s) s p) p := rd_of_regs (trigOut_regs ..) _ p
      _ = ttNow s := (rd_wr (by decide) _ _ p).trans (Nat.mod_eq_of_lt (ttNow_lt s))
  · have hpolarity : rdb R.CAM_TRIG_CFG 0 (wr R.CAM_TRIG_LAST_TT (ttNow s) s p) p = rdb R.CAM_TRIG_CFG 0 s p := rdb_wr_row rfl ..
    show s1.out = _
    unfold s1
    rw [trigOut_drives (hfault.trans h), hpolarity]
    rfl
  · show s1.out = _
    unfold s1
    rw [trigOut_faulted (hfault.trans h)]
    rfl
theorem doTriggerPulseEnd_running {p : Nat} {x : Pulse} {s : State} (hx : tget? s.cam.pulses p = some x) (hrunning : x.running = true) :
    doTriggerPulseEnd p s = trigOut p false (modCam (fun m => { m with pulses := tset m.pulses p { x with running := false } }) s) := by
  unfold doTriggerPulseEnd
  rw [hx]
  exact if_pos hrunning

/-! ### Control buses (R326) -/

theorem busNext_direct {p : Nat} {rdn : Bool} {o : SensorOp} {s : State} (hcurrent : (camBus s p).current = none) (hdue : (camBus s p).due = [])
    (hdirect : (camBus s p).direct = some (rdn, o)) (fuel : Nat) :
    busNext p (fuel + 1) s = busStart p false rdn o (modBus p (fun b => { b with direct := none }) s) := by
  unfold busNext
  dsimp only
  rw [hcurrent, hdue, hdirect]
  rfl
theorem busNext_nothing {p : Nat} {s : State} (hcurrent : (camBus s p).current = none) (hdue : (camBus s p).due = [])
    (hdirect : (camBus s p).direct = none) (fuel : Nat) : busNext p (fuel + 1) s = wrb R.CAM_BUS_STATUS 0 false s p := by
  unfold busNext
  dsimp only
  rw [hcurrent, hdue, hdirect]
  rfl
/-- The operation of a direct command: the bytes it writes stand in CAM_BUS_DATA. -/
def directOp (p v : Nat) (s : State) : SensorOp :=
  { delay := false, addr := bits 0 7 v, regWidth := bits 8 2 v, reg := rdf R.CAM_BUS_REG 0 16 s p, len := max 1 (min 16 (bits 16 5 v))
    data := if bit 7 v then []
      else ((List.range 4).flatMap (fun w => leBytes 4 (rd (R.CAM_BUS_DATA w) s p))).take (max 1 (min 16 (bits 16 5 v))) }
/-- A direct command waits, and CAM_BUS_STATUS shows the bus busy. -/
def directTaken (p v : Nat) (s : State) : State :=
  wrb R.CAM_BUS_STATUS 0 true (modBus p (fun b => { b with direct := some (bit 7 v, directOp p v s) }) s) p
theorem doCamBusCmd_idle {p : Nat} {s : State} (hp : p < 4) (hcurrent : (camBus s p).current = none) (hdirect : (camBus s p).direct = none)
    (hdue : (camBus s p).due = []) (v : Word32) : doCamBusCmd p v s =
      busStart p false (bit 7 v.toNat) (directOp p v.toNat s) (modBus p (fun b => { b with direct := none }) (directTaken p v.toNat s)) := by
  have hbus : camBus (directTaken p v.toNat s) p = { camBus s p with direct := some (bit 7 v.toNat, directOp p v.toNat s) } := camBus_modBus ..
  have hgo : (decide (p > 3) || (camBus s p).direct.isSome || false) = false := by simp [hdirect, Nat.le_of_lt_succ hp]
  unfold doCamBusCmd
  extract_lets n b running len all o
  have hidle : running = false := by
    unfold running b
    rw [hcurrent]
  rw [hidle, if_neg (by rw [hgo]; decide)]
  exact busNext_direct (s := directTaken p v.toNat s) (by rw [hbus, hcurrent]) (by rw [hbus, hdue]) (by rw [hbus]) 63
theorem busStart_sends (p : Nat) (settings read : Bool) (o : SensorOp) (s : State) :
    (busStart p settings read o s).out =
        .busTransaction p (rdf R.CAM_BUS_CFG 0 2 s p) o.addr read o.regWidth o.reg o.len o.data :: s.out ∧
      rdb R.CAM_BUS_STATUS 0 (busStart p settings read o s) p = true ∧
      (camBus (busStart p settings read o s) p).current = some (settings, o) ∧ (camBus (busStart p settings read o s) p).read = read := by
  have hbus : camBus (busStart p settings read o s) p = { camBus s p with current := some (settings, o), read } := camBus_modBus ..
  exact ⟨rfl, rdb_wrb (by decide) (by decide) _ _ _, by rw [hbus], by rw [hbus]⟩

/-- The transaction on bus `p` has ended, and CAM_BUS_STATUS shows its result. -/
def busEnded (p result : Nat) (s : State) : State :=
  wrf R.CAM_BUS_STATUS 1 3 (result % 8) (modBus p (fun b => { b with current := none }) s) p
theorem camBus_busEnded (p result : Nat) (s : State) : camBus (busEnded p result s) p = { camBus s p with current := none } := camBus_modBus ..
theorem result_busEnded {result : Nat} (h : result < 8) (p : Nat) (s : State) : rdf R.CAM_BUS_STATUS 1 3 (busEnded p result s) p = result :=
  (rdf_wrf_fits (by decide) (by decide) (Nat.mod_lt _ (by decide)) _ _).trans (Nat.mod_eq_of_lt h)

section Direct
variable {p : Nat} {o : SensorOp} {s : State} (hcurrent : (camBus s p).current = some (false, o)) (hdirect : (camBus s p).direct = none)
  (hdue : (camBus s p).due = [])
include hcurrent hdirect hdue

theorem doCamBusTransactionDone_written (hwrite : (camBus s p).read = false) (data : List Byte) :
    doCamBusTransactionDone p 0 data s = wrb R.CAM_BUS_STATUS 0 false (busEnded p 0 s) p := by
  have hbus := camBus_busEnded p 0 s
  unfold doCamBusTransactionDone
  dsimp only
  rw [hcurrent, hdue, hwrite]
  exact busNext_nothing (s := busEnded p 0 s) (by rw [hbus]) (by rw [hbus, hdue]) (by rw [hbus, hdirect]) 63
/-- An error of a direct command is reported with no target frame. -/
theorem doCamBusTransactionDone_error {result : Nat} (hresult : result ≠ 0) (data : List Byte) :
    doCamBusTransactionDone p result data s = wrb R.CAM_BUS_STATUS 0 false (busError p result o 0xFFFFFFFF (busEnded p result s)) p := by
  have hbus : camBus (busError p result o 0xFFFFFFFF (busEnded p result s)) p = { camBus s p with current := none } :=
    (camBus_cam ((bumpPort_cam ..).trans (postEvent_cam ..)) p).trans (camBus_busEnded p result s)
  unfold doCamBusTransactionDone
  dsimp only
  rw [hcurrent, hdue]
  dsimp only
  rw [if_pos hresult]
  exact busNext_nothing (s := busError p result o 0xFFFFFFFF (busEnded p result s)) (by rw [hbus]) (by rw [hbus, hdue]) (by rw [hbus, hdirect]) 63

end Direct

/-! ### What CAM_CTX_STATUS shows of the contexts (R351) -/

/-- The state of a context: DISABLED, IDLE, or ACTIVE while a frame is in progress. -/
def ctxShown (s : State) (c : Nat) : Nat := if !ctxOn s c then 0 else if (frameOf s c).isSome then 2 else 1
/-- It is shown. -/
def showState (c : Nat) (s : State) : State := wrf R.CAM_CTX_STATUS 0 2 (ctxShown s c) s c

theorem ctxShown_lt (s : State) (c : Nat) : ctxShown s c < 2 ^ 2 := by
  unfold ctxShown
  split
  · decide
  · split <;> decide
theorem ctxShown_same {s t : State} {c : Nat} (hcfg : rd R.CAM_CTX_CFG t c = rd R.CAM_CTX_CFG s c) (hcam : t.cam = s.cam) :
    ctxShown t c = ctxShown s c := by
  have hon : ctxOn t c = ctxOn s c := congrArg (bit 0) hcfg
  unfold ctxShown
  rw [hon, frameOf_cam hcam]
theorem regAddr_ctxStatus_ne {c d : Nat} (hc : c < 16) (hd : d < 16) (h : c ≠ d) : regAddr R.CAM_CTX_STATUS c ≠ regAddr R.CAM_CTX_STATUS d := by
  simp only [regAddr, R.CAM_CTX_STATUS]
  omega
/-- Of the contexts shown each reads the state it is in, the others what they read before. -/
theorem ctxState_each_showState {c : Nat} (hc : c < 16) {l : List Nat} (hl : ∀ d ∈ l, d < 16) (s : State) :
    rdf R.CAM_CTX_STATUS 0 2 (each l showState s) c = if c ∈ l then ctxShown s c else rdf R.CAM_CTX_STATUS 0 2 s c := by
  induction l generalizing s with
  | nil => rfl
  | cons d l ih =>
    have hshown : ctxShown (showState d s) c = ctxShown s c := ctxShown_same (rd_wr_row rfl ..) rfl
    refine (ih (fun e he => hl e (List.mem_cons_of_mem d he)) (showState d s)).trans ?_
    rw [hshown]
    by_cases hcd : c = d
    · subst hcd
      have hhead : rdf R.CAM_CTX_STATUS 0 2 (showState c s) c = ctxShown s c := rdf_wrf_fits (by decide) (by decide) (ctxShown_lt s c) s c
      rw [hhead, ite_self, if_pos List.mem_cons_self]
    · have hother : rdf R.CAM_CTX_STATUS 0 2 (showState d s) c = rdf R.CAM_CTX_STATUS 0 2 s c :=
        rdf_wr_ne (regAddr_ctxStatus_ne hc (hl d List.mem_cons_self) hcd) ..
      simp only [hother, List.mem_cons, hcd, false_or]
/-- Apart from CAM_PORT_STATUS, the registers read after `showCam` as when the states of the contexts have been shown. -/
theorem rd_showCam {q : RegInfo} (h : rowsDisjoint q R.CAM_PORT_STATUS = true) (s : State) (j : Nat) : rd q (showCam s) j =
    rd q (each (List.range 16) showState (wr R.CAM_STATUS (maskOf (rangeP 4 (fun p => portRuns p s)) + 2 ^ 16 * maskOf (rangeP 16 (ctxOn s))) s)) j := by
  refine rd_each (fun p u => ?_) _ _
  split
  · split
    · exact rd_wr_row h ..
    · rfl
  · exact rd_wr_row h ..
theorem ctxState_showCam {c : Nat} (hc : c < 16) (s : State) : rdf R.CAM_CTX_STATUS 0 2 (showCam s) c = ctxShown s c := by
  refine (congrArg (bits 0 2) (rd_showCam rfl s c)).trans ((ctxState_each_showState hc (fun d hd => List.mem_range.1 hd) _).trans ?_)
  rw [if_pos (List.mem_range.2 hc)]
  exact ctxShown_same (rd_wr_row rfl ..) rfl
theorem ctxOn_showCam (s : State) (c : Nat) : ctxOn (showCam s) c = ctxOn s c :=
  congrArg (bit 0) ((rd_showCam rfl s c).trans ((rd_each (fun _ _ => rd_wr_row rfl ..) _ _).trans (rd_wr_row rfl ..)))
theorem refValid_showCam (s : State) (c : Nat) : rdb R.CAM_CTX_STATUS 2 (showCam s) c = rdb R.CAM_CTX_STATUS 2 s c := by
  have heach : ∀ (l : List Nat) u, rdb R.CAM_CTX_STATUS 2 (each l showState u) c = rdb R.CAM_CTX_STATUS 2 u c := fun l => by
    induction l with
    | nil => exact fun _ => rfl
    | cons d l ih => exact fun u => (ih (showState d u)).trans (rdb_wrf_outside (by decide) (by decide) (.inr (by decide)) ..)
  exact (congrArg (bit 2) (rd_showCam rfl s c)).trans ((heach _ _).trans (rdb_wr_row rfl ..))

/-! ### Contexts (R329, R339) -/

theorem rd_camRefReset {q : RegInfo} (h : camApart q R.CAM_CTX_STATUS = true) (c cause : Nat) (s : State) (j : Nat) :
    rd q (camRefReset c cause s) j = rd q s j := by
  obtain ⟨hq, hr⟩ := Bool.and_eq_true_iff.1 h
  exact (rd_cam_postEvent hq ..).trans (rd_wr_row hr ..)
theorem frameOf_camRefReset (c cause : Nat) (s : State) (d : Nat) : frameOf (camRefReset c cause s) d = frameOf s d :=
  frameOf_cam (postEvent_cam ..) d
theorem refValid_camRefReset (c cause : Nat) (s : State) : rdb R.CAM_CTX_STATUS 2 (camRefReset c cause s) c = false :=
  (congrArg (bit 2) (rd_cam_postEvent rfl ..)).trans (rdb_wrb (by decide) (by decide) _ _ _)
/-- A context takes its binding and its options; what else the registers of the contexts hold stands. -/
theorem rd_bindCtx {q : RegInfo} (h : camApart q R.CAM_CTX_STATUS = true) (c v : Nat) (s : State) (j : Nat) :
    rd q (bindCtx c v s) j = rd q (wr R.CAM_CTX_CFG (v % 65536 / 2 * 2) s c) j := by
  unfold bindCtx
  extract_lets old new s1
  split
  · exact rd_camRefReset h ..
  · rfl
theorem frameOf_bindCtx (c v : Nat) (s : State) (d : Nat) : frameOf (bindCtx c v s) d = frameOf s d := by
  unfold bindCtx
  extract_lets old new s1
  split
  · exact frameOf_camRefReset ..
  · rfl
theorem dataType_bindCtx (c v : Nat) (s : State) : rdf R.CAM_CTX_CFG 6 6 (bindCtx c v s) c = bits 6 6 v := by
  have hcfg : rd R.CAM_CTX_CFG (bindCtx c v s) c = v % 65536 / 2 * 2 :=
    (rd_bindCtx rfl ..).trans ((rd_wr (by decide) _ _ _).trans (Nat.mod_eq_of_lt (by simp only [R.CAM_CTX_CFG]; omega)))
  unfold rdf bits
  rw [hcfg]
  omega
/-- The context is bound and enabled, IDLE, with a reference that is not valid. -/
def ctxEnabled (c v : Nat) (s : State) : State :=
  camRefReset c 1 (wrf R.CAM_CTX_STATUS 0 2 1 (wrb R.CAM_CTX_CFG 0 true (bindCtx c v s) c) c)

theorem doCamCtxEnable_legal {c : Nat} {v : Word32} {s : State} (hc : c < 16) (hbit : bit 0 v.toNat = true) (hoff : ctxOn s c = false)
    (hlegal : ctxMayEnable c (bindCtx c v.toNat s) = true) : doCamCtxEnable c v s = showCam (ctxEnabled c v.toNat s) := by
  unfold doCamCtxEnable
  rw [if_neg (by simp [hoff, hbit, Nat.le_of_lt_succ hc])]
  exact if_neg (by simp [hlegal])
theorem ctxOn_ctxEnabled (c v : Nat) (s : State) : ctxOn (ctxEnabled c v s) c = true :=
  (congrArg (bit 0) (rd_camRefReset rfl ..)).trans ((rdb_wr_row rfl ..).trans (rdb_wrb (by decide) (by decide) _ _ _))

theorem discardChanges_nothing {c : Nat} {s : State} (hqueue : (camCtx s c).queue = []) (hcommit : rdb R.CAM_CTX_COMMIT 0 s c = false) :
    discardChanges c s = showCtx c (modCtx c (fun y => { y with queue := [] }) s) := by
  have hcommit' : rdb R.CAM_CTX_COMMIT 0 (showCtx c (modCtx c (fun y => { y with queue := [] }) s)) c = false :=
    (congrArg (bit 0) (rd_showCtx rfl ..)).trans hcommit
  unfold discardChanges
  dsimp only
  rw [hqueue, hcommit']
  rfl
/-- A context with no frame and no change is disabled: its enable is clear, and nothing leaves the module. -/
theorem doCamCtxDisable_idle {c : Nat} {s : State} (hc : c < 16) (hon : ctxOn s c = true) (hframe : frameOf s c = none)
    (hqueue : (camCtx s c).queue = []) (hcommit : rdb R.CAM_CTX_COMMIT 0 s c = false) :
    ∃ u, doCamCtxDisable c s = showCam u ∧ ctxOn u c = false ∧ u.out = s.out := by
  unfold doCamCtxDisable
  rw [if_neg (by simp [hon, Nat.le_of_lt_succ hc])]
  extract_lets s1 s2 s3 s4
  have hs2 : s2 = s1 := by
    unfold s2
    rw [show frameOf s1 c = none from hframe]
  have hs3 : s3 = wrf R.CAM_CTX_STATUS 0 2 0 (showCtx c (modCtx c (fun y => { y with queue := [] }) s1)) c := by
    unfold s3
    rw [hs2, discardChanges_nothing (s := s1) hqueue ((rdb_wr_row rfl ..).trans hcommit)]
  have hs4 : s4.regs = s3.regs ∧ s4.out = s3.out := by
    unfold s4
    split <;> exact ⟨rfl, rfl⟩
  refine ⟨s4, rfl, ?_, by rw [hs4.2, hs3]; rfl⟩
  calc ctxOn s4 c
    _ = ctxOn s3 c := congrArg (bit 0) (rd_of_regs hs4.1 _ c)
    _ = ctxOn s1 c := by
        rw [hs3]
        exact congrArg (bit 0) ((rd_wr_row rfl ..).trans (rd_showCtx rfl ..))
    _ = false := rdb_wrb (by decide) (by decide) _ _ _

/-! ### Map buffers (R344) -/

/-- CAM_CTX_STATUS shows a buffer busy while THE or host software holds it. -/
theorem bufferBusy_showCtx {i : Nat} (hi : i < 4) (c : Nat) (s : State) :
    rdb R.CAM_CTX_STATUS (8 + i) (showCtx c s) c = ((camCtx s c).heldThe.contains i || (camCtx s c).heldHost.contains i) := by
  have hfield : rdf R.CAM_CTX_STATUS 8 4 (showCtx c s) c =
      maskOf (rangeP 4 (fun i => (camCtx s c).heldThe.contains i || (camCtx s c).heldHost.contains i)) % 2 ^ 4 :=
    (rdf_wrf_ne (by decide) (by decide) (.inr (by decide)) _ _ _).trans (rdf_wrf (by decide) (by decide) _ _ _)
  rw [rdb_eq_bit_rdf R.CAM_CTX_STATUS hi, hfield, bit_eq_testBit, Nat.testBit_mod_two_pow, ← bit_eq_testBit, bit_maskOf, rangeP,
    List.contains_eq_mem]
  simp [hi]

/-! ### Power outputs (R327) -/

theorem faults_camPower (s : State) : rdf R.CAM_PWR_STATUS 8 4 (camPower s) = rdf R.CAM_PWR_STATUS 8 4 s :=
  rdf_wrf_ne (by decide) (by decide) (.inr (by decide)) _ _ _
theorem outputs_camPower (s : State) : rdf R.CAM_PWR_STATUS 0 4 (camPower s) =
    if modeOf s ≤ 1 ∨ camInReset s = true then 0 else rdf R.CAM_PWR_CTRL 0 4 s &&& (15 - rdf R.CAM_PWR_STATUS 8 4 s) := by
  have hfits : rdf R.CAM_PWR_CTRL 0 4 s &&& (15 - rdf R.CAM_PWR_STATUS 8 4 s) < 2 ^ 4 := Nat.and_lt_two_pow _ (by omega)
  unfold camPower
  extract_lets faulted off
  have hoff : off = true ↔ modeOf s ≤ 1 ∨ camInReset s = true := by simp [off]
  rw [rdf_wrf (by decide) (by decide)]
  by_cases hout : modeOf s ≤ 1 ∨ camInReset s = true
  · rw [if_pos (hoff.2 hout), if_pos hout, Nat.zero_mod]
  · rw [if_neg (mt hoff.1 hout), if_neg hout, Nat.mod_eq_of_lt hfits]

/-- The enables written, and the faults of the outputs that stay enabled. -/
def enablesWritten (v : Nat) (s : State) : State := wrf R.CAM_PWR_STATUS 8 4 (rdf R.CAM_PWR_STATUS 8 4 s &&& v) (wr R.CAM_PWR_CTRL v s)
theorem enables_enablesWritten {v : Nat} (h : v < 16) (s : State) : rd R.CAM_PWR_CTRL (enablesWritten v s) = v :=
  (rd_wr_row rfl ..).trans ((rd_wr (by decide) _ _ _).trans (Nat.mod_eq_of_lt (by simp only [R.CAM_PWR_CTRL]; omega)))
theorem faults_enablesWritten {v : Nat} (h : v < 16) (s : State) :
    rdf R.CAM_PWR_STATUS 8 4 (enablesWritten v s) = (rdf R.CAM_PWR_STATUS 8 4 s &&& v) :=
  rdf_wrf_fits (by decide) (by decide) (Nat.and_lt_two_pow _ h) _ _
theorem modeOf_enablesWritten (v : Nat) (s : State) : modeOf (enablesWritten v s) = modeOf s :=
  (rdf_wr_row rfl ..).trans (rdf_wr_row rfl ..)
theorem camInReset_same {s t : State} (hpwr : t.pwr = s.pwr) (hreach : rd R.RST_REACH t = rd R.RST_REACH s) : camInReset t = camInReset s := by
  unfold camInReset stepHeld reachOf rdf
  rw [hpwr, hreach]
theorem camInReset_enablesWritten (v : Nat) (s : State) : camInReset (enablesWritten v s) = camInReset s :=
  camInReset_same rfl ((rd_wr_row rfl ..).trans (rd_wr_row rfl ..))
/-- The fault of an output is shown. -/
def outputFaulted (p : Nat) (s : State) : State := camPower (wrb R.CAM_PWR_STATUS (8 + p) true s)
theorem faulted_outputFaulted {p : Nat} (hp : p < 4) (s : State) : bit p (rdf R.CAM_PWR_STATUS 8 4 (outputFaulted p s)) = true := by
  have hfits : 8 + p + 1 ≤ 8 * R.CAM_PWR_STATUS.bytes := by simp only [R.CAM_PWR_STATUS]; omega
  unfold outputFaulted
  rw [faults_camPower, ← rdb_eq_bit_rdf R.CAM_PWR_STATUS hp]
  exact rdb_wrb (by decide) hfits _ _ _
/-- A faulted output is off. -/
theorem off_outputFaulted {p : Nat} (hp : p < 4) (s : State) : bit p (rdf R.CAM_PWR_STATUS 0 4 (outputFaulted p s)) = false := by
  have hfault := faulted_outputFaulted hp s
  unfold outputFaulted at hfault ⊢
  rw [faults_camPower] at hfault
  rw [outputs_camPower]
  split
  · rw [bit_eq_testBit, Nat.zero_testBit]
  · rw [bit_and, bit_complement _ (rdf_lt ..) p hp, hfault, Bool.not_true, Bool.and_false]
theorem doCamPowerFault_off {p : Nat} {s : State} (h : rdb R.CAM_PWR_STATUS p s = false) (cause ma : Nat) : doCamPowerFault p cause ma s = s :=
  if_pos (.inr (by rw [h]; rfl))
theorem doCamPowerFault_on {p : Nat} {s : State} (hp : p < 4) (h : rdb R.CAM_PWR_STATUS p s = true) (cause ma : Nat) :
    doCamPowerFault p cause ma s = postEvent 24 p 1 0 [(0, 1, (cause : Nat)), (2, 2, (ma : Nat))] (outputFaulted p s) :=
  if_neg (by simp [h, Nat.le_of_lt_succ hp])

/-- Settles O51: command by command, from the lemma that says what it does. -/
theorem cameraControl : Obligations.CameraControl := by
  refine ⟨?trigger, ?pulseEnd, ?busCmd, ?busDone, ?commit, ?enable, ?disable, ?release, ?power, ?powerFault⟩
  case trigger =>
    refine fun p v s => ⟨fun h => congrArg Host.Outcome.next (camPulse_stopped h _),
      fun x hrun hx hrunning => congrArg Host.Outcome.next (camPulse_dropped hrun hx hrunning _), fun hrun hx => ?_⟩
    obtain ⟨hpulse, htt, hdriven, hfaulted⟩ := pulse_starts p (v.toNat % 16) s
    rw [Nat.mod_mod] at hpulse
    exact ⟨_, congrArg Host.Outcome.next (camPulse_idle hrun hx _), hpulse, htt, hdriven, hfaulted⟩
  case pulseEnd =>
    intro p x s hx hrunning hfault
    refine ⟨_, congrArg Host.Outcome.next ((doTriggerPulseEnd_running hx hrunning).trans (trigOut_drives (s := modCam _ s) hfault false)), ?_,
      rfl, rfl⟩
    show tget? (tset s.cam.pulses p { x with running := false }) p = _
    rw [tget?_tset, if_pos rfl]
  case busCmd =>
    intro p v s hp hcurrent hdirect hdue
    obtain ⟨hout, hbusy, htaken, hread⟩ := busStart_sends p false (bit 7 v.toNat) (directOp p v.toNat s)
      (modBus p (fun b => { b with direct := none }) (directTaken p v.toNat s))
    have hmode : rdf R.CAM_BUS_CFG 0 2 (directTaken p v.toNat s) p = rdf R.CAM_BUS_CFG 0 2 s p := rdf_wr_row rfl ..
    refine ⟨_, (directOp p v.toNat s).data, congrArg Host.Outcome.next (doCamBusCmd_idle hp hcurrent hdirect hdue v), hout.trans ?_,
      fun hr => if_pos hr, hbusy, by rw [htaken]; rfl, hread⟩
    exact congrArg (fun m => Out.busTransaction p m _ _ _ _ _ _ :: s.out) hmode
  case busDone =>
    intro p result o data s hp hcurrent hdirect hdue hresult
    refine ⟨fun h0 hwrite => ?_, fun herror => ?_⟩
    · subst h0
      refine ⟨_, congrArg Host.Outcome.next (doCamBusTransactionDone_written hcurrent hdirect hdue hwrite data), ?_, ?_,
        rdb_wrb (by decide) (by decide) _ _ _⟩
      · exact congrArg CamBus.current (camBus_busEnded p 0 s)
      · exact (rdf_wrb_ne (by decide) (by decide) (.inr (by decide)) _ _ _).trans (result_busEnded hresult p s)
    · refine ⟨_, congrArg Host.Outcome.next (doCamBusTransactionDone_error hcurrent hdirect hdue herror data), posted .., ?_, ?_⟩
      · exact congrArg CamBus.current ((camBus_cam (postEvent_cam ..) p).trans (camBus_busEnded p result s))
      · exact (congrArg (bits 1 3) (rd_cam_postEvent rfl ..)).trans (result_busEnded hresult p s)
  case commit =>
    exact fun c s hc => ⟨_, congrArg Host.Outcome.next (if_pos hc), rdb_wrb (by decide) (by decide) _ _ _, rfl, rfl⟩
  case enable =>
    intro c v s hc hbit
    refine ⟨fun hon => congrArg Host.Outcome.next (if_pos (.inr (.inl hon))),
      fun hoff hframe hraw hwmin hwmax hwmod hhmin hhmax href hmap hrefEnd hmapEnd => ?_⟩
    have hkept : ∀ q, camApart q R.CAM_CTX_STATUS = true → rowsDisjoint q R.CAM_CTX_CFG = true → rd q (bindCtx c v.toNat s) c = rd q s c :=
      fun q hq hcfg => (rd_bindCtx hq ..).trans (rd_wr_row hcfg ..)
    have hlegal : ctxMayEnable c (bindCtx c v.toNat s) = true := by
      unfold ctxMayEnable
      rw [dataType_bindCtx, rdf, rdf, hkept R.CAM_CTX_SIZE rfl rfl, hkept R.CAM_CTX_REF_BASE rfl rfl, hkept R.CAM_CTX_MAP_BASE rfl rfl]
      simp only [Bool.and_eq_true, decide_eq_true_eq]
      exact ⟨⟨hraw, hwmin, hwmax, hwmod, hhmin, hhmax⟩, href, hmap, hrefEnd, hmapEnd⟩
    have hframe' : frameOf (ctxEnabled c v.toNat s) c = none := (frameOf_camRefReset ..).trans ((frameOf_bindCtx ..).trans hframe)
    have hon := ctxOn_ctxEnabled c v.toNat s
    refine ⟨_, congrArg Host.Outcome.next (doCamCtxEnable_legal hc hbit hoff hlegal), (ctxOn_showCam ..).trans hon, shows_showCam (posted ..),
      (ctxState_showCam hc _).trans ?_, (refValid_showCam ..).trans (refValid_camRefReset ..)⟩
    unfold ctxShown
    rw [hon, hframe']
    rfl
  case disable =>
    refine fun c s hc => ⟨fun hoff => congrArg Host.Outcome.next (if_pos (.inr (by rw [hoff]; rfl))), fun hon hframe hqueue hcommit => ?_⟩
    obtain ⟨u, e, hoff, hout⟩ := doCamCtxDisable_idle hc hon hframe hqueue hcommit
    refine ⟨_, congrArg Host.Outcome.next e, (ctxOn_showCam ..).trans hoff, (ctxState_showCam hc u).trans ?_, (showCam_out u).trans hout⟩
    unfold ctxShown
    rw [hoff]
    rfl
  case release =>
    intro c v s hc
    have hctx : camCtx (modCtx c (fun x => { x with heldHost := x.heldHost.filter (· != v.toNat % 4) }) s) c =
        { camCtx s c with heldHost := (camCtx s c).heldHost.filter (· != v.toNat % 4) } := camCtx_modCtx ..
    refine ⟨_, congrArg Host.Outcome.next (if_neg (by omega)), congrArg CamCtx.heldHost hctx,
      (congrArg CamCtx.heldThe hctx :), fun hthe => ?_, rfl⟩
    rw [bufferBusy_showCtx (Nat.mod_lt _ (by decide)), hctx]
    simp [hthe]
  case power =>
    intro v s
    have hv : v.toNat % 16 < 16 := Nat.mod_lt _ (by decide)
    have henables := enables_enablesWritten hv s
    have hfaults := faults_enablesWritten hv s
    have hfield : rdf R.CAM_PWR_CTRL 0 4 (enablesWritten (v.toNat % 16) s) = v.toNat % 16 := by
      unfold rdf bits
      rw [henables]
      omega
    refine ⟨camPower (enablesWritten (v.toNat % 16) s), rfl, (rd_wr_row rfl ..).trans henables, (faults_camPower _).trans hfaults, ?_, rfl⟩
    rw [outputs_camPower, modeOf_enablesWritten, camInReset_enablesWritten, hfield, hfaults]
  case powerFault =>
    refine fun p cause ma s => ⟨fun _ h => congrArg Host.Outcome.next (doCamPowerFault_off h cause ma), fun hp h => ?_⟩
    have hkept : ∀ n, rdb R.CAM_PWR_STATUS n (postEvent 24 p 1 0 [(0, 1, (cause : Nat)), (2, 2, (ma : Nat))] (outputFaulted p s)) =
        rdb R.CAM_PWR_STATUS n (outputFaulted p s) := fun n => congrArg (bit n) (rd_cam_postEvent rfl ..)
    refine ⟨_, congrArg Host.Outcome.next (doCamPowerFault_on hp h cause ma), (hkept p).trans ?_,
      (hkept (8 + p)).trans ?_, posted .., postEvent_cam ..⟩
    · have hoff := rdb_eq_bit_rdf R.CAM_PWR_STATUS hp 0 (outputFaulted p s) 0
      rw [Nat.zero_add] at hoff
      exact hoff.trans (off_outputFaulted hp s)
    · exact (rdb_eq_bit_rdf R.CAM_PWR_STATUS hp 8 _ 0).trans (faulted_outputFaulted hp s)

end Sys2Proof.Proofs
end

section
/-! The memory controller: its counters (R384), the rank map and what a write of it does to each channel (R355, R356), self-refresh,
migration and training (R357, R358, R361, R370). -/

namespace Sys2Proof.Proofs
open Sys2Proof Sys2Proof.Machine Sys2Proof.Laws

/-! ### The counters of the memory block (R384) -/

/-- A counter's step writes its own register and what an event may write. -/
theorem rd_bumpMem {q r : RegInfo} {j : Nat} (hne : regAddr q j ≠ regAddr r) (hoff : off 25769803828 (32 + regAddr q j / 65536 % 32))
    (n : Nat) (s : State) : rd q (bumpMem r n s) j = rd q s j := rd_bump hne (fun _ => rd_postEvent hoff ..) s
theorem bumpMem_mem (r : RegInfo) (n : Nat) (s : State) : (bumpMem r n s).mem = s.mem :=
  bump_part State.mem (fun _ _ => rfl) (fun _ => postEvent_mem ..) s

/-! ### A fold that acts on one thing at a time -/

/-- A relation that every element's action keeps holds between the ends of the fold. -/
theorem each_relates {α : Type} {f : α → State → State} {Rel : State → State → Prop} (hrefl : ∀ s, Rel s s)
    (htrans : ∀ s t u, Rel s t → Rel t u → Rel s u) {l : List α} (h : ∀ a ∈ l, ∀ s, Rel s (f a s)) (s : State) : Rel s (each l f s) := by
  induction l generalizing s with
  | nil => exact hrefl s
  | cons a l ih => exact htrans _ _ _ (h a List.mem_cons_self s) (ih (fun b hb => h b (List.mem_cons_of_mem a hb)) (f a s))
/-- Where every other element keeps a relation, the fold is, up to it, the action of the one element. -/
theorem each_only {α : Type} {f : α → State → State} {Rel : State → State → Prop} (hrefl : ∀ s, Rel s s)
    (htrans : ∀ s t u, Rel s t → Rel t u → Rel s u) {l : List α} {a : α} (ha : a ∈ l) (hnodup : l.Nodup)
    (h : ∀ b ∈ l, b ≠ a → ∀ s, Rel s (f b s)) (s : State) : ∃ u, Rel s u ∧ Rel (f a u) (each l f s) := by
  obtain ⟨before, after, rfl⟩ := List.append_of_mem ha
  have hout : a ∉ before ++ after := (List.nodup_cons.1 (List.perm_middle.nodup_iff.1 hnodup)).1
  rw [List.mem_append, not_or] at hout
  obtain ⟨hbefore, hafter⟩ := hout
  rw [each_append_cons]
  exact ⟨each before f s,
    each_relates hrefl htrans (fun b hb => h b (List.mem_append_left _ hb) fun e => hbefore (e ▸ hb)) s,
    each_relates hrefl htrans (fun b hb => h b (List.mem_append_right _ (List.mem_cons_of_mem a hb)) fun e => hafter (e ▸ hb)) _⟩

/-! ### The state of the ranks and the map of a channel (R355, R356) -/

theorem chanOf_lt (a : Nat) : chanOf a < 4 := bits_lt 7 2 a
theorem logicalOf_lt (a : Nat) : logicalOf a < 2 := bits_lt 20 1 a
theorem rankState_setRankState {c p st : Nat} (hc : c < 4) (hp : p < 3) (hst : st < 4) (s : State) :
    rankState c p (setRankState c p st s) = st := rdf_wrf_fits (by decide) (by simp only [R.MEMC_RANK_STATE]; omega) hst s 0
/-- Each physical rank of each channel has a field of its own. -/
theorem rankState_setRankState_ne {c d p q : Nat} (hd : d < 4) (hp : p < 3) (hq : q < 3) (h : d ≠ c ∨ q ≠ p) (st : Nat) (s : State) :
    rankState d q (setRankState c p st s) = rankState d q s :=
  rdf_wrf_ne (by decide) (by simp only [R.MEMC_RANK_STATE]; omega) (by omega) st s 0
theorem rankState_setMap (d q c lo len v : Nat) (s : State) : rankState d q (setMap c lo len v s) = rankState d q s :=
  rdf_wr_ne (by decide) _ _ _ s
/-- The test of a map byte looks at the physical ranks of its channel alone. -/
theorem mapByteOk_congr {c b : Nat} {s t : State} (h : ∀ p < 3, rankState c p t = rankState c p s) : mapByteOk c b t = mapByteOk c b s := by
  have hstate : ∀ p, p < 4 → p ≠ 3 → rankState c p t = rankState c p s := fun p h4 h3 => h p (by omega)
  have h0 := bits_lt 0 2 b
  have h1 := bits_lt 2 2 b
  have h2 := bits_lt 4 2 b
  unfold mapByteOk
  by_cases e0 : bits 0 2 b = 3
  · simp [e0]
  by_cases e1 : bits 2 2 b = 3
  · simp [e1]
  by_cases e2 : bits 4 2 b = 3
  · simp [e2, hstate _ h0 e0, hstate _ h1 e1]
  · simp [hstate _ h0 e0, hstate _ h1 e1, hstate _ h2 e2]

/-- What a valid map byte makes of a physical rank that did not fail: in service, the spare, or retired. -/
def rankNamed (b p : Nat) : Nat := if p = bits 0 2 b ∨ p = bits 2 2 b then 0 else if p = bits 4 2 b then 1 else 2
/-- A physical rank takes the state that the map byte names, but for one that failed. -/
def rankMarked (c b p : Nat) (s : State) : State := if rankState c p s = 3 then s else setRankState c p (rankNamed b p) s
/-- The map byte of a channel is taken, and the contents of each logical rank that it moves are lost. -/
def mapTaken (c b : Nat) (s : State) : State :=
  each ([0, 1].filter (fun l => mapRank c l s != bits (2 * l) 2 b)) (fun l s => loseBytes c (some l) s) (setMap c 0 6 b s)

theorem takeMapByte_invalid {v c : Nat} {s : State} (h : mapByteOk c (bits (8 * c) 6 v) s = false) : takeMapByte v c s = s := by
  simp [takeMapByte, h]
theorem takeMapByte_valid {v c : Nat} {s : State} (h : mapByteOk c (bits (8 * c) 6 v) s = true) :
    takeMapByte v c s = each [0, 1, 2] (rankMarked c (bits (8 * c) 6 v)) (mapTaken c (bits (8 * c) 6 v) s) := if_neg (by simp [h])
theorem rankNamed_lt (b p : Nat) : rankNamed b p < 4 := by
  unfold rankNamed
  split
  · decide
  · split <;> decide
theorem rankMarked_cases (c b p : Nat) (s : State) : rankMarked c b p s = s ∨ rankMarked c b p s = setRankState c p (rankNamed b p) s := by
  unfold rankMarked
  split
  · exact .inl rfl
  · exact .inr rfl
theorem rankMarked_mem (c b p : Nat) (s : State) : (rankMarked c b p s).mem = s.mem := by
  obtain e | e := rankMarked_cases c b p s
  · rw [e]
  · rw [e]
    rfl
theorem rdf_map_rankMarked (lo len c b p : Nat) (s : State) : rdf R.MEMC_RANK_MAP lo len (rankMarked c b p s) = rdf R.MEMC_RANK_MAP lo len s := by
  obtain e | e := rankMarked_cases c b p s <;> rw [e]
  exact rdf_wr_ne (by decide) _ _ _ s
theorem rankState_rankMarked {c b p : Nat} {s : State} (hc : c < 4) (hp : p < 3) (h : rankState c p s ≠ 3) :
    rankState c p (rankMarked c b p s) = rankNamed b p := by
  rw [rankMarked, if_neg h]
  exact rankState_setRankState hc hp (rankNamed_lt b p) s
theorem rankState_rankMarked_ne {c d b p q : Nat} (hd : d < 4) (hp : p < 3) (hq : q < 3) (h : d ≠ c ∨ q ≠ p) (s : State) :
    rankState d q (rankMarked c b p s) = rankState d q s := by
  obtain e | e := rankMarked_cases c b p s <;> rw [e]
  exact rankState_setRankState_ne hd hp hq h _ s
/-- Marking every physical rank of a channel marks each. -/
theorem rankState_each_rankMarked {c b p : Nat} {s : State} (hc : c < 4) (hp : p < 3) (h : rankState c p s ≠ 3) :
    rankState c p (each [0, 1, 2] (rankMarked c b) s) = rankNamed b p := by
  have hlist : ∀ q ∈ [0, 1, 2], q < 3 := by decide
  obtain ⟨u, hu, hend⟩ := each_only (Rel := fun s t => rankState c p t = rankState c p s) (fun _ => rfl)
    (fun _ _ _ hst htu => htu.trans hst) (a := p) (by simp only [List.mem_cons, List.not_mem_nil, or_false]; omega) (by decide)
    (fun q hq hne s => rankState_rankMarked_ne (b := b) hc (hlist q hq) hp (.inr (Ne.symm hne)) s) s
  exact hend.trans (rankState_rankMarked hc hp (by rwa [hu]))

/-! ### The bytes that a map byte loses (R356) -/

/-- A table cut to the keys that pass a test reads as before at a key that passes. -/
theorem tget?_filter_key {α : Type} {keep : Nat → Bool} {a : Nat} (h : keep a = true) (t : Table α) :
    tget? (t.filter (fun e => keep e.1)) a = tget? t a := by
  induction t with
  | nil => rfl
  | cons e t ih =>
    obtain ⟨k, v⟩ := e
    rw [List.filter_cons]
    split
    · unfold tget?
      rw [ih]
    · next hk =>
      have hne : k ≠ a := fun e => hk (e ▸ h)
      rw [ih, tget?, if_neg hne]
/-- Only the bytes of the named channel and logical rank are lost. -/
theorem dram_loseBytes {c l a : Nat} (h : chanOf a ≠ c ∨ logicalOf a ≠ l) (s : State) :
    tget? (loseBytes c (some l) s).mem.dram a = tget? s.mem.dram a := by
  have hkept : (!(chanOf a == c && logicalOf a == l)) = true := by
    obtain hchan | hrank := h
    · rw [beq_false_of_ne hchan, Bool.false_and, Bool.not_false]
    · rw [beq_false_of_ne hrank, Bool.and_false, Bool.not_false]
  exact tget?_filter_key (keep := fun a => !(chanOf a == c && logicalOf a == l)) hkept s.mem.dram
theorem rd_mapTaken (q : RegInfo) (j c b : Nat) (s : State) : rd q (mapTaken c b s) j = rd q (setMap c 0 6 b s) j :=
  rd_each (f := fun l s => loseBytes c (some l) s) (fun _ _ => rfl) _ _
/-- A byte of another channel, or of a logical rank that keeps its physical rank, stays. -/
theorem dram_mapTaken {c b a : Nat} {s : State} (h : chanOf a = c → bits (2 * logicalOf a) 2 b = mapRank c (logicalOf a) s) :
    tget? (mapTaken c b s).mem.dram a = tget? s.mem.dram a := by
  refine each_relates (Rel := fun s t => tget? t.mem.dram a = tget? s.mem.dram a) (fun _ => rfl) (fun _ _ _ hst htu => htu.trans hst)
    (fun l hl t => dram_loseBytes ?_ t) (setMap c 0 6 b s)
  have hmoved : mapRank c l s ≠ bits (2 * l) 2 b := by simpa using (List.mem_filter.1 hl).2
  by_cases hchan : chanOf a = c
  · exact .inr fun e => hmoved (e ▸ (h hchan).symm)
  · exact .inl hchan
theorem mem_each_rankMarked (c b : Nat) (l : List Nat) (s : State) : (each l (rankMarked c b) s).mem = s.mem :=
  each_relates (Rel := fun s t => t.mem = s.mem) (fun _ => rfl) (fun _ _ _ hst htu => htu.trans hst) (fun p _ s => rankMarked_mem c b p s) s
theorem rdf_map_each_rankMarked (lo len c b : Nat) (l : List Nat) (s : State) :
    rdf R.MEMC_RANK_MAP lo len (each l (rankMarked c b) s) = rdf R.MEMC_RANK_MAP lo len s :=
  each_relates (Rel := fun s t => rdf R.MEMC_RANK_MAP lo len t = rdf R.MEMC_RANK_MAP lo len s) (fun _ => rfl)
    (fun _ _ _ hst htu => htu.trans hst) (fun p _ s => rdf_map_rankMarked lo len c b p s) s

/-! ### A write of the map acts on each channel by itself (R356) -/

/-- Channel `c` stands in `t` as in `s`: its byte of the map, its ranks and its bytes of DRAM. -/
structure SameChannel (c : Nat) (s t : State) : Prop where
  map : ∀ lo len, lo + len ≤ 6 → rdf R.MEMC_RANK_MAP (8 * c + lo) len t = rdf R.MEMC_RANK_MAP (8 * c + lo) len s
  rank : ∀ p < 3, rankState c p t = rankState c p s
  bytes : ∀ a, chanOf a = c → tget? t.mem.dram a = tget? s.mem.dram a

theorem SameChannel.refl (c : Nat) (s : State) : SameChannel c s s := ⟨fun _ _ _ => rfl, fun _ _ => rfl, fun _ _ => rfl⟩
theorem SameChannel.trans {c : Nat} (s t u : State) (h : SameChannel c s t) (k : SameChannel c t u) : SameChannel c s u where
  map lo len hlo := (k.map lo len hlo).trans (h.map lo len hlo)
  rank p hp := (k.rank p hp).trans (h.rank p hp)
  bytes a ha := (k.bytes a ha).trans (h.bytes a ha)
theorem SameChannel.mapByteOk {c : Nat} {s t : State} (h : SameChannel c s t) (b : Nat) : mapByteOk c b t = mapByteOk c b s :=
  mapByteOk_congr h.rank
theorem SameChannel.mapByte {c : Nat} {s t : State} (h : SameChannel c s t) :
    rdf R.MEMC_RANK_MAP (8 * c) 6 t = rdf R.MEMC_RANK_MAP (8 * c) 6 s := h.map 0 6 (by decide)
theorem SameChannel.mapRank {c l : Nat} {s t : State} (h : SameChannel c s t) (hl : l < 2) : mapRank c l t = mapRank c l s :=
  h.map (2 * l) 2 (by omega)
/-- The byte of another channel leaves a channel as it is. -/
theorem takeMapByte_otherChannel {c d : Nat} (hc : c < 4) (hne : d ≠ c) (v : Nat) (s : State) :
    SameChannel c s (takeMapByte v d s) := by
  cases hok : mapByteOk d (bits (8 * d) 6 v) s with
  | false =>
    rw [takeMapByte_invalid hok]
    exact .refl c s
  | true =>
    rw [takeMapByte_valid hok]
    refine ⟨fun lo len hlo => ?_, fun p hp => ?_, fun a ha => ?_⟩
    · rw [rdf_map_each_rankMarked]
      exact (congrArg (bits _ len) (rd_mapTaken ..)).trans
        (rdf_wrf_ne (by decide) (by simp only [R.MEMC_RANK_MAP]; omega) (by omega) _ s 0)
    · have hmarks := each_relates (f := rankMarked d (bits (8 * d) 6 v)) (l := [0, 1, 2])
        (Rel := fun s t => rankState c p t = rankState c p s) (fun _ => rfl) (fun _ _ _ hst htu => htu.trans hst)
        (fun q hq u => rankState_rankMarked_ne hc ((by decide : ∀ q ∈ [0, 1, 2], q < 3) q hq) hp (.inl (Ne.symm hne)) u)
        (mapTaken d (bits (8 * d) 6 v) s)
      exact hmarks.trans ((congrArg (bits _ 2) (rd_mapTaken ..)).trans (rankState_setMap ..))
    · rw [mem_each_rankMarked]
      exact dram_mapTaken fun e => absurd (e.symm.trans ha) hne
/-- The byte of a channel is in the map if it is valid, and else the map stands. -/
theorem map_takeMapByte {c : Nat} (hc : c < 4) (v : Nat) (s : State) : rdf R.MEMC_RANK_MAP (8 * c) 6 (takeMapByte v c s) =
    if mapByteOk c (bits (8 * c) 6 v) s then bits (8 * c) 6 v else rdf R.MEMC_RANK_MAP (8 * c) 6 s := by
  cases hok : mapByteOk c (bits (8 * c) 6 v) s with
  | false =>
    rw [takeMapByte_invalid hok]
    rfl
  | true =>
    rw [takeMapByte_valid hok, rdf_map_each_rankMarked]
    exact (congrArg (bits _ 6) (rd_mapTaken ..)).trans
      (rdf_wrf_fits (by decide) (by simp only [R.MEMC_RANK_MAP]; omega) (bits_lt ..) s 0)
theorem rankState_takeMapByte {v c p : Nat} {s : State} (hc : c < 4) (hp : p < 3) (hok : mapByteOk c (bits (8 * c) 6 v) s = true)
    (h : rankState c p s ≠ 3) : rankState c p (takeMapByte v c s) = rankNamed (bits (8 * c) 6 v) p := by
  have hbefore : rankState c p (mapTaken c (bits (8 * c) 6 v) s) = rankState c p s :=
    (congrArg (bits _ 2) (rd_mapTaken ..)).trans (rankState_setMap ..)
  rw [takeMapByte_valid hok]
  exact rankState_each_rankMarked hc hp (by rwa [hbefore])
theorem dram_takeMapByte {v c a : Nat} {s : State}
    (h : mapByteOk c (bits (8 * c) 6 v) s = true → bits (2 * logicalOf a) 2 (bits (8 * c) 6 v) = mapRank c (logicalOf a) s) :
    tget? (takeMapByte v c s).mem.dram a = tget? s.mem.dram a := by
  cases hok : mapByteOk c (bits (8 * c) 6 v) s with
  | false => rw [takeMapByte_invalid hok]
  | true =>
    rw [takeMapByte_valid hok, mem_each_rankMarked]
    exact dram_mapTaken fun _ => h hok
/-- A write of an unlocked map is, for each channel, the taking of its byte. -/
theorem writeRankMap_channel {c : Nat} (hc : c < 4) {s : State} (h : rdb R.MEMC_CTRL 0 s = false) (v : Nat) :
    ∃ u, SameChannel c s u ∧ SameChannel c (takeMapByte v c u) (writeRankMap v s) := by
  rw [writeRankMap, if_neg (by simp [h])]
  exact each_only (.refl c) .trans (by simp only [List.mem_cons, List.not_mem_nil, or_false]; omega) (by decide) (fun d _ hne u => takeMapByte_otherChannel hc hne v u) s

/-! ### Self-refresh, migration and training (R357, R361, R370) -/

/-- The entry into self-refresh is counted, and ends it where no request waits (R361). -/
theorem doSrEntryComplete_quiet {s : State} (h3 : rdf R.MEMC_STATUS 0 3 s = 3) (hwake : s.mem.srWake = none) :
    doSrEntryComplete s = bumpMem R.MEMC_SR_COUNT 1 (wrf R.MEMC_STATUS 0 3 4 s) := by
  have hmem : (bumpMem R.MEMC_SR_COUNT 1 (wrf R.MEMC_STATUS 0 3 4 s)).mem.srWake = none := by rwa [bumpMem_mem]
  unfold doSrEntryComplete
  rw [if_neg (by simp [h3])]
  dsimp only
  rw [hmem]

/-- The registers at the end of a migration: the spare serves the logical rank, the old rank is retired, and the copy pointer is 0. -/
def migrationShown (m : Migration) (s : State) : State :=
  wr R.MEMC_MIGRATE_PTR 0 (wrf R.MEMC_STATUS 12 4 0
    (setRankState m.channel m.new 0 (setRankState m.channel m.old 2 (setMap m.channel 4 2 3 (setMap m.channel (2 * m.logical) 2 m.new s)))))
/-- A migration that ends with no retirement waiting. -/
def migrationEnded (m : Migration) (s : State) : State :=
  postEvent 181 m.channel (if m.poisoned = 0 then 0 else 1) 0 [(0, 1, (m.logical : Nat)), (1, 1, (m.old : Nat)), (2, 1, (m.new : Nat)),
    (4, 4, (m.poisoned : Nat)), (8, 4, (((s.time.ns - m.start) / 1000000 : Nat) : Nat))]
    (modMem (fun x => { x with migration := none, retire := [] }) (migrationShown m s))
theorem doRankMigrateDone_nothingWaits {m : Migration} {s : State} (hserves : dramServes s = true) (hm : s.mem.migration = some m)
    (hretire : s.mem.retire = []) : doRankMigrateDone s = migrationEnded m s := by
  have hwaiting : (migrationShown m s).mem.retire = [] := hretire
  unfold doRankMigrateDone
  rw [if_pos hserves, hm]
  dsimp only
  exact (congrArg (fun l => each l _ _) hwaiting :)
theorem migrationEnded_mem (m : Migration) (s : State) :
    (migrationEnded m s).mem = { s.mem with migration := none, retire := [] } := postEvent_mem ..
/-- EV_RANK_MIGRATED leaves the registers of the memory controller as the end of the migration shows them. -/
theorem rd_migrationEnded {q : RegInfo} (h : off 25769803828 (32 + regAddr q / 65536 % 32)) (m : Migration) (s : State) :
    rd q (migrationEnded m s) = rd q (migrationShown m s) := rd_postEvent h ..

/-- DRAM that has failed stays so through the training of a channel (R358). -/
def failureKept (s : State) : State := if rdf R.MEMC_STATUS 0 3 s = 6 then wrf R.MEMC_STATUS 0 3 6 s else s
/-- The ranks of a channel that did not fail, as a mask. -/
def ranksUp (c : Nat) (s : State) : Nat := maskOf ((List.range 3).filter (fun p => rankState c p s != 3))
/-- A channel ends its warm retune, and EV_DRAM_TRAINED is posted (R357, R384). -/
def channelRetuned (c us : Nat) (s : State) : State :=
  let s := failureKept s
  let ok := ranksUp c s
  let s := wrf R.MEMC_TRAIN_RESULT (8 * c + 4) 4 ok s
  let s := postEvent 184 c 0 0 [(0, 1, (ok : Nat)), (1, 1, ((1 : Nat) : Nat)), (2, 2, (us : Nat))] s
  wrb R.MEMC_STATUS (4 + c) true (modMem (fun m => { m with training := m.training.filter (· != c) }) s)

theorem failureKept_mem (s : State) : (failureKept s).mem = s.mem := by
  unfold failureKept
  split <;> rfl
theorem channelRetuned_mem (c us : Nat) (s : State) :
    (channelRetuned c us s).mem = { s.mem with training := s.mem.training.filter (· != c) } := by
  have hmem : ∀ (n src sev w1 : Nat) (d : List (Nat × Nat × Int)) (lo len v : Nat),
      (postEvent n src sev w1 d (wrf R.MEMC_TRAIN_RESULT lo len v (failureKept s))).mem = s.mem :=
    fun n src sev w1 d lo len v => (postEvent_mem ..).trans (failureKept_mem s)
  unfold channelRetuned
  extract_lets s1 ok s2 s3
  rw [wrb_mem, modMem_get, hmem]
theorem channelRetuned_shows (c us : Nat) (s : State) : EventShows 184 (channelRetuned c us s) :=
  shows_wrb (pending_ne (by decide)) _ _ (posted ..)
/-- While another channel trains, the end of a warm retune concerns its own channel alone. -/
theorem doDramTrainingDone_retuned {c : Nat} {s : State} (hc : c ∈ s.mem.training) (hcold : s.mem.cold = false)
    (hother : s.mem.training.filter (· != c) ≠ []) (fails : List (Nat × Nat)) (us : Nat) :
    doDramTrainingDone c fails false us s = channelRetuned c us s := by
  have hin : s.mem.training.contains c = true := by simpa using hc
  have hrest : (channelRetuned c us s).mem.training ≠ [] := by
    rw [channelRetuned_mem]
    exact hother
  unfold doDramTrainingDone
  simp only [hin, hcold]
  exact if_pos hrest

/-- Settles O38: a write of the rank map is read off the taking of each channel's byte (`writeRankMap_channel`); the other commands are
rewritten to the registers they write. -/
theorem memoryControllerCommands : Obligations.MemoryControllerCommands := by
  refine ⟨fun _ => rfl, ?temperature, ?entry, ?complete, ?locked, ?rankMap, ?lock, ?retire, ?migrated, ?trained, ?logClear, ?inject⟩
  case temperature =>
    exact fun hot s => ⟨_, rfl, rdf_wrf (by decide) (by decide) hot s 0, rdf_wrf_ne (by decide) (by decide) (by decide) hot s 0, rfl⟩
  case entry =>
    intro s henable hmode h2 hidle
    have hrequests : s.arb.requests.all (fun e => e.1 == rqScrub) = true := by simpa using hidle
    exact ⟨_, congrArg Host.Outcome.next (if_pos ⟨henable, hmode, h2, hrequests⟩),
      rdf_wrf_fits (by decide) (by decide) (by decide) _ 0, rfl, rfl, rfl⟩
  case complete =>
    intro s h3 hwake
    exact ⟨_, congrArg Host.Outcome.next (doSrEntryComplete_quiet h3 hwake),
      (congrArg (bits 0 3) (rd_bumpMem (by decide) rfl ..)).trans (rdf_wrf_fits (by decide) (by decide) (by decide) s 0), bumpMem_mem ..⟩
  case locked => exact fun v s h => congrArg Host.Outcome.next (if_pos h)
  case rankMap =>
    intro v s h
    refine ⟨writeRankMap v.toNat s, rfl, ?_, fun a ha => ?_, fun c hc b hb => ?_⟩
    · exact (writeRankMap_keeps (m := 8796093022848) (hm := rfl) (h := Keeps.refl _ s)).same_sram rfl
    · obtain ⟨u, hu, hend⟩ := writeRankMap_channel (chanOf_lt a) h v.toNat
      rw [hend.bytes a rfl, dram_takeMapByte, hu.bytes a rfl]
      rwa [hu.mapByteOk, hu.mapRank (logicalOf_lt a)]
    · subst hb
      obtain ⟨u, hu, hend⟩ := writeRankMap_channel hc h v.toNat
      refine ⟨?_, fun hok p hp hp3 => ?_⟩
      · have hmap := map_takeMapByte hc v.toNat u
        rw [hu.mapByteOk, hu.mapByte] at hmap
        exact hend.mapByte.trans hmap
      · rw [← hu.mapByteOk] at hok
        rw [← hu.rank p hp] at hp3
        exact (hend.rank p hp).trans (rankState_takeMapByte hc hp hok hp3)
  case lock => exact fun s => ⟨_, rfl, rdb_wrb (by decide) (by decide) true s 0, rfl⟩
  case retire =>
    exact fun v s => ⟨fun h => congrArg Host.Outcome.next (if_neg (by simp [h])), fun h => congrArg Host.Outcome.next (if_pos h)⟩
  case migrated =>
    intro m s hserves hm hretire
    refine ⟨_, congrArg Host.Outcome.next (doRankMigrateDone_nothingWaits hserves hm hretire), congrArg MemState.migration (migrationEnded_mem m s),
      (rd_migrationEnded rfl m s).trans (rd_wr (by decide) 0 _ 0), ?_, posted .., (congrArg MemState.dram (migrationEnded_mem m s) :)⟩
    calc rdf R.MEMC_STATUS 12 4 (migrationEnded m s)
      _ = rdf R.MEMC_STATUS 12 4 (migrationShown m s) := congrArg (bits 12 4) (rd_migrationEnded rfl m s)
      _ = 0 := (rdf_wr_ne (by decide) _ _ _ _).trans (rdf_wrf_fits (by decide) (by decide) (by decide) _ 0)
  case trained =>
    intro c c2 us fails s hc hin hin2 hne hcold
    have hother : s.mem.training.filter (· != c) ≠ [] := List.ne_nil_of_mem (List.mem_filter.2 ⟨hin2, by simpa using hne⟩)
    exact ⟨_, congrArg Host.Outcome.next (doDramTrainingDone_retuned hin hcold hother fails us),
      rdb_wrb (by decide) (by simp only [R.MEMC_STATUS]; omega) true _ 0, congrArg MemState.training (channelRetuned_mem c us s),
      channelRetuned_shows c us s, (congrArg MemState.dram (channelRetuned_mem c us s) :)⟩
  case logClear =>
    exact fun v s => ⟨fun h => ⟨_, congrArg Host.Outcome.next (if_pos h), rfl, rdf_wrf_fits (by decide) (by decide) (Nat.two_pow_pos 9) _ 0⟩,
      fun h => congrArg Host.Outcome.next (if_neg (by simp [h]))⟩
  case inject =>
    exact fun v s => ⟨fun h => congrArg Host.Outcome.next (if_pos h), fun h3 h7 => congrArg Host.Outcome.next (if_neg (by simp [h3, h7]))⟩

end Sys2Proof.Proofs
end

section
/-! What a line or a word that is read with an error leads to (R354, R364, R366, R367, R372, R373, R384). -/

namespace Sys2Proof.Proofs
open Sys2Proof Sys2Proof.Machine Sys2Proof.Laws

section Reads
variable {r a f d : Nat} {s : State}

theorem requesterUe_of_ne (h : r ≠ rqCam) (context : Nat) (s : State) : requesterUe r context s = s := if_neg h
theorem copyPointer_of_ne (h : r ≠ rqMigrate) (a : Nat) (s : State) : copyPointer r a s = s := by
  unfold copyPointer
  split
  · exact if_neg fun x => h x.1
  · rfl

section Served
variable (hr : r < 10) (hserves : dramServes s = true)
include hr hserves

/-- The read of a requester that exists, while DRAM serves accesses, is not passed over. -/
theorem read_served : ¬(r ≥ 10 ∨ (!dramServes s) = true) := by
  simp only [hserves, Bool.not_true, Bool.false_eq_true, or_false]
  exact Nat.not_le.2 hr
/-- A read beyond the memory reports that there is no such address (R354). -/
theorem doDramReadComplete_beyond (ha : dramSize ≤ a) (f d context : Nat) :
    doDramReadComplete r a f d context s = requesterUe r context (dramNoAddr a r s) := by
  unfold doDramReadComplete
  rw [if_neg (read_served hr hserves), if_pos ha]

variable (hmigrate : r ≠ rqMigrate) (ha : a < dramSize)
include hmigrate ha

theorem doDramReadComplete_good {x : Nat} (h : readFinds a f d s = (0, x)) (context : Nat) : doDramReadComplete r a f d context s = s := by
  unfold doDramReadComplete
  rw [if_neg (read_served hr hserves), if_neg (Nat.not_le.2 ha), h]
  exact copyPointer_of_ne hmigrate a s
theorem doDramReadComplete_correctable {x : Nat} (h : readFinds a f d s = (1, x)) (context : Nat) :
    doDramReadComplete r a f d context s = dramCe a r x false s := by
  unfold doDramReadComplete
  rw [if_neg (read_served hr hserves), if_neg (Nat.not_le.2 ha), h]
  exact copyPointer_of_ne hmigrate a _
theorem doDramReadComplete_uncorrectable {x : Nat} (h : readFinds a f d s = (2, x)) (context : Nat) :
    doDramReadComplete r a f d context s = requesterUe r context (dramUe a r s) := by
  unfold doDramReadComplete
  rw [if_neg (read_served hr hserves), if_neg (Nat.not_le.2 ha), h]
  exact (copyPointer_of_ne hmigrate a _).trans (if_neg hmigrate)

end Served

/-- The scrubber passes a good line that is not the sweep's last (R372). -/
theorem doPatrolScrubRead_good (hon : rdb R.MEMC_SCRUB_CFG 0 s = true) (h2 : rdf R.MEMC_STATUS 0 3 s = 2)
    (hline : s.mem.scrubLine + 1 < 2 ^ 32) (h : readFinds (64 * s.mem.scrubLine) f d s = (0, d)) :
    doPatrolScrubRead f d s =
      wr R.MEMC_SCRUB_PTR ((s.mem.scrubLine + 1) / 16384) (modMem (fun m => { m with scrubLine := s.mem.scrubLine + 1 }) s) := by
  unfold doPatrolScrubRead
  rw [if_neg (by simp [hon, h2])]
  dsimp only
  rw [h, if_neg (Nat.not_le.2 hline)]
  rfl
/-- A word of SRAM in which no error is injected is as it is found (R373). -/
theorem doSramScrub_found {region offset : Nat} (h : ∀ e ∈ s.mem.sramInjected, e.1 ≠ offset / 8) (found : Nat) :
    doSramScrub region offset found s =
      if found = 0 then s else if found = 1 then sramCe region offset 0xFF s else sramUe region offset 0xFF 1 s := by
  have hnone : s.mem.sramInjected.find? (fun e => e.1 == offset / 8) = none := List.find?_eq_none.2 fun e he => by simpa using h e he
  unfold doSramScrub
  rw [hnone]

end Reads

/-- A command that met an error is reported, whether its replays failed or one passed (R367). -/
theorem doDramCmdAlert_shows {r : Nat} {failed : Bool} (h : failed = true → r ≠ rqCam) (a kind n context : Nat) (s : State) :
    EventShows 179 (doDramCmdAlert r a kind n failed context s) := by
  unfold doDramCmdAlert
  extract_lets c post
  split
  · next hfailed =>
    rw [requesterUe_of_ne (h hfailed)]
    exact posted ..
  · exact posted ..
theorem dramNoAddr_shows (a r : Nat) (s : State) : EventShows 177 (dramNoAddr a r s) := posted ..
theorem sramUe_shows (region offset r scrubber : Nat) (s : State) : EventShows 188 (sramUe region offset r scrubber s) := posted ..

/-- Settles O39: each command is rewritten to the report of the error it finds, whose last step posts the event. -/
theorem memoryErrors : Obligations.MemoryErrors := by
  refine ⟨?read, ?beyond, ?failed, ?recovered, ?patrol, ?sram⟩
  case read =>
    intro r a d ctx s hr hmigrate hserves ha
    exact ⟨fun h => congrArg Host.Outcome.next (doDramReadComplete_good hr hserves hmigrate ha h ctx),
      fun f x h => congrArg Host.Outcome.next (doDramReadComplete_correctable hr hserves hmigrate ha h ctx),
      fun f x h => congrArg Host.Outcome.next (doDramReadComplete_uncorrectable hr hserves hmigrate ha h ctx)⟩
  case beyond =>
    intro r a f d ctx s hr hcam hserves ha
    exact ⟨_, congrArg Host.Outcome.next ((doDramReadComplete_beyond hr hserves ha f d ctx).trans (requesterUe_of_ne hcam ..)), dramNoAddr_shows ..⟩
  case failed => exact fun r a kind n ctx s hcam => ⟨_, rfl, doDramCmdAlert_shows (fun _ => hcam) ..⟩
  case recovered => exact fun r a kind n ctx s => ⟨_, rfl, doDramCmdAlert_shows (fun h => absurd h Bool.false_ne_true) ..⟩
  case patrol => exact fun d s hon h2 hline h => congrArg Host.Outcome.next (doPatrolScrubRead_good hon h2 hline h)
  case sram =>
    exact fun reg off s h => ⟨congrArg Host.Outcome.next (doSramScrub_found h 0), congrArg Host.Outcome.next (doSramScrub_found h 1),
      _, congrArg Host.Outcome.next (doSramScrub_found h 2), sramUe_shows ..⟩

end Sys2Proof.Proofs
end

section
/-! The arbiter (R375 to R383): what its operations leave alone, and what each of its commands does before a decision. -/

namespace Sys2Proof.Proofs
open Sys2Proof Sys2Proof.Machine Sys2Proof.Laws

/-! ### What the counters and the owed slots leave alone -/

/-- A counter of the arbiter writes registers alone, and its event touches neither requests nor the dose path (R384). -/
theorem bumpArb_arb (r : RegInfo) (n off i : Nat) (s : State) : (bump r n (satArb off) s i).arb = s.arb :=
  bump_part State.arb (fun _ _ => rfl) (fun _ => postEvent_arb ..) s
theorem bumpArb_dose (r : RegInfo) (n off i : Nat) (s : State) : (bump r n (satArb off) s i).dose = s.dose :=
  bump_part State.dose (fun _ _ => rfl) (fun _ => postEvent_dose ..) s
theorem bumpArb_time (r : RegInfo) (n off i : Nat) (s : State) : (bump r n (satArb off) s i).time = s.time :=
  bump_part State.time (fun _ _ => rfl) (fun _ => postEvent_time ..) s
theorem slotPointer_setOwed (r : Nat) (l : List Nat) (s : State) : slotPointer (setOwed r l s) = slotPointer s :=
  rdf_wr_row (q := R.ARB_STATUS) (r := R.ARB_OWED) (by decide) ..
theorem slotNo_setOwed (r : Nat) (l : List Nat) (s : State) : (setOwed r l s).arb.slotNo = s.arb.slotNo := rfl
theorem holder_setOwed (r : Nat) (l : List Nat) (s : State) : (setOwed r l s).arb.holder = s.arb.holder := rfl
/-- A requester that drops its request does not request, and the grant stands. -/
theorem requesting_dropRequest (r : Nat) (s : State) : requesting r (dropRequest r s) = false :=
  congrArg Option.isSome (tget?_terase s.arb.requests r)
theorem holder_dropRequest (r : Nat) (s : State) : (dropRequest r s).arb.holder = s.arb.holder := rfl
theorem requesting_arb {s t : State} (e : t.arb.requests = s.arb.requests) (r : Nat) : requesting r t = requesting r s :=
  congrArg (fun x => (tget? x r).isSome) e

/-! ### The commands -/

/-- A requester's request is recorded with its time, where it does not stand already (R377). -/
def requestRaised (r : Nat) (s : State) : State :=
  if requesting r s then s else modArb (fun a => { a with requests := tset a.requests r s.time.ns }) s
/-- While DRAM is served a request is recorded and decided (R378). -/
theorem doArbRequest_served {r : Nat} {s : State} (hr : r < 10) (h2 : rdf R.MEMC_STATUS 0 3 s = 2) (late : Bool) :
    doArbRequest r late s = decideGrant (requestRaised r s) := by
  unfold doArbRequest
  rw [if_neg (Nat.not_le.2 hr), h2]
  rfl

/-- The holder has used up its burst: its accesses are counted, the grant is free, and its request stands anew (R377). -/
def burstEnded (h : Nat) (s : State) : State :=
  let t := modArb (fun a => { a with holder := none }) (bump R.ARB_GRANTS s.arb.limit (satArb (0x100 + 4 * h)) s h)
  modArb (fun a => { a with requests := tset a.requests h t.time.ns }) t
theorem doArbGrantEnd_burst {h : Nat} {s : State} (hh : s.arb.holder = some h) :
    doArbGrantEnd none s = resumeEntry (decideGrant (burstEnded h s)) := by
  unfold doArbGrantEnd
  rw [hh]
  rfl
theorem doArbGrantEnd_free {s : State} (hh : s.arb.holder = none) (dropAt : Option Nat) : doArbGrantEnd dropAt s = s := by
  unfold doArbGrantEnd
  rw [hh]
theorem requests_burstEnded (h : Nat) (s : State) : (burstEnded h s).arb.requests = tset s.arb.requests h s.time.ns := by
  unfold burstEnded
  extract_lets t
  have harb : t.arb.requests = s.arb.requests := (congrArg ArbState.requests (bumpArb_arb R.ARB_GRANTS s.arb.limit (0x100 + 4 * h) h s) :)
  have htime : t.time = s.time := bumpArb_time ..
  rw [modArb_get, harb, htime]
theorem dose_burstEnded (h : Nat) (s : State) : (burstEnded h s).dose = s.dose := bumpArb_dose ..

/-- The pointer and the slot number move by one; what else the slot does before the owed slots are checked moves neither (R375, R383). -/
theorem doArbSlotAdvance_advances (s : State) : ∃ u, doArbSlotAdvance s = showArb (each (List.range 10) checkOwed u) ∧
    u.arb.slotNo = s.arb.slotNo + 1 ∧ slotPointer u = (slotPointer s + 1) % 256 := by
  unfold doArbSlotAdvance
  extract_lets i s1 s2 o held s3
  have hmoved : s1.arb.slotNo = s.arb.slotNo + 1 ∧ slotPointer s1 = i :=
    ⟨rfl, rdf_wrf_fits (by decide) (by decide) (Nat.mod_lt _ (by decide)) s 0⟩
  have hswitch : s2.arb.slotNo = s1.arb.slotNo ∧ slotPointer s2 = slotPointer s1 := by
    unfold s2
    split
    · exact ⟨rfl, (rdf_wrb_ne (by decide) (by decide) (by decide) _ _ 0).trans (rdf_wr_ne (by decide) _ _ _ s1)⟩
    · exact ⟨rfl, rfl⟩
  have howed : s3.arb.slotNo = s2.arb.slotNo ∧ slotPointer s3 = slotPointer s2 := by
    unfold s3
    split
    · exact ⟨slotNo_setOwed .., slotPointer_setOwed ..⟩
    · exact ⟨rfl, rfl⟩
  exact ⟨s3, rfl, howed.1.trans (hswitch.1.trans hmoved.1), howed.2.trans (hswitch.2.trans hmoved.2)⟩

/-- A wait breaks: the younger requester's request goes, with its grant where it holds it, and EV_ARB_WAIT tells of it (R382). -/
def waitBroken (young other tw : Nat) (release : Bool) (s : State) : State :=
  let t := sif release (modArb (fun a => { a with holder := none })) (dropRequest young s)
  let t := bump R.ARB_WAIT_BREAKS 1 (satArb 0x10) t
  postEvent 189 young 1 0 [(0, 1, (other : Nat)), (4, 4, (((t.time.ns - tw) * 8 / 5 : Nat) : Nat))] t
theorem waitBroken_arb (young other tw : Nat) (release : Bool) (s : State) : (waitBroken young other tw release s).arb =
    (sif release (modArb (fun a => { a with holder := none })) (dropRequest young s)).arb := (postEvent_arb ..).trans (bumpArb_arb ..)
theorem waitBroken_drops (young other tw : Nat) (release : Bool) (s : State) :
    requesting young (waitBroken young other tw release s) = false := by
  have hrequests : (waitBroken young other tw release s).arb.requests = (dropRequest young s).arb.requests := by
    rw [waitBroken_arb]
    cases release <;> rfl
  exact (requesting_arb hrequests young).trans (requesting_dropRequest young s)

section WaitBreak
variable {w h tw : Nat} {s : State} (hh : s.arb.holder = some h) (hw : tget? s.arb.requests w = some tw) (hne : w ≠ h)
include hh hw hne

/-- The holder asked later than the waiter: it is the younger. -/
theorem doArbWaitBreak_holder (hlater : tw < tget 0 s.arb.requests h) : doArbWaitBreak w s = decideGrant (waitBroken h w tw true s) := by
  unfold doArbWaitBreak
  rw [hh, hw]
  dsimp only
  rw [if_neg (Ne.symm hne), if_pos hlater, if_pos rfl, if_pos hlater]
  rfl
theorem doArbWaitBreak_waiter (hearlier : tget 0 s.arb.requests h ≤ tw) : doArbWaitBreak w s = decideGrant (waitBroken w h tw false s) := by
  have hnot : ¬ tget 0 s.arb.requests h > tw := Nat.not_lt.2 hearlier
  unfold doArbWaitBreak
  rw [hh, hw]
  dsimp only
  rw [if_neg (Ne.symm hne), if_neg hnot, if_neg hne, if_neg hnot]
  rfl

end WaitBreak

/-- Settles O40: each command is rewritten to the change it makes before the arbiter decides. -/
theorem arbiterCommands : Obligations.ArbiterCommands := by
  refine ⟨?request, ?burst, ?free, ?slot, ?wait, ?switch⟩
  case request =>
    intro r late s hr h2
    have hserved := congrArg (Host.Outcome.next (φ := Fault) (ρ := Refusal)) (doArbRequest_served hr h2 late)
    exact ⟨fun hnew => hserved.trans (by rw [requestRaised, if_neg (by simp [hnew])]; rfl),
      fun hold => hserved.trans (by rw [requestRaised, if_pos hold])⟩
  case burst =>
    exact fun h s hh => ⟨_, congrArg Host.Outcome.next (doArbGrantEnd_burst hh), rfl, requests_burstEnded h s, dose_burstEnded h s⟩
  case free => exact fun s hh => congrArg Host.Outcome.next (doArbGrantEnd_free hh none)
  case slot =>
    intro s
    obtain ⟨u, e, hslot, hpointer⟩ := doArbSlotAdvance_advances s
    exact ⟨u, congrArg Host.Outcome.next e, hslot, fun h => by omega, fun h => by omega⟩
  case wait =>
    intro w h tw s hh hw hne
    obtain hlater | hearlier := Nat.lt_or_ge tw (tget 0 s.arb.requests h)
    · exact ⟨_, congrArg Host.Outcome.next (doArbWaitBreak_holder hh hw hne hlater), posted ..,
        fun _ => ⟨waitBroken_drops .., congrArg ArbState.holder (waitBroken_arb h w tw true s)⟩, fun hle => absurd hlater (Nat.not_lt.2 hle)⟩
    · exact ⟨_, congrArg Host.Outcome.next (doArbWaitBreak_waiter hh hw hne hearlier), posted .., fun hlt => absurd hlt (Nat.not_lt.2 hearlier),
        fun _ => ⟨waitBroken_drops .., (congrArg ArbState.holder (waitBroken_arb w h tw false s)).trans hh⟩⟩
  case switch => exact fun v s => ⟨fun h => congrArg Host.Outcome.next (if_pos h), fun h => congrArg Host.Outcome.next (if_neg (by simp [h]))⟩

end Sys2Proof.Proofs
end

section
/-! The helper DMA channels (R390, R392 to R397, R408): what a channel's state shows, and which rule of its start, its stop, its
queue's resume, its descriptor's end and its append each command meets. -/

namespace Sys2Proof.Proofs
open Sys2Proof Sys2Proof.Machine Sys2Proof.Laws

/-! ### What a channel shows of its state (R408) -/

theorem chState_setCh {st : Nat} (h : st < 4) (c : Nat) (s : State) : chState c (setCh c st s) = st :=
  calc rdf R.UDMA_CH_STATUS 0 2 (setCh c st s) c
    _ = rdf R.UDMA_CH_STATUS 0 2 (wrb R.UDMA_BUSY c (decide (st ≠ 0)) (wrf R.UDMA_CH_STATUS 0 2 st s c)) c := rdf_wr_row (by decide) ..
    _ = rdf R.UDMA_CH_STATUS 0 2 (wrf R.UDMA_CH_STATUS 0 2 st s c) c := rdf_wr_row (by decide) ..
    _ = st := rdf_wrf_fits (by decide) (by decide) h s c
/-- Each of the 16 channels has its bit in UDMA_BUSY. -/
theorem busy_setCh {c : Nat} (hc : c ≤ 15) (st : Nat) (s : State) : rdb R.UDMA_BUSY c (setCh c st s) = decide (st ≠ 0) :=
  (rdb_wr_row (by decide) ..).trans (rdb_wrb (by decide) (by simp only [R.UDMA_BUSY]; omega) _ _ 0)
theorem start_setCh (c st : Nat) (s : State) : rdb R.UDMA_CTRL 0 (setCh c st s) c = decide (st = 1 ∨ st = 2) :=
  rdb_wrb (by decide) (by decide) _ _ c
/-- UDMA_DONE is an event or nothing. -/
theorem postDone_mem (c r : Nat) (s : State) : (postDone c r s).mem = s.mem := by
  unfold postDone
  dsimp only
  split
  · exact postEvent_mem ..
  · rfl

/-! ### UDMA_START (R390, R392) -/

/-- The work that a start outside a chain takes from the channel's registers. -/
def registerWork (c : Nat) (s : State) : UdmaWork :=
  { swap := bits 2 2 (rd R.UDMA_CTRL s c), srcSpace := bits 4 2 (rd R.UDMA_CTRL s c), dstSpace := bits 6 2 (rd R.UDMA_CTRL s c),
    total := rd R.UDMA_COUNT s c }
theorem workOf_setWork (c : Nat) (w : UdmaWork) (s : State) : workOf c (setWork c w s) = w := by
  show tget {} (tset s.mem.udma c w) c = w
  rw [tget_tset, if_pos rfl]
theorem launch_accepted {c : Nat} {s : State}
    (h : refusal c (workOf c s) (rd R.UDMA_SRC s c) (rd R.UDMA_DST s c) (rd R.UDMA_COUNT s c) s = none) :
    launch c s = setCh c (if paceQueue c s = 0 then 1 else 2) (wrb R.UDMA_CH_STATUS 8 false (setResult c 0 s) c) := by
  unfold launch
  rw [h]
/-- The setting is judged by the registers that a channel's work does not change. -/
theorem doUdmaStart_accepted {c : Nat} {s : State} (hc : c ≤ 15) (hidle : chState c s = 0) (hchain : rdb R.UDMA_CTRL 8 s c = false)
    (h : refusal c (registerWork c s) (rd R.UDMA_SRC s c) (rd R.UDMA_DST s c) (rd R.UDMA_COUNT s c) s = none) :
    doUdmaStart c s = setCh c (if paceQueue c s = 0 then 1 else 2)
      (wrb R.UDMA_CH_STATUS 8 false (setResult c 0 (setWork c (registerWork c s) s)) c) := by
  have haccepted : refusal c (workOf c (setWork c (registerWork c s) s)) (rd R.UDMA_SRC s c) (rd R.UDMA_DST s c) (rd R.UDMA_COUNT s c)
      (setWork c (registerWork c s) s) = none := by
    rw [workOf_setWork]
    exact h
  unfold doUdmaStart
  rw [if_neg (Nat.not_lt.2 hc), if_neg (by omega), if_neg (by omega), hchain, if_neg (by decide)]
  exact launch_accepted haccepted
/-- From ERR the channel returns to IDLE (R396). -/
theorem doUdmaStart_err {c : Nat} {s : State} (hc : c ≤ 15) (herr : chState c s = 3) :
    doUdmaStart c s = setCh c 0 (wrb R.UDMA_CH_STATUS 8 false s c) := by
  unfold doUdmaStart
  rw [if_neg (Nat.not_lt.2 hc), if_pos herr]

/-! ### UDMA_STOP and UDMA_DESCRIPTOR_DONE (R394, R397) -/

theorem runBeats_through {c : Nat} {s : State} (h : rd R.UDMA_COUNT s c = 0) (fuel level : Nat) : runBeats c fuel level s = s := by
  cases fuel with
  | zero => rfl
  | succ n => exact if_pos (.inr h)
/-- With no beat through by then the channel moves nothing before it stops. -/
theorem doUdmaStop_running {c : Nat} {s : State} (hc : c ≤ 15) (hrun : chState c s = 1) (level : Nat) :
    doUdmaStop c 0 level s = setCh c 0 (postDone c 6 (setResult c 6 s)) := by
  have hnone : runBeats c 0 level s = s := rfl
  unfold doUdmaStop
  rw [if_neg (Nat.not_lt.2 hc), if_neg (by omega), if_neg (by omega), hnone]
  exact if_neg (by omega)
theorem doUdmaDescriptorDone_through {c : Nat} {s : State} (hc : c ≤ 15) (hrun : chState c s = 1) (hcount : rd R.UDMA_COUNT s c = 0)
    (level : Nat) : doUdmaDescriptorDone c level s = finishWork c s := by
  unfold doUdmaDescriptorDone
  rw [if_neg (by omega), runBeats_through hcount]
  exact if_pos ⟨hrun, hcount⟩

/-! ### UDMA_APPEND (R395) -/

/-- The chain's last descriptor is linked to the one at `off`, which is its new tail. -/
def chainExtended (c off : Nat) (s : State) : State :=
  let tail := rd R.UDMA_TAIL s c
  let flags := bytesAt (readSram s (tail + 20) 1) 0 1
  wr R.UDMA_TAIL off (writeSram (tail + 20) (leBytes 1 (setBit 7 false flags)) (writeSram (tail + 24) (leBytes 4 off) s)) c

section Append
variable {v : Nat} {s : State}

theorem writeAppend_err (h : chState (bits 32 4 v) s = 3) : writeAppend v s = wr R.UDMA_APPEND_RESULT (2 + 2 ^ 4 * bits 32 4 v) s :=
  if_pos h
theorem writeAppend_chain (h : chState (bits 32 4 v) s ≠ 3) :
    writeAppend v s = if chState (bits 32 4 v) (chainExtended (bits 32 4 v) (bits 0 27 v) s) = 0 then
        wr R.UDMA_APPEND_RESULT (1 + 2 ^ 4 * bits 32 4 v)
          (startChain (bits 32 4 v) (bits 0 27 v) (chainExtended (bits 32 4 v) (bits 0 27 v) s))
      else wr R.UDMA_APPEND_RESULT (2 ^ 4 * bits 32 4 v) (chainExtended (bits 32 4 v) (bits 0 27 v) s) := if_neg h
theorem writeAppend_dram : (writeAppend v s).mem.dram = s.mem.dram :=
  (writeAppend_keeps (hm := rfl) (h := Keeps.refl 52802327937852 s)).same_dram rfl

end Append

theorem appendResult_wr {n : Nat} (h : n < 2 ^ 32) (s : State) : rd R.UDMA_APPEND_RESULT (wr R.UDMA_APPEND_RESULT n s) = n :=
  (rd_wr (by decide) n s 0).trans (Nat.mod_eq_of_lt h)

/-- Settles O41: each command is rewritten to the rule it meets, which sets the channel's state last. -/
theorem helperDmaCommands : Obligations.HelperDmaCommands := by
  refine ⟨?start, ?err, ?resume, ?stop, ?done, fun v s => ⟨?refused, ?append⟩⟩
  case start =>
    intro c s hc hidle hchain hok
    have hst : (if paceQueue c s = 0 then 1 else 2) = 1 ∨ (if paceQueue c s = 0 then 1 else 2) = 2 := by split <;> simp
    refine ⟨_, congrArg Host.Outcome.next (doUdmaStart_accepted hc hidle hchain hok), chState_setCh (by omega) .., ?_, ?_, rfl, rfl⟩
    · exact (busy_setCh hc ..).trans (decide_eq_true (by omega))
    · exact (start_setCh ..).trans (decide_eq_true hst)
  case err =>
    exact fun c s hc herr => ⟨_, congrArg Host.Outcome.next (doUdmaStart_err hc herr), chState_setCh (by decide) .., busy_setCh hc ..⟩
  case resume =>
    exact fun c l s hc hpaced hlevel => ⟨_, congrArg Host.Outcome.next (if_pos ⟨hc, hpaced, hlevel⟩), chState_setCh (by decide) .., rfl⟩
  case stop =>
    exact fun c l s hc hrun => ⟨_, congrArg Host.Outcome.next (doUdmaStop_running hc hrun l), rfl, chState_setCh (by decide) ..,
      busy_setCh hc .., postDone_mem ..⟩
  case done => exact fun c l s hc hrun hcount => congrArg Host.Outcome.next (doUdmaDescriptorDone_through hc hrun hcount l)
  case refused => exact fun herr => congrArg Host.Outcome.next (writeAppend_err herr)
  case append =>
    have hchannel := bits_lt 32 4 v.toNat
    refine fun hok => ⟨_, rfl, ?_, writeAppend_dram⟩
    rw [writeAppend_chain hok]
    split
    · exact .inr (appendResult_wr (by omega) _)
    · exact .inl (appendResult_wr (by omega) _)

end Sys2Proof.Proofs
end

section
/-! The CRC units (R398 to R400, R407): how a unit ends, and that its end is reported. -/

namespace Sys2Proof.Proofs
open Sys2Proof Sys2Proof.Machine Sys2Proof.Laws

/-- CRC_CTRL stands through what leaves block CRC alone. -/
theorem crcCtrl_off {m : Nat} (h : off m 46) (u : Nat) : off m (32 + regAddr R.CRC_CTRL u / 65536 % 32) := by
  rw [regAddr_block (by decide)]
  exact h
theorem rdb_crcCtrl_postCrcDone (n u cause : Nat) (s : State) : rdb R.CRC_CTRL n (postCrcDone u cause s) u = rdb R.CRC_CTRL n s u :=
  rdb_postEvent (crcCtrl_off rfl u) ..
theorem rd_crcCtrl_countError (u : Nat) (s : State) :
    rd R.CRC_CTRL (bump R.CRC_ERRORS 1 (satCrc u (0x13C + 0x40 * u)) s u) u = rd R.CRC_CTRL s u :=
  rd_bump (regAddr_ne_disjoint (q := R.CRC_CTRL) (r := R.CRC_ERRORS) (by decide) u u) (fun _ => rd_postEvent (crcCtrl_off rfl u) ..) s
theorem postCrcDone_shows (u cause : Nat) (s : State) : EventShows 195 (postCrcDone u cause s) := posted ..
/-- CRC_CTRL.busy is clear after an end on a memory error. -/
theorem crcError_halted (u : Nat) (s : State) : rdb R.CRC_CTRL 12 (crcError u s) u = false :=
  calc rdb R.CRC_CTRL 12 (crcError u s) u
    _ = rdb R.CRC_CTRL 12 (bump R.CRC_ERRORS 1 (satCrc u (0x13C + 0x40 * u)) (wrb R.CRC_CTRL 13 true (wrb R.CRC_CTRL 12 false s u) u) u) u :=
        rdb_crcCtrl_postCrcDone ..
    _ = rdb R.CRC_CTRL 12 (wrb R.CRC_CTRL 13 true (wrb R.CRC_CTRL 12 false s u) u) u := congrArg (bit 12) (rd_crcCtrl_countError ..)
    _ = rdb R.CRC_CTRL 12 (wrb R.CRC_CTRL 12 false s u) u := rdb_wrb_ne (by decide) (by decide) (by decide) ..
    _ = false := rdb_wrb (by decide) (by decide) ..

section Units
variable {u : Nat} {s s' : State}

theorem doCrcStart_halted (hf : crcFree u s = true) (hrest : rdb R.CRC_CTRL 12 s u = false) :
    doCrcStart u s = wrb R.CRC_CTRL 12 true (wrb R.CRC_CTRL 13 false s u) u := if_pos (by simp [hf, hrest])
theorem doCrcStop_running {n : Nat} (hf : crcFree u s = true) (hrun : rdb R.CRC_CTRL 12 s u = true)
    (hc : crcConsume u (min n (rd R.CRC_LEN s u)) s = (false, s')) : doCrcStop u n s = wrb R.CRC_CTRL 12 false s' u := by
  unfold doCrcStop
  rw [if_pos (by simp [hf, hrun]), hc]
  exact if_neg (by decide)
/-- The result of the bytes consumed so far, reflected and inverted as the unit is set (R398). -/
def crcResult (u : Nat) (s : State) : Nat :=
  ((if rdb R.CRC_CTRL 9 s u then reflect (crcWidth u s) (rd R.CRC_RUN s u) else rd R.CRC_RUN s u) ^^^
    (rd R.CRC_XOROUT s u % 2 ^ crcWidth u s)) % 2 ^ crcWidth u s
/-- The bytes left are consumed, and the result is stored (R399). -/
theorem doCrcUnitDone_good (hu : u < 4) (hrun : rdb R.CRC_CTRL 12 s u = true) (hc : crcConsume u (rd R.CRC_LEN s u) s = (false, s')) :
    doCrcUnitDone u s = postCrcDone u 0 (wrb R.CRC_CTRL 12 false (wr R.CRC_RESULT (crcResult u s') s' u) u) := by
  unfold doCrcUnitDone
  rw [if_pos ⟨hu, hrun⟩, hc]
  rfl
theorem doCrcUnitDone_error (hu : u < 4) (hrun : rdb R.CRC_CTRL 12 s u = true) (hc : crcConsume u (rd R.CRC_LEN s u) s = (true, s')) :
    doCrcUnitDone u s = crcError u s' := by
  unfold doCrcUnitDone
  rw [if_pos ⟨hu, hrun⟩, hc]
  rfl
theorem doCrcUnitDone_halted (h : rdb R.CRC_CTRL 12 s u = false) : doCrcUnitDone u s = s := if_neg (by simp [h])

end Units

/-- Settles O42: each command is one branch of its rule; CRC_UNIT_DONE ends the unit and posts CRC_DONE whether or not its last
bytes meet a memory error. -/
theorem crcUnitCommands : Obligations.CrcUnitCommands := by
  refine ⟨?load, ?start, ?stop, ?done, ?halted⟩
  case load => exact fun u s hf => congrArg Host.Outcome.next (if_pos hf)
  case start =>
    exact fun u s hf hrest => ⟨_, congrArg Host.Outcome.next (doCrcStart_halted hf hrest), rdb_wrb (by decide) (by decide) ..,
      (rdb_wrb_ne (by decide) (by decide) (by decide) ..).trans (rdb_wrb (by decide) (by decide) ..), rfl⟩
  case stop => exact fun u n s s' hf hrun hc => congrArg Host.Outcome.next (doCrcStop_running hf hrun hc)
  case done =>
    intro u s hu hrun
    obtain ⟨bad, s', hc⟩ : ∃ bad s', crcConsume u (rd R.CRC_LEN s u) s = (bad, s') := ⟨_, _, rfl⟩
    cases bad with
    | false =>
      exact ⟨_, congrArg Host.Outcome.next (doCrcUnitDone_good hu hrun hc), postCrcDone_shows ..,
        (rdb_crcCtrl_postCrcDone ..).trans (rdb_wrb (by decide) (by decide) ..)⟩
    | true =>
      exact ⟨_, congrArg Host.Outcome.next (doCrcUnitDone_error hu hrun hc), postCrcDone_shows .., crcError_halted u s'⟩
  case halted => exact fun u s h => congrArg Host.Outcome.next (doCrcUnitDone_halted h)

end Sys2Proof.Proofs
end

section
/-! UTILITY and UPLOAD descriptors that pass the common checks, and the end of a UTILITY job and of a buffer's time (R57, R68, R401 to
R405). -/

namespace Sys2Proof.Proofs
open Sys2Proof Sys2Proof.Machine Sys2Proof.Laws

/-- A UTILITY descriptor is a job that waits for its turn and its engine (R405). -/
theorem readDesc_takeJob {k code used : Nat} {d : Desc} {tests : List (Nat × Bool)} {s : State} (h : Offers k d code used tests s)
    (hc : opcodes.contains code = true) : readDesc k d code used tests (takeJob k) s = takeJob k (nextIndex k s) (taken k d s) :=
  readDesc_offers h hc
/-- An UPLOAD_BUFFER offers its buffer to its stream (R68). -/
theorem doUploadBuffer_offered {k : Nat} {d : Desc} {s : State} (h : Offers k d 0x60 (usedBits [(8, 8), (16, 4), (20, 1)])
      [(16, decide (4096 ≤ dfld d 16 4 ∧ dfld d 16 4 ≤ 16777216) && dfld d 16 4 % 64 == 0), (20, decide (dfld d 20 1 < 8))] s) :
    doUploadBuffer k d s = pumpStream (dfld d 20 1) ((streamOf s (dfld d 20 1)).staged.length + 2) (taken k d s) := by
  unfold doUploadBuffer
  exact readDesc_offers h (by decide)
theorem doUtilityJobDone_runs {k i : Nat} {j : Job} {s : State} (hj : findJob k i s = some j) (ht : ringType s k = tyUtility)
    (hstarted : j.started = true) (hopen : j.cpl = none) (hside : hostSide j.desc = false) :
    doUtilityJobDone k i s = pumpUtility 64 (runJob k j s) := by
  unfold doUtilityJobDone
  rw [hj]
  exact if_pos ⟨ht, hstarted, by simp [hopen], by simp [hside]⟩
/-- A buffer that has taken a record (R68). -/
theorem doUploadBufferTimeout_closes {n k : Nat} {j : Job} {s : State} (hw : waitingBuffer n s = some (k, j)) (hp : j.phase ≠ 0) :
    doUploadBufferTimeout n s = closeBuffer k j s := by
  unfold doUploadBufferTimeout
  rw [hw]
  exact if_neg hp

/-- Settles O24: a descriptor that passes the common checks goes to its opcode's rule, which for the six UTILITY opcodes is the same. -/
theorem utilityOpcodes : Obligations.UtilityOpcodes := by
  refine ⟨?crc, ?compress, ?decompress, ?fill, ?copy, ?scrub, ?done, ?upload, ?timeout⟩
  case crc | compress | decompress | fill | copy | scrub =>
    exact fun k d s h => congrArg Host.Outcome.next (readDesc_takeJob h (by decide))
  case done => exact fun k i j s hj ht hst hopen hside => congrArg Host.Outcome.next (doUtilityJobDone_runs hj ht hst hopen hside)
  case upload => exact fun k d s h => congrArg Host.Outcome.next (doUploadBuffer_offered h)
  case timeout => exact fun n k j s hw hp => congrArg Host.Outcome.next (doUploadBufferTimeout_closes hw hp)

end Sys2Proof.Proofs
end

section
/-! A step with nothing waiting (R411): the TCLK edge advances E, and what follows it there leaves the time, the mode and the axes alone. -/

namespace Sys2Proof.Proofs
open Sys2Proof Sys2Proof.Machine Sys2Proof.Laws

section Edge
variable {s : State}

/-! ### The advance of E (R411) -/

theorem e32_advanceE (s : State) : e32 (advanceE s) = (e32 s + rd R.TSY_INCREMENT s) % 2 ^ 96 := Nat.div_add_mod' _ _
theorem advanceE_only (s : State) : Keeps 64 s (advanceE s) := advanceE_keeps rfl (Keeps.refl 64 s)
theorem tick_stopped (h : clockRuns s = false) : tick s = s := if_neg (by simp [h])

/-! ### What may follow it: records and schedules, hold requests, control buses (R330, R335, R506, R507) -/

/-- What every element leaves alone the fold leaves alone. -/
theorem each_part {α β : Type} {f : α → State → State} (part : State → β) {l : List α} (h : ∀ a ∈ l, ∀ u, part (f a u) = part u) (s : State) :
    part (each l f s) = part s :=
  each_relates (Rel := fun u v => part v = part u) (fun _ => rfl) (fun _ _ _ h k => k.trans h) h s
/-- A waiting record writes MND_CTRL, and its descriptor completes. -/
theorem policyWaiting_ctl (s : State) : (policyWaiting s).ctl = s.ctl := by
  refine each_part State.ctl (fun k _ u => ?_) s
  split
  · rfl
  · dsimp only
    split
    · refine ((finish_keeps rfl (Keeps.refl 25769803828 _)).same_ctl rfl).trans (each_part State.ctl (fun r hr v => ?_) u)
      have hty : r.2.1 = 0x13 := by simpa using (List.mem_filter.1 hr).2
      rw [hty]
      rfl
    · rfl
theorem runSchedules_none (h : s.ctl.schedules = []) : runSchedules s = s := by
  unfold runSchedules
  rw [h]
  exact ite_self s
theorem camPulses_ctl (c : Nat) (l : List Nat) (s : State) : (each l (fun p s => camPulse p c s) s).ctl = s.ctl :=
  (each_keeps (Keeps.refl 72057619807862836 s) fun _ _ k => camPulse_keeps rfl k).same_ctl rfl
/-- The schedules ask for no hold. -/
theorem runSchedules_holdWanted (s : State) : (runSchedules s).ctl.holdWanted = s.ctl.holdWanted := by
  unfold runSchedules
  split
  · rfl
  · refine each_part (fun u => u.ctl.holdWanted) (fun e _ u => ?_) s
    dsimp only
    split
    · rfl
    · rw [camPulses_ctl]
      rfl
theorem requestHold_unwanted (h : s.ctl.holdWanted = false) : requestHold s = s := if_neg (by simp [h])
theorem advanceBuses_nothingDue (h : ∀ p < 4, (camBus s p).due = []) : advanceBuses s = s := by
  refine each_id fun p hp => if_neg ?_
  have hdue : (camBus s p).due = [] := h p (by simp at hp; omega)
  simp [hdue]

/-! ### The edge up to the control buses, and the whole edge -/

/-- E, the ports and placement's heartbeat have advanced. -/
def linksAdvanced (s : State) : State := advanceLanes (tickStep s) (advanceBeat (advanceTicks (advanceE s)))
theorem linksAdvanced_only (s : State) : Keeps 4100 (advanceE s) (linksAdvanced s) :=
  advanceLanes_keeps rfl (advanceBeat_keeps rfl (advanceTicks_keeps rfl (Keeps.refl _ _)))
theorem linksAdvanced_ctl (s : State) : (linksAdvanced s).ctl = s.ctl :=
  ((linksAdvanced_only s).same_ctl rfl).trans ((advanceE_only s).same_ctl rfl)
theorem linksAdvanced_cam (s : State) : (linksAdvanced s).cam = s.cam :=
  ((linksAdvanced_only s).same_cam rfl).trans ((advanceE_only s).same_cam rfl)
/-- The edge but for a hold request of the firmware. -/
def edgeWithoutHold (s : State) : State := pumpUtility 64 (runSchedules (policyWaiting (advanceBuses (linksAdvanced s))))
theorem edgeWithoutHold_only (s : State) : Keeps 392303266299523772 (advanceE s) (edgeWithoutHold s) :=
  pumpUtility_keeps rfl (runSchedules_keeps rfl (policyWaiting_keeps rfl (advanceBuses_keeps rfl ((linksAdvanced_only s).mono rfl))))
theorem ctl_advanceBuses_linksAdvanced (s : State) : (advanceBuses (linksAdvanced s)).ctl = s.ctl :=
  ((advanceBuses_keeps rfl (Keeps.refl 72057594038059012 _)).same_ctl rfl).trans (linksAdvanced_ctl s)
theorem tick_withoutHold (hc : clockRuns s = true) (h : s.ctl.holdWanted = false) : tick s = edgeWithoutHold s := by
  have hnone : (runSchedules (policyWaiting (advanceBuses (linksAdvanced s)))).ctl.holdWanted = false := by
    rw [runSchedules_holdWanted, policyWaiting_ctl, ctl_advanceBuses_linksAdvanced, h]
  exact (if_pos hc).trans (congrArg (pumpUtility 64) (requestHold_unwanted hnone))
theorem cam_edgeWithoutHold (hdue : ∀ p < 4, (camBus s p).due = []) (hsched : s.ctl.schedules = []) : (edgeWithoutHold s).cam = s.cam := by
  have hbuses : advanceBuses (linksAdvanced s) = linksAdvanced s :=
    advanceBuses_nothingDue fun p hp => by rw [camBus_cam (linksAdvanced_cam s), hdue p hp]
  have hnone : (policyWaiting (advanceBuses (linksAdvanced s))).ctl.schedules = [] := by
    rw [policyWaiting_ctl, ctl_advanceBuses_linksAdvanced, hsched]
  calc (edgeWithoutHold s).cam
    _ = (policyWaiting (linksAdvanced s)).cam := by
      unfold edgeWithoutHold
      rw [runSchedules_none hnone, hbuses]
      exact (pumpUtility_keeps rfl (Keeps.refl 202335909315260 _)).same_cam rfl
    _ = (linksAdvanced s).cam := (policyWaiting_keeps rfl (Keeps.refl 320043362121949236 _)).same_cam rfl
    _ = s.cam := linksAdvanced_cam s

end Edge

/-- Settles O2: with nothing waiting a step is the edge, and where no hold is wanted everything behind the advance of E leaves the
time, CTL_MODE, the axes and SRAM alone. -/
theorem idleStepIsOneTick : Obligations.IdleStepIsOneTick := by
  intro s hp
  refine ⟨fun hc => ⟨tick s, step_of_empty hp, ?_, fun h => ?_⟩, fun hc => ?_⟩
  · exact (tick_keeps rfl (Keeps.refl 969326968556403452 s)).queue.trans hp
  · rw [tick_withoutHold hc h]
    have k := edgeWithoutHold_only s
    have hall : Keeps 392303266299523836 s (edgeWithoutHold s) := ((advanceE_only s).mono rfl).trans (k.mono rfl)
    refine ⟨?_, rd_keeps hall rfl, hall.same_mot rfl, hall.same_sram rfl, cam_edgeWithoutHold⟩
    calc e32 (edgeWithoutHold s)
      _ = e32 (advanceE s) := by unfold e32; rw [k.same_time rfl]
      _ = (e32 s + rd R.TSY_INCREMENT s) % 2 ^ 96 := e32_advanceE s
  · rw [step_of_empty hp, tick_stopped hc]

end Sys2Proof.Proofs
end

section
/-! The registers of the time unit: what its operations write, and what they leave alone (R416, R418, R431, R434). -/

namespace Sys2Proof.Proofs
open Sys2Proof Sys2Proof.Machine Sys2Proof.Laws

/-! ### Registers of one block -/

theorem off_block {m : Nat} {r : RegInfo} (h : oneBlock r = true) (hm : off m (32 + r.base / 65536 % 32)) (i : Nat) :
    off m (32 + regAddr r i / 65536 % 32) := by
  rw [regAddr_block h]
  exact hm
/-- A pending bit that shows stays where a register of another block is written. -/
theorem shows_wr_block {r : RegInfo} (h : oneBlock r = true) (hb : r.base / 65536 ≠ 2) {n : Nat} (v : Nat) {s : State} (i : Nat)
    (x : EventShows n s) : EventShows n (wr r v s i) := by
  refine shows_read (rd_wr_ne (fun e => hb ?_) v s) x
  rw [← regAddr_block h i, ← e]
  simp only [regAddr, R.EVT_PENDING]
  omega

/-! ### TSY_STATUS and TSY_CTRL (R434) -/

theorem tsyState_of_rd {s t : State} (e : rd R.TSY_STATUS t = rd R.TSY_STATUS s) : tsyState t = tsyState s := congrArg (bits 0 3) e
theorem tsySource_of_rd {s t : State} (e : rd R.TSY_CTRL t = rd R.TSY_CTRL s) : tsySource t = tsySource s := congrArg (bits 0 3) e
theorem tsyState_setTsyState {st : Nat} (h : st < 8) (s : State) : tsyState (setTsyState st s) = st :=
  (rdf_wrb_ne (by decide) (by decide) (by decide) _ _ 0).trans (rdf_wrf_fits (by decide) (by decide) h s 0)
theorem locked_setTsyState (st : Nat) (s : State) : rdb R.TSY_STATUS 3 (setTsyState st s) = (st == 2 || st == 3) :=
  rdb_wrb (by decide) (by decide) _ _ 0
theorem rd_setTsyState {q : RegInfo} (h : rowsDisjoint q R.TSY_STATUS = true) (st : Nat) (s : State) (j : Nat) :
    rd q (setTsyState st s) j = rd q s j := (rd_wr_row h _ _ 0 j).trans (rd_wr_row h _ _ 0 j)
theorem rd_markPending {q : RegInfo} (h : rowsDisjoint q R.TSY_STATUS = true) (s : State) (j : Nat) : rd q (markPending s) j = rd q s j :=
  rd_wr_row h _ _ 0 j
theorem tsyState_markPending (s : State) : tsyState (markPending s) = tsyState s := rdf_wrb_ne (by decide) (by decide) (by decide) _ _ 0

/-! ### The adjustment and EV_TIME_UNLOCKED (R416, R431) -/

theorem rd_holdAdj {q : RegInfo} (ha : rowsDisjoint q R.TSY_ADJ = true) (hi : rowsDisjoint q R.TSY_INCREMENT = true) (s : State) (j : Nat) :
    rd q (holdAdj s) j = rd q s j := (rd_wr_row hi _ _ 0 j).trans (rd_wr_row ha _ _ 0 j)
theorem postUnlocked_only (cause : Nat) (s : State) : Keeps 25769812020 s (postUnlocked cause s) := postUnlocked_keeps rfl (Keeps.refl _ s)
theorem postUnlocked_shows (cause : Nat) (s : State) : EventShows 209 (postUnlocked cause s) := posted ..
theorem tsyState_postUnlocked (cause : Nat) (s : State) : tsyState (postUnlocked cause s) = tsyState s :=
  tsyState_of_rd (rd_keeps (postUnlocked_only cause s) rfl)
theorem tsySource_postUnlocked (cause : Nat) (s : State) : tsySource (postUnlocked cause s) = tsySource s :=
  tsySource_of_rd (rd_keeps (postUnlocked_only cause s) rfl)

/-! ### The pulse of the PPS output (R425) -/

theorem rd_ppsPulse (on : Bool) (s : State) (q : RegInfo) (j : Nat) : rd q (ppsPulse on s) j = rd q s j := by
  unfold ppsPulse sif
  split <;> rfl
theorem ppsPulse_time (on : Bool) (s : State) : (ppsPulse on s).time = { s.time with ppsPulse := on } := by
  unfold ppsPulse sif
  split <;> rfl
theorem ppsPulse_drives (on : Bool) {s : State} (h : rdb R.PIN_FAULT 22 s = false) :
    ppsPulse on s = emit (.ppsOutput on (on != rdb R.TSY_PPS_CFG 0 s)) { s with time := { s.time with ppsPulse := on } } := by
  unfold ppsPulse sif
  rw [h]
  rfl

end Sys2Proof.Proofs
end

section
/-! The servo (R413 to R418, R432): samples, holdover, a change of the source, and the wrap of TT. -/

namespace Sys2Proof.Proofs
open Sys2Proof Sys2Proof.Machine Sys2Proof.Laws

/-! ### Samples (R415, R416, R418) -/

/-- With stepping off and nothing pending a sample updates the servo, and the lock is judged. -/
theorem servoSample_tracks {θ : Int} {s : State} (hoff : rdb R.TSY_CTRL 5 s = false) (hservo : s.time.pendServo = none)
    (hhost : s.time.pendHost = []) (h3 : tsyState s ≠ 3) :
    servoSample θ s = servoState θ (servoUpdate θ (wrI R.TSY_OFFSET θ s)) := by
  unfold servoSample
  extract_lets s1 big
  have hbig : big = false := Bool.and_eq_false_iff.2 (.inr ((rdb_wr_row (by decide) _ _ _ 0 0).trans hoff))
  have hservo : s1.time.pendServo = none := hservo
  have hhost : s1.time.pendHost = [] := hhost
  have h3 : tsyState s1 ≠ 3 := fun x => h3 ((tsyState_of_rd (rd_wr_row rfl _ s 0 0)).symm.trans x)
  rw [if_neg (by simp [hbig, hservo]), if_neg (by simp [hhost]), if_neg (by simp [hbig]), if_neg h3]

/-! ### Holdover (R418) -/

theorem doServoNoSample_locked {s : State} (h : tsyState s = 2) : doServoNoSample s = holdAdj (setTsyState 3 s) := if_pos h
theorem status_holdAdj (s : State) : rd R.TSY_STATUS (holdAdj s) = rd R.TSY_STATUS s := rd_holdAdj rfl rfl s 0
theorem doHoldoverExpiry_holdover {s : State} (h : tsyState s = 3) :
    doHoldoverExpiry s = postUnlocked 2 { setTsyState 1 s with time := { s.time with lockCount := 0 } } := if_pos h

/-! ### A change of the source (R415, R418, R432) -/

/-- The state in which the servo starts with a source: off, MANUAL or unlocked. -/
def startState (src : Nat) : Nat := if src = 0 then 0 else if src = 4 then 4 else 1
/-- Another source is selected, before its loss of lock is reported. -/
def sourceStarted (src : Nat) (s : State) : State :=
  setTsyState (startState src)
    { wrf R.TSY_CTRL 0 3 src s with time := { s.time with pendServo := none, lockCount := 0, badCount := 0 } }
def sourceSelected (src : Nat) (s : State) : State :=
  markPending (if src = 0 then holdAdj (sourceStarted src s) else sourceStarted src s)
theorem changeSource_other {src : Nat} {s : State} (hle : src ≤ 4) (h : src ≠ tsySource s) :
    changeSource src s = if tsyState s = 2 ∨ tsyState s = 3 then postUnlocked 4 (sourceSelected src s) else sourceSelected src s := by
  unfold changeSource
  rw [if_neg (Nat.not_lt.2 hle)]
  exact if_neg h
theorem startState_lt (src : Nat) : startState src < 8 := by
  unfold startState
  split
  · decide
  · split <;> decide
theorem rd_sourceSelected {q : RegInfo} (hs : rowsDisjoint q R.TSY_STATUS = true) (ha : rowsDisjoint q R.TSY_ADJ = true)
    (hi : rowsDisjoint q R.TSY_INCREMENT = true) (src : Nat) (s : State) (j : Nat) :
    rd q (sourceSelected src s) j = rd q (wrf R.TSY_CTRL 0 3 src s) j := by
  have hstarted : rd q (sourceStarted src s) j = rd q (wrf R.TSY_CTRL 0 3 src s) j := rd_setTsyState hs _ _ j
  unfold sourceSelected
  rw [rd_markPending hs]
  split
  · rw [rd_holdAdj ha hi, hstarted]
  · exact hstarted
theorem tsySource_sourceSelected {src : Nat} (hle : src ≤ 4) (s : State) : tsySource (sourceSelected src s) = src :=
  (congrArg (bits 0 3) (rd_sourceSelected rfl rfl rfl src s 0)).trans
    (rdf_wrf_fits (r := R.TSY_CTRL) (by decide) (by decide) (by show src < 8; omega) s 0)
theorem tsyState_sourceSelected (src : Nat) (s : State) : tsyState (sourceSelected src s) = startState src := by
  have hstarted : tsyState (sourceStarted src s) = startState src := tsyState_setTsyState (startState_lt src) _
  unfold sourceSelected
  rw [tsyState_markPending]
  split
  · rw [tsyState_of_rd (status_holdAdj _), hstarted]
  · exact hstarted
theorem pendServo_sourceSelected (src : Nat) (s : State) : (sourceSelected src s).time.pendServo = none := by
  unfold sourceSelected
  split <;> rfl

/-- What a change to another source leaves: the source and the state of its kind, no pending step, and the loss of lock reported. -/
structure SourceTaken (src : Nat) (s t : State) : Prop where
  source : tsySource t = src
  state : tsyState t = startState src
  pending : t.time.pendServo = none
  unlocked : tsyState s = 2 ∨ tsyState s = 3 → EventShows 209 t
theorem changeSource_taken {src : Nat} {s : State} (hle : src ≤ 4) (h : src ≠ tsySource s) : SourceTaken src s (changeSource src s) := by
  rw [changeSource_other hle h]
  split
  · exact ⟨(tsySource_postUnlocked ..).trans (tsySource_sourceSelected hle s), (tsyState_postUnlocked ..).trans (tsyState_sourceSelected src s),
      (congrArg TimeState.pendServo ((postUnlocked_only ..).same_time rfl)).trans (pendServo_sourceSelected src s),
      fun _ => postUnlocked_shows ..⟩
  · next hl =>
    exact ⟨tsySource_sourceSelected hle s, tsyState_sourceSelected src s, pendServo_sourceSelected src s, fun x => absurd x hl⟩
/-- The fields of TSY_CTRL but for the source take the value written. -/
def controlWritten (value : Nat) (s : State) : State := wr R.TSY_CTRL (setBits 0 3 (tsySource s) (bits 0 10 value)) s
theorem tsySource_controlWritten (value : Nat) (s : State) : tsySource (controlWritten value s) = tsySource s := by
  have h : rd R.TSY_CTRL (controlWritten value s) = setBits 0 3 (tsySource s) (bits 0 10 value) % 2 ^ 32 := rd_wr (by decide) _ s 0
  unfold tsySource rdf at *
  rw [h, bits_mod (by decide), bits_setBits_same]
  exact Nat.mod_eq_of_lt (bits_lt ..)
theorem tsyState_controlWritten (value : Nat) (s : State) : tsyState (controlWritten value s) = tsyState s :=
  tsyState_of_rd (rd_wr_row rfl _ _ 0 0)
theorem source_of_fields (value : Nat) : bits 0 3 (bits 0 10 value) = bits 0 3 value := by
  unfold bits
  omega
/-- The PPS output pulse ends with the output turned off (R425). -/
def pulseFollows (s : State) : State := if s.time.ppsPulse ∧ rdf R.TSY_CTRL 6 2 s = 0 then ppsPulse false s else s
theorem doTimeSourceChange_eq (value : Word32) (s : State) :
    doTimeSourceChange value s = pulseFollows (changeSource (bits 0 3 value.toNat) (controlWritten value.toNat s)) := by
  rw [← source_of_fields]
  rfl
theorem rd_pulseFollows (s : State) (q : RegInfo) (j : Nat) : rd q (pulseFollows s) j = rd q s j := by
  unfold pulseFollows
  split
  · exact rd_ppsPulse ..
  · rfl
theorem pendServo_pulseFollows (s : State) : (pulseFollows s).time.pendServo = s.time.pendServo := by
  unfold pulseFollows
  split
  · rw [ppsPulse_time]
  · rfl
theorem doTimeSourceChange_taken {value : Word32} {s : State} (hle : bits 0 3 value.toNat ≤ 4) (h : bits 0 3 value.toNat ≠ tsySource s) :
    SourceTaken (bits 0 3 value.toNat) s (doTimeSourceChange value s) := by
  rw [doTimeSourceChange_eq]
  obtain ⟨hsource, hstate, hpending, hunlocked⟩ := changeSource_taken (s := controlWritten value.toNat s) hle
    fun x => h (x.trans (tsySource_controlWritten value.toNat s))
  rw [tsyState_controlWritten] at hunlocked
  exact ⟨(tsySource_of_rd (rd_pulseFollows ..)).trans hsource, (tsyState_of_rd (rd_pulseFollows ..)).trans hstate,
    (pendServo_pulseFollows _).trans hpending, fun x => shows_read (rd_pulseFollows ..) (hunlocked x)⟩

/-! ### The wrap of TT (R413) -/

theorem reportWrap_changed {s : State} (h : wrapCount s ≠ s.time.wrapSeen) (backward : Bool) :
    (reportWrap backward s).time.wrapSeen = wrapCount s ∧ EventShows 214 (reportWrap backward s) := by
  unfold reportWrap
  rw [if_neg h]
  exact ⟨by rw [postEvent_time], posted ..⟩

/-- Settles O35: each command is one branch of its rule; a change of the source is `doTimeSourceChange_taken`. -/
theorem servoCommands : Obligations.ServoCommands := by
  refine ⟨?sample, ?noSample, ?expiry, ?source, ?wrap⟩
  case sample =>
    exact fun θ s hsource hoff hservo hhost h3 => congrArg Host.Outcome.next ((if_pos hsource).trans (servoSample_tracks hoff hservo hhost h3))
  case noSample =>
    refine fun s => ⟨fun h => ⟨_, congrArg Host.Outcome.next (doServoNoSample_locked h), rfl, ?_, ?_, rfl⟩,
      fun h => congrArg Host.Outcome.next (if_neg h)⟩
    · exact (tsyState_of_rd (status_holdAdj _)).trans (tsyState_setTsyState (by decide) s)
    · exact (congrArg (bit 3) (status_holdAdj _)).trans (locked_setTsyState 3 s)
  case expiry =>
    refine fun s => ⟨fun h => ⟨_, congrArg Host.Outcome.next (doHoldoverExpiry_holdover h), ?_, ?_, postUnlocked_shows .., ?_⟩,
      fun h => congrArg Host.Outcome.next (if_neg h)⟩
    · exact (tsyState_postUnlocked ..).trans (tsyState_setTsyState (by decide) s)
    · exact (rdb_keeps (postUnlocked_only ..) rfl 3).trans (locked_setTsyState 1 s)
    · rw [(postUnlocked_only ..).same_time rfl]
  case source =>
    intro v s hle hne
    obtain ⟨hsource, hstate, hpending, hunlocked⟩ := doTimeSourceChange_taken hle hne
    exact ⟨_, rfl, hsource, hstate, hpending, hunlocked⟩
  case wrap =>
    exact fun s => ⟨fun h => ⟨_, rfl, reportWrap_changed h false⟩, fun h => congrArg Host.Outcome.next (if_pos h)⟩

end Sys2Proof.Proofs
end

section
/-! PPS edges, comparators, the wide read and the PPS output (R411, R425 to R427, R433). -/

namespace Sys2Proof.Proofs
open Sys2Proof Sys2Proof.Machine Sys2Proof.Laws

/-! ### The PPS input (R426) -/

/-- TT at a PPS edge, with the delay of the input taken off. -/
def edgeStamp (s : State) : Nat := toBits 48 ((s.time.ns : Int) - sext 16 (rdf R.TSY_PPS_CFG 16 16 s)) * 65536 + s.time.frac / 65536
/-- PPS is shown present, with the stamp of its edge. -/
def edgeShown (s : State) : State :=
  { wrb R.TSY_STATUS 5 true (wr R.TSY_PPS_IN_TT (edgeStamp s) s) with time := { s.time with ppsMissPosted := false } }
/-- How far an edge lies from the whole second next to it, in 2^-16 ns. -/
def edgeOffset (s : State) : Int :=
  let n := (((s.time.ns : Int) - sext 16 (rdf R.TSY_PPS_CFG 16 16 s)) % (10 ^ 9 : Nat)).toNat
  (if n < 500000000 then (n : Int) else (n : Int) - 10 ^ 9) * (65536 : Nat)
theorem present_edgeShown (s : State) : rdb R.TSY_STATUS 5 (edgeShown s) = true := rdb_wrb (by decide) (by decide) true _ 0
theorem stamp_edgeShown (s : State) : rd R.TSY_PPS_IN_TT (edgeShown s) = edgeStamp s % 2 ^ 64 :=
  (rd_wr_row (r := R.TSY_STATUS) rfl _ _ 0 0).trans (rd_wr (r := R.TSY_PPS_IN_TT) (by decide) _ s 0)
theorem tsySource_edgeShown (s : State) : tsySource (edgeShown s) = tsySource s :=
  tsySource_of_rd ((rd_wr_row (r := R.TSY_STATUS) rfl _ _ 0 0).trans (rd_wr_row (r := R.TSY_PPS_IN_TT) rfl _ s 0 0))
theorem edgeOffset_bounds (s : State) : -500000000 * 65536 ≤ edgeOffset s ∧ edgeOffset s < 500000000 * 65536 := by
  unfold edgeOffset
  dsimp only
  split <;> omega
theorem doPpsInputEdge_other {s : State} (h : tsySource s ≠ 2) : doPpsInputEdge s = edgeShown s :=
  if_neg fun x => h ((tsySource_edgeShown s).symm.trans x)
theorem doPpsInputEdge_source {s : State} (h : tsySource s = 2) : doPpsInputEdge s = servoSample (edgeOffset s) (edgeShown s) :=
  if_pos ((tsySource_edgeShown s).trans h)

/-- PPS is shown absent and the loss is counted. -/
def missCounted (s : State) : State :=
  bump R.TSY_PPS_MISSED 1 (postEvent 213 0 1 0 [(0, 1, 2), (4, 4, 0x64)])
    { wrb R.TSY_STATUS 5 false s with time := { s.time with ppsMissPosted := true } }
def missReported (s : State) : State := postEvent 213 0 1 0 [(0, 1, 1), (8, 8, (rd R.TSY_PPS_IN_TT (missCounted s) : Nat))] (missCounted s)
theorem doPpsMissing_inUse {s : State} (huse : tsySource s = 2 ∨ rdb R.TSY_CTRL 8 s = true) (hfirst : s.time.ppsMissPosted = false) :
    doPpsMissing s = missReported s := by
  have hctrl : rd R.TSY_CTRL (wrb R.TSY_STATUS 5 false s) = rd R.TSY_CTRL s := rd_wr_row rfl _ s 0 0
  have huse : tsySource (wrb R.TSY_STATUS 5 false s) = 2 ∨ rdb R.TSY_CTRL 8 (wrb R.TSY_STATUS 5 false s) = true := by
    rwa [tsySource_of_rd hctrl, rdb_eq, hctrl]
  exact if_pos ⟨huse, by simp [hfirst]⟩
theorem absent_missReported (s : State) : rdb R.TSY_STATUS 5 (missReported s) = false := by
  have hcounted : rd R.TSY_STATUS (missCounted s) = rd R.TSY_STATUS (wrb R.TSY_STATUS 5 false s) :=
    rd_bump (regAddr_ne_disjoint rfl 0 0) (fun _ => rd_postEvent rfl ..) _
  rw [rdb_eq, missReported, rd_postEvent rfl, hcounted]
  exact rdb_wrb (by decide) (by decide) false s 0
theorem time_missReported (s : State) : (missReported s).time = { s.time with ppsMissPosted := true } :=
  (postEvent_time ..).trans (bump_part State.time (fun _ _ => rfl) (fun _ => postEvent_time ..) _)

/-! ### Comparators (R427) -/

/-- A one-shot comparator posts its event and is disarmed. -/
theorem fireComparator_oneShot {c : Nat} {s : State} (h : rd R.TSY_CMP_PERIOD s c = 0) (stepped : Bool) :
    EventShows 212 (fireComparator c stepped s) ∧ rdb R.TSY_CMP_CTRL 0 (fireComparator c stepped s) c = false := by
  unfold fireComparator
  extract_lets target period late k posted started
  have hshows : EventShows 212 started := by
    have hposted : EventShows 212 posted := Laws.posted ..
    unfold started
    split
    · exact shows_read (rd_ppsPulse ..) hposted
    · exact hposted
  rw [if_pos h]
  exact ⟨shows_wr_block rfl (by decide) _ c hshows, rdb_wrb (by decide) (by decide) false started c⟩
theorem doTimeCompareFire_due {c : Nat} {s : State} (hc : c < 4) (h : comparatorDue c s = true) :
    doTimeCompareFire c s = fireComparator c false s := if_pos ⟨hc, h⟩
theorem doTimeCompareFire_ahead {c : Nat} {s : State} (h : comparatorDue c s = false) : doTimeCompareFire c s = s :=
  if_neg (by simp [h])

/-! ### The wide read (R411, R433) -/

theorem seconds_latchWide (s : State) : rd R.TSY_WIDE_SEC_LO (latchWide s) = s.time.ns / 10 ^ 9 % 2 ^ 32 ∧
    rd R.TSY_WIDE_SEC_HI (latchWide s) = s.time.ns / 10 ^ 9 % 2 ^ 48 / 2 ^ 32 := by
  have hlo : rd R.TSY_WIDE_SEC_LO (latchWide s) = s.time.ns / 10 ^ 9 % 2 ^ 48 % 2 ^ 32 % 2 ^ 32 :=
    (rd_wr_row (r := R.TSY_WIDE_SEC_HI) rfl _ _ 0 0).trans (rd_wr (r := R.TSY_WIDE_SEC_LO) (by decide) _ s 0)
  have hhi : rd R.TSY_WIDE_SEC_HI (latchWide s) = s.time.ns / 10 ^ 9 % 2 ^ 48 / 2 ^ 32 % 2 ^ 32 :=
    rd_wr (r := R.TSY_WIDE_SEC_HI) (by decide) _ _ 0
  rw [hlo, hhi]
  omega

/-! ### The PPS output (R425, R427) -/

theorem doPpsOutputPulseStart_drives {s : State} (h : rdf R.TSY_CTRL 6 2 s = 1 ∨ rdf R.TSY_CTRL 6 2 s = 2 ∧ rdb R.TSY_STATUS 3 s = true)
    (hpin : rdb R.PIN_FAULT 22 s = false) : doPpsOutputPulseStart s =
      emit (.ppsOutput true (!rdb R.TSY_PPS_CFG 0 s)) { s with time := { s.time with ppsPulse := true } } := by
  rw [← Bool.true_bne]
  exact (if_pos h).trans (ppsPulse_drives true hpin)
theorem doPpsOutputPulseEnd_drives {s : State} (h : s.time.ppsPulse = true) (hpin : rdb R.PIN_FAULT 22 s = false) : doPpsOutputPulseEnd s =
      emit (.ppsOutput false (rdb R.TSY_PPS_CFG 0 s)) { s with time := { s.time with ppsPulse := false } } := by
  rw [← Bool.false_bne (rdb R.TSY_PPS_CFG 0 s)]
  exact (if_pos h).trans (ppsPulse_drives false hpin)

/-- Settles O36: each command is rewritten to what the lemmas above say it does in its case. -/
theorem timeInputsAndOutputs : Obligations.TimeInputsAndOutputs := by
  refine ⟨?edge, ?edgeSource, ?missing, ?fire, ?arm, ?wide, ?pulseStart, ?pulseEnd⟩
  case edge =>
    exact fun s h => ⟨_, congrArg Host.Outcome.next (doPpsInputEdge_other h), present_edgeShown s, stamp_edgeShown s, rfl, rfl⟩
  case edgeSource =>
    exact fun s h => ⟨_, _, congrArg Host.Outcome.next (doPpsInputEdge_source h), present_edgeShown s, edgeOffset_bounds s⟩
  case missing =>
    refine fun s huse hfirst => ⟨_, congrArg Host.Outcome.next (doPpsMissing_inUse huse hfirst), absent_missReported s, ?_, posted ..⟩
    rw [time_missReported]
  case fire =>
    exact fun c s hc => ⟨fun hdue hperiod => ⟨_, congrArg Host.Outcome.next (doTimeCompareFire_due hc hdue), fireComparator_oneShot hperiod false⟩,
      fun hahead => congrArg Host.Outcome.next (doTimeCompareFire_ahead hahead)⟩
  case arm => exact fun c v s hc => congrArg Host.Outcome.next (if_pos hc)
  case wide =>
    intro s
    obtain ⟨hlo, hhi⟩ := seconds_latchWide s
    exact ⟨_, rfl, rfl, hlo, hhi, rfl⟩
  case pulseStart => exact fun s hmode hpin => congrArg Host.Outcome.next (doPpsOutputPulseStart_drives hmode hpin)
  case pulseEnd => exact fun s hrun hpin => congrArg Host.Outcome.next (doPpsOutputPulseEnd_drives hrun hpin)

end Sys2Proof.Proofs
end

section
/-! PTP messages on the SFP+ ports and the faults of their cages (R420, R422 to R424, R431). -/

namespace Sys2Proof.Proofs
open Sys2Proof Sys2Proof.Machine Sys2Proof.Laws

/-! ### Messages (R420, R422, R423) -/

section Messages
variable {p kind seq res turn : Nat} {isPtp : Bool} {corr : Word} {s : State}

theorem doPtpMessageRx_disabled (h : rdb R.TSY_PORT_CFG 0 s p = false) : doPtpMessageRx p isPtp kind seq corr res s = s :=
  if_pos (.inr (by simp [h]))
theorem doPtpMessageRx_other (hp : p < 2) (h : rdb R.TSY_PORT_CFG 0 s p = true) (hptp : isPtp = false) :
    doPtpMessageRx p isPtp kind seq corr res s = bump R.TSY_PORT_DISCARDS 1 (satPort p 0x18) s p := by
  unfold doPtpMessageRx
  rw [if_neg (by simp [h, hp]), if_pos (by simp [hptp])]
/-- A message is counted, and its port's module and link are shown. -/
def messageSeen (p : Nat) (s : State) : State := bump R.TSY_PORT_RX 1 (satPort p 0x10) (wrf R.TSY_PORT_STATE 8 2 3 s p) p
/-- Without the transparent clock a message goes to the firmware alone. -/
theorem doPtpMessageRx_delivered (hp : p < 2) (h : rdb R.TSY_PORT_CFG 0 s p = true) (hptp : isPtp = true) (hkind : kind ≠ 0xD)
    (hclock : rdb R.TSY_CTRL 9 (messageSeen p s) = false) : doPtpMessageRx p isPtp kind seq corr res s =
      emit (.firmware kind seq (toBits 80 ((e32 (messageSeen p s) / 65536 : Int) - (rdf R.TSY_PORT_LAT 0 16 (messageSeen p s) p * 4096 : Nat))))
        (messageSeen p s) := by
  unfold doPtpMessageRx
  rw [if_neg (by simp [h, hp]), if_neg (by simp [hptp, hkind])]
  exact if_neg fun x => Bool.false_ne_true (hclock.symm.trans (Bool.and_eq_true_iff.1 x).1)
theorem doPtpMessageTx_sync (hp : p < 2) (hclock : rdb R.TSY_CTRL 9 s = false) (h : rdb R.TSY_PORT_CFG 0 s p = true) :
    doPtpMessageTx p 0 seq corr turn s = sendPtp p 0 seq ((e32 s / 65536 + rdf R.TSY_PORT_LAT 16 16 s p * 4096) / 65536)
      (corr.toInt + ((e32 s / 65536 + rdf R.TSY_PORT_LAT 16 16 s p * 4096) % 65536 : Nat)) s := by
  unfold doPtpMessageTx
  rw [if_neg (Nat.not_le.2 hp)]
  dsimp only
  rw [hclock, if_neg Bool.false_ne_true, h, if_neg (by simp), if_pos rfl]

end Messages

/-! ### The state of a port (R431) -/

/-- A port shows its new state. -/
def stateShown (p st : Nat) (s : State) : State := wrf R.TSY_PORT_STATE 0 4 st s p
/-- The new state differs from the old one and is posted with it. -/
def stateReported (p st cause : Nat) (s : State) : State :=
  postEvent 211 p (if st = 2 then 1 else 0) 0 [(0, 1, (st : Nat)), (1, 1, (rdf R.TSY_PORT_STATE 0 4 s p : Nat)), (2, 1, (cause : Nat)),
    (8, 8, ((fresh (stateShown p st s)).1 : Nat))] (fresh (stateShown p st s)).2
theorem setPortState_eq (p st cause : Nat) (s : State) :
    setPortState p st cause s = if rdf R.TSY_PORT_STATE 0 4 s p = st then stateShown p st s else stateReported p st cause s := rfl
theorem portState_setPortState {p st : Nat} (h : st < 16) (cause : Nat) (s : State) :
    rdf R.TSY_PORT_STATE 0 4 (setPortState p st cause s) p = st := by
  have hshown : rdf R.TSY_PORT_STATE 0 4 (stateShown p st s) p = st := rdf_wrf_fits (by decide) (by decide) h s p
  rw [setPortState_eq]
  by_cases hold : rdf R.TSY_PORT_STATE 0 4 s p = st
  · rw [if_pos hold, hshown]
  · rw [if_neg hold]
    exact (rdf_keeps (postEvent_only ..) (off_block rfl rfl p) 0 4).trans hshown
/-- A change of the state is reported. -/
theorem setPortState_changes {p st : Nat} {s : State} (h : rdf R.TSY_PORT_STATE 0 4 s p ≠ st) (cause : Nat) :
    EventShows 211 (setPortState p st cause s) := by
  rw [setPortState_eq, if_neg h]
  exact posted ..
theorem setPortState_time (p st cause : Nat) (s : State) : (setPortState p st cause s).time = s.time :=
  (setPortState_keeps rfl (Keeps.refl 575525617724 s)).same_time rfl
theorem setPortState_shows {n : Nat} (hn : n < 256) (p st cause : Nat) {s : State} (x : EventShows n s) :
    EventShows n (setPortState p st cause s) := by
  have hshown : EventShows n (stateShown p st s) := shows_wr_block rfl (by decide) _ p x
  rw [setPortState_eq]
  by_cases hold : rdf R.TSY_PORT_STATE 0 4 s p = st
  · rw [if_pos hold]
    exact hshown
  · rw [if_neg hold]
    exact posted_stays (by decide) hn _ _ _ _ (s := (fresh (stateShown p st s)).2) hshown

/-! ### Faults of a cage (R424) -/

/-- The fault of a cage is noted and shown in its port's state. -/
def cageFaultNoted (p cause : Nat) (s : State) : State :=
  let s := { s with time := { s.time with cageFault := tmod [] s.time.cageFault p (fun l => cause :: l.filter (· != cause)) } }
  let s := if cause = 1 then wrb R.TSY_PORT_STATE 9 false s p else s
  let s := if cause = 4 then wrb R.TSY_PORT_STATE 10 true s p else s
  if cause = 3 ∨ cause = 5 then wrb R.TSY_PORT_STATE 8 false s p else s
theorem cageFaultNoted_time (p cause : Nat) (s : State) : (cageFaultNoted p cause s).time =
    { s.time with cageFault := tmod [] s.time.cageFault p (fun l => cause :: l.filter (· != cause)) } := by
  unfold cageFaultNoted
  simp only [apply_ite State.time, wrb_time, ite_self]
def cageFaultReported (p cause : Nat) (s : State) : State := postEvent 247 p 1 0 [(0, 1, (cause : Nat))] (cageFaultNoted p cause s)
theorem doSfpCageFault_known {p cause : Nat} (hp : p < 2) (h1 : 1 ≤ cause) (h5 : cause ≤ 5) (s : State) :
    doSfpCageFault p cause s = setPortState p 2 3 (cageFaultReported p cause s) := if_neg (by omega)
theorem cageFault_noted (p cause : Nat) (s : State) :
    cause ∈ tget [] (setPortState p 2 3 (cageFaultReported p cause s)).time.cageFault p := by
  rw [setPortState_time, cageFaultReported, postEvent_time, cageFaultNoted_time, tget_tmod]
  exact List.mem_cons_self

/-- A cause that has cleared is taken from the port's state and posted. -/
def causeCleared (p cause : Nat) (s : State) : State :=
  let s := if cause = 1 then wrb R.TSY_PORT_STATE 9 true s p else s
  let s := if cause = 3 ∨ cause = 5 then wrb R.TSY_PORT_STATE 8 true s p else s
  postEvent 247 p 1 0 [(0, 1, (cause : Nat)), (1, 1, 1)] s
theorem causeCleared_time (p cause : Nat) (s : State) : (causeCleared p cause s).time = s.time := by
  unfold causeCleared
  simp only [postEvent_time, apply_ite State.time, wrb_time, ite_self]
theorem causeCleared_shows (p cause : Nat) (s : State) : EventShows 247 (causeCleared p cause s) := posted ..
/-- The last cause that is posted shows the event. -/
theorem each_causeCleared_shows {p : Nat} {l : List Nat} (h : l ≠ []) (s : State) : EventShows 247 (each l (causeCleared p) s) := by
  obtain ⟨causes, last, rfl⟩ := List.eq_nil_or_concat l |>.resolve_left h
  rw [List.concat_eq_append, each_append_cons]
  exact causeCleared_shows ..
/-- With no supply off every cause clears. -/
theorem doSfpCageFaultClear_all {p : Nat} {s : State} (hfault : tget [] s.time.cageFault p ≠ []) (hon : rdb R.TSY_PORT_STATE 10 s p = false) :
    doSfpCageFaultClear p s = each (tget [] s.time.cageFault p).reverse (causeCleared p)
      { s with time := { s.time with cageFault := terase s.time.cageFault p } } := by
  have hgone : (tget [] s.time.cageFault p).reverse.filter (fun c => !(rdb R.TSY_PORT_STATE 10 s p && c == 4)) = (tget [] s.time.cageFault p).reverse :=
    List.filter_eq_self.2 fun c _ => by rw [hon, Bool.false_and]; rfl
  have hleft : (tget [] s.time.cageFault p).filter (fun c => rdb R.TSY_PORT_STATE 10 s p && c == 4) = [] :=
    List.filter_eq_nil_iff.2 fun c _ => by rw [hon, Bool.false_and]; exact Bool.false_ne_true
  unfold doSfpCageFaultClear
  dsimp only
  rw [hgone, hleft, if_neg (mt List.reverse_eq_nil_iff.1 hfault), if_pos rfl]
  rfl
theorem doSfpFaultClearDelay_listens {p : Nat} {s : State} (hp : p < 2) (hclear : tget? s.time.cageFault p = none)
    (h2 : rdf R.TSY_PORT_STATE 0 4 s p = 2) (hon : rdb R.TSY_PORT_STATE 10 s p = false) :
    doSfpFaultClearDelay p s = setPortState p 4 3 s := if_pos ⟨hp, by rw [hclear]; rfl, h2, by rw [hon]; rfl⟩

/-- Settles O37: a message meets one branch of its rule; a cage fault is noted before its port's state changes, and its end posts for
every cause that clears. -/
theorem ptpPortCommands : Obligations.PtpPortCommands := by
  refine ⟨?receive, ?send, ?fault, ?clear, ?delay⟩
  case receive =>
    intro p kind seq res isPtp corr s hp
    refine ⟨fun h => congrArg Host.Outcome.next (doPtpMessageRx_disabled h),
      fun h hother => congrArg Host.Outcome.next (doPtpMessageRx_other hp h hother), ?_⟩
    rintro h hptp hkind u rfl hclock
    exact congrArg Host.Outcome.next (doPtpMessageRx_delivered hp h hptp hkind hclock)
  case send => exact fun p seq turn corr s hp hclock h => congrArg Host.Outcome.next (doPtpMessageTx_sync hp hclock h)
  case fault =>
    exact fun p c s hp h1 h5 => ⟨_, congrArg Host.Outcome.next (doSfpCageFault_known hp h1 h5 s), cageFault_noted p c s,
      portState_setPortState (by decide) 3 _, setPortState_shows (by decide) p 2 3 (posted ..)⟩
  case clear =>
    refine fun p s hfault hon => ⟨_, congrArg Host.Outcome.next (doSfpCageFaultClear_all hfault hon),
      each_causeCleared_shows (mt List.reverse_eq_nil_iff.1 hfault) _, ?_⟩
    rw [each_part State.time fun cause _ u => causeCleared_time p cause u]
  case delay =>
    exact fun p s hp hclear h2 hon => ⟨_, congrArg Host.Outcome.next (doSfpFaultClearDelay_listens hp hclear h2 hon),
      portState_setPortState (by decide) 3 s, setPortState_changes (by rw [h2]; decide) 3⟩

end Sys2Proof.Proofs
end

section
/-! OP_TIME_CTRL (R417, R429): what each of its operations does once its descriptor has passed the common checks. -/

namespace Sys2Proof.Proofs
open Sys2Proof Sys2Proof.Machine Sys2Proof.Laws

section Operations
variable {k : Nat} {d : Desc} {s : State}

/-- A descriptor that names the operation goes on to the operation's rule. -/
theorem timeCtrl_offers {op : Nat} {tests : List (Nat × Bool)} {body : Nat → State → State}
    (h : Offers k d 0x0E (usedBits [(8, 1), (16, 16)]) ((8, dfld d 8 1 == op) :: tests) s) (hop : dfld d 8 1 = op) :
    timeCtrl k d op tests body s = body (nextIndex k s) (taken k d s) := by
  unfold timeCtrl
  dsimp only
  rw [if_neg fun x => x.1 hop]
  exact readDesc_offers h (by decide)

theorem hostStep_held {i v : Nat} {isSet : Bool} (h : timeHeld s = true) : hostStep k i isSet v s = finish k i stRefused 1 s := if_pos h
/-- With no pass running a step waits for nothing. -/
theorem hostStep_atOnce {i v : Nat} {isSet : Bool} (h : timeHeld s = false) (hp : passRunning s = false) :
    hostStep k i isSet v s = markPending (applyHostStep false { ring := k, index := i, isSet, value := v } s) := by
  unfold hostStep
  rw [h, hp, Bool.and_false]
  rfl
theorem doTimeCtrlIncrement_offers (h : Offers k d 0x0E (usedBits [(8, 1), (16, 16)]) [(8, dfld d 8 1 == 4)] s) (hop : dfld d 8 1 = 4) :
    doTimeCtrlIncrement k d s =
      if tsySource s ≠ 4 then finish k (nextIndex k s) stRefused 2 (taken k d s)
      else finishTime k (nextIndex k s) (wr R.TSY_INCREMENT (bits 0 40 (dfld d 16 8)) (taken k d s)) := timeCtrl_offers h hop

end Operations

/-- Settles O22: a descriptor that passes the common checks goes to its operation's rule, where SET and STEP turn on whether the servo
holds the time, and INCREMENT on whether the source is MANUAL. -/
theorem timeOpcodes : Obligations.TimeOpcodes := by
  refine ⟨?set, ?step, ?source, ?increment, ?compare, ?read⟩
  case set =>
    exact fun k d s h hop => ⟨fun hheld => congrArg Host.Outcome.next ((timeCtrl_offers h hop).trans (hostStep_held hheld)),
      fun hfree hpass => congrArg Host.Outcome.next ((timeCtrl_offers h hop).trans (hostStep_atOnce hfree hpass))⟩
  case step =>
    exact fun k d s h hop hfree hpass => congrArg Host.Outcome.next ((timeCtrl_offers h hop).trans (hostStep_atOnce hfree hpass))
  case source => exact fun k d s h hop => congrArg Host.Outcome.next (timeCtrl_offers h hop)
  case increment =>
    exact fun k d s h hop => ⟨fun hmanual => congrArg Host.Outcome.next ((doTimeCtrlIncrement_offers h hop).trans (if_neg fun x => x hmanual)),
      fun hother => congrArg Host.Outcome.next ((doTimeCtrlIncrement_offers h hop).trans (if_pos hother))⟩
  case compare => exact fun k d s h hop => congrArg Host.Outcome.next (timeCtrl_offers h hop)
  case read => exact fun k d s h hop => congrArg Host.Outcome.next (timeCtrl_offers h hop)

end Sys2Proof.Proofs
end

section
/-! Reset sources (R435, R442 to R449, R451, R454, R509): what each command does before its source asserts touches neither the sources
nor the reach. -/

namespace Sys2Proof.Proofs
open Sys2Proof Sys2Proof.Machine Sys2Proof.Laws

/-! ### A source asserts (R444, R449, R454) -/

theorem reachOf_same {s t : State} (hlevel : t.pwr.hostLevel = s.pwr.hostLevel) (hreach : rd R.RST_REACH t = rd R.RST_REACH s) (k : Nat) :
    reachOf k t = reachOf k s := by
  unfold reachOf rdf
  rw [hlevel, hreach]

section Asserts
variable {k : Nat} {s u : State} (hk : k ≤ 9) (h : s.pwr.asserted.contains k = false)
include hk h

/-- What a command does first does not show in what the assertion leaves, where the sources, the rails and the reach stand. -/
theorem assertSource_asserts_after (hasserted : u.pwr.asserted = s.pwr.asserted) (hrails : u.pwr.railsOff = s.pwr.railsOff)
    (hreach : reachOf k u = reachOf k s) : Asserts k s (assertSource k u) := by
  have facts : Asserts k u (assertSource k u) := assertSource_facts hk (hasserted ▸ h)
  unfold Asserts at facts ⊢
  rwa [hasserted, hrails, hreach] at facts
theorem assertSource_asserts : Asserts k s (assertSource k s) := assertSource_asserts_after hk h rfl rfl rfl

end Asserts

/-! ### By a command or an input (R445 to R449, R509) -/

/-- A reset of the host interface leaves the supply and the sources alone (R44, R45). -/
theorem hostReset_pwr (s : State) : (hostReset s).pwr = s.pwr := (hostReset_keeps rfl (Keeps.refl 18446744069414584336 s)).same_pwr rfl
theorem assertSource_hostReset {s : State} (h : s.pwr.asserted.contains 4 = false) : Asserts 4 (hostReset s) (assertSource 4 (hostReset s)) :=
  assertSource_asserts (by decide) (by rwa [hostReset_pwr])
theorem doResetAssert_asserts {k : Nat} {s : State} (hk : k ≤ 9) (hhost : k ≠ 4) (h : s.pwr.asserted.contains k = false) :
    Asserts k s (doResetAssert k s) := by
  unfold doResetAssert
  rw [if_neg (by omega), if_neg hhost]
  by_cases h3 : k = 3
  · rw [if_pos h3]
    exact assertSource_asserts_after hk h rfl rfl rfl
  · rw [if_neg h3]
    exact assertSource_asserts hk h
theorem doWatchdogExpiry_asserts {s : State} (hon : wdogOn s = true) (h : s.pwr.asserted.contains 5 = false) :
    Asserts 5 s (doWatchdogExpiry s) := by
  unfold doWatchdogExpiry
  rw [if_pos hon]
  exact assertSource_asserts_after (by decide) h rfl rfl rfl
/-- A halt that an unlocked debugger asks for is no reset (R509). -/
theorem doCoreHalt_debug {s : State} (hunlock : rdb R.DBG_STATUS 0 s = true) (hcore : rdb R.DBG_STATUS 6 s = true) :
    doCoreHalt true s = holdCause 15 s := by
  unfold doCoreHalt
  rw [if_neg (by decide), if_pos ⟨hunlock, hcore⟩]
/-- A keyed write to RST_CMD at a level that it allows (R446). -/
theorem writeRstCmd_allowed {v : Nat} {s : State} (hkey : bits 8 8 v = 0xA5) (hlevel : bits 0 2 v < 3)
    (hreach : rdf R.RST_REACH 14 2 s ≤ bits 0 2 v) :
    writeRstCmd v s = assertSource 7 (modPwr (fun p => { p with hostLevel := bits 0 2 v }) (wr R.RST_CMD_STATUS 0 s)) := by
  unfold writeRstCmd
  dsimp only
  rw [if_neg fun hwrong => hwrong hkey, if_neg (by omega)]

/-! ### By the supply and the rails (R435, R442, R448) -/

/-- What a brownout does before its source asserts: the readings show, and the dip is over. -/
def brownoutShown (bulk bus : Nat) (s : State) : State :=
  modPlc (fun c => { c with noStart := false }) (modPwr (fun p => { p with dip := none, holdDone := false })
    (wrf R.PWR_STATUS 1 2 0 (supplyReading bulk bus s)))
theorem reachOf_brownoutShown (k bulk bus : Nat) (s : State) : reachOf k (brownoutShown bulk bus s) = reachOf k s := by
  refine reachOf_same (s := s) (t := brownoutShown bulk bus s) rfl ?_ k
  calc rd R.RST_REACH (brownoutShown bulk bus s)
    _ = rd R.RST_REACH (supplyReading bulk bus s) := rd_wrf_ne (by decide) _ _ _ _
    _ = rd R.RST_REACH s := (rd_wr_ne (by decide) _ _).trans (rd_wr_ne (by decide) _ _)
theorem doBrownoutAssert_under {bulk bus : Nat} {s : State} (hlow : bulk < 2400 ∨ bus < 10800) (h : s.pwr.asserted.contains 1 = false)
    (hrails : s.pwr.railsOff = false) : doBrownoutAssert bulk bus s = assertSource 1 (brownoutShown bulk bus s) := by
  unfold doBrownoutAssert
  rw [h, hrails, if_neg (by simp; omega)]
  rfl
/-- What a fault of rails 3 to 9 does before POR asserts: the voltage shows, the fault is counted and recorded. -/
def railFaultShown (rail cause mv : Nat) (s : State) : State :=
  wrb R.PWR_STATUS (8 + rail) false (modPwr (fun p => { p with rail := some (rail, cause, mv), railsOff := p.railsOff || rail == 1 })
    (bumpPwr R.PWR_RAIL_FAULTS (wr R.PWR_RAIL (mv % 65536) s rail)))
theorem railFaultShown_pwr {rail : Nat} (h3 : 3 ≤ rail) (cause mv : Nat) (s : State) :
    (railFaultShown rail cause mv s).pwr = { s.pwr with rail := some (rail, cause, mv) } := by
  have hbus : (rail == 1) = false := beq_false_of_ne (by omega)
  simp [railFaultShown, modPwr, hbus]
theorem reachOf_railFaultShown {rail : Nat} (h3 : 3 ≤ rail) (k cause mv : Nat) (s : State) :
    reachOf k (railFaultShown rail cause mv s) = reachOf k s := by
  refine reachOf_same (by rw [railFaultShown_pwr h3]) ?_ k
  calc rd R.RST_REACH (railFaultShown rail cause mv s)
    _ = rd R.RST_REACH (bumpPwr R.PWR_RAIL_FAULTS (wr R.PWR_RAIL (mv % 65536) s rail)) := rd_wrb_ne (by decide) _ _ _
    _ = rd R.RST_REACH (wr R.PWR_RAIL (mv % 65536) s rail) := rd_bumpPwr (by decide) rfl _
    _ = rd R.RST_REACH s := rd_wr_row rfl _ _ _ _

section RailFault
variable {rail cause mv : Nat} {s : State} (hrails : s.pwr.railsOff = false)
include hrails

theorem doRailFault_recorded (h3 : 3 ≤ rail) (h10 : rail < 10) (hcause : cause = 1 ∨ cause = 2) :
    doRailFault rail cause mv s = assertSource 0 (railFaultShown rail cause mv s) := by
  unfold doRailFault
  rw [hrails, if_neg (by simp; omega), if_neg (by omega), if_neg (by omega)]
  exact if_neg (by omega)
/-- BULK or BUS under its window is a brownout. -/
theorem doRailFault_low (hrail : rail < 2) : doRailFault rail 1 mv s = doBrownoutAssert (lowRail rail mv).1 (lowRail rail mv).2 s := by
  unfold doRailFault
  rw [hrails, if_neg (by simp; omega), if_pos ⟨hrail, rfl⟩]

end RailFault

/-- Settles O31: each command is rewritten to the assertion of its source, behind what leaves the sources and the reach alone. -/
theorem resetSourcesAssert : Obligations.ResetSourcesAssert := by
  refine ⟨?command, ?host, ?pin, ?watchdog, ?debug, ?rstCmd, ?wrongKey, ?brownout, ?rail, ?lowRail, ?trip⟩
  case command => exact fun k s hk h hhost => ⟨_, rfl, doResetAssert_asserts hk hhost h⟩
  case host => exact fun s h => ⟨⟨_, rfl, rfl, assertSource_hostReset h⟩, _, rfl, assertSource_hostReset h⟩
  case pin => exact fun s h hio => ⟨_, congrArg Host.Outcome.next (if_pos hio), assertSource_asserts (by decide) h⟩
  case watchdog => exact fun s h => ⟨fun hon => ⟨_, rfl, doWatchdogExpiry_asserts hon h⟩, _, rfl, assertSource_asserts (by decide) h⟩
  case debug =>
    exact fun s hunlock hcore => ⟨fun h => ⟨_, congrArg Host.Outcome.next (if_pos ⟨hunlock, hcore⟩), assertSource_asserts (by decide) h⟩,
      congrArg Host.Outcome.next (doCoreHalt_debug hunlock hcore)⟩
  case rstCmd =>
    exact fun v s hkey hlevel hreach h => ⟨_, congrArg Host.Outcome.next (writeRstCmd_allowed hkey hlevel hreach),
      assertSource_asserts_after (by decide) h rfl rfl rfl⟩
  case wrongKey => exact fun v s hkey => congrArg Host.Outcome.next (if_pos hkey)
  case brownout =>
    exact fun bulk bus s hlow h hrails => ⟨_, congrArg Host.Outcome.next (doBrownoutAssert_under hlow h hrails),
      assertSource_asserts_after (by decide) h rfl rfl (reachOf_brownoutShown ..)⟩
  case rail =>
    intro rail cause mv s h3 h10 hcause hrails h
    have hpwr := railFaultShown_pwr h3 cause mv s
    exact ⟨_, congrArg Host.Outcome.next (doRailFault_recorded hrails h3 h10 hcause), assertSource_asserts_after (by decide) h
      (by rw [hpwr]) (by rw [hpwr]) (reachOf_railFaultShown h3 ..)⟩
  case lowRail =>
    intro rail mv s hrail hrails
    refine congrArg Host.Outcome.next ((doRailFault_low hrails hrail).trans ?_)
    unfold lowRail
    split <;> rfl
  case trip => exact fun s h => ⟨_, rfl, assertSource_asserts (by decide) h⟩

end Sys2Proof.Proofs
end

section
/-! Releases, power-up and DORMANT (R436, R442, R443, R448, R450, R451, R491): which branch of its rule each command takes. -/

namespace Sys2Proof.Proofs
open Sys2Proof Sys2Proof.Machine Sys2Proof.Laws

/-! ### Releases (R450, R451) -/

section Release
variable {m : Nat} {inp : ReleaseIn} {s : State}

/-- The sources of a mask are taken off, with what the release has found. -/
def sourcesOff (m : Nat) (inp : ReleaseIn) (s : State) : State :=
  { s with pwr := { s.pwr with asserted := s.pwr.asserted.filter (fun k => !bit k m), input := inp } }
theorem releaseSources_noneDue (hd : s.pwr.due = none) : releaseSources m inp s = sourcesOff m inp s := by
  unfold releaseSources
  extract_lets u
  have hdue : u.pwr.due = none := hd
  rw [hdue]
  rfl
/-- With the rails on and every source of the reach off the sequence of the level that is due starts. -/
theorem releaseSources_starts {l : Nat} (hd : s.pwr.due = some l) (hrails : s.pwr.railsOff = false) (hstep : s.pwr.step = 0)
    (hnone : ∀ k ∈ s.pwr.asserted, bit k m = false → l < reachOf k s) :
    releaseSources m inp s = runRelease l (stepsOf l) (sourcesOff m inp s) := by
  have hfree : (sourcesOff m inp s).pwr.asserted.any (fun k => decide (reachOf k (sourcesOff m inp s) ≤ l)) = false := by
    refine List.any_eq_false.2 fun k hk => ?_
    obtain ⟨hin, hbit⟩ := List.mem_filter.1 hk
    have hout : l < reachOf k (sourcesOff m inp s) := hnone k hin (by simpa using hbit)
    exact fun hreach => Nat.not_le.2 hout (of_decide_eq_true hreach)
  have hgo : ¬((sourcesOff m inp s).pwr.railsOff ||
      (sourcesOff m inp s).pwr.asserted.any (fun k => decide (reachOf k (sourcesOff m inp s) ≤ l))) = true := by
    rw [hfree, Bool.or_false]
    exact fun hoff => Bool.false_ne_true (hrails.symm.trans hoff)
  unfold releaseSources
  extract_lets u
  have hdue : u.pwr.due = some l := hd
  rw [hdue]
  exact (if_neg hgo).trans (if_pos hstep)

end Release

/-! ### The power stage comes up or goes down (R436, R442, R443, R448) -/

theorem doThermtripCool_up {inp : ReleaseIn} {s : State} (h9 : s.pwr.asserted.contains 9 = true)
    (h1 : (releaseSources (2 ^ 9) inp s).pwr.asserted.contains 1 = false) :
    doThermtripCool inp s = powerUp false false inp (releaseSources (2 ^ 9) inp s) := by
  unfold doThermtripCool
  rw [if_pos h9]
  exact if_neg (by rw [h1]; decide)
/-- A brownout that ends with the rails on releases its source and nothing more. -/
theorem doBrownoutRelease_railsOn {bulk bus : Nat} {inp : ReleaseIn} {s : State} (hbulk : 3300 < bulk) (hbus : 11400 < bus)
    (h1 : s.pwr.asserted.contains 1 = true) (hrails : (releaseSources 2 inp (supplyReading bulk bus s)).pwr.railsOff = false) :
    doBrownoutRelease bulk bus inp s = releaseSources 2 inp (supplyReading bulk bus s) := by
  unfold doBrownoutRelease
  rw [if_pos ⟨hbulk, hbus, h1⟩]
  exact if_neg fun x => Bool.false_ne_true (hrails.symm.trans x.1)
theorem doPowerUp_railsOff {lnSwapped cellLost : Bool} {inp : ReleaseIn} {s : State} (hrails : s.pwr.railsOff = true)
    (h9 : s.pwr.asserted.contains 9 = false) : doPowerUp lnSwapped cellLost inp s = powerUp lnSwapped cellLost inp s :=
  if_pos ⟨hrails, by rw [h9]; rfl⟩
/-- AUX has gone: the power stage is off, and the supply supervisor has lost what it knew of the mains. -/
def auxLost (s : State) : State :=
  modPwr (fun p => { p with railsOff := true, due := some 0, step := 0, lost := false, lossCut := false, validRun := 0 }) s
theorem goDormant_eq (s : State) : goDormant s = wr R.CTL_MODE 0 { resetBlocks 0 (auxLost s) with host := {} } := rfl
theorem modeOf_goDormant (s : State) : modeOf (goDormant s) = 0 := by
  unfold modeOf rdf
  rw [goDormant_eq, rd_wr (by decide)]
  rfl
theorem goDormant_railsOff (s : State) : (goDormant s).pwr.railsOff = true := by
  obtain ⟨-, -, -, -, hrails⟩ := resetBlocks_pwr 0 (auxLost s)
  rw [goDormant_eq, wr_pwr]
  exact hrails
/-- Nothing of the time, the dose path or memory outlives AUX. -/
theorem goDormant_loses (s : State) : (goDormant s).time = {} ∧ (goDormant s).dose = {} ∧ (goDormant s).mem = {} := by
  obtain ⟨htime, hdose⟩ := resetBlocks_time (lvl := 0) (by decide) (auxLost s)
  rw [goDormant_eq, wr_time, wr_dose, wr_mem]
  exact ⟨htime, hdose, resetBlocks_mem (auxLost s)⟩

/-- Under a brownout DORMANT is entered from any other mode (R443). -/
theorem doDormantEntry_brownout {s : State} (h1 : s.pwr.asserted.contains 1 = true) (hmode : modeOf s ≠ 0) : doDormantEntry s = goDormant s := by
  unfold doDormantEntry
  rw [if_pos ⟨h1, hmode⟩]

/-- Settles O32: each command is the one branch of its rule that its conditions leave. -/
theorem releasesRun : Obligations.ReleasesRun := by
  refine ⟨?starts, ?noneDue, ?bezel, ?cool, ?brownout, ?powerUp, ?dormant⟩
  case starts => exact fun m inp l s hd hrails hstep hnone => congrArg Host.Outcome.next (releaseSources_starts hd hrails hstep hnone)
  case noneDue => exact fun m inp s hd => congrArg Host.Outcome.next (releaseSources_noneDue hd)
  case bezel => exact fun inp s => ⟨rfl, _, rfl⟩
  case cool => exact fun inp s h9 h1 => congrArg Host.Outcome.next (doThermtripCool_up h9 h1)
  case brownout =>
    exact fun bulk bus inp s hbulk hbus h1 hrails => congrArg Host.Outcome.next (doBrownoutRelease_railsOn hbulk hbus h1 hrails)
  case powerUp => exact fun inp s hrails h9 => congrArg Host.Outcome.next (doPowerUp_railsOff hrails h9)
  case dormant =>
    intro s h1 hmode
    obtain ⟨htime, hdose, hmem⟩ := goDormant_loses s
    exact ⟨_, congrArg Host.Outcome.next (doDormantEntry_brownout h1 hmode), modeOf_goDormant s, goDormant_railsOff s, htime, hdose,
      by rw [hmem], by rw [hmem]⟩

end Sys2Proof.Proofs
end

section
/-! The connectors (R460, R532, R534, R535, R537, R538, R540): the protected outputs and their faults, IO_24V, the coolant input, the
general inputs and outputs. -/

namespace Sys2Proof.Proofs
open Sys2Proof Sys2Proof.Machine Sys2Proof.Laws

/-! ### Counters and faults of block PIN (R532, R537) -/

theorem bump_satPin_ctl (r : RegInfo) (addr : Nat) (s : State) : (bump r 1 (satPin addr) s).ctl = s.ctl :=
  bump_part State.ctl (fun _ _ => rfl) (fun _ => postEvent_ctl ..) s
theorem bump_satPin_time (r : RegInfo) (addr : Nat) (s : State) : (bump r 1 (satPin addr) s).time = s.time :=
  bump_part State.time (fun _ _ => rfl) (fun _ => postEvent_time ..) s
theorem rd_bump_satPin {q r : RegInfo} (h : regAddr q ≠ regAddr r) (hq : off 25769803828 (32 + regAddr q / 65536 % 32)) (addr : Nat) (s : State) :
    rd q (bump r 1 (satPin addr) s) = rd q s := rd_bump h (fun _ => rd_postEvent hq ..) s
theorem pinFault_fits {b : Nat} (h : b < 32) : b + 1 ≤ 8 * R.PIN_FAULT.bytes := by
  simp only [R.PIN_FAULT]
  omega

/-- A fault is shown in its bit of PIN_FAULT, counted and posted. -/
def pinFaulted (b cls index cause measured : Nat) (s : State) : State :=
  postIoFault cls index cause measured (bump R.PIN_FAULTS 1 (satPin 0x28) (wrb R.PIN_FAULT b true s))
theorem pinFaulted_ctl (b cls index cause measured : Nat) (s : State) : (pinFaulted b cls index cause measured s).ctl = s.ctl :=
  (postEvent_ctl ..).trans (bump_satPin_ctl ..)
theorem pinFaulted_posts (b cls index cause measured : Nat) (s : State) : EventShows 245 (pinFaulted b cls index cause measured s) := posted ..
theorem pinFaulted_shows {b : Nat} (h : b < 32) (cls index cause measured : Nat) (s : State) :
    rdb R.PIN_FAULT b (pinFaulted b cls index cause measured s) = true :=
  calc rdb R.PIN_FAULT b (pinFaulted b cls index cause measured s)
    _ = rdb R.PIN_FAULT b (bump R.PIN_FAULTS 1 (satPin 0x28) (wrb R.PIN_FAULT b true s)) := rdb_postEvent rfl ..
    _ = rdb R.PIN_FAULT b (wrb R.PIN_FAULT b true s) := congrArg (bit b) (rd_bump_satPin (by decide) rfl ..)
    _ = true := rdb_wrb (by decide) (pinFault_fits h) ..

/-! ### A protected output (R532) -/

/-- A pulse that starts or ends at an output concerns what leaves the module and the time alone. -/
theorem pulseAt_only (b : Nat) (on : Bool) (s : State) : Keeps 68 s (pulseAt b on s) := pulseAt_keeps rfl (Keeps.refl 68 s)
theorem faultBit_lt {cls index b : Nat} (h : faultBit cls index = some b) : b < 30 := by
  unfold faultBit at h
  split at h
  case h_9 => cases h
  all_goals
    split at h
    · cases h
      omega
    · cases h

section OutputFault
variable {cls index cause measured b : Nat} {s : State} (hb : faultBit cls index = some b)
include hb

theorem doIoOutputFault_known (h : rdb R.PIN_FAULT b s = true) : doIoOutputFault cls index cause measured s = s := by
  unfold doIoOutputFault
  rw [hb]
  exact if_pos (by rw [h, Bool.or_true])
/-- The first detection: the pulse ends at the output, and the fault of an enable output reaches its axis. -/
theorem doIoOutputFault_first (hcause : faultCauseOk cls index cause s = true) (h : rdb R.PIN_FAULT b s = false) :
    doIoOutputFault cls index cause measured s =
      if cls = 5 then updateEnables (pinFaulted b cls index cause measured (pulseAt b false s))
      else pinFaulted b cls index cause measured (pulseAt b false s) := by
  unfold doIoOutputFault
  rw [hb]
  exact if_neg (by rw [hcause, h]; decide)

end OutputFault

/-! ### Clearing a fault (R532, R540) -/

/-- The general outputs are the module's own from the first write to the block (R460). -/
def outputsTaken (s : State) : State := modPin (fun p => { p with gpTaken := true }) s
/-- A fault whose condition has gone is cleared, and a pulse that runs starts at its output again. -/
def pinFaultCleared (b : Nat) (s : State) : State :=
  if rdb R.PIN_FAULT b s then pulseAt b true (wrb R.PIN_FAULT b false s) else s
theorem pinFaultCleared_shows {b : Nat} (h : b < 32) (s : State) : rdb R.PIN_FAULT b (pinFaultCleared b s) = false := by
  unfold pinFaultCleared
  split
  · exact (rdb_keeps (pulseAt_only ..) rfl b).trans (rdb_wrb (by decide) (pinFault_fits h) ..)
  · next hclear => exact Bool.eq_false_iff.2 hclear
theorem pinFaultCleared_ctl (b : Nat) (s : State) : (pinFaultCleared b s).ctl = s.ctl := by
  unfold pinFaultCleared
  split
  · exact (pulseAt_only ..).same_ctl rfl
  · rfl
theorem onesOf_pinFault : ∀ b < 30, onesOf 32 (2 ^ b) = [b] := by decide
/-- A write of a single 1 whose condition has gone. -/
theorem doPinFaultClear_gone {b : Nat} {idGone : Bool} (hb : b < 30) (hid : b = 29 → idGone = true) (s : State) :
    doPinFaultClear (2 ^ b) idGone s = updateEnables (pinFaultCleared b (outputsTaken s)) := by
  unfold doPinFaultClear
  extract_lets condGone cleared
  have hgone : condGone b = true := by
    show (if b = 29 then idGone else if b = 30 then _ else if b = 31 then _ else true) = true
    rw [if_neg (by omega : b ≠ 30), if_neg (by omega : b ≠ 31)]
    split
    · next h29 => exact hid h29
    · rfl
  have hcleared : cleared = pinFaultCleared b (outputsTaken s) := by
    unfold cleared
    rw [onesOf_pinFault b hb]
    show (if (condGone b && rdb R.PIN_FAULT b (outputsTaken s)) = true then _ else _) = _
    rw [hgone, Bool.true_and]
    rfl
  rw [hcleared]
/-- The ID supply's fault stays while its condition does (R540). -/
theorem doPinFaultClear_idStays (s : State) : doPinFaultClear (2 ^ 29) false s = updateEnables (outputsTaken s) := by
  unfold doPinFaultClear
  rw [onesOf_pinFault 29 (by decide)]
  rfl

/-! ### IO_24V (R534) -/

/-- IO_24V is there: the inputs may be read. -/
def supplyAccepted (mv : Nat) (s : State) : State :=
  wr R.PIN_IO_SUPPLY mv (modPin (fun p => { p with ioOk := true, ioPresent := true, ioLost := false }) s)
/-- The end of a fault of the supply is posted, and the general inputs show. -/
def generalInputsRead (mv inputs : Nat) (s : State) : State :=
  wrf R.PIN_IN 0 8 (bits 8 8 inputs) (if s.ctl.pin.ioLost then postIoFault 1 0 8 mv (supplyAccepted mv s) else supplyAccepted mv s)
theorem generalInputsRead_ctl (mv inputs : Nat) (s : State) : (generalInputsRead mv inputs s).ctl = (supplyAccepted mv s).ctl := by
  unfold generalInputsRead
  rw [wrf_ctl]
  split
  · exact postEvent_ctl ..
  · rfl
theorem generalInputsRead_inputs (mv inputs : Nat) (s : State) : rdf R.PIN_IN 0 8 (generalInputsRead mv inputs s) = bits 8 8 inputs :=
  rdf_wrf_fits (by decide) (by decide) (bits_lt 8 8 inputs) _ _
theorem generalInputsRead_supply {mv : Nat} (h : mv < 2 ^ 32) (inputs : Nat) (s : State) :
    rd R.PIN_IO_SUPPLY (generalInputsRead mv inputs s) = mv := by
  have haccepted : rd R.PIN_IO_SUPPLY (supplyAccepted mv s) = mv := (rd_wr (by decide) _ _ _).trans (Nat.mod_eq_of_lt h)
  unfold generalInputsRead
  rw [rd_wrf_ne (by decide)]
  split
  · exact (rd_postEvent rfl ..).trans haccepted
  · exact haccepted
theorem generalInputsRead_posts {s : State} (h : s.ctl.pin.ioLost = true) (mv inputs : Nat) : EventShows 245 (generalInputsRead mv inputs s) := by
  unfold generalInputsRead
  rw [if_pos h]
  exact shows_wr_block rfl (by decide) _ 0 (posted ..)
theorem doIoSupplyAccept_first {s : State} (h : s.ctl.pin.ioOk = false) (mv inputs : Nat) : doIoSupplyAccept mv inputs s =
    each (onesOf 2 inputs) doEstopClose (doBeamPermitChange (bit 2 inputs) (generalInputsRead mv inputs s)) := by
  unfold doIoSupplyAccept
  exact if_neg (by rw [h]; decide)

/-- IO_24V has left its range: what is left of it is noted, and its fault is shown and posted. -/
def supplyFaulted (cause mv : Nat) (s : State) : State :=
  pinFaulted 30 1 0 cause mv (modPin (fun p => { p with ioOk := false, ioPresent := decide (cause = 4), ioLost := true }) (wr R.PIN_IO_SUPPLY mv s))
theorem supplyFaulted_ctl (cause mv : Nat) (s : State) : (supplyFaulted cause mv s).ctl =
    { s.ctl with pin := { s.ctl.pin with ioOk := false, ioPresent := decide (cause = 4), ioLost := true } } := pinFaulted_ctl ..
theorem doIoSupplyLoss_under {s : State} (h : s.ctl.pin.ioOk = true) (mv : Nat) : doIoSupplyLoss 4 mv s = supplyFaulted 4 mv s := by
  unfold doIoSupplyLoss
  dsimp only
  rw [h]
  rfl
/-- Absent or reversed: every isolated input reads inactive. -/
theorem doIoSupplyLoss_gone {cause : Nat} {s : State} (hcause : cause = 5 ∨ cause = 6) (h : s.ctl.pin.ioPresent = true) (mv : Nat) :
    doIoSupplyLoss cause mv s = coolantAccept false (doBeamPermitChange false (doEstopOpen 1 (doEstopOpen 0
      (wrf R.PIN_IN 0 8 0 (supplyFaulted cause mv s))))) := by
  unfold doIoSupplyLoss
  dsimp only
  rw [h]
  obtain rfl | rfl := hcause <;> rfl

/-! ### The coolant input (R535) -/

/-- A change of the coolant input is accepted and posted. -/
def coolantReported (active : Bool) (s : State) : State :=
  postEvent 248 0 (if active then 0 else 2) 0
    [(0, 1, (if active then 2 else 1)), (1, 1, (rdf R.PIN_COOLANT_CFG 0 1 s : Nat)),
      (4, 4, (if rdf R.PIN_COOLANT_CFG 0 1 s = 1 then (rdf R.PIN_COOLANT_RATE 0 16 s : Nat) else 0))]
    (modCtl (fun c => { c with coolant := active }) s)
theorem coolantReported_coolant (active : Bool) (s : State) : (coolantReported active s).ctl.coolant = active :=
  congrArg CtlState.coolant (postEvent_ctl ..)
theorem coolantAccept_same {active : Bool} {s : State} (h : active = s.ctl.coolant) : coolantAccept active s = s := if_pos h
theorem coolantAccept_changes {active : Bool} {s : State} (h : active ≠ s.ctl.coolant) :
    coolantAccept active s = if active then coolantReported active s else holdCause 5 (coolantReported active s) := if_neg h
/-- In level mode with IO_24V there the level that held is accepted, by the polarity. -/
theorem doCoolantChange_level {s : State} (hio : s.ctl.pin.ioPresent = true) (hmode : rdb R.PIN_COOLANT_CFG 0 s = false) (level : Bool) :
    doCoolantChange level s = coolantAccept (level != rdb R.PIN_COOLANT_CFG 1 s) s := by
  unfold doCoolantChange
  rw [hio, hmode]
  exact congrArg (coolantAccept · s) (Bool.and_true _)
/-- A window of frequency mode shows its rate and judges it. -/
def coolantMeasured (edges : Nat) (s : State) : State :=
  modPin (fun p => { p with coolRaw := decide (rdf R.PIN_COOLANT_CFG 16 16 s ≤ min 65535 (10 * edges)) })
    (wr R.PIN_COOLANT_RATE (min 65535 (10 * edges)) s)
theorem coolantMeasured_rate (edges : Nat) (s : State) : rd R.PIN_COOLANT_RATE (coolantMeasured edges s) = min 65535 (10 * edges) :=
  (rd_wr (by decide) _ _ _).trans (Nat.mod_eq_of_lt (by simp only [R.PIN_COOLANT_RATE]; omega))

/-! ### The general inputs (R538) -/

/-- An accepted edge shows its level and is counted. -/
def inputShown (n : Nat) (level : Bool) (s : State) : State := bump R.PIN_GPIN_EDGES 1 (satPin 0x2C) (wrb R.PIN_IN n level s)
/-- An edge that is selected is posted with the edges that were not. -/
def inputReported (n : Nat) (level : Bool) (s : State) : State :=
  postEvent 246 n 0 0 [(0, 1, (b2n level : Nat)), (1, 1, (tget 0 s.ctl.pin.gpinMore n : Nat)), (8, 8, (ttNow s : Nat))]
    (modPin (fun p => { p with gpinMore := terase p.gpinMore n, gpinLast := tset p.gpinLast n s.time.ns }) s)
theorem inputShown_level {n : Nat} (h : n < 8) (level : Bool) (s : State) : rdb R.PIN_IN n (inputShown n level s) = level := by
  have hfits : n + 1 ≤ 8 * R.PIN_IN.bytes := by simp only [R.PIN_IN]; omega
  exact (congrArg (bit n) (rd_bump_satPin (by decide) rfl ..)).trans (rdb_wrb (by decide) hfits ..)
theorem inputShown_ctl (n : Nat) (level : Bool) (s : State) : (inputShown n level s).ctl = s.ctl := bump_satPin_ctl ..
theorem inputShown_time (n : Nat) (level : Bool) (s : State) : (inputShown n level s).time = s.time := bump_satPin_time ..
theorem inputShown_selected (n : Nat) (level : Bool) (s : State) (b : Nat) :
    rdb R.PIN_GPIN_EDGE b (inputShown n level s) = rdb R.PIN_GPIN_EDGE b s :=
  (congrArg (bit b) (rd_bump_satPin (by decide) rfl ..)).trans (rdb_wrb_other (by decide) ..)
theorem inputReported_last (n : Nat) (level : Bool) (s : State) :
    tget? (inputReported n level s).ctl.pin.gpinLast n = some s.time.ns := by
  unfold inputReported
  rw [postEvent_ctl]
  exact (tget?_tset ..).trans (if_pos rfl)
/-- The first edge of an input after nothing was posted for it. -/
theorem doGpinEdgeAccept_first {n : Nat} {level : Bool} {s : State} (hn : n < 8) (hio : s.ctl.pin.ioPresent = true)
    (hlevel : rdb R.PIN_IN n s ≠ level) (hlast : tget? s.ctl.pin.gpinLast n = none) : doGpinEdgeAccept n level s =
      if rdb R.PIN_GPIN_EDGE (if level then n else 8 + n) s then inputReported n level (inputShown n level s) else inputShown n level s := by
  have hgo : ¬(n > 7 ∨ (!s.ctl.pin.ioPresent) = true ∨ rdb R.PIN_IN n s = level) := by
    simp [hio, hlevel]
    omega
  have hopen : tget? (inputShown n level s).ctl.pin.gpinLast n = none := by rw [inputShown_ctl]; exact hlast
  rw [← inputShown_selected n level s]
  unfold doGpinEdgeAccept
  rw [if_neg hgo]
  extract_lets shown p more free
  have hfree : free = true := by
    unfold free
    have hnone : tget? p.gpinLast n = none := hopen
    rw [hnone]
  exact if_neg (by rw [hfree]; decide)

/-- Settles O58, input by input and output by output. -/
theorem pinCommands : Obligations.PinCommands := by
  refine ⟨?fault, ?clear, ?accept, ?loss, ?window, ?coolant, ?input, ?output⟩
  case fault =>
    refine fun cls index cause measured b s hb => ⟨fun hcause h => ?_, fun h => congrArg Host.Outcome.next (doIoOutputFault_known hb h)⟩
    have hlt := faultBit_lt hb
    exact ⟨_, congrArg Host.Outcome.next (doIoOutputFault_first hb hcause h), pinFaulted_shows (by omega) .., pinFaulted_posts ..,
      (pinFaulted_ctl ..).trans ((pulseAt_only ..).same_ctl rfl)⟩
  case clear =>
    intro v b s hb hv idGone
    have hgone : (b = 29 → idGone = true) → ∃ u, exec (.pinFaultClear v idGone) s = .next (updateEnables u) ∧
        rdb R.PIN_FAULT b u = false ∧ u.ctl.pin.gpTaken = true := fun hid => by
      refine ⟨_, congrArg Host.Outcome.next ((congrArg (doPinFaultClear · idGone s) hv).trans (doPinFaultClear_gone hb hid s)),
        pinFaultCleared_shows (by omega) _, ?_⟩
      rw [pinFaultCleared_ctl]
      rfl
    refine ⟨?_, ?_, fun hlt => hgone fun h29 => absurd h29 (by omega)⟩
    · rintro rfl hid
      exact hgone fun _ => hid
    · rintro rfl rfl
      exact congrArg Host.Outcome.next ((congrArg (doPinFaultClear · false s) hv).trans (doPinFaultClear_idStays s))
  case accept =>
    refine fun mv inputs s => ⟨fun h => congrArg Host.Outcome.next (if_pos h), fun h hmv => ?_⟩
    have hctl := generalInputsRead_ctl mv inputs s
    exact ⟨_, congrArg Host.Outcome.next (doIoSupplyAccept_first h mv inputs), by rw [hctl]; rfl, by rw [hctl]; rfl,
      generalInputsRead_inputs .., generalInputsRead_supply hmv .., fun hlost => generalInputsRead_posts hlost ..⟩
  case loss =>
    refine fun mv s => ⟨fun h => ?_, fun cause hcause h => ?_⟩
    · have hctl := supplyFaulted_ctl 4 mv s
      exact ⟨_, congrArg Host.Outcome.next (doIoSupplyLoss_under h mv), by rw [hctl], by rw [hctl]; rfl, pinFaulted_shows (by decide) ..,
        pinFaulted_posts .., by rw [hctl]⟩
    · have hctl := supplyFaulted_ctl cause mv s
      refine ⟨_, congrArg Host.Outcome.next (doIoSupplyLoss_gone hcause h mv), ?_, rdf_wrf_fits (by decide) (by decide) (by decide) .., ?_, ?_⟩
      · rw [wrf_ctl, hctl]
        exact decide_eq_false (by omega)
      · exact (rdb_wr_ne (by decide) ..).trans (pinFaulted_shows (by decide) ..)
      · exact shows_wr_block rfl (by decide) _ 0 (pinFaulted_posts ..)
  case window =>
    exact fun edges s => ⟨fun h => congrArg Host.Outcome.next (if_neg (by rw [h]; decide)),
      fun h => ⟨coolantMeasured edges s, congrArg Host.Outcome.next (if_pos h), coolantMeasured_rate .., rfl, rfl⟩⟩
  case coolant =>
    intro level s hio hmode
    have hlevel := doCoolantChange_level hio hmode level
    refine ⟨fun h => ?_, fun hrise hold => ?_, fun hfall hold => ?_⟩
    · exact congrArg Host.Outcome.next (hlevel.trans (coolantAccept_same h))
    · rw [hrise] at hlevel
      exact ⟨_, congrArg Host.Outcome.next (hlevel.trans (coolantAccept_changes (by rw [hold]; decide))), coolantReported_coolant .., posted ..⟩
    · rw [hfall] at hlevel
      exact ⟨_, congrArg Host.Outcome.next (hlevel.trans (coolantAccept_changes (by rw [hold]; decide))), coolantReported_coolant .., posted ..⟩
  case input =>
    refine fun n level s hn => ⟨fun h => congrArg Host.Outcome.next (if_pos (.inr (.inr h))), fun hio hlevel hlast => ?_⟩
    have hfirst := doGpinEdgeAccept_first hn hio hlevel hlast
    by_cases hselected : rdb R.PIN_GPIN_EDGE (if level then n else 8 + n) s = true
    · refine ⟨_, congrArg Host.Outcome.next (hfirst.trans (if_pos hselected)), (rdb_postEvent rfl ..).trans (inputShown_level hn level s),
        fun _ => ⟨posted .., ?_⟩⟩
      rw [inputReported_last, inputShown_time]
    · exact ⟨_, congrArg Host.Outcome.next (hfirst.trans (if_neg hselected)), inputShown_level hn level s, fun h => absurd h hselected⟩
  case output =>
    exact fun v s => ⟨_, rfl, (rd_wr (by decide) _ _ _).trans (Nat.mod_eq_of_lt (by simp only [R.PIN_OUT]; omega)), rfl, rfl⟩

end Sys2Proof.Proofs
end

section
/-! The front of the queue, and the event controller's commands: EVT_PENDING, the holdoff of a vector and its mask (R551, R552). -/

namespace Sys2Proof.Proofs
open Sys2Proof Sys2Proof.Machine Sys2Proof.Laws

/-- Settles O1: `step` matches on the queue, and its front is the command (`step_of_front`). -/
theorem stepTakesTheFront : Obligations.StepTakesTheFront :=
  fun _ _ _ => step_of_front rfl

/-- A vector that is not masked sends its message at once where the module may send, and at most its holdoff starts (R44, R551). -/
theorem sendVector_sends {v : Nat} {s : State} (hmask : rdb R.MSIX_CTRL 0 s v = false) (hbus : s.host.busMaster = true) :
    ∃ l, sendVector v s = emit (.msix v) { s with evt := { s.evt with holdoff := l } } := by
  unfold sendVector
  rw [if_neg (by rw [hmask]; decide), toHost_on hbus]
  dsimp only
  split
  · exact ⟨s.evt.holdoff, rfl⟩
  · exact ⟨v :: s.evt.holdoff.filter (· != v), rfl⟩

/-- The state in which the holdoff of vector `v` has ended and nothing waits for it. -/
def holdoffEnded (v : Nat) (s : State) : State :=
  { s with evt := { s.evt with holdoff := s.evt.holdoff.filter (· != v), merged := s.evt.merged.filter (· != v) } }
theorem doVectorHoldoffExpiry_runs {v : Nat} {s : State} (h : v ∈ s.evt.holdoff) : doVectorHoldoffExpiry v s =
    if s.evt.merged.contains v then sendVector v (holdoffEnded v s) else holdoffEnded v s :=
  if_pos (List.contains_iff_mem.2 h)
theorem notMem_merged_holdoffEnded (v : Nat) (s : State) : v ∉ (holdoffEnded v s).evt.merged := by simp [holdoffEnded]

/-- The mask bit of a vector is no bit of MSIX_PBA. -/
theorem pba_wrb_mask (n v : Nat) (b : Bool) (s : State) : rdb R.MSIX_PBA n (wrb R.MSIX_CTRL 0 b s v) = rdb R.MSIX_PBA n s :=
  rdb_wr_row rfl n _ s v 0
theorem doMsixUnmask_pending {v : Nat} {s : State} (hv : v < 64) (h : rdb R.MSIX_PBA v s = true) :
    doMsixUnmask v s = sendVector v (wrb R.MSIX_PBA v false (wrb R.MSIX_CTRL 0 false s v)) :=
  (if_pos hv).trans (if_pos ((pba_wrb_mask v v false s).trans h))
theorem doMsixUnmask_quiet {v : Nat} {s : State} (hv : v < 64) (h : rdb R.MSIX_PBA v s = false) :
    doMsixUnmask v s = wrb R.MSIX_CTRL 0 false s v :=
  (if_pos hv).trans (if_neg (by rw [pba_wrb_mask, h]; decide))

/-- Settles O10: a holdoff ends as `holdoffEnded` says and an unmask as `doMsixUnmask_pending` does; what is then due is sent
(`sendVector_sends`). -/
theorem eventControllerCommands : Obligations.EventControllerCommands := by
  refine ⟨fun w v s hw => congrArg Host.Outcome.next (if_pos hw), ?quiet, ?merged, ?pending,
    fun v s hv h => congrArg Host.Outcome.next (doMsixUnmask_quiet hv h)⟩
  case quiet =>
    intro v s hhold hmerged
    exact congrArg Host.Outcome.next ((doVectorHoldoffExpiry_runs hhold).trans (if_neg (by simpa using hmerged)))
  case merged =>
    intro v s hhold hmerged hmask hbus
    obtain ⟨l, hsent⟩ := sendVector_sends (v := v) (s := holdoffEnded v s) hmask hbus
    have hdue := (doVectorHoldoffExpiry_runs hhold).trans (if_pos (List.contains_iff_mem.2 hmerged))
    exact ⟨_, congrArg Host.Outcome.next (hdue.trans hsent), rfl, notMem_merged_holdoffEnded v s, rfl⟩
  case pending =>
    intro v s hv h hbus
    have hunmasked : rdb R.MSIX_CTRL 0 (wrb R.MSIX_PBA v false (wrb R.MSIX_CTRL 0 false s v)) v = false :=
      (rdb_wr_row rfl 0 _ _ 0 v).trans (rdb_wrb (by decide) (by decide) false s v)
    have hcleared : rdb R.MSIX_PBA v (wrb R.MSIX_PBA v false (wrb R.MSIX_CTRL 0 false s v)) = false :=
      rdb_wrb (by decide) (by simp only [R.MSIX_PBA]; omega) false _ 0
    obtain ⟨l, hsent⟩ := sendVector_sends hunmasked hbus
    exact ⟨_, congrArg Host.Outcome.next ((doMsixUnmask_pending hv h).trans hsent), rfl, hunmasked, hcleared⟩

end Sys2Proof.Proofs
end

section
/-! The lock of the Bezel limits (R486, R487): its event, and what a firmware write finds behind it. -/

namespace Sys2Proof.Proofs
open Sys2Proof Sys2Proof.Machine Sys2Proof.Laws

/-- The state in which a write after the lock has been noted, of which EV_LIMIT_LOCKED tells (R487). -/
def lockWriteNoted (s : State) : State := modCtl (fun c => { c with lockWrite := true }) s
theorem lockedWrite_later {s : State} (h : s.ctl.lockWrite = true) : lockedWrite s = s := if_pos h
theorem lockedWrite_first {s : State} (h : s.ctl.lockWrite = false) :
    ∃ d, lockedWrite s = postEvent 227 0 1 0 ((0, 1, 2) :: d) (lockWriteNoted s) := ⟨_, if_neg (by rw [h]; decide)⟩
/-- A command that only meets the lock. -/
theorem next_lockedWrite {s : State} {o : Host.Outcome State Fault Refusal} (e : o = .next (lockedWrite s)) :
    (s.ctl.lockWrite = true → o = .next s) ∧
      (s.ctl.lockWrite = false → ∃ d, o = .next (postEvent 227 0 1 0 ((0, 1, 2) :: d) (lockWriteNoted s))) :=
  ⟨fun h => e.trans (congrArg _ (lockedWrite_later h)), fun h => (lockedWrite_first h).imp fun _ hd => e.trans (congrArg _ hd)⟩
theorem locked_postEvent (n src sev w1 : Nat) (d : List (Nat × Nat × Int)) (s : State) : locked (postEvent n src sev w1 d s) = locked s :=
  rdb_postEvent rfl ..
theorem locked_wr_lock (s : State) : locked (wr R.SAF_CTRL 3 s) = true := congrArg (bit 0) (rd_wr (by decide) 3 s 0)

/-- The registers that the lock holds against the firmware: THM_THROTTLE_START, and the RWL rows without an effect of their own. -/
def HeldByLock (r : RegInfo) : Prop :=
  r = R.THM_THROTTLE_START ∨ (accessOf true r = .rwl ∧ r ≠ R.RST_WDOG_CFG ∧ writers.find? (fun w => w.1.base == r.base) = none ∧
    R.allPin.any (fun x => x.base == r.base) = false ∧ r ≠ R.EVT_CFG)
theorem writeReg_throttle {s : State} (h : locked s = true) (i v : Nat) :
    writeReg true R.THM_THROTTLE_START i v s = lockedWrite s :=
  show writeThrottle true v s = lockedWrite s from if_pos h
theorem writeReg_locked {r : RegInfo} {s : State} (hr : HeldByLock r) (h : locked s = true) (i v : Nat) :
    writeReg true r i v s = lockedWrite s := by
  obtain rfl | ⟨hacc, hwdog, hown, hpin, hevt⟩ := hr
  · exact writeReg_throttle h i v
  · simp [writeReg, hpin, hacc, hevt, hown, writePlain, regLocked, hwdog, h]
theorem doRegisterWrite_word64 {fw : Bool} {a v : Nat} {s : State} (ha : answers s = true) (h8 : a % 8 = 0) (h64 : is64 a = true) :
    doRegisterWrite fw a 8 v s = write64 fw a v s := by
  simp [doRegisterWrite, ha, badAccess_eight h8, h64]

/-- Settles O53: behind the lock every way of writing ends in `lockedWrite` (`writeReg_locked`), which reports the first write alone
(`lockedWrite_first`, `lockedWrite_later`). -/
theorem limitsLock : Obligations.LimitsLock := by
  refine ⟨?lock, fun s h => congrArg Host.Outcome.next (if_pos h), ?write, ?policy⟩
  case lock =>
    intro s h
    have e : doSafLock s = postLocked2 1 (wr R.SAF_CTRL 3 s) := if_neg (by rw [h]; decide)
    exact ⟨_, congrArg Host.Outcome.next e, (locked_postEvent ..).trans (locked_wr_lock s)⟩
  case write =>
    intro a v r s h ha hf hr
    refine ⟨fun hb h4 h64 hmid => next_lockedWrite ?_, fun hb h8 hwin => next_lockedWrite (s := { s with heldLow := terase s.heldLow a }) ?_⟩
    · rw [exec_registerWrite, doRegisterWrite_word ha h4 h64 hmid, write32_register hf hb]
      exact congrArg Host.Outcome.next (writeReg_locked hr h _ _)
    · rw [exec_registerWrite, doRegisterWrite_word64 ha h8 (is64_of_register hwin hf hb), write64_register hwin hf hb]
      exact congrArg Host.Outcome.next (writeReg_locked (s := { s with heldLow := terase s.heldLow a }) hr h _ _)
  case policy =>
    intro r v i s h
    have e : wrLocked r v s i = lockedWrite s := if_pos h
    exact ⟨fun hw => e.trans (lockedWrite_later hw), fun hw => (lockedWrite_first hw).imp fun _ => e.trans⟩

end Sys2Proof.Proofs
end

section
/-! The debug unlock (R508, R517): the challenge, what decides over a response, and the relock. -/

namespace Sys2Proof.Proofs
open Sys2Proof Sys2Proof.Machine Sys2Proof.Laws

/-! ### Rows that are written register by register -/

theorem regAddr_ne_of_index {r : RegInfo} {n i j : Nat} (hs : 0 < r.stride) (hn : n ≤ r.count) (hi : i < n) (hj : j < n) (h : i ≠ j) :
    regAddr r i ≠ regAddr r j := by
  unfold regAddr
  rw [Nat.mod_eq_of_lt (Nat.lt_of_lt_of_le hi hn), Nat.mod_eq_of_lt (Nat.lt_of_lt_of_le hj hn)]
  exact fun e => h (Nat.eq_of_mul_eq_mul_left hs (Nat.add_left_cancel e))
/-- The first `n` registers of a row, each written with its own value. -/
theorem rd_each_wr {r : RegInfo} (hb : r.bytes ≤ 8) (hs : 0 < r.stride) {n : Nat} (hn : n ≤ r.count) (f : Nat → Nat) {g : Nat} (hg : g < n)
    (s : State) : rd r (each (List.range n) (fun i u => wr r (f i) u i) s) g = f g % 2 ^ (8 * r.bytes) := by
  induction n with
  | zero => omega
  | succ n ih =>
    have e : each (List.range (n + 1)) (fun i u => wr r (f i) u i) s = wr r (f n) (each (List.range n) (fun i u => wr r (f i) u i) s) n := by
      rw [List.range_succ]
      exact List.foldl_append
    rw [e]
    by_cases h : g = n
    · rw [h]
      exact rd_wr hb _ _ n
    · rw [rd_wr_ne (regAddr_ne_of_index hs hn hg (Nat.lt_succ_self n) h)]
      exact ih (by omega) (by omega)

/-! ### The request -/

/-- A request, or the end of one, takes the open challenge away. -/
def challengeClosed (s : State) : State := modCtl (fun c => { c with debug := none }) s
/-- The challenge `v` shows in DBG_CHALLENGE. -/
def challengeShown (v : Nat) (s : State) : State := each (List.range 8) (fun i u => wr R.DBG_CHALLENGE (bits (32 * i) 32 v) u i) s
theorem rd_challengeShown (v : Nat) (s : State) {i : Nat} (hi : i < 8) : rd R.DBG_CHALLENGE (challengeShown v s) i = bits (32 * i) 32 v :=
  (rd_each_wr (by decide) (by decide) (by decide) _ hi s).trans (Nat.mod_eq_of_lt (bits_lt (32 * i) 32 v))
theorem challengeShown_only (v : Nat) (s : State) : Keeps 4611686018427387904 s (challengeShown v s) :=
  each_keeps (Keeps.refl _ s) fun _ _ hk => wr_keeps (hr := rfl) (hk := rfl) (h := hk)
theorem doDbgRequest_barred {v : Nat} {s : State} (h : debugBar (bits 8 2 v) s ≠ 0) :
    doDbgRequest v s = postUnlock 2 (bits 0 3 v) (bits 8 2 v) (debugBar (bits 8 2 v) s) (challengeClosed s) := if_pos h
theorem doDbgRequest_opens {v : Nat} {s : State} (h : debugBar (bits 8 2 v) s = 0) :
    doDbgRequest v s = emit (.challenge 2 (Config.freeNat s.freeCtr % 2 ^ 256)) (modCtl (fun c => { c with debug := some (bits 0 3 v, bits 8 2 v) })
      (challengeShown (Config.freeNat s.freeCtr % 2 ^ 256) (fresh (challengeClosed s)).2)) := if_neg (not_not.2 h)

/-! ### The response -/

/-- Whether the signature that state `s` holds is that of the key it holds, over the challenge for this scope and slot. -/
def signatureHolds (scope slot : Nat) (s : State) : Bool :=
  Config.ecdsaP384 (wordsOf R.DBG_PUBKEY 24 s) (Config.sha384 (wordsOf R.DBG_CHALLENGE 8 s ++
    wordsOf R.IDC_SERIAL 4 s ++ [BitVec.ofNat 8 scope, BitVec.ofNat 8 slot])) (wordsOf R.DBG_RESPONSE 24 s)
/-- The first ground on which the response that state `s` holds is refused, 0 for none. -/
def refusalReason (scope slot : Nat) (s : State) : Nat :=
  if debugBar slot s ≠ 0 then debugBar slot s
  else if !slotUsable slot s || sha384Bytes (wordsOf R.DBG_PUBKEY 24 s) != fuseKey slot s then 4
  else if !signatureHolds scope slot s then 5
  else 0
theorem key_and_signature_iff : ∀ usable fits holds : Bool,
    (if (!usable || !fits) = true then 4 else if (!holds) = true then 5 else 0) = 0 ↔ (usable && fits && holds) = true := by decide
/-- Nothing refuses where no bar stands, the key is the fused one of a usable slot, and the signature holds. -/
theorem refusalReason_eq_zero_iff (scope slot : Nat) (s : State) : refusalReason scope slot s = 0 ↔ (debugBar slot s == 0 && slotUsable slot s &&
    sha384Bytes (wordsOf R.DBG_PUBKEY 24 s) == fuseKey slot s && signatureHolds scope slot s) = true := by
  unfold refusalReason
  by_cases hbar : debugBar slot s = 0
  · rw [if_neg (not_not.2 hbar), hbar]
    exact key_and_signature_iff _ _ _
  · simp [hbar]
/-- The last word of the response is stored, and the request that it answers is over. -/
def responseTaken (v : Nat) (s : State) : State := challengeClosed (wr R.DBG_RESPONSE v s 23)
def unlockShown (scope : Nat) (s : State) : State := wrf R.DBG_STATUS 4 3 scope (wrb R.DBG_STATUS 0 true s)
theorem doDbgResponse_closed {v : Nat} {s : State} (h : s.ctl.debug = none) : doDbgResponse v s = wr R.DBG_RESPONSE v s 23 := by
  have hnone : (wr R.DBG_RESPONSE v s 23).ctl.debug = none := h
  unfold doDbgResponse
  simp only [hnone]
theorem doDbgResponse_open {v scope slot : Nat} {s : State} (h : s.ctl.debug = some (scope, slot)) : doDbgResponse v s =
    if refusalReason scope slot (responseTaken v s) ≠ 0 then
      postUnlock 2 scope slot (refusalReason scope slot (responseTaken v s)) (responseTaken v s)
    else postUnlock 1 scope slot 0 (unlockShown scope (responseTaken v s)) := by
  have hopen : (wr R.DBG_RESPONSE v s 23).ctl.debug = some (scope, slot) := h
  unfold doDbgResponse
  simp only [hopen]
  rfl

/-! ### What storing the response leaves alone -/

/-- Storing the last word touches the response alone. -/
theorem rd_responseTaken {q : RegInfo} (h : rowsDisjoint q R.DBG_RESPONSE = true) (v : Nat) (s : State) (i : Nat) :
    rd q (responseTaken v s) i = rd q s i := rd_wr_row h v s 23 i
theorem wordsOf_same {r : RegInfo} {s t : State} (h : ∀ i, rd r t i = rd r s i) (n : Nat) : wordsOf r n t = wordsOf r n s := by
  unfold wordsOf
  simp only [h]
theorem fuseKey_responseTaken (v slot : Nat) (s : State) : fuseKey slot (responseTaken v s) = fuseKey slot s := by
  unfold fuseKey
  split
  · simp only [rd_responseTaken (q := R.FUS_KEY0) rfl]
  · split
    · simp only [rd_responseTaken (q := R.FUS_KEY1) rfl]
    · simp only [rd_responseTaken (q := R.FUS_KEY2) rfl]
theorem debugBar_responseTaken (v slot : Nat) (s : State) : debugBar slot (responseTaken v s) = debugBar slot s := by
  unfold debugBar modeOf rdb rdf
  rw [rd_responseTaken (q := R.FUS_FLAGS) rfl, rd_responseTaken (q := R.CTL_MODE) rfl]
theorem slotUsable_responseTaken (v slot : Nat) (s : State) : slotUsable slot (responseTaken v s) = slotUsable slot s := by
  simp only [slotUsable, fusesValid, fuseKey_responseTaken, rdb, rdf, rd_responseTaken (q := R.FUS_FLAGS) rfl,
    rd_responseTaken (q := R.FUS_STATUS) rfl]
theorem refusalReason_responseTaken (scope slot v : Nat) (s : State) : refusalReason scope slot (responseTaken v s) = 0 ↔
    (debugBar slot s == 0 && slotUsable slot s && sha384Bytes (wordsOf R.DBG_PUBKEY 24 s) == fuseKey slot s &&
      Config.ecdsaP384 (wordsOf R.DBG_PUBKEY 24 s) (Config.sha384 (wordsOf R.DBG_CHALLENGE 8 s ++ wordsOf R.IDC_SERIAL 4 s ++
        [BitVec.ofNat 8 scope, BitVec.ofNat 8 slot])) (wordsOf R.DBG_RESPONSE 24 (wr R.DBG_RESPONSE v s 23))) = true := by
  rw [refusalReason_eq_zero_iff, signatureHolds, debugBar_responseTaken, slotUsable_responseTaken, fuseKey_responseTaken,
    wordsOf_same (rd_responseTaken (q := R.DBG_PUBKEY) rfl v s), wordsOf_same (rd_responseTaken (q := R.DBG_CHALLENGE) rfl v s),
    wordsOf_same (rd_responseTaken (q := R.IDC_SERIAL) rfl v s)]
  rfl

/-! ### DBG_STATUS -/

theorem postUnlock_shows (outcome scope slot reason : Nat) (s : State) : EventShows 235 (postUnlock outcome scope slot reason s) := posted ..
theorem rd_status_postUnlock (outcome scope slot reason : Nat) (s : State) :
    rd R.DBG_STATUS (postUnlock outcome scope slot reason s) = rd R.DBG_STATUS s := rd_postEvent rfl ..
theorem unlockShown_unlocked (scope : Nat) (s : State) : rdb R.DBG_STATUS 0 (unlockShown scope s) = true :=
  (rdb_wrf_ne (by decide) (by decide) (.inl (by decide)) scope _ 0).trans (rdb_wrb (by decide) (by decide) true s 0)
theorem unlockShown_scope {scope : Nat} (h : scope < 8) (s : State) : rdf R.DBG_STATUS 4 3 (unlockShown scope s) = scope :=
  rdf_wrf_fits (by decide) (by decide) h _ 0
/-- The lock is set again, and no scope shows. -/
def relockShown (s : State) : State := wrf R.DBG_STATUS 4 3 0 (wrb R.DBG_STATUS 0 false s)
theorem relockShown_locked (s : State) : rdb R.DBG_STATUS 0 (relockShown s) = false :=
  (rdb_wrf_ne (by decide) (by decide) (.inl (by decide)) 0 _ 0).trans (rdb_wrb (by decide) (by decide) false s 0)
theorem relockShown_scope (s : State) : rdf R.DBG_STATUS 4 3 (relockShown s) = 0 := rdf_wrf_fits (by decide) (by decide) (by decide) _ 0

/-- Settles O57: a request, a response and a relock each take the branch that its lemma above names; DBG_STATUS stands through the
report (`rd_status_postUnlock`). -/
theorem debugUnlock : Obligations.DebugUnlock := by
  refine ⟨fun v s => ⟨?barred, ?opens⟩, fun v s => ⟨fun h => congrArg Host.Outcome.next (doDbgResponse_closed h), ?answered⟩,
    fun s => ⟨?relock, fun h => congrArg Host.Outcome.next (if_neg (by rw [h]; decide))⟩⟩
  case barred =>
    intro h
    exact ⟨_, congrArg Host.Outcome.next (doDbgRequest_barred h), congrArg CtlState.debug (postEvent_ctl ..), postUnlock_shows ..,
      fun i => rd_postEvent (off_block rfl rfl i) ..⟩
  case opens =>
    intro h
    have k := challengeShown_only (Config.freeNat s.freeCtr % 2 ^ 256) (fresh (challengeClosed s)).2
    refine ⟨_, congrArg Host.Outcome.next (doDbgRequest_opens h), rfl, congrArg (List.cons _) (k.same_out rfl), fun i hi => ?_, k.same_freeCtr rfl⟩
    rw [emit_rd, modCtl_rd, rd_challengeShown _ _ hi]
  case answered =>
    rintro scope slot hopen hscope ok rfl
    have hexec : exec (.dbgResponse v) s = .next (doDbgResponse v.toNat s) := rfl
    rw [hexec, doDbgResponse_open hopen]
    have hiff := refusalReason_responseTaken scope slot v.toNat s
    have hstatus := rd_responseTaken (q := R.DBG_STATUS) rfl v.toNat s 0
    split
    · next hrefused =>
      have hno := Bool.eq_false_iff.2 (mt hiff.2 hrefused)
      refine ⟨_, rfl, congrArg CtlState.debug (postEvent_ctl ..), postUnlock_shows .., ?_, ?_⟩
      · rw [hno]
        exact congrArg (bit 0) ((rd_status_postUnlock ..).trans hstatus)
      · rw [hno]
        exact congrArg (bits 4 3) ((rd_status_postUnlock ..).trans hstatus)
    · next hgranted =>
      have hyes := hiff.1 (not_not.1 hgranted)
      refine ⟨_, rfl, congrArg CtlState.debug (postEvent_ctl ..), postUnlock_shows .., ?_, ?_⟩
      · rw [hyes]
        exact (congrArg (bit 0) (rd_status_postUnlock ..)).trans (unlockShown_unlocked ..)
      · rw [hyes]
        exact (congrArg (bits 4 3) (rd_status_postUnlock ..)).trans (unlockShown_scope hscope _)
  case relock =>
    intro h
    have e : doDbgRelock s = postUnlock 3 (rdf R.DBG_STATUS 4 3 s) 0 0 (relockShown s) := if_pos h
    exact ⟨_, congrArg Host.Outcome.next e, (congrArg (bit 0) (rd_status_postUnlock ..)).trans (relockShown_locked s),
      (congrArg (bits 4 3) (rd_status_postUnlock ..)).trans (relockShown_scope s), postUnlock_shows ..⟩

end Sys2Proof.Proofs
end

section
/-! Head services (R501, R512 to R516): the rollback level, the authentication of the head and the usage counters. -/

namespace Sys2Proof.Proofs
open Sys2Proof Sys2Proof.Machine Sys2Proof.Laws

/-! ### The rollback level (R501) -/

/-- The level of the running image is burned into the fuses. -/
def levelBurned (s : State) : State := wr R.FUS_ROLLBACK (rd R.FUS_ROLLBACK s ||| (2 ^ rdf R.CTL_FW_ROLLBACK 0 6 s - 1)) s
/-- CTL_FW_ROLLBACK shows the fused level. -/
def fusedShown (s : State) : State := wrf R.CTL_FW_ROLLBACK 8 6 (fusedLevel s) s
theorem doRollbackCommit_burns {v : Nat} {s : State} (hkey : v % 256 = 0xA5) (hrun : rdf R.CTL_LOADER 0 3 s = 4) (hmode : modeOf s = 3)
    (hlevel : fusedLevel s < rdf R.CTL_FW_ROLLBACK 0 6 s) : doRollbackCommit v s = fusedShown (levelBurned s) :=
  if_pos ⟨hkey, hrun, hmode, hlevel⟩
theorem doRollbackCommit_refused {v : Nat} {s : State} (h : v % 256 ≠ 0xA5 ∨ modeOf s ≠ 3) : doRollbackCommit v s = s :=
  if_neg fun ⟨hkey, _, hmode, _⟩ => h.elim (· hkey) (· hmode)
theorem rd_fuses_fusedShown (s : State) : rd R.FUS_ROLLBACK (fusedShown s) = rd R.FUS_ROLLBACK s := rd_wr_row rfl _ s 0 0
theorem fusedLevel_fusedShown (s : State) : fusedLevel (fusedShown s) = fusedLevel s := by
  unfold fusedLevel
  rw [rd_fuses_fusedShown]

/-! ### The usage sets (R514 to R516) -/

theorem reportSat_only (place : Nat) (groups seen : List Nat) (s : State) : Keeps 25769803828 s (reportSat place groups seen s) :=
  reportSat_keeps rfl (Keeps.refl _ s)
theorem showUsage_only (s : State) : Keeps 1152921504606846976 s (showUsage s) := showUsage_keeps rfl (Keeps.refl _ s)
@[simp] theorem reportSat_head (place : Nat) (groups seen : List Nat) (s : State) : (reportSat place groups seen s).head = s.head :=
  (reportSat_only ..).same_head rfl
@[simp] theorem showUsage_head (s : State) : (showUsage s).head = s.head := (showUsage_only s).same_head rfl
theorem rd_reportSat {q : RegInfo} {i : Nat} (h : off 25769803828 (32 + regAddr q i / 65536 % 32)) (place : Nat) (groups seen : List Nat)
    (s : State) : rd q (reportSat place groups seen s) i = rd q s i := rd_keeps (reportSat_only ..) h
/-- The counters are written beside HSV_STATUS, whose bits 5 and 6 show what the backup holds. -/
theorem status_showUsage (s : State) : rd R.HSV_STATUS (showUsage s) =
    rd R.HSV_STATUS (wrb R.HSV_STATUS 6 (!s.head.orphan.isEmpty) (wrb R.HSV_STATUS 5 s.head.pending.isSome s)) :=
  rd_each (fun g u => rd_wr_row rfl _ u g 0) _ _
theorem orphan_showUsage (s : State) : rdb R.HSV_STATUS 6 (showUsage s) = !s.head.orphan.isEmpty :=
  (congrArg (bit 6) (status_showUsage s)).trans (rdb_wrb (by decide) (by decide) _ _ 0)
/-- The fields of HSV_STATUS below bit 5 stand. -/
theorem rdf_showUsage {lo len : Nat} (h : lo + len ≤ 5) (s : State) : rdf R.HSV_STATUS lo len (showUsage s) = rdf R.HSV_STATUS lo len s := by
  have hw : lo + len ≤ 8 * R.HSV_STATUS.bytes := Nat.le_trans h (by decide)
  calc rdf R.HSV_STATUS lo len (showUsage s)
    _ = rdf R.HSV_STATUS lo len (wrb R.HSV_STATUS 6 (!s.head.orphan.isEmpty) (wrb R.HSV_STATUS 5 s.head.pending.isSome s)) :=
        congrArg (bits lo len) (status_showUsage s)
    _ = rdf R.HSV_STATUS lo len s := (rdf_wrb_ne (by decide) hw (.inl (by omega)) _ _ 0).trans (rdf_wrb_ne (by decide) hw (.inl h) _ s 0)
theorem usage_showUsage {g : Nat} (hg : g < 64) (s : State) :
    rd R.HSV_USAGE (showUsage s) g = min useMax (tget 0 s.head.delta g + tget 0 s.head.inflight g) :=
  (rd_each_wr (by decide) (by decide) (by decide) _ hg _).trans
    (Nat.mod_eq_of_lt (Nat.lt_of_le_of_lt (Nat.min_le_left _ _) (by decide)))
/-- The running sums have merged into the delta set. -/
def sumsMerged (s : State) : State :=
  modHead (fun h => { h with delta := (joinUse s.head.delta s.head.running).1, running := []
                             satDelta := (h.satDelta ++ (joinUse s.head.delta s.head.running).2).eraseDups })
    (reportSat 1 (joinUse s.head.delta s.head.running).2 s.head.satDelta s)
theorem mergeUsage_eq (s : State) : mergeUsage s = showUsage (sumsMerged s) := rfl
theorem mergeUsage_head (s : State) : (mergeUsage s).head = { s.head with
    delta := (joinUse s.head.delta s.head.running).1, running := []
    satDelta := (s.head.satDelta ++ (joinUse s.head.delta s.head.running).2).eraseDups } := by
  rw [mergeUsage_eq, showUsage_head, sumsMerged, modHead_get, reportSat_head]
theorem rdf_mergeUsage {lo len : Nat} (h : lo + len ≤ 5) (s : State) : rdf R.HSV_STATUS lo len (mergeUsage s) = rdf R.HSV_STATUS lo len s :=
  (rdf_showUsage h _).trans (congrArg (bits lo len) (rd_reportSat rfl ..))
theorem usage_mergeUsage {g : Nat} (hg : g < 64) (s : State) :
    rd R.HSV_USAGE (mergeUsage s) g = min useMax (tget 0 (mergeUsage s).head.delta g + tget 0 (mergeUsage s).head.inflight g) := by
  rw [mergeUsage_eq, usage_showUsage hg, showUsage_head]

/-! ### A flush (R515) -/

theorem bumpHsv_head (r : RegInfo) (s : State) : (bumpHsv r s).head = s.head := bump_part State.head (fun _ _ => rfl) (fun _ => postEvent_head ..) s
theorem postFlush_head (outcome trigger seq ns : Nat) (s : State) : (postFlush outcome trigger seq ns s).head = s.head :=
  (postEvent_head ..).trans (bumpHsv_head ..)
/-- A flush to an authenticated head, with no earlier write open, whose write verifies: what was in flight is on the head (R515). -/
theorem usageFlush_verified {trigger : Nat} {u : UsageIn} {s : State} (hchip : rdb R.HSV_STATUS 2 s = true) (hauth : rdf R.HSV_STATUS 0 2 s = 2)
    (hpending : s.head.pending = none) (hverify : u.verify = true) : ∃ outcome seq ns x,
      usageFlush trigger u s = postFlush outcome trigger seq ns (showUsage (modHead (fun h => { h with inflight := [], pending := none }) x)) ∧
        x.head.running = [] ∧ x.head.delta = [] := by
  have hchip' : rdb R.HSV_STATUS 2 (mergeUsage s) = true := (congrArg (· == 1) (rdf_mergeUsage (lo := 2) (len := 1) (by decide) s)).trans hchip
  have hauth' : rdf R.HSV_STATUS 0 2 (mergeUsage s) = 2 := (rdf_mergeUsage (by decide) s).trans hauth
  have hpending' : (mergeUsage s).head.pending = none := by rw [mergeUsage_head]; exact hpending
  have hrunning : (mergeUsage s).head.running = [] := by rw [mergeUsage_head]
  unfold usageFlush
  generalize mergeUsage s = m at *
  rw [if_neg (by simp [hchip', hauth'])]
  extract_lets a b free freeAt neither s1 aNewer reconciled
  have hhead : s1.head = m.head := by
    unfold s1
    split <;> rfl
  have hnone : s1.head.pending = none := by rw [hhead, hpending']
  split
  rename_i seq total _
  rw [hnone]
  extract_lets s2 next s3 flight full s4 s5
  rw [if_pos hverify]
  have hwritten : s5.head = { s1.head with inflight := s1.head.delta, delta := [], pending := some next
                                           satHead := (s1.head.satHead ++ full).eraseDups } := reportSat_head ..
  exact ⟨_, _, _, s5, rfl, by rw [hwritten, hhead]; exact hrunning, by rw [hwritten]⟩

/-! ### Authentication (R512, R513) -/

theorem startAuth_runs (s : State) : rdf R.HSV_STATUS 0 2 (startAuth s) = 1 := rdf_wrf_fits (by decide) (by decide) (by decide) _ 0
theorem showMatch_head (s : State) : (showMatch s).head = s.head := rfl
/-- The fields of HSV_STATUS beside geom_match stand. -/
theorem rdf_showMatch {lo len : Nat} (hw : lo + len ≤ 32) (h : lo + len ≤ 4 ∨ 5 ≤ lo) (s : State) :
    rdf R.HSV_STATUS lo len (showMatch s) = rdf R.HSV_STATUS lo len s := rdf_wrb_ne (by decide) hw h _ s 0
theorem status_authFailed (cause : Nat) (s : State) {lo len : Nat} (hw : lo + len ≤ 32) (h : lo + len ≤ 4 ∨ 5 ≤ lo) :
    rdf R.HSV_STATUS lo len (authFailed cause s) = rdf R.HSV_STATUS lo len (wrf R.HSV_STATUS 8 8 cause (wrf R.HSV_STATUS 0 2 3 s)) :=
  (rdf_showMatch hw h _).trans (rdf_wr_row rfl lo len _ _ 0 0)
theorem authFailed_failed (cause : Nat) (s : State) : rdf R.HSV_STATUS 0 2 (authFailed cause s) = 3 :=
  (status_authFailed cause s (by decide) (.inl (by decide))).trans ((rdf_wrf_ne (by decide) (by decide) (.inl (by decide)) cause _ 0).trans
    (rdf_wrf_fits (by decide) (by decide) (by decide) s 0))
theorem authFailed_cause {cause : Nat} (h : cause < 256) (s : State) : rdf R.HSV_STATUS 8 8 (authFailed cause s) = cause :=
  (status_authFailed cause s (by decide) (.inr (by decide))).trans (rdf_wrf_fits (by decide) (by decide) h _ 0)
theorem authFailed_chip (cause : Nat) (s : State) : rdb R.HSV_STATUS 2 (authFailed cause s) = rdb R.HSV_STATUS 2 s :=
  (congrArg (· == 1) (status_authFailed cause s (lo := 2) (len := 1) (by decide) (.inl (by decide)))).trans
    ((rdb_wrf_ne (by decide) (by decide) (.inl (by decide)) cause _ 0).trans (rdb_wrf_ne (by decide) (by decide) (.inr (by decide)) 3 s 0))
theorem ite_lt_of_lt {p : Prop} [Decidable p] {a b n : Nat} (ha : a < n) (hb : b < n) : (if p then a else b) < n := by
  split <;> assumption
theorem authCause_lt (h : HeadIn) (s : State) : authCause h s < 256 := by
  unfold authCause
  repeat' apply ite_lt_of_lt
  all_goals decide
/-- A failed authentication as it shows, its bus error counted where the chip did not answer. -/
def failureShown (cause : Nat) (s : State) : State :=
  if cause = 8 then postEvent 244 0 1 0 [(0, 1, 2)] (bumpHsv R.HSV_BUS_ERRORS (authFailed cause s)) else authFailed cause s
theorem rd_failureShown (cause : Nat) (s : State) : rd R.HSV_STATUS (failureShown cause s) = rd R.HSV_STATUS (authFailed cause s) := by
  unfold failureShown
  split
  · exact (rd_postEvent rfl ..).trans (rd_bump (by decide) (fun _ => rd_postEvent rfl ..) _)
  · rfl
/-- The identity and the geometry of an authenticated head show. -/
def headShown (h : HeadIn) (s : State) : State :=
  each (List.range 560) (fun i u => wr R.HSV_GEOM (bytesAt h.geometry (4 * i) 4) u i)
    (wr R.HSV_ISSUER (bytesAt h.certificate 5 1) (wr R.HSV_BEAMLETS (bytesAt h.identity 8 4) (wr R.HSV_LINKS (bytesAt h.identity 5 1 % 8)
      (each (List.range 4) (fun i u => wr R.HSV_SERIAL (bytesAt h.identity (12 + 4 * i) 4) u i)
        (wrb R.HSV_STATUS 3 false (wrf R.HSV_STATUS 0 2 2 s))))))
/-- Counts of another head's serial have moved into the orphan set. -/
def countsKept (serial : Nat) (s : State) : State := if s.head.serial = serial then s else orphanUsage (mergeUsage s)
/-- The head that has passed is the one that the counters belong to. -/
def headTaken (h : HeadIn) (s : State) : State :=
  showUsage (modHead (fun x => { x with serial := bytesAt h.identity 12 16, headId := some (bytesAt h.certificate 24 16) })
    (countsKept (bytesAt h.identity 12 16) (headShown h s)))
theorem headShown_passed (h : HeadIn) (s : State) : rdf R.HSV_STATUS 0 2 (headShown h s) = 2 := by
  have e : rd R.HSV_STATUS (headShown h s) = rd R.HSV_STATUS (wrb R.HSV_STATUS 3 false (wrf R.HSV_STATUS 0 2 2 s)) := by
    unfold headShown
    rw [rd_each (fun i u => rd_wr_row rfl _ u i 0), rd_wr_row rfl, rd_wr_row rfl, rd_wr_row rfl, rd_each (fun i u => rd_wr_row rfl _ u i 0)]
  exact (congrArg (bits 0 2) e).trans ((rdf_wrb_ne (by decide) (by decide) (.inl (by decide)) false _ 0).trans
    (rdf_wrf_fits (by decide) (by decide) (by decide) s 0))
theorem rd_orphanUsage (s : State) : rd R.HSV_STATUS (orphanUsage s) = rd R.HSV_STATUS s :=
  rd_keeps (orphanUsage_keeps rfl (Keeps.refl 25769869364 s)) rfl
theorem headTaken_passed (h : HeadIn) (s : State) : rdf R.HSV_STATUS 0 2 (headTaken h s) = 2 := by
  have e : rdf R.HSV_STATUS 0 2 (countsKept (bytesAt h.identity 12 16) (headShown h s)) = rdf R.HSV_STATUS 0 2 (headShown h s) := by
    unfold countsKept
    split
    · rfl
    · exact (congrArg (bits 0 2) (rd_orphanUsage _)).trans (rdf_mergeUsage (by decide) _)
  rw [headTaken, rdf_showUsage (by decide), rdf, modHead_rd]
  exact e.trans (headShown_passed h s)
theorem headTaken_serial (h : HeadIn) (s : State) : (headTaken h s).head.serial = bytesAt h.identity 12 16 := by
  rw [headTaken, showUsage_head, modHead_get]

section Completes
variable {h : HeadIn} {u : UsageIn} {s : State}

theorem doHeadAuthComplete_notRunning (hrun : rdf R.HSV_STATUS 0 2 s ≠ 1) : doHeadAuthComplete h u s = s := if_pos hrun
theorem doHeadAuthComplete_fails (hrun : rdf R.HSV_STATUS 0 2 s = 1) {c : Nat} (hc : c = authCause h (wrb R.HSV_STATUS 2 h.chip s)) (h0 : c ≠ 0) :
    ∃ d, doHeadAuthComplete h u s = holdCause 12 (postEvent 241 0 2 c d (failureShown c (wrb R.HSV_STATUS 2 h.chip s))) := by
  subst hc
  unfold doHeadAuthComplete
  rw [if_neg (not_not.2 hrun)]
  extract_lets serial s1 cause s2 s3
  rw [if_pos h0]
  exact ⟨_, rfl⟩
theorem doHeadAuthComplete_passes (hrun : rdf R.HSV_STATUS 0 2 s = 1) (h0 : authCause h (wrb R.HSV_STATUS 2 h.chip s) = 0) :
    ∃ d, doHeadAuthComplete h u s =
      usageFlush 4 u (postEvent 240 0 0 (bytesAt h.certificate 5 1) d (showMatch (headTaken h (wrb R.HSV_STATUS 2 h.chip s)))) := by
  unfold doHeadAuthComplete
  rw [if_neg (not_not.2 hrun)]
  extract_lets serial s1 cause f1 f2 c s2 s3 s4 s5 s6 s7 s8
  rw [if_neg (not_not.2 h0)]
  have e5 : s5 = headShown h s1 := rfl
  have e7 : s7 = headTaken h s1 := by
    unfold s7 s6 headTaken countsKept
    rw [e5]
  exact ⟨_, by unfold s8; rw [e7]⟩

end Completes

/-- A poll that finds another serial than the authenticated one, or none. -/
theorem doHeadIdentityPoll_differs {x : Option Nat} {s : State} (hauth : rdf R.HSV_STATUS 0 2 s = 2) (hx : x ≠ some s.head.serial) :
    ∃ d, doHeadIdentityPoll x s =
      (if x.isSome then startAuth (holdCause 12 (postEvent 241 0 2 9 d (authFailed 9 (wrb R.HSV_STATUS 2 x.isSome s))))
       else holdCause 12 (postEvent 241 0 2 9 d (authFailed 9 (wrb R.HSV_STATUS 2 x.isSome s)))) :=
  ⟨_, if_pos ⟨hauth, hx⟩⟩
theorem doHeadIdentityPoll_same {s : State} (hauth : rdf R.HSV_STATUS 0 2 s = 2) (hchip : rdb R.HSV_STATUS 2 s = true) :
    doHeadIdentityPoll (some s.head.serial) s = wrb R.HSV_STATUS 2 true s := by
  simp [doHeadIdentityPoll, hauth, hchip]

/-- Settles O56: each command is what its lemma above says it does in its case, and HSV_STATUS shows the outcome through the report
(`rdf_showUsage`, `rdf_showMatch`, `rd_failureShown`). -/
theorem headServices : Obligations.HeadServices := by
  refine ⟨?rollback, ?reauth, ?complete, ?poll, ?merge, ?flush, ?discard⟩
  case rollback =>
    refine fun v s => ⟨fun hkey hrun hmode hlevel => ?_, fun h => congrArg Host.Outcome.next (doRollbackCommit_refused h)⟩
    refine ⟨_, congrArg Host.Outcome.next (doRollbackCommit_burns hkey hrun hmode hlevel), ?_, ?_, ?_⟩
    · exact (rd_fuses_fusedShown _).trans (rd_wr (by decide) _ s 0)
    · rw [fusedLevel_fusedShown]
      exact rdf_wrf (by decide) (by decide) _ _ 0
    · exact (rdf_wrf_ne (by decide) (by decide) (.inl (by decide)) _ _ 0).trans (rdf_wr_row rfl 0 6 _ s 0 0)
  case reauth =>
    exact fun s => ⟨fun h => congrArg Host.Outcome.next (if_pos h),
      fun h => ⟨startAuth s, congrArg Host.Outcome.next (if_neg (by omega)), startAuth_runs s, rfl, rfl, rfl⟩⟩
  case complete =>
    refine fun h u s => ⟨fun hrun => congrArg Host.Outcome.next (doHeadAuthComplete_notRunning hrun), fun hrun c hc => ?_⟩
    by_cases h0 : c = 0
    · obtain ⟨d, e⟩ := doHeadAuthComplete_passes (u := u) hrun (hc.symm.trans h0)
      simp only [h0, if_true]
      refine ⟨_, ?_, congrArg Host.Outcome.next e, posted .., fun _ => ?_, fun hne => absurd rfl hne⟩
      · rw [rdf, rd_postEvent rfl, ← rdf, rdf_showMatch (by decide) (.inl (by decide))]
        exact headTaken_passed ..
      · rw [postEvent_head, showMatch_head, headTaken_serial]
    · obtain ⟨d, e⟩ := doHeadAuthComplete_fails (u := u) hrun hc h0
      simp only [h0, if_false]
      have hstatus := (rd_postEvent (q := R.HSV_STATUS) (j := 0) rfl 241 0 2 c d (failureShown c (wrb R.HSV_STATUS 2 h.chip s))).trans
        (rd_failureShown ..)
      refine ⟨_, ?_, congrArg Host.Outcome.next e, posted .., fun h => h.elim, fun _ => ?_⟩
      · exact (congrArg (bits 0 2) hstatus).trans (authFailed_failed ..)
      · exact (congrArg (bits 8 8) hstatus).trans (authFailed_cause (hc ▸ authCause_lt ..) _)
  case poll =>
    refine fun x s hauth => ⟨fun hx hchip => ?_, fun hx => ?_⟩
    · rw [hx]
      exact congrArg Host.Outcome.next (doHeadIdentityPoll_same hauth hchip)
    · obtain ⟨d, e⟩ := doHeadIdentityPoll_differs hauth hx
      have hstatus := rd_postEvent (q := R.HSV_STATUS) (j := 0) rfl 241 0 2 9 d (authFailed 9 (wrb R.HSV_STATUS 2 x.isSome s))
      refine ⟨_, congrArg Host.Outcome.next e, ?_, ?_, ?_, posted ..⟩
      · exact (congrArg (bits 0 2) hstatus).trans (authFailed_failed ..)
      · exact (congrArg (bits 8 8) hstatus).trans (authFailed_cause (by decide) _)
      · exact (congrArg (bit 2) hstatus).trans ((authFailed_chip ..).trans (rdb_wrb (by decide) (by decide) _ s 0))
  case merge =>
    refine fun s => ⟨mergeUsage s, rfl, ?_, ?_, ?_, fun g hg => usage_mergeUsage hg s⟩ <;> rw [mergeUsage_head]
  case flush =>
    refine fun u s => ⟨fun h3 h6 h7 => congrArg Host.Outcome.next (if_neg (by simp [h3, h6, h7])), fun hmode hchip hauth hpending hverify => ?_⟩
    obtain ⟨outcome, seq, ns, x, e, hrunning, hdelta⟩ := usageFlush_verified (trigger := 5) hchip hauth hpending hverify
    refine ⟨_, congrArg Host.Outcome.next ((if_pos hmode).trans e), ?_, ?_, ?_, ?_, posted ..⟩ <;> rw [postFlush_head, showUsage_head, modHead_get]
    · exact hrunning
    · exact hdelta
  case discard =>
    refine fun v s => ⟨fun h => ⟨_, congrArg Host.Outcome.next (if_pos h), ?_, ?_, ?_⟩, fun h => congrArg Host.Outcome.next (if_neg h)⟩
    · rw [showUsage_head, modHead_get]
    · exact orphan_showUsage _
    · rw [showUsage_head, modHead_get]

end Sys2Proof.Proofs
end

section
/-! Temperatures and calibration (R466 to R468, R479 to R481): what a request does to the converter, what stands after a result, and how
the items of a calibration run end. -/

namespace Sys2Proof.Proofs
open Sys2Proof Sys2Proof.Machine Sys2Proof.Laws

/-! ### Requests (R467, R468) -/

theorem onesOf_request : ∀ n < 10, onesOf 10 (2 ^ n) = [n] := by decide
/-- The priority and the requester of a write of THM_REQ. -/
theorem writeThmReq_one {n : Nat} (hn : n < 10) (fw : Bool) (s : State) :
    writeThmReq fw (2 ^ n) s = requestConv n (if fw then 5 else 4) (if fw then whoPeriod else whoHost) s := by
  unfold writeThmReq
  rw [onesOf_request n hn]
  rfl
theorem bits_two_eq_zero {n v : Nat} (h0 : bit n v = false) (h1 : bit (n + 1) v = false) : bits n 2 v = 0 := by
  simp only [bit, bits, Nat.pow_succ, ← Nat.div_div_eq_div_mul, beq_eq_false_iff_ne] at *
  omega
/-- The result of an input that is off: not valid, no fault, stamped. -/
def resultWithdrawn (n : Nat) (s : State) : State :=
  wr R.THM_RESULT_TT (ttNow s) (wrb R.THM_RESULT 16 false (wrb R.THM_RESULT 17 false s n) n) n
theorem requestConv_off {n prio who : Nat} {s : State} (h : inputOff n s = true) : requestConv n prio who s = checkDie (resultWithdrawn n s) :=
  if_pos h
theorem rd_withdrawn (n : Nat) (s : State) : rd R.THM_RESULT (resultWithdrawn n s) n =
    rd R.THM_RESULT (wrb R.THM_RESULT 16 false (wrb R.THM_RESULT 17 false s n) n) n := rd_wr_row rfl _ _ n n
theorem withdrawn_notValid (n : Nat) (s : State) : rdf R.THM_RESULT 16 2 (resultWithdrawn n s) n = 0 := by
  rw [rdf, rd_withdrawn]
  exact bits_two_eq_zero (rdb_wrb (by decide) (by decide) false _ n)
    ((rdb_wrb_ne (by decide) (by decide) (by decide) false _ n).trans (rdb_wrb (by decide) (by decide) false s n))
theorem withdrawn_value (n : Nat) (s : State) : rdf R.THM_RESULT 0 16 (resultWithdrawn n s) n = rdf R.THM_RESULT 0 16 s n :=
  (congrArg (bits 0 16) (rd_withdrawn n s)).trans ((rdf_wrb_ne (by decide) (by decide) (.inl (by decide)) false _ n).trans
    (rdf_wrb_ne (by decide) (by decide) (.inl (by decide)) false s n))
theorem stamped (n : Nat) (s u : State) : rd R.THM_RESULT_TT (wr R.THM_RESULT_TT (ttNow s) u n) n = ttNow s :=
  (rd_wr (by decide) _ u n).trans (Nat.mod_eq_of_lt (ttNow_lt s))

theorem showQueue_busy (s : State) : rdb R.THM_STATUS 0 (showQueue s) = s.thm.converting.isSome :=
  (rdb_wrf_ne (by decide) (by decide) (.inl (by decide)) _ _ 0).trans (rdb_wrb (by decide) (by decide) _ s 0)
theorem nextConv_single {c : Conv} (h : 16 * c.prio + c.sensor ≤ 4096) : nextConv [c] = some c := by
  simp [nextConv, Nat.min_eq_right h]
theorem startConv_nothingWaits {s : State} (h : s.thm.queue = []) : startConv s = s := by
  unfold startConv
  rw [h]
  cases s.thm.converting <;> rfl
theorem startConv_running {c : Conv} {s : State} (h : s.thm.converting = some c) : startConv s = s := by
  unfold startConv
  rw [h]

section Requested
variable {n prio who : Nat} {s : State} (hon : inputOff n s = false)
include hon

/-- An idle converter starts at once. -/
theorem requestConv_starts (hidle : s.thm.converting = none) (hqueue : s.thm.queue = []) (h : 16 * prio + n ≤ 4096) : requestConv n prio who s =
    showQueue (modThm (fun t => { t with converting := some { sensor := n, prio, who := [who] }, queue := [] }) s) := by
  simp [requestConv, hon, queueConv, hqueue, startConv, hidle, nextConv_single (c := { sensor := n, prio, who := [who] }) h, modThm]
/-- While a conversion runs, the request of another sensor waits. -/
theorem requestConv_waits {c : Conv} (hrun : s.thm.converting = some c) (hother : ∀ x ∈ s.thm.queue, x.sensor ≠ n) : requestConv n prio who s =
    showQueue (modThm (fun t => { t with queue := t.queue ++ [{ sensor := n, prio, who := [who] }] }) s) := by
  have hany : s.thm.queue.any (fun x => x.sensor == n) = false := by simpa using hother
  simp [requestConv, hon, queueConv, hany, startConv_running (c := c), hrun, modThm]

end Requested

theorem doStandingRequest_noHead {s : State} (hmode : modeOf s ≠ 0) (h : ∀ i < 8, isHead i s = false) :
    doStandingRequest s = requestConv 0 1 whoBezel s := by
  have hnone : (List.range 8).filter (fun i => isHead i s) = [] := List.filter_eq_nil_iff.2 fun i hi => by simp [h i (List.mem_range.1 hi)]
  unfold doStandingRequest
  rw [if_neg hmode, hnone]
  rfl

/-! ### What stands after a result -/

/-- From `s` to `t` the results, their stamps, the inputs' settings, the fallback bit, the converter with its queue, and the runs of faults
stand, and no pending bit is cleared. -/
structure Stands (s t : State) : Prop where
  rd : ∀ q ∈ [R.THM_RESULT, R.THM_RESULT_TT, R.THM_REMOTE_CFG], ∀ i, rd q t i = rd q s i
  fallback : rdb R.THM_STATUS 5 t = rdb R.THM_STATUS 5 s
  converting : t.thm.converting = s.thm.converting
  queue : t.thm.queue = s.thm.queue
  faultRun : t.thm.faultRun = s.thm.faultRun
  time : t.time = s.time
  shows : ∀ n < 256, EventShows n s → EventShows n t

theorem Stands.refl (s : State) : Stands s s := ⟨fun _ _ _ => rfl, rfl, rfl, rfl, rfl, rfl, fun _ _ x => x⟩
theorem Stands.trans {s t u : State} (h : Stands s t) (k : Stands t u) : Stands s u where
  rd q hq i := (k.rd q hq i).trans (h.rd q hq i)
  fallback := k.fallback.trans h.fallback
  converting := k.converting.trans h.converting
  queue := k.queue.trans h.queue
  faultRun := k.faultRun.trans h.faultRun
  time := k.time.trans h.time
  shows n hn x := k.shows n hn (h.shows n hn x)
theorem Stands.result {s t : State} (h : Stands s t) (i : Nat) : Machine.rd R.THM_RESULT t i = Machine.rd R.THM_RESULT s i :=
  h.rd _ (by simp) i
theorem Stands.stamp {s t : State} (h : Stands s t) (i : Nat) : Machine.rd R.THM_RESULT_TT t i = Machine.rd R.THM_RESULT_TT s i :=
  h.rd _ (by simp) i
theorem Stands.config {s t : State} (h : Stands s t) (i : Nat) : Machine.rd R.THM_REMOTE_CFG t i = Machine.rd R.THM_REMOTE_CFG s i :=
  h.rd _ (by simp) i
theorem inputOff_of_config {s t : State} (h : ∀ i, rd R.THM_REMOTE_CFG t i = rd R.THM_REMOTE_CFG s i) (n : Nat) : inputOff n t = inputOff n s := by
  simp only [inputOff, rdf, h]
theorem isHead_of_config {s t : State} (h : ∀ i, rd R.THM_REMOTE_CFG t i = rd R.THM_REMOTE_CFG s i) (i : Nat) : isHead i t = isHead i s := by
  simp only [isHead, rdf, rdb, h]
theorem detect_of_config {s t : State} (h : ∀ i, rd R.THM_REMOTE_CFG t i = rd R.THM_REMOTE_CFG s i) (n given raw : Nat) :
    detect n given raw t = detect n given raw s := by
  simp only [detect, rdf, h]

/-- A register of block THM beside these rows and THM_STATUS is written. -/
theorem stands_wr {r : RegInfo} (hblock : oneBlock r = true) (h5 : r.base / 65536 = 5)
    (hrows : ∀ q ∈ [R.THM_RESULT, R.THM_RESULT_TT, R.THM_REMOTE_CFG, R.THM_STATUS], rowsDisjoint q r = true) (v i : Nat) (s : State) :
    Stands s (wr r v s i) where
  rd q hq j := rd_wr_row (hrows q (by simp only [List.mem_cons] at *; tauto)) v s i j
  fallback := rdb_wr_row (hrows R.THM_STATUS (by simp)) 5 v s i 0
  converting := rfl
  queue := rfl
  faultRun := rfl
  time := rfl
  shows _ _ := shows_wr_block hblock (by omega) v i
theorem stands_postEvent {n : Nat} (hn : n < 256) (src sev w1 : Nat) (d : List (Nat × Nat × Int)) (s : State) :
    Stands s (postEvent n src sev w1 d s) where
  rd q hq i := by
    simp only [List.mem_cons, List.not_mem_nil, or_false] at hq
    obtain rfl | rfl | rfl := hq <;> exact rd_postEvent (off_block rfl rfl i) ..
  fallback := rdb_postEvent rfl ..
  converting := congrArg ThmState.converting (postEvent_thm ..)
  queue := congrArg ThmState.queue (postEvent_thm ..)
  faultRun := congrArg ThmState.faultRun (postEvent_thm ..)
  time := postEvent_time ..
  shows _ hm := posted_stays hn hm src sev w1 d
theorem stands_bump {r : RegInfo} (hblock : oneBlock r = true) (h5 : r.base / 65536 = 5)
    (hrows : ∀ q ∈ [R.THM_RESULT, R.THM_RESULT_TT, R.THM_REMOTE_CFG, R.THM_STATUS], rowsDisjoint q r = true) (addr : Nat) (s : State) :
    Stands s (bump r 1 (satThm addr) s) := by
  unfold bump bumpW
  extract_lets v c top
  split
  · exact Stands.refl s
  · split
    · exact (stands_wr hblock h5 hrows _ 0 s).trans (stands_postEvent (by decide) ..)
    · exact stands_wr hblock h5 hrows _ 0 s
theorem stands_each {α : Type} {f : α → State → State} (h : ∀ a s, Stands s (f a s)) (l : List α) (s : State) : Stands s (each l f s) :=
  each_relates Stands.refl (fun _ _ _ => Stands.trans) (fun a _ => h a) s
theorem due_disjoint : ∀ q ∈ [R.THM_RESULT, R.THM_RESULT_TT, R.THM_REMOTE_CFG, R.THM_STATUS], rowsDisjoint q R.THM_CAL_DUE = true := by
  decide
theorem stands_calDue (item cause : Nat) (s : State) : Stands s (calDue item cause s) := by
  unfold calDue
  split
  · exact Stands.refl s
  · exact (stands_wr rfl rfl due_disjoint _ 0 s).trans (stands_postEvent (by decide) ..)
theorem stands_calCheck (sensor : Nat) (s : State) : Stands s (calCheck sensor s) := by
  refine stands_each (fun k u => ?_) _ s
  dsimp only
  split
  · exact Stands.refl u
  · split
    · exact stands_calDue k 2 u
    · split
      · exact stands_calDue k 1 u
      · exact Stands.refl u
/-- THM_STATUS shows something beside the fallback bit. -/
theorem stands_status {v : Nat} {s : State} (h : rdb R.THM_STATUS 5 (wr R.THM_STATUS v s) = rdb R.THM_STATUS 5 s) : Stands s (wr R.THM_STATUS v s) where
  rd q hq i := by
    simp only [List.mem_cons, List.not_mem_nil, or_false] at hq
    obtain rfl | rfl | rfl := hq <;> exact rd_wr_row rfl v s 0 i
  fallback := h
  converting := rfl
  queue := rfl
  faultRun := rfl
  time := rfl
  shows _ _ := shows_wr_block rfl (by decide) v 0
/-- Without the fallback no hold cause follows from the die reading (R470). -/
theorem stands_checkDie {s : State} (h : rdb R.THM_STATUS 5 s = false) : Stands s (checkDie s) := by
  have hshow : ∀ b, Stands s (wrb R.THM_STATUS 6 b s) := fun b => stands_status (rdb_wrb_ne (by decide) (by decide) (by decide) b s 0)
  unfold checkDie
  split
  · obtain ⟨hrd, hfallback, hconverting, hqueue, hfaultRun, htime, hshows⟩ := hshow true
    exact ⟨hrd, hfallback, hconverting, hqueue, hfaultRun, htime, hshows⟩
  · extract_lets s1
    rw [if_neg (by rw [(hshow false).fallback, h]; simp)]
    exact hshow false
theorem stands_showQueue (s : State) : Stands s (showQueue s) :=
  (stands_status (rdb_wrb_ne (by decide) (by decide) (by decide) _ s 0)).trans (stands_status (rdb_wrf_ne (by decide) (by decide) (.inr (by decide)) _ _ 0))
theorem stands_reportResult (c : Conv) (s : State) : Stands s (reportResult c s) := by
  unfold reportResult
  extract_lets who
  split
  · exact Stands.refl s
  · exact stands_postEvent (by decide) ..
/-- The dose path's own data is none of what stands. -/
theorem stands_dose (d : DoseState) (s : State) : Stands s { s with dose := d } := ⟨fun _ _ _ => rfl, rfl, rfl, rfl, rfl, rfl, fun _ _ x => x⟩

/-! ### The result of a remote input (R468) -/

/-- The converter has ended its conversion, which is counted. -/
def conversionEnded (s : State) : State := bump R.THM_CONVERSIONS 1 (satThm 0x280) (modThm (fun t => { t with converting := none }) s)
theorem stands_conversionEnded (s : State) : Stands (modThm (fun t => { t with converting := none }) s) (conversionEnded s) :=
  stands_bump rfl rfl (by decide) 0x280 _
/-- A pass start that waited for the conversion waits for it no more (R467). -/
def passTold (c : Conv) (s : State) : State :=
  if c.who.contains whoPass then modPlc (fun p => if c.sensor = 9 then { p with convV := false } else { p with convT := false }) s else s
theorem stands_passTold (c : Conv) (s : State) : Stands s (passTold c s) := by
  unfold passTold
  split
  · exact stands_dose _ s
  · exact Stands.refl s
theorem doThmConversionDone_ends {reading : Int} {given raw : Nat} {c : Conv} {s : State} (hrun : s.thm.converting = some c)
    (hbuild : c.who.contains whoBuild = false) : doThmConversionDone reading given raw s =
      showQueue (startConv (passTold c (reportResult c (sensorResult c.sensor reading given raw (conversionEnded s))))) := by
  unfold doThmConversionDone
  rw [hrun]
  exact congrArg (fun u => showQueue (startConv u)) (if_neg (by rw [hbuild]; decide))
/-- What follows the result of a conversion that no OP_SET_MODE waits for leaves the result and the idle converter as they are. -/
theorem stands_doThmConversionDone {reading : Int} {given raw : Nat} {c : Conv} {s u : State} (hrun : s.thm.converting = some c)
    (hbuild : c.who.contains whoBuild = false) (hstand : Stands u (sensorResult c.sensor reading given raw (conversionEnded s)))
    (hidle : u.thm.converting = none) (hqueue : u.thm.queue = []) :
    Stands u (doThmConversionDone reading given raw s) ∧ rdb R.THM_STATUS 0 (doThmConversionDone reading given raw s) = false := by
  have hend := (hstand.trans (stands_reportResult c _)).trans (stands_passTold c _)
  rw [doThmConversionDone_ends hrun hbuild, startConv_nothingWaits (hend.queue.trans hqueue)]
  refine ⟨hend.trans (stands_showQueue _), ?_⟩
  rw [showQueue_busy, hend.converting, hidle]
  rfl

/-- The stamp of a result of sensor `n`. -/
def resultStamped (n : Nat) (s : State) : State := wr R.THM_RESULT_TT (ttNow s) s n
/-- A valid result of sensor `n` is stored, stamped, and ends a run of faults. -/
def resultStored (n : Nat) (reading : Int) (s : State) : State :=
  putResult n reading (modThm (fun t => { t with faultRun := t.faultRun.filter (· != n) }) (resultStamped n s))
theorem config_resultStamped (n : Nat) (s : State) (i : Nat) : rd R.THM_REMOTE_CFG (resultStamped n s) i = rd R.THM_REMOTE_CFG s i :=
  rd_wr_row rfl _ s n i
theorem config_resultStored (n : Nat) (reading : Int) (s : State) (i : Nat) :
    rd R.THM_REMOTE_CFG (resultStored n reading s) i = rd R.THM_REMOTE_CFG s i := (rd_wr_row rfl _ _ n i).trans (config_resultStamped n s i)
theorem stamp_resultStored (n : Nat) (reading : Int) (s : State) : rd R.THM_RESULT_TT (resultStored n reading s) n = ttNow s :=
  (rd_wr_row rfl _ _ n n).trans (stamped n s s)
theorem rd_resultStored (n : Nat) (reading : Int) (s : State) : rd R.THM_RESULT (resultStored n reading s) n = 2 ^ 16 + toBits 16 reading :=
  (rd_wr (by decide) _ _ n).trans (Nat.mod_eq_of_lt (Nat.lt_trans (Nat.add_lt_add_left (toBits_lt 16 reading) _) (by decide)))
/-- A valid result: its value, its valid bit, no fault (R484). -/
theorem fields_of_valid {x : Nat} (h : x < 2 ^ 16) : bits 0 16 (2 ^ 16 + x) = x ∧ bit 16 (2 ^ 16 + x) = true ∧ bit 17 (2 ^ 16 + x) = false := by
  simp only [bits, bit, beq_iff_eq, beq_eq_false_iff_ne]
  omega
/-- Where input 1 or 2 has a result the die reading is formed again. -/
def dieChecked (n : Nat) (s : State) : State := if n = 1 ∨ n = 2 then checkDie s else s
theorem stands_dieChecked {n : Nat} {s : State} (h : n ≤ 2 → rdb R.THM_STATUS 5 s = false) : Stands s (dieChecked n s) := by
  unfold dieChecked
  split
  · exact stands_checkDie (h (by omega))
  · exact Stands.refl s
/-- The temperature of the beam's own sensor is noted (R187). -/
def temperatureNoted (n : Nat) (reading : Int) (s : State) : State :=
  if n = 1 + rdf R.BSC_CTRL 4 3 s then modBsc (fun b => { b with newT := some reading }) s else s
theorem stands_temperatureNoted (n : Nat) (reading : Int) (s : State) : Stands s (temperatureNoted n reading s) := by
  unfold temperatureNoted
  split
  · exact stands_dose _ s
  · exact Stands.refl s
/-- The state that a remote input's measurement leaves before the die reading is formed again. -/
def resultTaken (n : Nat) (reading : Int) (given raw : Nat) (s : State) : State :=
  if detect n given raw s ≠ 0 then faultResult n (detect n given raw s) raw (resultStamped n s)
  else calCheck n (temperatureNoted n reading (resultStored n reading s))
theorem sensorResult_remote {n : Nat} {reading : Int} {given raw : Nat} {s : State} (h1 : 1 ≤ n) (h9 : n < 9) (hon : inputOff n s = false)
    (hhead : isHead (n - 1) (dieChecked n (resultTaken n reading given raw s)) = false) :
    sensorResult n reading given raw s = dieChecked n (resultTaken n reading given raw s) := by
  have hoff : ¬inputOff n (resultStamped n s) = true := by
    rw [inputOff_of_config (config_resultStamped n s), hon]
    decide
  have hdetect : detect n given raw (resultStamped n s) = detect n given raw s := detect_of_config (config_resultStamped n s) ..
  have htaken : (if decide (detect n given raw (resultStamped n s) ≠ 0) = true then
      faultResult n (detect n given raw (resultStamped n s)) raw (resultStamped n s)
    else calCheck n (temperatureNoted n reading (resultStored n reading s))) = resultTaken n reading given raw s := by
    rw [hdetect]
    simp only [decide_eq_true_eq]
    rfl
  unfold sensorResult
  extract_lets s1 fault bad s2 s3 s4 s5 s6
  have e5 : s5 = resultTaken n reading given raw s := by
    rw [← htaken]
    unfold s5 s4
    rw [if_neg (by omega : ¬n = 9), if_pos h9]
    rfl
  have e6 : s6 = dieChecked n (resultTaken n reading given raw s) := by
    unfold s6
    rw [e5]
    rfl
  rw [if_neg (show ¬inputOff n s1 = true from hoff), if_neg (by omega), if_neg (by omega), e6, if_neg (by rw [hhead]; decide)]

/-- A result that fails its detection keeps its value and shows the fault, stamped; a run of faults of the sensor has begun. -/
def faultNoted (n : Nat) (s : State) : State :=
  modThm (fun t => { t with faultRun := n :: t.faultRun }) (wrb R.THM_RESULT 17 true (resultStamped n s) n)
theorem rd_faultNoted (n : Nat) (s : State) : rd R.THM_RESULT (faultNoted n s) n = rd R.THM_RESULT (wrb R.THM_RESULT 17 true (resultStamped n s) n) n :=
  rfl
theorem config_faultNoted (n : Nat) (s : State) (i : Nat) : rd R.THM_REMOTE_CFG (faultNoted n s) i = rd R.THM_REMOTE_CFG s i :=
  (rd_wr_row rfl _ _ n i).trans (config_resultStamped n s i)
/-- The fault is counted, and EV_REMOTE_SENSOR_FAULT posted. -/
def faultReported (n cause raw : Nat) (s : State) : State :=
  postEvent 44 n 1 0 [(0, 1, (cause : Nat)), (2, 2, (min raw 65535 : Nat))] (modThm (fun t => { t with faultRun := n :: t.faultRun })
    (bump R.THM_SENSOR_FAULTS 1 (satThm 0x284) (wrb R.THM_RESULT 17 true (resultStamped n s) n)))
theorem stands_faultCounted (s : State) : Stands s (bump R.THM_SENSOR_FAULTS 1 (satThm 0x284) s) := stands_bump rfl rfl (by decide) 0x284 s
theorem faultResult_first {n : Nat} {s : State} (h : s.thm.faultRun.contains n = false) (cause raw : Nat) :
    faultResult n cause raw (resultStamped n s) = faultReported n cause raw s := by
  have hrun : (bump R.THM_SENSOR_FAULTS 1 (satThm 0x284) (wrb R.THM_RESULT 17 true (resultStamped n s) n)).thm.faultRun = s.thm.faultRun :=
    (stands_faultCounted _).faultRun
  exact if_neg (by rw [hrun, h]; decide)
theorem Stands.modFaultRun {s t : State} (h : Stands s t) (f : List Nat → List Nat) :
    Stands (modThm (fun x => { x with faultRun := f x.faultRun }) s) (modThm (fun x => { x with faultRun := f x.faultRun }) t) := by
  obtain ⟨hrd, hfallback, hconverting, hqueue, hfaultRun, htime, hshows⟩ := h
  exact ⟨hrd, hfallback, hconverting, hqueue, congrArg f hfaultRun, htime, hshows⟩
theorem stands_faultReported (n cause raw : Nat) (s : State) : Stands (faultNoted n s) (faultReported n cause raw s) :=
  ((stands_faultCounted _).modFaultRun (n :: ·)).trans (stands_postEvent (by decide) ..)

section Remote
variable {n : Nat} {reading : Int} {given raw : Nat} {s : State} (h1 : 1 ≤ n) (h9 : n < 9) (hon : inputOff n s = false)
  (hhead : isHead (n - 1) s = false) (hdiode : n ≤ 2 → rdb R.THM_STATUS 5 s = false)
include h1 h9 hon hhead hdiode

/-- A result that passes its detection. -/
theorem sensorResult_stores (hdetect : detect n given raw s = 0) : Stands (resultStored n reading s) (sensorResult n reading given raw s) := by
  have htaken : Stands (resultStored n reading s) (resultTaken n reading given raw s) := by
    rw [resultTaken, if_neg (not_not.2 hdetect)]
    exact (stands_temperatureNoted ..).trans (stands_calCheck ..)
  have hfallback : rdb R.THM_STATUS 5 (resultStored n reading s) = rdb R.THM_STATUS 5 s :=
    (rdb_wr_row rfl 5 _ _ n 0).trans (rdb_wr_row rfl 5 _ s n 0)
  have hall := htaken.trans (stands_dieChecked fun h2 => htaken.fallback.trans (hfallback.trans (hdiode h2)))
  rw [sensorResult_remote h1 h9 hon]
  · exact hall
  · rw [isHead_of_config fun i => (hall.config i).trans (config_resultStored n reading s i)]
    exact hhead

/-- A result that fails its detection, the first of its run of faults. -/
theorem sensorResult_faults (hdetect : detect n given raw s ≠ 0) (hfirst : s.thm.faultRun.contains n = false) :
    Stands (faultNoted n s) (sensorResult n reading given raw s) ∧ EventShows 44 (sensorResult n reading given raw s) := by
  have htaken : resultTaken n reading given raw s = faultReported n (detect n given raw s) raw s := (if_pos hdetect).trans (faultResult_first hfirst ..)
  have hnoted := stands_faultReported n (detect n given raw s) raw s
  have hfallback : rdb R.THM_STATUS 5 (faultNoted n s) = rdb R.THM_STATUS 5 s :=
    (rdb_wr_row rfl 5 _ _ n 0).trans (rdb_wr_row rfl 5 _ s n 0)
  have hdie : Stands (faultReported n (detect n given raw s) raw s) (dieChecked n (faultReported n (detect n given raw s) raw s)) :=
    stands_dieChecked fun h2 => hnoted.fallback.trans (hfallback.trans (hdiode h2))
  have hall := hnoted.trans hdie
  rw [sensorResult_remote h1 h9 hon] <;> rw [htaken]
  · exact ⟨hall, hdie.shows 44 (by decide) (posted ..)⟩
  · rw [isHead_of_config fun i => (hall.config i).trans (config_faultNoted n s i)]
    exact hhead

end Remote

/-! ### A calibration run (R480, R481, R484) -/

/-- What showing the run writes lies in block THM. -/
theorem showCal_only (s : State) : Keeps 137438953472 s (showCal s) := showCal_keeps (hm := rfl) (h := Keeps.refl _ s)
theorem due_showCal (k : Nat) (s : State) : rdb R.THM_CAL_DUE k (showCal s) = rdb R.THM_CAL_DUE k s :=
  (rdb_wr_row rfl k _ _ 0 0).trans <| (rdb_wr_row rfl k _ _ 0 0).trans <| (rdb_wr_row rfl k _ _ 0 0).trans (rdb_wr_row rfl k _ s 0 0)
theorem changeMode_thm (new cause : Nat) (transit : Bool) (s : State) : (changeMode new cause transit s).thm = s.thm :=
  (changeMode_keeps (hm := rfl) (h := Keeps.refl 941816947111114868 s)).same_thm rfl

theorem writeCalRun_refused {mask : Nat} {s : State} (h3 : modeOf s ≠ 3) (h4 : modeOf s ≠ 4) : writeCalRun mask s = wrb R.THM_CAL_STATUS 18 true s := by
  unfold writeCalRun
  extract_lets items
  rw [if_neg (by tauto)]
/-- In READY the one gap is the layer gap. -/
theorem gaps_ready {s : State} (h : modeOf s = 3) : gaps s = [3] := by simp [gaps, h]
/-- The mode that a run returns to is noted. -/
def originNoted (mode : Nat) (s : State) : State := modCtl (fun c => { c with calFrom := mode }) s
/-- The run of the items in a gap is shown. -/
def runShown (items : List Nat) (gap : Nat) (s : State) : State :=
  showCal { s with thm := { s.thm with run := some { items, startNs := s.time.ns, gap } } }
theorem runShown_run (items : List Nat) (gap : Nat) (s : State) : (runShown items gap s).thm.run = some { items, startNs := s.time.ns, gap } :=
  congrArg ThmState.run ((showCal_only _).same_thm rfl)
theorem writeCalRun_ready {mask : Nat} {s : State} (h : modeOf s = 3) (hsome : onesOf 7 mask ≠ [])
    (hgap : ∀ k ∈ onesOf 7 mask, rdb R.THM_CAL_ITEM 6 s k = true) : writeCalRun mask s = 
      changeMode 5 1 false (runShown (onesOf 7 mask) 3 (originNoted (modeOf s) (wrb R.THM_CAL_STATUS 18 false s))) := by
  have hall : ((onesOf 7 mask).all fun k => rdb R.THM_CAL_ITEM (3 + 3) s k) = true := List.all_eq_true.2 hgap
  have hfind : [3].find? (fun g => (onesOf 7 mask).all fun k => rdb R.THM_CAL_ITEM (3 + g) s k) = some 3 := List.find?_cons_of_pos hall
  unfold writeCalRun
  extract_lets items
  rw [if_pos (.inl h), gaps_ready h, hfind]
  show (if items = [] then _ else changeMode 5 1 false (runShown items 3 (originNoted (modeOf s) (wrb R.THM_CAL_STATUS 18 false s)))) = _
  exact if_neg hsome

/-- The item is due no more, where no request of it came while it ran. -/
def dueCleared (k : Nat) (again : Bool) (s : State) : State := if again then s else wrb R.THM_CAL_DUE k false s
/-- A valid result of the sensor the item watches is its new reference. -/
def referenceNoted (sensor k : Nat) (s : State) : State :=
  if sensor < 10 ∧ rdb R.THM_RESULT 16 s sensor then wr R.THM_CAL_REF (2 ^ 16 + rdf R.THM_RESULT 0 16 s sensor) s k else s
/-- The result of an item that ended OK waits for its boundary. -/
def resultStaged (k : Nat) (again : Bool) (r : CalResult) (s : State) : State :=
  modThm (fun t => { t with staged := tset t.staged k r }) (referenceNoted (rdf R.THM_CAL_ITEM 0 4 s k) k (dueCleared k again s))
/-- The run goes on with the items left. -/
def runAdvanced (run : CalRun) (rest : List Nat) (s : State) : State :=
  showCal (modThm (fun t => { t with run := some { run with items := rest, startNs := s.time.ns, again := false } }) s)
/-- The end of an item, before the run goes on. -/
def itemEnded (ok : Bool) (r : CalResult) (run : CalRun) (k : Nat) (s : State) : State :=
  if ok then resultStaged k run.again r (calDone run 0 s) else calDone run 1 s

theorem dueCleared_only (k : Nat) (again : Bool) (s : State) : Keeps 137438953472 s (dueCleared k again s) := by
  unfold dueCleared
  split
  · exact Keeps.refl _ s
  · exact wrb_keeps rfl rfl rfl (Keeps.refl _ s)
theorem referenceNoted_only (sensor k : Nat) (s : State) : Keeps 137438953472 s (referenceNoted sensor k s) := by
  unfold referenceNoted
  split
  · exact wr_keeps rfl rfl (Keeps.refl _ s)
  · exact Keeps.refl _ s
theorem due_dueCleared {k : Nat} (h : k < 7) (s : State) : rdb R.THM_CAL_DUE k (dueCleared k false s) = false :=
  rdb_wrb (by decide) (by simp only [R.THM_CAL_DUE]; omega) false s 0
theorem due_referenceNoted (sensor k : Nat) (s : State) : rdb R.THM_CAL_DUE k (referenceNoted sensor k s) = rdb R.THM_CAL_DUE k s := by
  unfold referenceNoted
  split
  · exact rdb_wr_row rfl k _ s k 0
  · rfl

/-- Before its result waits, an item that ended OK has touched registers of block THM alone. -/
theorem noted_only (k : Nat) (again : Bool) (s : State) :
    Keeps 137438953472 s (referenceNoted (rdf R.THM_CAL_ITEM 0 4 s k) k (dueCleared k again s)) :=
  (dueCleared_only k again s).trans (referenceNoted_only ..)
theorem resultStaged_thm (k : Nat) (again : Bool) (r : CalResult) (s : State) :
    (resultStaged k again r s).thm = { s.thm with staged := tset s.thm.staged k r } := by
  rw [← (noted_only k again s).same_thm rfl]
  rfl
theorem noted_shows {n : Nat} (k : Nat) (again : Bool) {s : State} (h : EventShows n s) :
    EventShows n (referenceNoted (rdf R.THM_CAL_ITEM 0 4 s k) k (dueCleared k again s)) := shows_keeps (noted_only k again s) rfl h
theorem calDone_thm (run : CalRun) (status : Nat) (s : State) : (calDone run status s).thm = s.thm := postEvent_thm ..
theorem calDone_shows (run : CalRun) (status : Nat) (s : State) : EventShows 42 (calDone run status s) := posted ..

section Ended
variable (ok : Bool) (r : CalResult) (run : CalRun) (k : Nat) (s : State)

theorem itemEnded_ctl : (itemEnded ok r run k s).ctl = s.ctl := by
  cases ok with
  | true => exact ((noted_only k run.again _).same_ctl rfl).trans (postEvent_ctl ..)
  | false => exact postEvent_ctl ..
theorem itemEnded_time : (itemEnded ok r run k s).time = s.time := by
  cases ok with
  | true => exact ((noted_only k run.again _).same_time rfl).trans (postEvent_time ..)
  | false => exact postEvent_time ..
theorem itemEnded_shows : EventShows 42 (itemEnded ok r run k s) := by
  cases ok with
  | true => exact noted_shows k run.again (calDone_shows run 0 s)
  | false => exact calDone_shows run 1 s
theorem itemEnded_ok_staged : tget? (itemEnded true r run k s).thm.staged k = some r := by
  show tget? (resultStaged ..).thm.staged k = some r
  rw [resultStaged_thm]
  exact (tget?_tset k r k _).trans (if_pos rfl)
theorem itemEnded_failed_staged : (itemEnded false r run k s).thm.staged = s.thm.staged := congrArg ThmState.staged (calDone_thm run 1 s)
theorem itemEnded_failed_due : rdb R.THM_CAL_DUE k (itemEnded false r run k s) = rdb R.THM_CAL_DUE k s := rdb_postEvent rfl ..

end Ended

theorem itemEnded_ok_due {r : CalResult} {run : CalRun} {k : Nat} (hk : k < 7) (s : State) (h : run.again = false) :
    rdb R.THM_CAL_DUE k (itemEnded true r run k s) = false := by
  show rdb R.THM_CAL_DUE k (referenceNoted _ k (dueCleared k run.again _)) = false
  rw [due_referenceNoted, h, due_dueCleared hk]

theorem runAdvanced_thm (run : CalRun) (rest : List Nat) (s : State) :
    (runAdvanced run rest s).thm = { s.thm with run := some { run with items := rest, startNs := s.time.ns, again := false } } :=
  (showCal_only _).same_thm rfl
theorem runAdvanced_ctl (run : CalRun) (rest : List Nat) (s : State) : (runAdvanced run rest s).ctl = s.ctl := (showCal_only _).same_ctl rfl
theorem runAdvanced_due (run : CalRun) (rest : List Nat) (k : Nat) (s : State) :
    rdb R.THM_CAL_DUE k (runAdvanced run rest s) = rdb R.THM_CAL_DUE k s := due_showCal k _
theorem runAdvanced_shows (run : CalRun) (rest : List Nat) {n : Nat} {s : State} (h : EventShows n s) : EventShows n (runAdvanced run rest s) :=
  shows_keeps (m := 137438953472) (showCal_only _) rfl h

section ItemDone
variable {ok : Bool} {r : CalResult} {run : CalRun} {k : Nat} {s : State} (hrun : s.thm.run = some run)
include hrun

theorem doCalItemDone_goes_on {k2 : Nat} {l : List Nat} (hitems : run.items = k :: k2 :: l) :
    doCalItemDone ok r s = runAdvanced run (k2 :: l) (itemEnded ok r run k s) := by
  unfold doCalItemDone
  rw [hrun]
  dsimp only
  rw [hitems]
  cases ok <;> rfl
theorem doCalItemDone_last (hitems : run.items = [k]) : doCalItemDone ok r s = leaveCalibrate (runAdvanced run [] (itemEnded ok r run k s)) := by
  unfold doCalItemDone
  rw [hrun]
  dsimp only
  rw [hitems]
  cases ok <;> rfl

end ItemDone

theorem runAdvanced_itemEnded_run (ok : Bool) (r : CalResult) (run : CalRun) (k : Nat) (rest : List Nat) (s : State) :
    (runAdvanced run rest (itemEnded ok r run k s)).thm.run = some { run with items := rest, startNs := s.time.ns, again := false } := by
  rw [runAdvanced_thm, itemEnded_time]

/-- The run is over and shown so. -/
def runEnded (s : State) : State := showCal (modThm (fun t => { t with run := none }) s)
/-- Back in BUILD what is staged waits for its boundary. -/
theorem leaveCalibrate_build {s : State} (h : s.ctl.calFrom = 4) : leaveCalibrate s = changeMode 4 4 false (runEnded s) := by
  have hfrom : (runEnded s).ctl.calFrom = 4 := (congrArg CtlState.calFrom ((showCal_only _).same_ctl rfl)).trans h
  have hmode : modeOf (changeMode 4 4 false (runEnded s)) = 4 := changeMode_modeOf ..
  have hleave : leaveCalibrate s = if modeOf (changeMode (runEnded s).ctl.calFrom 4 false (runEnded s)) = 3 then
      applyStaged [0, 1, 2, 3, 4, 5, 6] 3 (layerNumber (changeMode (runEnded s).ctl.calFrom 4 false (runEnded s)))
        (changeMode (runEnded s).ctl.calFrom 4 false (runEnded s))
    else changeMode (runEnded s).ctl.calFrom 4 false (runEnded s) := rfl
  rw [hleave, hfrom, if_neg (by rw [hmode]; decide)]
theorem runEnded_run (s : State) : (runEnded s).thm.run = none := congrArg ThmState.run ((showCal_only _).same_thm rfl)

/-! ### The obligation -/

theorem thmReq_one {n : Nat} (hn : n < 10) {v : Word32} (hv : v.toNat = 2 ^ n) (fw : Bool) (s : State) :
    exec (.thmReq fw v) s = .next (requestConv n (if fw then 5 else 4) (if fw then whoPeriod else whoHost) s) := by
  show Host.Outcome.next (writeThmReq fw v.toNat s) = _
  rw [hv, writeThmReq_one hn]

theorem thmReq_off {n : Nat} (hn : n < 10) {v : Word32} (hv : v.toNat = 2 ^ n) (fw : Bool) {s : State} (hoff : inputOff n s = true) :
    ∃ u, exec (.thmReq fw v) s = .next (checkDie u) ∧ rdf R.THM_RESULT 16 2 u n = 0 ∧ rd R.THM_RESULT_TT u n = ttNow s ∧
      rdf R.THM_RESULT 0 16 u n = rdf R.THM_RESULT 0 16 s n ∧ u.thm = s.thm :=
  ⟨resultWithdrawn n s, by rw [thmReq_one hn hv, requestConv_off hoff], withdrawn_notValid n s, stamped n s _, withdrawn_value n s, rfl⟩

theorem thmReq_starts {n : Nat} (hn : n < 10) {v : Word32} (hv : v.toNat = 2 ^ n) (fw : Bool) {s : State} (hon : inputOff n s = false)
    (hidle : s.thm.converting = none) (hqueue : s.thm.queue = []) : ∃ t, exec (.thmReq fw v) s = .next t ∧ t.thm.queue = [] ∧
      t.thm.converting = some { sensor := n, prio := if fw then 5 else 4, who := [if fw then whoPeriod else whoHost] } ∧
      rdb R.THM_STATUS 0 t = true := by
  refine ⟨_, (thmReq_one hn hv fw s).trans (congrArg _ (requestConv_starts hon hidle hqueue ?_)), rfl, rfl, showQueue_busy _⟩
  split <;> omega

theorem thmReq_waits {n : Nat} (hn : n < 10) {v : Word32} (hv : v.toNat = 2 ^ n) (fw : Bool) {s : State} (hon : inputOff n s = false)
    {c : Conv} (hrun : s.thm.converting = some c) (hother : ∀ x ∈ s.thm.queue, x.sensor ≠ n) : ∃ t, exec (.thmReq fw v) s = .next t ∧
      t.thm.converting = some c ∧
      t.thm.queue = s.thm.queue ++ [{ sensor := n, prio := if fw then 5 else 4, who := [if fw then whoPeriod else whoHost] }] :=
  ⟨_, (thmReq_one hn hv fw s).trans (congrArg _ (requestConv_waits hon hrun hother)), hrun, rfl⟩

theorem standingRequest_die {s : State} (hmode : modeOf s ≠ 0) (hhead : ∀ i < 8, isHead i s = false) (hidle : s.thm.converting = none)
    (hqueue : s.thm.queue = []) : ∃ t, exec .standingRequest s = .next t ∧
      t.thm.converting = some { sensor := 0, prio := 1, who := [whoBezel] } ∧ t.thm.queue = [] ∧ rdb R.THM_STATUS 0 t = true :=
  ⟨_, congrArg Host.Outcome.next ((doStandingRequest_noHead hmode hhead).trans (requestConv_starts rfl hidle hqueue (by decide))), rfl, rfl,
    showQueue_busy _⟩

section Done
variable {reading : Int} {given raw : Nat} {c : Conv} {s : State} (hrun : s.thm.converting = some c) (hqueue : s.thm.queue = [])
  (h1 : 1 ≤ c.sensor) (h9 : c.sensor < 9) (hon : inputOff c.sensor s = false) (hhead : isHead (c.sensor - 1) s = false)
  (hdiode : c.sensor ≤ 2 → rdb R.THM_STATUS 5 s = false)
include hrun hqueue h1 h9 hon hhead hdiode

theorem thmConversionDone_stores (hbuild : c.who.contains whoBuild = false) (hdetect : detect c.sensor given raw s = 0) :
    ∃ t, exec (.thmConversionDone reading given raw) s = .next t ∧ rdf R.THM_RESULT 0 16 t c.sensor = toBits 16 reading ∧
      rdb R.THM_RESULT 16 t c.sensor = true ∧ rdb R.THM_RESULT 17 t c.sensor = false ∧ rd R.THM_RESULT_TT t c.sensor = ttNow s ∧
      t.thm.converting = none ∧ rdb R.THM_STATUS 0 t = false := by
  have hended := stands_conversionEnded s
  have hstored : Stands (resultStored c.sensor reading (conversionEnded s)) (sensorResult c.sensor reading given raw (conversionEnded s)) :=
    sensorResult_stores h1 h9 ((inputOff_of_config hended.config _).trans hon) ((isHead_of_config hended.config _).trans hhead)
      (fun h2 => hended.fallback.trans (hdiode h2)) ((detect_of_config hended.config ..).trans hdetect)
  obtain ⟨hall, hshown⟩ := stands_doThmConversionDone hrun hbuild hstored hended.converting (hended.queue.trans hqueue)
  have hresult := (hall.result c.sensor).trans (rd_resultStored c.sensor reading (conversionEnded s))
  obtain ⟨hvalue, hvalid, hfault⟩ := fields_of_valid (toBits_lt 16 reading)
  refine ⟨_, rfl, ?_, ?_, ?_, ?_, hall.converting.trans hended.converting, hshown⟩
  · exact (congrArg (bits 0 16) hresult).trans hvalue
  · exact (congrArg (bit 16) hresult).trans hvalid
  · exact (congrArg (bit 17) hresult).trans hfault
  · rw [hall.stamp, stamp_resultStored, ttNow, hended.time]
    rfl

theorem thmConversionDone_faults (hwho : c.who = [whoCal]) (hdetect : detect c.sensor given raw s ≠ 0)
    (hfirst : s.thm.faultRun.contains c.sensor = false) :
    ∃ t, exec (.thmConversionDone reading given raw) s = .next t ∧ rdf R.THM_RESULT 0 16 t c.sensor = rdf R.THM_RESULT 0 16 s c.sensor ∧
      rdb R.THM_RESULT 17 t c.sensor = true ∧ EventShows 44 t ∧ c.sensor ∈ t.thm.faultRun := by
  have hended := stands_conversionEnded s
  obtain ⟨hnoted, hposted⟩ := sensorResult_faults (reading := reading) h1 h9 ((inputOff_of_config hended.config _).trans hon)
    ((isHead_of_config hended.config _).trans hhead) (fun h2 => hended.fallback.trans (hdiode h2))
    (given := given) (raw := raw) (by rw [detect_of_config hended.config]; exact hdetect) ((congrArg (List.contains · c.sensor) hended.faultRun).trans hfirst)
  have hbuild : c.who.contains whoBuild = false := by
    rw [hwho]
    decide
  obtain ⟨hall, _⟩ := stands_doThmConversionDone hrun hbuild hnoted hended.converting (hended.queue.trans hqueue)
  obtain ⟨hafter, _⟩ := stands_doThmConversionDone hrun hbuild (Stands.refl _) (hnoted.converting.trans hended.converting)
    (hnoted.queue.trans (hended.queue.trans hqueue))
  have hresult := (hall.result c.sensor).trans (rd_faultNoted c.sensor (conversionEnded s))
  have hbefore : rd R.THM_RESULT (resultStamped c.sensor (conversionEnded s)) c.sensor = rd R.THM_RESULT s c.sensor :=
    (rd_wr_row rfl _ _ c.sensor c.sensor).trans (hended.result c.sensor)
  refine ⟨_, rfl, ?_, ?_, hafter.shows 44 (by decide) hposted, ?_⟩
  · exact (congrArg (bits 0 16) hresult).trans ((rdf_wrb_ne (by decide) (by decide) (.inl (by decide)) true _ c.sensor).trans (congrArg (bits 0 16) hbefore))
  · exact (congrArg (bit 17) hresult).trans (rdb_wrb (by decide) (by decide) true _ c.sensor)
  · rw [hall.faultRun]
    exact List.mem_cons_self

end Done

theorem thmCalRun_ready {v : Word32} {s : State} (h : modeOf s = 3) (hsome : onesOf 7 (v.toNat % 128) ≠ [])
    (hgap : ∀ k ∈ onesOf 7 (v.toNat % 128), rdb R.THM_CAL_ITEM 6 s k = true) : ∃ t, exec (.thmCalRun v) s = .next t ∧ modeOf t = 5 ∧
      t.thm.run = some { items := onesOf 7 (v.toNat % 128), startNs := s.time.ns, gap := 3 } := by
  refine ⟨_, congrArg Host.Outcome.next (writeCalRun_ready h hsome hgap), changeMode_modeOf .., ?_⟩
  rw [changeMode_thm, runShown_run]
  rfl

section Item
variable {r : CalResult} {run : CalRun} {k : Nat} {s : State} (hrun : s.thm.run = some run)
include hrun

theorem calItemDone_ok {k2 : Nat} {l : List Nat} (hitems : run.items = k :: k2 :: l) (hk : k < 7) : ∃ t, exec (.calItemDone true r) s = .next t ∧
    t.thm.run = some { run with items := k2 :: l, startNs := s.time.ns, again := false } ∧ tget? t.thm.staged k = some r ∧
    (run.again = false → rdb R.THM_CAL_DUE k t = false) ∧ EventShows 42 t := by
  refine ⟨_, congrArg Host.Outcome.next (doCalItemDone_goes_on hrun hitems), runAdvanced_itemEnded_run .., ?_, fun h => ?_,
    runAdvanced_shows run _ (itemEnded_shows ..)⟩
  · rw [runAdvanced_thm]
    exact itemEnded_ok_staged r run k s
  · rw [runAdvanced_due]
    exact itemEnded_ok_due hk s h

theorem calItemDone_failed {k2 : Nat} {l : List Nat} (hitems : run.items = k :: k2 :: l) : ∃ t, exec (.calItemDone false r) s = .next t ∧
    t.thm.run = some { run with items := k2 :: l, startNs := s.time.ns, again := false } ∧ t.thm.staged = s.thm.staged ∧
    rdb R.THM_CAL_DUE k t = rdb R.THM_CAL_DUE k s ∧ EventShows 42 t := by
  refine ⟨_, congrArg Host.Outcome.next (doCalItemDone_goes_on hrun hitems), runAdvanced_itemEnded_run .., ?_, ?_,
    runAdvanced_shows run _ (itemEnded_shows ..)⟩
  · rw [runAdvanced_thm]
    exact itemEnded_failed_staged r run k s
  · rw [runAdvanced_due]
    exact itemEnded_failed_due r run k s

theorem calItemDone_last {ok : Bool} (hitems : run.items = [k]) (hfrom : s.ctl.calFrom = 4) :
    ∃ t, exec (.calItemDone ok r) s = .next t ∧ modeOf t = 4 ∧ t.thm.run = none := by
  have hkept : (runAdvanced run [] (itemEnded ok r run k s)).ctl.calFrom = 4 := by
    rw [runAdvanced_ctl, itemEnded_ctl]
    exact hfrom
  refine ⟨_, congrArg Host.Outcome.next ((doCalItemDone_last hrun hitems).trans (leaveCalibrate_build hkept)), changeMode_modeOf .., ?_⟩
  rw [changeMode_thm, runEnded_run]

end Item

theorem thmConversionDone_none {reading : Int} {given raw : Nat} {s : State} (h : s.thm.converting = none) :
    exec (.thmConversionDone reading given raw) s = .next s := by
  show Host.Outcome.next (doThmConversionDone reading given raw s) = _
  unfold doThmConversionDone
  rw [h]
theorem calItemDone_none {ok : Bool} {r : CalResult} {s : State} (h : s.thm.run = none) : exec (.calItemDone ok r) s = .next s := by
  show Host.Outcome.next (doCalItemDone ok r s) = _
  unfold doCalItemDone
  rw [h]

/-- Settles O52: a result is followed through what stands after it, a calibration run through what the end of an item writes. -/
theorem thermalSensing : Obligations.ThermalSensing := by
  unfold Obligations.ThermalSensing
  exact ⟨
    fun fw n v s hn hv => ⟨thmReq_off hn hv fw, thmReq_starts hn hv fw, fun hon c => thmReq_waits hn hv fw hon⟩,
    fun s => ⟨fun h => congrArg Host.Outcome.next (if_pos h), standingRequest_die⟩,
    fun reading fault raw s => thmConversionDone_none,
    fun reading given raw c s hrun hqueue h1 h9 hon hhead hbuild hdetect hdiode =>
      thmConversionDone_stores hrun hqueue h1 h9 hon hhead hdiode hbuild hdetect,
    fun reading fault raw c s hdetect hrun hqueue h1 h9 hon hhead hwho hfirst hdiode =>
      thmConversionDone_faults hrun hqueue h1 h9 hon hhead hdiode hwho hdetect hfirst,
    fun v s => ⟨fun h3 h4 => congrArg Host.Outcome.next (writeCalRun_refused h3 h4), thmCalRun_ready⟩,
    fun ok r s => calItemDone_none,
    fun r run k k2 l s hrun hitems hk => ⟨calItemDone_ok hrun hitems hk, calItemDone_failed hrun hitems⟩,
    fun ok r run k s hrun hitems => calItemDone_last hrun hitems⟩

end Sys2Proof.Proofs
end

section
/-! Every command answers a next state, and what has left the module stays sent (R43, R57, R548). -/

namespace Sys2Proof.Proofs
open Sys2Proof Sys2Proof.Machine Sys2Proof.Laws

theorem grows_of_keeps {m : Nat} {s t : State} (k : Keeps m s t) : Grows s t := ⟨k.out, k.free⟩

/-- Settles O6: `exec_keeps` gives a command its next state, and with nothing waiting the next state is the TCLK edge's. -/
theorem everyStepAnswers : Obligations.EveryStepAnswers := by
  refine ⟨fun c s => ?command, fun s => ?step⟩
  case command =>
    obtain ⟨t, ht, k⟩ := exec_keeps c s
    exact ⟨t, ht, k.queue, grows_of_keeps k⟩
  case step =>
    cases e : s.pending with
    | nil => exact ⟨_, step_of_empty e, grows_of_keeps (tick_keeps rfl (Keeps.refl 969326968556403452 s))⟩
    | cons c rest =>
      obtain ⟨t, ht, k⟩ := exec_keeps c { s with pending := rest }
      exact ⟨t, (step_of_front e).trans ht, k.out, k.free⟩

end Sys2Proof.Proofs
end

section
/-! The host port: bus mastering, the link, AER errors, the aperture and its base (R44 to R48, R51, R61). -/

namespace Sys2Proof.Proofs
open Sys2Proof Sys2Proof.Machine Sys2Proof.Laws

/-! ### Bus mastering (R44) -/

/-- What is sent one after the other leaves in that order, and nothing else changes. -/
theorem each_emit (l : List Out) (s : State) : each l emit s = { s with out := l.reverse ++ s.out } := by
  induction l generalizing s with
  | nil => rfl
  | cons o l ih =>
    show each l emit (emit o s) = _
    rw [ih, List.reverse_cons, List.append_assoc]
    rfl
theorem doBusMasterEnableSet_eq (s : State) : doBusMasterEnableSet s =
    { s with host := { s.host with busMaster := true, held := [] }, out := s.host.held.reverse ++ s.out } := each_emit ..

/-! ### Errors (R46, R61) -/

/-- The AER status with the bits of a new error. -/
def aerAdded (unc cor : Nat) (s : State) : State :=
  { s with host := { s.host with aerUncorrectable := s.host.aerUncorrectable ||| unc, aerCorrectable := s.host.aerCorrectable ||| cor } }
/-- EV_PCIE_ERROR has been posted with the status as it then stands. -/
def aerReported (unc cor : Nat) (s : State) : State :=
  postEvent 4 0 (if unc = 0 then 1 else 2) 0 [(0, 4, (((aerAdded unc cor s).host.aerUncorrectable : Nat) : Int)),
    (4, 4, (((aerAdded unc cor s).host.aerCorrectable : Nat) : Int))] (aerAdded unc cor s)
theorem exec_pcieError (u c : Word32) (ring : Option Nat) (s : State) :
    exec (.pcieError u c ring) s = .next (structError ring (aerReported u.toNat c.toNat s)) := rfl
theorem structError_running {k : Nat} {s : State} (hk : k < 32) (h : ringState s k = 1 ∨ ringState s k = 2) :
    structError (some k) s = ringError k 3 s := if_pos ⟨hk, h⟩
/-- The ERROR of a ring clears no pending bit. -/
theorem shows_ringError {n : Nat} (hn : n < 256) (k cause : Nat) {s : State} (h : EventShows n s) : EventShows n (ringError k cause s) := by
  refine posted_stays (by decide) hn _ _ _ _ (shows_read ?_ h)
  have ne : regAddr R.EVT_PENDING (n / 32) ≠ regAddr R.HIF_RING_STATE k := by simp [regAddr, R.EVT_PENDING, R.HIF_RING_STATE]; omega
  rw [rd_setRingState_ne ne, rd_wrf_ne ne, rd_wrb_ne ne]
theorem shows_structError {n : Nat} (hn : n < 256) (ring : Option Nat) {s : State} (h : EventShows n s) : EventShows n (structError ring s) := by
  unfold structError
  split
  · exact h
  · split
    · exact shows_ringError hn _ _ h
    · exact h
/-- A ring that has entered ERROR stands in it and shows the cause (R61). -/
theorem ringError_shows {k cause : Nat} (hc : cause < 256) (s : State) :
    ringState (ringError k cause s) k = 4 ∧ rdf R.HIF_RING_STATE 8 8 (ringError k cause s) k = cause := by
  have hpost : rd R.HIF_RING_STATE (ringError k cause s) k =
      rd R.HIF_RING_STATE (setRingState k 4 (wrf R.HIF_RING_STATE 8 8 cause (wrb R.HIF_RING_STATE 4 false s k) k)) k :=
    rd_post_aside (state_aside k) (fun _ => by simp [regAddr, R.HIF_RING_STATE, R.EVT_COUNT]; omega)
      (fun _ => by simp [regAddr, R.HIF_RING_STATE, R.EVT_PENDING]; omega) ..
  constructor
  · exact (congrArg (bits 0 3) hpost).trans (ringState_setRingState (by decide) _)
  · refine (congrArg (bits 8 8) (hpost.trans (writeStatus_rd ..))).trans ?_
    exact (rdf_wrf_ne (r := R.HIF_RING_STATE) (by decide) (by decide) (by decide) 4 _ k).trans
      (rdf_wrf_fits (r := R.HIF_RING_STATE) (by decide) (by decide) hc _ k)

/-! ### The statements -/

/-- Settles O11, command by command; what had waited for bus mastering leaves as `each_emit` says. -/
theorem hostPortCommands : Obligations.HostPortCommands := by
  refine ⟨fun s => ⟨rfl, ?set⟩, fun speed width s _ _ => ⟨_, rfl, rfl, postEvent_dose .., postEvent_mem ..⟩, fun u c s => rfl, ?ring, ?base⟩
  case set =>
    refine ⟨_, congrArg Host.Outcome.next (doBusMasterEnableSet_eq s), rfl, rfl, rfl, rfl, rfl⟩
  case ring =>
    intro u c k s s' hk hnone hrun
    have hs : aerReported u.toNat c.toNat s = s' := by
      rw [exec_pcieError] at hnone
      exact Host.Outcome.next.inj hnone
    rw [exec_pcieError, hs, structError_running hk hrun]
  case base =>
    refine fun v s => ⟨fun hgrid hfits => ?_, fun h => ?_⟩
    · have hv : v.toNat < 2 ^ 64 := v.isLt
      exact ⟨_, congrArg Host.Outcome.next (if_pos ⟨hgrid, hfits⟩), (rd_wr (by decide) ..).trans (Nat.mod_eq_of_lt hv), fun q j hne => rd_wr_ne hne ..⟩
    · exact congrArg Host.Outcome.next (if_neg fun ⟨hgrid, hfits⟩ => h.elim (· hgrid) (Nat.not_lt.2 hfits))

/-- Settles O28: the report is posted in the state with the bits added, and a ring's ERROR after it clears no pending bit. -/
theorem pcieErrorReported : Obligations.PcieErrorReported := fun u c ring s =>
  have hposted : EventShows 4 (aerReported u.toNat c.toNat s) := posted ..
  ⟨_, _, aerAdded u.toNat c.toNat s, exec_pcieError u c ring s, rfl, rfl, rfl, rfl, hposted, shows_structError (by decide) ring hposted⟩

/-- Settles O27: a bad configuration meets the ERROR branch, and any state but DISABLED the first one. -/
theorem badEnableIsConfigError : Obligations.BadEnableIsConfigError := by
  intro k v s hk
  refine ⟨fun h0 hbad => ⟨ringError k 4 s, ?_, ringError_shows (by decide) s⟩, fun hne => ?_⟩
  · show Host.Outcome.next (enableRing k (some v) s) = _
    unfold enableRing
    rw [if_neg (by omega), hbad]
    rfl
  · exact congrArg Host.Outcome.next (if_pos (.inr hne))

end Sys2Proof.Proofs
end

section
/-! The aperture (R47, R48), invalidations of cached translations (R79) and the host DMA channels (R70 to R74). -/

namespace Sys2Proof.Proofs
open Sys2Proof Sys2Proof.Machine Sys2Proof.Laws

/-! ### The aperture (R48) -/

section Aperture
variable {s : State}

theorem doApertureWrite_above {off : Nat} {data : List Byte} (hm : 1 < modeOf s) (h : off + data.length ≤ 2 ^ 34) :
    doApertureWrite off data s = memWrite (rd R.HIF_APERTURE_BASE s + off) data rqHost s := by
  unfold doApertureWrite
  rw [if_neg (by omega), if_neg (by omega)]
theorem doApertureWrite_standby {off : Nat} {data : List Byte} (hm : modeOf s = 1) (h : off + data.length ≤ 2 ^ 34) :
    doApertureWrite off data s = emit .apertureUR s := by
  unfold doApertureWrite
  rw [if_neg (by omega), if_pos hm]
theorem doApertureRead_above {off len : Nat} {bad : Bool} {s' : State} (hm : 1 < modeOf s) (h : off + len ≤ 2 ^ 34)
    (hread : checkedRead (rd R.HIF_APERTURE_BASE s + off) len rqHost s = (bad, s')) :
    doApertureRead off len s = emit (.apertureData (readDram s' (rd R.HIF_APERTURE_BASE s + off) len) bad) s' := by
  unfold doApertureRead
  rw [if_neg (by omega), if_neg (by omega)]
  dsimp only
  rw [hread]
theorem doApertureRead_standby {off len : Nat} (hm : modeOf s = 1) (h : off + len ≤ 2 ^ 34) :
    doApertureRead off len s = emit .apertureUR s := by
  unfold doApertureRead
  rw [if_neg (by omega), if_pos hm]

end Aperture

/-- Settles O12: above STANDBY the write is a write of DRAM, which stores its bytes (`memWrite_dram`) and leaves SRAM, the dose path,
the axes and block CTL alone (`memWrite_keeps`). -/
theorem apertureWriteStores : Obligations.ApertureWriteStores := by
  intro off data s hm hwin hfits hserves hok
  have hd : (memWrite (rd R.HIF_APERTURE_BASE s + off) data rqHost s).mem.dram =
      putBytes s.mem.dram (rd R.HIF_APERTURE_BASE s + off) data := memWrite_dram hfits hserves hok
  have k : Keeps 26414048871092 s (memWrite (rd R.HIF_APERTURE_BASE s + off) data rqHost s) := memWrite_keeps rfl (Keeps.refl _ s)
  refine ⟨_, congrArg Host.Outcome.next (doApertureWrite_above hm hwin), fun i hi => ?_, fun a ha => ?_,
    k.same_sram rfl, k.same_dose rfl, k.same_mot rfl, rd_keeps k rfl⟩
  · unfold dramByte?
    rw [hd, tget?_putBytes_in _ _ _ _ hi]
  · unfold dramByte?
    rw [hd, tget?_putBytes_out _ _ _ _ ha]

/-- Settles O13: a read above STANDBY is the checked read of the lines, and STANDBY answers Unsupported Request. -/
theorem apertureReads : Obligations.ApertureReads :=
  ⟨fun _ _ _ _ _ hwin hm hread => congrArg Host.Outcome.next (doApertureRead_above hm hwin hread),
    fun _ _ _ _ hm => ⟨fun h => congrArg Host.Outcome.next (doApertureRead_standby hm h),
      fun h => congrArg Host.Outcome.next (doApertureWrite_standby hm h)⟩⟩

/-! ### Invalidations (R79) -/

/-- An invalidation shows busy, whatever its scope. -/
theorem startInval_busy (scope asid : Nat) (s : State) : rdb R.HIF_TLB_INVAL 31 (startInval scope asid s) = true := by
  have hreg : rd R.HIF_TLB_INVAL (startInval scope asid s) = (asid % 16 + 16 * (scope % 4) + 2 ^ 31) % 2 ^ 32 := rd_wr (by decide) ..
  rw [rdb_eq, hreg]
  unfold bit
  rw [beq_iff_eq]
  omega
theorem startInval_space {asid : Nat} (h : asid < 16) (s : State) :
    (startInval 1 asid s).host.tlb = s.host.tlb.filter (fun e => !(e.asid == asid)) := by
  unfold startInval invalidate
  rw [Nat.mod_eq_of_lt h]
  rfl
theorem startInval_page {asid : Nat} (h : asid < 16) (s : State) :
    (startInval 2 asid s).host.tlb = s.host.tlb.filter (fun e => !TlbEntryCovers asid (rd R.HIF_TLB_INVAL_ADDR s / 4096) e) := by
  have haddr (v : Nat) : rd R.HIF_TLB_INVAL_ADDR (wr R.HIF_TLB_INVAL v s) = rd R.HIF_TLB_INVAL_ADDR s := rd_wr_ne (by decide) ..
  unfold startInval invalidate
  dsimp only
  rw [haddr, Nat.mod_eq_of_lt h]
  rfl
/-- A cached leaf of another space covers no page of this one. -/
theorem not_covers_of_asid_ne {asid vpn : Nat} {e : TlbEntry} (h : e.asid ≠ asid) : TlbEntryCovers asid vpn e = false := by
  unfold TlbEntryCovers
  rw [beq_false_of_ne h, Bool.false_and]

/-- Settles O17: each scope keeps the cached leaves that it does not hit, and busy shows until the last user has passed its page. -/
theorem translationCacheCommands : Obligations.TranslationCacheCommands := by
  refine ⟨fun s => ?all, fun a s ha => ?space, fun a s ha => ?page, fun s h => congrArg Host.Outcome.next (if_pos h)⟩
  case all =>
    exact ⟨_, rfl, List.filter_eq_nil_iff.2 fun _ _ h => Bool.noConfusion h, List.filter_eq_nil_iff.2 fun _ _ h => Bool.noConfusion h,
      startInval_busy 0 0 s, rfl, rfl⟩
  case space =>
    refine ⟨_, rfl, fun e => ?_, startInval_busy 1 a s, rfl⟩
    rw [startInval_space ha, List.mem_filter, Bool.not_eq_true', beq_eq_false_iff_ne]
  case page =>
    refine ⟨_, rfl, fun e he hne => ?_, fun e he => ?_, startInval_busy 2 a s⟩
    · rw [startInval_page ha, List.mem_filter]
      exact ⟨he, by rw [not_covers_of_asid_ne hne]; rfl⟩
    · rw [startInval_page ha, List.mem_filter] at he
      exact Bool.not_eq_true' _ ▸ he.2

/-! ### Host DMA (R70 to R74) -/

section HostDma
variable {k : Nat} {j : Job} {x : Xfer} {s : State}

theorem grantChannel_granted {w : WalkReads} {c : Nat} (hfree : (List.range 4).find? (fun c => (tget? s.host.chans c).isNone) = some c)
    (hwait : nextWaiter s = some k) (hx : xferJob k s = some (j, x)) (hbm : s.host.busMaster = true) (hlink : s.host.linkUp = true) :
    grantChannel w s = enterPage k j x w (modXfer k j.index (fun x => { x with chan := some c }) (wrb R.HIF_RING_STATE 3 false
      { s with host := { s.host with chans := tset s.host.chans c k, lastGrant := k } } k)) := by
  unfold grantChannel
  rw [hfree, hwait]
  dsimp only
  rw [hx]
  dsimp only
  rw [hbm, hlink]
  rfl
/-- A transfer that stands at its page boundary, that nothing stops and no ring pre-empts, enters its next page. -/
theorem breakPoint_enters {w : WalkReads} {stop : Nat → Job → State → State} (hx : xferJob k s = some (j, x)) (hc : x.chan.isSome = true)
    (hat : x.atBoundary = true) (hdis : rdb R.HIF_RING_STATE 4 (leavePage k (modXfer k j.index (fun _ => x) s)) k = false)
    (hbm : s.host.busMaster = true) (hlink : s.host.linkUp = true)
    (hpre : preemptor k (leavePage k (modXfer k j.index (fun _ => x) s)) = none) :
    breakPoint k w stop s = enterPage k j x w (leavePage k (modXfer k j.index (fun _ => x) s)) := by
  have hchan : x.chan.isNone = false := by rw [← Option.not_isSome, hc]; rfl
  unfold breakPoint
  rw [hx]
  dsimp only
  rw [hchan, hat]
  simp only [Bool.not_true, Bool.false_and, Bool.false_eq_true, if_false, if_true]
  rw [if_neg (Bool.eq_false_iff.1 hdis), if_neg (by show ¬ ((!s.host.busMaster || !s.host.linkUp) = true); rw [hbm, hlink]; decide), hpre]
theorem doHostDmaTransferDone_ends {data : List Byte} (hx : xferJob k s = some (j, x)) (hend : xferCanEnd x data = true) :
    doHostDmaTransferDone k data s = xferDone k { j with xfer := none } data (endXfer k j x s) := by
  unfold doHostDmaTransferDone
  rw [hx]
  exact if_pos hend
/-- A doorbell not more than 2^n behind lets waiting entries go (R70). -/
theorem takeConsumer_within {w : Word32} (h : (rd R.HIF_RING_CONS s k + 2 ^ 32 - w.toNat) % 2 ^ 32 ≤ 2 ^ ringLog2 s k) :
    takeConsumer k (some w) s = flushEvents (modRing k (fun r => { r with db := w.toNat, mustRead := false }) s) :=
  if_neg (Nat.not_lt.2 h)

end HostDma

/-- Settles O18: each command takes the one branch of its rule that its conditions leave. -/
theorem hostDmaCommands : Obligations.HostDmaCommands := by
  refine ⟨fun w c k j x s hfree hwait hx hbm hlink => congrArg Host.Outcome.next (grantChannel_granted hfree hwait hx hbm hlink),
    fun w k j x s hx hc hat hdis hbm hlink hpre => congrArg Host.Outcome.next (breakPoint_enters hx hc hat hdis hbm hlink hpre),
    fun k data j x s hx _ hend => congrArg Host.Outcome.next (doHostDmaTransferDone_ends hx hend), fun k w s hring hstore hbm hbehind => ?_⟩
  refine congrArg Host.Outcome.next ((if_pos ?_).trans (takeConsumer_within hbehind))
  rw [hring, hstore, hbm]
  simp

end Sys2Proof.Proofs
end

section
/-! Rings: doorbells, the commands that move a ring between its states, the resumes of a FAULTED ring, and the completion of a ring's
only open descriptor (R43, R49 to R57, R62, R63, R80 to R83). -/

namespace Sys2Proof.Proofs
open Sys2Proof Sys2Proof.Machine Sys2Proof.Laws

/-! ### What a change of a ring's state leaves alone -/

theorem rd_setRingState_row {q : RegInfo} (h : rowsDisjoint q R.HIF_RING_STATE = true) (k st : Nat) (s : State) (j : Nat) :
    rd q (setRingState k st s) j = rd q s j := rd_setRingState_ne (regAddr_ne_disjoint h k j) st s
/-- Whether the module may send to the host, and whether the link is up. -/
def hostLinks (s : State) : Bool × Bool := (s.host.busMaster, s.host.linkUp)
theorem hostLinks_toHost (o : Out) (s : State) : hostLinks (toHost o s) = hostLinks s := by
  unfold toHost
  split <;> rfl
theorem hostLinks_setRingState (k st : Nat) (s : State) : hostLinks (setRingState k st s) = hostLinks s := hostLinks_toHost ..
theorem busMaster_setRingState (k st : Nat) (s : State) : (setRingState k st s).host.busMaster = s.host.busMaster :=
  congrArg Prod.fst (hostLinks_setRingState k st s)
/-- Whether a ring is read follows the version, its type, the mode, and the host's side of the link (R62). -/
theorem ringReadable_congr {k : Nat} {s t : State} (hlinks : hostLinks t = hostLinks s) (hversion : rd R.HIF_STATUS t = rd R.HIF_STATUS s)
    (htype : rd R.HIF_RING_CFG t k = rd R.HIF_RING_CFG s k) (hmode : rd R.CTL_MODE t = rd R.CTL_MODE s) :
    ringReadable k t = ringReadable k s := by
  have hbm : t.host.busMaster = s.host.busMaster := congrArg Prod.fst hlinks
  have hup : t.host.linkUp = s.host.linkUp := congrArg Prod.snd hlinks
  unfold ringReadable ringVisible modeReads hostVersion modeOf ringType rdf
  rw [hbm, hup, hversion, htype, hmode]
theorem ringReadable_setRingState (k st : Nat) (s : State) : ringReadable k (setRingState k st s) = ringReadable k s :=
  ringReadable_congr (hostLinks_setRingState k st s) (rd_setRingState_row (by decide) ..) (rd_setRingState_row (by decide) ..)
    (rd_setRingState_row (by decide) ..)
theorem ringReadable_busMaster {k : Nat} {s : State} (h : ringReadable k s = true) : s.host.busMaster = true := by
  unfold ringReadable at h
  simp only [Bool.and_eq_true] at h
  exact h.2
/-- Where the module may send, the ring's status entry leaves it (R55). -/
theorem out_setRingState {k st : Nat} {s : State} (h : s.host.busMaster = true) :
    ∃ e, (setRingState k st s).out = .status k (rd R.HIF_STATUS_BASE s / 4096 * 4096 + 32 * k) e :: s.out := by
  have hbase : rd R.HIF_STATUS_BASE (wrf R.HIF_RING_STATE 0 3 st s k) = rd R.HIF_STATUS_BASE s := rd_wr_row (by decide) ..
  refine ⟨statusEntry k (wrf R.HIF_RING_STATE 0 3 st s k), ?_⟩
  unfold setRingState writeStatus
  rw [toHost_on (show (wrf R.HIF_RING_STATE 0 3 st s k).host.busMaster = true from h), hbase]
  rfl

/-! ### Doorbells (R62, R63) -/

section Doorbell
variable {k v : Nat} {s : State}

/-- The value of the doorbell last read. -/
def doorbellTaken (k v : Nat) (s : State) : State := modRing k (fun r => { r with db := v, mustRead := false }) s
/-- An IDLE ring that has new work. -/
def madeActive (k v : Nat) (s : State) : State := setRingState k 2 (modRing k (fun r => { r with idle := false }) (doorbellTaken k v s))

theorem takeDoorbell_newWork (hfits : (v + 2 ^ 32 - rd R.HIF_RING_CONS s k) % 2 ^ 32 ≤ 2 ^ ringLog2 s k) (hnew : v ≠ (ringInt s k).next)
    (hidle : ringState s k = 1) : takeDoorbell k v s = madeActive k v s := by
  have hnext : v ≠ (ringInt (doorbellTaken k v s) k).next := by
    unfold doorbellTaken
    rw [ringInt_modRing]
    exact hnew
  exact (if_neg (Nat.not_lt.2 hfits)).trans (if_pos ⟨hnext, hidle⟩)
/-- A doorbell at the next index brings no new work. -/
theorem takeDoorbell_nothingNew (hfits : (v + 2 ^ 32 - rd R.HIF_RING_CONS s k) % 2 ^ 32 ≤ 2 ^ ringLog2 s k) (hnext : (ringInt s k).next = v) :
    takeDoorbell k v s = doorbellTaken k v s := by
  have h : (ringInt (doorbellTaken k v s) k).next = v := by
    unfold doorbellTaken
    rw [ringInt_modRing]
    exact hnext
  exact (if_neg (Nat.not_lt.2 hfits)).trans (if_neg fun x => x.1 h.symm)

theorem ringInt_madeActive (k v : Nat) (s : State) :
    ringInt (madeActive k v s) k = { ringInt s k with db := v, mustRead := false, idle := false } := by
  unfold madeActive doorbellTaken
  rw [setRingState_ringInt, ringInt_modRing, ringInt_modRing]
theorem cons_madeActive (k v : Nat) (s : State) (j : Nat) : rd R.HIF_RING_CONS (madeActive k v s) j = rd R.HIF_RING_CONS s j :=
  rd_setRingState_row (by decide) ..
/-- A ring with new work is not drained. -/
theorem not_drained_madeActive (h : v ≠ rd R.HIF_RING_CONS s k) : drained k (madeActive k v s) = false := by
  unfold drained
  rw [cons_madeActive, ringInt_madeActive]
  simp [Ne.symm h]

end Doorbell

/-- The read of a doorbell that covers new work makes the IDLE ring ACTIVE, and the idle sequence does not begin. -/
theorem pollRing_newWork {r : DoorbellRead} {w : Word32} {s : State} (hval : r.value = some w) (hidle : ringState s r.ring = 1)
    (hnew : w.toNat ≠ (ringInt s r.ring).next) (hcons : w.toNat ≠ rd R.HIF_RING_CONS s r.ring)
    (hfits : (w.toNat + 2 ^ 32 - rd R.HIF_RING_CONS s r.ring) % 2 ^ 32 ≤ 2 ^ ringLog2 s r.ring) :
    pollRing r s = madeActive r.ring w.toNat s := by
  have hread : readDoorbell r.ring r.value s = madeActive r.ring w.toNat s := by
    rw [hval]
    exact takeDoorbell_newWork hfits hnew hidle
  unfold pollRing idleRing
  rw [if_pos (.inl hidle), hread, not_drained_madeActive hcons]
  rfl

/-- Settles O14: poll and nudge come to the same read (`pollRing_newWork`). -/
theorem doorbellMakesActive : Obligations.DoorbellMakesActive := by
  intro r w s hval hreadable hstate hidle hmode hnew hcons hfits
  have hpoll := pollRing_newWork hval hstate hnew hcons hfits
  refine ⟨madeActive r.ring w.toNat s, congrArg Host.Outcome.next ?poll, congrArg Host.Outcome.next ?nudge,
    ringState_setRingState (by decide) _, by rw [ringInt_madeActive], ?out, setRingState_dose .., setRingState_mot .., setRingState_mem ..⟩
  case poll =>
    unfold doDoorbellPoll
    dsimp only
    rw [hreadable, hidle]
    simp [hmode, hpoll]
  case nudge => exact (if_pos hreadable).trans hpoll
  case out => exact out_setRingState (ringReadable_busMaster hreadable)

/-! ### Enable, disable and reset (R53, R54, R81) -/

section Control
variable {k : Nat} {s : State}

/-- The ring continues from its consumer index, with nothing open. -/
def ringFresh (k : Nat) (s : State) : State :=
  modRing k (fun r => { r with next := rd R.HIF_RING_CONS s k, idle := false, mustRead := false, jobs := [], abortTo := none }) s

theorem enableRing_badConfig {v : Option (Option Word32)} (hk : k < 32) (h0 : ringState s k = 0) (hbad : ringConfigOk k s = false) :
    enableRing k v s = ringError k 4 s := by
  unfold enableRing
  rw [if_neg (by omega), hbad]
  rfl
/-- An enabled ring that is read takes its doorbell, which stands at its consumer index. -/
theorem enableRing_atConsumer {w : Word32} (hk : k < 32) (h0 : ringState s k = 0) (hok : ringConfigOk k s = true) (htype : ringType s k ≠ tyEvent)
    (hw : w.toNat = rd R.HIF_RING_CONS s k) (hread : ringReadable k s = true) :
    enableRing k (some (some w)) s = doorbellTaken k w.toNat (setRingState k 1 (ringFresh k s)) := by
  have hcons : rd R.HIF_RING_CONS (setRingState k 1 (ringFresh k s)) k = w.toNat := (rd_setRingState_row (by decide) ..).trans hw.symm
  have htype' : ringType (setRingState k 1 (ringFresh k s)) k ≠ tyEvent := by
    unfold ringType rdf
    rw [rd_setRingState_row (by decide)]
    exact htype
  have hread' : ringReadable k (setRingState k 1 (ringFresh k s)) = true := (ringReadable_setRingState ..).trans hread
  have hnext : (ringInt (setRingState k 1 (ringFresh k s)) k).next = w.toNat := by
    unfold ringFresh
    rw [setRingState_ringInt, ringInt_modRing]
    exact hw.symm
  have hfits : (w.toNat + 2 ^ 32 - rd R.HIF_RING_CONS (setRingState k 1 (ringFresh k s)) k) % 2 ^ 32 ≤
      2 ^ ringLog2 (setRingState k 1 (ringFresh k s)) k := by
    rw [hcons]
    simp
  unfold enableRing
  rw [if_neg (by omega), hok]
  exact (if_neg htype').trans ((if_pos hread').trans (takeDoorbell_nothingNew hfits hnext))
/-- A disable of a running ring with nothing open, no LAYER ring, is over at once (R54). -/
theorem disableRing_empty (hk : k < 32) (hrun : ringState s k = 1 ∨ ringState s k = 2) (hfree : rdb R.HIF_RING_STATE 4 s k = false)
    (htype : ringType s k ≠ tyLayer) (hjobs : (ringInt s k).jobs = []) :
    disableRing k s = setRingState k 0 (wrb R.HIF_RING_STATE 4 false (wrb R.HIF_RING_STATE 4 true s k) k) := by
  have hbar : (decide (k ≥ 32) || ringState s k == 0 || ringState s k == 4 || rdb R.HIF_RING_STATE 4 s k) = false := by
    rw [hfree]
    rcases hrun with h | h <;> simp [h, hk]
  have hwait : rdb R.HIF_RING_STATE 4 (wrb R.HIF_RING_STATE 4 true s k) k = true := rdb_wrb (by decide) (by decide) ..
  have hstate : ringState (wrb R.HIF_RING_STATE 4 true s k) k = ringState s k := rdf_wrb_ne (by decide) (by decide) (by decide) ..
  have hgive : giveUp k (fun _ => true) (wrb R.HIF_RING_STATE 4 true s k) = wrb R.HIF_RING_STATE 4 true s k := by
    unfold giveUp
    rw [show (ringInt (wrb R.HIF_RING_STATE 4 true s k) k).jobs = [] from hjobs]
    rfl
  have hxfer : xferJob k (wrb R.HIF_RING_STATE 4 true s k) = none := by
    unfold xferJob
    dsimp only
    rw [show (ringInt (wrb R.HIF_RING_STATE 4 true s k) k).jobs = [] from hjobs]
    rfl
  unfold disableRing
  dsimp only
  rw [hbar, if_neg (by decide), if_neg (fun h => htype h.1), if_neg (by omega)]
  dsimp only
  rw [hgive, hxfer]
  exact if_pos ⟨hwait, by rw [hstate]; omega, hjobs⟩
/-- The ring holds nothing but its store, its doorbell and its count of dropped entries, and its registers are cleared. -/
def resetDone (k : Nat) (s : State) : State :=
  wr R.HIF_RING_STATE 0 (wr R.HIF_RING_CONS 0 (leavePage k (freeChan k
    (modRing k (fun r => { store := r.store, db := r.db, drops := r.drops }) s))) k) k
theorem resetRing_stopped (hk : k < 32) (h : ringState s k = 0 ∨ ringState s k = 4) : resetRing k s = writeStatus k (resetDone k s) :=
  if_pos ⟨hk, h⟩

end Control

/-- Settles O15, command by command. -/
theorem ringStateCommands : Obligations.RingStateCommands := by
  refine ⟨?enable, fun k v s hk h0 hbad => congrArg Host.Outcome.next (enableRing_badConfig hk h0 hbad), ?disable, ?done, ?reset⟩
  case enable =>
    intro k w s hk h0 hok htype hw hread
    refine ⟨_, congrArg Host.Outcome.next (enableRing_atConsumer hk h0 hok htype hw hread), ringState_setRingState (by decide) _, ?_⟩
    have hring : ringInt (doorbellTaken k w.toNat (setRingState k 1 (ringFresh k s))) k =
        { ringInt s k with next := rd R.HIF_RING_CONS s k, idle := false, mustRead := false, jobs := [], abortTo := none, db := w.toNat } := by
      unfold doorbellTaken ringFresh
      rw [ringInt_modRing, setRingState_ringInt, ringInt_modRing]
    rw [hring]
    exact ⟨hw.symm, rfl, rfl, setRingState_dose .., setRingState_mem ..⟩
  case disable =>
    intro k s hk hrun hfree htype hjobs
    refine ⟨_, congrArg Host.Outcome.next (disableRing_empty hk hrun hfree htype hjobs), ringState_setRingState (by decide) _, ?_,
      setRingState_dose .., setRingState_mem .., setRingState_mot ..⟩
    refine (congrArg (bit 4) (writeStatus_rd ..)).trans ?_
    exact (rdb_wrf_ne (r := R.HIF_RING_STATE) (by decide) (by decide) (by decide) ..).trans (rdb_wrb (by decide) (by decide) ..)
  case done =>
    intro k s hk hwait hstate hjobs
    exact congrArg Host.Outcome.next ((if_pos hk).trans (if_pos ⟨hwait, hstate, hjobs⟩))
  case reset =>
    intro k s hk hstop
    have hring : ringInt (resetDone k s) k = { store := (ringInt s k).store, db := (ringInt s k).db, drops := (ringInt s k).drops } :=
      ringInt_modRing k (fun r => { store := r.store, db := r.db, drops := r.drops }) s
    refine ⟨_, congrArg Host.Outcome.next (resetRing_stopped hk hstop), ?_, ?_, ?_, ?_, toHost_dose .., toHost_mem ..⟩
    · exact (writeStatus_rd ..).trans (rd_wr (by decide) ..)
    · exact (writeStatus_rd ..).trans ((rd_wr_row (by decide) ..).trans (rd_wr (by decide) ..))
    · exact congrArg RingInt.next ((toHost_ringInt ..).trans hring)
    · exact congrArg RingInt.jobs ((toHost_ringInt ..).trans hring)

/-! ### The resumes of a FAULTED ring (R80 to R83) -/

section Resume
variable {k : Nat} {j : Job} {s : State}

theorem asMode_setRingState (a k st : Nat) (s : State) : asMode a (setRingState k st s) = asMode a s := by
  unfold asMode hostVersion rdf
  rw [rd_setRingState_row (by decide), rd_setRingState_row (by decide)]
theorem ringAsid_setRingState (j k st : Nat) (s : State) : ringAsid j (setRingState k st s) = ringAsid j s := by
  unfold ringAsid rdf
  rw [rd_setRingState_row (by decide)]
theorem translateVa_bypass {a : Nat} (h : asMode a s = 2) (va : Nat) (write : Bool) (w : WalkReads) : translateVa a va write w s = (.bypass, s) := by
  unfold translateVa
  rw [h]
  rfl
/-- A resume leaves the descriptors and the passes alone, so that a pass that no rewind has given up is still there. -/
theorem passGivenUp_setRingState (i : Nat) (o : Job) (k st : Nat) (s : State) : passGivenUp i o (setRingState k st s) = passGivenUp i o s := by
  unfold passGivenUp
  rw [setRingState_dose]

/-- RETRY translates the faulting address again, and a bypass lets the transfer go on. -/
theorem resumeRetry_bypass {w : WalkReads} {x : Xfer} {s' : State} (hj : faultedJob k s = some j) (hopen : j.cpl = none)
    (hpass : passGivenUp k j s = false) (hx : j.xfer = some x) (hbm : s.host.busMaster = true)
    (hwalk : translateVa (ringAsid k s) (x.addr + x.done) x.toHost w (setRingState k 2 s) = (.bypass, s')) :
    resumeRetry k (some w) s = s' := by
  unfold resumeRetry
  rw [hj]
  dsimp only
  rw [hopen, passGivenUp_setRingState, hpass, hx, ringAsid_setRingState]
  simp only [Option.isSome_none, Bool.false_eq_true, if_false]
  rw [busMaster_setRingState, hbm, hwalk]
  rfl
/-- In a space that bypasses translation RETRY makes the ring ACTIVE and changes nothing else. -/
theorem resumeRetry_active {w : WalkReads} (hj : faultedJob k s = some j) (hopen : j.cpl = none) (hpass : passGivenUp k j s = false)
    (hmode : asMode (ringAsid k s) s = 2) : resumeRetry k (some w) s = setRingState k 2 s := by
  unfold resumeRetry
  rw [hj]
  dsimp only
  rw [hopen, passGivenUp_setRingState, hpass, ringAsid_setRingState]
  simp only [Option.isSome_none, Bool.false_eq_true, if_false]
  cases j.xfer with
  | none => rfl
  | some x =>
    dsimp only
    rw [translateVa_bypass ((asMode_setRingState ..).trans hmode)]
    exact ite_self _

/-- A descriptor that is no pass's and loads no firmware ends with its status and reason (R81). -/
theorem abandonJob_noPass (status reason : Nat) (hpass : s.dose.passes.find? (fun p => p.ring == k && p.index == j.index) = none)
    (hop : dOpcode j.desc ≠ 0x0A) : abandonJob k j status reason s =
      complete k j.index { status := status, reason := reason, result := (j.cpl.map (·.result)).getD 0 } (wrb R.HIF_RING_STATE 3 false s k) := by
  unfold abandonJob
  dsimp only
  rw [wrb_dose, hpass]
  dsimp only
  rw [if_neg (fun h => hop h.1)]
theorem resumeSkip_faulted (hj : faultedJob k s = some j) :
    resumeSkip k s = abandonJob k j stFaultSkipped (ringInt s k).faultCause (setRingState k 2 s) := by
  unfold resumeSkip
  rw [hj]
/-- The ring is IDLE, and its descriptors up to the doorbell are to end (R81). -/
def abortBegun (k : Nat) (s : State) : State := modRing k (fun r => { r with abortTo := some r.db }) (setRingState k 1 s)
/-- An ABORT that reads no descriptor with it ends the faulting one. -/
theorem resumeAbort_faulted (hj : faultedJob k s = some j) : resumeAbort k [] s = abandonJob k j stAborted 0 (abortBegun k s) := by
  unfold resumeAbort
  rw [hj]
  exact ite_self _
theorem ringState_wrb_held (b : Bool) (k : Nat) (s : State) : ringState (wrb R.HIF_RING_STATE 3 b s k) k = ringState s k :=
  rdf_wrb_ne (by decide) (by decide) (by decide) ..
/-- A ring's only open descriptor is ended: its completion leaves the module, nothing stays open, and the ring's state stands. -/
theorem abandonJob_only {status reason : Nat} (hjobs : (ringInt s k).jobs = [j]) (hstate : ringState s k ≠ 3) (hbm : s.host.busMaster = true)
    (hpass : s.dose.passes.find? (fun p => p.ring == k && p.index == j.index) = none) (hop : dOpcode j.desc ≠ 0x0A) :
    ringState (abandonJob k j status reason s) k = ringState s k ∧ (ringInt (abandonJob k j status reason s) k).jobs = [] ∧
      Completed k j (status % 256) (reason % 256) (abandonJob k j status reason s) := by
  have hheld : ringState (wrb R.HIF_RING_STATE 3 false s k) k = ringState s k := ringState_wrb_held ..
  rw [abandonJob_noPass status reason hpass hop]
  have hone := complete_one (k := k) (j := j)
    (c := { status := status, reason := reason, result := (j.cpl.map (·.result)).getD 0 }) (s := wrb R.HIF_RING_STATE 3 false s k)
    hjobs (hheld ▸ hstate) hbm
  exact ⟨(congrArg (bits 0 3) (rd_complete (state_aside k) ..)).trans hheld, hone.2, hone.1⟩

end Resume

/-- Settles O16: a RETRY by what the translation gives, SKIP and ABORT by the end of the faulting descriptor. -/
theorem ringResumeCommands : Obligations.RingResumeCommands := by
  refine ⟨fun k w j x s s' hj hopen hpass hx hbm hwalk => congrArg Host.Outcome.next (resumeRetry_bypass hj hopen hpass hx hbm hwalk),
    fun k w j s hj hopen hpass hmode => ⟨congrArg Host.Outcome.next (resumeRetry_active hj hopen hpass hmode),
      ringState_setRingState (by decide) s, congrArg RingInt.jobs (setRingState_ringInt ..)⟩, ?only, ?noPasses⟩
  case only =>
    intro k j s hj hjobs hbm hpasses hop
    have hpass : s.dose.passes.find? (fun p => p.ring == k && p.index == j.index) = none := by
      rw [List.find?_eq_none]
      exact fun p hp => Bool.eq_false_iff.1 (Bool.not_eq_true' _ ▸ List.all_eq_true.1 hpasses p hp)
    have hskip := abandonJob_only (status := stFaultSkipped) (reason := (ringInt s k).faultCause) (s := setRingState k 2 s)
      ((congrArg RingInt.jobs (setRingState_ringInt ..)).trans hjobs) (by rw [ringState_setRingState (by decide)]; decide)
      ((busMaster_setRingState ..).trans hbm) (by rw [setRingState_dose]; exact hpass) hop
    have habort := abandonJob_only (status := stAborted) (reason := 0) (s := abortBegun k s) (k := k) (j := j)
      (by unfold abortBegun; rw [ringInt_modRing, setRingState_ringInt]; exact hjobs)
      (by show ringState (setRingState k 1 s) k ≠ 3; rw [ringState_setRingState (by decide)]; decide)
      ((busMaster_setRingState ..).trans hbm) (by show (setRingState k 1 s).dose.passes.find? _ = none; rw [setRingState_dose]; exact hpass) hop
    exact ⟨⟨_, congrArg Host.Outcome.next (resumeSkip_faulted hj), hskip.1.trans (ringState_setRingState (by decide) s), hskip.2⟩,
      ⟨_, congrArg Host.Outcome.next (resumeAbort_faulted hj), habort.1.trans (ringState_setRingState (by decide) s), habort.2⟩⟩
  case noPasses =>
    intro k j s hj hpasses hop hopen
    have hnone (t : State) (h : t.dose = s.dose) : t.dose.passes.find? (fun p => p.ring == k && p.index == j.index) = none := by
      rw [h, hpasses]
      rfl
    refine ⟨congrArg Host.Outcome.next ((resumeSkip_faulted hj).trans ?_), congrArg Host.Outcome.next ((resumeAbort_faulted hj).trans ?_)⟩
    · rw [abandonJob_noPass _ _ (hnone _ (setRingState_dose ..)) hop, hopen]
      rfl
    · rw [abandonJob_noPass _ _ (hnone (abortBegun k s) (setRingState_dose ..)) hop, hopen]
      rfl

/-! ### The completion of a ring's only open descriptor (R43, R55, R57) -/

/-- The words of a completion entry (R57): status, reason, opcode and phase, the cookie, the time, the result. -/
def completionWords (j : Job) (c : Cpl) (s : State) : Nat :=
  c.status % 256 + 2 ^ 8 * (c.reason % 256) + 2 ^ 16 * dOpcode j.desc + 2 ^ 31 * dPhase j.desc + 2 ^ 32 * dCookie j.desc +
    2 ^ 64 * timeBytes (ttNow s) s.time.ns s + 2 ^ 128 * (c.result % 2 ^ 128)
/-- An entry keeps its first 64 bits in its 256. -/
theorem bits_completionWords {lo len : Nat} (h : lo + len ≤ 64) (j : Job) (c : Cpl) (s : State) :
    bits lo len (BitVec.ofNat 256 (completionWords j c s)).toNat =
      bits lo len (c.status % 256 + 2 ^ 8 * (c.reason % 256) + 2 ^ 16 * dOpcode j.desc + 2 ^ 31 * dPhase j.desc + 2 ^ 32 * dCookie j.desc) := by
  rw [BitVec.toNat_ofNat, bits_mod (by omega), ← bits_mod (w := 64) h]
  congr 1
  have hop : dOpcode j.desc < 2 ^ 8 := Nat.mod_lt _ (by decide)
  have hph : dPhase j.desc < 2 := Nat.mod_lt _ (by decide)
  have hck : dCookie j.desc < 2 ^ 32 := Nat.mod_lt _ (by decide)
  unfold completionWords
  omega
/-- The index after a descriptor's own is ahead of it. -/
theorem sdiff_succ_pos (n : Nat) : Machine.sdiff 32 (n + 1) n > 0 := by
  have e : (n + 1) % 2 ^ 32 + 2 ^ 32 - n % 2 ^ 32 = 1 ∨ (n + 1) % 2 ^ 32 + 2 ^ 32 - n % 2 ^ 32 = 2 ^ 32 + 1 := by omega
  unfold Machine.sdiff
  rcases e with e | e <;> rw [e] <;> decide
/-- The completion of a descriptor that stands at the consumer index, on a ring that runs. -/
theorem writeCompletion_next {k : Nat} {j : Job} {c : Cpl} {s : State} (hbm : s.host.busMaster = true) (hstate : ringState s k ≠ 3)
    (hcons : rd R.HIF_RING_CONS s k = j.index) (hirq : dIrq j.desc = false) :
    writeCompletion k j c s = writeStatus k (wr R.HIF_RING_CONS (j.index + 1)
      (emit (.completion k (rd R.HIF_RING_CPL_BASE s k + 32 * (j.index % 2 ^ ringLog2 s k)) (BitVec.ofNat 256 (completionWords j c s))) s) k) := by
  unfold writeCompletion
  extract_lets n w0 e s1 s2 s3
  have h1 : s1 = emit (.completion k (rd R.HIF_RING_CPL_BASE s k + 32 * (j.index % 2 ^ n)) (BitVec.ofNat 256 e)) s := toHost_on hbm
  have h2 : s2 = wr R.HIF_RING_CONS (j.index + 1) s1 k := by
    refine if_pos ⟨.inl ?_, ?_⟩
    · rw [h1]
      exact hstate
    · rw [h1, emit_rd, hcons]
      exact sdiff_succ_pos _
  rw [if_neg (by rw [hirq]; decide), show s3 = writeStatus k s2 from rfl, h2, h1]
  rfl
/-- The completion that a descriptor just read is to have. -/
def completingJob (k st re : Nat) (d : Desc) (s : State) : Job := { jobOf k d s with cpl := some { status := st, reason := re } }
/-- The descriptor that has been read is ring `k`'s only one, and the ring gives it up to its completion. -/
def givenUp (k st re : Nat) (d : Desc) (s : State) : State :=
  modRing k (fun r => { r with jobs := [] })
    (modJob k (nextIndex k s) (fun j => { j with cpl := some { status := st, reason := re }, xfer := none }) (taken k d s))
/-- The descriptor just read completes in its turn: it is the only one, so its completion is written at once. -/
theorem finish_taken {k st re : Nat} {d : Desc} {s : State} (hjobs : (ringInt s k).jobs = []) (hstate : ringState s k ≠ 3) :
    finish k (nextIndex k s) st re (taken k d s) =
      writeCompletion k (completingJob k st re d s) { status := st, reason := re } (givenUp k st re d s) := by
  have htaken : (ringInt (taken k d s) k).jobs = [jobOf k d s] := by
    unfold taken
    rw [ringInt_modRing, hjobs]
    rfl
  have hmod : (ringInt (modJob k (nextIndex k s) (fun j => { j with cpl := some { status := st, reason := re }, xfer := none }) (taken k d s)) k).jobs =
      [completingJob k st re d s] := by
    unfold modJob
    rw [ringInt_modRing, htaken]
    simp [jobOf, completingJob]
  have hfind : ((findJob k (nextIndex k s) (taken k d s)).bind (·.xfer)).bind (·.chan) = none := by
    unfold findJob
    rw [htaken]
    simp [jobOf]
  unfold finish complete
  rw [hfind]
  dsimp only
  rw [if_neg (by decide : ¬ ((none : Option Nat).isSome = true)), htaken]
  show drainRing k 1 _ = _
  unfold drainRing
  rw [hmod]
  dsimp only
  rw [show (completingJob k st re d s).cpl = some { status := st, reason := re } from rfl]
  exact if_neg fun h => hstate h.1

/-- The descriptor's completion has left the module, and the consumer index stands past it. -/
def completionSent (k st re : Nat) (d : Desc) (s : State) : State :=
  wr R.HIF_RING_CONS (nextIndex k s + 1) (emit (.completion k (rd R.HIF_RING_CPL_BASE s k + 32 * (nextIndex k s % 2 ^ ringLog2 s k))
    (BitVec.ofNat 256 (completionWords (completingJob k st re d s) { status := st, reason := re } (givenUp k st re d s)))) (givenUp k st re d s)) k

/-- Settles O26: the descriptor is the ring's only one and stands at the consumer index, so its entry leaves and the index follows. -/
theorem completionOfANewDescriptor : Obligations.CompletionOfANewDescriptor := by
  intro k st re d s hk hjobs hstate hirq hbm hcons hnext hst hre
  have hrun : ringState s k ≠ 3 := by omega
  have hwritten : finish k (nextIndex k s) st re (taken k d s) = writeStatus k (completionSent k st re d s) := (finish_taken hjobs hrun).trans
    (writeCompletion_next (j := completingJob k st re d s) (s := givenUp k st re d s) hbm hrun hcons hirq)
  have hbase : rd R.HIF_STATUS_BASE (completionSent k st re d s) = rd R.HIF_STATUS_BASE s := rd_wr_row (by decide) ..
  have hnone : (ringInt (givenUp k st re d s) k).jobs = [] := congrArg RingInt.jobs (ringInt_modRing ..)
  have hop : dOpcode d < 2 ^ 8 := Nat.mod_lt _ (by decide)
  have hph : dPhase d < 2 := Nat.mod_lt _ (by decide)
  have hck : dCookie d < 2 ^ 32 := Nat.mod_lt _ (by decide)
  have hdesc : (completingJob k st re d s).desc = d := rfl
  refine ⟨BitVec.ofNat 256 (completionWords (completingJob k st re d s) { status := st, reason := re } (givenUp k st re d s)),
    statusEntry k (completionSent k st re d s), _, hwritten, ?_, ?status, ?reason, ?opcode, ?cookie, (congrArg RingInt.jobs (toHost_ringInt ..)).trans hnone,
    (writeStatus_rd ..).trans (rd_wr (by decide) ..)⟩
  · unfold writeStatus
    rw [toHost_on (show (completionSent k st re d s).host.busMaster = true from hbm), hbase]
    rfl
  all_goals
    rw [bits_completionWords (by decide), hdesc]
    unfold bits
    dsimp only
    omega

end Sys2Proof.Proofs
end

section
/-! The LAYER descriptors (R109 to R115, R283) and the frames of a pass (R113, R208 to R215, R248). -/

namespace Sys2Proof.Proofs
open Sys2Proof Sys2Proof.Machine Sys2Proof.Laws

/-! ### The acceptance of a pass -/

/-- No context that a pass names is at fault: the search of R111 finds none. -/
theorem findSome?_contextFault_none {thermal : Bool} {l : List Nat} {s : State} (h : ∀ c ∈ l, contextFault thermal c s = none) :
    l.findSome? (fun c => (contextFault thermal c s).map (fun f => (c, f))) = none :=
  List.findSome?_eq_none_iff.2 (fun c hc => by rw [h c hc]; rfl)
/-- The checks of R111 pass, and of a MEND_PASS those of R284. -/
theorem acceptChecks_accepts {mend : Bool} {k i : Nat} {d : Desc} {hd : List Byte} {l : OpenLayer} {h : StreamHead} {s s' : State}
    (hlayer : s.dose.layer = some l) (hnumber : dfld d 28 4 = l.number) (hread : readHead d hd s = (.ok h, s'))
    (hcount : (passFor mend k i d l h).count ≠ 0)
    (hfits : (passFor mend k i d l h).first + (passFor mend k i d l h).count ≤ h.lines)
    (hctx : ∀ c ∈ (passFor mend k i d l h).contexts, contextFault l.thermal c s' = none)
    (hmend : mend = true → mendFault (passFor mend k i d l h) s' = none) :
    acceptChecks mend k i d hd s = acceptPass (passFor mend k i d l h) s' := by
  have hlines : ¬((passFor mend k i d l h).count = 0 ∨ h.lines < (passFor mend k i d l h).first + (passFor mend k i d l h).count) :=
    fun bad => bad.elim hcount (Nat.not_lt.2 hfits)
  have hrange : (if mend then mendFault (passFor mend k i d l h) s' else none) = none := by
    cases mend
    · rfl
    · exact hmend rfl
  unfold acceptChecks
  rw [hlayer]
  dsimp only
  rw [if_neg (not_not.2 hnumber), hread]
  dsimp only
  rw [if_neg hlines, findSome?_contextFault_none hctx, hrange]

/-- Settles O23: each descriptor passes the common checks, and its own rule then takes the branch that its conditions name. -/
theorem layerOpcodes : Obligations.LayerOpcodes := by
  unfold Obligations.LayerOpcodes
  refine ⟨fun k d s h hopen hthermal hctx => congrArg Host.Outcome.next ?_,
    fun k d hd l h s s' ho hl hn hread hcount hfits hctx => congrArg Host.Outcome.next ?_,
    fun k d hd l h s s' ho hl hn hread hcount hfits hctx hmend => congrArg Host.Outcome.next ?_,
    fun k d l s h hl hn => congrArg Host.Outcome.next ?_⟩
  · have hno : ¬(taken k d s).dose.layer.isSome = true := by simp [taken, hopen]
    have hon : ¬(bit 0 (dfld d 12 1) && !rdb R.THE_CTRL 0 (taken k d s)) = true := by
      have hsame : rdb R.THE_CTRL 0 (taken k d s) = rdb R.THE_CTRL 0 s := rfl
      rw [hsame]
      cases hb : bit 0 (dfld d 12 1)
      · simp
      · simp [hthermal hb]
    unfold doLayerBegin
    rw [readDesc_offers h (by decide)]
    dsimp only
    rw [if_neg hno, if_neg hon, hctx]
  · exact (readDesc_offers ho (by decide)).trans (acceptChecks_accepts hl hn hread hcount hfits hctx (by simp))
  · exact (readDesc_offers ho (by decide)).trans (acceptChecks_accepts hl hn hread hcount hfits hctx (fun _ => hmend))
  · have hl' : (taken k d s).dose.layer = some l := hl
    unfold doLayerEnd
    rw [readDesc_offers h (by decide), hl']
    dsimp only
    rw [if_neg (not_not.2 hn)]

/-! ### A lone frame is sent -/

/-- A list is kept by a walk over the numbers that gives it at one of them alone. -/
theorem flatMap_range_at {α : Type} (l : List α) {a n : Nat} (h : a < n) :
    (List.range n).flatMap (fun i => if i = a then l else []) = l := by
  induction n with
  | zero => omega
  | succ n ih =>
    rw [List.range_succ, List.flatMap_append]
    by_cases e : a < n
    · simp [ih e, Nat.ne_of_gt e]
    · have hn : a = n := by omega
      have hnone : (List.range n).flatMap (fun i => if i = n then l else []) = [] :=
        List.flatMap_eq_nil_iff.2 (fun i hi => if_neg (Nat.ne_of_lt (List.mem_range.1 hi)))
      simp [hn, hnone]
theorem bySlot_singleton {f : Frame} (h : f.slot < 32) : bySlot [f] = [f] := by
  have hone : ∀ i, [f].filter (fun x => x.slot == i) = if i = f.slot then [f] else [] := by
    intro i
    by_cases e : i = f.slot
    · simp [e]
    · simp [e, Ne.symm e]
  unfold bySlot
  simp only [hone]
  exact flatMap_range_at [f] h
/-- After a frame's record has left, its blocks follow on the port's lanes, and nothing else changes. -/
theorem sendBlocks_sends (p : Pass) (f : Frame) (replace : Bool) (tick seq crc : Nat) (codes pre : List Nat) (s : State) :
    SendsOnly (emit (.rowFrame f.port f.row p.number f.line tick seq replace codes) s) (sendBlocks p f replace tick seq crc codes pre s) :=
  ((sendStream_sends ..).trans (each_sends _ (fun _ _ => sendStream_sends ..) _ _)).trans (sendBlock_sends ..)
theorem rowFrame_sendRowFrame (p : Pass) (f : Frame) (tick : Nat) (s : State) :
    Out.rowFrame f.port f.row p.number f.line tick (portOf s f.port).frameSeq false f.codes ∈ (sendRowFrame p f tick false s).out :=
  (sendBlocks_sends ..).stays List.mem_cons_self
theorem frameSeq_sendBlocks (p : Pass) (f : Frame) (replace : Bool) (tick seq crc : Nat) (codes pre : List Nat) (s : State) (q : Nat) :
    (portOf (sendBlocks p f replace tick seq crc codes pre s) q).frameSeq = (portOf s q).frameSeq := by
  rw [(sendBlocks_sends p f replace tick seq crc codes pre s).port q]
  rfl
theorem frameSeq_sendRowFrame (p : Pass) (f : Frame) (tick : Nat) (s : State) :
    (portOf (sendRowFrame p f tick false s) f.port).frameSeq = ((portOf s f.port).frameSeq + 1) % 2 ^ 32 := by
  have hbump := congrArg Port.frameSeq (portOf_bumpLnk R.LNK_FRAMES_SENT f.port
    (modPort f.port (fun x => { x with frameSeq := ((portOf s f.port).frameSeq + 1) % 2 ^ 32 }) s) f.port)
  refine (frameSeq_sendBlocks ..).trans (hbump.trans ?_)
  rw [portOf_modPort]
theorem endLate_none {p : Pass} {port : Nat} (h : p.late = []) (s : State) : endLate p port s = s := by
  have hno : tget? p.late port = none := by rw [h]; rfl
  unfold endLate
  rw [hno]
/-- The send of a port's next line event where it has one frame, in time (R213). -/
theorem doFrameSend_lone {port tick : Nat} {strips : List (Nat × Nat)} {p : Pass} {f : Frame} {s : State}
    (hp : curPass s = some p) (hfs : p.frames = [f]) (hport : f.port = port) (hsent : f.sent = none) (hslot : f.slot < 32)
    (hlate : p.late = []) (hheld : sendHeld s = false) (hexp : exposing p s = true)
    (hmark : beyond p (rdI R.PLC_MARK s) (sendThreshold p [f] s) = true) (hlnk : lnkState port s = 10)
    (hanchor : port ∈ s.dose.plc.anchors) (htick : tick = tickAt port (predictTime p.dir f.fire s) s)
    (hlead : 4096 ≤ sdiff 32 tick (tickOf port s)) (hlines : sdiff 32 tick (tickOf port s) ≤ (twentyLines p f s : Int))
    (hfar : sdiff 32 tick (tickOf port s) ≤ 2 ^ 28) :
    doFrameSend port 0 strips s = modPassOf p.index (fun q => { q with frames := q.frames.filter (fun _ => true) })
      (sendRowFrame p f tick false s) := by
  have hnext : nextSend p port = some f.event := by simp [nextSend, hfs, hport, hsent]
  have hset : p.frames.filter (fun x => x.port == port && x.event == f.event && x.sent.isNone) = [f] := by simp [hfs, hport, hsent]
  have hgo : ¬(sendHeld s || !exposing p s || !beyond p (rdI R.PLC_MARK s) (sendThreshold p [f] s)) = true := by simp [hheld, hexp, hmark]
  have hnotIdle : ¬lnkState port s = 11 := by omega
  have hup : ¬(lnkState port s ≠ 10 ∨ (!s.dose.plc.anchors.contains port) = true) := by simp [hlnk, hanchor]
  have hsoon : ¬(decide (sdiff 32 tick (tickOf port s) > (twentyLines p f s : Int)) ||
      decide (sdiff 32 tick (tickOf port s) > 2 ^ 28)) = true := by
    simp only [Bool.or_eq_true, decide_eq_true_eq]
    omega
  have hgood : decide (sdiff 32 tick (tickOf port s) ≥ 4096) = true := by simpa using hlead
  have hbad : decide (sdiff 32 tick (tickOf port s) < 4096) = false := by simpa using hlead
  unfold doFrameSend
  rw [hp]
  dsimp only
  rw [hnext]
  dsimp only
  rw [hset, bySlot_singleton hslot, if_neg hgo, if_neg hnotIdle, if_neg hup]
  simp only [List.map_cons, List.map_nil, ← htick, List.any_cons, List.any_nil, Bool.or_false, if_neg hsoon, List.filter_cons,
    List.filter_nil, hgood, hbad, if_true, Bool.false_eq_true, if_false, endLate_none hlate]
  rfl

/-- Settles O44: each command takes the branch that its conditions name; the lone frame leaves first, and the blocks that carry it keep
what has left and the port's next number. -/
theorem framesOfAPass : Obligations.FramesOfAPass := by
  unfold Obligations.FramesOfAPass
  refine ⟨fun damaged s h => congrArg Host.Outcome.next ?_, fun p s hp hm hr hx => congrArg Host.Outcome.next ?_,
    fun faults strips p m s hp hm => ⟨fun hready hcut => congrArg Host.Outcome.next ?_, fun hready hcut hexp hint => ⟨_, congrArg Host.Outcome.next ?_, rfl⟩⟩,
    fun port found strips s h => congrArg Host.Outcome.next ?_, ?_,
    fun port event strips p s hp hover habandoned hprof hbuilt =>
      ⟨(rowsAt (geom s) p event).filter (fun rn => (rowAt (geom s) rn.1).port == port && !p.dropped.contains rn),
        congrArg Host.Outcome.next ?_, fun rn => ?_⟩⟩
  · unfold doSwathExecutionStart
    rw [h]
  · have hrun : modeOf s = 4 ∧ s.ctl.request.isNone = true ∧ (external s = true ∨ plcState s = pTurn) := ⟨hm, by rw [hr]; rfl, hx⟩
    unfold doSwathExecutionStart
    rw [hp]
    dsimp only
    rw [if_pos hrun]
    cases p.mend <;> rfl
  · unfold doFrameBuild
    rw [hp]
    dsimp only
    rw [hm]
    dsimp only
    rw [if_pos (by simp [hready, hcut])]
  · unfold doFrameBuild
    rw [hp]
    dsimp only
    rw [hm]
    dsimp only
    rw [if_neg (by simp [hready, hcut, hexp]), if_neg (by simp [hint])]
  · unfold doFrameSend
    split
    · rfl
    · split
      · rfl
      · rw [if_pos (by simp [h])]
  · intro port m tick strips p f s hp hfs hport _ hsent hslot hlate hheld hexp hmark hlnk hanchor htick hlead hlines hfar
    refine ⟨_, congrArg Host.Outcome.next (doFrameSend_lone hp hfs hport hsent hslot hlate hheld hexp hmark hlnk hanchor htick hlead hlines hfar),
      ?_, ?_⟩
    · subst hport
      exact rowFrame_sendRowFrame p f tick s
    · subst hport
      exact frameSeq_sendRowFrame p f tick s
  · unfold doFrameLate
    rw [hp]
    dsimp only
    rw [if_neg (by simp [hover, habandoned, hprof]), if_neg (by simpa using hbuilt)]
  · simp [List.mem_filter]

end Sys2Proof.Proofs
end

section
/-! The turnaround, the run-up and EXPOSE (R200, R218, R219), the position samples (R196, R197, R304, R311), and the anchor (R210,
R212). -/

namespace Sys2Proof.Proofs
open Sys2Proof Sys2Proof.Machine Sys2Proof.Laws

/-! ### Placement's state -/

theorem plcState_of_rd {s t : State} (e : rd R.PLC_STATUS t = rd R.PLC_STATUS s) : plcState t = plcState s := congrArg (bits 0 3) e
theorem plcState_setPlc {st : Nat} (h : st < 8) (s : State) : plcState (setPlc st s) = st := rdf_wrf_fits (by decide) (by decide) h s 0
/-- With no step of E that waits, the end of a pass applies none (R417). -/
theorem applyPendingSteps_none {s : State} (hhost : s.time.pendHost = []) (hservo : s.time.pendServo = none) :
    applyPendingSteps s = markPending { s with time := { s.time with pendHost := [] } } := by
  unfold applyPendingSteps
  simp only [hhost, hservo]
  rfl
/-- With no pass to come, no turnaround is prepared (R218). -/
theorem turnNext_none {s : State} (h : s.dose.passes = []) : turnNext s = s := by
  have hnone : nextPass s = none := by simp [nextPass, h]
  unfold turnNext
  rw [hnone]
theorem doTurnEntry_enters {s : State} (hst : plcState s = pIdle ∨ plcState s = pRunout) (hlayer : s.dose.layer ≠ none)
    (hmode : modeOf s = 4) (hrest : atRest 0 s = true) (hint : external s = false) :
    doTurnEntry s = turnNext (modPlc (fun c => { c with turnOf := none }) (applyPendingSteps (setPlc pTurn s))) :=
  if_pos ⟨hst, Option.isSome_iff_ne_none.2 hlayer, hmode, hrest, by simp [hint]⟩

/-! ### The run-up -/

theorem atRest_startProf (a : Nat) (segs : Int → List Seg) (st : Nat) (s : State) (goal : Option Int) :
    atRest a (startProf a segs st s goal) = false := by
  unfold atRest startProf
  rw [axisOf_setAxisState, axisOf_modAxis]
  rfl
theorem status_startProf (a : Nat) (segs : Int → List Seg) (st : Nat) (s : State) (goal : Option Int) :
    rd R.PLC_STATUS (startProf a segs st s goal) = rd R.PLC_STATUS s :=
  rd_keeps (m := 1099511629824) (startProf_keeps rfl (Keeps.refl _ s)) rfl
theorem status_startFastExit (p : Nat) (s : State) : rd R.PLC_STATUS (startFastExit p s) = rd R.PLC_STATUS s :=
  rd_keeps (m := 18014398509486080) (startFastExit_keeps rfl (Keeps.refl _ s)) rfl
/-- What a run-up does after PLC_STATUS shows it touches no field of that register (R218 step 5). -/
theorem status_startRunup (p : Pass) (s : State) :
    ∃ u, rd R.PLC_STATUS (startRunup p s) = rd R.PLC_STATUS (wrb R.PLC_STATUS 4 false (setPlc pRunup u)) := by
  refine ⟨countInvalid { endGap s with dose := { (endGap s).dose with layerGap := false } }, ?_⟩
  unfold startRunup
  dsimp only
  refine (status_startProf ..).trans ?_
  refine (rd_each status_startFastExit _ _).trans ?_
  exact (rd_wr_row (by decide) _ _ _ _).trans (rd_wr_row (q := R.PLC_STATUS) (r := R.PLC_MARK) (by decide) _ _ _ _)
theorem startRunup_runs (p : Pass) (s : State) :
    plcState (startRunup p s) = pRunup ∧ rdb R.PLC_STATUS 4 (startRunup p s) = false ∧ atRest 0 (startRunup p s) = false := by
  obtain ⟨u, hu⟩ := status_startRunup p s
  refine ⟨?_, ?_, ?_⟩
  · calc plcState (startRunup p s) = plcState (wrb R.PLC_STATUS 4 false (setPlc pRunup u)) := plcState_of_rd hu
      _ = plcState (setPlc pRunup u) := rdf_wrb_ne (by decide) (by decide) (by decide) ..
      _ = pRunup := plcState_setPlc (by decide) u
  · exact (congrArg (bit 4) hu).trans (rdb_wrb (by decide) (by decide) ..)
  · unfold startRunup
    exact atRest_startProf ..

/-! ### Position samples -/

/-- A count edge without the Z level (R196): one count of 256 units, in the direction that the axis's configuration gives. -/
theorem doPositionSample_count {a : Nat} {up : Bool} {s : State} (ha : a < 6) (hsrc : axisSource a s = 0) (hok : rdb R.MOT_FAULT 1 s a = false) :
    doPositionSample a up false s = followCheck a (newPosition a (measPos a s) true
      (setMeas a (measPos a s + if up != rdb R.MOT_CFG 3 s a then 256 else -256) s)) := by
  have hgo : ¬(a ≥ 6 ∨ axisSource a s ≠ 0 ∨ rdb R.MOT_FAULT 1 s a = true) := by simp [ha, hsrc, hok]
  unfold doPositionSample
  rw [if_neg hgo]
  simp only [Bool.false_and, Bool.false_eq_true, if_false]
  split <;> rfl

/-! ### The anchor -/

theorem rd_anchor_tt (stepped : Bool) (s : State) : rd R.PLC_ANCHOR_TT (latchAnchor stepped s) = ttNow s % 2 ^ 64 := by
  unfold latchAnchor
  refine (rd_each (fun p u => rd_wr_row (q := R.PLC_ANCHOR_TT) (r := R.PLC_ANCHOR_TICK) (by decide) _ u _ _) _ _).trans ?_
  exact (rd_wr_row (by decide) _ _ _ _).trans (rd_wr (by decide) ..)
theorem rd_anchor_tick (stepped : Bool) {p : Nat} (hp : p < 4) (s : State) : rd R.PLC_ANCHOR_TICK (latchAnchor stepped s) p = tickOf p s := by
  unfold latchAnchor
  refine (rd_each_wr (r := R.PLC_ANCHOR_TICK) (by decide) (by decide) (n := 4) (by decide) (fun q => tickOf q s) hp _).trans ?_
  exact Nat.mod_eq_of_lt (Nat.mod_lt _ (by decide))
theorem mem_anchors (stepped : Bool) (p : Nat) (s : State) : p ∈ (latchAnchor stepped s).dose.plc.anchors ↔ p < 4 ∧ lnkUp p s = true := by
  unfold latchAnchor
  exact List.mem_filter.trans (and_congr_left' List.mem_range)
theorem passes_latchAnchor (stepped : Bool) (s : State) : (latchAnchor stepped s).dose.passes = s.dose.passes := rfl

/-- Settles O45: each command takes the branch that its conditions name; PLC_STATUS then stands through the rest of a run-up, and the
four writes of the anchor's ticks each go to a register of their own. -/
theorem turnAndRunup : Obligations.TurnAndRunup := by
  unfold Obligations.TurnAndRunup
  refine ⟨fun s hst hl hm hr hx => congrArg Host.Outcome.next (doTurnEntry_enters hst hl hm hr hx), fun s hst hl hm hr hx hp hh hsv => ?_,
    fun s h => ⟨_, congrArg Host.Outcome.next (if_pos h), rfl, rfl, rfl⟩, fun s h => ⟨_, congrArg Host.Outcome.next (if_pos h), rfl, rfl, rfl⟩,
    fun p s h hp hr htol => ⟨modPlc (fun c => { c with settled := true }) s, congrArg Host.Outcome.next ?_, rfl, rfl, rfl⟩,
    fun p s hp hmay => ⟨fun hroom => ⟨_, congrArg Host.Outcome.next ?_, startRunup_runs p (withdrawHead s)⟩,
      fun w hw hroom => congrArg Host.Outcome.next ?_⟩,
    fun q s hq h hd hh => ⟨setPlc pExpose s, congrArg Host.Outcome.next ?_, plcState_setPlc (by decide) s, rfl, rfl⟩,
    fun a up s ha hsrc hok => ⟨_, congrArg Host.Outcome.next (doPositionSample_count ha hsrc hok), fun e => ?_, fun e => ?_⟩,
    fun dir bad s => rfl, fun dir bad s h => congrArg Host.Outcome.next (each_id (fun a ha => if_pos (h a ?_))),
    fun s => ⟨_, rfl, rd_anchor_tt false s, fun p hp => rd_anchor_tick false hp s, fun p => mem_anchors false p s, passes_latchAnchor false s⟩⟩
  · have hturn : doTurnEntry s = modPlc (fun c => { c with turnOf := none })
        (markPending { setPlc pTurn s with time := { s.time with pendHost := [] } }) := by
      rw [doTurnEntry_enters hst hl hm hr hx, applyPendingSteps_none (s := setPlc pTurn s) hh hsv]
      exact turnNext_none hp
    refine ⟨_, congrArg Host.Outcome.next hturn, ?_, rfl, rfl, rfl⟩
    exact (plcState_of_rd (rd_markPending (by decide) _ _)).trans (plcState_setPlc (by decide) s)
  · unfold doAx1Settle
    rw [hp]
    exact if_pos ⟨h, hr, htol⟩
  · unfold doRunupStart
    rw [hp]
    dsimp only
    rw [if_neg (by simp [hmay]), if_pos hroom]
  · subst hw
    unfold doRunupStart
    rw [hp]
    dsimp only
    rw [if_neg (by simp [hmay]), if_neg (by simp [hroom])]
  · unfold doExposeEntry
    rw [hq]
    exact if_pos ⟨h, hd, by simp [hh]⟩
  · simp [e]
  · simp [e]
  · simp only [List.mem_cons, List.not_mem_nil, or_false] at ha
    omega

end Sys2Proof.Proofs
end

section
/-! The intake's groups and the dose window (R99, R119, R127), the layer boundary and the thermal maps (R115, R138, R139, R156, R159),
and the window of the beam table (R172, R194). -/

namespace Sys2Proof.Proofs
open Sys2Proof Sys2Proof.Machine Sys2Proof.Laws

/-! ### Changes of passes -/

theorem mem_modPassOf {i : Nat} {f : Pass → Pass} {s : State} {q : Pass} (h : q ∈ (modPassOf i f s).dose.passes) :
    ∃ p ∈ s.dose.passes, q = if p.index = i then f p else p := by
  obtain ⟨p, hp, e⟩ := List.mem_map.1 h
  exact ⟨p, hp, e.symm⟩
/-- A pass in execution after a change of it is a changed one, where the change leaves it in execution. -/
theorem mem_modPass_executing {f : Pass → Pass} {s : State} {q : Pass} (h : q ∈ (modPass f s).dose.passes)
    (he : q.executing = true) : ∃ p, q = f p := by
  obtain ⟨p, _, e⟩ := List.mem_map.1 h
  by_cases hp : p.executing = true
  · rw [if_pos hp] at e
    exact ⟨p, e.symm⟩
  · rw [if_neg hp] at e
    exact absurd (e ▸ he) hp
/-- The lead that DPI_LEAD shows marks the pass that it speaks of, and nothing else of any pass (R120). -/
theorem mem_updateLead {s : State} {q : Pass} (h : q ∈ (updateLead s).dose.passes) :
    ∃ p ∈ s.dose.passes, ∃ b, q = { p with leadLow := b } := by
  unfold updateLead at h
  split at h
  · exact ⟨q, h, q.leadLow, rfl⟩
  · rename_i p _
    obtain ⟨x, hx, e⟩ := mem_modPassOf h
    have hx : x ∈ s.dose.passes := by
      revert hx
      split
      · exact (congrArg (x ∈ ·.passes) (postEvent_dose ..)).mp
      · exact id
    subst e
    by_cases hi : x.index = p.index
    · exact ⟨x, hx, _, if_pos hi⟩
    · exact ⟨x, hx, x.leadLow, if_neg hi⟩

/-! ### A group is decoded -/

theorem mem_keeps {m : Nat} {s t : State} (k : Keeps m s t) (hd : off m 7) (hs : off m 8) (hr : off m 9) : t.mem = s.mem := by
  rw [k.same_mem hr, k.same_dram hd, k.same_sram hs]

/-- The group is released with its tiles, and leaves the staging area. -/
def groupOver (p : Pass) (g : Nat) (tiles : List (List Byte)) (s : State) : State :=
  modPassOf p.index (fun q => { q with staged := q.staged.filter (fun x => x.group != g) })
    (modPassOf p.index (fun q => { q with released := tset q.released g tiles }) s)

theorem mem_groupOver {p : Pass} {g : Nat} {tiles : List (List Byte)} {s : State} {q : Pass} (h : q ∈ (groupOver p g tiles s).dose.passes)
    (hi : q.index = p.index) : tget? q.released g = some tiles ∧ ∀ x ∈ q.staged, x.group ≠ g := by
  obtain ⟨a, ha, rfl⟩ := mem_modPassOf h
  obtain ⟨b, _, rfl⟩ := mem_modPassOf ha
  by_cases hb : b.index = p.index
  · simp [hb, tget?_tset]
  · simp [hb] at hi
theorem doGroupDecode_ends {p : Pass} {g : Nat} {r : GroupEnd} {s s' : State} (hnext : intakeNext s = some (p, g)) (hres : resident p g = true)
    (hserves : dramServes s = true) (hdec : decodeNext p g s = (r, s')) :
    doGroupDecode s = updateLead (intakeFetch (modPassOf p.index (fun q => { q with staged := q.staged.filter (fun x => x.group != g) })
      (endGroup p g r s'))) := by
  unfold doGroupDecode
  rw [hnext]
  dsimp only
  rw [if_neg (by simp [hres, hserves]), hdec]
theorem endGroup_ok (p : Pass) (g : Nat) (tiles : List (List Byte)) (s : State) :
    endGroup p g (.ok tiles) s = modPassOf p.index (fun q => { q with released := tset q.released g tiles }) s := rfl
theorem endGroup_crc (p : Pass) (g v : Nat) (s : State) :
    endGroup p g (.crc none v) s = failGroup p g (facetCrc p.cookie p.layer g 0xFFFF 1 p.dir v s) := rfl
/-- The intake's next fetch and the lead leave what a pass holds of its groups, and the memories. -/
theorem groupOver_stays (p : Pass) (g : Nat) (tiles : List (List Byte)) (s : State) :
    (∀ q ∈ (updateLead (intakeFetch (groupOver p g tiles s))).dose.passes, q.index = p.index →
      tget? q.released g = some tiles ∧ ∀ x ∈ q.staged, x.group ≠ g) ∧
    (updateLead (intakeFetch (groupOver p g tiles s))).mem = s.mem := by
  have kfetch : Keeps 16 (groupOver p g tiles s) (intakeFetch (groupOver p g tiles s)) := intakeFetch_keeps rfl (Keeps.refl _ _)
  refine ⟨fun q hq hi => ?_, ?_⟩
  · obtain ⟨a, ha, b, rfl⟩ := mem_updateLead hq
    rw [kfetch.same_dose rfl] at ha
    exact mem_groupOver (q := a) ha hi
  · have klead : Keeps 281500746518580 _ (updateLead (intakeFetch (groupOver p g tiles s))) := updateLead_keeps rfl (Keeps.refl _ _)
    have hlead : (updateLead (intakeFetch (groupOver p g tiles s))).mem = (intakeFetch (groupOver p g tiles s)).mem := mem_keeps klead rfl rfl rfl
    have hfetch : (intakeFetch (groupOver p g tiles s)).mem = (groupOver p g tiles s).mem := mem_keeps kfetch rfl rfl rfl
    exact hlead.trans hfetch

/-! ### A line enters the dose window -/

/-- Line `n` of pass `p` enters the window with its intent doses (R127, R166). -/
def lineEntered (p : Pass) (n : Nat) (s : State) : State :=
  modPass (fun q => { q with entered := n :: q.entered, window := tset q.window n ((List.range (geom s).columns).map (fun c =>
    intentDose (contextBytes s (contextAt p n)) (pixelOf (tget [] p.released (n / 32)) (n % 32) c) (scaleAt p n))) }) s

theorem enterLine_uncorrected {p : Pass} {n : Nat} {s : State} (h : thermalOn s = false) : enterLine p n none [] s = lineEntered p n s := by
  unfold enterLine
  dsimp only
  rw [if_pos (by simp [h])]
  rfl
/-- With no missed line in its run, the pass in execution has none to end (R123). -/
theorem closeMissRun_none {s : State} (h : ∀ q, curPass s = some q → q.runCount = 0) : closeMissRun s = s := by
  unfold closeMissRun
  split
  · rfl
  · rename_i q hq
    exact if_neg (fun bad => bad.1 (h q hq))
/-- The pass in execution, after a change of it that leaves it so. -/
theorem curPass_modPass {f : Pass → Pass} {p : Pass} {s : State} (h : curPass s = some p) (hf : ∀ q, q.executing = true → (f q).executing = true) :
    curPass (modPass f s) = some (f p) := by
  have hsame : (fun q : Pass => q.executing) ∘ (fun q => if q.executing then f q else q) = fun q => q.executing := by
    funext q
    by_cases e : q.executing = true
    · simp [e, hf q e]
    · simp [e]
  have hp : p.executing = true := List.find?_some (p := fun q : Pass => q.executing) h
  calc curPass (modPass f s) = (curPass s).map (fun q => if q.executing then f q else q) := by
        unfold curPass modPass
        rw [List.find?_map, hsame]
    _ = some (f p) := by rw [h, Option.map_some, if_pos hp]
/-- A line that may enter with thermal correction off enters, and its pixels without a beamlet are counted (R127, R179). -/
theorem doLineWindowEntry_enters {n : Nat} {p : Pass} {s : State} (hp : curPass s = some p) (hoff : thermalOn s = false)
    (hin : inPass p n = true) (hrel : released p n = true) (hmay : mayEnter (geom s) p n = true) (hcut : p.cut = none)
    (hab : p.abandoned = false) (hmode : modeOf s = 4) (hmissed : n ∉ p.missed) (hres : n ∉ p.residueLines) (hdone : n ∉ p.doneLines)
    (hnew : n ∉ p.entered) (hrun : p.runCount = 0) : ∃ q, doLineWindowEntry n none [] s = countDead q n (lineEntered p n s) := by
  have hgo : (inPass p n && released p n && mayEnter (geom s) p n && p.cut.isNone && !p.abandoned && modeOf s == 4 &&
      !(p.missed.contains n || p.entered.contains n || p.doneLines.contains n)) = true := by
    simp [hin, hrel, hmay, hcut, hab, hmode, hmissed, hnew, hdone]
  obtain ⟨q, hq, hcount, hkept⟩ : ∃ q, curPass (lineEntered p n s) = some q ∧ q.runCount = 0 ∧ q.residueLines = p.residueLines :=
    ⟨_, curPass_modPass hp (fun _ e => e), hrun, rfl⟩
  have hclosed : closeMissRun (lineEntered p n s) = lineEntered p n s := closeMissRun_none (fun x hx => by
    rw [hq] at hx
    exact Option.some.inj hx ▸ hcount)
  refine ⟨q, ?_⟩
  unfold doLineWindowEntry
  rw [hp]
  dsimp only
  rw [if_pos hgo, enterLine_uncorrected hoff, hclosed, hq]
  exact if_neg (by simp [hkept, hres])

/-! ### The layer boundary -/

/-- The boundary begins: what expires is noted, and the open entries expire (R115, R281). -/
def boundaryBegun (s : State) : State :=
  expireEntries { s with dose := { s.dose with expired := openEntries s } }
theorem doLayerBoundary_begins {usage : UsageIn} {k i : Nat} {s : State} (hb : s.dose.boundary = some (k, i)) (hfill : s.dose.boundaryFill = false)
    (hp : s.dose.passes = []) (hf : s.dose.the.filling = none) (hswap : rdb R.BSC_STATUS 3 s = false) :
    doLayerBoundary usage s = if rdb R.THE_CTRL 0 (boundaryBegun s) then
      { rotateMaps (boundaryBegun s) with dose := { (rotateMaps (boundaryBegun s)).dose with boundaryFill := true } }
      else finishBoundary usage (boundaryBegun s) := by
  unfold doLayerBoundary
  rw [if_neg (by simp [hb, hp, hf, hswap]), if_neg (by simp [hfill])]
  rfl
theorem the_on_boundaryBegun (s : State) : rdb R.THE_CTRL 0 (boundaryBegun s) = rdb R.THE_CTRL 0 s :=
  rdb_keeps (m := 9007225024548916) (expireEntries_keeps rfl (Keeps.refl _ _)) rfl 0
/-- Once its steps have run, the layer is closed and its LAYER_END has completed, after EV_LAYER_DONE (R115). -/
theorem finishBoundary_closes {usage : UsageIn} {k i : Nat} {l : OpenLayer} {s : State} (hb : s.dose.boundary = some (k, i)) (hl : s.dose.layer = some l) :
    ∃ u, finishBoundary usage s = applyPendingSteps (showStates { u with dose := { u.dose with
      layer := none, boundary := none, boundaryFill := false, layerGap := true, expired := 0 } }) ∧ EventShows 50 u := by
  unfold finishBoundary
  rw [hb, hl]
  exact ⟨_, rfl, shows_complete _ _ _ (posted _ _ _ _ _)⟩
theorem boundaryBegun_empty {s : State} (h : s.dose.mnd.log = []) :
    boundaryBegun s = { s with dose := { s.dose with expired := openEntries s } } := by
  unfold boundaryBegun expireEntries
  simp [h, each]

/-! ### The fill and the enable of the maps -/

theorem dose_showStates (s : State) : (showStates s).dose = s.dose := by
  unfold showStates
  dsimp only
  split <;> rfl
theorem dose_writeDram (a : Nat) (bs : List Byte) (s : State) : (writeDram a bs s).dose = s.dose :=
  (writeDram_keeps rfl (Keeps.refl 17592186045056 s)).same_dose rfl
/-- The current slot holds state 0 in every cell, stamped with the start of its fill (R138). -/
def slotZeroed (start : Nat) (s : State) : State :=
  writeDram (stampAddr (theGeom s) (curSlot s) 0 0) ((List.replicate ((theGeom s).u * (theGeom s).v / 64) (leBytes 4 (start / 2 ^ 20 % 2 ^ 32))).flatten)
    (writeDram ((theGeom s).base + curSlot s * slotBytes (theGeom s)) (List.replicate (2 * (theGeom s).u * (theGeom s).v) 0) s)
theorem dose_slotZeroed (start : Nat) (s : State) : (slotZeroed start s).dose = s.dose := (dose_writeDram ..).trans (dose_writeDram ..)
theorem fillSlot_of_filling {start : Nat} {s : State} (hf : s.dose.the.filling = some start) :
    fillSlot s = showStates (modThe (fun t => { t with filling := none })
      (wr R.THE_INIT_TIME (((slotZeroed start s).time.ns - start) / 1000) (slotZeroed start s))) := by
  unfold fillSlot
  split
  · rename_i h
    exact absurd (h.symm.trans hf) (by simp)
  · rename_i x h
    obtain rfl : x = start := Option.some.inj (h.symm.trans hf)
    rfl
theorem dose_fillSlot {start : Nat} {s : State} (hf : s.dose.the.filling = some start) :
    (fillSlot s).dose = { s.dose with the := { s.dose.the with filling := none } } := by
  rw [fillSlot_of_filling hf, dose_showStates, ← dose_slotZeroed start s]
  rfl
theorem doMapSlotFillDone_fills {usage : UsageIn} {start : Nat} {s : State} (hf : s.dose.the.filling = some start) (hs : s.dose.the.stopped = false)
    (hb : s.dose.boundaryFill = false) : doMapSlotFillDone usage s = fillSlot s := by
  have hdone : (fillSlot s).dose.boundaryFill = false := by rw [dose_fillSlot hf, hb]
  unfold doMapSlotFillDone
  rw [hf]
  dsimp only
  rw [if_neg (by simp [hs]), if_pos (by simp [hdone])]
/-- A value written to THE_CTRL, with the fields that R159 leaves of it. -/
def theCtrlValue (v : Nat) : Nat := setBits 4 4 (min 8 (bits 4 4 v)) (v &&& 0x1F1)
theorem bit_theCtrlValue {v : Nat} (h : bit 0 v = true) : bit 0 (theCtrlValue v) = true := by
  have hv : v % 2 ^ 1 = 1 := by simpa [bit] using h
  have hand : (v &&& 0x1F1) % 2 ^ 1 = 1 := by
    rw [Nat.and_mod_two_pow, hv]
    decide
  have hlow : bits 0 1 (theCtrlValue v) = 1 := (bits_setBits_low (by decide)).trans (by rw [bits, pow_zero, Nat.div_one, hand])
  rw [bit_eq_bits, hlow]
  rfl
theorem bit_setBit_false (n v : Nat) : bit n (setBit n false v) = false := by
  unfold setBit
  rw [bit_eq_bits, bits_setBits_same]
  rfl
theorem bit_rd_wr {r : RegInfo} {n : Nat} (h : r.bytes ≤ 8) (k : n + 1 ≤ 8 * r.bytes) (v : Nat) (s : State) (i : Nat) :
    rdb r n (wr r v s i) i = bit n v := by
  unfold rdb
  rw [rd_wr h, bit_eq_bits, bits_mod k, ← bit_eq_bits]
/-- THE takes its geometry from the registers, with no map behind the current one (R138, R159). -/
def geometryTaken (v : Nat) (s : State) : State :=
  let t := wr R.THE_CTRL v s
  wrf R.THE_STATUS 8 8 0 (wrf R.THE_STATUS 2 4 0 (modThe (fun x => { x with
    geom := { base := rd R.THE_MAP_BASE t, u := rd R.THE_MAP_U t, v := rd R.THE_MAP_V t, originScan := rdI R.THE_ORIGIN_SCAN t,
              originStep := rdI R.THE_ORIGIN_STEP t, stepPitch := rd R.THE_STEP_PITCH t } }) t))
theorem enable_startFill (s : State) : rdb R.THE_CTRL 0 (startFill s) = rdb R.THE_CTRL 0 s := by
  unfold startFill showStates
  dsimp only
  refine (rdb_wr_row (by decide) _ _ _ _ _).trans ?_
  split
  · exact rdb_wr_row (by decide) _ _ _ _ _
  · rfl
theorem enable_geometryTaken (v : Nat) (s : State) : rdb R.THE_CTRL 0 (geometryTaken v s) = bit 0 v :=
  (rdb_wr_row (by decide) _ _ _ _ _).trans ((rdb_wr_row (by decide) _ _ _ _ _).trans (bit_rd_wr (by decide) (by decide) v s 0))
theorem writeTheCtrl_enables {v : Nat} {s : State} (hidle : rdf R.THE_STATUS 0 2 s = 0) (hoff : rdb R.THE_CTRL 0 s = false) (hv : bit 0 v = true) :
    writeTheCtrl v s = if theGeomOk s then startFill (geometryTaken (theCtrlValue v) s) else wr R.THE_CTRL (setBit 0 false (theCtrlValue v)) s := by
  have hgo : (bit 0 (theCtrlValue v) && !rdb R.THE_CTRL 0 s) = true := by simp [bit_theCtrlValue hv, hoff]
  unfold writeTheCtrl
  dsimp only
  rw [if_neg (not_not.2 hidle)]
  exact if_pos hgo
theorem filling_startFill (s : State) : (startFill s).dose.the.filling = some s.time.ns := by
  unfold startFill
  rw [dose_showStates]
  rfl

/-! ### A map is applied -/

/-- The oldest map has left the queue, as THE_STATUS shows. -/
def oldestTaken (rest : List RespMap) (s : State) : State := showAssim (modThe (fun t => { t with queue := rest }) s)
theorem rd_oldestTaken {q : RegInfo} (h : rowsDisjoint q R.THE_STATUS = true) (rest : List RespMap) (s : State) (j : Nat) :
    rd q (oldestTaken rest s) j = rd q s j := rd_wr_row h _ _ _ _
theorem curSlot_oldestTaken (rest : List RespMap) (s : State) : curSlot (oldestTaken rest s) = curSlot s :=
  rdf_wrf_ne (by decide) (by decide) (by decide) _ _ _
theorem applyMap_alpha_zero {m : RespMap} {rest : List RespMap} {s : State} (hq : s.dose.the.queue = m :: rest) (hready : assimReady s = true)
    (halpha : rdf R.THE_ASSIM_CFG 0 8 s m.context = 0) : applyMap [] s = discardMap m rsAlpha (oldestTaken rest s) := by
  have hzero : bits 0 8 (rd R.THE_ASSIM_CFG (oldestTaken rest s) m.context) = 0 := by rw [rd_oldestTaken (by decide)]; exact halpha
  unfold applyMap
  rw [hq]
  dsimp only
  rw [if_neg (by simp [hready])]
  exact if_pos hzero
theorem eraseDups_one {α : Type} [BEq α] (a : α) : [a].eraseDups = [a] := by simp [List.eraseDups_cons]
/-- What an observation leaves of a cell's state: the state goes on towards it by alpha (R156). -/
def observed (alpha : Nat) (cell : Nat × Nat × Nat) (s : State) (v e : Nat) : Nat :=
  match [cell].find? (fun x => x.2.1 == v) with
  | none => e
  | some x => ((e : Int) + sar ((alpha : Int) * ((obsTab s x.2.2 : Int) - e)) 8).toNat
theorem applyMap_one {m : RespMap} {rest : List RespMap} {u v : Int} {r : Nat} {s : State} (hq : s.dose.the.queue = m :: rest) (hready : assimReady s = true)
    (halpha : rdf R.THE_ASSIM_CFG 0 8 s m.context ≠ 0) (hwhole : m.partialFrame = false) (hage : rd R.THE_ASSIM_MAX_AGE s = 0)
    (hcell : mapCells m = [(u, v, r)]) (hon : onMap (theGeom s) u v = true) (hpass : curPass s = none)
    (hstamp : 0 ≤ sdiff 32 (m.captureNs / 2 ^ 20 % 2 ^ 32) (readDramN s (stampAddr (theGeom s) (curSlot s) u.toNat (v.toNat / 64)) 4)) :
    applyMap [] s = mapFinished m 0 1 0 (updateStrip (curSlot s) u.toNat (v.toNat / 64) (m.captureNs / 2 ^ 20 % 2 ^ 32)
      (observed (rdf R.THE_ASSIM_CFG 0 8 s m.context) (u.toNat, v.toNat, r) (oldestTaken rest s)) (oldestTaken rest s)) := by
  have hslot : curSlot (oldestTaken rest s) = curSlot s := curSlot_oldestTaken rest s
  have halpha' : ¬bits 0 8 (rd R.THE_ASSIM_CFG (oldestTaken rest s) m.context) = 0 := by rw [rd_oldestTaken (by decide)]; exact halpha
  have hcfg : rdf R.THE_ASSIM_CFG 0 8 s m.context = bits 0 8 (rd R.THE_ASSIM_CFG (oldestTaken rest s) m.context) := by
    rw [rd_oldestTaken (by decide)]
    rfl
  have hmax : rd R.THE_ASSIM_MAX_AGE (oldestTaken rest s) = 0 := (rd_oldestTaken (by decide) ..).trans hage
  have hwindow : stripInWindow u.toNat (v.toNat / 64) (oldestTaken rest s) = false := by
    have hnone : curPass (oldestTaken rest s) = none := hpass
    unfold stripInWindow
    rw [hnone]
  have hon' : onMap (theGeom (oldestTaken rest s)) u v = true := hon
  have hstamp' : ¬sdiff 32 (m.captureNs / 2 ^ 20 % 2 ^ 32) (readDramN (oldestTaken rest s)
      (stampAddr (theGeom (oldestTaken rest s)) (curSlot (oldestTaken rest s)) u.toNat (v.toNat / 64)) 4) < 0 := by
    rw [hslot]
    exact Int.not_lt.2 hstamp
  rw [hcfg, ← hslot]
  unfold applyMap
  rw [hq]
  dsimp only
  rw [if_neg (by simp [hready])]
  have htaken : showAssim (modThe (fun t => { t with queue := rest }) s) = oldestTaken rest s := rfl
  rw [htaken]
  generalize oldestTaken rest s = w at *
  rw [if_neg halpha', hwhole, if_neg (by simp), if_neg (by simp [hmax]), hcell]
  simp only [List.filter_cons, List.filter_nil, hon', if_true, List.map_cons, List.map_nil, List.length_cons, List.length_nil,
    eraseDups_one, List.foldl_cons, List.foldl_nil, hwindow, Bool.false_eq_true, if_false, if_neg hstamp', beq_self_eq_true,
    Bool.and_self, List.contains_nil, Nat.sub_self, Nat.zero_add]
  rfl

/-! ### The window of the beam table -/

theorem setBits_zero_le (lo len v : Nat) : setBits lo len 0 v ≤ v := by
  have hlow : v % 2 ^ lo ≤ v % 2 ^ (lo + len) := by
    have hdvd : 2 ^ lo ∣ 2 ^ (lo + len) := pow_dvd_pow 2 (Nat.le_add_right lo len)
    calc v % 2 ^ lo = v % 2 ^ (lo + len) % 2 ^ lo := (Nat.mod_mod_of_dvd v hdvd).symm
      _ ≤ v % 2 ^ (lo + len) := Nat.mod_le _ _
  have hsplit := Nat.div_add_mod' v (2 ^ (lo + len))
  unfold setBits
  rw [Nat.zero_mod, Nat.zero_mul]
  omega
theorem windowEntry_lt {v : Nat} (h : v < 2 ^ 64) : windowEntry v < 2 ^ 64 := by
  unfold windowEntry
  split
  · exact ((setBits_zero_le ..).trans (setBits_zero_le ..)).trans_lt h
  · exact h
theorem bankEntry_of_dose {s t : State} (h : t.dose = s.dose) (b n : Nat) : bankEntry t b n = bankEntry s b n := by
  unfold bankEntry bankOf
  rw [h]
/-- An entry that is stored reads back, and is no longer damaged (R194, R373). -/
theorem bankEntry_writeBank (b n : Nat) (v : BitVec 64) (s : State) : bankEntry (writeBank b n v s) b n = v.toNat := by
  have hput : ∀ t : Table (BitVec 64), tget (0 : BitVec 64) (if v = 0 then terase t n else tset t n v) n = v := by
    intro t
    unfold tget
    by_cases hv : v = 0
    · rw [if_pos hv, tget?_terase, hv]
      rfl
    · rw [if_neg hv, tget?_tset, if_pos rfl]
      rfl
  have hfine : (writeBank b n v s).dose.bsc.badEntries.contains (b, n) = false := by
    by_cases h0 : b = 0 <;> simp [writeBank, modBsc, h0]
  have hbank : bankOf (writeBank b n v s) b = (if v = 0 then terase (bankOf s b) n else tset (bankOf s b) n v) := by
    by_cases h0 : b = 0 <;> simp [bankOf, writeBank, modBsc, h0]
  unfold bankEntry
  rw [hfine, hbank, hput]
  rfl

/-- Settles O43: each command takes the branch that its conditions name; the intake's fetch and the lead leave the groups of a pass, the
missed lines' run is empty, and a boundary's steps leave THE_CTRL. -/
theorem intakeAndMaps : Obligations.IntakeAndMaps := by
  unfold Obligations.IntakeAndMaps
  refine ⟨fun p g s s' hnext hres hserves => ⟨fun tiles hdec => ?_, fun v hdec => congrArg Host.Outcome.next ?_⟩,
    fun n p s hp hoff hin hrel hmay hcut hab hmode hmissed hres hdone hnew hrun => ?_,
    fun usage k i l s hb hl hfill hp hf hswap => ⟨fun hoff hlog => ?_, fun hon => ?_⟩,
    fun usage start s hf hs hb => ⟨_, congrArg Host.Outcome.next (doMapSlotFillDone_fills hf hs hb), ?_, ?_⟩,
    fun v s hidle hoff hv => ⟨fun hok => ?_, fun hbad => ?_⟩,
    fun m rest s hq hf hon hlayer => ?_,
    fun s => ⟨_, rfl, rdb_wrb (by decide) (by decide) .., rdf_wrb_ne (by decide) (by decide) (by decide) .., rfl⟩,
    fun bank entry value s hbank hentry => ⟨fun hactive => congrArg Host.Outcome.next ?_, fun hother hload =>
      ⟨census (writeBank bank entry (BitVec.ofNat 64 (windowEntry value.toNat)) s), congrArg Host.Outcome.next ?_, ?_⟩⟩⟩
  · obtain ⟨hpasses, hmem⟩ := groupOver_stays p g tiles s'
    have hends : doGroupDecode s = updateLead (intakeFetch (groupOver p g tiles s')) := by
      rw [doGroupDecode_ends hnext hres hserves hdec, endGroup_ok, groupOver]
    exact ⟨_, congrArg Host.Outcome.next hends, hpasses, hmem⟩
  · rw [doGroupDecode_ends hnext hres hserves hdec, endGroup_crc]
  · obtain ⟨x, hx⟩ := doLineWindowEntry_enters hp hoff hin hrel hmay hcut hab hmode hmissed hres hdone hnew hrun
    have kdead : Keeps 1125925676646452 (lineEntered p n s) (countDead x n (lineEntered p n s)) := countDead_keeps rfl (Keeps.refl _ _)
    have hmem : (countDead x n (lineEntered p n s)).mem = (lineEntered p n s).mem := mem_keeps kdead rfl rfl rfl
    refine ⟨_, congrArg Host.Outcome.next hx, fun q hq hexec => ?_, hmem, kdead.same_time rfl, kdead.same_mot rfl⟩
    rw [kdead.same_dose rfl] at hq
    obtain ⟨y, rfl⟩ := mem_modPass_executing hq hexec
    exact ⟨List.mem_cons_self, by simp [tget?_tset]⟩
  · obtain ⟨u, hu, hevent⟩ := finishBoundary_closes (usage := usage) (s := { s with dose := { s.dose with expired := openEntries s } }) hb hl
    refine ⟨u, congrArg Host.Outcome.next ?_, hevent⟩
    rw [doLayerBoundary_begins hb hfill hp hf hswap, the_on_boundaryBegun, hoff, boundaryBegun_empty hlog]
    exact hu
  · refine ⟨{ rotateMaps (boundaryBegun s) with dose := { (rotateMaps (boundaryBegun s)).dose with boundaryFill := true } },
      congrArg Host.Outcome.next ?_, rfl⟩
    rw [doLayerBoundary_begins hb hfill hp hf hswap, the_on_boundaryBegun, if_pos hon]
  · rw [dose_fillSlot hf]
  · exact (fillSlot_keeps rfl (Keeps.refl 5084141766840960 s)).same_time rfl
  · refine ⟨_, congrArg Host.Outcome.next ((writeTheCtrl_enables hidle hoff hv).trans (if_pos hok)), ?_, filling_startFill _⟩
    rw [enable_startFill, enable_geometryTaken, bit_theCtrlValue hv]
  · refine ⟨_, congrArg Host.Outcome.next ((writeTheCtrl_enables hidle hoff hv).trans (if_neg (by simp [hbad]))), ?_, rfl⟩
    rw [bit_rd_wr (by decide) (by decide), bit_setBit_false]
  · have hready : assimReady s = true := by
      rcases hlayer with hl | hl <;> simp [assimReady, hf, hon, hl]
    exact ⟨fun halpha => ⟨_, congrArg Host.Outcome.next (applyMap_alpha_zero hq hready halpha), rfl⟩,
      fun u v r halpha hwhole hage hcell hcellOn hpass hstamp => ⟨_, _,
        congrArg Host.Outcome.next (applyMap_one hq hready halpha hwhole hage hcell hcellOn hpass hstamp), rfl, rfl⟩⟩
  · exact if_pos (.inr (.inr (.inl hactive)))
  · exact if_neg (by simp [hother, hload]; omega)
  · refine (bankEntry_of_dose (s := writeBank bank entry (BitVec.ofNat 64 (windowEntry value.toNat)) s) rfl bank entry).trans ?_
    rw [bankEntry_writeBank, BitVec.toNat_ofNat, Nat.mod_eq_of_lt (windowEntry_lt value.isLt)]

end Sys2Proof.Proofs
end

section
/-! Descriptors that are their ring's only open one complete (R57), and MOVE and HOME queue their entry (R294, R299). -/

namespace Sys2Proof.Proofs
open Sys2Proof Sys2Proof.Machine Sys2Proof.Laws

/-! ### A descriptor that is read from a ring with nothing open -/

section Taken
variable {k code used : Nat} {d : Desc} {tests : List (Nat × Bool)} {s : State}

/-- A ring that gives a descriptor is not FAULTED (R63). -/
theorem not_faulted_of_offers (h : Offers k d code used tests s) : ringState s k ≠ 3 := by
  obtain ⟨hfetch, -⟩ := h
  intro h3
  simp [canFetch, h3] at hfetch
/-- Each field that the opcode tests is good (R66). -/
theorem test_of_offers (h : Offers k d code used tests s) {n : Nat} {b : Bool} (hn : n < 64) (hmem : (n, b) ∈ tests) : b = true := by
  obtain ⟨-, -, -, -, -, -, -, hgood⟩ := h
  have hfield := List.find?_eq_none.1 hgood n (List.mem_range.2 hn)
  by_contra hb
  exact hfield (Bool.or_eq_true_iff.2 (.inr (List.any_eq_true.2 ⟨(n, b), hmem, by simpa using hb⟩)))
theorem jobs_taken (h : Alone k s) (d : Desc) : (ringInt (taken k d s) k).jobs = [jobOf k d s] := by
  unfold taken
  rw [ringInt_modRing]
  exact congrArg (· ++ [jobOf k d s]) h.1
/-- The descriptor completes after what leaves its ring alone: its completion leaves the module, and nothing stays open (R57). -/
theorem complete_taken (h : Offers k d code used tests s) (ha : Alone k s) {c : Cpl} (hst : c.status < 256) (hre : c.reason < 256) {t : State}
    (ht : Steady k (taken k d s) t) : Completed k (jobOf k d s) c.status c.reason (complete k (nextIndex k s) c t) := by
  have hstate : ringState (taken k d s) k ≠ 3 := not_faulted_of_offers (s := s) h
  have hdone := (complete_steady (j := jobOf k d s) (c := c) ht (jobs_taken ha d) hstate ha.2).1
  rwa [Nat.mod_eq_of_lt hst, Nat.mod_eq_of_lt hre] at hdone
/-- It completes with OK and a result (R66). -/
theorem complete_ok (h : Offers k d code used tests s) (ha : Alone k s) (r : Nat) {t : State} (ht : Steady k (taken k d s) t) :
    Completed k (jobOf k d s) stOk 0 (complete k (nextIndex k s) { status := stOk, result := r } t) :=
  complete_taken h ha (Nat.zero_lt_succ _) (Nat.zero_lt_succ _) ht
/-- What leaves the mechanical side, memory and the dose path as it was. -/
theorem complete_only (k i : Nat) (c : Cpl) (s : State) : Keeps 25769803828 s (complete k i c s) := complete_keeps rfl (Keeps.refl _ s)

end Taken

/-! ### MOVE and HOME -/

section Motion
variable {k a : Nat} {d : Desc} {s : State}

/-- No rule of R294 refuses: the mode, the queue, what the move needs of its axis, and the envelope. -/
theorem moveRefusal_none {abs home : Bool} {x : Int} {record : Option (List Byte)}
    (hmode : modeOf s = 3 ∨ modeOf s = 7 ∨ ((modeOf s = 4 ∨ modeOf s = 5) ∧ 2 ≤ a)) (hroom : (axisOf s a).queue.length < 16)
    (hhomed : home = false → abs = true → homed a s = true) (hown : ownedByPlacement a s = false) (hsrc : axisSource a s ≠ 2)
    (henv : envOk a s = true) (hin : home = false → homed a s = true → rdI R.MOT_ENV_MIN s a ≤ x ∧ x ≤ rdI R.MOT_ENV_MAX s a)
    (hfault : axisState a s ≠ mFault) (hrecord : home = true → record.isNone = false) :
    moveRefusal a abs home x record s = none := by
  have hmode' : ¬(!(modeOf s == 3 || modeOf s == 7 || ((modeOf s == 4 || modeOf s == 5) && decide (2 ≤ a)))) = true := by
    rcases hmode with hm | hm | ⟨hm | hm, ha⟩ <;> simp [hm]
    all_goals omega
  have hneeds : ¬(!home && abs && !homed a s) = true := by
    simp only [Bool.and_eq_true, Bool.not_eq_true', not_and, Bool.not_eq_false]
    exact fun hb => hhomed hb.1 hb.2
  have hreach : ¬(!envOk a s || (!home && homed a s && !(decide (rdI R.MOT_ENV_MIN s a ≤ x) && decide (x ≤ rdI R.MOT_ENV_MAX s a)))) = true := by
    simp only [henv, Bool.not_true, Bool.false_or, Bool.and_eq_true, Bool.not_eq_true', not_and, Bool.not_eq_false, decide_eq_true_eq]
    exact fun hb => hin hb.1 hb.2
  have hloaded : ¬(home && record.isNone) = true := by
    simp only [Bool.and_eq_true, not_and, Bool.not_eq_true]
    exact hrecord
  unfold moveRefusal
  dsimp only
  rw [if_neg hmode', if_neg (Nat.not_le.2 hroom), if_neg hneeds, if_neg (by simp [hown, hsrc]), if_neg hreach, if_neg hfault, if_neg hloaded]
/-- A MOVE that no rule refuses, to its target (R295). -/
theorem doMove_admitted (h : Offers k d 0x08 (usedBits [(8, 1), (9, 1), (16, 8), (24, 4), (28, 4), (32, 4)])
      [(8, decide (dfld d 8 1 ≤ 5)), (9, decide (dfld d 9 1 ≤ 1)), (16, decide (sext 64 (dfld d 16 8) = sext 48 (dfld d 16 8)))] s)
    {x : Int} (hx : (if dfld d 9 1 = 0 then sext 48 (dfld d 16 8) else queueEnd (dfld d 8 1) s + sext 48 (dfld d 16 8)) = x)
    (hm : moveRefusal (dfld d 8 1) (dfld d 9 1 == 0) false x none s = none) :
    doMove k d s = startEntry (dfld d 8 1) (finish k (nextIndex k s) stOk 0 (setQueue (dfld d 8 1) ((axisOf s (dfld d 8 1)).queue ++
        [{ home := false, cookie := dCookie d, target := x, vmax := dfld d 24 4, amax := dfld d 28 4, jmax := dfld d 32 4 }]) (taken k d s))) := by
  have htarget : (if (dfld d 9 1 == 0) = true then sext 48 (dfld d 16 8) else queueEnd (dfld d 8 1) (taken k d s) + sext 48 (dfld d 16 8)) = x := by
    rw [← hx]
    by_cases h0 : dfld d 9 1 = 0
    · simp only [h0, beq_self_eq_true, if_true]
    · simp only [beq_iff_eq, h0, if_false]
      rfl
  have hm' : moveRefusal (dfld d 8 1) (dfld d 9 1 == 0) false x none (taken k d s) = none := hm
  unfold doMove
  dsimp only
  rw [readDesc_offers h (by decide), htarget, hm']
  rfl
/-- An entry joins the end of its axis's queue, its descriptor completes, and the axis starts it where it may (R294, R299). -/
theorem entryQueued {code used : Nat} {tests : List (Nat × Bool)} (h : Offers k d code used tests s) (ha : Alone k s) (e : QEntry) :
    ∃ t u, startEntry a (finish k (nextIndex k s) stOk 0 (setQueue a ((axisOf s a).queue ++ [e]) (taken k d s))) = t ∧ t = startEntry a u ∧
      (axisOf u a).queue = (axisOf s a).queue ++ [e] ∧ Completed k (jobOf k d s) stOk 0 t ∧ (mayStart a u = false → t = u) := by
  have hsteady : Steady k (taken k d s) (setQueue a ((axisOf s a).queue ++ [e]) (taken k d s)) :=
    .of_keeps (m := 1099511629824) (setQueue_keeps rfl (Keeps.refl _ _)) rfl rfl
  have hdone : Completed k (jobOf k d s) stOk 0 (finish k (nextIndex k s) stOk 0 (setQueue a ((axisOf s a).queue ++ [e]) (taken k d s))) :=
    complete_ok h ha 0 hsteady
  refine ⟨_, finish k (nextIndex k s) stOk 0 (setQueue a ((axisOf s a).queue ++ [e]) (taken k d s)), rfl, rfl, ?_,
    Completed.keeps (m := 969120157291034740) hdone (startEntry_keeps rfl (Keeps.refl _ _)), fun hno => if_neg (by simp [hno])⟩
  have hmot : (finish k (nextIndex k s) stOk 0 (setQueue a ((axisOf s a).queue ++ [e]) (taken k d s))).mot =
      (setQueue a ((axisOf s a).queue ++ [e]) (taken k d s)).mot := (complete_only ..).same_mot rfl
  rw [axisOf_mot hmot, axisOf_setQueue]

end Motion

end Sys2Proof.Proofs
end

section
/-! The operations of OP_TIME_CTRL take effect and complete where their descriptor is its ring's only open one (R417, R429). -/

namespace Sys2Proof.Proofs
open Sys2Proof Sys2Proof.Machine Sys2Proof.Laws

/-! ### What follows a step of E -/

theorem e32_of_time {s t : State} (h : t.time = s.time) : e32 t = e32 s := by
  unfold e32
  rw [h]
/-- `t` is `s` after what follows a step of E: ring `k` and E stand. -/
structure AfterStep (k : Nat) (s t : State) : Prop where
  ring : Steady k s t
  time : e32 t = e32 s

section Step
variable {k : Nat} {s t u : State}

theorem AfterStep.trans (h : AfterStep k s t) (g : AfterStep k t u) : AfterStep k s u := ⟨h.ring.trans g.ring, g.time.trans h.time⟩
theorem AfterStep.of_keeps {m : Nat} (h : Keeps m s t) (hhost : off m 4) (hregs : off m 33) (htime : off m 6) : AfterStep k s t :=
  ⟨.of_keeps h hhost hregs, e32_of_time (h.same_time htime)⟩
theorem AfterStep.post (n src sev w1 : Nat) (d : List (Nat × Nat × Int)) (s : State) : AfterStep k s (postEvent n src sev w1 d s) :=
  ⟨(Steady.refl k s).post .., e32_of_time (postEvent_time ..)⟩
theorem AfterStep.each {α : Type} (l : List α) (f : α → State → State) (hf : ∀ a u, AfterStep k u (f a u)) (s : State) :
    AfterStep k s (each l f s) := by
  induction l generalizing s with
  | nil => exact ⟨.refl k s, rfl⟩
  | cons a l ih => exact (hf a s).trans (ih (f a s))
theorem afterStep_time {s : State} (x : TimeState) (h : x.ns * 2 ^ 32 + x.frac = e32 s) : AfterStep k s { s with time := x } := ⟨⟨rfl, rfl⟩, h⟩
theorem afterStep_count (s : State) : AfterStep k s (bump R.TSY_STEPS 1 satSteps s) :=
  ⟨(Steady.refl k s).bump _ _ _ _ (by decide) (by decide) (by decide) (fun u => (Steady.refl k u).post ..),
    e32_of_time (bump_part State.time (fun _ _ => rfl) (fun _ => postEvent_time ..) s)⟩
theorem afterStep_postUnlocked (cause : Nat) (s : State) : AfterStep k s (postUnlocked cause s) :=
  (AfterStep.of_keeps (m := 8192) (holdFlag_keeps rfl (Keeps.refl _ s)) rfl rfl rfl).trans (.post ..)
theorem afterStep_reportWrap (backward : Bool) (s : State) : AfterStep k s (reportWrap backward s) := by
  unfold reportWrap
  split
  · exact ⟨.refl k s, rfl⟩
  · exact (afterStep_time { s.time with wrapSeen := wrapCount s } rfl).trans (.post ..)
theorem afterStep_startPps (s : State) : AfterStep k s (startPps s) :=
  ⟨.of_keeps (m := 68) (startPps_keeps rfl (Keeps.refl _ s)) rfl rfl, by
    unfold e32 startPps
    rw [ppsPulse_time]⟩
theorem afterStep_wr {r : RegInfo} (hb : r.base / 65536 ≠ 1) (hs : r.base % 65536 + r.stride * (r.count - 1) < 65536) (hc : 0 < r.count)
    (v i : Nat) (s : State) : AfterStep k s (wr r v s i) := ⟨(Steady.refl k s).wr r v i hb hs hc, rfl⟩
theorem afterStep_fireComparator (c : Nat) (stepped : Bool) (s : State) : AfterStep k s (fireComparator c stepped s) := by
  unfold fireComparator
  extract_lets target period late n s1 s2
  have h1 : AfterStep k s s1 := .post ..
  have h2 : AfterStep k s s2 := by
    unfold s2
    split
    · exact h1.trans (afterStep_startPps s1)
    · exact h1
  split
  · exact h2.trans (afterStep_wr (r := R.TSY_CMP_CTRL) (by decide) (by decide) (by decide) _ c s2)
  · exact h2.trans (afterStep_wr (by decide) (by decide) (by decide) _ c s2)
/-- A step of E takes E to its new value, and what follows leaves it and the rings (R417). -/
theorem afterStep_stepE (d : Int) (origin : Nat) (deferred : Bool) (s : State) :
    AfterStep k (putE32 ((e32 s : Int) + d) s) (stepE d origin deferred s) := by
  unfold stepE
  extract_lets ahead s1 fitting s2 s3 s4 s5 s6 s7
  have h2 : AfterStep k s1 s2 := afterStep_time { s1.time with lockCount := 0, badCount := 0, fitStale := true } rfl
  have h4 : AfterStep k s1 s4 := (h2.trans (afterStep_count s2)).trans (.post ..)
  have h5 : AfterStep k s1 s5 := h4.trans ((AfterStep.of_keeps (m := 6144) (shiftTimes_keeps rfl (Keeps.refl _ s4)) rfl rfl rfl).trans
    (.of_keeps (m := 4503599627374592) (latchAnchor_keeps rfl (Keeps.refl _ _)) rfl rfl rfl))
  have h6 : AfterStep k s1 s6 := by
    unfold s6
    split
    · exact h5.trans ((AfterStep.of_keeps (m := 549755813888) (setTsyState_keeps rfl (Keeps.refl _ s5)) rfl rfl rfl).trans (afterStep_postUnlocked ..))
    · exact h5
  have h7 : AfterStep k s1 s7 := h6.trans (afterStep_reportWrap ..)
  split
  · exact h7.trans (.each _ _ (fun c u => afterStep_fireComparator c true u) s7)
  · exact h7
theorem e32_putE32 (x : Int) (s : State) : e32 (putE32 x s) = toBits 96 x := Nat.div_add_mod' _ _
theorem steady_stepE (d : Int) (origin : Nat) (deferred : Bool) (s : State) : Steady k s (stepE d origin deferred s) :=
  (Steady.of_keeps (m := 64) (putE32_keeps rfl (Keeps.refl _ s)) rfl rfl).trans (afterStep_stepE d origin deferred s).ring
theorem e32_stepE (d : Int) (origin : Nat) (deferred : Bool) (s : State) : e32 (stepE d origin deferred s) = toBits 96 ((e32 s : Int) + d) :=
  (afterStep_stepE (k := 0) d origin deferred s).time.trans (e32_putE32 ..)

end Step

/-! ### SET, STEP and SOURCE -/

section Operations
variable {k : Nat} {d : Desc} {s : State}

/-- The step that SET or STEP asks for, in 2^-32 ns. -/
def hostShift (h : HostStep) (s : State) : Int := if h.isSet then (h.value * 2 ^ 32 : Nat) - (e32 s : Int) else sext 64 h.value * (2 ^ 32 : Nat)
/-- E is stepped as the host asks; SET drops a pending step of the servo. -/
def hostStepped (h : HostStep) (s : State) : State :=
  let t := stepE (hostShift h s) (if h.isSet then 2 else 3) false s
  if h.isSet then { t with time := { t.time with pendServo := none } } else t
theorem afterStep_hostStepped (h : HostStep) (s : State) :
    AfterStep k (stepE (hostShift h s) (if h.isSet then 2 else 3) false s) (hostStepped h s) := by
  unfold hostStepped
  generalize stepE (hostShift h s) (if h.isSet then 2 else 3) false s = t
  dsimp only
  split
  · exact afterStep_time { t.time with pendServo := none } rfl
  · exact ⟨.refl _ _, rfl⟩
theorem applyHostStep_eq (h : HostStep) (s : State) : applyHostStep false h s =
    complete h.ring h.index { status := stOk, result := timeResult s.time.ns (hostStepped h s).time.ns } (hostStepped h s) := rfl
/-- A host step that is applied at once: E takes its value, and the descriptor completes (R429). -/
theorem hostStep_applied {code used : Nat} {tests : List (Nat × Bool)} (hoffer : Offers k d code used tests s) (ha : Alone k s) {h : HostStep}
    (hring : h.ring = k) (hindex : h.index = nextIndex k s) :
    e32 (markPending (applyHostStep false h (taken k d s))) = toBits 96 ((e32 s : Int) + hostShift h s) ∧
      Completed k (jobOf k d s) stOk 0 (markPending (applyHostStep false h (taken k d s))) := by
  have hstep := afterStep_hostStepped (k := k) h (taken k d s)
  subst hring
  rw [applyHostStep_eq, hindex]
  constructor
  · calc e32 (markPending (complete h.ring (nextIndex h.ring s) _ (hostStepped h (taken h.ring d s))))
        = e32 (hostStepped h (taken h.ring d s)) := e32_of_time (s := hostStepped h (taken h.ring d s)) ((complete_only ..).same_time rfl)
      _ = toBits 96 ((e32 s : Int) + hostShift h s) := hstep.time.trans (e32_stepE ..)
  · exact Completed.keeps (m := 549755813888) (complete_ok hoffer ha _ ((steady_stepE ..).trans hstep.ring))
      (markPending_keeps rfl (Keeps.refl _ _))
theorem steady_changeSource {v : Nat} (hv : v ≤ 4) (s : State) : Steady k s (changeSource v s) := by
  by_cases hsame : v = tsySource s
  · unfold changeSource
    rw [if_neg (Nat.not_lt.2 hv)]
    dsimp only
    rw [if_pos hsame]
    exact .refl k s
  · have hstarted : Steady k s (sourceStarted v s) :=
      Steady.trans (t := { wrf R.TSY_CTRL 0 3 v s with time := { s.time with pendServo := none, lockCount := 0, badCount := 0 } })
        (((Steady.refl k s).wr R.TSY_CTRL _ 0 (by decide) (by decide) (by decide)).trans ⟨rfl, rfl⟩)
        (.of_keeps (m := 549755813888) (setTsyState_keeps rfl (Keeps.refl _ _)) rfl rfl)
    have hselected : Steady k s (sourceSelected v s) := by
      unfold sourceSelected
      refine Steady.trans ?_ (.of_keeps (m := 549755813888) (markPending_keeps rfl (Keeps.refl _ _)) rfl rfl)
      split
      · exact hstarted.trans (.of_keeps (m := 549755813888) (holdAdj_keeps rfl (Keeps.refl _ _)) rfl rfl)
      · exact hstarted
    rw [changeSource_other hv hsame]
    split
    · exact hselected.trans (afterStep_postUnlocked ..).ring
    · exact hselected
theorem tsySource_changeSource {v : Nat} (hv : v ≤ 4) (s : State) : tsySource (changeSource v s) = v := by
  by_cases hsame : v = tsySource s
  · unfold changeSource
    rw [if_neg (Nat.not_lt.2 hv)]
    dsimp only
    rw [if_pos hsame, hsame]
  · exact (changeSource_taken hv hsame).source
theorem finishTime_completed {code used : Nat} {tests : List (Nat × Bool)} (h : Offers k d code used tests s) (ha : Alone k s) {t : State}
    (ht : Steady k (taken k d s) t) : Completed k (jobOf k d s) stOk 0 (finishTime k (nextIndex k s) t) :=
  complete_ok h ha _ ht
/-- A register of block TSY stands through the completion. -/
theorem rd_finishTime {q : RegInfo} {j : Nat} (h : off 25769803828 (32 + regAddr q j / 65536 % 32)) (k i : Nat) (s : State) :
    rd q (finishTime k i s) j = rd q s j := rd_keeps (complete_only ..) h
theorem steady_armComparator (c target period : Nat) (drive : Bool) (s : State) : Steady k s (armComparator c target period drive s) :=
  (((Steady.refl k s).wr R.TSY_CMP_TARGET target c (by decide) (by decide) (by decide)).wr R.TSY_CMP_PERIOD period c (by decide) (by decide)
    (by decide)).wr R.TSY_CMP_CTRL _ c (by decide) (by decide) (by decide)
theorem rd_armComparator (c target period : Nat) (drive : Bool) (s : State) :
    rd R.TSY_CMP_TARGET (armComparator c target period drive s) c = target % 2 ^ 64 ∧
      rd R.TSY_CMP_PERIOD (armComparator c target period drive s) c = period % 2 ^ 32 ∧
      rd R.TSY_CMP_CTRL (armComparator c target period drive s) c = (1 + 2 * b2n drive) % 2 ^ 32 :=
  ⟨((rd_wr_row (by decide) ..).trans (rd_wr_row (by decide) ..)).trans (rd_wr (by decide) ..),
    (rd_wr_row (by decide) ..).trans (rd_wr (by decide) ..), rd_wr (by decide) ..⟩

end Operations

end Sys2Proof.Proofs
end

section
/-! The LAYER descriptors take effect (R109, R111, R115, R283): a layer opens, a pass is accepted, and a layer's end waits. -/

namespace Sys2Proof.Proofs
open Sys2Proof Sys2Proof.Machine Sys2Proof.Laws

/-! ### A layer opens -/

section Layer
variable {k : Nat} {d : Desc} {s : State}

/-- The layer that an OP_LAYER_BEGIN opens. -/
def layerOf (d : Desc) : OpenLayer := { number := dfld d 8 4, context := dContext d, thermal := bit 0 (dfld d 12 1) }
/-- The layer is open, before its descriptor completes. -/
def layerOpened (d : Desc) (s : State) : State :=
  showStates { wr R.THE_LAYER (dfld d 8 4) s with dose := { s.dose with layer := some (layerOf d) } }

theorem openLayer_eq (i : Nat) (s : State) : openLayer k i d s = finish k i stOk 0 (layerOpened d s) := rfl
theorem steady_layerOpened (s : State) : Steady k s (layerOpened d s) :=
  (((Steady.refl k s).wr R.THE_LAYER (dfld d 8 4) 0 (by decide) (by decide) (by decide)).trans
    (u := { wr R.THE_LAYER (dfld d 8 4) s with dose := { s.dose with layer := some (layerOf d) } }) ⟨rfl, rfl⟩).trans
    (.of_keeps (m := 5066549580791808) (showStates_keeps rfl (Keeps.refl _ _)) rfl rfl)
theorem rd_showStates {q : RegInfo} (hplc : rowsDisjoint q R.PLC_STATUS = true) (hthe : rowsDisjoint q R.THE_STATUS = true) (s : State) (j : Nat) :
    rd q (showStates s) j = rd q s j := by
  unfold showStates
  dsimp only
  refine (rd_wr_row hthe _ _ _ _).trans ?_
  split
  · exact rd_wr_row hplc _ _ _ _
  · rfl
theorem rd_layerOpened (s : State) : rd R.THE_LAYER (layerOpened d s) = dfld d 8 4 := by
  unfold layerOpened
  rw [rd_showStates (by decide) (by decide)]
  exact (rd_wr (r := R.THE_LAYER) (by decide) (dfld d 8 4) s 0).trans (Nat.mod_eq_of_lt (bits_lt ..))
theorem layerBegin_opens (h : Offers k d 0x20 (usedBits [(8, 4), (12, 1)])
      [(2, decide (1 ≤ dContext d)), (12, decide (dfld d 12 1 < 2))] s) (ha : Alone k s) :
    (openLayer k (nextIndex k s) d (taken k d s)).dose = { s.dose with layer := some (layerOf d) } ∧
      rd R.THE_LAYER (openLayer k (nextIndex k s) d (taken k d s)) = dfld d 8 4 ∧
      Completed k (jobOf k d s) stOk 0 (openLayer k (nextIndex k s) d (taken k d s)) := by
  have kdone := complete_only k (nextIndex k s) { status := stOk, reason := 0 } (layerOpened d (taken k d s))
  rw [openLayer_eq]
  refine ⟨(kdone.same_dose rfl).trans (dose_showStates _), (rd_keeps kdone rfl).trans (rd_layerOpened _), ?_⟩
  exact complete_ok h ha 0 (steady_layerOpened _)

end Layer

/-! ### A pass is accepted -/

/-- The lead that DPI_LEAD shows keeps every pass, but for its mark (R120). -/
theorem exists_updateLead {s : State} {p : Pass} (h : p ∈ s.dose.passes) : ∃ b, { p with leadLow := b } ∈ (updateLead s).dose.passes := by
  unfold updateLead
  split
  · exact ⟨p.leadLow, h⟩
  · rename_i x _
    extract_lets lead low running s1 s2
    have hkept : s2.dose = s.dose := by
      unfold s2
      split
      · exact postEvent_dose ..
      · rfl
    by_cases hi : p.index = x.index
    · exact ⟨_, List.mem_map.2 ⟨p, hkept ▸ h, if_pos hi⟩⟩
    · exact ⟨p.leadLow, List.mem_map.2 ⟨p, hkept ▸ h, if_neg hi⟩⟩
/-- What the registers show of a pass leaves every pass, but for its mark. -/
theorem exists_showPass {s : State} {p : Pass} (h : p ∈ s.dose.passes) : ∃ b, { p with leadLow := b } ∈ (showPass s).dose.passes := by
  unfold showPass
  extract_lets idle s1 s2
  have h1 : s1.dose = s.dose := by
    unfold s1
    split <;> rfl
  have h2 : s2.dose = s.dose := by
    unfold s2
    split
    · exact h1
    · exact h1
  have hfetch : (intakeFetch s2).dose = s.dose := ((intakeFetch_keeps rfl (Keeps.refl 16 s2)).same_dose rfl).trans h2
  obtain ⟨b, hb⟩ := exists_updateLead (s := intakeFetch s2) (hfetch ▸ h)
  have hcaps : (showCaps (updateLead (intakeFetch s2))).dose = (updateLead (intakeFetch s2)).dose :=
    (showCaps_keeps rfl (Keeps.refl 18014398509481992 _)).same_dose rfl
  exact ⟨b, by rw [hcaps]; exact hb⟩
/-- A pass that is accepted outside TURN stands among the passes. -/
theorem exists_acceptPass {s : State} (p : Pass) (h : plcState s ≠ pTurn) : ∃ b, { p with leadLow := b } ∈ (acceptPass p s).dose.passes := by
  have hturn : ∀ t : State, plcState t ≠ pTurn → turnNext t = t := by
    intro t ht
    unfold turnNext
    split
    · rfl
    · exact if_neg (fun x => ht x.1)
  have hshown : plcState (showPass { s with dose := { s.dose with passes := s.dose.passes ++ [p] } }) ≠ pTurn := by
    have hkept := plcState_of_rd (rd_keeps (m := 28428998417584188) (r := R.PLC_STATUS) (i := 0)
      (showPass_keeps rfl (Keeps.refl _ { s with dose := { s.dose with passes := s.dose.passes ++ [p] } })) rfl)
    rw [hkept]
    exact h
  unfold acceptPass
  rw [hturn _ hshown]
  exact exists_showPass (List.mem_append_right _ List.mem_cons_self)
/-- The read of a stream's header leaves placement's state. -/
theorem plcState_readHead {d : Desc} {hd : List Byte} {r : Except (Nat × Nat) StreamHead} {s s' : State} (h : readHead d hd s = (r, s')) :
    plcState s' = plcState s :=
  plcState_of_rd (rd_keeps (m := 26414048870964) (readHead_keeps_eq rfl (Keeps.refl _ s) h) rfl)

end Sys2Proof.Proofs
end

section
/-! What memory accesses do to the rings (R364 to R371): an error is counted, logged and posted, and every ring stands. -/

namespace Sys2Proof.Proofs
open Sys2Proof Sys2Proof.Machine Sys2Proof.Laws

/-- Every ring stands: its state, its open descriptors, and whether the module may send to the host. -/
structure RingsStand (s t : State) : Prop where
  ring : ∀ k, Steady k s t

section Stand
variable {s t u : State}

theorem RingsStand.refl (s : State) : RingsStand s s := ⟨fun k => .refl k s⟩
theorem RingsStand.trans (h : RingsStand s t) (g : RingsStand t u) : RingsStand s u := ⟨fun k => (h.ring k).trans (g.ring k)⟩
theorem RingsStand.ite {p : Prop} [Decidable p] (h : RingsStand s t) (g : RingsStand s u) : RingsStand s (if p then t else u) := by
  split
  · exact h
  · exact g
theorem RingsStand.jobs (h : RingsStand s t) (k : Nat) : (ringInt t k).jobs = (ringInt s k).jobs := congrArg Prod.fst (h.ring k).part
theorem RingsStand.of_keeps {m : Nat} (h : Keeps m s t) (hhost : off m 4) (hregs : off m 33) : RingsStand s t :=
  ⟨fun _ => .of_keeps h hhost hregs⟩
theorem RingsStand.post (n src sev w1 : Nat) (d : List (Nat × Nat × Int)) (s : State) : RingsStand s (postEvent n src sev w1 d s) :=
  ⟨fun k => (Steady.refl k s).post ..⟩
theorem RingsStand.each {α : Type} (l : List α) (f : α → State → State) (hf : ∀ a u, RingsStand u (f a u)) (s : State) :
    RingsStand s (each l f s) := ⟨fun k => (Steady.refl k s).each l f (fun a u => (hf a u).ring k)⟩
theorem ringsStand_modMem (f : MemState → MemState) (s : State) : RingsStand s (modMem f s) := ⟨fun _ => ⟨rfl, rfl⟩⟩
theorem ringsStand_wr {r : RegInfo} (hb : r.base / 65536 ≠ 1) (hs : r.base % 65536 + r.stride * (r.count - 1) < 65536) (hc : 0 < r.count)
    (v i : Nat) (s : State) : RingsStand s (wr r v s i) := ⟨fun k => (Steady.refl k s).wr r v i hb hs hc⟩
theorem ringsStand_wrf {r : RegInfo} (hb : r.base / 65536 ≠ 1) (hs : r.base % 65536 + r.stride * (r.count - 1) < 65536) (hc : 0 < r.count)
    (lo len v i : Nat) (s : State) : RingsStand s (wrf r lo len v s i) := ringsStand_wr hb hs hc _ i s
theorem ringsStand_bumpMem {r : RegInfo} (hb : r.base / 65536 ≠ 1) (hs : r.base % 65536 + r.stride * (r.count - 1) < 65536) (hc : 0 < r.count)
    (n : Nat) (s : State) : RingsStand s (bumpMem r n s) :=
  ⟨fun k => (Steady.refl k s).bump r n 0 _ hb hs hc (fun u => (Steady.refl k u).post ..)⟩
theorem ringsStand_logError (e : EccEntry) (s : State) : RingsStand s (logError e s) := by
  have hshow : ∀ f, RingsStand s (showLog (modMem f s)) := fun f =>
    (ringsStand_modMem f s).trans (.of_keeps (m := 17592186044416) (showLog_keeps rfl (Keeps.refl _ _)) rfl rfl)
  unfold logError
  dsimp only
  split
  · exact ringsStand_modMem _ s
  · split
    · exact hshow _
    · split
      · exact hshow _
      · exact ringsStand_bumpMem (by decide) (by decide) (by decide) 1 s
theorem ringsStand_retireDue (c p cause : Nat) (s : State) : RingsStand s (retireDue c p cause s) := by
  unfold retireDue
  split
  · dsimp only
    split
    · exact .refl s
    · exact ringsStand_modMem _ s
  · split
    · exact .refl s
    · split
      · extract_lets new s1 s2
        have h1 : RingsStand s s1 := ringsStand_modMem _ s
        have h2 : RingsStand s s2 := (h1.trans (ringsStand_wrf (r := R.MEMC_STATUS) (by decide) (by decide) (by decide) 12 4 _ 0 s1)).trans
          (ringsStand_wr (r := R.MEMC_MIGRATE_PTR) (by decide) (by decide) (by decide) 0 0 _)
        exact h2.trans (.post ..)
      · exact .post ..
theorem ringsStand_dramUe (a requester : Nat) (s : State) : RingsStand s (dramUe a requester s) := by
  unfold dramUe
  extract_lets c p poisoned s1 s2 s3 s4
  have h2 : RingsStand s s2 := by
    have h1 : RingsStand s s1 := ringsStand_bumpMem (by decide) (by decide) (by decide) 1 s
    exact .ite h1 (h1.trans (ringsStand_modMem _ s1))
  have h4 : RingsStand s s4 := (h2.trans (ringsStand_logError ..)).trans (.post ..)
  split
  · exact h4.trans (ringsStand_retireDue ..)
  · exact h4
theorem ringsStand_dramNoAddr (a requester : Nat) (s : State) : RingsStand s (dramNoAddr a requester s) := by
  unfold dramNoAddr
  extract_lets s1 s2
  have h1 : RingsStand s s1 := ringsStand_bumpMem (by decide) (by decide) (by decide) 1 s
  exact (h1.trans (ringsStand_logError ..)).trans (.post ..)
theorem ringsStand_dramCe (a requester device : Nat) (scrubbed : Bool) (s : State) : RingsStand s (dramCe a requester device scrubbed s) := by
  unfold dramCe
  extract_lets c p k now s1 back s2 s3 since first s4 n0 d0 s5 s6 n s7 s8 want action s9
  have h2 : RingsStand s s2 := (ringsStand_bumpMem (by decide) (by decide) (by decide) 1 s).trans (ringsStand_logError ..)
  have h3 : RingsStand s s3 := .ite (h2.trans (ringsStand_modMem _ s2)) h2
  have h4 : RingsStand s s4 := h3.trans (ringsStand_modMem _ s3)
  have h5 : RingsStand s s5 := .ite ((h4.trans (ringsStand_modMem _ s4)).trans (.post ..)) h4
  have h6 : RingsStand s s6 :=
    .ite ((h5.trans (ringsStand_modMem _ s5)).trans (ringsStand_wr (r := R.ECC_RANK_CE) (by decide) (by decide) (by decide) 0 k _)) h5
  have h7 : RingsStand s s7 := h6.trans (ringsStand_wr (r := R.ECC_RANK_CE) (by decide) (by decide) (by decide) n k s6)
  split
  · have h9 : RingsStand s s9 := (h7.trans (ringsStand_modMem _ s7)).trans (.post ..)
    split
    · exact h9.trans (ringsStand_retireDue ..)
    · exact h9
  · exact h7
theorem ringsStand_writeDram (a : Nat) (bs : List Byte) (s : State) : RingsStand s (writeDram a bs s) :=
  .of_keeps (m := 17592186045056) (writeDram_keeps rfl (Keeps.refl _ s)) rfl rfl
/-- A write to memory leaves the rings, whatever errors it meets (R365). -/
theorem ringsStand_memWrite (a : Nat) (bs : List Byte) (requester : Nat) (s : State) : RingsStand s (memWrite a bs requester s) := by
  unfold memWrite
  split
  · exact ringsStand_dramNoAddr ..
  · split
    · exact .refl s
    · split
      · exact ringsStand_modMem _ s
      · extract_lets bad ces s1 s2 s3
        have h1 : RingsStand s s1 := .each _ _ (fun e u => ringsStand_dramCe ..) s
        have h2 : RingsStand s s2 := h1.trans (.each _ _ (fun l u => (ringsStand_dramUe ..).trans (ringsStand_logError ..)) s1)
        exact (h2.trans (ringsStand_writeDram ..)).trans (ringsStand_modMem _ s3)
/-- One line of a scrub: the errors corrected and found so far, and the state (R364). -/
def lineScrubbed (x : Nat × Nat × State) (l : Nat) : Nat × Nat × State :=
  let s := x.2.2
  if 64 * l + 64 > dramSize ∨ dramUE s (64 * l) 64 then (x.1, x.2.1 + 1, dramUe (64 * l) rqScrub s)
  else
    match s.mem.injected.find? (fun e => e.1 == l) with
    | some e => (x.1 + 1, x.2.1, dramCe (64 * l) rqScrub e.2.1 true s)
    | none => x
theorem scrubLines_eq (a n : Nat) (s : State) : scrubLines a n s = (linesOf a n).foldl lineScrubbed (0, 0, s) := rfl
theorem ringsStand_lineScrubbed (x : Nat × Nat × State) (l : Nat) : RingsStand x.2.2 (lineScrubbed x l).2.2 := by
  unfold lineScrubbed
  dsimp only
  split
  · dsimp only
    exact ringsStand_dramUe ..
  · split
    · dsimp only
      exact ringsStand_dramCe ..
    · exact .refl _
/-- A scrub over a range of lines leaves the rings too (R402). -/
theorem ringsStand_scrubLines (a n : Nat) (s : State) : RingsStand s (scrubLines a n s).2.2 := by
  have hall : ∀ (l : List Nat) (x : Nat × Nat × State), RingsStand x.2.2 (l.foldl lineScrubbed x).2.2 := by
    intro l
    induction l with
    | nil => exact fun x => .refl _
    | cons a l ih => exact fun x => (ringsStand_lineScrubbed x a).trans (ih _)
  rw [scrubLines_eq]
  exact hall _ (0, 0, s)

end Stand

end Sys2Proof.Proofs
end

section
/-! UTILITY jobs and upload buffers (R57, R68, R401 to R405): the start of a ring's only job, its end, and what a buffer takes. -/

namespace Sys2Proof.Proofs
open Sys2Proof Sys2Proof.Machine Sys2Proof.Laws

/-! ### Jobs of a ring -/

theorem ringInt_modJob (k i : Nat) (f : Job → Job) (s : State) :
    (ringInt (modJob k i f s) k).jobs = (ringInt s k).jobs.map (fun j => if j.index = i then f j else j) := by
  unfold modJob
  rw [ringInt_modRing]
theorem ringInt_modJob_ne {k n : Nat} (h : n ≠ k) (i : Nat) (f : Job → Job) (s : State) : ringInt (modJob k i f s) n = ringInt s n :=
  ringInt_modRing_ne h _ s
theorem jobs_modJob_only {k : Nat} {j : Job} {s : State} (h : (ringInt s k).jobs = [j]) (f : Job → Job) :
    (ringInt (modJob k j.index f s) k).jobs = [f j] := by
  rw [ringInt_modJob, h]
  simp
/-- A job that a ring finds, after a change that leaves its index. -/
theorem findJob_modJob {k i : Nat} {j : Job} {f : Job → Job} {s : State} (h : findJob k i s = some j) (hf : ∀ x, (f x).index = x.index) :
    findJob k i (modJob k i f s) = some (f j) := by
  have hsame : (fun x : Job => x.index == i) ∘ (fun x => if x.index = i then f x else x) = fun x => x.index == i := by
    funext x
    by_cases e : x.index = i
    · simp [e, hf]
    · simp [e]
  have hj : j.index = i := by simpa using List.find?_some (p := fun x : Job => x.index == i) h
  calc findJob k i (modJob k i f s) = (findJob k i s).map (fun x => if x.index = i then f x else x) := by
        unfold findJob
        rw [ringInt_modJob, List.find?_map, hsame]
    _ = some (f j) := by rw [h, Option.map_some, if_pos hj]
/-- A search of numbers that one of them alone answers. -/
theorem findSome?_range_only {α : Type} {f : Nat → Option α} {k n : Nat} {x : α} (hk : k < n) (h : f k = some x) (hne : ∀ m < n, m ≠ k → f m = none) :
    (List.range n).findSome? f = some x := by
  induction n with
  | zero => omega
  | succ n ih =>
    rw [List.range_succ, List.findSome?_append]
    by_cases hn : k < n
    · rw [ih hn (fun m hm => hne m (by omega))]
      rfl
    · obtain rfl : k = n := by omega
      have hnone : (List.range k).findSome? f = none :=
        List.findSome?_eq_none_iff.2 (fun m hm => hne m (by have := List.mem_range.1 hm; omega) (Nat.ne_of_lt (List.mem_range.1 hm)))
      simp [hnone, h]

/-! ### What a completion leaves of the other rings -/

theorem rings_toHost (o : Out) (s : State) : (toHost o s).host.rings = s.host.rings := by
  unfold toHost
  split <;> rfl
theorem rings_writeCompletion (k : Nat) (j : Job) (c : Cpl) (s : State) : (writeCompletion k j c s).host.rings = s.host.rings := by
  unfold writeCompletion
  extract_lets n w0 e s1 s2 s3
  have h1 : s1.host.rings = s.host.rings := rings_toHost ..
  have h2 : s2.host.rings = s.host.rings := by
    unfold s2
    split
    · exact h1
    · exact h1
  have h3 : s3.host.rings = s.host.rings := (rings_toHost ..).trans h2
  split
  · exact (signal_host ..).trans h3
  · exact h3
theorem ringInt_of_rings {s t : State} (h : t.host.rings = s.host.rings) (n : Nat) : ringInt t n = ringInt s n := by
  unfold ringInt
  rw [h]
theorem ringInt_drainRing_ne {k n : Nat} (h : n ≠ k) (fuel : Nat) (s : State) : ringInt (drainRing k fuel s) n = ringInt s n := by
  induction fuel generalizing s with
  | zero => rfl
  | succ fuel ih =>
    unfold drainRing
    split
    · rfl
    · split
      · rfl
      · split
        · rfl
        · rw [ih, ringInt_of_rings (rings_writeCompletion ..), ringInt_modRing_ne h]
theorem ringInt_complete_ne {k n : Nat} (h : n ≠ k) (i : Nat) (c : Cpl) (s : State) : ringInt (complete k i c s) n = ringInt s n := by
  unfold complete
  extract_lets onChan s1
  have h1 : ringInt s1 n = ringInt s n := by
    unfold s1
    split <;> rfl
  rw [ringInt_drainRing_ne h, ringInt_modJob_ne h, h1]

/-! ### Jobs start -/

/-- A ring whose jobs have all started has none that waits. -/
theorem nextWaiting_none {k : Nat} {s : State} (h : ∀ j ∈ (ringInt s k).jobs, j.started = true) : nextWaiting k s = none := by
  have hnone : (ringInt s k).jobs.find? (fun j => !j.started) = none := List.find?_eq_none.2 (fun j hj => by simp [h j hj])
  unfold nextWaiting
  dsimp only
  rw [hnone]
theorem pumpUtility_idle {s : State} (h : ∀ k, ∀ j ∈ (ringInt s k).jobs, j.started = true) (fuel : Nat) : pumpUtility fuel s = s := by
  cases fuel with
  | zero => rfl
  | succ fuel =>
    have hnone : (List.range 32).findSome? (fun k => (nextWaiting k s).map (fun j => (k, j))) = none :=
      List.findSome?_eq_none_iff.2 (fun k _ => by rw [nextWaiting_none (h k)]; rfl)
    unfold pumpUtility
    rw [hnone]
/-- The only job of all the rings waits: its engine is free and no fence holds it. -/
theorem nextWaiting_alone {k : Nat} {j : Job} {s : State} (hjobs : (ringInt s k).jobs = [j]) (hwait : j.started = false)
    (hother : ∀ n, n ≠ k → (ringInt s n).jobs = []) (htype : ringType s k = tyUtility) (hstate : ringState s k = 2) :
    nextWaiting k s = some j := by
  have hidle : runningJobs s = [] := List.flatMap_eq_nil_iff.2 (fun n _ => by
    split
    · by_cases hn : n = k
      · rw [hn, hjobs]
        simp [hwait]
      · rw [hother n hn]
        rfl
    · rfl)
  have hfree : engineFree (engineOf j) s = true := by
    unfold engineFree
    rw [hidle]
    split <;> rfl
  unfold nextWaiting
  simp [hjobs, hwait, htype, hstate, hfree]

/-- The only descriptor of all the rings is a job that has started. -/
def jobStartedAlone (k : Nat) (d : Desc) (s : State) : State :=
  modJob k (nextIndex k s) (fun x => { x with started := true }) (modJob k (nextIndex k s) (fun j => { j with started := false }) (taken k d s))

section Start
variable {k : Nat} {d : Desc} {s : State}

theorem jobs_jobStartedAlone (hnone : (ringInt s k).jobs = []) : (ringInt (jobStartedAlone k d s) k).jobs = [jobOf k d s] := by
  have htaken : (ringInt (taken k d s) k).jobs = [jobOf k d s] := by
    unfold taken
    rw [ringInt_modRing]
    exact congrArg (· ++ [jobOf k d s]) hnone
  have hwaits := jobs_modJob_only htaken (fun j => { j with started := false })
  exact jobs_modJob_only (j := { jobOf k d s with started := false }) hwaits (fun x => { x with started := true })
theorem jobs_jobStartedAlone_ne {n : Nat} (h : n ≠ k) : (ringInt (jobStartedAlone k d s) n).jobs = (ringInt s n).jobs := by
  unfold jobStartedAlone taken
  rw [ringInt_modJob_ne h, ringInt_modJob_ne h, ringInt_modRing_ne h]
theorem takeJob_alone (hk : k < 32) (hnone : ∀ n, (ringInt s n).jobs = []) (hstate : ringState s k = 2) (htype : ringType s k = tyUtility) :
    takeJob k (nextIndex k s) (taken k d s) = pumpUtility 63 (startJob k { jobOf k d s with started := false } (jobStartedAlone k d s)) := by
  have htaken : (ringInt (taken k d s) k).jobs = [jobOf k d s] := by
    unfold taken
    rw [ringInt_modRing]
    exact congrArg (· ++ [jobOf k d s]) (hnone k)
  obtain ⟨w, hw⟩ : ∃ w, w = modJob k (nextIndex k s) (fun j => { j with started := false }) (taken k d s) := ⟨_, rfl⟩
  have hwaits : (ringInt w k).jobs = [{ jobOf k d s with started := false }] :=
    hw ▸ jobs_modJob_only htaken (fun j => { j with started := false })
  have hother : ∀ n, n ≠ k → (ringInt w n).jobs = [] := fun n hn => by
    rw [hw, ringInt_modJob_ne hn, taken, ringInt_modRing_ne hn]
    exact hnone n
  have htype' : ringType w k = tyUtility := by rw [hw]; exact htype
  have hstate' : ringState w k = 2 := by rw [hw]; exact hstate
  have hfound : (List.range 32).findSome? (fun m => (nextWaiting m w).map (fun j => (m, j))) = some (k, { jobOf k d s with started := false }) :=
    findSome?_range_only hk (by rw [nextWaiting_alone hwaits rfl hother htype' hstate']; rfl)
      (fun m _ hm => by rw [nextWaiting_none (by simp [hother m hm])]; rfl)
  unfold takeJob
  rw [← hw]
  unfold pumpUtility
  rw [hfound, hw]
  rfl
/-- A started job that is the only one stays so through what leaves the rings. -/
theorem pumpUtility_started {t : State} (hnone : ∀ n, (ringInt s n).jobs = []) (ht : RingsStand (jobStartedAlone k d s) t) (fuel : Nat) :
    pumpUtility fuel t = t := by
  refine pumpUtility_idle (fun n j hj => ?_) fuel
  rw [ht.jobs] at hj
  by_cases hn : n = k
  · subst hn
    rw [jobs_jobStartedAlone (hnone n), List.mem_singleton] at hj
    rw [hj]
    rfl
  · rw [jobs_jobStartedAlone_ne hn, hnone n] at hj
    cases hj
/-- A job that starts without a transfer waits for its engine's end alone. -/
theorem job_starts {t : State} (hk : k < 32) (hnone : ∀ n, (ringInt s n).jobs = []) (hstate : ringState s k = 2) (htype : ringType s k = tyUtility)
    (hstart : startJob k { jobOf k d s with started := false } (jobStartedAlone k d s) = t) (ht : RingsStand (jobStartedAlone k d s) t) :
    takeJob k (nextIndex k s) (taken k d s) = t ∧ (ringInt t k).jobs = [jobOf k d s] :=
  ⟨by rw [takeJob_alone hk hnone hstate htype, hstart, pumpUtility_started hnone ht], (ht.jobs k).trans (jobs_jobStartedAlone (hnone k))⟩
end Start

end Sys2Proof.Proofs
end

section
/-! Descriptors that their ring offers take effect, under conditions on the state and the operands alone (R68, R109, R115, R283, R294,
R299, R402, R405, R411, R417, R427, R429). -/

namespace Sys2Proof.Proofs
open Sys2Proof Sys2Proof.Machine Sys2Proof.Laws

/-! ### UTILITY descriptors -/

section Utility
variable {k : Nat} {j : Job} {s w : State}

theorem startJob_idle (hside : hostSide j.desc = false) (hop : dOpcode j.desc ≠ 0x41) : startJob k j s = s := by
  unfold startJob
  dsimp only
  split
  · exact if_neg (by simp [hside])
  · next h => exact absurd h hop
  · exact if_neg (by simp [hside])
  · next h =>
    have hdram : ¬dfld j.desc 24 1 = 1 ∧ ¬dfld j.desc 25 1 = 1 := by simpa [hostSide, h] using hside
    rw [if_neg hdram.1, if_neg hdram.2]
  · rfl
/-- A COMPRESS clears its destination's header before it reads (R403). -/
theorem startJob_compress (hside : hostSide j.desc = false) (hop : dOpcode j.desc = 0x41)
    (hroom : baseEnd (dfld j.desc 18 2) (dfld j.desc 17 1) (dfld j.desc 20 4) (dfld j.desc 48 4) ≤ dfld j.desc 32 8) :
    startJob k j s = memWrite (dfld j.desc 24 8) (List.replicate 64 0) rqCodec s := by
  unfold startJob
  simp only [hop]
  rw [if_neg (Nat.not_lt.2 hroom), if_neg (by simp [hside])]
/-- The only job of all the rings completes: its completion leaves the module, and no ring has a job. -/
theorem only_job_completes (hjobs : (ringInt s k).jobs = [j]) (hstate : ringState s k = 2) (hbm : s.host.busMaster = true)
    (hother : ∀ n, n ≠ k → (ringInt s n).jobs = []) (hw : RingsStand s w) (r : Nat) :
    Completed k j stOk 0 (complete k j.index { status := stOk, result := r } w) ∧
      ∀ n, (ringInt (complete k j.index { status := stOk, result := r } w) n).jobs = [] := by
  have hrun : ringState s k ≠ 3 := by omega
  obtain ⟨hdone, hempty⟩ := complete_steady (c := { status := stOk, result := r }) (hw.ring k) hjobs hrun hbm
  refine ⟨hdone, fun n => ?_⟩
  by_cases hn : n = k
  · rw [hn, hempty]
  · rw [ringInt_complete_ne hn, hw.jobs, hother n hn]
theorem pumpUtility_empty (h : ∀ n, (ringInt s n).jobs = []) (fuel : Nat) : pumpUtility fuel s = s :=
  pumpUtility_idle (fun n j hj => by rw [h n] at hj; cases hj) fuel
theorem findJob_only (hjobs : (ringInt s k).jobs = [j]) : findJob k j.index s = some j := by
  unfold findJob
  rw [hjobs]
  simp
/-- FILL ends (R402): the pattern stands in DRAM, the completion leaves, and UDMA_FILL_DONE shows. -/
theorem fill_ends (hjobs : (ringInt s k).jobs = [j]) (hbm : s.host.busMaster = true) (htype : ringType s k = tyUtility) (hstate : ringState s k = 2)
    (hstarted : j.started = true) (hopen : j.cpl = none) (hother : ∀ n, n ≠ k → (ringInt s n).jobs = []) (hop : dOpcode j.desc = 0x43)
    (hdram : dfld j.desc 16 1 = 0) (hfits : dfld j.desc 8 8 + dfld j.desc 24 8 ≤ dramSize) (hserves : dramServes s = true)
    (hcmd : cmdFailed (dfld j.desc 8 8) (dfld j.desc 24 8) rqUdma s = false) :
    ∃ t, doUtilityJobDone k j.index s = t ∧ Completed k j stOk 0 t ∧ EventShows 199 t ∧
      t.mem.dram = putBytes s.mem.dram (dfld j.desc 8 8) (patternBytes (dfld j.desc 32 8) (dfld j.desc 24 8)) := by
  have hlen : (patternBytes (dfld j.desc 32 8) (dfld j.desc 24 8)).length = dfld j.desc 24 8 := by simp [patternBytes]
  have hside : hostSide j.desc = false := by simp [hostSide, hop, hdram]
  obtain ⟨w, hw⟩ : ∃ w, w = memWrite (dfld j.desc 8 8) (patternBytes (dfld j.desc 32 8) (dfld j.desc 24 8)) rqUdma s := ⟨_, rfl⟩
  have hrun : runJob k j s = fillEnd k j w := by
    unfold runJob jobWrite
    simp only [hop]
    rw [hlen, if_neg (Nat.not_lt.2 hfits), hw]
  obtain ⟨hdone, hempty⟩ := only_job_completes hjobs hstate hbm hother (hw ▸ ringsStand_memWrite ..) (dfld j.desc 24 8)
  have hquiet : ∀ n, (ringInt (fillEnd k j w) n).jobs = [] := fun n => ((RingsStand.post ..).jobs n).trans (hempty n)
  have hwritten : w.mem.dram = putBytes s.mem.dram (dfld j.desc 8 8) (patternBytes (dfld j.desc 32 8) (dfld j.desc 24 8)) :=
    hw ▸ memWrite_dram (by rw [hlen]; exact hfits) hserves (by rw [hlen]; exact hcmd)
  refine ⟨fillEnd k j w, ?_, Completed.keeps hdone (postEvent_only ..), posted .., ?_⟩
  · rw [doUtilityJobDone_runs (findJob_only hjobs) htype hstarted hopen hside, hrun, pumpUtility_empty hquiet]
  · unfold fillEnd
    rw [postEvent_mem, (complete_only ..).same_dram rfl, hwritten]
theorem scrub_ends (hjobs : (ringInt s k).jobs = [j]) (hbm : s.host.busMaster = true) (htype : ringType s k = tyUtility) (hstate : ringState s k = 2)
    (hstarted : j.started = true) (hopen : j.cpl = none) (hother : ∀ n, n ≠ k → (ringInt s n).jobs = []) (hop : dOpcode j.desc = 0x45) :
    ∃ t, doUtilityJobDone k j.index s = t ∧ Completed k j stOk 0 t := by
  have hside : hostSide j.desc = false := by simp [hostSide, hop]
  have hrun : runJob k j s = scrubEnd k j s := by
    unfold runJob
    simp only [hop]
  obtain ⟨hdone, hempty⟩ := only_job_completes hjobs hstate hbm hother (ringsStand_scrubLines (dfld j.desc 8 8) (dfld j.desc 16 8) s)
    (min (scrubLines (dfld j.desc 8 8) (dfld j.desc 16 8) s).1 (2 ^ 32 - 1) +
      2 ^ 32 * min (scrubLines (dfld j.desc 8 8) (dfld j.desc 16 8) s).2.1 (2 ^ 32 - 1))
  refine ⟨scrubEnd k j s, ?_, hdone⟩
  rw [doUtilityJobDone_runs (findJob_only hjobs) htype hstarted hopen hside, hrun]
  exact pumpUtility_empty hempty 64

end Utility

/-! ### Upload buffers -/

section Upload
variable {k n : Nat} {d : Desc} {s : State}

theorem pumpStream_empty {fuel : Nat} (h : (streamOf s n).staged = []) : pumpStream n fuel s = s := by
  cases fuel with
  | zero => rfl
  | succ fuel =>
    unfold pumpStream
    rw [h]
theorem waitingBuffer_eq (n : Nat) (s : State) : waitingBuffer n s = (List.range 32).findSome? (fun k =>
    if ringType s k = tyUpload ∧ ringState s k = 2 then
      ((ringInt s k).jobs.find? (fun j => dOpcode j.desc == 0x60 && j.cpl.isNone && j.xfer.isNone && dfld j.desc 20 1 == n)).map
        (fun j => (k, j))
    else none) := List.head?_filterMap
/-- The buffer of a descriptor that is read waits, where its stream had none (R68). -/
theorem waitingBuffer_taken (hk : k < 32) (ha : Alone k s) (hstate : ringState s k = 2) (htype : ringType s k = tyUpload) (hop : dOpcode d = 0x60)
    (hn : dfld d 20 1 = n) (hnone : waitingBuffer n s = none) : waitingBuffer n (taken k d s) = some (k, jobOf k d s) := by
  rw [waitingBuffer_eq] at *
  refine findSome?_range_only hk ?_ (fun m hm hne => ?_)
  · have htype' : ringType (taken k d s) k = tyUpload := htype
    have hstate' : ringState (taken k d s) k = 2 := hstate
    rw [if_pos ⟨htype', hstate'⟩, jobs_taken ha d]
    simp [jobOf, hop, hn]
  · have hring : ringInt (taken k d s) m = ringInt s m := ringInt_modRing_ne hne _ s
    have hbefore := List.findSome?_eq_none_iff.1 hnone m (List.mem_range.2 hm)
    rw [hring]
    exact hbefore
/-- A record that waits and fits goes into the buffer (R68). -/
theorem pumpStream_takes {r : List Byte} {fuel : Nat} (hw : waitingBuffer n (taken k d s) = some (k, jobOf k d s))
    (ha : Alone k s) (hr : (streamOf s n).staged = [r]) (hlen : r.length < dfld d 16 4) :
    (ringInt (pumpStream n (fuel + 2) (taken k d s)) k).jobs = [{ jobOf k d s with scratch := r, phase := 1 }] ∧
      (streamOf (pumpStream n (fuel + 2) (taken k d s)) n).staged = [] := by
  obtain ⟨u, hu⟩ : ∃ u, u = modJob k (nextIndex k s) (fun j => { j with scratch := j.scratch ++ r, phase := j.phase + 1 })
      (modStream n (fun x => { x with staged := [], stagedBytes := x.stagedBytes - r.length }) (taken k d s)) := ⟨_, rfl⟩
  have hstream : (streamOf u n).staged = [] := by
    rw [hu]
    unfold modJob modRing modStream streamOf
    simp [tget_tmod]
  have hjobs : (ringInt u k).jobs = [{ jobOf k d s with scratch := r, phase := 1 }] := by
    rw [hu]
    exact jobs_modJob_only (j := jobOf k d s) (jobs_taken ha d) _
  have hpump : pumpStream n (fuel + 2) (taken k d s) = u := by
    have hstaged : (streamOf (taken k d s) n).staged = [r] := hr
    unfold pumpStream
    rw [hstaged, hw]
    have hroom : bufferLen (jobOf k d s) - (jobOf k d s).scratch.length = dfld d 16 4 := rfl
    simp only [hroom]
    rw [if_pos (Nat.le_of_lt hlen), if_neg (Nat.ne_of_lt hlen)]
    exact hu ▸ pumpStream_empty (hu ▸ hstream)
  rw [hpump]
  exact ⟨hjobs, hstream⟩

end Upload

end Sys2Proof.Proofs
end

section
/-! OP_MOVE, OP_HOME, OP_TIME_CTRL, the LAYER and UTILITY opcodes and OP_UPLOAD_BUFFER take effect (R57, R66, R68, R294, R402, R429). -/

namespace Sys2Proof.Proofs
open Sys2Proof Sys2Proof.Machine Sys2Proof.Laws

/-! ### Each operation of OP_TIME_CTRL -/

section Time
variable {k : Nat} {d : Desc} {s : State}

theorem timeCtrlSet_sets (ha : Alone k s) (h : Offers k d 0x0E (usedBits [(8, 1), (16, 16)]) [(8, dfld d 8 1 == 1)] s) (hop : dfld d 8 1 = 1)
    (hfree : timeHeld s = false) (hpass : passRunning s = false) :
    ∃ t, exec (.timeCtrlSet k d) s = .next t ∧ e32 t = dfld d 16 8 * 2 ^ 32 % 2 ^ 96 ∧ Completed k (jobOf k d s) stOk 0 t := by
  obtain ⟨he, hdone⟩ := hostStep_applied h ha (h := { ring := k, index := nextIndex k s, isSet := true, value := dfld d 16 8 }) rfl rfl
  obtain ⟨hset, -⟩ := timeOpcodes
  refine ⟨_, (hset k d s h hop).2 hfree hpass, he.trans ?_, hdone⟩
  unfold hostShift toBits
  simp only [if_true]
  omega
theorem timeCtrlStep_steps (ha : Alone k s) (h : Offers k d 0x0E (usedBits [(8, 1), (16, 16)]) [(8, dfld d 8 1 == 2)] s) (hop : dfld d 8 1 = 2)
    (hfree : timeHeld s = false) (hpass : passRunning s = false) :
    ∃ t, exec (.timeCtrlStep k d) s = .next t ∧ (e32 t : Int) = (e32 s + sext 64 (dfld d 16 8) * 2 ^ 32) % 2 ^ 96 ∧
      Completed k (jobOf k d s) stOk 0 t := by
  obtain ⟨he, hdone⟩ := hostStep_applied h ha (h := { ring := k, index := nextIndex k s, isSet := false, value := dfld d 16 8 }) rfl rfl
  obtain ⟨-, hstep, -⟩ := timeOpcodes
  refine ⟨_, hstep k d s h hop hfree hpass, ?_, hdone⟩
  rw [he]
  unfold hostShift toBits
  simp only [Bool.false_eq_true, if_false]
  push_cast
  omega
theorem timeCtrlSource_selects (ha : Alone k s)
    (h : Offers k d 0x0E (usedBits [(8, 1), (16, 16)]) [(8, dfld d 8 1 == 3), (16, decide (dfld d 16 8 ≤ 4))] s) (hop : dfld d 8 1 = 3) :
    ∃ t, exec (.timeCtrlSource k d) s = .next t ∧ tsySource t = dfld d 16 8 ∧ Completed k (jobOf k d s) stOk 0 t := by
  have hle : dfld d 16 8 ≤ 4 := of_decide_eq_true (test_of_offers h (n := 16) (by decide) (by simp))
  obtain ⟨-, -, hsource, -⟩ := timeOpcodes
  exact ⟨_, hsource k d s h hop, (tsySource_of_rd (rd_finishTime rfl ..)).trans (tsySource_changeSource hle _),
    finishTime_completed h ha (steady_changeSource hle _)⟩
theorem timeCtrlIncrement_sets (ha : Alone k s) (h : Offers k d 0x0E (usedBits [(8, 1), (16, 16)]) [(8, dfld d 8 1 == 4)] s)
    (hop : dfld d 8 1 = 4) (hmanual : tsySource s = 4) :
    ∃ t, exec (.timeCtrlIncrement k d) s = .next t ∧ rd R.TSY_INCREMENT t = bits 0 40 (dfld d 16 8) ∧ Completed k (jobOf k d s) stOk 0 t := by
  obtain ⟨-, -, -, hincrement, -⟩ := timeOpcodes
  have hfits : bits 0 40 (dfld d 16 8) < 2 ^ 64 := Nat.lt_trans (bits_lt ..) (by decide)
  refine ⟨_, (hincrement k d s h hop).1 hmanual, ?_, finishTime_completed h ha ((Steady.refl _ _).wr _ _ _ (by decide) (by decide) (by decide))⟩
  exact (rd_finishTime rfl ..).trans ((rd_wr (by decide) ..).trans (Nat.mod_eq_of_lt hfits))
theorem timeCtrlCompare_arms (ha : Alone k s) {c : Nat} (h : Offers k d 0x0E (usedBits [(8, 1), (16, 16)]) [(8, dfld d 8 1 == 5)] s)
    (hop : dfld d 8 1 = 5) (hc : bits 32 2 (dfld d 24 8) = c) :
    ∃ t, exec (.timeCtrlCompare k d) s = .next t ∧ rd R.TSY_CMP_TARGET t c = dfld d 16 8 ∧
      rd R.TSY_CMP_PERIOD t c = bits 0 32 (dfld d 24 8) ∧ rdb R.TSY_CMP_CTRL 0 t c = true ∧
      rdb R.TSY_CMP_CTRL 1 t c = bit 34 (dfld d 24 8) ∧ Completed k (jobOf k d s) stOk 0 t := by
  subst hc
  obtain ⟨-, -, -, -, hcompare, -⟩ := timeOpcodes
  obtain ⟨htarget, hperiod, hctrl⟩ := rd_armComparator (bits 32 2 (dfld d 24 8)) (dfld d 16 8) (bits 0 32 (dfld d 24 8)) (bit 34 (dfld d 24 8)) (taken k d s)
  have hcmp : ∀ r : RegInfo, r ∈ [R.TSY_CMP_TARGET, R.TSY_CMP_PERIOD, R.TSY_CMP_CTRL] →
      off 25769803828 (32 + regAddr r (bits 32 2 (dfld d 24 8)) / 65536 % 32) := by
    intro r hr
    have hblock : 32 + regAddr r (bits 32 2 (dfld d 24 8)) / 65536 % 32 = 39 := by
      simp only [List.mem_cons, List.not_mem_nil, or_false] at hr
      rcases hr with rfl | rfl | rfl <;> rw [regAddr_block (by decide)] <;> rfl
    rw [hblock]
    rfl
  refine ⟨_, hcompare k d s h hop, ?_, ?_, ?_, ?_, finishTime_completed h ha (steady_armComparator ..)⟩
  · rw [rd_finishTime (hcmp _ (by simp)), htarget]
    exact Nat.mod_eq_of_lt (bits_lt ..)
  · rw [rd_finishTime (hcmp _ (by simp)), hperiod, Nat.mod_eq_of_lt (bits_lt ..)]
  · unfold rdb
    rw [rd_finishTime (hcmp _ (by simp)), hctrl]
    cases bit 34 (dfld d 24 8) <;> rfl
  · unfold rdb
    rw [rd_finishTime (hcmp _ (by simp)), hctrl]
    cases bit 34 (dfld d 24 8) <;> rfl
theorem timeCtrlRead_reads (ha : Alone k s) (h : Offers k d 0x0E (usedBits [(8, 1), (16, 16)]) [(8, dfld d 8 1 == 6)] s) (hop : dfld d 8 1 = 6) :
    ∃ t, exec (.timeCtrlRead k d) s = .next t ∧ t.time = s.time ∧ Completed k (jobOf k d s) stOk 0 t := by
  obtain ⟨-, -, -, -, -, hread⟩ := timeOpcodes
  exact ⟨_, hread k d s h hop, (complete_only ..).same_time rfl, complete_ok h ha _ (Steady.refl ..)⟩

end Time

/-! ### Each opcode of a UTILITY ring -/

section Utility
variable {k code used : Nat} {d : Desc} {tests : List (Nat × Bool)} {s : State}

theorem job_taken (hk : k < 32) (hnone : ∀ n, (ringInt s n).jobs = []) (hstate : ringState s k = 2) (hside : hostSide d = false)
    (hcode : opcodes.contains code = true) (htype : opcodeType code = tyUtility) (hop : code ≠ 0x41) (h : Offers k d code used tests s) :
    readDesc k d code used tests (takeJob k) s = jobStartedAlone k d s ∧ (ringInt (jobStartedAlone k d s) k).jobs = [jobOf k d s] := by
  obtain ⟨-, -, hopcode, -, -, -, hring, -⟩ := id h
  obtain ⟨htake, hjobs⟩ := job_starts (t := jobStartedAlone k d s) (d := d) hk hnone hstate (hring.trans htype)
    (startJob_idle (j := { jobOf k d s with started := false }) hside (fun x => hop (hopcode.symm.trans x))) (.refl _)
  exact ⟨(readDesc_takeJob h hcode).trans htake, hjobs⟩
theorem compress_taken (hk : k < 32) (hnone : ∀ n, (ringInt s n).jobs = []) (hstate : ringState s k = 2) (hside : hostSide d = false)
    (h : Offers k d 0x41 used tests s) (hroom : baseEnd (dfld d 18 2) (dfld d 17 1) (dfld d 20 4) (dfld d 48 4) ≤ dfld d 32 8)
    (hfits : dfld d 24 8 + 64 ≤ dramSize) (hserves : dramServes s = true) (hcmd : cmdFailed (dfld d 24 8) 64 rqCodec s = false) :
    ∃ t, readDesc k d 0x41 used tests (takeJob k) s = t ∧ (ringInt t k).jobs = [jobOf k d s] ∧
      t.mem.dram = putBytes s.mem.dram (dfld d 24 8) (List.replicate 64 0) := by
  obtain ⟨-, -, hopcode, -, -, -, hring, -⟩ := id h
  obtain ⟨htake, hjobs⟩ := job_starts (d := d) hk hnone hstate (hring.trans (by decide))
    (startJob_compress (j := { jobOf k d s with started := false }) hside hopcode hroom) (ringsStand_memWrite ..)
  exact ⟨_, (readDesc_takeJob h (by decide)).trans htake, hjobs, memWrite_dram hfits hserves hcmd⟩

end Utility

/-- Settles O59: each descriptor passes the common checks and takes its opcode's branch; what the branch does leaves the ring as it was,
so that the ring's only descriptor completes, or stays open with what it has taken. -/
theorem descriptorsTakeEffect : Obligations.DescriptorsTakeEffect := by
  unfold Obligations.DescriptorsTakeEffect
  refine ⟨?move, ?home, ?time, ?begin, ?swath, ?mend, ?layerEnd, ?utility, ?jobDone, ?upload, ?timeout⟩
  case move =>
    rintro k a d x s h ha rfl hx hmode hroom hhomed hown hsrc henv hin hfault
    have hm : moveRefusal (dfld d 8 1) (dfld d 9 1 == 0) false x none s = none :=
      moveRefusal_none hmode hroom (fun _ habs => hhomed (beq_iff_eq.1 habs)) hown hsrc henv (fun _ => hin) hfault (by simp)
    obtain ⟨t, u, ht, hu⟩ := entryQueued (a := dfld d 8 1) h ha
      { home := false, cookie := dCookie d, target := x, vmax := dfld d 24 4, amax := dfld d 28 4, jmax := dfld d 32 4 }
    exact ⟨t, u, congrArg Host.Outcome.next ((doMove_admitted h hx hm).trans ht), hu⟩
  case home =>
    rintro k a d rc s h ha rfl hn hrc hmode hroom hown hsrc henv hfault
    have hm : moveRefusal (dfld d 8 1) true true 0 (some rc) (taken k d s) = none :=
      moveRefusal_none (s := taken k d s) hmode hroom (by simp) hown hsrc henv (by simp) hfault (by simp)
    obtain ⟨t, u, ht, hu⟩ := entryQueued (a := dfld d 8 1) h ha
      { home := true, cookie := dCookie d, target := 0, vmax := 0, amax := 0, jmax := 0, record := rc, recIndex := dfld d 9 1 }
    exact ⟨t, u, congrArg Host.Outcome.next ((doHome_admitted h hn hrc hm).trans ht), hu⟩
  case time =>
    exact fun k d s ha => ⟨timeCtrlSet_sets ha, timeCtrlStep_steps ha, timeCtrlSource_selects ha, timeCtrlIncrement_sets ha,
      fun c => timeCtrlCompare_arms ha, timeCtrlRead_reads ha⟩
  case begin =>
    intro k d s h ha hopen hthermal hctx
    obtain ⟨hbegin, -⟩ := layerOpcodes
    exact ⟨_, hbegin k d s h hopen hthermal hctx, layerBegin_opens h ha⟩
  case swath =>
    intro k d hd l h s s' ho hl hn hturn hread hcount hfits hctx
    obtain ⟨-, hswath, -⟩ := layerOpcodes
    have hturn' : plcState s' ≠ pTurn := by rw [plcState_readHead hread]; exact hturn
    obtain ⟨b, hb⟩ := exists_acceptPass (passFor false k (nextIndex k s) d l h) hturn'
    exact ⟨_, b, hswath k d hd l h s s' ho hl hn hread hcount hfits hctx, hb⟩
  case mend =>
    intro k d hd l h s s' ho hl hn hturn hread hcount hfits hctx hmend
    obtain ⟨-, -, hpass, -⟩ := layerOpcodes
    have hturn' : plcState s' ≠ pTurn := by rw [plcState_readHead hread]; exact hturn
    obtain ⟨b, hb⟩ := exists_acceptPass (passFor true k (nextIndex k s) d l h) hturn'
    exact ⟨_, b, hpass k d hd l h s s' ho hl hn hread hcount hfits hctx hmend, hb⟩
  case layerEnd =>
    intro k d l s h ha hl hn
    obtain ⟨-, -, -, hend⟩ := layerOpcodes
    exact ⟨_, hend k d l s h hl hn, rfl, jobs_taken ha d⟩
  case utility =>
    refine fun k d s hk hnone hstate hside => ⟨fun h => ?_, fun h hroom hfits hserves hcmd => ?_, fun h => ?_, fun h => ?_, fun h => ?_, fun h => ?_⟩
    · obtain ⟨ht, hjobs⟩ := job_taken hk hnone hstate hside (by decide) (by decide) (by decide) h
      exact ⟨_, congrArg Host.Outcome.next ht, hjobs, rfl, rfl⟩
    · obtain ⟨t, ht, hjobs⟩ := compress_taken hk hnone hstate hside h hroom hfits hserves hcmd
      exact ⟨t, congrArg Host.Outcome.next ht, hjobs⟩
    all_goals
      obtain ⟨ht, hjobs⟩ := job_taken hk hnone hstate hside (by decide) (by decide) (by decide) h
      exact ⟨_, congrArg Host.Outcome.next ht, hjobs, rfl, rfl⟩
  case jobDone =>
    intro k j s hjobs hbm htype hstate hstarted hopen hother
    refine ⟨fun hop hdram hfits hserves hcmd => ?_, fun hop => ?_⟩
    · obtain ⟨t, ht, heffect⟩ := fill_ends hjobs hbm htype hstate hstarted hopen hother hop hdram hfits hserves hcmd
      exact ⟨t, congrArg Host.Outcome.next ht, heffect⟩
    · obtain ⟨t, ht, hdone⟩ := scrub_ends hjobs hbm htype hstate hstarted hopen hother hop
      exact ⟨t, congrArg Host.Outcome.next ht, hdone⟩
  case upload =>
    rintro k n d s h hk ha hstate rfl hnone
    obtain ⟨-, -, hopcode, -, -, -, hring, -⟩ := id h
    refine ⟨fun hempty => congrArg Host.Outcome.next ?_, fun r hr hlen => ⟨_, congrArg Host.Outcome.next (doUploadBuffer_offered h), ?_⟩⟩
    · rw [doUploadBuffer_offered h]
      exact pumpStream_empty hempty
    · exact pumpStream_takes (waitingBuffer_taken hk ha hstate (hring.trans (by decide)) hopcode rfl hnone) ha hr hlen
  case timeout =>
    exact fun n k j s hw hfind hphase => ⟨_, congrArg Host.Outcome.next (doUploadBufferTimeout_closes hw hphase),
      findJob_modJob hfind (fun _ => rfl)⟩

end Sys2Proof.Proofs
end


section
/-! Releases (R436, R442, R443, R448, R450): a release of level 0 that nothing holds stands at step 2 and waits for the fuse load. -/

namespace Sys2Proof.Proofs
open Sys2Proof Sys2Proof.Machine Sys2Proof.Laws

/-! ### The sequence of level 0 -/

/-- Step `n` of a release begins: the register and the state show it. -/
def stepShown (n : Nat) (s : State) : State := wrf R.RST_STATUS 8 4 n (wrb R.RST_STATUS 5 true (modPwr (fun p => { p with step := n }) s))
theorem stepShown_shows {n : Nat} (hn : n < 16) (s : State) :
    rdf R.RST_STATUS 8 4 (stepShown n s) = n ∧ rdb R.RST_STATUS 5 (stepShown n s) = true :=
  ⟨(rdf_wrf (by decide) (by decide) ..).trans (Nat.mod_eq_of_lt hn),
    (rdb_wrf_ne (by decide) (by decide) (Or.inl (by decide)) ..).trans (rdb_wrb (by decide) (by decide) ..)⟩

theorem stepHeld_none {n : Nat} {s : State} (h : s.pwr.asserted = []) : stepHeld n s = false := by
  unfold stepHeld
  rw [h]
  rfl

/-- With no source asserted a release waits after a step, or goes on. -/
theorem runRelease_step {l n : Nat} {r : List Nat} {s : State} (hnone : s.pwr.asserted = []) :
    runRelease l (n :: r) s =
      if (n = 2 ∧ rdf R.FUS_STATUS 0 2 (releaseStep l n (stepShown n s)) = 0) ∨
          (n = 6 ∧ !(releaseStep l n (stepShown n s)).mem.training.isEmpty) then releaseStep l n (stepShown n s)
      else runRelease l r (releaseStep l n (stepShown n s)) :=
  if_neg fun hheld => Bool.false_ne_true ((stepHeld_none (s := stepShown n s) hnone).symm.trans hheld)
/-- With no source asserted step 1 is over at once, and step 2 waits for the fuse load. -/
theorem runRelease_fuseLoad {s : State} (hrails : s.pwr.railsOff = false) (hnone : s.pwr.asserted = []) :
    AtFuseLoad (runRelease 0 (stepsOf 0) s) := by
  have hload : rdf R.FUS_STATUS 0 4 (wrf R.FUS_STATUS 0 4 0 (stepShown 2 (stepShown 1 s))) = 0 := rdf_wrf (by decide) (by decide) ..
  have hwaits : rdf R.FUS_STATUS 0 2 (wrf R.FUS_STATUS 0 4 0 (stepShown 2 (stepShown 1 s))) = 0 := by
    unfold rdf bits at hload ⊢
    omega
  have hfirst : runRelease 0 (stepsOf 0) s = runRelease 0 [2, 3, 4, 5, 6, 7, 8] (stepShown 1 s) :=
    (runRelease_step hnone).trans (if_neg (by omega))
  have hsecond : runRelease 0 [2, 3, 4, 5, 6, 7, 8] (stepShown 1 s) = wrf R.FUS_STATUS 0 4 0 (stepShown 2 (stepShown 1 s)) :=
    (runRelease_step (s := stepShown 1 s) hnone).trans (if_pos (Or.inl ⟨rfl, hwaits⟩))
  obtain ⟨hstep, hbusy⟩ := stepShown_shows (n := 2) (by decide) (stepShown 1 s)
  have hrest : rd R.RST_STATUS (wrf R.FUS_STATUS 0 4 0 (stepShown 2 (stepShown 1 s))) = rd R.RST_STATUS (stepShown 2 (stepShown 1 s)) :=
    rd_wrf_ne (by decide) ..
  rw [hfirst, hsecond]
  refine ⟨hrails, hnone, rfl, ?_, ?_, hload⟩
  · unfold rdf at hstep ⊢
    rwa [hrest]
  · unfold rdb at hbusy ⊢
    rwa [hrest]

/-! ### Releases of sources (R450, R451) -/

section Release
variable {m : Nat} {inp : ReleaseIn} {s : State}

theorem releaseSources_fuseLoad (hd : s.pwr.due = some 0) (hrails : s.pwr.railsOff = false) (hstep : s.pwr.step = 0)
    (hall : ∀ k ∈ s.pwr.asserted, bit k m = true) : AtFuseLoad (releaseSources m inp s) := by
  rw [releaseSources_starts hd hrails hstep fun k hk hbit => absurd (hall k hk) (by simp [hbit])]
  refine runRelease_fuseLoad hrails (List.filter_eq_nil_iff.2 fun k hk => ?_)
  simp [hall k hk]

/-- A source of the reach that stays asserted keeps the release waiting. -/
theorem releaseSources_waits {k l : Nat} (hd : s.pwr.due = some l) (hk : k ∈ s.pwr.asserted) (hbit : bit k m = false)
    (hreach : reachOf k s ≤ l) : releaseSources m inp s = sourcesOff m inp s := by
  have hstays : (sourcesOff m inp s).pwr.asserted.any (fun k => decide (reachOf k (sourcesOff m inp s) ≤ l)) = true :=
    List.any_eq_true.2 ⟨k, List.mem_filter.2 ⟨hk, by simp [hbit]⟩, decide_eq_true hreach⟩
  unfold releaseSources
  extract_lets u
  have hdue : u.pwr.due = some l := hd
  rw [hdue]
  refine if_pos ?_
  rw [Bool.or_eq_true]
  exact Or.inr hstays
/-- With the rails off sources release and nothing more. -/
theorem releaseSources_railsOff (hrails : s.pwr.railsOff = true) : releaseSources m inp s = sourcesOff m inp s := by
  unfold releaseSources
  extract_lets u
  have hoff : u.pwr.railsOff = true := hrails
  split
  · rfl
  · exact if_pos (by rw [hoff, Bool.true_or])

end Release

/-! ### The power stage comes up (R436, R443, R448) -/

theorem supplyAtReset_step (lvl : Nat) (s : State) : (supplyAtReset lvl s).pwr.step = s.pwr.step := by
  unfold supplyAtReset
  split <;> rfl
/-- A reset of the blocks at level 0 leaves the step of the release. -/
theorem resetBlocks_step (s : State) : (resetBlocks 0 s).pwr.step = s.pwr.step := by
  unfold resetBlocks
  extract_lets s1 s2 s3 c s5 m hd ct s4
  have hdose : s1.pwr = s.pwr := (doseAtL2_pwr _).trans
    (((thmAtReset_keeps (m := 163208790068) (hm := rfl) (h := Keeps.refl _ _)).same_pwr rfl).trans
      ((camAtReset_keeps (m := 72057619807862844) (hm := rfl) (h := Keeps.refl _ _)).same_pwr rfl))
  have hregs : s3.pwr = s.pwr := ((resetRegsKeep_keeps (m := 18446744069414584320) (hm := rfl) (h := Keeps.refl _ s2)).same_pwr rfl).trans hdose
  rw [if_neg (by decide), if_pos rfl, supplyAtReset_step]
  show s3.pwr.step = s.pwr.step
  rw [hregs]

/-- A source of reach 0 makes a release of level 0 due, from its start. -/
theorem assertSource_due {k : Nat} {s : State} (hk : k ≤ 9) (h : s.pwr.asserted.contains k = false) (hreach : reachOf k s = 0) :
    (assertSource k s).pwr.due = some 0 ∧ (assertSource k s).pwr.step = 0 := by
  unfold assertSource
  rw [h]
  extract_lets lvl a1 a2 s1 lo s2 s3 s4 s5 cut s6 s7 s8 s9
  have hlvl : lvl = 0 := hreach
  clear_value lvl
  subst hlvl
  rw [if_neg (by simp; omega)]
  have hstart : s6.pwr.due = some 0 ∧ s6.pwr.step = 0 := by
    unfold s6
    split
    · rw [if_pos (Nat.zero_le _)]
      exact ⟨rfl, rfl⟩
    · exact ⟨rfl, rfl⟩
  have hcut : s7.pwr.due = s6.pwr.due ∧ s7.pwr.step = s6.pwr.step := by unfold s7; split <;> exact ⟨rfl, rfl⟩
  have htaken : s8.pwr = s7.pwr := by unfold s8; split <;> rfl
  have hpins : s9.pwr = (resetBlocks 0 s8).pwr :=
    (pinsAtReset_facts 0 (updateEnables (resetBlocks 0 s8))).1.trans (updateEnables_facts (resetBlocks 0 s8)).1
  obtain ⟨-, -, -, hdue, -⟩ := resetBlocks_pwr 0 s8
  rw [wrb_pwr, hpins, hdue, resetBlocks_step, htaken, hcut.1, hcut.2]
  exact hstart

/-- Power comes up with no other source: POR asserts and releases, and the release stands at the fuse load. -/
theorem powerUp_fuseLoad {inp : ReleaseIn} {s : State} (hnone : s.pwr.asserted = []) (hreach : reachOf 0 s = 0) :
    AtFuseLoad (powerUp false false inp s) := by
  unfold powerUp
  extract_lets s1 s2 s3
  have hfree : (modPwr (fun p => { p with railsOff := false, dip := none }) s1).pwr.asserted.contains 0 = false := by
    show s.pwr.asserted.contains 0 = false
    rw [hnone]
    rfl
  obtain ⟨hasserted, -, -, -, hrails, -⟩ := assertSource_facts (by decide) hfree
  obtain ⟨hdue, hstep⟩ := assertSource_due (by decide) hfree hreach
  refine releaseSources_fuseLoad hdue hrails hstep fun k hk => ?_
  have hpor : k ∈ 0 :: s.pwr.asserted := hasserted ▸ hk
  rw [hnone, List.mem_singleton] at hpor
  rw [hpor]
  rfl

/-! ### The commands -/

theorem doBrownoutRelease_fuseLoad {bulk bus : Nat} {inp : ReleaseIn} {s : State} (hbulk : 3300 < bulk) (hbus : 11400 < bus)
    (honly : s.pwr.asserted = [1]) (hd : s.pwr.due = some 0) (hrails : s.pwr.railsOff = false) (hstep : s.pwr.step = 0) :
    AtFuseLoad (doBrownoutRelease bulk bus inp s) := by
  have hload : AtFuseLoad (releaseSources 2 inp (supplyReading bulk bus s)) := by
    refine releaseSources_fuseLoad hd hrails hstep fun k hk => ?_
    have hone : k ∈ s.pwr.asserted := hk
    rw [honly, List.mem_singleton] at hone
    rw [hone]
    rfl
  rw [doBrownoutRelease_railsOn hbulk hbus (by rw [honly]; rfl) hload.1]
  exact hload
theorem doThermtripCool_fuseLoad {inp : ReleaseIn} {s : State} (hrails : s.pwr.railsOff = true) (honly : s.pwr.asserted = [9])
    (hreach : reachOf 0 s = 0) : AtFuseLoad (doThermtripCool inp s) := by
  have hoff : (sourcesOff (2 ^ 9) inp s).pwr.asserted = [] := by
    show s.pwr.asserted.filter (fun k => !bit k (2 ^ 9)) = []
    rw [honly]
    rfl
  have hrel := releaseSources_railsOff (m := 2 ^ 9) (inp := inp) hrails
  rw [doThermtripCool_up (by rw [honly]; rfl) (by rw [hrel, hoff]; rfl), hrel]
  exact powerUp_fuseLoad hoff hreach

end Sys2Proof.Proofs
end


section
/-! Commands with one effect of their own: the envelope, the E-stop, the arbiter, retirement, the servo and PTP (R378, R371, R416, R422,
R490, R493). -/

namespace Sys2Proof.Proofs
open Sys2Proof Sys2Proof.Machine Sys2Proof.Laws

/-! ### The envelope and the E-stop (R490, R493) -/

theorem axisOf_shortAxis (a status : Nat) (s : State) :
    (axisOf (shortAxis a status s) a).prof = none ∧ (axisOf (shortAxis a status s) a).rested = true := by
  unfold shortAxis
  dsimp only
  rw [axisOf_setAxisState, axisOf_modAxis]
  exact ⟨rfl, rfl⟩
theorem shows_shortAxis {n : Nat} (a status : Nat) {s : State} (h : EventShows n s) : EventShows n (shortAxis a status s) :=
  shows_keeps (shortAxis_keeps (m := 1099511629824) rfl (Keeps.refl _ s)) rfl h

theorem doEstopStopTimeout_holds {s : State} (h : estopMask s ≠ 0) :
    (doEstopStopTimeout s).ctl = { s.ctl with motionHold := true } ∧ (doEstopStopTimeout s).out = s.out := by
  have k : Keeps 1099511627776 (modCtl (fun x => { x with motionHold := true }) s) (doEstopStopTimeout s) := by
    unfold doEstopStopTimeout
    rw [if_pos h]
    exact updateEnables_keeps rfl (Keeps.refl _ _)
  exact ⟨k.same_ctl rfl, k.same_out rfl⟩

/-! ### The arbiter (R378) -/

/-- Beside a holder a request waits. -/
theorem doArbRequest_waits {r h : Nat} {s : State} (hr : r < 10) (h2 : rdf R.MEMC_STATUS 0 3 s = 2) (hh : s.arb.holder = some h)
    (hnew : requesting r s = false) (late : Bool) :
    doArbRequest r late s = showArb (modArb (fun a => { a with requests := tset a.requests r s.time.ns }) s) := by
  rw [doArbRequest_served hr h2, requestRaised, if_neg (by simp [hnew])]
  exact if_pos (Or.inl (by rw [modArb_get]; exact congrArg Option.isSome hh))
theorem requesting_raised (r t : Nat) (s : State) : requesting r (modArb (fun a => { a with requests := tset a.requests r t }) s) = true :=
  congrArg Option.isSome ((tget?_tset ..).trans (if_pos rfl))

/-! ### Retirement (R370, R371) -/

/-- A migration begins: the state of it, its registers, and EV_RANK_RETIRED. -/
theorem retireDue_migrates {c p cause l : Nat} {s : State} (hfree : s.mem.migration = none) (hl : logicalFor c p s = some l)
    (hspare : spareOk c s = true) : ∃ d, retireDue c p cause s = postEvent 180 c 1 0 d (wr R.MEMC_MIGRATE_PTR 0
      (wrf R.MEMC_STATUS 12 4 (1 + 2 * c + 8 * l)
        (modMem (fun x => { x with migration := some { channel := c, logical := l, old := p, new := mapSpare c s, cause, start := s.time.ns } }) s))) := by
  unfold retireDue
  rw [hfree, hl]
  exact ⟨_, if_pos hspare⟩

/-! ### The servo (R416) -/

/-- A 64-bit register reads the signed value that was written. -/
theorem sext_toBits {x : Int} (hlo : -2 ^ 63 ≤ x) (hhi : x < 2 ^ 63) : sext 64 (toBits 64 x) = x := by
  unfold sext toBits
  dsimp only
  omega
theorem rdI_wrI {r : RegInfo} (h : r.bytes = 8) {x : Int} (hlo : -2 ^ 63 ≤ x) (hhi : x < 2 ^ 63) (s : State) (i : Nat) :
    rdI r (wrI r x s i) i = x := by
  unfold rdI wrI
  rw [rd_wr (Nat.le_of_eq h), h, Nat.mod_eq_of_lt (toBits_lt 64 x)]
  exact sext_toBits hlo hhi
theorem rd_servoUpdate_offset (θ : Int) (s : State) : rd R.TSY_OFFSET (servoUpdate θ s) = rd R.TSY_OFFSET s := by
  unfold servoUpdate setAdj wrI
  dsimp only
  rw [rd_wr_row (by decide), rd_wr_row (by decide), rd_wr_row (by decide)]
theorem rd_servoState_offset (θ : Int) (s : State) : rd R.TSY_OFFSET (servoState θ s) = rd R.TSY_OFFSET s := by
  unfold servoState
  extract_lets
  split
  · split
    · exact (rd_postEvent rfl ..).trans (rd_setTsyState (q := R.TSY_OFFSET) rfl 2 s 0)
    · rfl
  · split
    · exact (rd_keeps (postUnlocked_only ..) rfl).trans (rd_setTsyState (q := R.TSY_OFFSET) rfl 1 s 0)
    · rfl
  · rfl
theorem e32_postEvent (n src sev w1 : Nat) (d : List (Nat × Nat × Int)) (s : State) : e32 (postEvent n src sev w1 d s) = e32 s :=
  e32_of_time (postEvent_time ..)
theorem e32_postUnlocked (cause : Nat) (s : State) : e32 (postUnlocked cause s) = e32 s :=
  (e32_postEvent ..).trans (e32_of_time (t := holdFlag 1 s) ((holdFlag_keeps (m := 8192) rfl (Keeps.refl _ s)).same_time rfl))
theorem e32_servoState (θ : Int) (s : State) : e32 (servoState θ s) = e32 s := by
  unfold servoState
  extract_lets
  split
  · split
    · exact e32_postEvent ..
    · rfl
  · split
    · exact e32_postUnlocked ..
    · rfl
  · rfl

/-- A sample of a source that drives the servo, with nothing pending, stores its offset and leaves E. -/
theorem doServoSample_stores {θ : Word} {s : State} (hsrc : tsySource s = 1 ∨ tsySource s = 3) (hoff : rdb R.TSY_CTRL 5 s = false)
    (hservo : s.time.pendServo = none) (hhost : s.time.pendHost = []) (h3 : tsyState s ≠ 3) :
    rdI R.TSY_OFFSET (doServoSample θ s) = θ.toInt ∧ e32 (doServoSample θ s) = e32 s := by
  have hsample : doServoSample θ s = servoState θ.toInt (servoUpdate θ.toInt (wrI R.TSY_OFFSET θ.toInt s)) :=
    (if_pos hsrc).trans (servoSample_tracks hoff hservo hhost h3)
  rw [hsample, e32_servoState]
  constructor
  · unfold rdI
    rw [rd_servoState_offset, rd_servoUpdate_offset]
    exact rdI_wrI rfl θ.le_toInt θ.toInt_lt s 0
  · rfl

/-! ### PTP (R422) -/

/-- Without the transparent clock a message leaves on its own port: a Sync with the egress stamp, a Pdelay_Resp with the turnaround. -/
theorem doPtpMessageTx_sends {p kind seq turn : Nat} {corr : Word} {s : State} (hp : p < 2) (hclock : rdb R.TSY_CTRL 9 s = false)
    (h : rdb R.TSY_PORT_CFG 0 s p = true) : ∃ o c, doPtpMessageTx p kind seq corr turn s = sendPtp p kind seq o c s ∧
      (kind = 0 → o = (e32 s / 65536 + rdf R.TSY_PORT_LAT 16 16 s p * 4096) / 65536 ∧
        c = corr.toInt + ((e32 s / 65536 + rdf R.TSY_PORT_LAT 16 16 s p * 4096) % 65536 : Nat)) ∧
      (kind ≠ 0 → kind ≠ 3 → o = 0 ∧ c = corr.toInt) ∧ (kind = 3 → o = 0 ∧ c = corr.toInt + turn) := by
  by_cases h0 : kind = 0
  · subst h0
    exact ⟨_, _, doPtpMessageTx_sync hp hclock h, fun _ => ⟨rfl, rfl⟩, fun x => absurd rfl x, fun x => absurd x (by decide)⟩
  · unfold doPtpMessageTx
    rw [if_neg (Nat.not_le.2 hp)]
    dsimp only
    rw [hclock, if_neg Bool.false_ne_true, h, if_neg (by simp), if_neg h0]
    by_cases h3 : kind = 3
    · exact ⟨_, _, if_pos h3, fun x => absurd x h0, fun _ x => absurd h3 x, fun _ => ⟨rfl, rfl⟩⟩
    · exact ⟨_, _, if_neg h3, fun x => absurd x h0, fun _ _ => ⟨rfl, rfl⟩, fun x => absurd x h3⟩

end Sys2Proof.Proofs
end


section
/-! The dose-link ports (R244, R245, R256, R259, R261): the exchange after a CHECK, telemetry for its stream, and what a timeout records. -/

namespace Sys2Proof.Proofs
open Sys2Proof Sys2Proof.Machine Sys2Proof.Laws

/-! ### Exchanges (R244, R245) -/

/-- An answered kind-1 exchange opens the next one, of kind 2. -/
theorem doTickReplyRx_sync {p t2 t3 : Nat} {s : State} (hp : p < 4) (hst : lnkState p s = 9 ∨ lnkState p s = 10)
    (hok : (portOf s p).failed = false) (hwait : (portOf s p).waiting = true) (hkind : (portOf s p).kind = 1) :
    doTickReplyRx p 1 (portOf s p).exchange t2 t3 s = startExchange p 2 (modPort p (fun x => { x with waiting := false }) s) := by
  unfold doTickReplyRx
  extract_lets x st
  have hst' : st = 9 ∨ st = 10 := hst
  have hok' : x.failed = false := hok
  have hwait' : x.waiting = true := hwait
  have hkind' : x.kind = 1 := hkind
  have hnumber : x.exchange = (portOf s p).exchange := rfl
  rw [if_neg (by simp [hok', hwait', hkind', hnumber, hst', hp])]
  exact if_pos rfl
theorem lnkState_startExchange (p kind : Nat) (s : State) : lnkState p (startExchange p kind s) = lnkState p s :=
  congrArg (bits 0 4) (rd_startExchange p kind s R.LNK_STATUS p)

/-! ### Telemetry (R69, R259) -/

theorem streamOf_modStream (n : Nat) (f : Machine.Stream → Machine.Stream) (s : State) : streamOf (modStream n f s) n = f (streamOf s n) :=
  tget_tmod ({} : Machine.Stream) s.host.streams n f
theorem pumpStream_waits {n fuel : Nat} {s : State} (h : waitingBuffer n s = none) : pumpStream n fuel s = s := by
  cases fuel with
  | zero => rfl
  | succ fuel =>
    unfold pumpStream
    rw [h]
    split
    · contradiction
    · rfl
/-- A record for a stream with no waiting buffer and with room is staged. -/
theorem uploadRecord_stages {n : Nat} {r : List Byte} {s : State} (hnone : waitingBuffer n s = none)
    (hroom : (streamOf s n).stagedBytes + r.length ≤ 262144) : uploadRecord n r s = emit (.upload n r)
      (modStream n (fun x => { x with staged := x.staged ++ [r], stagedBytes := x.stagedBytes + r.length, runDrops := 0, runBytes := 0 }) s) := by
  unfold uploadRecord
  extract_lets x s1
  rw [if_pos (by rw [Bool.or_eq_true]; exact Or.inr (decide_eq_true hroom))]
  exact pumpStream_waits hnone

/-! ### Timeouts (R256, R261) -/

section Timeouts
variable {p : Nat} {q : Pass} {f : Frame} {s : State}

theorem oldestOn_one (hq : s.dose.passes = [q]) (hf : q.frames = [f]) (hport : f.port = p) (hsent : f.sent.isSome = true) :
    oldestOn p s = some (q, f) := by
  unfold oldestOn
  simp [hq, hf, hport, hsent]
theorem resolveTimeout_withholds (q : Pass) (f : Frame) (s : State) :
    ∃ u, resolveTimeout q f s = withholdFrame q f 7 flUncertain (resolve q f false true u) := ⟨_, rfl⟩
/-- A frame blanked with its link has cause 21. -/
theorem resolveBlanked_link (q : Pass) (f : Frame) (s : State) :
    ∃ u, resolveBlanked q f 5 false 0 s = withholdFrame q f 21 0 (resolve q f false false u) := by
  unfold resolveBlanked
  exact ⟨_, rfl⟩
/-- A resolved frame stands in its port's record. -/
theorem resolve_records (hport : f.port = p) (timedOut : Bool) (s : State) : ∃ r ∈ (portOf (resolve q f false timedOut s) p).resolved,
    r.row = f.row ∧ r.line = f.line ∧ r.pass = q.number ∧ r.fired = false ∧ r.timedOut = timedOut :=
  ⟨resolvedAs q f false timedOut, hport ▸ resolve_keepsVerdict .., rfl, rfl, rfl, rfl, rfl⟩

end Timeouts

end Sys2Proof.Proofs
end


section
/-! Samples of the axes other than AX0 (R196, R197): the measured position and the step count follow the edges. -/

namespace Sys2Proof.Proofs
open Sys2Proof Sys2Proof.Machine Sys2Proof.Laws

/-! ### Positions (R15, R195) -/

theorem wrap48_range (x : Int) : -2 ^ 47 ≤ wrap48 x ∧ wrap48 x < 2 ^ 47 := by
  unfold wrap48 sext toBits
  dsimp only
  omega
theorem measPos_setMeas (a : Nat) (x : Int) (s : State) : measPos a (setMeas a x s) = wrap48 x := by
  obtain ⟨hlo, hhi⟩ := wrap48_range x
  exact rdI_wrI rfl (by omega) (by omega) s a
theorem rd_setMeas {q : RegInfo} (h : motApart q R.MOT_POS = true) (a : Nat) (x : Int) (s : State) (j : Nat) : rd q (setMeas a x s) j = rd q s j :=
  rd_wr_mot h _ s a j

/-- A new position of an axis other than AX0 turns to the cameras and to nothing of block MOT or the axes. -/
theorem newPosition_aside {a : Nat} (ha : 1 ≤ a) (old : Int) (sample : Bool) (s : State) :
    Keeps 72646958040355516 s (newPosition a old sample s) := by
  unfold newPosition
  extract_lets new s1 s2
  have hcompared : Keeps 72646958040355516 s s1 := camCompare_keeps rfl (Keeps.refl _ s)
  have hsampled : Keeps 72646958040355516 s s2 := by
    unfold s2
    split
    · exact finishReady_keeps rfl (camSample_keeps rfl hcompared)
    · exact hcompared
  split
  · exact Keeps.refl _ s
  · split
    · rw [if_neg (by omega)]
      exact hsampled
    · exact hcompared
theorem rd_mot_newPosition {a : Nat} (ha : 1 ≤ a) {q : RegInfo} (hq : motRow q = true) (old : Int) (sample : Bool) (s : State) (j : Nat) :
    rd q (newPosition a old sample s) j = rd q s j := rd_mot_keeps (newPosition_aside ha old sample s) rfl hq j

/-! ### An encoder (R196, R310) -/

/-- A following error within the limit leaves the registers of the axes but its peak. -/
theorem rd_followCheck_within {a : Nat} {s : State} (h : (pdiff (measPos a s) (cmdPos a s)).natAbs ≤ rd R.MOT_FOLLOW_LIMIT s a) {q : RegInfo}
    (hq : motApart q R.MOT_FOLLOW_PEAK = true) (j : Nat) : rd q (followCheck a s) j = rd q s j := by
  have hpeak : ∀ v, ∀ {r : RegInfo}, motApart r R.MOT_FOLLOW_PEAK = true → ∀ j, rd r (peak R.MOT_FOLLOW_PEAK v s a) j = rd r s j := fun v r hr j => by
    rcases peak_cases R.MOT_FOLLOW_PEAK v s a with e | e
    · rw [e]
    · rw [e, rd_wr_mot hr]
  unfold followCheck
  split
  · rfl
  · extract_lets err s1
    have hlimit : rd R.MOT_FOLLOW_LIMIT s1 a = rd R.MOT_FOLLOW_LIMIT s a := hpeak _ rfl a
    rw [if_neg (by rw [hlimit]; exact Nat.not_lt.2 h)]
    exact hpeak _ hq j

/-- A count of an encoder axis other than AX0 moves its measured position by 256 units. -/
theorem doPositionSample_moves {a : Nat} {up : Bool} {s : State} (h1 : 1 ≤ a) (h6 : a < 6) (hsrc : axisSource a s = 0)
    (hok : rdb R.MOT_FAULT 1 s a = false)
    (hfollow : (pdiff (wrap48 (measPos a s + if up = rdb R.MOT_CFG 3 s a then -256 else 256)) (cmdPos a s)).natAbs ≤ rd R.MOT_FOLLOW_LIMIT s a) :
    measPos a (doPositionSample a up false s) = wrap48 (measPos a s + if up = rdb R.MOT_CFG 3 s a then -256 else 256) := by
  have hdir : (if up != rdb R.MOT_CFG 3 s a then (256 : Int) else -256) = if up = rdb R.MOT_CFG 3 s a then -256 else 256 := by
    cases up <;> cases rdb R.MOT_CFG 3 s a <;> rfl
  obtain ⟨x, hx⟩ : ∃ x, x = measPos a s + if up = rdb R.MOT_CFG 3 s a then (-256 : Int) else 256 := ⟨_, rfl⟩
  obtain ⟨w, hw⟩ : ∃ w, w = newPosition a (measPos a s) true (setMeas a x s) := ⟨_, rfl⟩
  rw [← hx] at hfollow ⊢
  have hrows : ∀ {q : RegInfo}, motApart q R.MOT_POS = true → rd q w a = rd q s a := fun hq => by
    rw [hw, rd_mot_newPosition h1 (motRow_of_apart hq), rd_setMeas hq]
  have hmeas : measPos a w = wrap48 x := by
    rw [← measPos_setMeas a x s, hw]
    exact congrArg (sext 64) (rd_mot_newPosition h1 rfl _ _ _ a)
  have hcmd : cmdPos a w = cmdPos a s := congrArg (sext 64) (hrows rfl)
  have hwithin : (pdiff (measPos a w) (cmdPos a w)).natAbs ≤ rd R.MOT_FOLLOW_LIMIT w a := by
    rw [hmeas, hcmd, hrows rfl]
    exact hfollow
  rw [doPositionSample_count h6 hsrc hok, hdir, ← hx, ← hw, ← hmeas]
  exact congrArg (sext 64) (rd_followCheck_within hwithin rfl a)

/-! ### The step input (R197, R311) -/

theorem endOverrun_time (a : Nat) (s : State) : (endOverrun a s).time = s.time := by
  unfold endOverrun
  dsimp only
  split
  · rfl
  · exact postEvent_time ..
theorem stepPos_endOverrun (a : Nat) (s : State) : (axisOf (endOverrun a s) a).stepPos = (axisOf s a).stepPos := by
  unfold endOverrun
  dsimp only
  split
  · rfl
  · rw [axisOf_postEvent, axisOf_modAxis]

/-- An edge moves the step count by one and takes its direction and its time; what follows touches neither the axes nor their sources. -/
theorem stepEdge_counts {a : Nat} (ha : 1 ≤ a) (dir bad : Bool) {s : State} (hsrc : axisSource a s = 2) :
    (axisOf (stepEdge a dir bad s) a).stepPos = (axisOf s a).stepPos + (if dir then -1 else 1) ∧
      (axisOf (stepEdge a dir bad s) a).stepDir = dir ∧ (axisOf (stepEdge a dir bad s) a).stepNs = s.time.ns ∧
      ∀ b, axisSource b (stepEdge a dir bad s) = axisSource b s := by
  unfold stepEdge
  rw [if_neg (by omega)]
  extract_lets x old period fast isOver s1 s2 s3 p
  have hstart : s1.time = s.time ∧ (axisOf s1 a).stepPos = (axisOf s a).stepPos ∧ ∀ b, axisSource b s1 = axisSource b s := by
    unfold s1
    split
    · exact ⟨rfl, rfl, fun _ => rfl⟩
    · exact ⟨endOverrun_time a s, stepPos_endOverrun a s, fun b => congrArg (bits 0 2) (rd_mot_endOverrun (q := R.MOT_CFG) rfl a s b)⟩
  obtain ⟨htime, hpos, hsource⟩ := hstart
  have hcounted : s3.mot = s2.mot ∧ ∀ b, axisSource b s3 = axisSource b s := by
    unfold s3
    split
    · exact ⟨bumpMot_mot .., fun b => (congrArg (bits 0 2) (rd_mot_bumpMot (q := R.MOT_CFG) rfl a 139 _ s2 b)).trans (hsource b)⟩
    · exact ⟨rfl, hsource⟩
  obtain ⟨hmot, hsource3⟩ := hcounted
  have hplaced := newPosition_aside ha old true (setCmd a p (setMeas a p s3))
  have haxis : axisOf (newPosition a old true (setCmd a p (setMeas a p s3))) a = axisOf s2 a := by
    rw [axisOf_mot (hplaced.same_mot rfl)]
    exact axisOf_mot hmot a
  rw [haxis]
  unfold s2
  rw [axisOf_modAxis]
  refine ⟨congrArg (· + _) hpos, rfl, congrArg TimeState.ns htime, fun b => ?_⟩
  rw [← hsource3 b]
  refine congrArg (bits 0 2) ((rd_mot_keeps hplaced rfl rfl b).trans ?_)
  exact (rd_wr_mot rfl _ _ a b).trans (rd_wr_mot rfl _ _ a b)

/-- Where one axis alone follows the step input, an edge is that axis's edge. -/
theorem stepInputEdge_only {a : Nat} (h1 : 1 ≤ a) (h6 : a < 6) (dir bad : Bool) {s : State} (hsrc : axisSource a s = 2)
    (hother : ∀ b < 6, b ≠ a → axisSource b s ≠ 2) :
    each [0, 1, 2, 3, 4, 5] (fun b w => stepEdge b dir bad w) s = stepEdge a dir bad s := by
  obtain ⟨-, -, -, hkept⟩ := stepEdge_counts h1 dir bad hsrc
  have hbefore : ∀ b ∈ List.range a, stepEdge b dir bad s = s := fun b hb => by
    have hlt := List.mem_range.1 hb
    exact if_pos (hother b (by omega) (by omega))
  have hafter : ∀ b ∈ (List.range 6).drop (a + 1), stepEdge b dir bad (stepEdge a dir bad s) = stepEdge a dir bad s := fun b hb => by
    have hgt : a < b ∧ b < 6 := by
      rw [List.range_eq_range', List.drop_range', List.mem_range'_1] at hb
      omega
    exact if_pos (by rw [hkept b]; exact hother b hgt.2 (by omega))
  rw [axes_split a h6, each_append_cons, each_id hbefore, each_id hafter]

end Sys2Proof.Proofs
end


section
/-! The helper DMA (R389, R394): the last beat of a descriptor outside a chain is written, and the channel is idle. -/

namespace Sys2Proof.Proofs
open Sys2Proof Sys2Proof.Machine Sys2Proof.Laws

/-- A register of a block stands, in every place of its row, through what leaves the block alone. -/
theorem rd_block_keeps {m : Nat} {s t : State} (k : Keeps m s t) {q : RegInfo} (hq : oneBlock q = true) (hm : off m (32 + q.base / 65536 % 32))
    (j : Nat) : rd q t j = rd q s j := rd_keeps k (by rw [regAddr_block hq]; exact hm)
theorem shows_setCh {n c st : Nat} {s : State} (h : EventShows n s) : EventShows n (setCh c st s) :=
  shows_keeps (setCh_keeps (m := 35184372088832) rfl (Keeps.refl _ s)) rfl h
/-- UDMA_DONE is posted where the descriptor asks for it. -/
theorem postDone_shows {c : Nat} {s : State} (h : (workOf c s).irq = true) (r : Nat) : EventShows 192 (postDone c r s) := by
  unfold postDone
  dsimp only
  rw [if_pos (by simp [h])]
  exact posted ..

/-- Outside a chain a descriptor that is through ends its channel. -/
theorem finishWork_ends {c : Nat} {s : State} (h : (workOf c s).chain = false) : finishWork c s = setCh c 0 (postDone c 0 (setResult c 0 s)) := by
  unfold finishWork
  dsimp only
  exact if_pos (by rw [h]; rfl)

/-- One beat has written the rest of the count to SRAM. -/
def lastBeat (c dst : Nat) (b : List Byte) (s : State) : State := wr R.UDMA_COUNT 0 (writeSram dst b s) c

section LastBeat
variable {c n dst : Nat} {b : List Byte} {s : State}

theorem lastBeat_count (c dst : Nat) (b : List Byte) (s : State) : rd R.UDMA_COUNT (lastBeat c dst b s) c = 0 :=
  (rd_wr (by decide) ..).trans (Nat.zero_mod _)
theorem chState_lastBeat (c dst : Nat) (b : List Byte) (s : State) : chState c (lastBeat c dst b s) = chState c s :=
  (rdf_wr_row (by decide) ..).trans (congrArg (bits 0 2) (rd_block_keeps (writeSram_keeps (m := 17592186045184) rfl (Keeps.refl _ s)) (by decide) rfl c))
theorem workOf_lastBeat (c dst : Nat) (b : List Byte) (s : State) : workOf c (lastBeat c dst b s) = workOf c s := by
  unfold lastBeat writeSram workOf
  rw [wr_mem]
  dsimp only
  split <;> rfl

/-- An unpaced channel whose count fits one beat into SRAM moves it. -/
theorem runBeats_last (hrun : chState c s = 1) (hpace : paceQueue c s = 0) (hcount : rd R.UDMA_COUNT s c = n) (hn : 0 < n)
    (hspace : (workOf c s).dstSpace = 1) (hdst : rd R.UDMA_DST s c + ((workOf c s).total - n) = dst) (hbeat : n ≤ 64 - dst % 64)
    (hin : dst + n ≤ sramSize) (hfits : dst + (swapBytes (workOf c s).swap b).length ≤ sramSize)
    (hread : readBeat c (workOf c s) (rd R.UDMA_SRC s c + ((workOf c s).total - n)) n s = (false, b, s)) (fuel level : Nat) :
    runBeats c (fuel + 1) level s = lastBeat c dst (swapBytes (workOf c s).swap b) s := by
  have hwrite : writeBeat (workOf c s) dst (swapBytes (workOf c s).swap b) s = writeSram dst (swapBytes (workOf c s).swap b) s :=
    (if_neg (by omega)).trans (if_pos hfits)
  have hgood : ¬(false || ((workOf c s).dstSpace = 0 && (decide (dst + n > dramSize) || rmwBad dst n s != [])) ||
      ((workOf c s).dstSpace ≠ 0 && decide (dst + n > sramSize))) = true := by
    simp [hspace]
    omega
  unfold runBeats
  rw [hcount, if_neg (by omega)]
  extract_lets w moved a dst' n' q
  have hmoved : dst' = dst := hdst
  have hall : n' = n := by
    unfold n'
    rw [hmoved]
    exact Nat.min_eq_right hbeat
  have hq : q = 0 := hpace
  rw [hq, if_neg (by simp), hall, hmoved]
  rw [show readBeat c w a n s = (false, b, s) from hread]
  dsimp only
  rw [if_neg hgood, if_neg (by simp), Nat.sub_self, hwrite]
  exact runBeats_through (lastBeat_count ..) _ _

/-- The channel's end after the last beat: idle, nothing left, memory as the beat has left it, and UDMA_DONE where it was asked for. -/
theorem finishWork_last (hc : c ≤ 15) (hchain : (workOf c s).chain = false) :
    chState c (finishWork c (lastBeat c dst b s)) = 0 ∧ rdb R.UDMA_BUSY c (finishWork c (lastBeat c dst b s)) = false ∧
      rd R.UDMA_COUNT (finishWork c (lastBeat c dst b s)) c = 0 ∧ (finishWork c (lastBeat c dst b s)).mem = (writeSram dst b s).mem ∧
      ((workOf c s).irq = true → EventShows 192 (finishWork c (lastBeat c dst b s))) := by
  have hwork := workOf_lastBeat c dst b s
  have hcount : rd R.UDMA_COUNT (setCh c 0 (postDone c 0 (setResult c 0 (lastBeat c dst b s)))) c = 0 := by
    refine (rd_wr_row (by decide) _ _ _ c).trans ((rd_wr_row (by decide) _ _ _ c).trans ((rd_wr_row (by decide) _ _ _ c).trans ?_))
    rw [rd_block_keeps (postDone_keeps (m := 25769803828) rfl (Keeps.refl _ _)) (by decide) rfl c, setResult]
    exact (rd_wr_row (by decide) _ _ _ c).trans (lastBeat_count ..)
  rw [finishWork_ends (by rw [hwork, hchain])]
  refine ⟨chState_setCh (by decide) .., busy_setCh hc .., hcount, postDone_mem .., fun hirq => shows_setCh (postDone_shows ?_ 0)⟩
  rw [← hirq, ← hwork]
  rfl

/-- The command on a channel whose last beat it is. -/
theorem doUdmaDescriptorDone_last (hc : c ≤ 15) (hrun : chState c s = 1)
    (hbeat : ∀ fuel level, runBeats c (fuel + 1) level s = lastBeat c dst b s) (level : Nat) :
    doUdmaDescriptorDone c level s = finishWork c (lastBeat c dst b s) := by
  unfold doUdmaDescriptorDone
  rw [if_neg (by omega), hbeat]
  exact if_pos ⟨(chState_lastBeat ..).trans hrun, lastBeat_count ..⟩

end LastBeat

end Sys2Proof.Proofs
end


section
/-! Frames of a pass (R215): the frame of an event with one row is appended and the event is built; a late event's rows are dropped. -/

namespace Sys2Proof.Proofs
open Sys2Proof Sys2Proof.Machine Sys2Proof.Laws

/-! ### The pass in execution -/

/-- The pass in execution is the same one, with the same frames. -/
structure PassStands (s t : State) : Prop where
  cur : ∀ p, curPass s = some p → ∃ q, curPass t = some q ∧ q.index = p.index ∧ q.frames = p.frames

theorem PassStands.refl (s : State) : PassStands s s := ⟨fun p h => ⟨p, h, rfl, rfl⟩⟩
theorem PassStands.trans {s t u : State} (h : PassStands s t) (k : PassStands t u) : PassStands s u := ⟨fun p hp => by
  obtain ⟨q, hq, hindex, hframes⟩ := h.cur p hp
  obtain ⟨r, hr, hindex', hframes'⟩ := k.cur q hq
  exact ⟨r, hr, hindex'.trans hindex, hframes'.trans hframes⟩⟩
theorem PassStands.of_dose {s t : State} (h : t.dose.passes = s.dose.passes) : PassStands s t := ⟨fun p hp => by
  refine ⟨p, ?_, rfl, rfl⟩
  unfold curPass at hp ⊢
  rw [h, hp]⟩
theorem PassStands.modPass {f : Pass → Pass} (hf : ∀ q, (f q).executing = q.executing ∧ (f q).index = q.index ∧ (f q).frames = q.frames)
    (s : State) : PassStands s (modPass f s) := ⟨fun p hp =>
  ⟨f p, curPass_modPass hp fun q e => (hf q).1.trans e, (hf p).2.1, (hf p).2.2⟩⟩

theorem bumpBsc_dose (r : RegInfo) (n : Nat) (s : State) : (bumpBsc r n s).dose = s.dose := by
  unfold bumpBsc
  split
  · rfl
  · exact bump_part State.dose (fun _ _ => rfl) (fun _ => postEvent_dose ..) s
theorem passStands_postEvent (n src sev w1 : Nat) (d : List (Nat × Nat × Int)) (s : State) : PassStands s (postEvent n src sev w1 d s) :=
  PassStands.of_dose (congrArg DoseState.passes (postEvent_dose ..))
theorem passStands_bumpBsc (r : RegInfo) (n : Nat) (s : State) : PassStands s (bumpBsc r n s) :=
  PassStands.of_dose (congrArg DoseState.passes (bumpBsc_dose r n s))
theorem passStands_countClamps (i : RowIn) (beams : List Beam) (s : State) : PassStands s (countClamps i beams s) := by
  refine each_relates PassStands.refl (fun _ _ _ => PassStands.trans) (fun c _ s => ?_) s
  extract_lets mine u
  have hcounted : PassStands s u := passStands_bumpBsc ..
  clear_value u mine
  cases mine with
  | nil => exact PassStands.refl s
  | cons h hits =>
    refine hcounted.trans ?_
    dsimp only
    split
    · exact PassStands.refl _
    · split
      · exact PassStands.refl _
      · exact (PassStands.modPass (f := fun q => { q with clampPosted := setBit c true q.clampPosted }) (fun _ => ⟨rfl, rfl, rfl⟩) u).trans
          (passStands_postEvent ..)
theorem passStands_takeOffers (g : Geometry) (i : RowIn) (l : List (Nat × List Nat × Bool)) (s : State) : PassStands s (takeOffers g i l s) := by
  unfold takeOffers
  dsimp only
  split
  · exact PassStands.refl s
  · exact PassStands.of_dose rfl

/-! ### A frame is built (R215) -/

theorem factorUpdate_none {s : State} (ht : s.dose.bsc.newT = none) (hv : s.dose.bsc.newV = none) : factorUpdate s = s := by
  unfold factorUpdate
  rw [ht]
  dsimp only
  rw [hv]
/-- The bad entries that a row would meet are those of the active bank, which the dwell does not change. -/
theorem memoryBad_dwell (g : Geometry) (i : RowIn) (v : Nat) (s : State) : memoryBad g i (wr R.PLC_DWELL v s) = memoryBad g i s := by
  have hbank : activeBank (wr R.PLC_DWELL v s) = activeBank s := rdf_wr_ne (by decide) ..
  unfold memoryBad
  rw [hbank]
  rfl
/-- A row that nothing blanks adds its frame to the pass. -/
theorem buildRow_appends {p : Pass} {m r n : Nat} {s : State} (hp : curPass s = some p) (hcut : p.cut = none) (hports : p.blankPorts = [])
    (hmem : memoryBad (geom s) (rowIn p r n (dwellAt p.dir (firePos (geom s) p r n s) s) s) s = false) :
    ∃ q f, curPass (buildRow p m [] (r, n) s) = some q ∧ q.index = p.index ∧ q.frames = p.frames ++ [f] ∧ f.row = r ∧ f.line = n ∧
      f.event = m ∧ f.port = (rowAt (geom s) r).port ∧ f.sent = none ∧ f.blank = false := by
  unfold buildRow
  extract_lets g e fire dwell i s1 frame faulty l taken beams s2
  rw [if_neg (by rw [hcut]; decide), if_neg (by simp [hports]), if_neg (by rw [memoryBad_dwell]; exact fun x => Bool.false_ne_true (hmem.symm.trans x))]
  rw [List.find?_nil]
  have hstands : PassStands s s2 :=
    (PassStands.of_dose (s := s) (t := s1) rfl).trans ((passStands_takeOffers g i l s1).trans (passStands_countClamps i beams _))
  obtain ⟨q, hq, hindex, hframes⟩ := hstands.cur p hp
  exact ⟨_, frame beams taken, curPass_modPass (f := fun q => { q with frames := q.frames ++ [frame beams taken] }) hq (fun _ e => e), hindex,
    congrArg (· ++ [frame beams taken]) hframes, rfl, rfl, rfl, rfl, rfl, rfl⟩
/-- The event counts as built. -/
theorem curPass_eventBuilt {q : Pass} {m : Nat} {s : State} (h : curPass s = some q) :
    ∃ q', curPass (eventBuilt m s) = some q' ∧ q'.index = q.index ∧ m ∈ q'.built ∧ q'.frames = q.frames := by
  unfold eventBuilt
  refine ⟨_, curPass_modPass h (fun _ e => e), rfl, ?_, rfl⟩
  dsimp only
  split
  case isTrue hbuilt => simpa using hbuilt
  case isFalse => exact List.mem_cons_self

/-! ### A late event (R215) -/

theorem curPass_mem {p : Pass} {s : State} (h : curPass s = some p) : p ∈ s.dose.passes := List.mem_of_find?_eq_some h
theorem mem_modPassOf_of_mem {p : Pass} {s : State} (h : p ∈ s.dose.passes) (f : Pass → Pass) : f p ∈ (modPassOf p.index f s).dose.passes :=
  List.mem_map.2 ⟨p, h, if_pos rfl⟩

end Sys2Proof.Proofs
end


section
/-! The start of a pass (R113): the checks that come before it touch neither the geometry nor the limits that it is judged by, and the
pass stays in execution. -/

namespace Sys2Proof.Proofs
open Sys2Proof Sys2Proof.Machine Sys2Proof.Laws

/-! ### What a start is judged by -/

/-- The settings of block PLC that the geometry of a pass is judged by (R204). -/
def placementRows : List RegInfo := [R.PLC_PIXEL_PITCH, R.PLC_DIR_OFFSET_FWD, R.PLC_DIR_OFFSET_REV]

/-- Block MOT, placement's settings and the geometry stand, and the pass of index `i` stays in execution. -/
structure StartStands (i : Nat) (s t : State) : Prop where
  mot : ∀ q, motRow q = true → ∀ j, rd q t j = rd q s j
  plc : ∀ q ∈ placementRows, rd q t = rd q s
  geometry : t.dose.bsc.geometry = s.dose.bsc.geometry
  runs : (∃ q ∈ s.dose.passes, q.index = i ∧ q.executing = true) → ∃ q ∈ t.dose.passes, q.index = i ∧ q.executing = true

section Stands
variable {i : Nat} {s t u : State}

theorem StartStands.refl (i : Nat) (s : State) : StartStands i s s := ⟨fun _ _ _ => rfl, fun _ _ => rfl, rfl, id⟩
theorem StartStands.trans (h : StartStands i s t) (k : StartStands i t u) : StartStands i s u :=
  ⟨fun q hq j => (k.mot q hq j).trans (h.mot q hq j), fun q hq => (k.plc q hq).trans (h.plc q hq), k.geometry.trans h.geometry,
    fun hs => k.runs (h.runs hs)⟩
/-- What leaves blocks MOT and PLC and the dose path alone. -/
theorem StartStands.of_keeps {m : Nat} (k : Keeps m s t) (hmot : off m 40) (hplc : off m 52) (hdose : off m 12) : StartStands i s t where
  mot q hq j := rd_mot_keeps k hmot hq j
  plc q hq := by
    have hblock : ∀ q ∈ placementRows, regAddr q / 65536 % 32 = 20 := by decide
    exact rd_keeps k (by rw [hblock q hq]; exact hplc)
  geometry := by rw [k.same_dose hdose]
  runs := by
    rw [k.same_dose hdose]
    exact id
theorem StartStands.modPassOf (f : Pass → Pass) (hf : ∀ q, (f q).index = q.index ∧ (f q).executing = q.executing) (n : Nat) (s : State) :
    StartStands i s (modPassOf n f s) where
  mot _ _ _ := rfl
  plc _ _ := rfl
  geometry := rfl
  runs := fun ⟨q, hq, hi, he⟩ => by
    refine ⟨if q.index = n then f q else q, List.mem_map.2 ⟨q, hq, rfl⟩, ?_⟩
    split
    · exact ⟨(hf q).1.trans hi, (hf q).2.trans he⟩
    · exact ⟨hi, he⟩
theorem StartStands.modPass (f : Pass → Pass) (hf : ∀ q, (f q).index = q.index ∧ (f q).executing = q.executing) (s : State) :
    StartStands i s (modPass f s) where
  mot _ _ _ := rfl
  plc _ _ := rfl
  geometry := rfl
  runs := fun ⟨q, hq, hi, he⟩ => by
    refine ⟨if q.executing then f q else q, List.mem_map.2 ⟨q, hq, rfl⟩, ?_⟩
    rw [if_pos he]
    exact ⟨(hf q).1.trans hi, (hf q).2.trans he⟩
theorem StartStands.post (n src sev w1 : Nat) (d : List (Nat × Nat × Int)) (s : State) : StartStands i s (postEvent n src sev w1 d s) :=
  StartStands.of_keeps (postEvent_only ..) rfl rfl rfl

theorem StartStands.geom (h : StartStands i s t) : geom t = geom s := by
  unfold Machine.geom geometry?
  rw [h.geometry]
theorem StartStands.external (h : StartStands i s t) : external t = external s :=
  congrArg (fun v => bits 0 2 v == 2) (h.mot R.MOT_CFG rfl 0)
theorem StartStands.bar (h : StartStands i s t) (p : Pass) : geometryBar p t = geometryBar p s := by
  have henv : ∀ a, envOk a t = envOk a s := fun a => by
    unfold envOk
    rw [h.mot R.MOT_ENV_VMAX rfl, h.mot R.MOT_ENV_AMAX rfl, h.mot R.MOT_ENV_JMAX rfl]
  have hpitch : pitchOf t = pitchOf s := h.plc R.PLC_PIXEL_PITCH (by decide)
  have hoffset : ∀ q ∈ placementRows, rdI q t = rdI q s := fun q hq => by
    unfold rdI
    rw [h.plc q hq]
  have hrow : badRow p t = badRow p s := by
    unfold badRow
    rw [h.geom, hpitch]
    split
    · rw [hoffset R.PLC_DIR_OFFSET_FWD (by decide)]
    · rw [hoffset R.PLC_DIR_OFFSET_REV (by decide)]
  unfold geometryBar
  rw [henv, henv, hrow]

end Stands

/-! ### The checks (R179 to R186, R222, R231) -/

section Checks
variable (i : Nat)

theorem startStands_updateLead (s : State) : StartStands i s (updateLead s) := by
  unfold updateLead
  split
  · exact StartStands.of_keeps (m := 281474976710656) (wrb_keeps rfl rfl rfl (wr_keeps rfl rfl (Keeps.refl _ s))) rfl rfl rfl
  · extract_lets lead low running s1 s2
    have hshown : StartStands i s s1 :=
      StartStands.of_keeps (m := 281474976710656) (wrb_keeps rfl rfl rfl (wr_keeps rfl rfl (Keeps.refl _ s))) rfl rfl rfl
    have hposted : StartStands i s1 s2 := by
      unfold s2
      split
      · exact StartStands.post ..
      · exact StartStands.refl ..
    exact (hshown.trans hposted).trans
      (StartStands.modPassOf (fun q => { q with leadLow := low && (running || q.leadLow) }) (fun _ => ⟨rfl, rfl⟩) _ s2)
theorem startStands_showPass (s : State) : StartStands i s (showPass s) := by
  unfold showPass
  extract_lets idle s1 s2
  have h1 : Keeps 10414574138294288 s s1 := by
    unfold s1
    split
    · exact wrf_keeps rfl rfl rfl (wrf_keeps rfl rfl rfl (Keeps.refl _ s))
    · exact wrf_keeps rfl rfl rfl (wrb_keeps rfl rfl rfl (wrf_keeps rfl rfl rfl (wrf_keeps rfl rfl rfl (Keeps.refl _ s))))
  have h2 : Keeps 10414574138294288 s s2 := by
    unfold s2
    split
    · exact h1
    · exact wrf_keeps rfl rfl rfl (wrf_keeps rfl rfl rfl (wrf_keeps rfl rfl rfl h1))
  exact (StartStands.of_keeps (intakeFetch_keeps rfl h2) rfl rfl rfl).trans ((startStands_updateLead i _).trans
    (StartStands.of_keeps (m := 18014398509481992) (showCaps_keeps rfl (Keeps.refl _ _)) rfl rfl rfl))
theorem startStands_bumpBsc (r : RegInfo) (n : Nat) (s : State) (hr : regMask r ||| 1125925676646452 = 1125925676646452) (hk : oneBlock r = true) :
    StartStands i s (bumpBsc r n s) := by
  have hcounted : Keeps 1125925676646452 s (bumpBsc r n s) := bumpBsc_keeps rfl hr hk (Keeps.refl _ s)
  exact StartStands.of_keeps hcounted rfl rfl rfl
theorem startStands_postNoBeam (p : Pass) (cause : Nat) (l : List (Nat × Nat)) (s : State) : StartStands i s (postNoBeam p cause l s) :=
  StartStands.of_keeps (m := 25769803828) (postNoBeam_keeps rfl (Keeps.refl _ s)) rfl rfl rfl
theorem startStands_splitCheck (p : Pass) (s : State) : StartStands i s (splitCheck p s) := by
  unfold splitCheck
  extract_lets g xs bad dead s1
  have hcounted : StartStands i s s1 :=
    (StartStands.modPassOf (fun q => { q with ignored := bad }) (fun _ => ⟨rfl, rfl⟩) p.index s).trans
      (startStands_bumpBsc i R.BSC_SPLIT_FALLBACK bad.length _ rfl (by decide))
  exact hcounted.trans ((startStands_postNoBeam ..).trans (startStands_postNoBeam ..))
theorem startStands_stitchCheck (p : Pass) (s : State) : StartStands i s (stitchCheck p s) :=
  StartStands.of_keeps (m := 25769803828) (stitchCheck_keeps rfl (Keeps.refl _ s)) rfl rfl rfl
theorem startStands_preheatCheck (p : Pass) (s : State) : StartStands i s (preheatCheck p s) := by
  unfold preheatCheck
  split
  · exact (StartStands.modPassOf (fun q => { q with preheat := true }) (fun _ => ⟨rfl, rfl⟩) p.index s).trans
      (StartStands.of_keeps (m := 1125899906842624) (wrb_keeps rfl rfl rfl (Keeps.refl _ _)) rfl rfl rfl)
  · split
    · exact (startStands_bumpBsc i R.BSC_PREHEAT_DENIED 1 s rfl (by decide)).trans (StartStands.post ..)
    · exact StartStands.refl ..
/-- A throttle shows itself in PLC_STATUS and PLC_EFF_DWELL, which are no settings. -/
theorem startStands_throttle (src port : Nat) (inPass : Bool) (s : State) : StartStands i s (throttle src port inPass s) := by
  unfold throttle
  split
  split
  · exact StartStands.refl ..
  · extract_lets s1 running
    refine StartStands.trans (t := s1) ⟨fun q hq j => ?_, fun q hq => ?_, rfl, id⟩ (StartStands.post ..)
    · exact rd_mot_keeps (m := 4503599627370496) (wr_keeps rfl rfl (wrf_keeps rfl rfl rfl (Keeps.refl _ s))) rfl hq j
    · have hapart : ∀ q ∈ placementRows, rowsDisjoint q R.PLC_EFF_DWELL = true ∧ rowsDisjoint q R.PLC_STATUS = true := by decide
      exact (rd_wr_row (hapart q hq).1 _ _ _ 0).trans (rd_wr_row (hapart q hq).2 _ _ _ 0)
theorem startStands_setScale (src port v : Nat) (s : State) : StartStands i s (setScale src port v false s) :=
  StartStands.trans (t := modPlc (fun c => { c with scales := tset c.scales (8 * src + port % 8) v }) s)
    ⟨fun _ _ _ => rfl, fun _ _ => rfl, rfl, id⟩ (startStands_throttle ..)
theorem startStands_slowPort (p scale : Nat) (s : State) : StartStands i s (slowPort p scale false s) := by
  unfold slowPort
  split
  · exact StartStands.modPass (fun q => { q with blankPorts := if q.blankPorts.contains p then q.blankPorts else p :: q.blankPorts })
      (fun _ => ⟨rfl, rfl⟩) s
  · exact startStands_setScale ..
theorem startStands_slowTest (k : Nat) (s : State) : StartStands i s (slowTest false k s) := by
  unfold slowTest
  extract_lets s1 cap
  have hshown : StartStands i s s1 := StartStands.of_keeps (m := 18014398509481992) (showCap_keeps rfl (Keeps.refl _ s)) rfl rfl rfl
  refine hshown.trans ?_
  split
  · exact StartStands.refl ..
  · split
    · exact startStands_slowPort ..
    · exact startStands_setScale ..
theorem startStands_slowCheck (s : State) : StartStands i s (slowCheck s) :=
  each_relates (StartStands.refl i) (fun _ _ _ => StartStands.trans) (fun k _ => startStands_slowTest i k) s

end Checks

/-! ### The start (R113) -/

/-- The checks of a start, with the pass in execution. -/
def startChecked (p : Pass) (s : State) : State :=
  slowCheck (preheatCheck p (stitchCheck p (splitCheck p (showPass (modPassOf p.index (fun q => { q with executing := true }) s)))))
theorem startChecked_stands (p : Pass) (s : State) :
    StartStands p.index (modPassOf p.index (fun q => { q with executing := true }) s) (startChecked p s) :=
  (startStands_showPass ..).trans ((startStands_splitCheck ..).trans ((startStands_stitchCheck ..).trans
    ((startStands_preheatCheck ..).trans (startStands_slowCheck ..))))
/-- With the module's own profile a pass that nothing bars and that owes nothing starts with its checks alone. -/
theorem startExecution_clean {p : Pass} {s : State} (hbar : geometryBar p s = none) (hmend : p.mend = false) (hmissed : p.missed = [])
    (hext : external s = false) : startExecution p s = startChecked p s := by
  have hstands := startChecked_stands p s
  have hfree : geometryBar p (startChecked p s) = none := (hstands.bar p).trans hbar
  have hown : external (startChecked p s) = false := hstands.external.trans hext
  unfold startExecution
  dsimp only
  rw [← startChecked, hfree]
  dsimp only
  rw [hmend, hmissed, if_neg Bool.false_ne_true]
  exact if_neg fun x => Bool.false_ne_true (hown.symm.trans x)
theorem startChecked_runs {p : Pass} {s : State} (h : p ∈ s.dose.passes) :
    ∃ q ∈ (startChecked p s).dose.passes, q.index = p.index ∧ q.executing = true :=
  (startChecked_stands p s).runs ⟨_, mem_modPassOf_of_mem h (fun q => { q with executing := true }), rfl, rfl⟩

end Sys2Proof.Proofs
end


section
/-! The settlement of O60: each command by the lemmas about its part. -/

namespace Sys2Proof.Proofs
open Sys2Proof Sys2Proof.Machine Sys2Proof.Laws

/-! ### The commands of the pass -/

theorem execSwathExecutionStart_runs {p : Pass} {s : State} (hp : nextToRun s = some p) (hmend : p.mend = false) (hmissed : p.missed = [])
    (hmode : modeOf s = 4) (hreq : s.ctl.request = none) (hext : external s = false) (hturn : plcState s = pTurn)
    (hbar : geometryBar p s = none) : ∃ t, exec (.swathExecutionStart []) s = .next t ∧
      ∃ q ∈ t.dose.passes, q.index = p.index ∧ q.executing = true := by
  have hmem : p ∈ s.dose.passes := by
    revert hp
    unfold nextToRun
    split
    · exact fun h => nomatch h
    case _ q rest hlist =>
      split
      · exact fun h => nomatch h
      · intro h
        rw [hlist, Option.some.inj h]
        exact List.mem_cons_self
  obtain ⟨-, hstart, -⟩ := framesOfAPass
  refine ⟨startChecked p s, ?_, startChecked_runs hmem⟩
  rw [hstart p s hp hmode hreq (Or.inr hturn), startExecution_clean hbar hmend hmissed hext]

theorem execFrameBuild_single {strips : List (Nat × Nat)} {p : Pass} {m r n : Nat} {s : State} (hp : curPass s = some p)
    (hm : nextBuild (geom s) p = some m) (hready : linesReady (geom s) p m = true) (hcut : p.cut = none) (hexp : exposing p s = true)
    (hext : external s = false) (ht : s.dose.bsc.newT = none) (hv : s.dose.bsc.newV = none)
    (hrow : (rowsAt (geom s) p m).filter (fun rn => !p.dropped.contains rn) = [(r, n)]) (hports : p.blankPorts = [])
    (hmem : memoryBad (geom s) (rowIn p r n (dwellAt p.dir (firePos (geom s) p r n s) s) s) s = false) :
    ∃ t u q f, exec (.frameBuild [] strips) s = .next t ∧ t = tryComplete strips (if (bezelLine m (linesDone [n] strips u)).1
        then bezelBlock m (bezelLine m (linesDone [n] strips u)).2 else (bezelLine m (linesDone [n] strips u)).2) ∧
      curPass u = some q ∧ q.index = p.index ∧ m ∈ q.built ∧ q.frames = p.frames ++ [f] ∧ f.row = r ∧ f.line = n ∧ f.event = m ∧
      f.port = (rowAt (geom s) r).port ∧ f.sent = none ∧ f.blank = false := by
  obtain ⟨-, -, hbuild, -⟩ := framesOfAPass
  obtain ⟨u, hexec, hu⟩ := (hbuild [] strips p m s hp hm).2 hready hcut hexp hext
  obtain ⟨q, f, hq, hindex, hframes, hf⟩ := buildRow_appends hp hcut hports hmem
  obtain ⟨q', hq', hindex', hbuilt, hframes'⟩ := curPass_eventBuilt (m := m) hq
  rw [hrow, factorUpdate_none ht hv] at hu
  refine ⟨_, eventBuilt m (buildRow p m [] (r, n) s), q', f, hexec, ?_, hq', hindex'.trans hindex, hbuilt, hframes'.trans hframes, hf⟩
  rw [hu]
  rfl

theorem execFrameLate_drops {port event : Nat} {strips : List (Nat × Nat)} {p : Pass} {s : State} (hp : curPass s = some p)
    (hover : p.sendOver = false) (habandoned : p.abandoned = false) (hprof : p.profileOn = true) (hbuilt : event ∉ p.built) :
    ∃ t u q rows, exec (.frameLate port event strips) s = .next t ∧
      t = lateRows p port 1 strips rows u ∧ q ∈ u.dose.passes ∧ q.index = p.index ∧ (∀ rn ∈ rows, rn ∈ q.dropped) ∧
      (∀ rn, rn ∈ rows ↔ rn ∈ rowsAt (geom s) p event ∧ (rowAt (geom s) rn.1).port = port ∧ rn ∉ p.dropped) ∧ (rows = [] → t = u) := by
  obtain ⟨-, -, -, -, -, hlate⟩ := framesOfAPass
  obtain ⟨rows, hexec, hrows⟩ := hlate port event strips p s hp hover habandoned hprof hbuilt
  refine ⟨_, _, _, rows, hexec, rfl, mem_modPassOf_of_mem (curPass_mem hp) (fun q => { q with dropped := q.dropped ++ rows }), rfl,
    fun rn h => List.mem_append_right _ h, hrows, fun hnone => ?_⟩
  rw [hnone]
  rfl

/-! ### The dose-link ports -/

theorem doTickReplyRx_opens {p t2 t3 : Nat} {s : State} (hp : p < 4) (hst : lnkState p s = 9 ∨ lnkState p s = 10)
    (hok : (portOf s p).failed = false) (hwait : (portOf s p).waiting = true) (hkind : (portOf s p).kind = 1) (hlanes : 0 < (portOf s p).lanesOut) :
    ∃ t b, doTickReplyRx p 1 (portOf s p).exchange t2 t3 s = t ∧ .linkBlock p 7 b ∈ t.out ∧
      (portOf t p).exchange = ((portOf s p).exchange + 1) % 65536 ∧ (portOf t p).waiting = true ∧ (portOf t p).kind = 2 ∧
      lnkState p t = lnkState p s := by
  obtain ⟨w, hw⟩ : ∃ w, w = modPort p (fun x => { x with waiting := false }) s := ⟨_, rfl⟩
  have hport : portOf w p = { portOf s p with waiting := false } := hw ▸ portOf_modPort ..
  obtain ⟨b, hb⟩ := startExchange_sent (s := w) 2 (by rw [hport]; exact hlanes)
  have hnext := portOf_startExchange p 2 w
  refine ⟨startExchange p 2 w, b, hw ▸ doTickReplyRx_sync hp hst hok hwait hkind, hb, ?_, ?_, ?_, ?_⟩
  · rw [hnext, hport]
  · rw [hnext]
  · rw [hnext]
  · rw [lnkState_startExchange, hw]
    rfl

theorem doTelemetryRx_staged {p : Nat} {block : List Byte} {s : State} (hp : p < 4) (hup : lnkUp p s = true) (ht : bytesAt block 0 1 = 0x12)
    (hok : blockOk block = true) (hnone : waitingBuffer stTelemetry s = none)
    (hroom : (streamOf s stTelemetry).stagedBytes + (8 + block.length) ≤ 262144) :
    (doTelemetryRx p block s).out = .upload stTelemetry (leBytes 8 (ttNow s) ++ block) :: s.out ∧
      (streamOf (doTelemetryRx p block s) stTelemetry).staged = (streamOf s stTelemetry).staged ++ [leBytes 8 (ttNow s) ++ block] := by
  have hlen : (leBytes 8 (ttNow s) ++ block).length = 8 + block.length := by
    rw [List.length_append]
    rfl
  rw [doTelemetryRx_whole hp hup ht hok, uploadRecord_stages hnone (by rw [hlen]; exact hroom)]
  exact ⟨rfl, congrArg Stream.staged (streamOf_modStream ..)⟩

/-! ### Retirement and the helper DMA -/

theorem execRankRetire_migrates {v : Word32} {c l p : Nat} {s : State} (hkey : bit 31 v.toNat = true) (hc : bits 0 2 v.toNat = c)
    (hp : mapRank c (bits 2 1 v.toNat) s = p) (hfree : s.mem.migration = none) (hl : logicalFor c p s = some l) (hspare : spareOk c s = true) :
    ∃ t, exec (.rankRetire v) s = .next t ∧
      t.mem.migration = some { channel := c, logical := l, old := p, new := mapSpare c s, cause := 3, start := s.time.ns } ∧
      EventShows 180 t ∧ rd R.MEMC_MIGRATE_PTR t = 0 ∧ t.mem.dram = s.mem.dram := by
  obtain ⟨d, e⟩ := retireDue_migrates (cause := 3) hfree hl hspare
  have hwrite : writeRetire v.toNat s = retireDue c p 3 s := by
    unfold writeRetire
    dsimp only
    rw [if_pos hkey, hc, hp]
  refine ⟨_, congrArg Host.Outcome.next (hwrite.trans e), ?_, posted .., ?_, ?_⟩
  · rw [postEvent_mem]
    rfl
  · exact (rd_postEvent rfl ..).trans (rd_wr (by decide) ..)
  · rw [postEvent_mem]
    rfl

/-! ### The envelope -/

theorem execEnvelopeCheck_shorts {speeds : List Nat} {a : Nat} {s : State} (hmode : modeOf s ≠ 0) (ha : a < 6) (hbad : s.ctl.envBad = [])
    (hbefore : ∀ b < a, envKind b (speeds.getD b 0) s = 0) (hkind : envKind a (speeds.getD a 0) s ≠ 0) :
    ∃ t u, exec (.envelopeCheck speeds) s = .next t ∧
      t = each ((List.range 6).drop (a + 1)) (fun b w => envCheck b (speeds.getD b 0) w) u ∧ EventShows 230 u ∧
      (axisOf u a).prof = none ∧ (axisOf u a).rested = true ∧ (a = 5 → t = u) := by
  obtain ⟨-, houtside, -⟩ := bezelCommands
  obtain ⟨m, lim, d, e⟩ := houtside speeds a s hmode ha hbad hbefore hkind
  obtain ⟨hprof, hrested⟩ := axisOf_shortAxis a 1 (postEvent 230 a 2 0 ((0, 1, (envKind a (speeds.getD a 0) s : Nat)) :: d)
    (bezelTrip 4 a m lim 0 (modCtl (fun c => { c with envBad := [a] }) s)))
  refine ⟨_, _, e, rfl, shows_shortAxis a 1 (posted ..), hprof, hrested, fun hlast => ?_⟩
  subst hlast
  rfl

/-- Settles O60: each command is rewritten to what the lemmas above say it leaves under its conditions. -/
theorem commandsTakeEffect : Obligations.CommandsTakeEffect := by
  unfold Obligations.CommandsTakeEffect
  refine ⟨?start, ?build, ?late, ?sample, ?edge, ?tick, ?telemetry, ?ack, ?clock, ?request, ?retire, ?beat, ?servo, ?ptp, ?release, ?held, ?bezel,
    ?brownout, ?up, ?cool, ?envelope, ?estop⟩
  case start =>
    exact fun p s hp hmend hmissed hmode hreq hext hturn hbar => execSwathExecutionStart_runs hp hmend hmissed hmode hreq hext hturn hbar
  case build =>
    exact fun strips p m r n s hp hm hready hcut hexp hext ht hv hrow hports hmem =>
      execFrameBuild_single hp hm hready hcut hexp hext ht hv hrow hports hmem
  case late => exact fun port event strips p s hp hover habandoned hprof hbuilt => execFrameLate_drops hp hover habandoned hprof hbuilt
  case sample => exact fun a up s h1 h6 hsrc hok hfollow => ⟨_, rfl, doPositionSample_moves h1 h6 hsrc hok hfollow⟩
  case edge =>
    intro a dir bad s h1 h6 hsrc hother
    obtain ⟨hpos, hdir, hns, -⟩ := stepEdge_counts h1 dir bad hsrc
    exact ⟨_, congrArg Host.Outcome.next (stepInputEdge_only h1 h6 dir bad hsrc hother), hpos, hdir, hns⟩
  case tick =>
    intro p t2 t3 s hp hst hok hwait hkind hlanes
    obtain ⟨t, b, e, hsent⟩ := doTickReplyRx_opens (t2 := t2) (t3 := t3) hp hst hok hwait hkind hlanes
    exact ⟨t, b, congrArg Host.Outcome.next e, hsent⟩
  case telemetry => exact fun p block s hp hup ht hok hnone hroom => ⟨_, rfl, doTelemetryRx_staged hp hup ht hok hnone hroom⟩
  case ack =>
    intro p strips q f s hd hq hf hport hsent
    obtain ⟨u, e⟩ := resolveTimeout_withholds q f s
    refine ⟨_, congrArg Host.Outcome.next ((doAckTimeout_oldest strips hd (oldestOn_one hq hf hport hsent)).trans ?_), resolve_records hport true u⟩
    rw [e]
  case clock =>
    intro p strips q f s hstopped hq hf hport hsent
    obtain ⟨u, e⟩ := resolveBlanked_link q f (modPort p (fun x => { x with clockStopped := false }) s)
    refine ⟨_, congrArg Host.Outcome.next ((if_pos hstopped).trans ((resolveAll_one (s := modPort p (fun x => { x with clockStopped := false }) s)
      hq hf hport hsent strips _).trans ?_)), resolve_records hport false u⟩
    rw [← e]
    rfl
  case request =>
    exact fun r h late s hr h2 hh hnew => ⟨_, congrArg Host.Outcome.next (doArbRequest_waits hr h2 hh hnew late), rfl, requesting_raised ..⟩
  case retire => exact fun v c l p s hkey hc hp hfree hl hspare => execRankRetire_migrates hkey hc hp hfree hl hspare
  case beat =>
    intro c l n dst b s hc hrun hpace hcount hn hchain hspace hdst hbeat hin hfits hread
    exact ⟨_, congrArg Host.Outcome.next
      (doUdmaDescriptorDone_last hc hrun (runBeats_last hrun hpace hcount hn hspace hdst hbeat hin hfits hread) l), finishWork_last hc hchain⟩
  case servo => exact fun θ s hsrc hoff hservo hhost h3 => ⟨_, rfl, doServoSample_stores hsrc hoff hservo hhost h3⟩
  case ptp =>
    intro p kind seq turn corr s hp hclock hon
    obtain ⟨o, c, e, hsent⟩ := doPtpMessageTx_sends (kind := kind) (seq := seq) (turn := turn) (corr := corr) hp hclock hon
    exact ⟨_, o, c, _, congrArg Host.Outcome.next e, rfl, hsent⟩
  case release => exact fun m inp s hd hrails hstep hall => ⟨_, rfl, releaseSources_fuseLoad hd hrails hstep hall⟩
  case held => exact fun m k l inp s hd hk hbit hreach => congrArg Host.Outcome.next (releaseSources_waits hd hk hbit hreach)
  case bezel =>
    refine fun inp s hd hrails hstep honly => ⟨_, rfl, releaseSources_fuseLoad hd hrails hstep fun k hk => ?_⟩
    rw [honly, List.mem_singleton] at hk
    rw [hk]
    rfl
  case brownout =>
    exact fun bulk bus inp s hbulk hbus honly hd hrails hstep => ⟨_, rfl, doBrownoutRelease_fuseLoad hbulk hbus honly hd hrails hstep⟩
  case up =>
    exact fun inp s hrails hnone hreach =>
      ⟨_, congrArg Host.Outcome.next (doPowerUp_railsOff hrails (by rw [hnone]; rfl)), powerUp_fuseLoad hnone hreach⟩
  case cool => exact fun inp s hrails honly hreach => ⟨_, rfl, doThermtripCool_fuseLoad hrails honly hreach⟩
  case envelope => exact fun speeds a s hmode ha hbad hbefore hkind => execEnvelopeCheck_shorts hmode ha hbad hbefore hkind
  case estop => exact fun s h => ⟨_, rfl, doEstopStopTimeout_holds h⟩

end Sys2Proof.Proofs
end
